-- ==== Sys2Proof/Word.lean ====
section
/-! DEFINITION. The word types of the block: bytes, 32-bit register words, and the table and byte-store
shapes that every part of the state is made of. -/

namespace Sys2Proof

/-- One byte of a record, a request page or a memory. -/
abbrev Byte := BitVec 8

/-- One 32-bit word of the control space (R143, R147). -/
abbrev Word := BitVec 32

/-- The low `n` bits of `v` starting at bit `lo` (the ranges of R9). -/
def bits (v lo n : Nat) : Nat := v / 2 ^ lo % 2 ^ n

/-- One bit of a number. -/
def bit (v i : Nat) : Bool := v / 2 ^ i % 2 == 1

/-- A Boolean as 0 or 1, as register fields hold it. -/
def b2n (b : Bool) : Nat := if b then 1 else 0

/-- The two's-complement reading of the low `n` bits of `v` (sQ formats, R12). -/
def signed (n v : Nat) : Int :=
  let w := v % 2 ^ n
  if w < 2 ^ (n - 1) then (w : Int) else (w : Int) - (2 ^ n : Nat)

/-- The `n`-bit two's-complement image of an integer. -/
def unsigned (n : Nat) (i : Int) : Nat := (i % ((2 ^ n : Nat) : Int)).toNat

end Sys2Proof
end

