-- ==== Sys2Proof/Syntax.lean ====
section
/-! DEFINITION. The commands and events of the KR-860, one constructor for each row of the opcode table. A
mailbox command carries its channel alone: its payload is the request page that MBX_DOORBELL took (R151).
An event that has a moment of its own carries it as `at_`, the elapsed time since power-on reset in
2^-16 ns (log entry 6). -/

namespace Sys2Proof

/-- How the physical work of CLOCKS ends (R107, R108). -/
inductive ClockOutcome where
  | ok
  | pllLock (die island : Nat)
  | powerGood (die domain : Nat)
  deriving DecidableEq, Repr

/-- A malformed private transfer (R146, R181): what was wrong, with the address and words that were whole. -/
inductive Malformed where
  | unaligned (addr : Word)
  | trailing (addr : Word) (words : List Word)
  | sdrParity (addr : Word) (words : List Word)
  | hdrCrc (addr : Word) (words : List Word)
  | hdrCommand (code : Byte)
  | short (bytes : Nat)
  | overLength (addr : Word) (words : List Word)
  deriving DecidableEq, Repr

/-- A PTP message as received on a port (R213, R225): the fields the rules use. -/
structure PtpMsg where
  domain : Nat
  version : Nat
  lengthOk : Bool
  messageLength : Nat
  messageType : Nat
  sequenceId : Nat
  twoStep : Bool
  correction : Int
  seconds : Nat
  nanos : Nat
  stepsRemoved : Nat
  grandmaster : BitVec 64
  rank : Nat
  udpOk : Bool
  udpPort : Nat
  gptp : Bool
  deriving DecidableEq, Repr

/-- What the error codes did in one memory request (R382, R383, R403): nothing, a corrected or an uncorrectable read of
the channel, an uncorrectable SRAM error in the sector read, or in the dirty sector a slice evicts. -/
inductive EccHit where
  | clean
  | corrected
  | uncorrectable
  | sliceData
  | victim
  deriving DecidableEq, Repr


/-- What a source reports to a consistency check (R505): identifier, estimate, and the upper triangle of its covariance in row
order, in binary32. -/
structure Estimate where
  source : Nat
  x : List Nat
  cov : List Nat
  deriving DecidableEq, Repr

/-- What the fusion network writes for a cell that some slot reached (R519, R522): cell index, OCC, TRAV, CLASS, CONF, HEIGHT as
stored, and the slots. DESIGN CHOICE: log entry 68. Also R501 to R503. -/
structure CellOut where
  index : Nat
  occ : Nat
  trav : Nat
  cls : Nat
  conf : Nat
  height : Nat
  slots : List Nat
  deriving DecidableEq, Repr

/-- How a solve of firmware went (R565): what ended it apart from its deadline, whether that found it in the linear phase, and
the fields of its result header. -/
structure SlvOut where
  converged : Bool
  capped : Bool
  range : Bool
  inLinear : Bool
  cold : Bool
  partial_ : Bool
  retried : Bool
  iter : Nat
  matched : Nat
  nvar : Nat
  nsat : Nat
  cheiral : Nat
  costWarm : Nat
  costFinal : Nat
  signature : Nat
  deriving DecidableEq, Repr

/-- One state of a solved window (R590): quaternion in sQ1.62, position, velocity, gyro and force biases in sQ31.32. -/
structure StateOut where
  q : List Int
  t : List Int
  v : List Int
  bg : List Int
  ba : List Int
  deriving DecidableEq, Repr

/-- An inlier of the newest state (R582): its track and position in uQ16.16 pixels; its place in the body frame in sQ31.32, its
deviation and the descriptor entry of its track, which a new landmark takes (R626). -/
structure InlierOut where
  track : Nat
  u : Nat
  v : Nat
  pos : List Int
  sigma : Nat
  desc : List Byte
  deriving DecidableEq, Repr

/-- What solves, units and networks give a TICK commit: the window oldest first, COV of R610, the inliers, the place code, the
covariance of the pose relative to the last keyframe (R594), the cells the network wrote, points lifted by die, and the
tracks that may become initialisation landmarks (R585): how many of the last INIT_FRAMES frames tracked each, and its depth
in mm by a disparity of status 0 in its first such frame. DESIGN CHOICE: log entry 68. DESIGN CHOICE: log entry 69. -/
structure TickOut where
  states : List StateOut
  cov : List Nat
  inliers : List InlierOut
  code : List Byte
  relCov : List Nat
  cells : List CellOut
  lifted : List (Nat × Nat)
  marks : List (Nat × Nat)
  deriving DecidableEq, Repr

/-- What a LOOP job's verification and solve give (R603, R604): the verified keyframe and its inliers, the relative pose from
it with its covariance, and the poses of the solved keyframes. -/
structure LoopOut where
  found : Nat
  inliers : Nat
  q : List Int
  t : List Int
  cov : List Nat
  poses : List (Nat × List Int × List Int)
  deriving DecidableEq, Repr

/-- What a job's units and engines give its commit, beyond what State holds: nothing, that of a TICK job, of a verified LOOP
job, or the pose of a calibration-refinement solve (R515). DESIGN CHOICE: log entry 69. -/
inductive CommitOut where
  | plain
  | tick (x : TickOut)
  | loop (x : LoopOut)
  | refine (q t : List Int)
  deriving DecidableEq, Repr

/-- A failing bit that a march finds (R791). -/
structure StFind where
  bank : Nat
  row : Nat
  word : Nat
  bit : Nat
  element : Nat
  expected : Bool
  deriving DecidableEq, Repr

/-- What a self-test slice comes to: the failing bits of its march, the banks whose second march fails (R787), and the expected
and the observed signature (R782). -/
structure SliceOut where
  finds : List StFind
  again : List Nat
  sigExp : Nat
  sigObs : Nat
  deriving DecidableEq, Repr

/-- An instruction of the debug port (R815), with the die of a control-space access and the word of a memory access. -/
inductive TapInstr where
  | idcode
  | bypass (value n : Nat)
  | memRead (pa n : Nat)
  | memWrite (pa : Nat) (bytes : List Byte)
  | ctlRead (addr : Word)
  | ctlWrite (addr value : Word)
  | cp
  | scan
  deriving DecidableEq, Repr


/-- The commands and events of the block, one constructor per row of the opcode table, in its order. -/
inductive Instr where
  /-- R85. Supplies come up: every die-common domain is powered, all other domains stay off, the boot clock
      starts and BOOT_STATUS is IDLE. -/
  | powerOnReset
  /-- R85. The package reset ball is driven low, which resets the package to the power-on state. -/
  | packageResetAssert
  /-- R86. The reset ball is released and the I3C target begins answering at static address 0x2A within 5 ms. -/
  | packageResetRelease
  /-- R822. A supervised rail stays below 92 % of nominal for 20 us, which resets the package as the reset
      ball does. -/
  | supplyUndervoltage
  /-- R141. 10 ms after reset release with no dynamic address, the device sends its one hot-join request
      unless DISEC disabled hot-join. -/
  | hotJoinRequest
  /-- R177. The ENEC CCC enables IBIs and hot-join. -/
  | enec
  /-- R177. The DISEC CCC disables IBIs and hot-join, so causes arising meanwhile raise no IBI later. -/
  | disec
  /-- R142. The RSTDAA CCC removes the dynamic address; IBIs are held and private transfers are taken again at
      0x2A. -/
  | rstdaa
  /-- R137. The ENTDAA CCC assigns a dynamic address by arbitration on the provisioned ID. -/
  | entdaa (addr : BitVec 7)
  /-- R47. The SETDASA CCC at 0x2A assigns a dynamic address to every device still lacking one. -/
  | setdasa (addr : BitVec 7)
  /-- R136. The SETNEWDA CCC changes the dynamic address. -/
  | setnewda (addr : BitVec 7)
  /-- R139. The SETMWL CCC sets the maximum write length, clamped to 8 to 4,096. -/
  | setmwl (len : Nat)
  /-- R139. The SETMRL CCC sets the maximum read length, clamped to 8 to 4,096. -/
  | setmrl (len : Nat)
  /-- R139. The GETMWL CCC returns the clamped maximum write length. -/
  | getmwl
  /-- R139. The GETMRL CCC returns the clamped maximum read length. -/
  | getmrl
  /-- R137. The GETPID CCC returns the 48-bit provisioned ID built from the manufacturer code and
      BOOT_ID_SERIAL_LO. -/
  | getpid
  /-- R138. The GETBCR CCC returns 0x26. -/
  | getbcr
  /-- R138. The GETDCR CCC returns 0x00. -/
  | getdcr
  /-- R837. The GETSTATUS CCC returns the pending-IBI count, the protocol error bit (then cleared) and the
      next IBI data byte. -/
  | getstatus
  /-- R136. The GETCAPS CCC returns the target capabilities. -/
  | getcaps
  /-- R140. The RSTACT CCC sets the action that the next target reset pattern takes. -/
  | rstact (action : Byte)
  /-- R136. The ENTHDR0 CCC enters HDR-DDR mode. -/
  | enthdr0
  /-- R181. A CCC not in the supported list is NACKed and logged with IFACE 0 code 0x09. -/
  | unsupportedCcc (code : Byte)
  /-- R146. ENTHDR1, ENTHDR2 or ENTHDR3 makes the device ignore the bus until the HDR exit pattern, logged
      with code 0x07. -/
  | enthdrUnsupported (mode : Nat)
  /-- R146. The HDR exit pattern returns the target to SDR and ends any ignoring of the bus. -/
  | hdrExit
  /-- R140. A target reset pattern resets the I3C target logic, or the whole package when RSTACT 0x02 is in
      force. -/
  | targetResetPattern
  /-- R143. A private write carrying only the 4-byte address sets the read pointer and changes no register. -/
  | i3cAddressWrite (addr : Word)
  /-- R146. A write that is unaligned, shorter than its address, over length, or has a parity or CRC error is
      discarded in whole or from the failing word and logged. -/
  | i3cMalformedTransfer (m : Malformed)
  /-- R18. A word written to a register with no behaviour of its own is applied, or ignored and logged per its
      access code and window state. -/
  | registerWrite (addr : Word) (words : List Word)
  /-- R18. A fully taken read of an RC register returns its value and then clears it to zero. -/
  | rcRegisterRead (words : Nat)
  /-- R177. The device raises the pending IBI with the lowest data byte once it holds a dynamic address and
      the bus allows. -/
  | ibiSend (acked : Bool)
  /-- R98. BOOT_STEP 0x01 checks BOOT_ID_GRADE.VALID and fails GRADE_INVALID when it is 0. -/
  | ident
  /-- R99. BOOT_STEP 0x02 reads every die's defect fuses, applies the repairs, builds the package defect view
      and computes routes. -/
  | fuseLoad
  /-- R103. BOOT_STEP 0x03 runs March C- and loopback tests die by die and adds unrepaired finds to the soft
      defect list. -/
  | sweep (finds : List Word)
  /-- R107. BOOT_STEP 0x04 locks every PLL, sets island clocks and switches on the remaining domains die by
      die. -/
  | clocks (outcome : ClockOutcome)
  /-- R110. BOOT_STEP 0x05 starts training of the 48 LPDDR6, die-link, MIPI and Ethernet items in parallel. -/
  | train
  /-- R112. One training item ends with PASS, DEGRADED, NO_PARTNER, FAIL or DISABLED in BOOT_TRAIN_k. -/
  | trainItemEnd (item : Fin 48) (status : Nat) (density : Nat)
  /-- R116. BOOT_STEP 0x06 reads and checks the image header and takes the image from SPI NOR or enters
      WAIT_DATA for I3C. -/
  | fwLoad
  /-- R120. A write to the firmware window is accepted only at BOOT_FWPTR in WAIT_DATA and within IMG_LEN;
      otherwise it is ignored and logged. -/
  | bootFwwinWrite (offset : Nat) (words : List Word)
  /-- R121. 10 s pass with no accepted firmware-window write, and FW_LOAD fails with LOAD_IDLE. -/
  | loadIdle
  /-- R123. BOOT_STEP 0x07 verifies both signatures, both key digests and the rollback count. -/
  | fwVerify
  /-- R125. BOOT_STEP 0x08 starts the lead CP, which starts the follower CPs and opens the MBX, TIME and DIAG
      windows. -/
  | fwStart (reported : BitVec 8)
  /-- R127. BOOT_STEP 0x09 runs known-answer slices on every engine and unit and spares failing units. -/
  | kat (engines : List (Nat × Nat)) (units : List Nat)
  /-- R130. BOOT_STEP 0x0A fixes the defect-map digest, sets BOOT_STATUS.READY and applies Profile 0 unless
      NO_DEFAULT is set. -/
  | ready
  /-- R94. A boot step completes or fails; STATE, LAST_DONE or BOOT_FAIL are written and the step IBI is
      raised. -/
  | bootStepEnd
  /-- R92. A boot step runs past its limit and fails with STEP_TIMEOUT. -/
  | stepTimeout
  /-- R90. Writing 0x0860_DEAD to BOOT_RESET resets the package; any other value is logged. -/
  | bootReset (key : Word)
  /-- R169. A write of the ring read count is applied, or ignored and logged when out of range. -/
  | evtRingRdWrite (value : Word)
  /-- R178. Writing EVT_VLOG_IDX latches violation log entry IDX into EVT_VLOG_W0 to W3. -/
  | evtVlogIdxWrite (value : Word)
  /-- R734. Writing EVT_FLOG_IDX latches fault log entry IDX into EVT_FLOG_W0 to W6. -/
  | evtFlogIdxWrite (value : Word)
  /-- R226. TIME_SNAP_CTL.LATCH latches device time into TIME_SNAP at the end of the write, cancelling a
      pending ON_PPS. -/
  | latch
  /-- R226. TIME_SNAP_CTL.ON_PPS arms a latch of device time at the next qualified PPS in edge. -/
  | onPps
  /-- R151. Writing 0x0000_0001 to a channel doorbell in IDLE or RESP takes the request page and starts the
      command. -/
  | mbxDoorbell (ch : Fin 8) (value : Word)
  /-- R151. MBX_CHCTL.FLUSH empties the channel's sequence store in IDLE or RESP. -/
  | flush (ch : Fin 8)
  /-- R151. The response page is written, the channel goes RESP and IBI 0x20 + c is raised if requested. -/
  | mbxResponseFormed (ch : Fin 8)
  /-- R170. Echoes the request payload. -/
  | nop (ch : Fin 8)
  /-- R170. Returns the state, final status and result length of a handle. -/
  | handleQuery (ch : Fin 8)
  /-- R171. Returns part of a completed handle's result and optionally releases the handle. -/
  | resultGet (ch : Fin 8)
  /-- R172. Asks a pending operation to stop at its next boundary with CANCELLED. -/
  | handleCancel (ch : Fin 8)
  /-- R170. Lists the held handles in ascending order. -/
  | handleList (ch : Fin 8)
  /-- R173. Starts a latch of every die's 512-byte counter summary at one device time. -/
  | diagCollect (ch : Fin 8)
  /-- R173. The counter summaries are latched and the handle completes with its ring entry. -/
  | diagLatch
  /-- R228. Returns device time and servo status. -/
  | timeStatus (ch : Fin 8)
  /-- R192. Sets the time source mode, domain, flags, HOLD_MAX and step threshold. -/
  | timeConfig (ch : Fin 8)
  /-- R199. Sets device time as a step, permitted only under source 0, 1 or 4. -/
  | timeSet (ch : Fin 8)
  /-- R211. Stores a latency compensation record for a port. -/
  | compSet (ch : Fin 8)
  /-- R211. Returns a port's compensation record. -/
  | compGet (ch : Fin 8)
  /-- R207. Starts, changes or stops a trigger group's schedule. -/
  | trigGroup (ch : Fin 8)
  /-- R204. Attaches or detaches a timing output with its kind, polarity, offset and width. -/
  | trigOut (ch : Fin 8)
  /-- R217. Sets the PTP role, transport and intervals of an Ethernet port. -/
  | ptpPort (ch : Fin 8)
  /-- R228. Returns a port's PTP state, peer delay and counters. -/
  | ptpPortStatus (ch : Fin 8)
  /-- R202. Sets PPS in and PPS out enables, polarity, delays and width. -/
  | ppsConfig (ch : Fin 8)
  /-- R205. A trigger group edge falls and drives its outputs' pulses; a tick-group edge admits a TICK job. -/
  | triggerEdge (group : Fin 8)
  /-- R205. An output pulse reaches the end of its width and returns to the inactive level. -/
  | pulseEnd (output : Fin 16)
  /-- R200. An active PPS in edge is stamped and judged qualified or not. -/
  | ppsInEdge (at_ : Nat)
  /-- R201. PPS in becomes qualified after 3 consecutive qualified edges. -/
  | ppsQualified
  /-- R202. 2 s pass without a qualified edge, and PPS in is lost. -/
  | ppsLost
  /-- R203. PPS out rises at each whole second of device time, advanced by OUT_DELAY. -/
  | ppsOutRise
  /-- R203. PPS out falls at the end of OUT_WIDTH. -/
  | ppsOutFall
  /-- R213. A PTP message for the ordinary clock is taken, giving BMCA input or an offset sample to the servo. -/
  | ptpMessageRx (port : Fin 4) (msg : PtpMsg) (at_ : Nat)
  /-- R193. 16 consecutive samples below 100 ns take the servo to LOCKED. -/
  | servoLock
  /-- R194. 8 consecutive samples above the step threshold take the servo back to ACQUIRE. -/
  | servoUnlock
  /-- R218. The Announce or Sync timeout expires and the selected master is lost. -/
  | ptpMasterLost
  /-- R198. HOLD_MAX seconds of holdover elapse and the servo goes FREE. -/
  | holdMaxExpiry
  /-- R213. At its interval the device sends Sync, Announce, Delay_Req or Pdelay messages for its role. -/
  | ptpMessageTx (port : Fin 4) (messageType : Nat) (at_ : Nat)
  /-- R220. A PTP event message crosses a transparent-clock bridge and its residence time is computed. -/
  | ptpEventForward (port : Fin 4) (msg : PtpMsg) (rx : Nat) (tx : Nat)
  /-- R221. A held two-step residence value older than 1 s is dropped. -/
  | residenceEntryExpiry (port : Fin 4)
  /-- R195. A pending step is applied when no TICK job runs or waits, or when 100 ms have passed. -/
  | timeStepApply
  /-- R185. A time base slave offset above 50 ns for 1 ms sets EVT_FAULTDIE.TB and TB_FAULT. -/
  | tbSlaveFault (die : Fin 8) (offset : Nat)
  /-- R230. Enables, disables or configures a stream's buffers, usability and timeouts. -/
  | streamConfig (ch : Fin 8)
  /-- R277. Returns a stream's state and counters. -/
  | streamStatus (ch : Fin 8)
  /-- R236. Sets a CSI-2 receive port's PHY, lanes, VC, DT, size and embedded data. -/
  | csiPort (ch : Fin 8)
  /-- R270. Enables a stereo pair with its nominal period. -/
  | pairConfig (ch : Fin 8)
  /-- R248. Sets an Ethernet port's VLAN, addresses and bulk UDP port. -/
  | ethPort (ch : Fin 8)
  /-- R277. Returns an Ethernet port's MAC, rate and counters. -/
  | ethStatus (ch : Fin 8)
  /-- R249. Configures a lidar stream's match, point layout and sweep timing. -/
  | lidarStream (ch : Fin 8)
  /-- R257. Configures an SPI IMU port's transaction and field specifications. -/
  | imuPort (ch : Fin 8)
  /-- R260. Configures an encoder's mode, glitch filter, CPR and rate. -/
  | encConfig (ch : Fin 8)
  /-- R263. Enables and sets the rates of a CAN FD controller. -/
  | canController (ch : Fin 8)
  /-- R264. Sets a CAN receive filter and its signals. -/
  | canFilter (ch : Fin 8)
  /-- R274. Opens a host bulk transfer into a buffer over CSI-2 or Ethernet. -/
  | bulkOpen (ch : Fin 8)
  /-- R239. A frame-start packet takes the oldest free frame buffer, or drops the frame for NOBUF. -/
  | csiFrameStart (port : Fin 16) (vc : Nat) (frameNum : Nat) (ecc : Nat) (at_ : Nat)
  /-- R240. An image long packet lands as a line, masking it on error, and advances the line counter each 64
      lines. -/
  | csiLinePacket (port : Fin 16) (vc : Nat) (dt : Nat) (ecc : Nat) (crcOk : Bool) (pixels : List Nat) (words : Nat)
  /-- R241. An embedded data packet gives the frame's exposure. -/
  | csiEmbeddedData (port : Fin 16) (vc : Nat) (ecc : Nat) (bytes : List Byte)
  /-- R238. A frame-end packet closes the frame, writes its record and offers it to pairing and consumers. -/
  | csiFrameEnd (port : Fin 16) (vc : Nat) (ecc : Nat) (at_ : Nat)
  /-- R273. 8 consecutive primary frames released unpaired take the pair to LOST. -/
  | pairLost (pair : Fin 8)
  /-- R273. 3 consecutive pairs return a LOST pair to PAIRED. -/
  | pairRecover (pair : Fin 8)
  /-- R242. No frame end within FRAME_TIMEOUT closes the frame INCOMPLETE with missing lines masked. -/
  | frameTimeout (port : Fin 16)
  /-- R275. A bulk packet on BULK_VC is checked and written into its transfer buffer. -/
  | csiBulkPacket (port : Fin 16) (vc : Nat) (dt : Nat) (ecc : Nat) (bytes : List Byte)
  /-- R246. A received Ethernet frame is dropped, consumed, forwarded or offered to ARP, NDP, lidar and bulk
      functions. -/
  | ethFrameRx (port : Fin 4) (frame : List Byte) (fcsOk : Bool) (at_ : Nat)
  /-- R253. A sweep closes at the first later point or at its end boundary plus a quarter period. -/
  | sweepClose (stream : Nat)
  /-- R247. An egress queue sends its next frame in strict priority. -/
  | ethFrameTx (port : Fin 4)
  /-- R257. A data-ready edge is stamped and starts an SPI transaction within 0.5 us. -/
  | imuDataReady (port : Fin 4) (at_ : Nat)
  /-- R258. The SPI transaction ends and the sample is status-checked, parsed and stored. -/
  | imuTransactionDone (port : Fin 4) (bytes : List Byte)
  /-- R260. A filtered encoder edge changes the count, or an illegal transition is logged. -/
  | encoderEdge (enc : Fin 8) (a : Bool) (b : Bool) (at_ : Nat)
  /-- R261. An index edge latches the count and checks it against CPR. -/
  | encoderIndex (enc : Fin 8) (at_ : Nat)
  /-- R262. At each sample instant an encoder record is stored. -/
  | encoderSample (enc : Fin 8)
  /-- R264. A received CAN frame is filtered and its signals extracted into a sample. -/
  | canFrameRx (ctrl : Fin 2) (fd : Bool) (extended : Bool) (remote : Bool) (id : Nat) (data : List Byte) (at_ : Nat)
  /-- R269. A controller enters error passive or bus-off, logged, with automatic bus-off recovery. -/
  | canErrorState (ctrl : Fin 2) (busOff : Bool) (tec : Nat) (rec : Nat)
  /-- R230. No usable sample for TIMEOUT takes a stream to DROPOUT and masks it. -/
  | streamDropout (stream : Nat)
  /-- R230. RECOVER consecutive usable samples return a stream from DROPOUT to ACTIVE. -/
  | streamRecover (stream : Nat)
  /-- R286. Configures or enables an SFE channel, causing a channel start. -/
  | sfeChannel (ch : Fin 8)
  /-- R302. Sets the auxiliary scan mode, OSR, settle time and period of a die. -/
  | sfeAuxScan (ch : Fin 8)
  /-- R315. Sets the excitation output mode, frequency, amplitude and phase. -/
  | sfeExc (ch : Fin 8)
  /-- R312. Configures a main channel's detectors. -/
  | sfeDetect (ch : Fin 8)
  /-- R306. Starts an internal calibration or writes OFFSET and GAIN directly. -/
  | sfeCal (ch : Fin 8)
  /-- R323. Returns an SFE stream's state and figures. -/
  | sfeStatus (ch : Fin 8)
  /-- R323. Returns filter coefficients of a stage. -/
  | sfeCoefGet (ch : Fin 8)
  /-- R286. At S0 the channel's grid begins and it enters SETTLING. -/
  | sfeChannelStart (stream : Nat)
  /-- R291. The shell emits an output sample GD after its instant and writes its record. -/
  | sfeOutputSample (stream : Nat) (raw : List Int) (raw2 : List Int)
  /-- R312. A detector window's record is emitted GD_DET_H after the window ends. -/
  | sfeDetectorWindow (stream : Nat) (raw : List Int) (raw2 : List Int)
  /-- R304. Scan k starts and converts the enabled auxiliary inputs in order. -/
  | sfeAuxScanStart (die : Fin 8) (raw : List Int)
  /-- R308. An internal calibration ends and its values are applied or rejected with OUTCOME. -/
  | sfeCalDone (die : Fin 8) (m0 : Int) (m1 : Int) (full : Bool)
  /-- R282. IEPE bias outside 2 to 20 V for 10 ms puts the stream in FAULT. -/
  | iepeBiasFault (stream : Nat)
  /-- R319. AMPL below 0.05 for 8 outputs is loss of signal and puts the stream in FAULT. -/
  | resolverLos (stream : Nat)
  /-- R299. Bias in window for 100 ms or 8 good resolver outputs returns the stream to ACTIVE. -/
  | sfeFaultRecover (stream : Nat)
  /-- R320. Each 1 ms PHASE_C moves toward the quadrature null. -/
  | phaseAutoUpdate (stream : Nat)
  /-- R324. Excitation above 50 mA peak switches the output off and is logged. -/
  | excOvercurrent (die : Fin 8)
  /-- R324. An input beyond its absolute range activates the clamp and is logged. -/
  | sfeInputClamp (stream : Nat)
  /-- R749. Submits a host job image as a USER job. -/
  | jobSubmit (ch : Fin 8)
  /-- R749. Returns a job's class, state and restarts. -/
  | jobStatus (ch : Fin 8)
  /-- R749. Lists active jobs. -/
  | jobList (ch : Fin 8)
  /-- R749. Sets the restart limit and wait limit of firmware jobs. -/
  | jobConfig (ch : Fin 8)
  /-- R738. Resets one domain of one powered die. -/
  | partReset (ch : Fin 8)
  /-- R740. Powers a follower die off and on again. -/
  | dieReset (ch : Fin 8)
  /-- R748. Checks and applies a profile image or Profile 0. -/
  | profileLoad (ch : Fin 8)
  /-- R748. Stops the profile's jobs and frees its buffers and units. -/
  | profileUnload (ch : Fin 8)
  /-- R749. Returns the active profile's state and digest. -/
  | profileStatus (ch : Fin 8)
  /-- R374. Returns a cluster's slot map and counters. -/
  | clusterStatus (ch : Fin 8)
  /-- R374. Returns a physical unit's state and counters. -/
  | unitStatus (ch : Fin 8)
  /-- R714. A waiting job is placed once units, grants and places are free, taking its INOUT snapshots. -/
  | jobPlace (job : Nat)
  /-- R712. Every unit has acknowledged its packets and the job starts RUNNING. -/
  | jobLoaded (job : Nat)
  /-- R367. A configuration broadcast packet is written to a cluster's broadcast port. -/
  | bcastPacket (job : Nat) (part : Nat)
  /-- R368. A unit answers ACK or NACK to a packet. -/
  | bcastAnswer (cluster : Fin 64) (slot : Fin 16) (seq : Nat) (ack : Bool)
  /-- R368. No answer within 2 us of the packet's last flit counts as a miss. -/
  | bcastAckTimeout (cluster : Fin 64) (slot : Fin 16) (seq : Nat)
  /-- R348. A unit's sequencer starts the next descriptor once its wait is met. -/
  | descriptorIssue (unit : Fin 1088)
  /-- R356. A signal adds to or sets a landing flag once its writes are visible. -/
  | flagSignal (unit : Fin 1088)
  /-- R356. A flag reaches WAIT_COUNT and the waiting unit resumes. -/
  | flagWaitMet (unit : Fin 1088)
  /-- R360. A wait not met within the job's wait limit faults the job. -/
  | waitTimeout (unit : Fin 1088)
  /-- R361. A memory operation's completion returns and frees its tag, or an error completion faults the job. -/
  | memCompletion (requester : Nat) (error : Nat)
  /-- R373. A unit reaches END and reports its part ready, or LOADING for the next segment. -/
  | unitEnd (unit : Fin 1088)
  /-- R406. CP DMA executes a prefetch schedule entry once its wait flag is met. -/
  | schedEntryCopy (job : Nat)
  /-- R410. A window slot load starts once the slot is released and the previous load done. -/
  | windowSlotLoad (job : Nat)
  /-- R399. An access reaches its home slice and is served as hit, fill, allocation or write-through. -/
  | mscRequest (pa : Nat) (len : Nat) (write : Bool) (policy : Fin 3) (ecc : EccHit)
  /-- R385. The controller reads the next sector for the 12-hour patrol scrub and writes back corrections. -/
  | patrolScrub (channel : Fin 16) (ecc : EccHit)
  /-- R414. Returns capacity and per-channel free pitches and errors. -/
  | memStatus (ch : Fin 8)
  /-- R391. Allocates a host buffer with a placement. -/
  | bufAlloc (ch : Fin 8)
  /-- R395. Frees a host buffer. -/
  | bufFree (ch : Fin 8)
  /-- R414. Returns a buffer's state and pitch bases. -/
  | bufInfo (ch : Fin 8)
  /-- R415. Reads bytes of a buffer. -/
  | memRead (ch : Fin 8)
  /-- R415. Writes bytes into a READY host buffer. -/
  | memWrite (ch : Fin 8)
  /-- R446. Sets a pair's stereo settings. -/
  | steConfig (ch : Fin 8)
  /-- R447. Sets a view's rectification map. -/
  | steMap (ch : Fin 8)
  /-- R447. Sets a view's static mask. -/
  | steMask (ch : Fin 8)
  /-- R450. Returns a pair's STE state and last results. -/
  | steStatus (ch : Fin 8)
  /-- R451. Runs one STE operation on two frames as a USER job. -/
  | steRun (ch : Fin 8)
  /-- R421. A rectified band is built once the port's line counter covers its source lines. -/
  | steBandBuild (die : Fin 8) (view : Fin 2)
  /-- R440. A level-0 band is written to its slot once FREE_FLAG allows and FULL_FLAG is raised. -/
  | steBandWrite (die : Fin 8) (slots : List (Nat × Nat × Nat × Nat))
  /-- R438. At a tile boundary the STE suspends for a higher-priority operation or continues. -/
  | steTileBoundary (die : Fin 8)
  /-- R443. The STE finishes an operation and writes the frame record last. -/
  | steOpDone (die : Fin 8)
  /-- R484. Sets a stream's tracking settings and ends its tracks. -/
  | fteConfig (ch : Fin 8)
  /-- R484. Sets a stream's tracking mask. -/
  | fteMask (ch : Fin 8)
  /-- R487. Returns a stream's FTE state and last summary. -/
  | fteStatus (ch : Fin 8)
  /-- R488. Returns a track's committed record. -/
  | fteTrackGet (ch : Fin 8)
  /-- R488. Runs one FTE operation on two frames as a USER job. -/
  | fteRun (ch : Fin 8)
  /-- R460. A 64-line band is scored and added to the pyramid once it has landed. -/
  | fteBandBuild (die : Fin 8) (view : Fin 2)
  /-- R462. Once the frame is complete the FTE applies feedback, runs flow, gives birth and writes the list. -/
  | fteTrackOp (die : Fin 8) (view : Fin 2) (h : List Nat) (fbBuf : Nat) (fbOff : Nat) (fbCount : Nat) (cluster : Nat) (block : Nat) (flag : Nat)
  /-- R466. A DORMANT context reaches REID_AGE operations and is freed. -/
  | fteDormantExpire (stream : Fin 16) (slot : Nat)
  /-- R476. More than FREEZE_MAX frozen frames free every context of the stream. -/
  | fteFreezeExpire (stream : Fin 16)
  /-- R527. Sets the grid geometry and layer settings. -/
  | gridConfig (ch : Fin 8)
  /-- R526. Sets a grid source slot. -/
  | gridSource (ch : Fin 8)
  /-- R518. Sets a stream's base calibration and resets current, flags and SCORE. -/
  | calSet (ch : Fin 8)
  /-- R525. Returns a stream's base and current calibration. -/
  | calGet (ch : Fin 8)
  /-- R517. Sets refinement enable, freeze, period and limits. -/
  | calRefine (ch : Fin 8)
  /-- R525. Sets consistency gates, counts and check sources. -/
  | checkConfig (ch : Fin 8)
  /-- R525. Returns grid and check-source status. -/
  | fusionStatus (ch : Fin 8)
  /-- R508. The lead CP runs a MOTION or GEOMETRY check, masking or holding out sources. -/
  | checkDecision (check : Fin 2) (estimates : List Estimate)
  /-- R507. A suspect source becomes clean after CLEAR clean ticks and SENSOR is raised. -/
  | checkSourceClean (source : Nat)
  /-- R497. At an exchange point halo rows are copied to neighbouring strips and a flag raised. -/
  | haloCopy (die : Fin 8) (width : Nat) (hmax : Nat) (c0 : Nat) (c1 : Nat) (below : Nat × Nat) (above : Nat × Nat) (error : Bool)
  /-- R515. Every PERIOD seconds a calibration-refinement MAP job is run unless refinement is frozen. -/
  | calRefineTick (stream : Fin 24)
  /-- R543. Loads and checks a problem description into a slot. -/
  | slvLoad (ch : Fin 8)
  /-- R550. Holds an update packet pending for a slot's next solve. -/
  | slvUpdate (ch : Fin 8)
  /-- R578. Runs a solve on a slot as a USER job. -/
  | slvSolve (ch : Fin 8)
  /-- R577. Returns a slot's state and last committed result. -/
  | slvStatus (ch : Fin 8)
  /-- R531. Frees a slot. -/
  | slvUnload (ch : Fin 8)
  /-- R578. Sets the pose propagator's IMU, gravity and transform. -/
  | ppConfig (ch : Fin 8)
  /-- R577. Returns the latest propagator record. -/
  | ppStatus (ch : Fin 8)
  /-- R556. A solve reaches a step boundary, checks its deadline and takes suspension. -/
  | slvStepBoundary (die : Fin 8) (cycles : Nat)
  /-- R557. The deadline is reached and the solve stops at the next boundary with a deadline status. -/
  | slvDeadline (job : Nat)
  /-- R564. A solve ends and writes its result with the header last. -/
  | slvSolveEnd (die : Fin 8) (result : SlvOut)
  /-- R570. At each whole millisecond the propagator writes a ring record, flagged STALE or INVALID after its
      sample timeouts. -/
  | ppRecord
  /-- R613. Sets localisation settings. -/
  | locConfig (ch : Fin 8)
  /-- R612. Returns localisation state and counters. -/
  | locStatus (ch : Fin 8)
  /-- R580. Returns localisation to COLD, optionally closing the session. -/
  | locReset (ch : Fin 8)
  /-- R595. Sets the wheel source and model. -/
  | wheelConfig (ch : Fin 8)
  /-- R613. Sets GNSS use, lever arm and alignment. -/
  | gnssConfig (ch : Fin 8)
  /-- R598. Supplies a GNSS fix, used for alignment or as a factor, or dropped. -/
  | gnssFix (ch : Fin 8)
  /-- R613. Sets loop closure settings. -/
  | loopConfig (ch : Fin 8)
  /-- R612. Returns the latest published and committed pose records. -/
  | poseGet (ch : Fin 8)
  /-- R580. No TICK commit for 1,000 ms, or an INVALID record, takes localisation to LOST. -/
  | locLostTimeout
  /-- R580. REINIT_TIME seconds in LOST return localisation to COLD. -/
  | locReinitTimeout
  /-- R580. IMU ACTIVE and pair PAIRED take COLD to INIT, or their loss returns INIT to COLD. -/
  | locInitStart
  /-- R64. A TICK job passes its commit deadline and propagated poses carry EXTRAPOLATED. -/
  | tickDeadline
  /-- R605. A committed loop correction is applied at the first TICK admitted after its condition holds. -/
  | loopCorrectionApply
  /-- R649. Returns map generation, flags and counts. -/
  | mapStatus (ch : Fin 8)
  /-- R650. Sets the per-die pool size. -/
  | mapConfig (ch : Fin 8)
  /-- R642. Loads a map image as a MAP job. -/
  | mapLoad (ch : Fin 8)
  /-- R646. Exports sessions as a map image. -/
  | mapExport (ch : Fin 8)
  /-- R650. Returns part of an object's newest committed version. -/
  | mapGet (ch : Fin 8)
  /-- R634. Sets, closes or deletes a session. -/
  | mapSession (ch : Fin 8)
  /-- R650. Empties the map and place index. -/
  | mapClear (ch : Fin 8)
  /-- R630. Versions and entries no pin needs are reclaimed after a pin is released. -/
  | mapReclaim
  /-- R691. Returns an index's state and counts. -/
  | prsStatus (ch : Fin 8)
  /-- R692. Creates or destroys an index. -/
  | prsIndex (ch : Fin 8)
  /-- R658. Loads a tree image into an empty index. -/
  | prsTreeLoad (ch : Fin 8)
  /-- R670. Inserts and deletes items of a host index in one epoch. -/
  | prsUpdate (ch : Fin 8)
  /-- R664. Runs queries pinned to the current epoch. -/
  | prsQuery (ch : Fin 8)
  /-- R685. Compacts every shard of an index. -/
  | prsCompact (ch : Fin 8)
  /-- R692. Sets BATCH_US and COMPACT_PCT. -/
  | prsConfig (ch : Fin 8)
  /-- R682. A batch window closes at 1,024 rounds or BATCH_US and the die scans its shards. -/
  | batchWindowClose (die : Fin 8)
  /-- R683. The coordinating die merges per-die candidates and decides whether to widen. -/
  | roundMerge (job : Nat) (n : Nat)
  /-- R685. An idle die compacts a shard whose reclaimable entries reach COMPACT_PCT. -/
  | shardCompaction (die : Fin 8) (index : Nat) (leaf : Nat)
  /-- R696. Sets a CSI-2 transmit port's enable, lanes, rate and part sizes. -/
  | outPort (ch : Fin 8)
  /-- R698. Routes a data type to a port and virtual channel. -/
  | outRoute (ch : Fin 8)
  /-- R711. Returns a port's state and counters. -/
  | outStatus (ch : Fin 8)
  /-- R697. Sends a buffer range as data type 0x36. -/
  | outBulk (ch : Fin 8)
  /-- R711. Returns event records from FROM_SEQ. -/
  | eventGet (ch : Fin 8)
  /-- R710. Sets CAN guidance settings. -/
  | guideConfig (ch : Fin 8)
  /-- R706. Copies and checks a path into a store. -/
  | guidePath (ch : Fin 8)
  /-- R706. Makes a path store active or none. -/
  | guideSelect (ch : Fin 8)
  /-- R711. Returns guidance state and counters. -/
  | guideStatus (ch : Fin 8)
  /-- R699. At a frame boundary the port sends the next part of the highest-priority waiting message. -/
  | txPartSend (port : Fin 2)
  /-- R697. At each whole millisecond with events pending, an event message of up to 64 records is formed. -/
  | eventMsgForm (port : Fin 2)
  /-- R697. At each PERIOD multiple a diagnostic summary message is formed. -/
  | diagMsgForm (port : Fin 2)
  /-- R707. At each guidance instant the errors and state are computed and a CAN FD frame handed to the
      controller. -/
  | guideInstant
  /-- R720. When every participating die has reported ready, the lead CP writes pending state and the commit
      word. -/
  | jobCommit (job : Nat) (out : CommitOut)
  /-- R712. A fault on any participating die stops every part and the job drains. -/
  | jobFault (job : Nat) (cause : Nat) (source : Nat) (die : Fin 8) (index : Nat) (addr : Option Nat) (detail : Nat)
  /-- R730. A drained job restores INOUT buffers and restarts, re-plans, fails or aborts. -/
  | jobRestart (job : Nat)
  /-- R725. A router finds a flit parity error and returns an error completion of cause PARITY. -/
  | flitParityError (die : Fin 8) (requester : Nat) (job : Nat) (addr : Option Nat)
  /-- R726. A die-link flit fails its CRC and is replayed, up to 16 times. -/
  | linkCrcError (link : Fin 10) (far : Bool)
  /-- R726. A link retrains after its replay limit and runs at x16, x8 or is disabled. -/
  | linkRetrain (link : Fin 10) (state : Fin 3) (held : List Nat)
  /-- R736. A CP not serviced within 10 ms raises CP_FAULT and is withdrawn from planning. -/
  | cpWatchdog (die : Fin 8)
  /-- R736. An uncorrectable error in CP SRAM, tag table, router buffers or MSC tags raises CP_FAULT. -/
  | cpSramUe (die : Fin 8) (place : Fin 4)
  /-- R753. An island PLL loses lock and is handled per the clock failure table. -/
  | pllLockLoss (die : Fin 8) (island : Fin 13)
  /-- R753. A reference clock is lost and its dependants go down or the package shuts down. -/
  | refClockLoss (ref : Fin 3) (die : Fin 8)
  /-- R771. Returns limiter and per-die power status. -/
  | powerStatus (ch : Fin 8)
  /-- R763. Sets the package power limit. -/
  | powerConfig (ch : Fin 8)
  /-- R755. Switches a domain off or on. -/
  | domainPower (ch : Fin 8)
  /-- R756. Powers a follower die off or on. -/
  | diePower (ch : Fin 8)
  /-- R757. A powered-on die finishes training, zero-fill and KAT and returns to planning or is withdrawn. -/
  | diePowerOnDone (die : Fin 8) (engines : List Nat) (units : List Nat)
  /-- R754. A switched domain reaches power-good, its SRAM is zeroed and it returns to planning. -/
  | domainPowerGood (die : Fin 8) (domain : Fin 12)
  /-- R761. Sets rail current sensing for the limiter. -/
  | pwrSense (ch : Fin 8)
  /-- R762. Every 10 us the limiter forms P_est and adjusts C_TICK and C_OTHER. -/
  | limiterEval (uncore : Nat) (cores : List Nat)
  /-- R767. Junction temperatures drive each die's throttle state and cap. -/
  | thermalEval (tj : List Int)
  /-- R772. Starts a self-test run of slices. -/
  | stRun (ch : Fin 8)
  /-- R795. Returns a run's progress. -/
  | stProgress (ch : Fin 8)
  /-- R793. Appends field-repair records for confirmed soft-list entries. -/
  | stFuse (ch : Fin 8)
  /-- R795. Returns field-repair record usage per die. -/
  | stFuseStatus (ch : Fin 8)
  /-- R775. A slice starts when its target is free, saves it and runs its test. -/
  | stSliceStart (run : Nat)
  /-- R775. A slice's target is not free within WAIT_MS and it ends BUSY. -/
  | stSliceBusy (run : Nat)
  /-- R787. A slice finishes, repairs or marks finds, restores its target and commits. -/
  | stSliceEnd (run : Nat) (out : SliceOut)
  /-- R780. A slice exceeds its budget and ends TIMEOUT. -/
  | stSliceTimeout (run : Nat)
  /-- R781. A clock or voltage window breaks during a march and the slice is void and repeated. -/
  | stWindowVoid (run : Nat)
  /-- R794. A field-repair record is blown and read back, or left VOID. -/
  | fuseRecordBlow (ok : Bool)
  /-- R818. Returns security state and digests. -/
  | secStatus (ch : Fin 8)
  /-- R810. Returns the serial and identity public keys. -/
  | idInfo (ch : Fin 8)
  /-- R813. Forms and signs an attestation report. -/
  | attest (ch : Fin 8)
  /-- R808. Checks and writes a new image to flash. -/
  | fwUpdate (ch : Fin 8)
  /-- R804. Raises the rollback count to the running image's SEC_VER. -/
  | secRollback (ch : Fin 8)
  /-- R805. Revokes a key slot by a signed record. -/
  | secRevoke (ch : Fin 8)
  /-- R816. Returns a fresh 32-byte challenge. -/
  | debugChallenge (ch : Fin 8)
  /-- R817. Opens debug scopes by a signed unlock record. -/
  | debugUnlock (ch : Fin 8)
  /-- R796. The boot crypto block finishes an operation and the waiting command proceeds. -/
  | cryptoOpDone (fail : Option Nat)
  /-- R815. A TAP instruction is answered per the open scopes, IDCODE and BYPASS always. -/
  | debugTapInstruction (instr : TapInstr)
  /-- R198. In HOLDOVER the error bound grows by 0.5 us per second, and each time it crosses a class bound the
      quality field changes, setting EVT_CAUSE.TIME and writing event 0x0030. -/
  | holdoverClassChange (at_ : Nat)
  /-- R263. A CAN FD controller completes its automatic bus-off recovery, or leaves error passive, and returns
      to normal operation. -/
  | busOffRecoveryDone (ctrl : Fin 2)
  /-- R710. A guidance CAN FD frame handed to the controller wins arbitration and is sent, counting in SENT. -/
  | guidanceFrameTx
  /-- R148. A private read of an unopened window, an address outside every window or an unoccupied address
      returns zero and makes one violation entry per transfer. -/
  | readOutsideWindow (words : Nat)
  /-- R797. The entropy source fails an SP 800-90B health test, and every later operation that needs
      randomness ends FAILED until a package reset. -/
  | healthTestFailure
  deriving DecidableEq, Repr

end Sys2Proof
end

