-- ==== Sys2Proof/Decode.lean ====
section
/-! DEFINITION. The command a table word spells. The command table of this block gives no row any bits (commands
arrive as I3C transfers, mailbox requests, pins and events), so no word spells a command. -/

namespace Sys2Proof

/-- The command spelled by a word of `nbits` bits: none, since no row of the table gives bits. -/
def decodeTableWord (_nbits _w : Nat) : Option Instr := none

end Sys2Proof
end

