-- ==== Sys2Proof/Config.lean ====
section
/-! DEFINITION. What the spec leaves open as a VALUE: constants with no body, so that no proof can lean
on a number. Each is applied to the operands it depends on, or to the free-value counter of the state
(`Device.free`), which the using step reads and advances (log entry 5). -/

namespace Sys2Proof

/-- A fresh 32-bit value the spec does not state: argument 1 names the use, argument 2 is the free-value counter.
DESIGN CHOICE: log entry 5. -/
opaque Config.freeWord : Nat → Nat → Word

/-- A fresh byte string the spec does not state: use, counter, position. DESIGN CHOICE: log entry 5. -/
opaque Config.freeByte : Nat → Nat → Nat → Byte

/-- A fresh truth value the spec does not state: use and counter. -/
opaque Config.freeBool : Nat → Nat → Bool

/-- HashSLH-DSA verification of FIPS 205, SLH-DSA-SHA2-192s with SHA-384 as pre-hash (R800): public key,
message, signature. The spec names the standard's function and does not write it out. DESIGN CHOICE: log entry 14. -/
opaque Config.slhVerify : List Byte → List Byte → List Byte → Bool

/-- The identity signatures over an attestation report (R813), hedged and so fresh at each use: which
key (0 RSA, 1 SLH-DSA), counter, position. DESIGN CHOICE: log entry 56. -/
opaque Config.identitySignature : Nat → Nat → Nat → Byte

/-- Whether a router port and lane exist on a die's routers (R100, kind 4; the spec gives no list). -/
opaque Config.routerLane : Nat → Nat → Bool

/-- Whether an encoder's count rises with A leading B, on a rising A with B low, or on a pulse with the direction low: the
spec gives the modes and no sign (R260). By mode. -/
opaque Config.encoderUp : Nat → Bool

/-- The filter coefficients of the sensing front end in sQ1.22 (R287, R296, R323): stage 0 to 4 HB1 to HB5, 5 HB6 to HB12
and HBR, 6 the kernel K; by stage and number. The spec gives their response and not their values. -/
opaque Config.sfeCoef : Nat → Nat → BitVec 24

/-! Solver arithmetic (log entry 28): the spec states what a solve computes and that it is fixed point, and not each
intermediate scale. Problem description, iterate as one VALUE per variable, damping exponent (none: no damping), and the
kept factor (description, damping exponent and iterate it was formed from) are the operands. -/

/-- The cost at an iterate, uQ47.16 (R552). DESIGN CHOICE: log entry 28. -/
opaque Config.slvCost : List Byte → List (List Byte) → Nat

/-- Factor evaluations zeroed at an iterate (R540). -/
opaque Config.slvCheiral : List Byte → List (List Byte) → Nat

/-- The raw increment of a scalar column (R545, R552). DESIGN CHOICE: log entry 28. -/
opaque Config.slvStep : List Byte → List (List Byte) → Option Int → Option (List (List Byte)) → Nat → BitVec 32

/-- Whether a pivot of the factorisation is zero or negative (R553). -/
opaque Config.slvPivotFails : List Byte → List (List Byte) → Option Int → Bool

/-- Inner iterations of PCG (R554). -/
opaque Config.slvInner : List Byte → List (List Byte) → Option Int → Option (List (List Byte)) → Nat

/-- The blocks that saturate in an evaluation, and in a whole iteration: block, ceil(log2(2m)) of the largest magnitude,
whether the accumulator left its 64 bits (R547, R548). -/
opaque Config.slvEvalSat : List Byte → List (List Byte) → List (Nat × Int × Bool)
opaque Config.slvIterSat : List Byte → List (List Byte) → Option Int → Option (List (List Byte)) → List (Nat × Int × Bool)

/-- Covariance entries of a variable from a kept factor, as binary32 (R566): variable, entry. -/
opaque Config.slvCov : List Byte → List (List Byte) → Nat → Nat → BitVec 32

/-- Bytes of SLV SRAM (0) and of the work buffer (1) a description needs (R529, R543 code 7). -/
opaque Config.slvNeed : List Byte → Nat → Nat

end Sys2Proof
end

