-- ==== Sys2Proof/Machine/Bits.lean ====
section
/-! DEFINITION. Number and byte helpers: little-endian fields (R10), rounding half to even (R13), integer
roots and logarithms, the CRCs the spec names, sparse tables and canonical byte stores. -/

namespace Sys2Proof.Machine

/-- `n` little-endian bytes of `v` (R10). -/
def leBytes : Nat → Nat → List Byte
  | 0, _ => []
  | n + 1, v => BitVec.ofNat 8 v :: leBytes n (v / 256)

/-- The number a little-endian byte string spells (R10). -/
def leNat : List Byte → Nat
  | [] => 0
  | b :: bs => b.toNat + 256 * leNat bs

/-- The number a big-endian byte string spells (octet strings of R798, network byte order of R10). -/
def beNat (bs : List Byte) : Nat := leNat bs.reverse

/-- `n` big-endian bytes of `v`. -/
def beBytes (n v : Nat) : List Byte := (leBytes n v).reverse

/-- `n` zero bytes. -/
def zeros (n : Nat) : List Byte := List.replicate n 0#8

/-- A byte list cut or zero-filled to `n` bytes. -/
def fit (n : Nat) (bs : List Byte) : List Byte := bs.take n ++ zeros (n - bs.length)

/-- Round half to even of `a / d` over the integers (R13). -/
def rne (a : Int) (d : Nat) : Int :=
  if d = 0 then a else
    let q := a.fdiv d
    let r := a - q * d
    if 2 * r < d then q
    else if (d : Int) < 2 * r then q + 1
    else if q % 2 = 0 then q else q + 1

/-- Clamp an integer between two bounds (saturation). -/
def clampI (lo hi v : Int) : Int := if v < lo then lo else if hi < v then hi else v

/-- Saturating addition for counters of a largest value. -/
def satAdd (top a b : Nat) : Nat := min top (a + b)

/-- Integer square root by bits, from bit `fuel - 1` down. -/
def isqrtGo : Nat → Nat → Nat → Nat
  | 0, _, r => r
  | k + 1, n, r => isqrtGo k n (if (r + 2 ^ k) * (r + 2 ^ k) ≤ n then r + 2 ^ k else r)

/-- Integer square root, rounded down, of numbers below 2^128. -/
def isqrt (n : Nat) : Nat := isqrtGo 64 n 0

/-- Number of one bits among the low `k` bits. -/
def popcount : Nat → Nat → Nat
  | 0, _ => 0
  | k + 1, v => v % 2 + popcount k (v / 2)

/-- The lowest index below `n` that meets `p`. -/
def firstBelow (n : Nat) (p : Nat → Bool) : Option Nat := (List.range n).find? p

/-- How many indices below `n` meet `p`. -/
def countBelow (n : Nat) (p : Nat → Bool) : Nat := ((List.range n).filter p).length

/-- The 2-of-3 majority of three fuse copies (R77, R80, R803). -/
def majority3 (v : BitVec 3) : Bool := 2 ≤ popcount 3 v.toNat

/-- One shift of a reflected CRC register with polynomial `poly`. -/
def crcShift (poly : Nat) : Nat → Nat → Nat
  | 0, c => c
  | k + 1, c => crcShift poly k (if c % 2 = 1 then Nat.xor (c / 2) poly else c / 2)

/-- One byte into a reflected CRC register. -/
def crcByte (poly c : Nat) (b : Byte) : Nat := crcShift poly 8 (Nat.xor c b.toNat)

/-- CRC-32C, Castagnoli (R155): reflected polynomial 0x82F63B78, all-ones start and final inversion. -/
def crc32c (bs : List Byte) : Nat :=
  Nat.xor (bs.foldl (crcByte 0x82F63B78) 0xFFFFFFFF) 0xFFFFFFFF

/-! Sparse tables: what is not listed holds the default the reader names. -/

/-- A sparse table by number, keys rising. -/
abbrev Tbl (α : Type) := List (Nat × α)

/-- The entry of key `k`, if the table lists one. -/
def Tbl.look {α : Type} (t : Tbl α) (k : Nat) : Option α := (t.find? (fun e => e.1 == k)).map (·.2)

/-- The entry of key `k`, `d` where none is listed. -/
def Tbl.getD {α : Type} (t : Tbl α) (k : Nat) (d : α) : α := (t.look k).getD d

/-- The table with key `k` holding `v`. -/
def Tbl.put {α : Type} : Tbl α → Nat → α → Tbl α
  | [], k, v => [(k, v)]
  | (j, w) :: t, k, v =>
    if k < j then (k, v) :: (j, w) :: t
    else if k = j then (k, v) :: t
    else (j, w) :: Tbl.put t k v

/-- The table without key `k`. -/
def Tbl.del {α : Type} (t : Tbl α) (k : Nat) : Tbl α := t.filter (fun e => e.1 != k)

/-- Apply `f` to the entry of key `k` (default `d`). -/
def Tbl.upd {α : Type} (t : Tbl α) (k : Nat) (d : α) (f : α → α) : Tbl α := t.put k (f (t.getD k d))

/-- Every entry changed by `f`. -/
def Tbl.mapv {α : Type} (t : Tbl α) (f : α → α) : Tbl α := List.map (fun e => (e.1, f e.2)) t

/-! Byte stores: address and byte pairs, addresses strictly rising, no entry equal to the default byte. -/

/-- A byte store in canonical form. -/
abbrev Cells := List Host.Cell

/-- The byte at `a`; `d` where none is listed. DESIGN CHOICE: log entry 31. -/
def Cells.read (d : Byte) (m : Cells) (a : Nat) : Byte :=
  match m.find? (fun e => e.1 == a) with
  | some e => e.2
  | none => d

/-- The store with `b` at `a`; a byte equal to the default is not listed. -/
def Cells.write (d : Byte) : Cells → Nat → Byte → Cells
  | [], a, b => if b = d then [] else [(a, b)]
  | (x, y) :: t, a, b =>
    if a < x then (if b = d then (x, y) :: t else (a, b) :: (x, y) :: t)
    else if a = x then (if b = d then t else (a, b) :: t)
    else (x, y) :: Cells.write d t a b

/-- Bytes written to consecutive addresses, lowest first. -/
def Cells.writeAll (d : Byte) : Cells → Nat → List Byte → Cells
  | m, _, [] => m
  | m, a, b :: bs => Cells.writeAll d (Cells.write d m a b) (a + 1) bs

/-- `n` bytes read from consecutive addresses. -/
def Cells.readAll (d : Byte) (m : Cells) (a n : Nat) : List Byte :=
  (List.range n).map (fun i => Cells.read d m (a + i))

/-- The store with every address from `a` to `a + n - 1` at the default. -/
def Cells.clear (m : Cells) (a n : Nat) : Cells := m.filter (fun e => e.1 < a || a + n ≤ e.1)

/-- Strictly rising addresses above `lo`, none holding the default: the canonical form. -/
def Cells.wfFrom (d : Byte) : Nat → Cells → Bool
  | _, [] => true
  | lo, (x, y) :: t => decide (lo ≤ x) && decide (y ≠ d) && Cells.wfFrom d (x + 1) t

/-- The canonical form of a byte store. -/
def Cells.wf (d : Byte) (m : Cells) : Bool := Cells.wfFrom d 0 m

/-- A little-endian field of `n` bytes at `a` in a store whose default is zero. -/
def Cells.field (m : Cells) (a n : Nat) : Nat := leNat (Cells.readAll 0#8 m a n)

end Sys2Proof.Machine
end

