-- ==== Sys2Proof/Machine/State.lean ====
section
/-! DEFINITION. The state of the KR-860: every register, buffer, queue, counter and mode the spec gives the
block, in one record per chapter, and the value each has at reset. Plain data throughout. -/

namespace Sys2Proof.Machine

/-- The reasons a step can stop with a fault. The spec gives every command an effect, so none is raised:
the type has no value (safe: nothing can rest on a stop). -/
inductive Fault where
  deriving DecidableEq, Repr

/-- The reasons a command can be turned away. -/
inductive Refusal where
  /-- The command has no meaning yet; raised only by an arm of `exec`. Safe: nothing is claimed of it. -/
  | notModelled (mnemonic : String)
  /-- DEBUG_TAP_INSTRUCTION under the CP or SCAN scope: the debug unit and the control processor's registers are
  not described (R815; the control processor's instruction set is "not exposed and is not described"). Safe. -/
  | debugUnitNotDescribed
  deriving DecidableEq, Repr

/-! ## Elements of the package (Package, dies and grades; Firmware trust) -/

/-- What a SECDED decode of a fuse record gives (R99, R100). -/
inductive Ecc where
  | good
  | corrected
  | bad
  deriving DecidableEq, Repr

/-- A fused defect record: a word in the layout of BOOT_SOFT_n (R105), its protection outcome and whether its
valid bit is blown (R794). -/
structure FuseRecord where
  word : Word
  ecc : Ecc
  valid : Bool
  deriving DecidableEq, Repr

/-- The identity of one die on its wafer (R82). -/
structure DieId where
  lot : Word
  wafer : Byte
  x : Byte
  y : Byte
  deriving DecidableEq, Repr

/-- A fused key slot (R802, R803): its digests and the three copies of its revocation mark. -/
structure KeySlot where
  programmed : Bool
  rsaDigest : List Byte
  slhDigest : List Byte
  revoked : BitVec 3
  deriving DecidableEq, Repr

/-- The fuses of the package, kept through every reset. -/
structure Fuses where
  grade0 : Byte
  grade1 : Byte
  grade2 : Byte
  lead : BitVec 3
  serial : BitVec 64
  substrate : Byte
  major : Byte
  minor : Byte
  dies : Tbl DieId
  defects : Tbl (List FuseRecord)
  repairs : Tbl (List FuseRecord)
  slots : Tbl KeySlot
  rollback : Tbl (BitVec 3)
  production : Bool
  idRsaN : List Byte
  idSlhPk : List Byte
  mac : BitVec 48
  tjOffset : Tbl Int
  sfeVolt : Tbl Nat
  deriving DecidableEq, Repr

/-- Package-level state: the reset ball, the supplies and what answers (R85, R86, R768). -/
structure Pkg where
  ballLow : Bool
  targetUp : Bool
  shutdown : Bool
  supplies : Bool
  deriving DecidableEq, Repr

/-! ## Bring-up -/

/-- BOOT_STATUS.STATE. -/
inductive BootState where
  | idle
  | busy
  | done
  | failed
  | waitData
  deriving DecidableEq, Repr

/-- How the step in progress ended, before BOOT_STEP_END publishes it (R94, R97). -/
inductive StepResult where
  | done
  | failed (code detail : Nat) (ext : Word)
  deriving DecidableEq, Repr

/-- An entry of the soft defect list with its origin (R105, R106). -/
structure SoftEntry where
  word : Word
  origin : Nat
  deriving DecidableEq, Repr

/-- The package defect view (R99): bad units and their soft share by cluster, rows in use, spare rows found
bad, the slot each used spare stands in, lanes by link, router lanes, trained link states. -/
structure DefectView where
  bad : Tbl (BitVec 17)
  soft : Tbl (BitVec 17)
  spare : Tbl Nat
  rows : List (Nat × Nat × Nat)
  lanes : Tbl (BitVec 16)
  net : List (Nat × Nat × Nat)
  trained : Tbl Nat
  deriving DecidableEq, Repr

/-- The boot sequencer and its registers. -/
structure Boot where
  state : BootState
  step : Nat
  lastDone : Nat
  refused : Bool
  ready : Bool
  fail : Word
  failExt : Word
  ibiEn : Bool
  lpRate : Nat
  fwSrc : Nat
  noDefault : Bool
  fwPtr : Nat
  fwLen : Nat
  fwOfs : Nat
  memCap : Nat
  memRate : Nat
  soft : List SoftEntry
  softOverflow : Bool
  train : Tbl Nat
  density : Tbl Nat
  result : Option StepResult
  startedAt : Nat
  lastAccept : Nat
  used : List Nat
  fwStarted : Bool
  cpRunning : BitVec 8
  fuseCorrected : Nat
  pll : Bool
  deriving DecidableEq, Repr

/-! ## I3C control and mailboxes -/

/-- What the target does with the bus: SDR, HDR-DDR, or ignoring it until the HDR exit pattern (R146). -/
inductive HdrMode where
  | sdr
  | ddr
  | ignoring
  deriving DecidableEq, Repr

/-- The I3C target (R136 to R146). -/
structure I3c where
  dyn : Option (BitVec 7)
  ibiOn : Bool
  hjOn : Bool
  hjSent : Bool
  releasedAt : Nat
  mwl : Nat
  mrl : Nat
  rstact : Option Nat
  readPtr : Word
  hdr : HdrMode
  protoErr : Bool
  readOut : List Word
  cccOut : List Byte
  ibiOut : Option Nat
  deriving DecidableEq, Repr

/-- One entry of the violation log: words W0 to W3. -/
structure VlogEntry where
  w0 : Word
  w1 : Word
  w2 : Word
  w3 : Word
  deriving DecidableEq, Repr

/-- One event record (R704). -/
structure EventRec where
  code : Nat
  cause : Nat
  unit : Nat
  seq : Nat
  dts : BitVec 128
  p0 : Word
  p1 : Word
  deriving DecidableEq, Repr

/-- One fault-log entry, words W0 to W6 (R734), and its OUTCOME field's place in W0. -/
structure FlogEntry where
  words : List Word
  deriving DecidableEq, Repr

/-- The EVT window: causes, ring, violation log, fault log, event ring, pending IBIs. -/
structure Evt where
  cause : BitVec 13
  ibiEn : BitVec 13
  faultTb : BitVec 8
  faultCp : BitVec 8
  ibi : List Nat
  ring : Tbl (BitVec 64)
  ringWr : Nat
  ringRd : Nat
  vlogCount : Nat
  vlog : Tbl VlogEntry
  vlogAt : Nat
  vlogIdx : Nat
  vlogOut : VlogEntry
  vcnt : Tbl Nat
  flogCount : Nat
  flog : Tbl FlogEntry
  flogIdx : Nat
  flogOut : FlogEntry
  events : List EventRec
  evSeq : Nat
  deriving DecidableEq, Repr

/-- Mailbox channel states (R151). -/
inductive ChState where
  | idle
  | busy
  | resp
  deriving DecidableEq, Repr

/-- A request as taken at the doorbell (R155). -/
structure Request where
  op : Nat
  seq : Nat
  len : Nat
  flags : Nat
  tag : Nat
  crc : Nat
  body : List Byte
  deriving DecidableEq, Repr

/-- A formed answer waiting to be published (R151, R156): whether it is a replay, whether it enters the sequence
store, and the handle of a long command. -/
structure Reply where
  status : Nat
  dup : Bool
  payload : List Byte
  enter : Bool
  handle : Option Nat
  deriving DecidableEq, Repr

/-- One entry of a channel's sequence store (R158). -/
structure StoreEntry where
  seq : Nat
  op : Nat
  len : Nat
  crc : Nat
  status : Nat
  payload : List Byte
  handle : Option Nat
  deriving DecidableEq, Repr

/-- One mailbox channel. -/
structure Channel where
  state : ChState
  seq : Nat
  store : List StoreEntry
  req : Cells
  resp : List Byte
  taken : Option Request
  formed : Option Reply
  deriving DecidableEq, Repr

/-- One handle (R164, R165). -/
structure Handle where
  ch : Nat
  op : Nat
  final : Option Nat
  result : List Byte
  cancel : Bool
  released : Bool
  consumed : Bool
  deriving DecidableEq, Repr

/-- The mailbox service. -/
structure Mbx where
  chans : Tbl Channel
  handles : Tbl Handle
  nextHandle : Nat
  diagHandle : List Nat
  deriving DecidableEq, Repr

/-! ## Device time, triggers and PTP -/

/-- Servo states (R193). -/
inductive Servo where
  | free
  | acquire
  | locked
  | holdover
  deriving DecidableEq, Repr

/-- A pending step of device time: its size against device time at the decision, in 2^-16 ns, and the elapsed
moment of the first decision (R195); `bySet` when TIME_SET decided it. -/
structure PendingStep where
  size : Int
  firstAt : Nat
  bySet : Bool
  deriving DecidableEq, Repr

/-- The time base, its servo and its registers. -/
structure TimeBase where
  now : Nat
  dt : Nat
  addend : Nat
  servo : Servo
  source : Nat
  cls : Nat
  hold : Bool
  everSet : Bool
  following : Nat
  mode : Nat
  domain : Nat
  allowStep : Bool
  ppsTraceable : Bool
  holdMax : Nat
  stepThresh : Nat
  samples : List Int
  goodRun : Nat
  badRun : Nat
  lastOffset : Int
  step : Option PendingStep
  ppsSeconds : Option Nat
  steps : Nat
  holdAt : Nat
  holdBound : Nat
  gm : BitVec 64
  slavePort : Nat
  snap : BitVec 128
  snapValid : Bool
  onPps : Bool
  deriving DecidableEq, Repr

/-- PPS input and output (R200 to R203). -/
structure Pps where
  inEn : Bool
  inPol : Nat
  outEn : Bool
  inDelay : Int
  outDelay : Int
  outWidth : Nat
  qualified : Bool
  run : Nat
  lastQual : Option Int
  lastQualAt : Nat
  outHigh : Bool
  outFall : Nat
  deriving DecidableEq, Repr

/-- A change of a trigger group that waits for its edge (R207). -/
inductive GroupChange where
  | restart (start period : Nat)
  | stop (at_ : Nat)
  deriving DecidableEq, Repr

/-- One trigger group (R205): START and PERIOD in 2^-16 ns, the index of the next edge. -/
structure Group where
  running : Bool
  hasPeriod : Bool
  period : Nat
  start : Nat
  k : Nat
  change : Option GroupChange
  deriving DecidableEq, Repr

/-- The settings of a timing output in a group (R204), offset and width in 2^-16 ns. DESIGN CHOICE: log entry 71. -/
structure OutCfg where
  group : Nat
  kind : Nat
  pol : Nat
  offset : Nat
  width : Nat
  deriving DecidableEq, Repr

/-- One timing output: its settings, those that wait for an edge of their group (R208), and the pulses not yet ended,
as start and end in 2^-16 ns of device time. -/
structure TimingOut where
  cfg : Option OutCfg
  next : Option OutCfg
  pulses : List (Nat × Nat)
  deriving DecidableEq, Repr

/-- A latency compensation record (R211), in 2^-16 ns. -/
structure Comp where
  link : Nat
  a : Int
  b : Int
  c : Int
  deriving DecidableEq, Repr

/-- A master heard on a port: its identity, its rank in the order of the BMCA, announces heard, the elapsed moments of
its last announce and sync. -/
structure Foreign where
  gm : BitVec 64
  rank : Nat
  gptp : Bool
  announces : Nat
  announceAt : Nat
  syncAt : Nat
  deriving DecidableEq, Repr

/-- What a port holds of an exchange of PTP messages, in 2^-16 ns: `sync` the sequenceId and corrected receive stamp of
a Sync whose Follow_Up is awaited, `t21` the last receive minus origin time, `req` and `preq` a sent request with its
transmit stamp, `presp` a two-step Pdelay_Resp with its t4 minus t2 and corrections, `asked` and `pasked` the
sequenceId of a Delay_Req and a Pdelay_Req to answer, `sent` and `psent` that of a two-step message to follow. -/
structure Exchange where
  sync : Option (Nat × Int)
  t21 : Option Int
  delay : Option Int
  req : Option (Nat × Int)
  preq : Option (Nat × Int)
  presp : Option (Nat × Int)
  sent : Option Nat
  asked : Option Nat
  psent : Option Nat
  pasked : Option Nat
  deriving DecidableEq, Repr

/-- One PTP port (R213 to R219). -/
structure PtpPort where
  role : Nat
  transport : Nat
  twoStep : Bool
  logSync : Int
  logAnnounce : Int
  logDelay : Int
  annTimeout : Nat
  priority1 : Nat
  priority2 : Nat
  ocSlave : Bool
  portState : Nat
  peerDelay : Int
  rxEvents : Nat
  txEvents : Nat
  tcCorrected : Nat
  violations : Nat
  foreign : Option Foreign
  ex : Exchange
  txSeq : Nat
  deriving DecidableEq, Repr

/-- A residence time held against a sequenceId for the Follow_Up (R221). -/
structure Residence where
  seq : Nat
  value : Int
  at_ : Nat
  deriving DecidableEq, Repr

/-- A PTP message the device last sent or forwarded: port, messageType, sequenceId, correctionField, and the
clockClass it announced. -/
structure PtpOut where
  port : Nat
  messageType : Nat
  sequenceId : Nat
  correction : Int
  clockClass : Nat
  deriving DecidableEq, Repr

/-- Triggers, PPS, compensation and PTP. -/
structure Timing where
  pps : Pps
  groups : Tbl Group
  outs : Tbl TimingOut
  comp : Tbl Comp
  ptp : Tbl PtpPort
  residence : Tbl (List Residence)
  ptpOut : Option PtpOut
  deriving DecidableEq, Repr

/-! ## Jobs, faults, profiles, power -/

/-- Job classes in priority order (R50). -/
inductive JobClass where
  | tick
  | loop
  | user
  | map
  | test
  deriving DecidableEq, Repr

/-- Job states (R712); a final state is `ended`. -/
inductive JobState where
  | waiting
  | loading
  | running
  | restarting
  | committing
  | ended
  deriving DecidableEq, Repr

/-- What a job does at its commit: the operation of the engine command or firmware rule that admitted it. -/
inductive JobWork where
  /-- The TICK job of the active profile (R58); TICK_SEQ is given at the commit. -/
  | tick
  /-- A loop closure or relocalisation job (R601) of a keyframe. -/
  | loop (keyframe : Nat)
  /-- A relocalisation (R606) of the frame a TICK job described. -/
  | reloc
  /-- Units and CP DMA of a host image (R741). -/
  | image
  /-- One STE operation (R451): pair and two frame buffers' IDs, and the output buffer. -/
  | ste (pair primary secondary out : Nat)
  /-- One FTE operation (R488). -/
  | fte (stream frame out : Nat)
  /-- One SLV solve (R578). -/
  | slv (die slot : Nat)
  /-- A calibration-refinement MAP job (R515). -/
  | calRefine (stream : Nat)
  /-- MAP_LOAD (R642). -/
  | mapLoad
  /-- MAP_EXPORT (R646). -/
  | mapExport
  /-- A MERGE job (R639): the old root slot and the new root. -/
  | mapMerge (slot root : Nat)
  /-- PRS_TREE_LOAD, PRS_UPDATE, PRS_QUERY, PRS_COMPACT (R658, R670, R664, R685). -/
  | prsTree (index : Nat)
  | prsUpdate (index : Nat)
  | prsQuery (index : Nat)
  | prsCompact (index : Nat)
  /-- A self-test slice (R775). -/
  | slice (die target index : Nat)
  deriving DecidableEq, Repr

/-- One part of a job (R714, R742). -/
structure Part where
  dieMask : BitVec 8
  units : Nat
  blocks : Nat
  groups : Nat
  cluster : Option Nat
  slots : List Nat
  phys : List Nat
  blockList : List Nat
  groupList : List Nat
  loadOff : Nat
  nload : Nat
  segment : Nat
  loaded : Nat
  deriving DecidableEq, Repr

/-- A buffer a job's plan grants (R393, R718): buffer, access 0 R, 1 OUT, 2 INOUT, policy, snapshot buffer. -/
structure Grant where
  buf : Nat
  access : Nat
  policy : Nat
  snap : Nat
  deriving DecidableEq, Repr

/-- A job (R50 to R57, R712). `image` holds the load lists and relocations of its parts; `ids` the places of a TICK job's
parts among those of its profile. -/
structure Job where
  cls : JobClass
  state : JobState
  work : JobWork
  handle : Option Nat
  order : Nat
  restarts : Nat
  restartMax : Nat
  total : Nat
  waitMs : Nat
  cause : Nat
  parts : List Part
  grants : List Grant
  dies : BitVec 8
  ready : BitVec 8
  admitted : BitVec 128
  admitAt : Nat
  runAt : Nat
  sticky : Nat
  privileged : Bool
  failing : Bool
  lost : Bool
  deadline : Option Nat
  late : Bool
  sched : List Byte
  schedPos : Nat
  frames : List Nat
  arg : List Byte
  image : List Byte
  ids : List Nat
  deriving DecidableEq, Repr

/-- A network of a profile (R747): role, source, what each of its buffer slots is bound to, its job image, and the first
of its parts among the profile's; a copy of a fusion network names the die of its strip. -/
structure Net where
  role : Nat
  source : Nat
  strip : Nat
  binds : List Nat
  image : List Byte
  first : Nat
  deriving DecidableEq, Repr

/-- Profile states of PROFILE_STATUS (R749). -/
inductive ProfState where
  | none
  | loading
  | active
  | unloading
  deriving DecidableEq, Repr

/-- The active profile (R745 to R748). `uses` lists the objects in use as class and index; `commitAt` is the elapsed moment
of the last TICK commit (R776); `waiting` the channels whose command waits for the TICK job in progress (R135); `parts`
the parts of all its networks as they are placed; `code` the buffer of place codes (R747). -/
structure Profile where
  state : ProfState
  zero : Bool
  id : Nat
  flags : Nat
  tickGroup : Nat
  uses : List (Nat × Nat)
  reserved : List (Nat × Nat)
  bufs : List Nat
  ticks : Nat
  handle : Option Nat
  commitAt : Option Nat
  waiting : List Nat
  nets : List Net
  parts : List Part
  code : Option Nat
  deriving DecidableEq, Repr

/-- The job service. -/
structure Jobs where
  table : Tbl Job
  nextId : Nat
  nextOrder : Nat
  skips : Nat
  restartFw : Nat
  waitFw : Nat
  unread : List (Nat × Nat)
  profile : Profile
  deriving DecidableEq, Repr

/-- Power, clocks and heat (R750 to R771). -/
structure Power where
  dieOn : BitVec 8
  domains : Tbl (BitVec 12)
  pendingOn : BitVec 8
  dieHandles : Tbl Nat
  resetting : List (Nat × Option Nat)
  withdrawn : BitVec 8
  tickWithdrawn : BitVec 8
  engines : List (Nat × Nat)
  limit : Nat
  cTick : Nat
  cOther : Nat
  lowRun : Nat
  atFloor : Nat
  est : Nat
  sensed : BitVec 8
  current : Tbl Nat
  senseOn : Bool
  senseVcore : Nat
  senseGain : Nat
  senseOffset : Int
  tj : Tbl Int
  tjValid : BitVec 8
  throttle : BitVec 8
  cap : Tbl Nat
  throttleAt : Tbl Nat
  capEventAt : Tbl Nat
  therm : Word
  ref38 : BitVec 8
  ref156 : Bool
  noalloc : BitVec 16
  deriving DecidableEq, Repr

/-! ## Compute units and memory tiers -/

/-- Unit states (R373). -/
inductive UnitState where
  | idle
  | loading
  | running
  | waiting
  | done
  | faulted
  | defective
  deriving DecidableEq, Repr

/-- A flag signal that waits for its descriptor's writes to be visible (R357). -/
structure Signal where
  cluster : Nat
  flag : Nat
  add : Nat
  set : Bool
  deriving DecidableEq, Repr

/-- A running LOOP (R349, R350): index of the LOOP descriptor, first index, passes left, address advances so far. -/
structure LoopFrame where
  index : Nat
  first : Nat
  left : Nat
  adv0 : Int
  adv1 : Int
  adv2 : Int
  deriving DecidableEq, Repr

/-- A physical unit. -/
structure CUnit where
  state : UnitState
  job : Nat
  desc : Nat
  tags : Nat
  sticky : Nat
  active : Nat
  stalls : Nat
  ecc : Nat
  misses : Nat
  lastSeq : Option Nat
  signals : List Signal
  loops : List LoopFrame
  waitAt : Nat
  segment : Nat
  reported : Bool
  deriving DecidableEq, Repr

/-- A broadcast packet that is outstanding at a cluster's port (R367 to R371). -/
structure Packet where
  seq : Nat
  kind : Nat
  target : Nat
  dest : Nat
  data : List Byte
  job : Nat
  part : Nat
  acks : Nat
  missed : Nat
  misses : Tbl Nat
  deriving DecidableEq, Repr

/-- A cluster: broadcast port, landing flags, allotments and counters. -/
structure Cluster where
  seq : Nat
  packets : List Packet
  flags : Tbl Nat
  blocks : Tbl Nat
  groups : Tbl Nat
  slots : Tbl Nat
  held : Nat
  peak : Nat
  stalls : Nat
  misses : Nat
  resends : Nat
  deriving DecidableEq, Repr

/-- A buffer (R390 to R396). -/
structure Buffer where
  placement : Nat
  target : Nat
  pitches : List Nat
  lost : Bool
  bulk : Bool
  deriving DecidableEq, Repr

/-- One way of a cache set (R397): tag, valid and dirty bits by sector. -/
structure Way where
  tag : Nat
  v0 : Bool
  v1 : Bool
  d0 : Bool
  d1 : Bool
  deriving DecidableEq, Repr

/-- One set of a memory-side cache slice with its tree pseudo-LRU bits. -/
structure MscSet where
  ways : List Way
  plru : Nat
  deriving DecidableEq, Repr

/-- Memory management: buffers, cache slices, sectors that decode as uncorrectable, scrub progress, engine tags. -/
structure MemSys where
  bufs : Tbl Buffer
  nextHost : Nat
  nextFw : Nat
  msc : Tbl MscSet
  bad : List Nat
  scrub : Tbl Nat
  engTags : Tbl Nat
  ce : Tbl Nat
  ue : Tbl Nat
  rdBytes : Tbl Nat
  wrBytes : Tbl Nat
  windows : Tbl Nat
  deriving DecidableEq, Repr

/-! ## Firmware trust -/

/-- An operation that waits for the boot crypto block (R796), with what it holds from its acceptance. -/
inductive CryptoOp where
  /-- ATTEST: the report's first 256 bytes (R813). -/
  | attest (handle : Nat) (report : List Byte)
  /-- FW_UPDATE: image base (buffer, offset) and flash offset in 64 KiB. -/
  | update (handle buf off ofs : Nat)
  /-- SEC_ROLLBACK. -/
  | rollback (handle : Nat)
  /-- SEC_REVOKE: record in a buffer. -/
  | revoke (handle buf off : Nat)
  /-- DEBUG_UNLOCK: record in a buffer. -/
  | unlock (handle buf off : Nat)
  deriving DecidableEq, Repr

/-- The verified image's fields, the digests and the debug port (R806 to R817). -/
structure Sec where
  verified : Bool
  slot : Nat
  secVer : Nat
  imgVer : Nat
  fwDigest : List Byte
  cfgDigest : List Byte
  defectDigest : List Byte
  rsaN : List Byte
  slhPk : List Byte
  scopes : BitVec 3
  challenge : Option (List Byte)
  reportSeq : Nat
  health : Bool
  ops : List CryptoOp
  tapOut : List Byte
  bistOff : Nat
  deriving DecidableEq, Repr

/-! ## Sensor ingest -/

/-- Stream states (R230). -/
inductive StreamState where
  | off
  | waitFirst
  | active
  | dropout
  deriving DecidableEq, Repr

/-- What a frame buffer holds: a frame's sequence number, stamp, lines landed, whether it is closed, its STATUS and the
frame it is paired with as stream and SEQ. -/
structure FrameInfo where
  seq : Nat
  dts : BitVec 128
  lines : Nat
  closed : Bool
  status : Nat
  partner : Option (Nat × Nat)
  deriving DecidableEq, Repr

/-- A stream of R229 (0 to 29 and 128 to 135). `bufs` are its frame or sweep buffers, or its one ring; `order` the
slots oldest first; `at_` the next slot of a ring; `timerAt` when the dropout timer last started. -/
structure Stream where
  state : StreamState
  buffers : Nat
  usablePct : Nat
  period : Nat
  timeout : Nat
  recover : Nat
  good : Nat
  timerAt : Nat
  seq : Nat
  dts : BitVec 128
  lastSeq : Nat
  samples : Nat
  nobuf : Nat
  unusable : Nat
  unpaired : Nat
  slips : Nat
  dropouts : Nat
  violations : Nat
  bufs : List Nat
  order : List Nat
  at_ : Nat
  frames : Tbl FrameInfo
  deriving DecidableEq, Repr

/-- The frame a receive port has open: buffer slot (none: dropped for lack of one), arrival, pulse start of R212,
position, lines received, masked lines, exposure read. -/
structure OpenFrame where
  slot : Option Nat
  seq : Nat
  startAt : Nat
  arrival : Nat
  pulse : Option Nat
  frameNum : Nat
  dt : Nat
  pos : Nat
  linesRx : Nat
  masked : List Nat
  expo : Option Nat
  deriving DecidableEq, Repr

/-- A CSI-2 receive port (R235 to R243). -/
structure CsiPort where
  phy : Nat
  lanes : Nat
  vc : Nat
  dt : Nat
  bulkVc : Nat
  width : Nat
  height : Nat
  frameTimeout : Nat
  embOff : Nat
  embLen : Nat
  embOrder : Nat
  embUnit : Nat
  frame : Option OpenFrame
  lastExpo : Nat
  lastNum : Option Nat
  gaps : Nat
  untriggered : Nat
  lineCount : Nat
  deriving DecidableEq, Repr

/-- A frame that pairing holds: stream, slot, SEQ, stamp in 2^-16 ns (R271). -/
structure HeldFrame where
  stream : Nat
  slot : Nat
  seq : Nat
  moment : Nat
  deriving DecidableEq, Repr

/-- A stereo pair (R270 to R273). -/
structure Pair where
  enabled : Bool
  period : Nat
  lost : Bool
  held : Option HeldFrame
  offset : Option Int
  unpairedRun : Nat
  pairRun : Nat
  newest : Option (Nat × Nat)
  deriving DecidableEq, Repr

/-- An Ethernet port (R244 to R248) with its two egress queues of frames. -/
structure EthPort where
  vlanOwn : Nat
  ipv4 : BitVec 32
  bulkUdp : Nat
  ipv6 : BitVec 128
  rate : Nat
  mode : Nat
  rx : Nat
  tx : Nat
  fcsErr : Nat
  qDrop : Nat
  forwarded : Nat
  consumed : Nat
  unclaimed : Nat
  upper : List (List Byte)
  lower : List (List Byte)
  lastTx : List Byte
  deriving DecidableEq, Repr

/-- A field specification (R250, R277). -/
structure FSpec where
  off : Nat
  typ : Nat
  scale : Nat
  deriving DecidableEq, Repr

/-- The sweep a lidar stream has open (R253 to R255); `k` is its index from S. -/
structure Sweep where
  k : Nat
  points : Nat
  packets : Nat
  lost : Nat
  dropped : Nat
  overflow : Bool
  fallback : Bool
  slot : Option Nat
  deriving DecidableEq, Repr

/-- A lidar stream's settings and state (R249 to R255). -/
structure Lidar where
  ports : Nat
  ipver : Nat
  flags : Nat
  vlan : Nat
  udp : Nat
  src : BitVec 128
  hdrLen : Nat
  points : Nat
  stride : Nat
  channels : Nat
  pointDt : Nat
  pktSpan : Nat
  tsOff : Nat
  seqOff : Nat
  sweepPeriod : Nat
  sweepPhase : Nat
  maxRange : Nat
  fr : FSpec
  faz : FSpec
  fel : FSpec
  fint : FSpec
  elev : List Nat
  origin : Option Nat
  sweep : Option Sweep
  lastSeq : Option Nat
  late : Nat
  carried : Nat
  deriving DecidableEq, Repr

/-- An SPI IMU port (R257, R258); `busy` holds the corrected stamp of the transaction under way. -/
structure ImuPort where
  mode : Nat
  drdyPol : Nat
  txLen : Nat
  sclk : Nat
  rate : Nat
  tx : List Byte
  rxLen : Nat
  statusOff : Nat
  statusMask : Nat
  specs : List FSpec
  busy : Option Nat
  missed : Nat
  deriving DecidableEq, Repr

/-- An encoder (R260 to R262). -/
structure Encoder where
  mode : Nat
  flags : Nat
  glitch : Nat
  cpr : Nat
  rate : Nat
  a : Bool
  b : Bool
  count : Int
  indexCount : Int
  indexed : Bool
  seen : Bool
  mismatch : Bool
  lastEdge : Option Nat
  prevEdge : Option Nat
  deriving DecidableEq, Repr

/-- One signal of a CAN filter (R265, R266). -/
structure CanSignal where
  kind : Nat
  wheel : Nat
  start : Nat
  len : Nat
  order : Nat
  isSigned : Bool
  scale : Nat
  offset : Nat
  deriving DecidableEq, Repr

/-- A CAN filter (R264). -/
structure CanFilter where
  enable : Bool
  extended : Bool
  id : Nat
  mask : Nat
  signals : List CanSignal
  deriving DecidableEq, Repr

/-- A CAN FD controller (R263); `err` is 0 error active, 1 error passive, 2 bus-off. -/
structure CanCtrl where
  enable : Bool
  fd : Bool
  tdc : Nat
  nomRate : Nat
  dataRate : Nat
  nomSp : Nat
  dataSp : Nat
  err : Nat
  discarded : Nat
  filters : Tbl CanFilter
  deriving DecidableEq, Repr

/-- An open host bulk transfer (R274 to R276); `got` lists the received ranges, rising and apart. -/
structure Bulk where
  handle : Nat
  path : Nat
  port : Nat
  buf : Nat
  off : Nat
  length : Nat
  crc : Nat
  got : List (Nat × Nat)
  deriving DecidableEq, Repr

/-- All of sensor ingest. -/
structure Ingest where
  streams : Tbl Stream
  csi : Tbl CsiPort
  pairs : Tbl Pair
  eth : Tbl EthPort
  lidar : Tbl Lidar
  imu : Tbl ImuPort
  enc : Tbl Encoder
  can : Tbl CanCtrl
  bulk : List Bulk
  /-- Points that lidar ingest has taken by die (R254): the second of elapsed time they came in, and how many. -/
  taken : Tbl (Nat × Nat)
  deriving DecidableEq, Repr

/-! ## The sensing front end -/

/-- SFE stream states (R299). -/
inductive SfeState where
  | off
  | settling
  | active
  | cal
  | fault
  deriving DecidableEq, Repr

/-- A delay line of the decimation chain (R286, R287): how many values came in, and the newest ones, newest first, each
in sQ0.23 with its saturation mark (R288). -/
structure SfeLine where
  n : Nat
  xs : List (Int × Bool)
  deriving DecidableEq, Repr

/-- A detector window under way or complete (R312 to R314): its index from W, samples, sums, envelope's largest value,
flags SETTLING, OVER, MASKED. -/
structure SfeWin where
  k : Nat
  n : Nat
  max : Int
  min : Int
  sum : Int
  sq : Nat
  envMax : Int
  envEnd : Int
  settling : Bool
  over_ : Bool
  masked : Bool
  deriving DecidableEq, Repr

/-- An SFE stream, 32 to 127 (R278): its configuration, its grid, the delay lines of its chain (`lines2`, `out2`: of the
cosine winding of a resolver pair), its rings, its detectors. `start` is the S₀ of a channel start that is due. -/
structure SfeStream where
  state : SfeState
  enable : Bool
  range : Nat
  coupling : Nat
  path : Nat
  h : Nat
  m : Nat
  res : Bool
  p : Nat
  ring : Nat
  engScale : Nat
  engOffset : Nat
  start : Option Nat
  s0 : Nat
  w : Nat
  next : Nat
  gap : Bool
  stepped : Bool
  lines : List SfeLine
  lines2 : List SfeLine
  out : SfeLine
  out2 : SfeLine
  offset : Int
  gain : Nat
  written : Option (Int × Nat)
  seq : Nat
  dts : BitVec 128
  lastSeq : Nat
  last : Int
  over_ : Nat
  held : Nat
  violations : Nat
  buf : Option Nat
  at_ : Nat
  phaseC : Nat
  low : Nat
  good : Nat
  detOn : Bool
  detDc : Bool
  detH : Nat
  attack : Nat
  release : Nat
  window : Nat
  detN : Nat
  env : Int
  win : Option SfeWin
  ready : List SfeWin
  detStepped : Bool
  detGap : Bool
  detSeq : Nat
  detBuf : Option Nat
  detAt : Nat
  deriving DecidableEq, Repr

/-- The excitation output of a die (R315): mode, PHASE_AUTO, FREQ in uQ16.16 Hz, AMPL in mV, E₀ in 2^-16 ns. -/
structure SfeExc where
  mode : Nat
  auto : Bool
  freq : Nat
  ampl : Nat
  e0 : Nat
  deriving DecidableEq, Repr

/-- The auxiliary scan of a die (R302 to R305): A₀ in 2^-16 ns, none before CLOCKS. -/
structure SfeScan where
  mode : Nat
  osr : Nat
  settle : Nat
  period : Nat
  a0 : Option Nat
  k : Nat
  deriving DecidableEq, Repr

/-- An internal calibration under way on a die (R306, R309). -/
structure SfeCal where
  stream : Nat
  handle : Option Nat
  startAt : Nat
  cancel : Bool
  deriving DecidableEq, Repr

/-- The sensing front ends of all dies; `lastCal` holds the values of the last internal calibration of each stream, which
resets keep (R310). -/
structure Sfe where
  streams : Tbl SfeStream
  exc : Tbl SfeExc
  scan : Tbl SfeScan
  cal : Tbl SfeCal
  lastCal : Tbl (Int × Nat)
  deriving DecidableEq, Repr

/-! ## The stereo and feature tracking engines -/

/-- A pair's stereo settings (R446). -/
structure SteCfg where
  input : Nat
  shift : Nat
  sat : Nat
  outW : Nat
  outH : Nat
  dMin : Nat
  dRange : Nat
  p1 : Nat
  p2 : Nat
  p2Shift : Nat
  margin : Nat
  lrTol : Nat
  flatConf : Nat
  outBuffers : Nat
  deriving DecidableEq, Repr

/-- A stereo pair's STE record: settings (none: the defaults of its camera), rectification maps and static masks by view
(none listed: identity, clear), the profile's ring of disparity frames, counts and last results (R446, R450). -/
structure StePair where
  cfg : Option SteCfg
  maps : Tbl (List Byte)
  masks : Tbl (List Byte)
  ring : List Nat
  at_ : Nat
  frames : Nat
  absent : Nat
  clips : Nat
  lastSeq : Nat
  lastDts : BitVec 128
  lastCycles : Nat
  lastCounts : List Nat
  busy : Nat
  deriving DecidableEq, Repr

/-- A source frame of an engine operation in the layout of R238: buffer, offset, and stream and slot of an ingest frame. -/
structure FrameSrc where
  buf : Nat
  off : Nat
  slot : Option (Nat × Nat)
  deriving DecidableEq, Repr

/-- One STE operation (R436 to R444): its settings, maps and masks as they stood when it started; bands built of each
view, present level and tile, clipped tiles, bands written and whether the next one has waited. -/
structure SteOp where
  job : Nat
  pair : Nat
  tick : Bool
  cfg : SteCfg
  maps : Tbl (List Byte)
  masks : Tbl (List Byte)
  left : Option FrameSrc
  right : Option FrameSrc
  builtL : Nat
  builtR : Nat
  level : Nat
  tile : Nat
  clips : Nat
  band : Nat
  waited : Bool
  absent : Bool
  outBuf : Nat
  outOff : Nat
  deriving DecidableEq, Repr

/-- A stream's tracking settings (R483). -/
structure FteCfg where
  input : Nat
  shift : Nat
  sat : Nat
  contexts : Nat
  levels : Nat
  win : Nat
  iter : Nat
  eps : Nat
  pred : Nat
  fb : Bool
  cell : Nat
  cellTarget : Nat
  birthMax : Nat
  minDist : Nat
  reidAge : Nat
  freezeMax : Nat
  cornerMin : Nat
  eigMin : Nat
  maxFlow : Nat
  resMax : Nat
  fbTol : Nat
  descLen : Nat
  descBuf : Nat
  descOff : Nat
  deriving DecidableEq, Repr

/-- A track context that is not FREE (R466): state 1 NEW, 2 TRACKED, 3 DORMANT; position in uQ16.16; its last flow in
2^-16 pixels; operations since its loss; its last record. -/
structure FteCtx where
  id : Nat
  state : Nat
  x : Nat
  y : Nat
  flowX : Int
  flowY : Int
  age : Nat
  score : Nat
  dormant : Nat
  rec_ : List Byte
  deriving DecidableEq, Repr

/-- The last tracked frame of a stream: its level-0 luma and its flags (bit 1 saturated, bit 2 masked), both in row
order, its SEQ and stamp in 2^-16 ns, and the frame interval before it. -/
structure FtePyr where
  w : Nat
  h : Nat
  luma : List Byte
  flags : List Byte
  seq : Nat
  moment : Nat
  prevDt : Int
  deriving DecidableEq, Repr

/-- What an FTE operation reads and writes as a whole (R473): contexts by slot, the last tracked frame, consecutive
frozen frames, operations, records of tracks that ended between operations, and the last summary. -/
structure FteCore where
  ctxs : Tbl FteCtx
  prev : Option FtePyr
  frozen : Nat
  owed : List (List Byte)
  wasReset : Bool
  stepped : Bool
  summary : List Byte
  lastSeq : Nat
  lastDts : BitVec 128
  lastCycles : Nat
  deriving DecidableEq, Repr

/-- A stream's FTE record: settings in force, settings that wait for the next operation, mask, committed state. -/
structure FteStream where
  enable : Bool
  cfg : Option FteCfg
  next : Option FteCfg
  mask : Option (List Byte)
  core : FteCore
  ops : Nat
  deriving DecidableEq, Repr

/-- One FTE operation: bands built, its pending state when it has one (with the die's ID
counter after it). -/
structure FteOp where
  job : Nat
  stream : Nat
  tick : Bool
  cfg : FteCfg
  fresh : Bool
  mask : Option (List Byte)
  src : Option FrameSrc
  src2 : Option FrameSrc
  built : Nat
  done : Bool
  pending : Option (FteCore × Nat)
  outBuf : Nat
  outOff : Nat
  deriving DecidableEq, Repr

/-- The vision engines of all dies: STE pairs and operations, FTE streams, operations and ID counters by die, the FTE busy
remainder, and the operation each engine is on. -/
structure Vision where
  pairs : Tbl StePair
  ste : List SteOp
  steOn : Tbl Nat
  streams : Tbl FteStream
  fte : List FteOp
  fteOn : Tbl Nat
  ids : Tbl Nat
  busy : Tbl Nat
  deriving DecidableEq, Repr
/-! ## Poses -/

/-- Three components of one fixed-point format. -/
structure Vec3 where
  x : Int
  y : Int
  z : Int
  deriving DecidableEq, Repr

/-- A quaternion (w, x, y, z) of one fixed-point format. -/
structure Quat where
  w : Int
  x : Int
  y : Int
  z : Int
  deriving DecidableEq, Repr

/-- A pose, map from body: a unit quaternion in sQ1.62 and a translation in sQ31.32 m (R535). -/
structure Pose where
  q : Quat
  t : Vec3
  deriving DecidableEq, Repr

/-! ## Outputs and guidance -/

/-- A message for a transmit port (R694, R695): its payload as kept bytes or as ranges of buffers (buffer, offset,
length), the handle that waits for it; settings and DROPPED mark as they stood when it started; next part. -/
structure OutMsg where
  dt : Nat
  vc : Nat
  seq : Nat
  dts : BitVec 128
  body : List Byte
  segs : List (Nat × Nat × Nat)
  handle : Option Nat
  lineBytes : Nat
  partBytes : Nat
  dropped : Bool
  part : Nat
  cancel : Bool
  deriving DecidableEq, Repr

/-- The part on the wire of a port: whether it ends its message, its packets, and its end in elapsed 2^-16 ns. -/
structure Wire where
  dt : Nat
  last : Bool
  handle : Option Nat
  lines : Nat
  lineBytes : Nat
  startAt : Nat
  endAt : Nat
  deriving DecidableEq, Repr

/-- A CSI-2 transmit port (R693 to R703): messages waiting or partly sent in the order they were formed, frame numbers
by virtual channel, counters and message numbers by data type, DROPPED marks, and the payload of the last frame. -/
structure TxPort where
  enabled : Bool
  lanes : Nat
  clock : Nat
  rate : Nat
  lineBytes : Nat
  partBytes : Nat
  queue : List OutMsg
  wire : Option Wire
  bytes : Nat
  frames : Tbl Nat
  sent : Tbl Nat
  dropped : Tbl Nat
  overrun : Tbl Nat
  marks : List Nat
  seqs : Tbl Nat
  frame : List Byte
  deriving DecidableEq, Repr

/-- A route (R698): `cursor` is the SEQ of the first event record that is pending for it, `diagAt` the next diagnostic
moment of device time. -/
structure Route where
  on : Bool
  vc : Nat
  pairs : Nat
  period : Nat
  seq : Nat
  cursor : Nat
  diagAt : Nat
  deriving DecidableEq, Repr

/-- CAN FD guidance (R705 to R710): settings, path stores as their images, the active store and one selected for the next
instant; state, reason, segment, counters, the last frame's payload, and one that has not won arbitration. -/
structure Guide where
  enable : Bool
  ext : Bool
  allowDegraded : Bool
  ctrl : Nat
  rate : Nat
  minConf : Nat
  canId : Nat
  cpX : Int
  cpY : Int
  lookahead : Nat
  maxXte : Nat
  window : Nat
  maxExtrap : Nat
  stores : Tbl (List Byte)
  active : Option Nat
  select : Option (Option Nat)
  state : Nat
  reason : Nat
  seg : Nat
  fresh : Bool
  sent : Nat
  notSent : Nat
  replaced : Nat
  counter : Nat
  last : List Byte
  waiting : Option (List Byte)
  extrapFrom : Option Nat
  nextAt : Nat
  deriving DecidableEq, Repr

/-- Ports, routes by data type × 256 + port, and guidance. -/
structure Outputs where
  ports : Tbl TxPort
  routes : Tbl Route
  guide : Guide
  deriving DecidableEq, Repr

/-! ## Fusion on the common grid -/

/-- Grid geometry and layer settings (R489, R526). -/
structure GridCfg where
  cell : Nat
  gridW : Nat
  strip : Nat
  layerBuffers : Nat
  margin : Nat
  zMin : Int
  zMax : Int
  decay : Nat
  stateC : Nat
  mapPrior : Bool
  deriving DecidableEq, Repr

/-- A source slot (R500, R526). -/
structure GridSlot where
  stream : Nat
  kind : Nat
  enable : Bool
  channels : Nat
  bins : Nat
  stride : Nat
  dMin : Nat
  dMax : Nat
  deriving DecidableEq, Repr

/-- A stream's calibration (R514 to R518): base and current records, the one the last admitted TICK job took, refinement
settings, and what the mean speed since the last refinement is formed from. -/
structure Calib where
  base : List Byte
  current : List Byte
  used : List Byte
  period : Nat
  stepRot : Nat
  stepTrans : Nat
  maxRot : Nat
  maxTrans : Nat
  refines : Nat
  lastDts : BitVec 128
  lastAt : Nat
  speed0 : Nat
  count0 : Nat
  deriving DecidableEq, Repr

/-- Settings of the consistency checks (R525). -/
structure CheckCfg where
  gEnter : Nat
  gExit : Nat
  clear : Nat
  drop : Nat
  rise : Nat
  wheel : Nat
  motionPairs : Nat
  motionLidar : Nat
  geomPairs : Nat
  geomLidar : Nat
  deriving DecidableEq, Repr

/-- A check source (R507, R511): `score0` and `run0` as the tick found them, what each check decided in the
tick (check and 1 took part, 3 masked, 4 held out), the state of the last tick, and the last statistic. -/
structure CheckSource where
  suspect : Bool
  score : Nat
  run : Nat
  score0 : Nat
  run0 : Nat
  marks : List (Nat × Nat)
  last : Nat
  stat : Nat
  deriving DecidableEq, Repr

/-- The grid: frame 0 VEHICLE or 1 MAP, window origin in cells (R635), Z_REF in sQ31.32 m, owners, committed cells that
are not the unknown record, layer buffers, tensor buffers by die, halo bytes not yet counted; the tick whose checks are
decided, the checks decided, and the contradiction runs by check. -/
structure Grid where
  cfg : GridCfg
  slots : Tbl GridSlot
  cals : Tbl Calib
  check : CheckCfg
  sources : Tbl CheckSource
  frame : Nat
  x0 : Int
  y0 : Int
  zRef : Int
  resets : Nat
  owners : BitVec 8
  forced : Bool
  tickSeq : Nat
  cells : Tbl (List Byte)
  ring : List Nat
  at_ : Nat
  header : List Byte
  tensors : Tbl Nat
  haloRem : Tbl Nat
  liftRem : Tbl Nat
  checkTick : Option Nat
  decided : List Nat
  contra : Tbl (Nat × Nat)
  stepped : Bool
  deriving DecidableEq, Repr

/-! ## Solver engine and pose propagator -/

/-- A slot's loaded problem (R529, R534): the description with the updates that took effect, its signature, warm values by
variable, the kept factor (description, damping and iterate it was formed from), the pending packets with those a job's solve
took (R568), whether the next solve is cold or matched by ID, the last committed result header, and the work buffer. -/
structure SlvSlot where
  desc : List Byte
  signature : Nat
  warm : List (List Byte)
  kept : Option (List (List Byte))
  pending : List (List Byte)
  cold : Bool
  partial_ : Option Nat
  result : List Byte
  workBuf : Nat
  taken : Option (Nat × Nat)
  deriving DecidableEq, Repr

/-- Where a solve stands (R556): phase 0 evaluation, 1 assembly, 2 factorisation or PCG, 3 triangular solves, 4 the cost
evaluation of LM, 5 the closing evaluation; steps done in it. -/
structure SlvAt where
  phase : Nat
  step : Nat
  deriving DecidableEq, Repr

/-- One solve (R551 to R568): job, die and slot; `fw` for a solve of firmware, whose problem is its own; its problem with
the pending packets applied, starting values, packets taken, how it starts; cap, deadline in 2^-16 ns of device time,
output; whether it has begun and stands suspended; its attempt: place, iterate, the one before it (none: no test due),
costs, damping exponent, completed iterations; the blocks rescaled with old and new exponents; the kept factor; whether its
deadline has come, how it ended (0 converged, 1 capped, 2 DEADLINE_NONE, 3 DEADLINE, 4 DEADLINE_PARTIAL, 5 RANGE), and the
result header once written. -/
structure SlvOp where
  job : Nat
  die : Nat
  slot : Nat
  tick : Bool
  fw : Bool
  desc : List Byte
  start : List (List Byte)
  taken : Nat
  coldFlag : Bool
  matched : Nat
  partial_ : Bool
  maxIter : Nat
  deadline : Option Nat
  outBuf : Nat
  outOff : Nat
  begun : Bool
  suspended : Bool
  suspendAt : Nat
  suspended16 : Nat
  wasSuspended : Bool
  at_ : SlvAt
  x : List (List Byte)
  prev : Option (List (List Byte))
  costWarm : Nat
  costPrev : Nat
  lambda : Option Int
  iter : Nat
  cheiral : Nat
  rescaled : List (Nat × Int × Int)
  retried : Bool
  kept : Option (List (List Byte))
  busy : Nat
  late : Bool
  ended : Option Nat
  header : List Byte
  deriving DecidableEq, Repr

/-- A state of the sliding window (R590). -/
structure WinState where
  at_ : Nat
  pose : Pose
  v : Vec3
  bg : Vec3
  ba : Vec3
  deriving DecidableEq, Repr

/-- An IMU sample as the propagator keeps it: stamp in 2^-16 ns, rates in sQ7.24 rad/s, specific force in sQ9.22 m/s². -/
structure ImuSample where
  at_ : Nat
  g : Vec3
  a : Vec3
  deriving DecidableEq, Repr

/-- What a propagator starts from (R571): pose, velocity and biases in sQ31.32, the stamp, the TICK_SEQ, and what published
records take from it (R609). -/
structure Anchor where
  pose : Pose
  v : Vec3
  bg : Vec3
  ba : Vec3
  at_ : Nat
  seq : Nat
  conf : Nat
  sigmas : List Nat
  deriving DecidableEq, Repr

/-- The pose propagator (R570 to R575): settings, anchor, kept samples oldest first, ring of records by SEQ modulo 2,048,
flags that the next record carries, the motion at the newest sample or the anchor and
the newest rate in the body, the stamp of the newest sample or of the start, and sums for mean speeds in 2^-16 m/s. -/
structure PoseProp where
  imu : Nat
  gravity : Nat
  qbi : Quat
  tbi : Vec3
  anchor : Option Anchor
  samples : List ImuSample
  ring : Tbl (List Byte)
  seq : Nat
  lastMs : Option Nat
  anchored : Bool
  stepped : Bool
  extrapolated : Bool
  cur : Option WinState
  rate : Vec3
  sampleAt : Nat
  speedSum : Nat
  speedCount : Nat
  deriving DecidableEq, Repr

/-- Solvers of all dies (slots by die × 4 + slot) and the propagator. -/
structure Solver where
  slots : Tbl SlvSlot
  ops : List SlvOp
  pp : PoseProp
  busyRem : Tbl Nat
  deriving DecidableEq, Repr

/-! ## Localisation and loop closure -/

/-- LOC_CONFIG (R612, R613). -/
structure LocCfg where
  pair : Nat
  window : Nat
  initFrames : Nat
  kfOverlap : Nat
  trackMin : Nat
  initLandmarks : Nat
  initRange : Nat
  confRef : Nat
  poseRate : Nat
  lostTicks : Nat
  relocWait : Nat
  relocHold : Nat
  reinitTime : Nat
  kfDist : Nat
  kfRot : Nat
  kfTime : Nat
  tickDeadline : Nat
  solveEnd : Nat
  deriving DecidableEq, Repr

/-- WHEEL_CONFIG (R595 to R597). -/
structure WheelCfg where
  source : Nat
  model : Nat
  angleSrc : Nat
  resStream : Nat
  track : Nat
  wheelbase : Nat
  front : Nat
  rear : Nat
  encL : Nat
  encR : Nat
  encScale : Nat
  resZero : Nat
  resRatio : Int
  sigmaD : Nat
  sigmaPsi : Nat
  deriving DecidableEq, Repr

/-- GNSS_CONFIG (R598). -/
structure GnssCfg where
  enable : Bool
  minType : Nat
  lever : Vec3
  sigmaMax : Nat
  alignDist : Nat
  deriving DecidableEq, Repr

/-- LOOP_CONFIG (R601 to R606); `die` none is that of PAIR. -/
structure LoopCfg where
  enable : Bool
  k : Nat
  verify : Nat
  apply : Nat
  maxDist : Nat
  inliers : Nat
  ratio : Nat
  die : Option Nat
  relocEvery : Nat
  exclude : Nat
  deadline : Nat
  deriving DecidableEq, Repr

/-- Localisation states (R579). -/
inductive LocState where
  | cold
  | init
  | tracking
  | degraded
  | lost
  | relocalised
  deriving DecidableEq, Repr

/-- A GNSS fix (R598): stamp, position in its own frame, deviations in mm. -/
structure Fix where
  at_ : Nat
  e : Vec3
  sigmaH : Nat
  sigmaV : Nat
  deriving DecidableEq, Repr

/-- A correction that waits (R605): the transform, the keyframe K, the session moved into and the slot left when it is across
sessions, its readiness. -/
structure Correction where
  c : Pose
  k : Nat
  across : Bool
  at_ : Nat
  deriving DecidableEq, Repr

/-- The last keyframe of the session as R593 measures from it: ID, pose, moment, tracks. -/
structure LastKf where
  id : Nat
  pose : Pose
  at_ : Nat
  tracks : List Nat
  deriving DecidableEq, Repr

/-- All of localisation; `initRun` counts the TICK commits since INIT, one frame each (R586); `applying` holds the corrections a TICK job was admitted with, whose keyframes move at its
commit. -/
structure Localisation where
  cfg : LocCfg
  wheel : WheelCfg
  gnss : GnssCfg
  loop : LoopCfg
  state : LocState
  prev : LocState
  entered : BitVec 128
  enteredAt : Nat
  session : Option Nat
  tickSeq : Nat
  commits : Nat
  degraded : Nat
  lost : Nat
  keyframes : Nat
  loopTried : Nat
  loopAccepted : Nat
  loopReplaced : Nat
  relocs : Nat
  gnssUsed : Nat
  gnssRejected : Nat
  gnssDropped : Nat
  alignT : Vec3
  alignYaw : Int
  aligned : Bool
  gravity : List ImuSample
  accepted : Option Nat
  window : List WinState
  lastCommitAt : Nat
  degradedRun : Nat
  fewRun : Nat
  relocCommits : Nat
  lostTicks : Nat
  imuDrops : Nat
  conf : Nat
  sigmas : List Nat
  cov : List Byte
  poseSeq : Nat
  published : List Byte
  committed : List Byte
  covRecord : List Byte
  lastKf : Option LastKf
  initRun : Nat
  landmarks : Tbl Nat
  corrections : List Correction
  slowFrom : Option Nat
  applying : List Correction
  correctedAt : Option Nat
  match_ : Option (Nat × Pose)
  fixes : List (Fix × Vec3)
  fix : List Fix
  rejects : Nat
  stepped : Bool
  deriving DecidableEq, Repr

/-! ## Cairn map store and place search -/

/-- A version of an object: the generation that wrote it and its record; no record: deleted at that generation. -/
structure MapVer where
  gen : Nat
  body : Option (List Byte)
  deriving DecidableEq, Repr

/-- Cairn (R614 to R648): versions by object ID, newest first; the bucket of each ID (die × 8192 + bucket) and its number of
an entry; pools by die; generation, ID counter, open session; pins as job and generation; counts. -/
structure Cairn where
  objs : Tbl (List MapVer)
  buckets : Tbl Nat
  poolMib : Nat
  pools : Tbl Nat
  gen : Nat
  nextId : Nat
  opened : Option Nat
  damaged : Bool
  full : Bool
  kfDropped : Nat
  tileDropped : Nat
  pins : List (Nat × Nat)
  released : List Nat
  deriving DecidableEq, Repr

/-- A tree node (R657). -/
structure PrsNode where
  first : Nat
  nchild : Nat
  level : Nat
  leaf : Nat
  code : List Byte
  deriving DecidableEq, Repr

/-- A posting-list entry (R661). -/
structure PrsEntry where
  id : Nat
  ins : Nat
  del : Nat
  code : List Byte
  deriving DecidableEq, Repr

/-- An index (R651 to R663): tree (no node: flat), shards by leaf × 8 + die, pools by die, epoch. -/
structure PrsIndex where
  codeBits : Nat
  branch : Nat
  depth : Nat
  nodes : List PrsNode
  shards : Tbl (List PrsEntry)
  poolMib : Nat
  pools : Tbl Nat
  copies : Tbl Nat
  epoch : Nat
  damaged : Bool
  deriving DecidableEq, Repr

/-- A query under way (R672 to R681): its place in its command, code, pin, settings; probe queue as (distance, node);
leaves probed, rounds run, candidates and counts so far; the round in progress with the dies that have answered and what
they sent. -/
structure PrsRun where
  job : Nat
  index : Nat
  n : Nat
  qid : Nat
  code : List Byte
  pin : Nat
  k : Nat
  probes : Nat
  widen : Bool
  probesMax : Nat
  filter : Nat
  base : Nat
  nbits : Nat
  bitmap : List Byte
  coord : Nat
  queue : List (Nat × Nat)
  probed : Nat
  rounds : Nat
  qfull : Bool
  found : Nat
  scanned : Nat
  cands : List (Nat × Nat)
  round : Option (List Nat)
  waitOn : BitVec 8
  got : List (Nat × Nat)
  gotFound : Nat
  gotScanned : Nat
  done : Bool
  deriving DecidableEq, Repr

/-- Place search: indexes, queries, pins as job, index and epoch, each die's open window (when it opened) and the rounds in it or waiting, as job and query
number, the compactions asked for as job, die, index and leaf, and the settings. -/
structure Prs where
  indexes : Tbl PrsIndex
  runs : List PrsRun
  pins : List (Nat × Nat × Nat)
  windows : Tbl Nat
  rounds : Tbl (List (Nat × Nat))
  compacts : List (Nat × Nat × Nat × Nat)
  reclaimed : Tbl Nat
  batchUs : Nat
  compactPct : Nat
  readRem : Tbl Nat
  busyRem : Tbl Nat
  deriving DecidableEq, Repr

/-! ## Self-test -/

/-- One slice of a run (R774): target code of the run's kind, die, index. -/
structure StSlice where
  target : Nat
  die : Nat
  index : Nat
  deriving DecidableEq, Repr

/-- How a slice ended (R790). -/
structure StResult where
  outcome : Nat
  attempts : Nat
  nfail : Nat
  deriving DecidableEq, Repr

/-- A self-test run (R772 to R790): its settings, slices and their results, save buffer by die, and the present slice:
its job, the moment it became due, attempts, void attempts, start, cluster clock at the start, and the moment from
which its windows have held. -/
structure StRun where
  handle : Nat
  kind : Nat
  mode : Nat
  noRepair : Bool
  clkMin : Nat
  waitMs : Nat
  slices : List StSlice
  results : List StResult
  save : Tbl Nat
  job : Option Nat
  dueAt : Nat
  attempts : Nat
  voids : Nat
  testing : Bool
  startedAt : Nat
  clock : Nat
  heldFrom : Nat
  records : List (List Byte)
  truncated : Bool
  startDts : BitVec 128
  endDts : BitVec 128
  cancel : Bool
  deriving DecidableEq, Repr

/-- An ST_FUSE in progress (R793, R794): soft-list entries left to blow (none: skipped), and the result so far. -/
structure Fusing where
  handle : Nat
  die : Nat
  left : List (Option Word)
  out : List Byte
  cancel : Bool
  deriving DecidableEq, Repr

/-- Self-test: at most two runs, the defects that failure records of this session named (words of R105 with SOURCE 0),
and the fusing in progress. -/
structure SelfTest where
  runs : Tbl StRun
  confirmed : List Word
  fusing : Option Fusing
  deriving DecidableEq, Repr

/-! ## Reset values -/

/-- A die's fused identity when nothing else is said (log entry 2). -/
def DieId.reset : DieId := ⟨0, 0, 0, 0⟩

/-- A fused key slot: programmed, digests of zeros, not revoked (log entry 2). -/
def KeySlot.reset : KeySlot := ⟨true, List.replicate 48 0, List.replicate 48 0, 0⟩

/-- The fuses of the package the model starts from: a KR-860-26 with die 0 leading, no defect, every key slot
programmed, the production fuse blown (DESIGN CHOICE, log entry 2). Also R83. -/
def Fuses.reset : Fuses where
  grade0 := 0x26
  grade1 := 0x26
  grade2 := 0x26
  lead := 0
  serial := 0
  substrate := 0x01
  major := 0x0A
  minor := 0
  dies := []
  defects := []
  repairs := []
  slots := []
  rollback := []
  production := true
  idRsaN := List.replicate 384 0
  idSlhPk := List.replicate 48 0
  mac := 0
  tjOffset := []
  sfeVolt := []

/-- The boot registers at reset (R85, R97 and the register tables of Bring-up). -/
def Boot.reset : Boot where
  state := .idle
  step := 0
  lastDone := 0
  refused := false
  ready := false
  fail := 0
  failExt := 0
  ibiEn := true
  lpRate := 0
  fwSrc := 0
  noDefault := false
  fwPtr := 0
  fwLen := 0
  fwOfs := 0
  memCap := 0
  memRate := 0
  soft := []
  softOverflow := false
  train := []
  density := []
  result := none
  startedAt := 0
  lastAccept := 0
  used := []
  fwStarted := false
  cpRunning := 0
  fuseCorrected := 0
  pll := false

/-- The I3C target at reset (R139, R140). DESIGN CHOICE: log entry 7. -/
def I3c.reset : I3c where
  dyn := none
  ibiOn := true
  hjOn := true
  hjSent := false
  releasedAt := 0
  mwl := 4096
  mrl := 4096
  rstact := none
  readPtr := 0
  hdr := .sdr
  protoErr := false
  readOut := []
  cccOut := []
  ibiOut := none

/-- An empty violation log entry. -/
def VlogEntry.empty : VlogEntry := ⟨0, 0, 0, 0⟩

/-- An empty fault log entry. -/
def FlogEntry.empty : FlogEntry := ⟨List.replicate 7 0⟩

/-- The EVT window at reset: EVT_IBI_EN 0x001F, all else zero. -/
def Evt.reset : Evt where
  cause := 0
  ibiEn := 0x001F
  faultTb := 0
  faultCp := 0
  ibi := []
  ring := []
  ringWr := 0
  ringRd := 0
  vlogCount := 0
  vlog := []
  vlogAt := 0
  vlogIdx := 0
  vlogOut := VlogEntry.empty
  vcnt := []
  flogCount := 0
  flog := []
  flogIdx := 0
  flogOut := FlogEntry.empty
  events := []
  evSeq := 0

/-- A mailbox channel at reset (R150, R151). -/
def Channel.reset : Channel := ⟨.idle, 0, [], [], [], none, none⟩

/-- The time base at reset: source 0, class 0, the nominal addend of 2.0 ns, the settings of R219. -/
def TimeBase.reset : TimeBase where
  now := 0
  dt := 0
  addend := 2 ^ 33
  servo := .free
  source := 0
  cls := 0
  hold := false
  everSet := false
  following := 0
  mode := 0
  domain := 0
  allowStep := false
  ppsTraceable := false
  holdMax := 300
  stepThresh := 1000000
  samples := []
  goodRun := 0
  badRun := 0
  lastOffset := 0
  step := none
  ppsSeconds := none
  steps := 0
  holdAt := 0
  holdBound := 0
  gm := 0
  slavePort := 0
  snap := 0
  snapValid := false
  onPps := false

/-- PPS at reset (R219): both off, OUT_WIDTH 100 ms. -/
def Pps.reset : Pps where
  inEn := false
  inPol := 0
  outEn := false
  inDelay := 0
  outDelay := 0
  outWidth := 100
  qualified := false
  run := 0
  lastQual := none
  lastQualAt := 0
  outHigh := false
  outFall := 0

/-- A trigger group that has had no PERIOD (R206). -/
def Group.reset : Group := ⟨false, false, 0, 0, 0, none⟩

/-- A timing output attached to no group. -/
def TimingOut.reset : TimingOut := ⟨none, none, []⟩

/-- A compensation record at reset (R212): zeros, LINK 0xFF. -/
def Comp.reset : Comp := ⟨0xFF, 0, 0, 0⟩

/-- A PTP port at reset (R219). -/
def PtpPort.reset : PtpPort where
  role := 2
  transport := 0
  twoStep := false
  logSync := 0
  logAnnounce := 1
  logDelay := 0
  annTimeout := 3
  priority1 := 255
  priority2 := 255
  ocSlave := true
  portState := 4
  peerDelay := 0
  rxEvents := 0
  txEvents := 0
  tcCorrected := 0
  violations := 0
  foreign := none
  ex := ⟨none, none, none, none, none, none, none, none, none, none⟩
  txSeq := 0

/-- Triggers and PTP at reset. -/
def Timing.reset : Timing := ⟨Pps.reset, [], [], [], [], [], none⟩

/-- No profile. -/
def Profile.reset : Profile where
  state := .none
  zero := false
  id := 0
  flags := 0
  tickGroup := 0
  uses := []
  reserved := []
  bufs := []
  ticks := 0
  handle := none
  commitAt := none
  waiting := []
  nets := []
  parts := []
  code := none

/-- The job service at reset: RESTART_FW 2, WAIT_FW 100 (R749). -/
def Jobs.reset : Jobs := ⟨[], 1, 0, 0, 2, 100, [], Profile.reset⟩

/-- Power and heat at reset: every die-common domain on, the other domains off (R85); the caps and the limit start
at the grade's (R762, R763), here those of the -26 grade that `Fuses.reset` holds. -/
def Power.reset : Power where
  dieOn := 0xFF
  domains := []
  pendingOn := 0
  dieHandles := []
  resetting := []
  withdrawn := 0
  tickWithdrawn := 0
  engines := []
  limit := 110
  cTick := 2600
  cOther := 2600
  lowRun := 0
  atFloor := 0
  est := 0
  sensed := 0
  current := []
  senseOn := false
  senseVcore := 0
  senseGain := 0
  senseOffset := 0
  tj := []
  tjValid := 0
  throttle := 0
  cap := []
  throttleAt := []
  capEventAt := []
  therm := 0
  ref38 := 0xFF
  ref156 := true
  noalloc := 0

/-- A physical unit at reset (R373). -/
def CUnit.reset : CUnit := ⟨.idle, 0, 0, 0, 0, 0, 0, 0, 0, none, [], [], 0, 0, false⟩

/-- A cluster at reset. -/
def Cluster.reset : Cluster := ⟨0, [], [], [], [], [], 0, 0, 0, 0, 0⟩

/-- Memory management at reset (R390). -/
def MemSys.reset : MemSys := ⟨[], 1, 0x80000000, [], [], [], [], [], [], [], [], []⟩

/-- Firmware trust at reset: nothing verified, digests zero, no scope opened (R806, R815, R816). -/
def Sec.reset : Sec where
  verified := false
  slot := 0
  secVer := 0
  imgVer := 0
  fwDigest := List.replicate 48 0
  cfgDigest := List.replicate 48 0
  defectDigest := List.replicate 48 0
  rsaN := List.replicate 384 0
  slhPk := List.replicate 48 0
  scopes := 0
  challenge := none
  reportSeq := 0
  health := false
  ops := []
  tapOut := []
  bistOff := 0

/-- A stream at reset: OFF, USABLE_PCT 10 (R277). -/
def Stream.reset : Stream where
  state := .off
  buffers := 0
  usablePct := 10
  period := 0
  timeout := 0
  recover := 0
  good := 0
  timerAt := 0
  seq := 0
  dts := 0
  lastSeq := 0
  samples := 0
  nobuf := 0
  unusable := 0
  unpaired := 0
  slips := 0
  dropouts := 0
  violations := 0
  bufs := []
  order := []
  at_ := 0
  frames := []

/-- A receive port at reset: the spec states no reset values; those that R134 gives ports 0 and 1 (log entry 1). -/
def CsiPort.reset : CsiPort where
  phy := 0
  lanes := 4
  vc := 0
  dt := 0x2C
  bulkVc := 0xFF
  width := 1920
  height := 1200
  frameTimeout := 100000
  embOff := 0xFFFF
  embLen := 2
  embOrder := 0
  embUnit := 0
  frame := none
  lastExpo := 0
  lastNum := none
  gaps := 0
  untriggered := 0
  lineCount := 0

/-- A pair that is not enabled. -/
def Pair.reset : Pair := ⟨false, 0, false, none, none, 0, 0, none⟩

/-- An Ethernet port at reset: no address, untagged, no link (log entry 1). -/
def EthPort.reset : EthPort := ⟨0xFFFF, 0, 0, 0, 0, 0, 0, 0, 0, 0, 0, 0, 0, [], [], []⟩

/-- An absent field. -/
def FSpec.absent : FSpec := ⟨0xFFFF, 0, 0⟩

/-- A lidar stream at reset: no settings (log entry 1). -/
def Lidar.reset : Lidar := ⟨0, 4, 0, 0xFFFF, 0, 0, 0, 1, 0, 1, 0, 0, 0, 0xFFFF, 100000, 0, 0, .absent, .absent, .absent,
  .absent, [], none, none, none, 0, 0⟩

/-- An IMU port at reset: the settings of R134, without field specifications (log entry 1). -/
def ImuPort.reset : ImuPort := ⟨3, 0, 1, 10000, 400, List.replicate 16 0, 1, 0xFF, 0, List.replicate 7 .absent, none, 0⟩

/-- An encoder at reset: off. -/
def Encoder.reset : Encoder := ⟨0, 0, 0, 0, 1, false, false, 0, 0, false, false, false, none, none⟩

/-- A CAN controller at reset: disabled. -/
def CanCtrl.reset : CanCtrl := ⟨false, false, 0, 0, 0, 0, 0, 0, 0, []⟩

/-- Ingest at reset. -/
def Ingest.reset : Ingest := ⟨[], [], [], [], [], [], [], [], [], []⟩

/-- An empty delay line. -/
def SfeLine.empty : SfeLine := ⟨0, []⟩

/-- An SFE stream at reset: OFF; the spec states no reset settings (log entry 1). -/
def SfeStream.reset : SfeStream where
  state := .off
  enable := false
  range := 0
  coupling := 0
  path := 0
  h := 0
  m := 0
  res := false
  p := 0
  ring := 1024
  engScale := 0
  engOffset := 0
  start := none
  s0 := 0
  w := 0
  next := 0
  gap := false
  stepped := false
  lines := []
  lines2 := []
  out := .empty
  out2 := .empty
  offset := 0
  gain := 1073741824
  written := none
  seq := 0
  dts := 0
  lastSeq := 0
  last := 0
  over_ := 0
  held := 0
  violations := 0
  buf := none
  at_ := 0
  phaseC := 0
  low := 0
  good := 0
  detOn := false
  detDc := false
  detH := 0
  attack := 0
  release := 0
  window := 0
  detN := 0
  env := 0
  win := none
  ready := []
  detStepped := false
  detGap := false
  detSeq := 0
  detBuf := none
  detAt := 0

/-- The excitation at reset: off. -/
def SfeExc.reset : SfeExc := ⟨0, false, 0, 0, 0⟩

/-- The reset scan (R305): SCS, OSR 8, SETTLE 4 µs, 100,000 ns. -/
def SfeScan.reset : SfeScan := ⟨0, 8, 4, 100000, none, 0⟩

/-- The sensing front ends at reset. -/
def Sfe.reset : Sfe := ⟨[], [], [], [], []⟩

/-- A pair without settings of its own: identity maps, clear masks (R446). -/
def StePair.reset : StePair := ⟨none, [], [], [], 0, 0, 0, 0, 0, 0, 0, List.replicate 7 0, 0⟩

/-- No track, no previous frame. -/
def FteCore.reset : FteCore := ⟨[], none, 0, [], false, false, zeros 64, 0, 0, 0⟩

/-- A stream that is not tracked. -/
def FteStream.reset : FteStream := ⟨false, none, none, none, FteCore.reset, 0⟩

/-- The vision engines at reset; the ID counters start at 0 (R454). -/
def Vision.reset : Vision := ⟨[], [], [], [], [], [], [], []⟩
/-- The zero vector, the identity quaternion in sQ1.62 and the identity pose. -/
def Vec3.zero : Vec3 := ⟨0, 0, 0⟩
def Quat.one : Quat := ⟨2 ^ 62, 0, 0, 0⟩
def Pose.id : Pose := ⟨Quat.one, Vec3.zero⟩

/-- A transmit port at reset (R703, R711). -/
def TxPort.reset : TxPort := ⟨false, 4, 0, 2500, 4096, 262144, [], none, 0, [], [], [], [], [], [], []⟩

/-- A route that is not enabled. -/
def Route.reset : Route := ⟨false, 0, 0, 0, 0, 0, 0⟩

/-- Guidance at reset (R711). -/
def Guide.reset : Guide where
  enable := false
  ext := false
  allowDegraded := false
  ctrl := 0
  rate := 50
  minConf := 128
  canId := 0
  cpX := 0
  cpY := 0
  lookahead := 600
  maxXte := 200
  window := 64
  maxExtrap := 10
  stores := []
  active := none
  select := none
  state := 0
  reason := 0
  seg := 0
  fresh := true
  sent := 0
  notSent := 0
  replaced := 0
  counter := 0
  last := zeros 24
  waiting := none
  extrapFrom := none
  nextAt := 0

/-- Outputs at reset. -/
def Outputs.reset : Outputs := ⟨[], [], Guide.reset⟩

/-- A source slot at reset (R526). -/
def GridSlot.reset : GridSlot := ⟨0, 0, false, 64, 64, 8, 100, 5000⟩

/-- A calibration record that no CAL_SET has given: its stream and kind, zero otherwise (log entry 1). -/
def calBlank (stream : Nat) : List Byte := leBytes 1 stream ++ leBytes 1 (if stream < 16 then 0 else 2) ++ zeros 110

/-- A stream's calibration at reset (R525). -/
def Calib.reset (stream : Nat) : Calib :=
  ⟨calBlank stream, calBlank stream, calBlank stream, 10, 500, 2000, 5000, 20000, 0, 0, 0, 0, 0⟩

/-- A check source that has not taken part: clean, SCORE 255 (R511), statistic NaN (R525). -/
def CheckSource.reset : CheckSource := ⟨false, 255, 0, 255, 0, [], 0, 0x7FC00000⟩

/-- The grid at reset (R489, R525, R526). -/
def Grid.reset : Grid where
  cfg := ⟨200, 512, 64, 3, 32, -200, 400, 4, 16, false⟩
  slots := []
  cals := []
  check := ⟨4165, 2903, 10, 64, 8, 0, 0, 0, 0, 0⟩
  sources := []
  frame := 0
  x0 := -256
  y0 := -256
  zRef := 0
  resets := 0
  owners := 0xFF
  forced := false
  tickSeq := 0
  cells := []
  ring := []
  at_ := 0
  header := zeros 64
  tensors := []
  haloRem := []
  liftRem := []
  checkTick := none
  decided := []
  contra := []
  stepped := false

/-- An empty solver slot. -/
def SlvSlot.reset : SlvSlot := ⟨[], 0, [], none, [], true, none, zeros 64, 0, none⟩

/-- The propagator at reset (R578): G 9.81 m/s² in uQ8.24, identity transform in sQ1.30, IMU 0 (R135). -/
def PoseProp.reset : PoseProp where
  imu := 24
  gravity := 164584489
  qbi := ⟨2 ^ 30, 0, 0, 0⟩
  tbi := Vec3.zero
  anchor := none
  samples := []
  ring := []
  seq := 0
  lastMs := none
  anchored := false
  stepped := false
  extrapolated := false
  cur := none
  rate := Vec3.zero
  sampleAt := 0
  speedSum := 0
  speedCount := 0

/-- Solvers at reset. -/
def Solver.reset : Solver := ⟨[], [], PoseProp.reset, []⟩

/-- Localisation at reset (R613). -/
def Localisation.reset : Localisation where
  cfg := ⟨0, 8, 8, 60, 30, 80, 30, 20, 200, 90, 150, 30, 10, 100, 175, 10, 0, 0⟩
  wheel := ⟨0, 0, 0, 0, 0, 0, 0, 0, 0, 0, 0, 0, 0, 20, 5000⟩
  gnss := ⟨false, 3, Vec3.zero, 100, 20⟩
  loop := ⟨true, 8, 4, 0, 0, 40, 35, none, 5, 30, 500000⟩
  state := .cold
  prev := .cold
  entered := 0
  enteredAt := 0
  session := none
  tickSeq := 0
  commits := 0
  degraded := 0
  lost := 0
  keyframes := 0
  loopTried := 0
  loopAccepted := 0
  loopReplaced := 0
  relocs := 0
  gnssUsed := 0
  gnssRejected := 0
  gnssDropped := 0
  alignT := Vec3.zero
  alignYaw := 0
  aligned := false
  gravity := []
  accepted := none
  window := []
  lastCommitAt := 0
  degradedRun := 0
  fewRun := 0
  relocCommits := 0
  lostTicks := 0
  imuDrops := 0
  conf := 0
  sigmas := [0, 0, 0]
  cov := zeros 84
  poseSeq := 0
  published := zeros 128
  committed := zeros 128
  covRecord := zeros 128
  lastKf := none
  initRun := 0
  landmarks := []
  corrections := []
  slowFrom := none
  applying := []
  correctedAt := none
  match_ := none
  fixes := []
  fix := []
  rejects := 0
  stepped := false

/-- The empty map (R629). DESIGN CHOICE: log entry 32. -/
def Cairn.reset : Cairn := ⟨[], [], 512, [], 0, 1, none, false, false, 0, 0, [], []⟩

/-- Place search at reset: no index before READY (R651, R692). -/
def Prs.reset : Prs := ⟨[], [], [], [], [], [], [], 100, 25, [], []⟩

/-! ## The whole state -/

/-- Everything of the block but its addressed memories and the queue. `free` counts the free values used
(log entry 5). -/
structure Device where
  /-- the fuses -/
  fuse : Fuses
  /-- reset ball, target, shutdown, supplies -/
  pkg : Pkg
  /-- the boot sequencer -/
  boot : Boot
  /-- the package defect view -/
  view : DefectView
  /-- the I3C target -/
  i3c : I3c
  /-- causes, ring, logs, event records -/
  evt : Evt
  /-- mailbox channels and handles -/
  mbx : Mbx
  /-- DIAG counter words by die × 128 + word -/
  diag : Tbl Nat
  /-- device time and servo -/
  time : TimeBase
  /-- PPS, triggers, compensation, PTP -/
  tim : Timing
  /-- jobs and the profile -/
  jobs : Jobs
  /-- power, clocks and heat -/
  pwr : Power
  /-- physical units -/
  units : Tbl CUnit
  /-- clusters -/
  clusters : Tbl Cluster
  /-- buffers, cache slices, error marks -/
  memsys : MemSys
  /-- sensor ingest -/
  ing : Ingest
  /-- sensing front ends -/
  sfe : Sfe
  /-- stereo and feature tracking engines -/
  vis : Vision
  /-- the fusion grid -/
  grid : Grid
  /-- solver engines and the pose propagator -/
  slv : Solver
  /-- localisation and loop closure -/
  loc : Localisation
  /-- the map store -/
  map : Cairn
  /-- place search -/
  prs : Prs
  /-- transmit ports and guidance -/
  out : Outputs
  /-- self-test runs and fusing -/
  st : SelfTest
  /-- firmware trust, identity, debug -/
  sec : Sec
  free : Nat
  deriving DecidableEq, Repr

/-- The addressed memories: LPDDR6 by physical address (R386), landings and unit scratch (`landing` then scratch,
R375), and the quad-SPI flash with its size (none: no flash answers SFDP). -/
structure Store where
  lp : Cells
  sram : Cells
  flash : Cells
  flashSize : Option Nat
  deriving DecidableEq, Repr

/-- The state of the block: its registers and engines, its memories, and the commands that wait, first in, first out. -/
structure State where
  dev : Device
  mem : Store
  pending : List Instr
  deriving DecidableEq, Repr

/-- The block after power-on reset (R85), apart from its memories. DESIGN CHOICE: log entry 1.
DESIGN CHOICE: log entry 2. -/
def Device.reset : Device where
  fuse := Fuses.reset
  pkg := ⟨false, true, false, true⟩
  boot := Boot.reset
  view := ⟨[], [], [], [], [], [], []⟩
  i3c := I3c.reset
  evt := Evt.reset
  mbx := ⟨[], [], 1, []⟩
  diag := []
  time := TimeBase.reset
  tim := Timing.reset
  jobs := Jobs.reset
  pwr := Power.reset
  units := []
  clusters := []
  memsys := MemSys.reset
  ing := Ingest.reset
  sfe := Sfe.reset
  vis := Vision.reset
  grid := Grid.reset
  slv := Solver.reset
  loc := Localisation.reset
  map := Cairn.reset
  prs := Prs.reset
  out := Outputs.reset
  st := ⟨[], [], none⟩
  sec := Sec.reset
  free := 0

/-- The memories after power-on reset: nothing listed, and a 64 MiB flash that is erased (DESIGN CHOICE, log entry 3).
DESIGN CHOICE: log entry 31. -/
def Store.reset : Store := ⟨[], [], [], some 67108864⟩

/-- The machine right after reset: every field at its reset value and no command waiting. DESIGN CHOICE: log entry 1.
DEDUCED: log entry 74. -/
def State.reset : State := ⟨Device.reset, Store.reset, []⟩

end Sys2Proof.Machine
end

