-- ==== Sys2Proof/Machine/Flags.lean ====
section
/-! DEFINITION. What every family shares about status: the clock and its stamps (R16, R183), EVT_CAUSE and the
IBIs (R175 to R177), the violation log (R178), event records (R704), the fault log (R734), the DIAG counters
(R149), handles and the completion ring (R165 to R168), and the free values. -/

namespace Sys2Proof.Machine

/-- One nanosecond, in the model's 2^-16 ns. -/
def oneNs : Nat := 65536

/-- One millisecond, in 2^-16 ns. -/
def oneMs : Nat := 1000000 * oneNs

/-- One second, in 2^-16 ns. -/
def oneS : Nat := 1000000000 * oneNs

/-! ## Free values -/

/-- The next free word of a use, and the device with the counter advanced. -/
def Device.freeWord (d : Device) (use : Nat) : Word := Config.freeWord use d.free

/-- `n` free bytes of a use. -/
def Device.freeBytes (d : Device) (use n : Nat) : List Byte := (List.range n).map (Config.freeByte use d.free)

/-- The free-value counter advanced: the next use takes another value. -/
def Device.tickFree (d : Device) : Device := { d with free := d.free + 1 }

/-! ## Clock and stamps -/

/-- Device time in 2^-16 ns. -/
def TimeBase.ns16 (t : TimeBase) : Nat := t.dt / 65536

/-- Elapsed time passes: device time grows by the addend per 2 ns cycle (R183). Also R49. -/
def TimeBase.advance (t : TimeBase) (delta : Nat) : TimeBase :=
  { t with now := t.now + delta, dt := t.dt + delta * t.addend / 131072 }

/-- A DTS (R16) of a moment in 2^-16 ns with the given source and quality. -/
def dtsOf (m source quality : Nat) : BitVec 128 :=
  BitVec.ofNat 128 (m / oneS * 2 ^ 64 + m % oneS / oneNs * 2 ^ 32 + m % oneNs * 65536 + source * 4096 + quality * 256)

/-- The quality field (R188). -/
def TimeBase.quality (t : TimeBase) : Nat := b2n t.hold * 8 + t.cls

/-- The stamp of a moment of device time on a die; a die with a time base fault stamps quality 0 (R185). -/
def Device.stampAt (d : Device) (die m : Nat) : BitVec 128 :=
  dtsOf m d.time.source (if d.evt.faultTb.getLsbD die then 0 else d.time.quality)

/-- The lead die (R40): die 1 when the majority of the lead-select copies reads blown. Also R41, R42. -/
def Device.lead (d : Device) : Nat := if majority3 d.fuse.lead then 1 else 0

/-- The stamp of this moment on the lead die. -/
def Device.stamp (d : Device) : BitVec 128 := d.stampAt d.lead d.time.ns16

/-- The moment of a DTS in 2^-16 ns. Also R17. -/
def dtsMoment (t : BitVec 128) : Nat :=
  bits t.toNat 64 64 * oneS + bits t.toNat 32 32 * oneNs + bits t.toNat 16 16

/-! ## DIAG counters -/

/-- The word of a die's counter summary at byte offset `off`. -/
def Device.diagWord (d : Device) (die off : Nat) : Nat := d.diag.getD (die * 128 + off / 4) 0

/-- The counter word of a die at a summary offset as a read gives it: zero while the die is off (R149), DIAG_TJ_PEAK without
the model's own mark, DIAG_TAG_c with the tags held now (R366). -/
def Device.diagRead (d : Device) (die off : Nat) : Nat :=
  if !d.pwr.dieOn.getLsbD die then 0
  else if off = 0x0A8 then d.diagWord die off % 65536
  else if 0x100 ≤ off && off < 0x120 then
    d.diagWord die off / 512 * 512 + ((d.clusters.look (die * 8 + (off - 0x100) / 4)).map (·.held)).getD 0 % 512
  else d.diagWord die off

/-- A saturating addition to the field of `width` bits at `lo` of a counter word (R227, R366, R413, R735). -/
def Device.diagAdd (d : Device) (die off lo width n : Nat) : Device :=
  let w := d.diagWord die off
  let f := bits w lo width
  let f' := satAdd (2 ^ width - 1) f n
  { d with diag := d.diag.put (die * 128 + off / 4) (w - f * 2 ^ lo + f' * 2 ^ lo) }

/-- A peak counter: the field keeps its largest value since the last read. -/
def Device.diagPeak (d : Device) (die off lo width v : Nat) : Device :=
  let w := d.diagWord die off
  let f := bits w lo width
  let f' := max f (min v (2 ^ width - 1))
  { d with diag := d.diag.put (die * 128 + off / 4) (w - f * 2 ^ lo + f' * 2 ^ lo) }

/-- A field of a counter word that holds a present value. -/
def Device.diagSet (d : Device) (die off lo width v : Nat) : Device :=
  let w := d.diagWord die off
  let f := bits w lo width
  { d with diag := d.diag.put (die * 128 + off / 4) (w - f * 2 ^ lo + v % 2 ^ width * 2 ^ lo) }

/-- Elapsed time passes for the device; milliseconds in HOLDOVER are counted (R227). -/
def Device.advance (d : Device) (delta : Nat) : Device :=
  let t := d.time.advance delta
  let d' := { d with time := t }
  if d.time.servo = .holdover then
    d'.diagAdd d.lead 0x008 0 32 ((t.now - d.time.holdAt) / oneMs - (d.time.now - d.time.holdAt) / oneMs)
  else d'

/-- The clock carried forward to an elapsed moment, if it stands before it (DESIGN CHOICE, log entry 6).
DESIGN CHOICE: log entry 72. -/
def Device.advanceTo (d : Device) (moment : Nat) : Device :=
  if d.time.now < moment then d.advance (moment - d.time.now) else d

/-- The clock carried forward until device time reaches a moment, if it stands before it. DESIGN CHOICE: log entry 6. -/
def Device.advanceToDev (d : Device) (moment : Nat) : Device :=
  if d.time.ns16 < moment then
    let need := moment * 65536 - d.time.dt
    let d' := d.advance ((need * 131072 + d.time.addend - 1) / d.time.addend)
    d'
  else d

/-! ## IBIs and causes -/

/-- A sorted insertion without repeats. -/
def insertNat (x : Nat) : List Nat → List Nat
  | [] => [x]
  | y :: ys => if x < y then x :: y :: ys else if x = y then y :: ys else y :: insertNat x ys

/-- An IBI cause arises: it pends unless IBIs are disabled (R177). -/
def Device.raiseIbi (d : Device) (byte : Nat) : Device :=
  if d.i3c.ibiOn then { d with evt := { d.evt with ibi := insertNat byte d.evt.ibi } } else d

/-- Bit `b` of EVT_CAUSE is set; a change from 0 to 1 raises its IBI when EVT_IBI_EN allows (R175, R177). -/
def Device.setCause (d : Device) (b : Nat) : Device :=
  if d.evt.cause.getLsbD b then d else
    let d' := { d with evt := { d.evt with cause := d.evt.cause ||| BitVec.twoPow 13 b } }
    if d.evt.ibiEn.getLsbD b then d'.raiseIbi (0x40 + b) else d'

/-- An event record (R704), written by the lead CP once it runs; the ring keeps the newest 1,024. -/
def Device.record (d : Device) (code cause unit p0 p1 : Nat) : Device :=
  if d.boot.fwStarted then
    let r : EventRec := ⟨code, cause, unit, d.evt.evSeq, d.stamp, BitVec.ofNat 32 p0, BitVec.ofNat 32 p1⟩
    { d with evt := { d.evt with
        events := (d.evt.events ++ [r]).drop (d.evt.events.length + 1 - 1024)
        evSeq := (d.evt.evSeq + 1) % 2 ^ 32 } }
  else d

/-- An event: its EVT_CAUSE bit, when it has one, and its record (R704). -/
def Device.event (d : Device) (code cause unit p0 p1 : Nat) : Device :=
  (if cause < 13 then d.setCause cause else d).record code cause unit p0 p1

/-! ## The violation log -/

/-- Word W0 of a violation log entry with REPEAT 1. Also R180. -/
def vlogW0 (iface unit code repeat_ : Nat) : Word :=
  BitVec.ofNat 32 (iface % 16 * 2 ^ 28 + unit % 16 * 2 ^ 24 + code % 256 * 2 ^ 16 + repeat_)

/-- The newest entry of the violation log. -/
def Evt.vlogNewest (e : Evt) : VlogEntry := e.vlog.getD ((e.vlogCount - 1) % 256) VlogEntry.empty

/-- Whether a violation merges into the newest entry: same interface, unit, code and detail, less than 1 ms after
that entry was made (R178). Also R179. -/
def Device.vlogMerges (d : Device) (iface unit code detail : Nat) : Bool :=
  let w := d.evt.vlogNewest
  0 < d.evt.vlogCount && w.w0.toNat / 65536 == (vlogW0 iface unit code 0).toNat / 65536
    && w.w1 == BitVec.ofNat 32 detail && d.time.now - d.evt.vlogAt < oneMs

/-- A violation (R178): counted in EVT_VCNT, merged or entered, EVT_CAUSE.VIOLATION set at every occurrence, an
event record for a new entry only. Also R88. -/
def Device.violation (d : Device) (iface unit code detail : Nat) : Device :=
  let e := { d.evt with vcnt := d.evt.vcnt.upd iface 0 (fun n => min (n + 1) 0xFFFFFFFF) }
  if d.vlogMerges iface unit code detail then
    let w := e.vlogNewest
    let rep := min (w.w0.toNat % 65536 + 1) 0xFFFF
    let w' := { w with w0 := BitVec.ofNat 32 (w.w0.toNat / 65536 * 65536 + rep) }
    ({ d with evt := { e with vlog := e.vlog.put ((e.vlogCount - 1) % 256) w' } }).setCause 12
  else
    let m := d.time.ns16
    let w : VlogEntry := ⟨vlogW0 iface unit code 1, BitVec.ofNat 32 detail, BitVec.ofNat 32 (m / oneS),
      BitVec.ofNat 32 (m % oneS / oneNs)⟩
    (({ d with evt := { e with vlog := e.vlog.put (e.vlogCount % 256) w,
                               vlogCount := (e.vlogCount + 1) % 2 ^ 32, vlogAt := d.time.now } }).setCause 12).record
      0x0041 12 (iface % 16) w.w0.toNat w.w1.toNat

/-! ## The fault log -/

/-- An entry of the fault log (R734), stamped now: job, cause, counted restarts, outcome, source, die, index,
address and detail. The newest is at index (COUNT − 1) mod 64. -/
def Device.faultEntry (d : Device) (job cause restart outcome source die index : Nat) (addr : Option Nat)
    (detail : Nat) : Device :=
  let m := d.time.ns16
  let a := addr.getD 0
  let ws : List Word :=
    [BitVec.ofNat 32 (job * 65536 + cause % 256 * 256 + restart % 16 * 16 + outcome % 16),
     BitVec.ofNat 32 (source % 256 * 2 ^ 24 + die % 8 * 2 ^ 21 + index % 65536),
     BitVec.ofNat 32 a,
     BitVec.ofNat 32 (b2n addr.isSome * 2 ^ 31 + a / 2 ^ 32 % 64),
     BitVec.ofNat 32 detail, BitVec.ofNat 32 (m / oneS), BitVec.ofNat 32 (m % oneS / oneNs)]
  { d with evt := { d.evt with flog := d.evt.flog.put (d.evt.flogCount % 64) ⟨ws⟩,
                               flogCount := (d.evt.flogCount + 1) % 2 ^ 32 } }

/-- A fault outside any job (R736): its log entry with OUTCOME 5 and its counter. -/
def Device.outsideFault (d : Device) (cause source die index : Nat) (addr : Option Nat) (detail : Nat) : Device :=
  (d.faultEntry 0 cause 0 5 source die index addr detail).diagAdd die 0x0FC 16 16 1

/-! ## Handles and the completion ring -/

/-- A fresh handle for a long command of a channel, or none when 256 already count (R165). -/
def Mbx.newHandle (m : Mbx) (ch op : Nat) : Option (Nat × Mbx) :=
  if 256 ≤ m.handles.length then none else
    let h := m.nextHandle
    let n := if h + 1 < 0xFFFFFFFF then h + 1 else 1
    some (h, { m with handles := m.handles.put h ⟨ch, op, none, [], false, false, false⟩, nextHandle := n })

/-- The ring word of a completed handle (R167, R168). -/
def ringWord (wr handle status ch op : Nat) : BitVec 64 :=
  BitVec.ofNat 64 (handle + status * 2 ^ 32 + (b2n (wr < 256) * 128 + ch * 16) * 2 ^ 40 + op * 2 ^ 48)

/-- The stored response of a completed long command takes the final status (R161). -/
def Channel.settle (c : Channel) (h status : Nat) : Channel :=
  { c with store := c.store.map fun e =>
      if e.handle = some h then { e with status := status } else e }

/-- A handle ends with a final status and its result: one completion-ring entry, EVT_CAUSE.RING (R166). A handle
that is unknown or already complete is left alone. -/
def Device.finish (d : Device) (h status : Nat) (result : List Byte) : Device :=
  match d.mbx.handles.look h with
  | none => d
  | some r =>
    if r.final.isSome then d else
      let w := ringWord d.evt.ringWr h status r.ch r.op
      let e := { d.evt with ring := d.evt.ring.put (d.evt.ringWr % 256) w, ringWr := (d.evt.ringWr + 1) % 512 }
      let m := { d.mbx with
        handles := d.mbx.handles.put h { r with final := some status, result := result }
        chans := d.mbx.chans.upd r.ch Channel.reset (·.settle h status) }
      ({ d with evt := e, mbx := m }).setCause 3

/-- `finish` for work that may have no handle (firmware's own). -/
def Device.finishOpt (d : Device) (h : Option Nat) (status : Nat) (result : List Byte) : Device :=
  match h with
  | some h => d.finish h status result
  | none => d

end Sys2Proof.Machine
end

