-- ==== Sys2Proof/Machine/Ops.lean ====
section
/-! DEFINITION. The package: grade and fuses (R77 to R82), die links and routes (R66 to R71), the package
defect view and its repairs (R24, R99 to R106), the defect-map digest (R102), the configuration digest (R812),
domains, and package reset (R85, R96). -/

namespace Sys2Proof.Machine

/-! ## Grade -/

/-- The grade code by majority of its three copies (R77). -/
def Fuses.gradeCode (f : Fuses) : Option Byte :=
  if f.grade0 = f.grade1 || f.grade0 = f.grade2 then some f.grade0
  else if f.grade1 = f.grade2 then some f.grade1 else none

/-- Clock limit in 100 MHz and power limit in W of the grade codes of R78; every other code gives the -18 limits.
Also R2, R3. -/
def gradeLimits (code : Option Byte) : Bool × Nat × Nat :=
  if code = some 0x26 then (true, 26, 110)
  else if code = some 0x22 then (true, 22, 85)
  else if code = some 0x18 then (true, 18, 60)
  else (false, 18, 60)

/-- BOOT_ID_GRADE (R82). The code field of three disagreeing copies is stated nowhere: a free value. -/
def Fuses.gradeWord (f : Fuses) : Word :=
  let (valid, clk, pwr) := gradeLimits f.gradeCode
  BitVec.ofNat 32 (b2n valid * 2 ^ 31 + pwr * 65536 + clk * 256 + (f.gradeCode.getD (Config.freeByte 1 0 0)).toNat)

/-- The grade's clock limit in MHz. -/
def Fuses.clockMHz (f : Fuses) : Nat := (gradeLimits f.gradeCode).2.1 * 100

/-- The grade's power limit in W. -/
def Fuses.powerW (f : Fuses) : Nat := (gradeLimits f.gradeCode).2.2

/-! ## Die links and routes -/

/-- The two dies of link L0 to L9 (R66). -/
def linkEnds (n : Nat) : Nat × Nat :=
  match n with
  | 0 => (0, 1)
  | 1 => (1, 2)
  | 2 => (2, 3)
  | 3 => (3, 4)
  | 4 => (4, 5)
  | 5 => (5, 6)
  | 6 => (6, 7)
  | 7 => (0, 7)
  | 8 => (1, 6)
  | _ => (2, 5)

/-- The site of die `d` that link `n` occupies: N 0, E 1, S 2, W 3 (R66). -/
def linkSite (n d : Nat) : Nat :=
  let (a, _) := linkEnds n
  match n with
  | 0 | 1 | 2 => if d = a then 1 else 3
  | 3 => if d = 3 then 2 else 0
  | 4 | 5 | 6 => if d = a then 3 else 1
  | 7 => if d = 7 then 0 else 2
  | _ => if d = a then 2 else 0

/-- The width of a link whose bad lanes are `lanes`: 0 x16, 1 x8, 2 disabled (R68). -/
def laneState (lanes : BitVec 16) : Nat :=
  let lo := lanes.toNat % 256 ≠ 0
  let hi := lanes.toNat / 256 ≠ 0
  if lo && hi then 2 else if lo || hi then 1 else 0

/-- The state of link `n` as DEFECT_LINK codes it. -/
def linkState (v : DefectView) (dieOn : BitVec 8) (n : Nat) : Nat :=
  let (a, b) := linkEnds n
  if dieOn.getLsbD a && dieOn.getLsbD b then
    max (laneState (v.lanes.getD n 0)) (v.trained.getD n 0)
  else 3

/-- Whether two dies are joined by a link in use. -/
def linked (v : DefectView) (dieOn : BitVec 8) (a b : Nat) : Bool :=
  (List.range 10).any fun n =>
    let (x, y) := linkEnds n
    ((x = a && y = b) || (x = b && y = a)) && linkState v dieOn n < 2

/-- The dies reached from `s` after growing it `k` times along links in use. -/
def reach (v : DefectView) (dieOn : BitVec 8) : Nat → List Nat → List Nat
  | 0, s => s
  | k + 1, s => reach v dieOn k
      ((List.range 8).filter fun b => s.elem b || s.any fun a => linked v dieOn a b)

/-- Whether the powered dies are split into groups with no link between them (R71). -/
def partitioned (v : DefectView) (dieOn : BitVec 8) : Bool :=
  let up := (List.range 8).filter fun d => dieOn.getLsbD d
  match up with
  | [] => false
  | d :: _ =>
    let r := reach v dieOn 8 [d]
    up.any fun x => !(r.elem x)

/-- The disabled links as a bitmap, as PARTITIONED reports them (R97). -/
def disabledLinks (v : DefectView) (dieOn : BitVec 8) : Nat :=
  (List.range 10).foldl (fun m n => m + b2n (linkState v dieOn n == 2) * 2 ^ n) 0

/-- Hops from `a` to `b` over the links in use, by growing reach; 9 when there is no way. -/
def hops (v : DefectView) (dieOn : BitVec 8) (a b : Nat) : Nat :=
  ((List.range 9).find? fun k => (reach v dieOn k [a]).elem b).getD 9

/-- The shortest path with the lowest sequence of die IDs (R70), from `a` towards `b`. -/
def pathGo (v : DefectView) (dieOn : BitVec 8) (b : Nat) : Nat → Nat → List Nat
  | 0, _ => []
  | k + 1, a =>
    if a = b then [a] else
      match (List.range 8).find? fun x => linked v dieOn a x && hops v dieOn x b + 1 == hops v dieOn a b with
      | some x => a :: pathGo v dieOn b k x
      | none => []

/-- Column and row of a die (R65). -/
def dieCol (d : Nat) : Nat := if d < 4 then d else 7 - d

/-- The die at a column of a row (north or south). -/
def dieAt (north : Bool) (col : Nat) : Nat := if north then col else 7 - col

/-- The dies along a row from one column to another, the last column left out. -/
def rowWalk (north : Bool) : Nat → Nat → Nat → List Nat
  | 0, _, _ => []
  | k + 1, c, t => if c = t then [] else
      dieAt north c :: rowWalk north k (if c < t then c + 1 else c - 1) t

/-- The route of flits from die `a` to die `b`: along the row, then across, while everything is up (R69);
otherwise the shortest lowest path (R70). -/
def route (v : DefectView) (dieOn : BitVec 8) (a b : Nat) : List Nat :=
  if dieOn = 0xFF && (List.range 10).all (fun n => linkState v dieOn n < 2) then
    let north := a < 4
    let turn := dieAt north (dieCol b)
    rowWalk north 4 (dieCol a) (dieCol b) ++ (if turn = b then [b] else [turn, b])
  else pathGo v dieOn b 9 a

/-! ## The package defect view -/

/-- The defective units of a cluster. -/
def DefectView.badUnits (v : DefectView) (c : Nat) : BitVec 17 := v.bad.getD c 0

/-- Enabled units of a cluster: the slots that have a good unit (R24, R26). Also R23, R25. -/
def DefectView.slotUnit (v : DefectView) (c l : Nat) : Option Nat :=
  if (v.badUnits c).getLsbD l then
    (if v.spare.getD c 99 = l && !(v.badUnits c).getLsbD 16 then some 16 else none)
  else some l

/-- How many slots of a cluster have a good unit. -/
def DefectView.enabled (v : DefectView) (c : Nat) : Nat := countBelow 16 fun l => (v.slotUnit c l).isSome

/-- The slot a unit stands in, if any. -/
def DefectView.unitSlot (v : DefectView) (c u : Nat) : Option Nat :=
  firstBelow 16 fun l => v.slotUnit c l == some u

/-- Whether a physical unit is marked defective. -/
def DefectView.isBad (v : DefectView) (phys : Nat) : Bool := (v.badUnits (phys / 17)).getLsbD (phys % 17)

/-- A unit is marked defective; the spare takes its slot if it is unused and good (R24). Also R372. -/
def DefectView.mark (v : DefectView) (phys : Nat) (soft : Bool) : DefectView :=
  let c := phys / 17
  let u := phys % 17
  if (v.badUnits c).getLsbD u then v else
    let b := v.badUnits c ||| BitVec.twoPow 17 u
    let v := { v with bad := v.bad.put c b,
                      soft := if soft then v.soft.put c (v.soft.getD c 0 ||| BitVec.twoPow 17 u) else v.soft }
    if u < 16 && (v.spare.look c).isNone && !b.getLsbD 16 then { v with spare := v.spare.put c u } else v

/-- The physical unit whose scratch holds a die bank below 1,088 (R777, code 0). -/
def bankUnit (die bank : Nat) : Nat :=
  let u := bank / 8
  (die * 8 + u / 17) * 17 + u % 17

/-- Fields of a defect word (R105). -/
def recKind (w : Word) : Nat := bits w.toNat 28 4
def recDie (w : Word) : Nat := bits w.toNat 25 3
def recIndex (w : Word) : Nat := bits w.toNat 0 24

/-- Whether a fuse record is valid for the die whose fuses hold it (R100). -/
def recordValid (die : Nat) (w : Word) : Bool :=
  let i := recIndex w
  recDie w == die &&
    match recKind w with
    | 1 => 136 * die ≤ i && i ≤ 136 * die + 135
    | 2 => i / 4096 ≤ 3839 && i % 4096 ≤ 257
    | 3 => i / 16 % 16 ≤ 9 && ((linkEnds (i / 16 % 16)).1 == die || (linkEnds (i / 16 % 16)).2 == die)
    | 4 => Config.routerLane (i / 256 % 256) (i % 256)
    | _ => false

/-- Rows of a bank that records name, the spare rows 256 and 257 apart. -/
def DefectView.bankRows (v : DefectView) (die bank : Nat) (spares : Bool) : Nat :=
  (v.rows.filter fun (d, b, r) => d == die && b == bank && (decide (256 ≤ r) == spares)).length

/-- A repair that cannot be made (R97): failure code, DETAIL and BOOT_FAIL_EXT. -/
structure RepairFail where
  code : Nat
  detail : Nat
  ext : Word
  deriving DecidableEq, Repr

/-- The word of a defect in the layout of BOOT_FAIL_EXT, source bit zero (R90). -/
def defectWord (kind die source index : Nat) : Word :=
  BitVec.ofNat 32 (kind * 2 ^ 28 + die * 2 ^ 25 + source * 2 ^ 24 + index % 2 ^ 24)

/-- A unit marked at bring-up: DEFECT_EXCESS when its cluster then has two defective units (R99, kind 1). -/
def repairUnit (v : DefectView) (phys : Nat) (soft : Bool) : DefectView × Option RepairFail :=
  let v' := v.mark phys soft
  let bad := countBelow 17 fun u => (v'.badUnits (phys / 17)).getLsbD u
  (v', if 2 ≤ bad then some ⟨0x03, 0x1000 + phys, defectWord 1 (phys / 136) 0 phys⟩ else none)

/-- The repair of one defect, by kind (R99). -/
def repair (v : DefectView) (dieOn : BitVec 8) (w : Word) (soft : Bool) : DefectView × Option RepairFail :=
  let d := recDie w
  let i := recIndex w
  match recKind w with
  | 1 => repairUnit v i soft
  | 2 =>
    let bank := i / 4096
    let v' := { v with rows := v.rows.filter (· != (d, bank, i % 4096)) ++ [(d, bank, i % 4096)] }
    if v'.bankRows d bank false ≤ 2 - v'.bankRows d bank true then (v', none)
    else if bank < 1088 then repairUnit v' (bankUnit d bank) soft
    else (v', some ⟨0x03, 0x2000 + d * 512, defectWord 2 d 0 i⟩)
  | 3 =>
    let n := i / 16 % 16
    let v' := { v with lanes := v.lanes.upd n 0 (· ||| BitVec.twoPow 16 (i % 16)) }
    (v', if linkState v' dieOn n = 2 && partitioned v' dieOn then
           some ⟨0x04, disabledLinks v' dieOn, 0⟩ else none)
  | _ =>
    let p := i / 256 % 256
    let v' := { v with net := (d, p, i % 256) :: v.net.filter (· != (d, p, i % 256)) }
    (v', if 2 ≤ (v'.net.filter fun (x, y, _) => x == d && y == p).length then
           some ⟨0x03, 0x4000 + d * 512, defectWord 4 d 0 i⟩ else none)

/-- Whether the view already holds a defect (R104: what a fused record covers is not found again). -/
def DefectView.covers (v : DefectView) (w : Word) : Bool :=
  let d := recDie w
  let i := recIndex w
  match recKind w with
  | 1 => v.isBad i
  | 2 => v.rows.any fun (x, b, r) => x == d && b == i / 4096 && r == i % 4096
  | 3 => (v.lanes.getD (i / 16 % 16) 0).getLsbD (i % 16)
  | _ => v.net.any fun (x, p, l) => x == d && p == i / 256 % 256 && l == i % 256

/-- The soft defect list with one more entry and its origin (R105, R106); full, it is left as it is. -/
def Boot.softAdd (b : Boot) (w : Word) (origin : Nat) : Boot :=
  if b.soft.length < 256 then { b with soft := b.soft ++ [⟨w, origin⟩] } else b

/-- DEFECT_CLUSTER_n. -/
def Device.defectCluster (d : Device) (n : Nat) : Word :=
  if d.boot.lastDone < 2 then 0 else
    BitVec.ofNat 32 (d.view.enabled n * 2 ^ 27 + b2n (d.view.soft.getD n 0 != 0) * 2 ^ 24
      + (d.view.badUnits n).toNat)

/-- Every fused record of a die, field repairs after the others. DEDUCED: log entry 59. -/
def Fuses.records (f : Fuses) (die : Nat) : List FuseRecord :=
  ((f.defects.getD die []) ++ (f.repairs.getD die [])).filter (·.valid)

/-- The defect-map digest (R102): SHA-384 over the fused records, the soft defect list and DEFECT_CLUSTER_0 to 63.
The spec names what it covers and no byte layout: the words in that order, little-endian (DESIGN CHOICE, log entry 12). -/
def Device.defectDigest (d : Device) : List Byte :=
  let fused := (List.range 8).flatMap fun k => (d.fuse.records k).map (·.word)
  let ws := fused ++ d.boot.soft.map (·.word) ++ (List.range 64).map d.defectCluster
  sha384 (ws.flatMap fun w => leBytes 4 w.toNat)

/-- The package defect view changes after READY: digest, EVT_CAUSE.DEFECT and event 0x0040 (R102, R704). -/
def Device.defectEvent (d : Device) (die p0 kind : Nat) : Device :=
  if d.boot.ready then
    ({ d with sec := { d.sec with defectDigest := d.defectDigest } }).event 0x0040 11 die p0 kind
  else d

/-- The configuration digest takes one command (R812). -/
def Device.extendConfig (d : Device) (op : Nat) (payload : List Byte) : Device :=
  { d with sec := { d.sec with
      cfgDigest := sha384 (d.sec.cfgDigest ++ leBytes 2 op ++ leBytes 2 payload.length ++ payload) } }

/-! ## Domains and package reset -/

/-- Whether a switched domain of a die is on (codes of R738; 12 is die-common). Also R30, R31, R34, R35. -/
def Device.domainOn (d : Device) (die dom : Nat) : Bool :=
  if dom = 12 then d.pwr.dieOn.getLsbD die
  else d.pwr.dieOn.getLsbD die && (d.pwr.domains.getD die 0).getLsbD dom

/-- Whether an engine of a die can be planned with: its domain is on, its CP serves, and no self-test withdrew it (R44,
R448, R736, R787). Codes of KAT_ENGINE: 0 STE, 1 FTE, 2 SLV, 3 PRS, 4 directory slice. -/
def Device.engineUp (d : Device) (die code : Nat) : Bool :=
  d.domainOn die (if code < 2 then 8 else if code = 2 then 9 else 10) && !d.pwr.withdrawn.getLsbD die
    && !d.pwr.engines.elem (die, code)

/-- The slice a self-test run is at. -/
def StRun.current (r : StRun) : Option StSlice := r.slices[r.results.length]?

/-- The engines a slice target covers (R777, R783), as engine codes. -/
def stEngines (kind target : Nat) : List Nat :=
  if kind = 0 then (if target = 3 then [0, 1] else if target = 4 then [2] else if target = 5 then [3, 4] else [])
  else if target = 0 then [] else [target - 1]

/-- Whether a self-test slice holds an engine: it starts no operation meanwhile (R775). -/
def Device.engineTested (d : Device) (die code : Nat) : Bool :=
  d.st.runs.any fun e => e.2.testing && match e.2.current with
    | some x => x.die == die && (stEngines e.2.kind x.target).elem code
    | none => false

/-- Whether a self-test slice holds a region's cache slice: its requests wait and its scrub pauses (R786). -/
def Device.mscTested (d : Device) (c : Nat) : Bool :=
  d.st.runs.any fun e => e.2.testing && e.2.kind == 0 && match e.2.current with
    | some x => x.target == 2 && x.index == c
    | none => false

/-- Whether a die takes part in TICK and LOOP jobs (R736). -/
def Device.tickDie (d : Device) (die : Nat) : Bool := !(d.pwr.withdrawn ||| d.pwr.tickWithdrawn).getLsbD die

/-- A domain of a die switched on or off. -/
def Device.setDomain (d : Device) (die dom : Nat) (on : Bool) : Device :=
  { d with pwr := { d.pwr with domains := d.pwr.domains.upd die 0 fun m =>
      if on then m ||| BitVec.twoPow 12 dom else m &&& ~~~ BitVec.twoPow 12 dom } }

/-- The device after a package reset: everything as power-on reset leaves it, fuses and board level kept, the
power limit and caps at the fused grade's (R85, R96, R762, R763), and the last internal calibrations (R310). -/
def Device.packageReset (d : Device) : Device :=
  { Device.reset with
    fuse := d.fuse
    free := d.free
    sfe := { Sfe.reset with lastCal := d.sfe.lastCal }
    pkg := { Device.reset.pkg with ballLow := d.pkg.ballLow, targetUp := !d.pkg.ballLow, supplies := d.pkg.supplies }
    pwr := { Power.reset with
      limit := d.fuse.powerW, cTick := d.fuse.clockMHz, cOther := d.fuse.clockMHz } }

/-- The memories after a package reset: LPDDR6, landings and scratch are lost, the flash is kept. -/
def Store.packageReset (m : Store) : Store := { m with lp := [], sram := [] }

/-- Package reset of the whole state; the queue is the sender's and stays. -/
def State.packageReset (s : State) : State :=
  { s with dev := s.dev.packageReset, mem := s.mem.packageReset }

/-- Whether the target takes private transfers: in SDR, and in HDR-DDR at a dynamic address (R836). -/
def Device.takesPrivate (d : Device) : Bool :=
  d.pkg.targetUp && (decide (d.i3c.hdr = .sdr) || (decide (d.i3c.hdr = .ddr) && d.i3c.dyn.isSome))

/-- A register write leaves the read pointer one word past it (R144). -/
def Device.wrote (d : Device) (next : Nat) : Device :=
  { d with i3c := { d.i3c with readPtr := BitVec.ofNat 32 next } }

/-- The answer of a command that acts on the device alone. -/
def onDev (f : Device → Device) (s : State) : Host.Outcome State Fault Refusal :=
  .next { s with dev := f s.dev }

/-- The answer of a command that acts on the device and the memories. -/
def onBoth (f : Device → Store → Device × Store) (s : State) : Host.Outcome State Fault Refusal :=
  let r := f s.dev s.mem
  .next { s with dev := r.1, mem := r.2 }

end Sys2Proof.Machine
end

