-- ==== Sys2Proof/Machine/Boot.lean ====
section
/-! DEFINITION. The boot sequencer (Bring-up from power to READY): the steps of R92 as writes of BOOT_STEP, the
training items, the firmware window, the time limits. A step's work happens when it is accepted and leaves its
result; BOOT_STEP_END publishes it (log entry 8). -/

namespace Sys2Proof.Machine

/-- What the physical world contributes to a step: sweep finds, clock outcome, dies whose CP reported, failing
known-answer slices. -/
structure BootInput where
  finds : List Word
  clocks : ClockOutcome
  reported : BitVec 8
  engines : List (Nat × Nat)
  units : List Nat
  deriving DecidableEq, Repr

/-- A step in which nothing fails. DESIGN CHOICE: log entry 8. -/
def BootInput.clean : BootInput := ⟨[], .ok, 0xFF, [], []⟩

/-- Whether a write of `code` to BOOT_STEP is permitted (R92, R93, R95). -/
def Boot.permits (b : Boot) (code : Nat) : Bool :=
  let after (l : Nat) : Bool := decide (b.state = .done) && b.lastDone == l
  let retry (c : Nat) : Bool := decide (b.state = .failed) && b.step == c
  !b.ready &&
    match code with
    | 1 => decide (b.state = .idle) && b.step == 0
    | 2 => after 1
    | 3 => after 2
    | 4 => after 2 || after 3
    | 5 => after 4 || retry 5
    | 6 => after 5 || retry 6 || retry 7
    | 7 => after 6
    | 8 => after 7
    | 9 => after 8
    | 10 => after 9
    | _ => false

/-- A refused BOOT_STEP write (R93): REFUSED and a violation, nothing else. -/
def Device.bootRefuse (d : Device) (code : Nat) : Device :=
  ({ d with boot := { d.boot with refused := true } }).violation 2 0 0x01 code

/-- An accepted BOOT_STEP write (R90, R91, R94). -/
def Boot.accept (b : Boot) (code now : Nat) : Boot :=
  { b with state := .busy, step := code, fail := 0, failExt := 0, result := none, startedAt := now,
           used := code :: b.used }

/-- The step's result is settled; BOOT_STEP_END or the limit publishes it. -/
def Device.bootResult (d : Device) (r : StepResult) : Device := { d with boot := { d.boot with result := some r } }

/-- The result of a repair failure. -/
def RepairFail.result (f : RepairFail) : StepResult := .failed f.code f.detail f.ext

/-! ## The work of the steps -/

/-- IDENT (R98). -/
def bootIdent (d : Device) : Device :=
  d.bootResult (if (gradeLimits d.fuse.gradeCode).1 then .done else .failed 0x01 0 0)

/-- Repairs applied in order until one cannot be made. -/
def repairAll (dieOn : BitVec 8) (soft : Bool) : List Word → DefectView → DefectView × Option RepairFail
  | [], v => (v, none)
  | w :: ws, v =>
    match repair v dieOn w soft with
    | (v', none) => repairAll dieOn soft ws v'
    | (v', some f) => (v', some f)

/-- Whether a die's fuses hold a record that cannot be used (R100). -/
def fuseUnreadable (f : Fuses) (die : Nat) : Bool :=
  (f.records die).any fun r => decide (r.ecc = .bad) || !recordValid die r.word

/-- FUSE_LOAD (R99 to R101): read every die's records, then repair in order. DEDUCED: log entry 59. -/
def bootFuseLoad (d : Device) : Device :=
  match firstBelow 8 (fuseUnreadable d.fuse) with
  | some k => d.bootResult (.failed 0x02 k 0)
  | none =>
    let rs := (List.range 8).flatMap d.fuse.records
    let (v, f) := repairAll d.pwr.dieOn false (rs.map (·.word)) d.view
    let b := { d.boot with fuseCorrected := (rs.filter fun r => decide (r.ecc = .corrected)).length }
    ({ d with view := v, boot := b }).bootResult (match f with | none => .done | some x => x.result)

/-- SWEEP (R103, R104): each find that nothing covers is listed and repaired in the order found. -/
def sweepFinds : List Word → Device → Device
  | [], d => d.bootResult .done
  | w :: ws, d =>
    let w := w &&& 0xFEFFFFFF
    if d.view.covers w then sweepFinds ws d
    else if 256 ≤ d.boot.soft.length then
      ({ d with boot := { d.boot with softOverflow := true } }).bootResult (.failed 0x05 0 0)
    else
      let (v, f) := repair d.view d.pwr.dieOn w true
      let d' := { d with view := v, boot := d.boot.softAdd w 0 }
      match f with
      | none => sweepFinds ws d'
      | some x => d'.bootResult x.result

/-- The domains that are on when the switching of R107 has gone on up to domain `dom` of die `die`. -/
def domainsUpTo (die dom : Nat) : Tbl (BitVec 12) :=
  (List.range 8).map fun k =>
    (k, if k < die then 0xFFF#12 else if k = die then BitVec.ofNat 12 (2 ^ dom - 1) else 0#12)

/-- CLOCKS (R107, R108). -/
def bootClocks (o : ClockOutcome) (d : Device) : Device :=
  match o with
  | .ok => ({ d with pwr := { d.pwr with domains := domainsUpTo 8 0 }, boot := { d.boot with pll := true } }).bootResult .done
  | .pllLock die island => d.bootResult (.failed 0x10 (die % 8 * 256 + island % 16) 0)
  | .powerGood die dom =>
    ({ d with pwr := { d.pwr with domains := domainsUpTo die dom }, boot := { d.boot with pll := true } }).bootResult
      (.failed 0x11 (die % 8 * 256 + dom % 16) 0)

/-- The item status before training (R112): a link that fuses or the sweep disabled is DISABLED. -/
def trainStart (d : Device) (i : Nat) : Nat :=
  let old := d.boot.train.getD i 0
  if old = 2 || old = 3 then old
  else if 16 ≤ i && i < 26 && laneState (d.view.lanes.getD (i - 16) 0) == 2 then 6 else 1

/-- The result of TRAIN once every item has ended (R113). -/
def trainResult (d : Device) : StepResult :=
  let st := fun i => d.boot.train.getD i 0
  let failed := (List.range 16).foldl (fun m c => m + b2n (st c == 5) * 2 ^ c) 0
  let d0 := d.boot.density.getD 0 0
  let odd := (List.range 16).foldl (fun m c => m + b2n (d.boot.density.getD c 0 != d0) * 2 ^ c) 0
  if failed ≠ 0 then .failed 0x20 failed 0
  else if odd ≠ 0 then .failed 0x21 odd 0
  else if partitioned d.view d.pwr.dieOn then .failed 0x04 (disabledLinks d.view d.pwr.dieOn) 0
  else .done

/-- The end of TRAIN, when no item is running: capacity and rate (R113, R379). -/
def trainClose (d : Device) : Device :=
  if (List.range 48).any fun i => d.boot.train.getD i 0 == 1 then d else
    let r := trainResult d
    let b := if r = .done then
        { d.boot with memCap := 16 * d.boot.density.getD 0 0, memRate := d.boot.lpRate } else d.boot
    ({ d with boot := b }).bootResult r

/-- TRAIN (R110, R114). -/
def bootTrain (d : Device) : Device :=
  let tr : Tbl Nat := (List.range 48).map fun i => (i, trainStart d i)
  trainClose { d with boot := { d.boot with train := tr } }

/-- The densities of R378, in GiB. -/
def densities : List Nat := [2, 4, 6, 8, 12, 16]

/-- Physical address of the firmware area (R389). -/
def Device.fwBase (d : Device) : Nat := 2 * d.lead * 2 ^ 34

/-- The loader's check of the first 12 bytes (R116, R117): a failure code, or the image length. -/
def headerCheck (h : List Byte) : Except Nat Nat :=
  let hdrLen := leNat ((h.drop 6).take 2)
  let imgLen := leNat ((h.drop 8).take 4)
  if h.take 4 ≠ [0x4B#8, 0x52#8, 0x46#8, 0x57#8] || leNat ((h.drop 4).take 2) ≠ 1
      || hdrLen = 0 || 4096 < hdrLen || hdrLen % 64 ≠ 0 then .error 0x31
  else if imgLen < hdrLen || 33554432 < imgLen || imgLen % 4 ≠ 0 then .error 0x32
  else .ok imgLen

/-- FW_LOAD (R116 to R122): from flash at once, or WAIT_DATA for the I3C window. -/
def bootFwLoad (d : Device) (m : Store) : Device × Store :=
  let d := { d with boot := { d.boot with fwPtr := 0, fwLen := 0 } }
  if d.boot.fwSrc = 1 then
    ({ d with boot := { d.boot with state := .waitData, lastAccept := d.time.now } }, m)
  else
    match m.flashSize with
    | none => (d.bootResult (.failed 0x30 0 0), m)
    | some _ =>
      let base := d.boot.fwOfs * 65536
      match headerCheck (m.flash.readAll 0xFF#8 base 12) with
      | .error c => (d.bootResult (.failed c 0 0), m)
      | .ok len =>
        (({ d with boot := { d.boot with fwPtr := len, fwLen := len } }).bootResult .done,
         { m with lp := Cells.writeAll 0#8 m.lp d.fwBase (m.flash.readAll 0xFF#8 base len) })

/-- The rollback count (R803). -/
def Fuses.rollbackCount (f : Fuses) : Nat := countBelow 64 fun i => majority3 (f.rollback.getD i 0)

/-- A key slot as fused (R802). -/
def Fuses.slot (f : Fuses) (k : Nat) : KeySlot := f.slots.getD k KeySlot.reset

/-- Whether a key slot is revoked (R803). -/
def Fuses.revoked (f : Fuses) (k : Nat) : Bool := majority3 (f.slot k).revoked

/-- A field of an image, from its bytes. -/
def imgField (img : List Byte) (off n : Nat) : Nat := leNat ((img.drop off).take n)

/-- Bytes of an image. -/
def imgBytes (img : List Byte) (off n : Nat) : List Byte := (img.drop off).take n

/-- The layout rules of R799 and R801. -/
def imageLayoutOk (img : List Byte) : Bool :=
  let hdr := imgField img 6 2
  let body := imgField img 16 4
  let inBody (off len : Nat) : Bool := hdr ≤ off && off + len ≤ hdr + body
  imgField img 8 4 == hdr + body + 16608 && 512 ≤ hdr && imgField img 12 1 ≤ 64 && imgField img 13 1 ≤ 3
    && beNat (imgBytes img 24 4) == 65537
    && (imgBytes img 14 2 ++ imgBytes img 28 4 ++ imgBytes img 480 (hdr - 480)).all (· == 0#8)
    && inBody (imgField img 464 4) (imgField img 468 4) && inBody (imgField img 472 4) (imgField img 476 4)

/-- Both signatures of a signed part by R800: RSA and SLH-DSA outcomes. DESIGN CHOICE: log entry 14. -/
def verifyPair (rsaN slhPk signed rsaSig slhSig : List Byte) : Bool × Bool :=
  let h := sha384 signed
  (pssVerify rsaN h rsaSig, Config.slhVerify slhPk h slhSig)

/-- Failure code and DETAIL of FW_VERIFY on an image (R123, R801, R802), none when it verifies. -/
def verifyImage (f : Fuses) (img : List Byte) : Option (Nat × Nat) :=
  if !imageLayoutOk img then some (0x40, 3) else
    let n := imgField img 6 2 + imgField img 16 4
    let rsaN := imgBytes img 32 384
    let slhPk := imgBytes img 416 48
    let (r, h) := verifyPair rsaN slhPk (img.take n) (imgBytes img n 384) (imgBytes img (n + 384) 16224)
    let k := imgField img 13 1
    let slot := f.slot k
    let dead := !slot.programmed || f.revoked k
    let rk := dead || sha384 (rsaN ++ imgBytes img 24 4) != slot.rsaDigest
    let hk := dead || sha384 slhPk != slot.slhDigest
    if !r || !h then some (0x40, b2n (!r) + 2 * b2n (!h))
    else if rk || hk then some (0x41, b2n rk + 2 * b2n hk)
    else if imgField img 12 1 < f.rollbackCount then some (0x42, imgField img 12 1)
    else none

/-- FW_VERIFY (R123, R124, R807). -/
def bootFwVerify (d : Device) (m : Store) : Device :=
  let img := m.lp.readAll 0#8 d.fwBase d.boot.fwLen
  match verifyImage d.fuse img with
  | some (c, x) => d.bootResult (.failed c x 0)
  | none =>
    let n := imgField img 6 2 + imgField img 16 4
    ({ d with sec := { d.sec with
        verified := true, slot := imgField img 13 1, secVer := imgField img 12 1, imgVer := imgField img 20 4,
        fwDigest := sha384 (img.take n), rsaN := imgBytes img 32 384, slhPk := imgBytes img 416 48,
        bistOff := imgField img 472 4 } }).bootResult .done

/-- FW_START (R125): the followers that did not report fail it. -/
def bootFwStart (reported : BitVec 8) (d : Device) : Device :=
  let up := reported ||| BitVec.twoPow 8 d.lead
  let missing := d.pwr.dieOn &&& ~~~ up
  ({ d with boot := { d.boot with cpRunning := up &&& d.pwr.dieOn } }).bootResult
    (if missing = 0 then .done else .failed 0x50 missing.toNat 0)

/-- KAT marks one failing unit (R129). -/
def katMark (d : Device) (phys : Nat) : Device :=
  let w := defectWord 1 (phys / 136) 1 phys
  let full := 256 ≤ d.boot.soft.length
  let b := { d.boot.softAdd w 1 with softOverflow := d.boot.softOverflow || full }
  { d with view := d.view.mark phys true, boot := b }

/-- Whether a failing unit could not be spared: the slot it served has no good unit now (R129). -/
def katUnspared (before after : DefectView) (phys : Nat) : Bool :=
  match before.unitSlot (phys / 17) (phys % 17) with
  | none => false
  | some l => (after.slotUnit (phys / 17) l).isNone

/-- KAT (R127 to R129). DEDUCED: log entry 9. -/
def bootKat (engines : List (Nat × Nat)) (units : List Nat) (d : Device) : Device :=
  let bad := (List.range 1088).filter fun u => units.elem u && !d.view.isBad u
  let d' := bad.foldl katMark d
  let overflow := 256 < d.boot.soft.length + bad.length
  d'.bootResult <|
    match engines.head?, bad.find? (katUnspared d.view d'.view) with
    | some (die, e), _ => .failed 0x60 (die % 8 * 256 + e % 16) 0
    | none, f =>
      if overflow then .failed 0x05 0 0 else
        match f with
        | some u => .failed 0x03 (0x1000 + u) (defectWord 1 (u / 136) 0 u)
        | none => .done

/-- READY fixes the defect-map digest (R130); the rest follows when the step completes. -/
def bootReady (d : Device) : Device :=
  ({ d with sec := { d.sec with defectDigest := d.defectDigest } }).bootResult .done

/-- A write of a step code to BOOT_STEP: refused, or accepted and its work done (R92 to R94). DESIGN CHOICE: log entry 8. -/
def bootStep (code : Nat) (i : BootInput) (d : Device) (m : Store) : Device × Store :=
  if d.pkg.shutdown || !d.boot.permits code then (d.bootRefuse code, m) else
    let d := { d with boot := d.boot.accept code d.time.now }
    match code with
    | 1 => (bootIdent d, m)
    | 2 => (bootFuseLoad d, m)
    | 3 => (sweepFinds i.finds d, m)
    | 4 => (bootClocks i.clocks d, m)
    | 5 => (bootTrain d, m)
    | 6 => bootFwLoad d m
    | 7 => (bootFwVerify d m, m)
    | 8 => (bootFwStart i.reported d, m)
    | 9 => (bootKat i.engines i.units d, m)
    | _ => (bootReady d, m)

/-- One boot step command. -/
def bootCmd (code : Nat) (i : BootInput) (s : State) : Host.Outcome State Fault Refusal :=
  onBoth (fun d m =>
    if d.takesPrivate then
      let x := bootStep code i d m
      (x.1.wrote 4, x.2)
    else (d, m)) s

/-- IDENT, BOOT_STEP 0x01 (R98). -/
def execIdent (s : State) : Host.Outcome State Fault Refusal := bootCmd 1 .clean s

/-- FUSE_LOAD, BOOT_STEP 0x02 (R99). -/
def execFuseLoad (s : State) : Host.Outcome State Fault Refusal := bootCmd 2 .clean s

/-- SWEEP, BOOT_STEP 0x03 (R103), with what the sweep finds, in the order found. -/
def execSweep (finds : List Word) (s : State) : Host.Outcome State Fault Refusal :=
  bootCmd 3 { BootInput.clean with finds := finds } s

/-- CLOCKS, BOOT_STEP 0x04 (R107). -/
def execClocks (outcome : ClockOutcome) (s : State) : Host.Outcome State Fault Refusal :=
  bootCmd 4 { BootInput.clean with clocks := outcome } s

/-- TRAIN, BOOT_STEP 0x05 (R110). -/
def execTrain (s : State) : Host.Outcome State Fault Refusal := bootCmd 5 .clean s

/-- FW_LOAD, BOOT_STEP 0x06 (R116). -/
def execFwLoad (s : State) : Host.Outcome State Fault Refusal := bootCmd 6 .clean s

/-- FW_VERIFY, BOOT_STEP 0x07 (R123). -/
def execFwVerify (s : State) : Host.Outcome State Fault Refusal := bootCmd 7 .clean s

/-- FW_START, BOOT_STEP 0x08 (R125), with the dies whose CP reports within the limit. -/
def execFwStart (reported : BitVec 8) (s : State) : Host.Outcome State Fault Refusal :=
  bootCmd 8 { BootInput.clean with reported := reported } s

/-- KAT, BOOT_STEP 0x09 (R127), with the engines and units whose signatures disagree. -/
def execKat (engines : List (Nat × Nat)) (units : List Nat) (s : State) : Host.Outcome State Fault Refusal :=
  bootCmd 9 { BootInput.clean with engines := engines, units := units } s

/-- READY, BOOT_STEP 0x0A (R130). -/
def execReady (s : State) : Host.Outcome State Fault Refusal := bootCmd 10 .clean s

/-- The item status codes an item may end with (R112, R113). -/
def trainStatusOk (item status : Nat) : Bool :=
  if item < 16 then status == 2 || status == 5
  else if item < 26 then status == 2 || status == 3 || status == 5 || status == 6
  else if item < 44 then status == 2 || status == 5
  else status == 2 || status == 4 || status == 5

/-- One training item ends (R111 to R114): LPDDR6 channels are zero-filled when they pass (R384), a channel of a
density not listed fails (R379), a link takes its trained width (R68). -/
def trainItem (item status density : Nat) (d : Device) (m : Store) : Device × Store :=
  if d.boot.state = .busy && d.boot.step = 5 && d.boot.train.getD item 0 = 1 && trainStatusOk item status then
    let st := if item < 16 && status = 2 && !densities.elem density then 5 else status
    let b := { d.boot with train := d.boot.train.put item st,
                           density := if item < 16 && st = 2 then d.boot.density.put item density else d.boot.density }
    let v := if 16 ≤ item && item < 26 then
        { d.view with trained := d.view.trained.put (item - 16) (if st = 2 then 0 else if st = 3 then 1 else 2) }
      else d.view
    let fill := item < 16 && st = 2
    let ms' := if fill then
        { d.memsys with bad := d.memsys.bad.filter (fun a => a / 2 ^ 28 != item) } else d.memsys
    let m' := if fill then { m with lp := m.lp.clear (item * 2 ^ 34) (2 ^ 34) } else m
    (trainClose { d with boot := b, view := v, memsys := ms' }, m')
  else (d, m)

/-- TRAIN_ITEM_END (R112), with the density a channel reports in GiB. -/
def execTrainItemEnd (item : Fin 48) (status density : Nat) (s : State) : Host.Outcome State Fault Refusal :=
  onBoth (trainItem item.val status density) s

/-- A failed step is published (R89, R94). DEDUCED: log entry 9. -/
def Device.bootFail (d : Device) (code detail : Nat) (ext : Word) : Device :=
  let b := { d.boot with
    state := .failed, result := none,
    fail := BitVec.ofNat 32 (code * 2 ^ 24 + d.boot.step * 65536 + detail % 65536), failExt := ext }
  let d' := { d with boot := b }
  if b.ibiEn && d.i3c.dyn.isSome then d'.raiseIbi (0x10 + b.step) else d'

/-- The limit of a step in ms (R92); FW_LOAD over I3C has none (R121). -/
def stepLimit (step : Nat) : Nat :=
  match step with
  | 1 => 10
  | 2 => 50
  | 3 => 1000
  | 4 => 50
  | 5 => 1000
  | 6 => 2000
  | 7 => 200
  | 8 => 1000
  | 9 => 1000
  | _ => 200

/-- STEP_TIMEOUT (R92): a busy step reaches its limit; FW_START names the CPs that did not report (R125). -/
def execStepTimeout (s : State) : Host.Outcome State Fault Refusal :=
  onDev (fun d =>
    if d.boot.state = .busy && !(d.boot.step = 6 && d.boot.fwSrc = 1) then
      let d := d.advanceTo (d.boot.startedAt + stepLimit d.boot.step * oneMs)
      let missing := (d.pwr.dieOn &&& ~~~ d.boot.cpRunning).toNat
      if d.boot.step = 8 && missing ≠ 0 then d.bootFail 0x50 missing 0
      else d.bootFail 0xF0 0 0
    else d) s

/-- LOAD_IDLE (R121): 10 s without an accepted window write. -/
def execLoadIdle (s : State) : Host.Outcome State Fault Refusal :=
  onDev (fun d =>
    if d.boot.state = .waitData then
      (d.advanceTo (d.boot.lastAccept + 10 * oneS)).bootFail 0x33 0 0
    else d) s

/-- The firmware window takes a write (R119 to R121): in order, within the image, while STATE is WAIT_DATA. -/
def fwWindow (offset : Nat) (words : List Word) (d : Device) (m : Store) : Device × Store :=
  let bytes := words.flatMap fun w => leBytes 4 w.toNat
  let endOff := offset + bytes.length
  let base := d.fwBase
  let refuse : Device × Store := (d.violation 2 0 0x03 offset, m)
  if d.boot.state ≠ .waitData || offset ≠ d.boot.fwPtr || bytes.isEmpty then refuse
  else if d.boot.fwLen ≠ 0 && d.boot.fwLen < endOff then refuse
  else
    let m' := { m with lp := Cells.writeAll 0#8 m.lp (base + offset) bytes }
    let d' := { d with boot := { d.boot with fwPtr := endOff, lastAccept := d.time.now } }
    if d.boot.fwLen ≠ 0 then
      if endOff = d.boot.fwLen then
        (({ d' with boot := { d'.boot with state := .busy } }).bootResult .done, m') else (d', m')
    else if endOff < 12 then (d', m')
    else
      match headerCheck (m'.lp.readAll 0#8 base 12) with
      | .error c => (({ d' with boot := { d'.boot with state := .busy } }).bootResult (.failed c 0 0), m')
      | .ok len =>
        if len < endOff then refuse
        else if len = endOff then
          (({ d' with boot := { d'.boot with fwLen := len, state := .busy } }).bootResult .done, m')
        else ({ d' with boot := { d'.boot with fwLen := len } }, m')

/-- A write of BOOT_RESET (R90 table, R181): the key resets the package, any other value is logged. -/
def bootReset (key : Word) (d : Device) (m : Store) : Device × Store :=
  if key = 0x0860DEAD then (d.packageReset, m.packageReset) else ((d.violation 2 0 0x04 0).wrote 0x2C, m)

/-- BOOT_RESET. -/
def execBootReset (key : Word) (s : State) : Host.Outcome State Fault Refusal :=
  onBoth (fun d m => if d.takesPrivate then bootReset key d m else (d, m)) s

end Sys2Proof.Machine
end

