-- ==== Sys2Proof/Machine/Formats.lean ====
section
/-! DEFINITION. The number formats of the units (R329 to R338): exact dyadic values, decoding of every format,
single roundings half to even, the MX block scale, the integer epilogue (R339). -/

namespace Sys2Proof.Machine

/-- An exact value: sign, magnitude × 2^exponent; or an infinity, or NaN. -/
inductive Num where
  | fin (neg : Bool) (mag : Nat) (exp : Int)
  | inf (neg : Bool)
  | nan
  deriving DecidableEq, Repr

/-- The integer as an exact value. -/
def Num.ofInt (i : Int) : Num := .fin (decide (i < 0)) i.natAbs 0

/-- The signed magnitude of a finite value at a common exponent at or below its own. -/
def scaleTo (neg : Bool) (mag : Nat) (exp e : Int) : Int :=
  let v : Int := (mag * 2 ^ (exp - e).toNat : Nat)
  if neg then -v else v

/-- The exact sum of two values (R334 to R336). -/
def Num.add : Num → Num → Num
  | .nan, _ => .nan
  | _, .nan => .nan
  | .inf a, .inf b => if a = b then .inf a else .nan
  | .inf a, _ => .inf a
  | _, .inf b => .inf b
  | .fin a m e, .fin b n f =>
    let g := min e f
    let v := scaleTo a m e g + scaleTo b n f g
    if v = 0 then .fin (a && b) 0 0 else .fin (decide (v < 0)) v.natAbs g

/-- The exact product (R334 to R336). -/
def Num.mul : Num → Num → Num
  | .nan, _ => .nan
  | _, .nan => .nan
  | .inf a, .inf b => .inf (a != b)
  | .inf a, .fin b n _ => if n = 0 then .nan else .inf (a != b)
  | .fin a m _, .inf b => if m = 0 then .nan else .inf (a != b)
  | .fin a m e, .fin b n f => .fin (a != b) (m * n) (e + f)

/-- The value times a power of two. -/
def Num.scale (x : Num) (k : Int) : Num :=
  match x with
  | .fin s m e => .fin s m (e + k)
  | y => y

/-- The negated value. -/
def Num.neg : Num → Num
  | .fin s m e => .fin (!s) m e
  | .inf s => .inf (!s)
  | .nan => .nan

/-- Whether the first value is below the second; NaN is below nothing. -/
def Num.lt : Num → Num → Bool
  | .nan, _ => false
  | _, .nan => false
  | .inf a, .inf b => a && !b
  | .inf a, _ => a
  | _, .inf b => !b
  | .fin a m e, .fin b n f => decide (scaleTo a m e (min e f) < scaleTo b n f (min e f))

/-- A magnitude × 2^exp rounded half to even to a multiple of 2^q: the multiple. -/
def quantise (mag : Nat) (exp q : Int) : Nat :=
  if q ≤ exp then mag * 2 ^ (exp - q).toNat
  else (rne (mag : Int) (2 ^ (q - exp).toNat)).toNat

/-- Exponent of the leading bit of mag × 2^exp. -/
def leadExp (mag : Nat) (exp : Int) : Int := (Nat.log2 mag : Int) + exp

/-- Encoding of a binary format with `mb` mantissa bits, bias `bias` and `eb` exponent bits, subnormals kept: rounded
magnitude as exponent field and mantissa together; overflow shows as a value past the field. -/
def encodeMag (mb : Nat) (bias : Int) (mag : Nat) (exp : Int) : Nat :=
  if mag = 0 then 0 else
    let emin := 1 - bias
    let e := max (leadExp mag exp) emin
    let q := quantise mag exp (e - mb)
    -- q lies in [0, 2^(mb+1)]; a carry moves into the exponent field by itself
    if q < 2 ^ mb then q else ((e - emin).toNat * 2 ^ mb) + q

/-- binary32 bits of a value, RNE, overflow to infinity, canonical NaN (R336, R337). -/
def toFp32 : Num → Nat
  | .nan => 0x7FC00000
  | .inf s => b2n s * 2 ^ 31 + 0x7F800000
  | .fin s m e => b2n s * 2 ^ 31 + min 0x7F800000 (encodeMag 23 127 m e)

/-- BF16 bits of a value (R337). -/
def toBf16 : Num → Nat
  | .nan => 0x7FC0
  | .inf s => b2n s * 2 ^ 15 + 0x7F80
  | .fin s m e => b2n s * 2 ^ 15 + min 0x7F80 (encodeMag 7 127 m e)

/-- The value of a binary format with infinities: sign, `eb` exponent bits, `mb` mantissa bits. -/
def ofIeee (eb mb : Nat) (v : Nat) : Num :=
  let s := bit v (eb + mb)
  let e := bits v mb eb
  let f := bits v 0 mb
  let bias : Int := 2 ^ (eb - 1) - 1
  if e = 2 ^ eb - 1 then (if f = 0 then .inf s else .nan)
  else if e = 0 then .fin s f (1 - bias - mb)
  else .fin s (2 ^ mb + f) ((e : Int) - bias - mb)

/-- The value of binary32 bits. -/
def ofFp32 (v : Nat) : Num := ofIeee 8 23 v

/-- The value of BF16 bits. -/
def ofBf16 (v : Nat) : Num := ofIeee 8 7 v

/-- The value of an E4M3 element (R332): no infinity, S.1111.111 is NaN. -/
def ofE4m3 (v : Nat) : Num :=
  let e := bits v 3 4
  let f := bits v 0 3
  if e = 15 && f = 7 then .nan
  else if e = 0 then .fin (bit v 7) f (-9) else .fin (bit v 7) (8 + f) ((e : Int) - 10)

/-- The value of an E2M1 element (R332). -/
def ofE2m1 (v : Nat) : Num :=
  let e := bits v 1 2
  let f := bits v 0 1
  if e = 0 then .fin (bit v 3) f (-1) else .fin (bit v 3) (2 + f) ((e : Int) - 2)

/-- One element conversion: bits, and whether it saturated (R337). -/
structure Conv where
  val : Nat
  sat : Bool
  nan : Bool
  deriving DecidableEq, Repr

/-- A saturating small-float element: `top` is its largest finite code. -/
def toSmall (mb : Nat) (bias : Int) (signBit top nanCode : Nat) : Num → Conv
  | .nan => ⟨nanCode, false, true⟩
  | .inf s => ⟨b2n s * 2 ^ signBit + top, true, false⟩
  | .fin s m e =>
    let v := encodeMag mb bias m e
    if top < v then ⟨b2n s * 2 ^ signBit + top, true, false⟩ else ⟨b2n s * 2 ^ signBit + v, false, false⟩

/-- A saturating integer element of `n` bits: RNE of the value (R337). -/
def toIntElem (n : Nat) (uns : Bool) (x : Num) : Conv :=
  let lo : Int := if uns then 0 else -(2 ^ (n - 1) : Int)
  let hi : Int := if uns then 2 ^ n - 1 else 2 ^ (n - 1) - 1
  match x with
  | .nan => ⟨0, false, true⟩
  | .inf s => ⟨unsigned n (if s then lo else hi), true, false⟩
  | .fin s m e =>
    let q : Int := quantise m e 0
    let v := if s then -q else q
    let c := clampI lo hi v
    ⟨unsigned n c, decide (c ≠ v), false⟩

/-- The formats of R329. -/
inductive Fmt where
  | int8
  | uint8
  | int4
  | mxint8
  | e4m3
  | e5m2
  | e2m1
  | bf16
  | fp32
  | int32
  | u32
  | code
  deriving DecidableEq, Repr

/-- The format of a code; 12 to 15 are reserved. -/
def Fmt.ofCode (c : Nat) : Option Fmt :=
  match c with
  | 0 => some .int8
  | 1 => some .uint8
  | 2 => some .int4
  | 3 => some .mxint8
  | 4 => some .e4m3
  | 5 => some .e5m2
  | 6 => some .e2m1
  | 7 => some .bf16
  | 8 => some .fp32
  | 9 => some .int32
  | 10 => some .u32
  | 11 => some .code
  | _ => none

/-- Element width in bits. -/
def Fmt.width (f : Fmt) : Nat :=
  match f with
  | .int4 | .e2m1 => 4
  | .bf16 => 16
  | .fp32 | .int32 | .u32 => 32
  | .code => 1
  | _ => 8

/-- The MX formats (R330). -/
def Fmt.isMx (f : Fmt) : Bool := f = .mxint8 || f = .e4m3 || f = .e5m2 || f = .e2m1

/-- The integer formats that accumulate in INT32 (R326). -/
def Fmt.isInt (f : Fmt) : Bool := f = .int8 || f = .uint8 || f = .int4

/-- Element `i` of a packed row (R331): its bits. -/
def element (f : Fmt) (row : List Byte) (i : Nat) : Nat :=
  match f.width with
  | 4 => bits (row.getD (i / 2) 0).toNat (4 * (i % 2)) 4
  | 16 => leNat ((row.drop (2 * i)).take 2)
  | 32 => leNat ((row.drop (4 * i)).take 4)
  | 1 => bits (row.getD (i / 8) 0).toNat (i % 8) 1
  | _ => (row.getD i 0).toNat

/-- The value of an element, its MX scale apart. -/
def Fmt.value (f : Fmt) (v : Nat) : Num :=
  match f with
  | .int8 => Num.ofInt (signed 8 v)
  | .uint8 => Num.ofInt v
  | .int4 => Num.ofInt (signed 4 v)
  | .mxint8 => (Num.ofInt (signed 8 v)).scale (-6)
  | .e4m3 => ofE4m3 v
  | .e5m2 => ofIeee 5 2 v
  | .e2m1 => ofE2m1 v
  | .bf16 => ofBf16 v
  | .fp32 => ofFp32 v
  | .int32 => Num.ofInt (signed 32 v)
  | .u32 => Num.ofInt v
  | .code => Num.ofInt v

/-- An element of a format, scale apart (R337). -/
def Fmt.encode (f : Fmt) (x : Num) : Conv :=
  match f with
  | .int8 => toIntElem 8 false x
  | .uint8 => toIntElem 8 true x
  | .int4 => toIntElem 4 false x
  | .mxint8 => toIntElem 8 false (x.scale 6)
  | .e4m3 => toSmall 3 7 7 0x7E 0x7F x
  | .e5m2 => toSmall 2 15 7 0x7B 0x7F x
  | .e2m1 => toSmall 1 1 3 0x7 0x0 x
  | .bf16 => ⟨toBf16 x, false, decide (x = .nan)⟩
  | .fp32 => ⟨toFp32 x, false, decide (x = .nan)⟩
  | .int32 => toIntElem 32 false x
  | .u32 => toIntElem 32 true x
  | .code => toIntElem 1 true x

/-- Bytes rounded up to a multiple of 64 (R330). -/
def pad64 (n : Nat) : Nat := (n + 63) / 64 * 64

/-- Bytes of `k` packed elements. -/
def Fmt.rowBytes (f : Fmt) (k : Nat) : Nat := (k * f.width + 7) / 8

/-- Bytes of a stored row of `k` elements, scales included (R330). -/
def Fmt.storedBytes (f : Fmt) (k : Nat) : Nat :=
  if f.isMx then pad64 (f.rowBytes k) + pad64 (k / 32) else f.rowBytes k

/-- The values of a stored row of `k` elements: MX elements times their block scale, NaN where the scale is 0xFF
(R330). -/
def Fmt.row (f : Fmt) (k : Nat) (row : List Byte) : List Num :=
  if f.isMx then
    let base := pad64 (f.rowBytes k)
    (List.range k).map fun i =>
      let x := (row.getD (base + i / 32) 0).toNat
      if x = 0xFF then .nan else (f.value (element f row i)).scale ((x : Int) - 127)
  else (List.range k).map fun i => f.value (element f row i)

/-- Elements packed into bytes (R331). -/
def pack (w : Nat) (vs : List Nat) : List Byte :=
  match w with
  | 4 => (List.range ((vs.length + 1) / 2)).map fun i =>
      BitVec.ofNat 8 (vs.getD (2 * i) 0 + 16 * vs.getD (2 * i + 1) 0)
  | 16 => vs.flatMap (leBytes 2)
  | 32 => vs.flatMap (leBytes 4)
  | 1 => (List.range ((vs.length + 7) / 8)).map fun i =>
      BitVec.ofNat 8 ((List.range 8).foldl (fun n j => n + vs.getD (8 * i + j) 0 * 2 ^ j) 0)
  | _ => vs.map (BitVec.ofNat 8)

/-- The largest element exponent of an MX format (R338). -/
def Fmt.emax (f : Fmt) : Int :=
  match f with
  | .e4m3 => 8
  | .e5m2 => 15
  | .e2m1 => 2
  | _ => 0

/-- The largest exponent of the leading bits of a block's finite values, none when all are zero. -/
def blockExp (xs : List Num) : Option Int :=
  xs.foldl (fun acc x => match x with
    | .fin _ m e => if m = 0 then acc else
        some (match acc with | none => leadExp m e | some a => max a (leadExp m e))
    | _ => acc) none

/-- What writing values gives: bytes and the sticky flags SAT_OUT, NAN, INF as bits 1 to 3 (R336, R337, R340). -/
structure Written where
  bytes : List Byte
  sticky : Nat
  deriving DecidableEq, Repr

/-- Sticky bits of one output value. -/
def stickyOf (x : Num) (c : Conv) : Nat :=
  b2n c.sat * 2 + b2n (decide (x = .nan)) * 4
    + b2n (match x with | .inf _ => true | _ => false) * 8

/-- A row of values in an output format (R337, R338). -/
def Fmt.store (f : Fmt) (xs : List Num) : Written :=
  if f.isMx then
    let nb := xs.length / 32
    let blocks := (List.range nb).map fun b =>
      let blk := (xs.drop (32 * b)).take 32
      let sc : Nat := match blockExp blk with
        | none => 0
        | some e => (clampI 0 254 (e - f.emax + 127)).toNat
      let cs := blk.map fun x => (x, f.encode (x.scale (127 - (sc : Int))))
      let anyNan := blk.any fun x => decide (x = .nan)
      let sc' := if anyNan && (f = .e2m1 || f = .mxint8) then 0xFF else sc
      (cs.map (·.2.val), sc', cs.foldl (fun n p => Nat.lor n (stickyOf p.1 p.2)) 0)
    let el := pack f.width (blocks.flatMap (·.1))
    let sc := blocks.map fun b => BitVec.ofNat 8 b.2.1
    ⟨fit (pad64 el.length) el ++ fit (pad64 sc.length) sc, blocks.foldl (fun n b => Nat.lor n b.2.2) 0⟩
  else
    let cs := xs.map fun x => (x, f.encode x)
    ⟨pack f.width (cs.map (·.2.val)), cs.foldl (fun n p => Nat.lor n (stickyOf p.1 p.2)) 0⟩

/-! ## Accumulation -/

/-- The binary32 value nearest to an exact one (one RNE rounding). -/
def round32 (x : Num) : Num := ofFp32 (toFp32 x)

/-- INT32 accumulation of products from `acc`: exact until a sum leaves the range, then stuck at the bound with SAT_ACC
(R333). -/
def accInt : List (Int × Int) → Int → Int × Bool
  | [], a => (a, false)
  | (x, y) :: ps, a =>
    let v := a + x * y
    if v < -(2 ^ 31) then (-(2 ^ 31), true)
    else if 2 ^ 31 - 1 < v then (2 ^ 31 - 1, true)
    else accInt ps v

/-- Groups of `g` consecutive products summed exactly and added with one rounding each (R334, R335). -/
def accGroups (g : Nat) : Nat → List (Num × Num) → Num → Num
  | 0, _, a => a
  | k + 1, ps, a =>
    let s := (ps.take g).foldl (fun t p => t.add (p.1.mul p.2)) (.fin false 0 0)
    accGroups g k (ps.drop g) (round32 (a.add s))

/-- The integer of a finite whole value. -/
def Num.toInt (x : Num) : Int :=
  match x with
  | .fin s m e => let q : Int := quantise m e 0; if s then -q else q
  | _ => 0

/-- One epilogue entry (R339). -/
structure Epi where
  bias : Nat
  mult : Int
  shift : Nat
  zp : Int
  deriving DecidableEq, Repr

/-- The epilogue entry of a 16-byte record. -/
def Epi.ofBytes (b : List Byte) : Epi :=
  ⟨leNat (b.take 4), signed 32 (leNat ((b.drop 4).take 4)), (b.getD 8 0).toNat % 32, signed 8 (b.getD 9 0).toNat⟩

/-- The requantisation of R339: RNE(v × MULT ÷ 2^(31 + SHIFT)) + ZP. -/
def requant (e : Epi) (v : Num) : Num :=
  match v with
  | .fin s m x =>
    let p := scaleTo s m x (min x 0) * e.mult
    Num.ofInt (rne p (2 ^ ((31 + e.shift : Nat) + (0 - min x 0).toNat)) + e.zp)
  | y => y

/-- The epilogue in its order: bias, ReLU, requantise (R339). -/
def epilogue (isInt bias relu req : Bool) (e : Epi) (v : Num) : Num :=
  let v := if bias then
      (if isInt then Num.ofInt (clampI (-(2 ^ 31)) (2 ^ 31 - 1) (v.toInt + signed 32 e.bias))
       else round32 (v.add (ofFp32 e.bias))) else v
  let v := if relu && v.lt (.fin false 0 0) then .fin false 0 0 else v
  if req then requant e v else v

end Sys2Proof.Machine
end

