-- ==== Sys2Proof/Machine/Trig.lean ====
section
/-! DEFINITION. Sine and cosine by integers, for the conversions the spec states as formulas (R251, R590, R709): fixed
point with 128 fraction bits and series long enough that a final rounding to the formats of the spec is that of the exact
value (log entry 18). -/

namespace Sys2Proof.Machine

/-- One in the fixed point of this file. -/
def fxOne : Int := 2 ^ 128

/-- π × 2^128, rounded down. -/
def fxPi : Int := 1069028584064966747859680373161870783300

/-- A fixed-point product. -/
def fxMul (a b : Int) : Int := (a * b).fdiv fxOne

/-- Terms of the cosine and sine series at `x` from term `t` = x^k / k!, alternating. -/
def seriesGo (x2 : Int) : Nat → Int → Int → Int → Int
  | 0, _, _, acc => acc
  | n + 1, k, t, acc => seriesGo x2 n (k + 2) (-((fxMul t x2).fdiv ((k + 1) * (k + 2)))) (acc + t)

/-- Cosine of an angle in radians, fixed point, for angles of at most one turn. DESIGN CHOICE: log entry 18. -/
def fxCos (x : Int) : Int := seriesGo (fxMul x x) 40 0 fxOne 0

/-- Sine of an angle in radians, fixed point. DESIGN CHOICE: log entry 18. -/
def fxSin (x : Int) : Int := seriesGo (fxMul x x) 40 1 x 0

/-- An exact value as fixed point; zero for what is not finite. -/
def Num.toFx (n : Num) : Int :=
  match n with
  | .fin neg mag exp =>
    let v : Int := if 0 ≤ exp + 128 then (mag : Int) * 2 ^ (exp + 128).toNat else rne mag (2 ^ (-(exp + 128)).toNat)
    if neg then -v else v
  | _ => 0

/-- An exact value of degrees as radians within one turn, fixed point. -/
def degToFx (n : Num) : Int :=
  match n with
  | .fin neg mag exp =>
    let (num, den) := if 0 ≤ exp then (mag * 2 ^ exp.toNat % 360, 1)
      else (mag % (360 * 2 ^ (-exp).toNat), 2 ^ (-exp).toNat)
    let v := ((num : Int) * fxPi).fdiv (180 * den)
    if neg then -v else v
  | _ => 0

/-- Terms of Euler's arctangent series: `t` the next term, `r` the square x² / (1 + x²). -/
def atanGo (r : Int) : Nat → Int → Int → Int → Int
  | 0, _, _, acc => acc
  | n + 1, k, t, acc => atanGo r n (k + 1) ((fxMul t r * (2 * k + 2)).fdiv (2 * k + 3)) (acc + t)

/-- Arctangent in radians of a fixed-point value of 0 to 1. -/
def fxAtan (x : Int) : Int :=
  let x2 := fxMul x x
  let d := fxOne + x2
  atanGo ((x2 * fxOne).fdiv d) 140 0 ((x * fxOne).fdiv d) 0

/-- The angle of the point (x, y) in radians, fixed point, from −π to π; 0 for the origin. -/
def fxAtan2 (y x : Int) : Int :=
  let ax : Int := x.natAbs
  let ay : Int := y.natAbs
  let a := if ax = 0 && ay = 0 then 0
    else if ay ≤ ax then fxAtan ((ay * fxOne).fdiv ax)
    else fxPi.fdiv 2 - fxAtan ((ax * fxOne).fdiv ay)
  let b := if x < 0 then fxPi - a else a
  if y < 0 then -b else b

/-- The integer nearest to sqrt(a / b), ties to even. -/
def rneSqrt (a b : Nat) : Nat :=
  let r := isqrt (a / b)
  let t := (2 * r + 1) * (2 * r + 1) * b
  if t < 4 * a then r + 1 else if t = 4 * a then r + r % 2 else r

end Sys2Proof.Machine
end

