-- ==== Sys2Proof/Machine/Pose.lean ====
section
/-! DEFINITION. Quaternions and poses in fixed point (R535, R536, R571): sQ1.62 quaternions, sQ31.32 vectors, one rounding
half to even for each result. -/

namespace Sys2Proof.Machine

/-- The sum of two vectors. -/
def Vec3.add (a b : Vec3) : Vec3 := ⟨a.x + b.x, a.y + b.y, a.z + b.z⟩

/-- The difference of two vectors. -/
def Vec3.sub (a b : Vec3) : Vec3 := ⟨a.x - b.x, a.y - b.y, a.z - b.z⟩

/-- A function of each component. -/
def Vec3.map (f : Int → Int) (a : Vec3) : Vec3 := ⟨f a.x, f a.y, f a.z⟩

/-- The exact cross product. -/
def Vec3.cross (a b : Vec3) : Vec3 := ⟨a.y * b.z - a.z * b.y, a.z * b.x - a.x * b.z, a.x * b.y - a.y * b.x⟩

/-- The exact inner product. -/
def Vec3.dot (a b : Vec3) : Int := a.x * b.x + a.y * b.y + a.z * b.z

/-- The square of the length. -/
def Vec3.sq (a : Vec3) : Nat := (a.dot a).toNat

/-- Components in order. -/
def Vec3.list (a : Vec3) : List Int := [a.x, a.y, a.z]

/-- A vector of listed components, zero where one is missing. -/
def Vec3.ofList (l : List Int) : Vec3 := ⟨l.getD 0 0, l.getD 1 0, l.getD 2 0⟩

/-- Components in order. -/
def Quat.list (q : Quat) : List Int := [q.w, q.x, q.y, q.z]

/-- A quaternion of listed components. -/
def Quat.ofList (l : List Int) : Quat := ⟨l.getD 0 0, l.getD 1 0, l.getD 2 0, l.getD 3 0⟩

/-- The vector part. -/
def Quat.vec (q : Quat) : Vec3 := ⟨q.x, q.y, q.z⟩

/-- The inverse of a unit quaternion. -/
def Quat.conj (q : Quat) : Quat := ⟨q.w, -q.x, -q.y, -q.z⟩

/-- A unit quaternion moved from `k` to `j` fraction bits. -/
def Quat.rescale (k j : Nat) (q : Quat) : Quat :=
  let f := fun (v : Int) => if k ≤ j then v * 2 ^ (j - k) else rne v (2 ^ (k - j))
  ⟨f q.w, f q.x, f q.y, f q.z⟩

/-- The square of the length. -/
def Quat.sq (q : Quat) : Nat := (q.w * q.w + q.x * q.x + q.y * q.y + q.z * q.z).toNat

/-- A quaternion of unit length, with 62 fraction bits (R536); the zero quaternion stays. -/
def Quat.unit (q : Quat) : Quat :=
  let n := q.sq
  if n = 0 then q else
    let f := fun (v : Int) =>
      let r : Int := rneSqrt (v.natAbs * v.natAbs * 2 ^ 124) n
      if v < 0 then -r else r
    ⟨f q.w, f q.x, f q.y, f q.z⟩

/-- The product of two quaternions of 62 fraction bits. -/
def Quat.mul (a b : Quat) : Quat :=
  let f := fun (v : Int) => rne v (2 ^ 62)
  ⟨f (a.w * b.w - a.x * b.x - a.y * b.y - a.z * b.z), f (a.w * b.x + a.x * b.w + a.y * b.z - a.z * b.y),
   f (a.w * b.y - a.x * b.z + a.y * b.w + a.z * b.x), f (a.w * b.z + a.x * b.y - a.y * b.x + a.z * b.w)⟩

/-- A vector rotated by a unit quaternion of 62 fraction bits. -/
def Quat.rot (q : Quat) (v : Vec3) : Vec3 :=
  let u := q.vec
  let a := u.cross v
  let b := u.cross a
  let f := fun (v a b : Int) => rne (v * 2 ^ 124 + 2 * q.w * a + 2 * b) (2 ^ 124)
  ⟨f v.x a.x b.x, f v.y a.y b.y, f v.z a.z b.z⟩

/-- The quaternion of a rotation vector given as half angles with 128 fraction bits (R536). -/
def Quat.exp (h : Vec3) : Quat :=
  let h2 := (h.dot h).fdiv fxOne
  let c := seriesGo h2 40 0 fxOne 0
  let s := seriesGo h2 40 1 fxOne 0
  let f := fun (v : Int) => rne (fxMul v s) (2 ^ 66)
  (Quat.mk (rne c (2 ^ 66)) (f h.x) (f h.y) (f h.z)).unit

/-- The angle of a rotation in radians, with 128 fraction bits. -/
def Quat.angle (q : Quat) : Int := 2 * fxAtan2 (isqrt q.vec.sq) q.w.natAbs

/-- The yaw of a rotation in radians, with 128 fraction bits. -/
def Quat.yaw (q : Quat) : Int :=
  fxAtan2 (2 * (q.w * q.z + q.x * q.y)) (2 ^ 124 - 2 * (q.y * q.y + q.z * q.z))

/-- The composition of two poses. -/
def Pose.mul (a b : Pose) : Pose := ⟨(a.q.mul b.q).unit, a.t.add (a.q.rot b.t)⟩

/-- The inverse of a pose. -/
def Pose.inv (a : Pose) : Pose := ⟨a.q.conj, (a.q.conj.rot a.t).map fun v => -v⟩

/-- A pose as records hold it: 4 × sQ1.30 and 3 × sQ31.32. -/
def Pose.bytes (p : Pose) : List Byte :=
  (p.q.rescale 62 30).list.flatMap (fun v => leBytes 4 (unsigned 32 (clampI (-(2 ^ 31)) (2 ^ 31 - 1) v)))
    ++ p.t.list.flatMap fun v => leBytes 8 (unsigned 64 v)

/-- A pose read from a record. -/
def Pose.ofBytes (b : List Byte) : Pose :=
  let q := fun (i : Nat) => signed 32 (leNat ((b.drop (4 * i)).take 4))
  let t := fun (i : Nat) => signed 64 (leNat ((b.drop (16 + 8 * i)).take 8))
  ⟨((Quat.mk (q 0) (q 1) (q 2) (q 3)).rescale 30 62).unit, ⟨t 0, t 1, t 2⟩⟩

/-- A signed value of `j` more fraction bits than its field, saturating in `n` bits. -/
def toField (n j : Nat) (v : Int) : Nat :=
  unsigned n (clampI (-(2 ^ (n - 1) : Int)) (2 ^ (n - 1) - 1) (rne v (2 ^ j)))

end Sys2Proof.Machine
end

