-- ==== Sys2Proof/Machine/Operands.lean ====
section
/-! DEFINITION. Operands of mailbox commands: fields of a request payload (R10, R155), the checks of R157 as data,
the size rule of R835, replies, and the frame every mailbox command runs in. -/

namespace Sys2Proof.Machine

/-- An unsigned field of `n` bytes at `off` of the request payload. -/
def Request.u (r : Request) (off n : Nat) : Nat := leNat ((r.body.drop off).take n)

/-- A signed field of `n` bytes at `off`. -/
def Request.i (r : Request) (off n : Nat) : Int := signed (8 * n) (r.u off n)

/-- The bytes of a field. -/
def Request.bytes (r : Request) (off n : Nat) : List Byte := (r.body.drop off).take n

/-- How long a payload may be (R835): fixed size, a counted list after it (`flagList`: only with a flag set), data of a given length after it, a range,
one of several fixed sizes, or data after it unless a flag is set. -/
inductive LenRule where
  | fixed (n : Nat)
  | list (n off size entry : Nat)
  | flagList (n flagOff flagBit off size entry : Nat)
  | data (n off size : Nat)
  | range (lo hi : Nat)
  | oneOf (ns : List Nat)
  | inlined (n flagOff flagBit off size : Nat)
  deriving DecidableEq, Repr

/-- Whether LEN is valid by a rule (R835). -/
def LenRule.ok (l : LenRule) (r : Request) : Bool :=
  match l with
  | .fixed n => r.len == n
  | .list n off size entry => n ≤ r.len && r.len == n + r.u off size * entry
  | .flagList n fo fb off size entry =>
    n ≤ r.len && r.len == n + (if bit (r.u fo 1) fb then r.u off size * entry else 0)
  | .data n off size => n ≤ r.len && r.len == n + r.u off size
  | .range lo hi => lo ≤ r.len && r.len ≤ hi
  | .oneOf ns => ns.elem r.len
  | .inlined n fo fb off size => n ≤ r.len && r.len == n + (if bit (r.u fo 1) fb then 0 else r.u off size)

/-- One static check of a field (R157, order 7). -/
inductive Chk where
  /-- An unsigned field between two bounds. -/
  | rng (off n lo hi : Nat)
  /-- A signed field between two bounds. -/
  | srng (off n : Nat) (lo hi : Int)
  /-- Reserved bytes. -/
  | zero (off n : Nat)
  /-- Only the bits of a mask may be set. -/
  | mask (off n allowed : Nat)
  /-- One of a list of values. -/
  | among (off n : Nat) (vs : List Nat)
  deriving DecidableEq, Repr

/-- Whether a request meets a check. -/
def Chk.ok (c : Chk) (r : Request) : Bool :=
  match c with
  | .rng off n lo hi => lo ≤ r.u off n && r.u off n ≤ hi
  | .srng off n lo hi => lo ≤ r.i off n && r.i off n ≤ hi
  | .zero off n => r.u off n == 0
  | .mask off n allowed => Nat.land (r.u off n) allowed == r.u off n
  | .among off n vs => vs.elem (r.u off n)

/-- What the checks 4, 6 and 7 of R157 need to know of an opcode. -/
structure Spec where
  op : Nat
  len : LenRule
  checks : List Chk
  deriving DecidableEq, Repr

/-! ## Replies -/

/-- A direct answer. -/
def ans (status : Nat) (payload : List Byte := []) : Reply := ⟨status, false, payload, true, none⟩

/-- The status codes of R174 that commands answer with. -/
def stOk : Nat := 0x00
def stAccepted : Nat := 0x01
def stBadOpcode : Nat := 0x10
def stBadLength : Nat := 0x11
def stBadCrc : Nat := 0x12
def stBadField : Nat := 0x13
def stBadState : Nat := 0x14
def stBadHandle : Nat := 0x15
def stNoResource : Nat := 0x16
def stAuth : Nat := 0x17
def stRestarted : Nat := 0x25
def stFailed : Nat := 0x30
def stCancelled : Nat := 0x31
def stAborted : Nat := 0x32

/-- A long command takes a handle and answers ACCEPTED with it (R153); NO_RESOURCE when 256 count (R165). -/
def accept (r : Request) (ch : Nat) (d : Device) (k : Nat → Device → Device) : Device × Reply :=
  match d.mbx.newHandle ch r.op with
  | none => (d, ans stNoResource)
  | some (h, m) => (k h { d with mbx := m }, ⟨stAccepted, false, leBytes 4 h, true, some h⟩)

/-- The opcodes whose OK or ACCEPTED answer extends the configuration digest (R812). -/
def extends_ : List Nat :=
  [0x0201, 0x0203, 0x0205, 0x0206, 0x0207, 0x0209,
   0x0300, 0x0302, 0x0303, 0x0304, 0x0306, 0x0307, 0x0308, 0x0309, 0x030A,
   0x0400, 0x0401, 0x0402, 0x0403, 0x0404, 0x0700, 0x0701, 0x0702, 0x0800, 0x0801,
   0x0900, 0x0901, 0x0902, 0x0904, 0x0905, 0x0A05, 0x0B00, 0x0B03, 0x0B04, 0x0B06,
   0x0C01, 0x0D01, 0x0D06, 0x0E00, 0x0E01, 0x0E10, 0x0E12,
   0x0503, 0x0111, 0x0112, 0x0113, 0x0114]

/-- A mailbox channel. -/
def Device.chan (d : Device) (ch : Nat) : Channel := d.mbx.chans.getD ch Channel.reset

/-- A mailbox channel replaced. -/
def Device.setChan (d : Device) (ch : Nat) (c : Channel) : Device :=
  { d with mbx := { d.mbx with chans := d.mbx.chans.put ch c } }

/-- The request that channel `ch` has taken with opcode `op` and not yet answered; a CP fault on the lead die stops the
mailbox service (R737). -/
def Device.awaiting (d : Device) (ch op : Nat) : Option Request :=
  let c := d.chan ch
  match c.taken, c.formed with
  | some r, none => if c.state = .busy && r.op = op && !d.evt.faultCp.getLsbD d.lead then some r else none
  | _, _ => none

/-- A command's answer is put in its channel to be published (R151), after the configuration digest took a command
of R812 that was answered OK or ACCEPTED; a BAD_FIELD answer is a rejection by check 7 and is logged (R157, R181; log
entry 4). -/
def Device.answer (d : Device) (ch : Nat) (r : Request) (a : Reply) : Device :=
  let d := if d.boot.ready && a.status ≤ 1 && extends_.elem r.op then d.extendConfig r.op r.body else d
  let d := if a.status = stBadField then d.violation 1 ch 0x10 (a.status * 65536 + r.seq) else d
  d.setChan ch { d.chan ch with formed := some a }

/-- A mailbox command that acts on the device alone. With no such request taken on the channel, nothing happens
(DESIGN CHOICE, log entry 4). -/
def command (op : Nat) (ch : Fin 8) (body : Request → Device → Device × Reply) (s : State) :
    Host.Outcome State Fault Refusal :=
  match s.dev.awaiting ch.val op with
  | none => .next s
  | some r =>
    let x := body r s.dev
    .next { s with dev := x.1.answer ch.val r x.2 }

/-- A mailbox command that also acts on the memories. DESIGN CHOICE: log entry 4. -/
def commandMem (op : Nat) (ch : Fin 8) (body : Request → Device → Store → (Device × Store) × Reply) (s : State) :
    Host.Outcome State Fault Refusal :=
  match s.dev.awaiting ch.val op with
  | none => .next s
  | some r =>
    let x := body r s.dev s.mem
    .next { s with dev := x.1.1.answer ch.val r x.2, mem := x.1.2 }

/-- A mailbox command that reads the memories and changes the device alone. -/
def commandRead (op : Nat) (ch : Fin 8) (body : Request → Device → Store → Device × Reply) (s : State) :
    Host.Outcome State Fault Refusal :=
  match s.dev.awaiting ch.val op with
  | none => .next s
  | some r =>
    let x := body r s.dev s.mem
    .next { s with dev := x.1.answer ch.val r x.2 }

/-- A mailbox command that only reports. -/
def query (op : Nat) (ch : Fin 8) (body : Request → Device → Reply) (s : State) :
    Host.Outcome State Fault Refusal :=
  command op ch (fun r d => (d, body r d)) s

end Sys2Proof.Machine
end

