-- ==== Sys2Proof/Machine/MemOps.lean ====
section
/-! DEFINITION. The memory tiers (R375 to R415): pitches and buffers, physical access with its errors, landings and
scratch, the memory-side cache slice. The byte stores hold the view every requester has through the home slices
(R398); the slices' own tags are kept beside it (log entry 10). -/

namespace Sys2Proof.Machine

/-- Channel density in GiB (R378), 0 before TRAIN. -/
def Device.density (d : Device) : Nat := d.boot.memCap / 16

/-- Whether a channel's memory can be reached: its die is powered (R387). -/
def Device.channelUp (d : Device) (c : Nat) : Bool := d.pwr.dieOn.getLsbD (c / 2)

/-- Physical address of a pitch index (R388). -/
def pitchBase (p : Nat) : Nat := p / 8192 * 2 ^ 34 + p % 8192 * 2 ^ 21

/-- Bytes of a pitch. -/
def pitchSize : Nat := 2097152

/-- Pitches of a channel that belong to the pool: below the density and outside the CP area (R389). -/
def Device.poolPitches (d : Device) (c : Nat) : Nat := d.density * 512 - (if c % 2 = 0 then 32 else 0)

/-- Whether a pitch index is taken by some buffer. -/
def MemSys.taken (m : MemSys) (p : Nat) : Bool := m.bufs.any fun e => e.2.pitches.elem p

/-- How many pitches of a channel buffers hold. -/
def MemSys.takenOn (m : MemSys) (c : Nat) : Nat :=
  m.bufs.foldl (fun n e => n + (e.2.pitches.filter fun p => p / 8192 == c).length) 0

/-- The `n` lowest free pool pitches of channel `c` from `p` on; fewer when there are not as many. -/
def freeGo (m : MemSys) (c : Nat) : Nat → Nat → Nat → List Nat
  | 0, _, _ => []
  | k + 1, p, n =>
    if n = 0 then [] else
      if m.taken (c * 8192 + p) then freeGo m c k (p + 1) n
      else (c * 8192 + p) :: freeGo m c k (p + 1) (n - 1)

/-- The `n` lowest free pool pitches of a channel that can be reached. -/
def Device.lowestFree (d : Device) (c n : Nat) : List Nat :=
  if d.channelUp c then
    let first := if c % 2 = 0 then 32 else 0
    freeGo d.memsys c (d.density * 512 - first) first n
  else []

/-- The channels a placement rotates over (R391): CHANNEL, DIE, PACKAGE. -/
def Device.rotation (d : Device) (placement target : Nat) : List Nat :=
  match placement with
  | 0 => [target]
  | 1 => [2 * target, 2 * target + 1]
  | _ => (List.range 16).filter d.channelUp

/-- The pitches of a new buffer, every pitch or none (R391). -/
def Device.place (d : Device) (placement target n : Nat) : Option (List Nat) :=
  let chs := d.rotation placement target
  let k := chs.length
  if k = 0 || n = 0 then none else
    let need := fun i => (n + k - 1 - i) / k
    let lists := (List.range k).map fun i => d.lowestFree (chs.getD i 0) (need i)
    if (List.range k).all fun i => (lists.getD i []).length == need i then
      some ((List.range n).map fun j => (lists.getD (j % k) []).getD (j / k) 0)
    else none

/-- A host buffer ID is below 0x8000_0000 (R390). -/
def isHostBuf (id : Nat) : Bool := 0 < id && id < 0x80000000

/-- How many host buffers exist (R390). -/
def MemSys.hostCount (m : MemSys) : Nat := (m.bufs.filter fun e => isHostBuf e.1).length

/-- The next unused ID of a range from `id` on, wrapping at `top` to `base`. -/
def nextFreeId (m : MemSys) (base top : Nat) : Nat → Nat → Nat
  | 0, id => id
  | k + 1, id => if (m.bufs.look id).isSome then
      nextFreeId m base top k (if id = top then base else id + 1) else id

/-- A host buffer of `n` pitches (R390, R391). -/
def Device.allocHost (d : Device) (placement target n : Nat) : Option (Nat × Device) :=
  if 4096 ≤ d.memsys.hostCount then none else
    match d.place placement target n with
    | none => none
    | some ps =>
      let id := nextFreeId d.memsys 1 0x7FFFFFFF 4097 d.memsys.nextHost
      let nxt := if id = 0x7FFFFFFF then 1 else id + 1
      some (id, { d with memsys := { d.memsys with
        bufs := d.memsys.bufs.put id ⟨placement, target, ps, false, false⟩, nextHost := nxt } })

/-- A firmware buffer of `n` pitches (R390). -/
def Device.allocFw (d : Device) (placement target n : Nat) : Option (Nat × Device) :=
  match d.place placement target n with
  | none => none
  | some ps =>
    let id := nextFreeId d.memsys 0x80000000 0xFFFFFFFE (d.memsys.bufs.length + 1) d.memsys.nextFw
    let nxt := if id = 0xFFFFFFFE then 0x80000000 else id + 1
    some (id, { d with memsys := { d.memsys with
      bufs := d.memsys.bufs.put id ⟨placement, target, ps, false, false⟩, nextFw := nxt } })

/-- A buffer is freed: its pitches return to the pool (R396). -/
def Device.freeBuf (d : Device) (id : Nat) : Device :=
  { d with memsys := { d.memsys with bufs := d.memsys.bufs.del id } }

/-- The buffer of an ID. -/
def Device.buf (d : Device) (id : Nat) : Option Buffer := d.memsys.bufs.look id

/-- The size of a buffer in bytes (R392). -/
def Buffer.size (b : Buffer) : Nat := b.pitches.length * pitchSize

/-- The physical address of byte `o` of a buffer (R392). -/
def Buffer.addr (b : Buffer) (o : Nat) : Nat := pitchBase (b.pitches.getD (o / pitchSize) 0) + o % pitchSize

/-- Whether a job holds its grants now: from LOADING to COMMITTING (R712). -/
def Job.holds (j : Job) : Bool :=
  decide (j.state = .loading) || decide (j.state = .running) || decide (j.state = .restarting)
    || decide (j.state = .committing)

/-- A job that has not ended (R712). -/
def Job.active (j : Job) : Bool := decide (j.state ≠ .ended)

/-- Whether some active job holds a buffer, with RW access when `rw` (R394, R395). -/
def Device.jobHolds (d : Device) (id : Nat) (rw : Bool) : Bool :=
  d.jobs.table.any fun e => e.2.holds && e.2.grants.any fun g => g.buf == id && (!rw || g.access != 0)

/-- HELD (R395): an active job holds it, or an open bulk transfer writes it. -/
def Device.bufHeld (d : Device) (id : Nat) (b : Buffer) : Bool := b.bulk || d.jobHolds id false

/-- READY (R395). -/
def Device.bufReady (d : Device) (id : Nat) : Bool :=
  match d.buf id with
  | some b => !b.lost && !d.bufHeld id b
  | none => false

/-! ## Physical access -/

/-- How an access fails (R383, R387). -/
inductive AccessError where
  | ecc (pa : Nat)
  | completion (pa : Nat)
  deriving DecidableEq, Repr

/-- The first error an access to `n` bytes at `pa` meets: a channel that cannot be reached or a hole, then a sector
that decodes as uncorrectable (R383, R387). Sectors wholly covered by a write are renewed, so `write` leaves them out.
Also R33. -/
def Device.accessError (d : Device) (pa n : Nat) (write : Bool) : Option AccessError :=
  let c := pa / 2 ^ 34
  let off := pa % 2 ^ 34
  if 16 ≤ c || !d.channelUp c || d.density * 2 ^ 30 < off + n then some (.completion pa)
  else
    let hit := d.memsys.bad.find? fun sct =>
      sct * 64 < pa + n && pa < sct * 64 + 64 && !(write && pa ≤ sct * 64 && sct * 64 + 64 ≤ pa + n)
    hit.map fun sct => .ecc (max pa (sct * 64))

/-- Sectors wholly covered by a write hold new check symbols (R383). -/
def MemSys.renew (m : MemSys) (pa n : Nat) : MemSys :=
  { m with bad := m.bad.filter fun sct => !(pa ≤ sct * 64 && sct * 64 + 64 ≤ pa + n) }

/-- The pieces of a buffer range that lie within one pitch each: address and length (R392). -/
def Buffer.pieces (b : Buffer) : Nat → Nat → Nat → List (Nat × Nat)
  | 0, _, _ => []
  | k + 1, o, n =>
    if n = 0 then [] else
      let take := min n (pitchSize - o % pitchSize)
      (b.addr o, take) :: Buffer.pieces b k (o + take) (n - take)

/-- The pieces of a whole range. -/
def Buffer.range (b : Buffer) (o n : Nat) : List (Nat × Nat) := b.pieces (n / pitchSize + 2) o n

/-- The first error of a buffer range. -/
def Device.rangeError (d : Device) (b : Buffer) (o n : Nat) (write : Bool) : Option AccessError :=
  (b.range o n).findSome? fun (pa, k) => d.accessError pa k write

/-- The bytes of a buffer range, without checks. -/
def Store.bufBytes (m : Store) (b : Buffer) (o n : Nat) : List Byte :=
  (b.range o n).flatMap fun (pa, k) => m.lp.readAll 0#8 pa k

/-- Bytes laid over the pieces of a range. -/
def layBytes : List (Nat × Nat) → List Byte → Cells → Cells
  | [], _, m => m
  | (pa, k) :: ps, bs, m => layBytes ps (bs.drop k) (Cells.writeAll 0#8 m pa (bs.take k))

/-- A buffer range written, without checks. -/
def Store.bufWrite (m : Store) (b : Buffer) (o : Nat) (bs : List Byte) : Store :=
  { m with lp := layBytes (b.range o bs.length) bs m.lp }

/-- Renewal of the sectors a buffer write covers. -/
def MemSys.renewRange (m : MemSys) (b : Buffer) (o n : Nat) : MemSys :=
  (b.range o n).foldl (fun m (pa, k) => m.renew pa k) m

/-- An access error is logged outside any job and counted (R383, R387, R736 layout). DEDUCED: log entry 48. -/
def Device.logAccess (d : Device) (source : Nat) (e : AccessError) : Device :=
  match e with
  | .ecc pa =>
    let c := pa / 2 ^ 34
    let d := d.outsideFault 0x05 source (c / 2) (if source = 12 then c else 0) (some pa) 0
    ({ d with memsys := { d.memsys with ue := d.memsys.ue.upd c 0 (· + 1) } }).diagAdd (c / 2) (0x180 + 4 * (c % 2)) 16 16 1
  | .completion pa => d.outsideFault 0x06 source (pa / 2 ^ 35 % 8) 0 (some pa) 0

/-- A read of a host's named buffer range that firmware or a command makes: the bytes, or the error. -/
def Device.bufRead (d : Device) (m : Store) (id o n : Nat) : Except AccessError (List Byte) :=
  match d.buf id with
  | none => .error (.completion 0)
  | some b =>
    match d.rangeError b o n false with
    | some e => .error e
    | none => .ok (m.bufBytes b o n)

/-- A write of a buffer range: device and memories after it, or the error (nothing written). -/
def Device.bufStore (d : Device) (m : Store) (id o : Nat) (bs : List Byte) : Except AccessError (Device × Store) :=
  match d.buf id with
  | none => .error (.completion 0)
  | some b =>
    match d.rangeError b o bs.length true with
    | some e => .error e
    | none => .ok ({ d with memsys := d.memsys.renewRange b o bs.length }, m.bufWrite b o bs)

/-- A write that firmware makes into its own buffers; an error leaves things as they are. -/
def fwWrite (id o : Nat) (bs : List Byte) (d : Device) (m : Store) : Device × Store :=
  match d.bufStore m id o bs with
  | .ok r => r
  | .error _ => (d, m)

/-- The bytes firmware reads from its own buffers; zeros where they cannot be read. -/
def fwRead (d : Device) (m : Store) (id o n : Nat) : List Byte :=
  match d.bufRead m id o n with
  | .ok bs => bs
  | .error _ => zeros n

/-! ## Landings and scratch -/

/-- Address of a landing byte in the SRAM store (R375, T1). -/
def landAddr (cluster off : Nat) : Nat := cluster * 2097152 + off

/-- Address of a scratch byte in the SRAM store (R375, T0). -/
def scratchAddr (phys off : Nat) : Nat := 134217728 + phys * 131072 + off

/-- Bytes written to SRAM. -/
def Store.sramWrite (m : Store) (a : Nat) (bs : List Byte) : Store :=
  { m with sram := Cells.writeAll 0#8 m.sram a bs }

/-- Bytes read from SRAM. -/
def Store.sramRead (m : Store) (a n : Nat) : List Byte := m.sram.readAll 0#8 a n

/-- SRAM bytes lost: a cluster's landing and its units' scratch (R373). -/
def Store.loseCluster (m : Store) (c : Nat) : Store :=
  { m with sram := (m.sram.clear (landAddr c 0) 2097152).clear (scratchAddr (c * 17) 0) (17 * 131072) }

/-- A value written over all of a channel's bytes: zero-fill (R384). -/
def Store.zeroChannel (m : Store) (c : Nat) : Store := { m with lp := m.lp.clear (c * 2 ^ 34) (2 ^ 34) }

/-! ## The memory-side cache (R397 to R404) -/

/-- An empty way. -/
def Way.empty : Way := ⟨0, false, false, false, false⟩

/-- An empty set. -/
def MscSet.empty : MscSet := ⟨List.replicate 16 Way.empty, 0⟩

/-- Set index of a physical address (R397): PA[17:7] XOR PA[28:18]. Also R32. -/
def mscIndex (pa : Nat) : Nat := Nat.xor (bits pa 7 11) (bits pa 18 11)

/-- Key of the set of a physical address: region and index. -/
def mscKey (pa : Nat) : Nat := pa / 2 ^ 34 * 2048 + mscIndex pa

/-- Line number of a physical address within its channel. -/
def mscTag (pa : Nat) : Nat := bits pa 7 27

/-- Whether a way holds a line. -/
def Way.has (w : Way) (tag : Nat) : Bool := (w.v0 || w.v1) && w.tag == tag

/-- The tree bits after way `w` was used: every node on its path points away (`toward`: points at it). -/
def plruTouch (bits_ w : Nat) (toward : Bool) : Nat :=
  let step (acc : Nat × Nat) (lvl : Nat) : Nat × Nat :=
    let (b, node) := acc
    let dir := w / 2 ^ (3 - lvl) % 2
    let want := if toward then dir else 1 - dir
    let cur := b / 2 ^ node % 2
    (b - cur * 2 ^ node + want * 2 ^ node, 2 * node + dir)
  ((List.range 4).foldl step (bits_, 1)).1

/-- The way the tree bits point at. -/
def plruVictim (bits_ : Nat) : Nat :=
  let step (node : Nat) (_ : Nat) : Nat := 2 * node + bits_ / 2 ^ node % 2
  (List.range 4).foldl step 1 - 16

/-- The way a fill takes: the lowest empty one, else the victim of the tree. -/
def MscSet.victim (s : MscSet) : Nat :=
  (firstBelow 16 fun i => let w := s.ways.getD i Way.empty; !(w.v0 || w.v1)).getD (plruVictim s.plru)

/-- One way of a list replaced. -/
def setWay (ws : List Way) (i : Nat) (w : Way) : List Way := ws.set i w

/-- Bytes of payload added to a channel's read or write count, in whole 64 KiB units (R413). -/
def Device.countPayload (d : Device) (c : Nat) (write : Bool) (n : Nat) : Device :=
  let t := if write then d.memsys.wrBytes else d.memsys.rdBytes
  let total := t.getD c 0 + n
  let t' := t.put c (total % 65536)
  let ms' := if write then { d.memsys with wrBytes := t' } else { d.memsys with rdBytes := t' }
  ({ d with memsys := ms' }).diagAdd (c / 2) ((if write then 0x1A0 else 0x198) + 4 * (c % 2)) 0 32 (total / 65536)

/-- The dirty sectors of a line written back at eviction (R400). -/
def Device.evict (d : Device) (c : Nat) (w : Way) : Device :=
  d.countPayload c true (64 * (b2n (w.v0 && w.d0) + b2n (w.v1 && w.d1)))

/-- A request that reaches its home slice (R397 to R402): hit or miss, fill, allocation or write-through under the
policy of its grant (0 NORMAL, 1 STREAM, 2 NOALLOC). The region's slice may serve every grant as NOALLOC (R787).
DESIGN CHOICE: log entry 10. -/
def Device.mscAccess (d : Device) (pa n policy : Nat) (write : Bool) : Device :=
  let c := pa / 2 ^ 34
  let r := c % 2
  let die := c / 2
  let key := mscKey pa
  let tag := mscTag pa
  let st := d.memsys.msc.getD key MscSet.empty
  let sec0 := pa % 128 < 64
  let sec1 := 64 < pa % 128 + n
  let whole0 := pa % 128 = 0 && 64 ≤ n
  let whole1 := pa % 128 ≤ 64 && 128 ≤ pa % 128 + n
  let setMsc (d : Device) (s : MscSet) : Device := { d with memsys := { d.memsys with msc := d.memsys.msc.put key s } }
  match firstBelow 16 fun i => (st.ways.getD i Way.empty).has tag with
  | some i =>
    let w := st.ways.getD i Way.empty
    let miss0 := sec0 && !w.v0 && !(write && whole0)
    let miss1 := sec1 && !w.v1 && !(write && whole1)
    let d := if miss0 || miss1 then
        (d.diagAdd die (0x190 + 4 * r) 0 32 1).countPayload c false (64 * (b2n miss0 + b2n miss1))
      else d.diagAdd die (0x188 + 4 * r) 0 32 1
    let w := { w with v0 := w.v0 || sec0, v1 := w.v1 || sec1,
                      d0 := w.d0 || (write && sec0), d1 := w.d1 || (write && sec1) }
    setMsc d ⟨setWay st.ways i w, plruTouch st.plru i false⟩
  | none =>
    let d := d.diagAdd die (0x190 + 4 * r) 0 32 1
    if policy = 2 || d.pwr.noalloc.getLsbD c then
      if write then
        let part := b2n (sec0 && !whole0) + b2n (sec1 && !whole1)
        (d.countPayload c false (64 * part)).countPayload c true (64 * (b2n sec0 + b2n sec1))
      else d.countPayload c false (64 * (b2n sec0 + b2n sec1))
    else
      let i := st.victim
      let d := d.evict c (st.ways.getD i Way.empty)
      let fill := if write then b2n (sec0 && !whole0) + b2n (sec1 && !whole1) else 2
      let d := d.countPayload c false (64 * fill)
      let w : Way := if write then ⟨tag, sec0, sec1, sec0, sec1⟩ else ⟨tag, true, true, false, false⟩
      setMsc d ⟨setWay st.ways i w, plruTouch st.plru i (policy = 1)⟩

/-- Whether a slice holds a sector. -/
def MemSys.holdsSector (m : MemSys) (pa : Nat) : Bool :=
  (m.msc.getD (mscKey pa) MscSet.empty).ways.any fun w =>
    w.tag == mscTag pa && (if pa % 128 < 64 then w.v0 else w.v1)

/-- One way with the sector at `pa` dirty, if it holds it. -/
def Way.dirtied (w : Way) (pa : Nat) : Way :=
  if w.has (mscTag pa) then (if pa % 128 < 64 then { w with d0 := w.v0 } else { w with d1 := w.v1 }) else w

/-- A sector of the slice marked dirty after a correction (R382). -/
def MemSys.dirtySector (m : MemSys) (pa : Nat) : MemSys :=
  let st := m.msc.getD (mscKey pa) MscSet.empty
  { m with msc := m.msc.put (mscKey pa) ⟨st.ways.map (·.dirtied pa), st.plru⟩ }

/-- Whether the slice holds a sector dirty (R403). -/
def MemSys.isDirty (m : MemSys) (pa : Nat) : Bool :=
  (m.msc.getD (mscKey pa) MscSet.empty).ways.any fun w =>
    w.has (mscTag pa) && (if pa % 128 < 64 then w.v0 && w.d0 else w.v1 && w.d1)

/-- A corrected error counted (R382, R403). -/
def Device.countCorrected (d : Device) (c : Nat) : Device :=
  ({ d with memsys := { d.memsys with ce := d.memsys.ce.upd c 0 (· + 1) } }).diagAdd (c / 2) (0x180 + 4 * (c % 2)) 0 16 1

/-- A slice's contents lost: every line of a region (R404). DESIGN CHOICE: log entry 10. -/
def MemSys.dropSlice (m : MemSys) (region : Nat) : MemSys :=
  { m with msc := m.msc.filter fun e => e.1 / 2048 != region }

end Sys2Proof.Machine
end

