-- ==== Sys2Proof/Machine/PrsOps.lean ====
section
/-! DEFINITION. Place search (R651 to R687): distances, trees, shards, inserts and deletes, the probe order and the merge of
candidates. -/

namespace Sys2Proof.Machine

/-- The hash of R617 and R659. -/
def mapHash (id : Nat) : Nat := id * 0x9E3779B1 % 2 ^ 32

/-- The home die of an ID (R617, R659). -/
def homeDie (id : Nat) : Nat := mapHash id / 2 ^ 29

/-- The distance of two codes (R652). -/
def hamming (a b : List Byte) : Nat :=
  (List.zip a b).foldl (fun n p => n + popcount 8 (Nat.xor p.1.toNat p.2.toNat)) 0

/-- An index of the package (R651). -/
def Device.index (d : Device) (i : Nat) : Option PrsIndex := d.prs.indexes.look i

/-- An index replaced; the free blocks of index 0 show in its counter (R690). -/
def Device.setIndex (d : Device) (i : Nat) (x : PrsIndex) : Device :=
  { d with prs := { d.prs with indexes := d.prs.indexes.put i x } }

/-- A node of a tree. -/
def PrsIndex.node (x : PrsIndex) (n : Nat) : PrsNode := x.nodes.getD n ⟨0xFFFFFFFF, 0, 0, 0, []⟩

/-- Leaves of an index. -/
def PrsIndex.leaves (x : PrsIndex) : Nat :=
  if x.nodes.isEmpty then 1 else (x.nodes.filter fun n => n.nchild == 0).length

/-- The children of a node. -/
def PrsNode.children (n : PrsNode) : List Nat := (List.range n.nchild).map (n.first + ·)

/-- The child nearest a code, the lower node among equals (R667). -/
def PrsIndex.nearest (x : PrsIndex) (code : List Byte) (n : PrsNode) : Nat :=
  (n.children.foldl (fun (best : Option (Nat × Nat)) c =>
    let h := hamming code (x.node c).code
    match best with
    | none => some (h, c)
    | some b => if h < b.1 then some (h, c) else some b) none).elim 0 (·.2)

/-- The leaf a code descends to, from a node with `k` levels left (R667). -/
def PrsIndex.descend (x : PrsIndex) (code : List Byte) : Nat → Nat → Nat
  | 0, n => (x.node n).leaf
  | k + 1, n => if (x.node n).nchild = 0 then (x.node n).leaf else x.descend code k (x.nearest code (x.node n))

/-- The leaf of a code. -/
def PrsIndex.leafOf (x : PrsIndex) (code : List Byte) : Nat := if x.nodes.isEmpty then 0 else x.descend code 9 0

/-- The entries of a shard (R660). -/
def PrsIndex.shard (x : PrsIndex) (leaf die : Nat) : List PrsEntry := x.shards.getD (leaf * 8 + die) []

/-- A shard replaced. -/
def PrsIndex.setShard (x : PrsIndex) (leaf die : Nat) (es : List PrsEntry) : PrsIndex :=
  { x with shards := if es.isEmpty then x.shards.del (leaf * 8 + die) else x.shards.put (leaf * 8 + die) es }

/-- Entries of a block (R661). -/
def PrsIndex.perBlock (x : PrsIndex) : Nat := 4032 / (16 + x.codeBits / 8)

/-- Blocks of a chain of `n` entries. -/
def PrsIndex.blocks (x : PrsIndex) (n : Nat) : Nat := (n + x.perBlock - 1) / x.perBlock

/-- Shards on a die. -/
def PrsIndex.onDie (x : PrsIndex) (die : Nat) : List (Nat × List PrsEntry) := x.shards.filter fun e => e.1 % 8 == die

/-- Free blocks of the pool on a die; none where the pool was lost. -/
def PrsIndex.freeBlocks (x : PrsIndex) (die : Nat) : Nat :=
  if (x.pools.look die).isNone then 0 else
    x.poolMib * 256 - (x.onDie die).foldl (fun n e => n + x.blocks e.2.length) 0

/-- Entries on a die. -/
def PrsIndex.entries (x : PrsIndex) (die : Nat) : Nat := (x.onDie die).foldl (fun n e => n + e.2.length) 0

/-- The counter of free blocks of index 0 on every die (R690). -/
def Device.prsDiag (d : Device) : Device :=
  match d.index 0 with
  | none => d
  | some x => (List.range 8).foldl (fun (d : Device) k => d.diagSet k 0x0E4 0 32 (x.freeBlocks k)) d

/-- Whether an entry is visible at a pin (R665). -/
def PrsEntry.visible (e : PrsEntry) (pin : Nat) : Bool := e.ins ≤ pin && pin < e.del

/-- An entry that an insert appends in the epoch a commit makes (R661, R667); none where the shard has no room. -/
def PrsIndex.append (x : PrsIndex) (leaf die : Nat) (e : PrsEntry) : Option PrsIndex :=
  let es := x.shard leaf die
  if x.blocks es.length < x.blocks (es.length + 1) && x.freeBlocks die = 0 then none
  else if (x.pools.look die).isNone then none
  else some (x.setShard leaf die (es ++ [e]))

/-- Whether an ID is live in a shard, in the state a commit in epoch `e` has reached (R668, R669). -/
def PrsIndex.live (x : PrsIndex) (leaf die id : Nat) : Bool :=
  (x.shard leaf die).any fun e => e.id == id && e.del == 0xFFFFFFFF

/-- The result of an update (R669 to R671, R686): index and its counts. -/
structure Updated where
  x : PrsIndex
  inserted : Nat
  deleted : Nat
  dup : Nat
  absent : Nat
  lost : Nat
  full : Bool

/-- One insert in epoch `ep` (R667, R668, R686). -/
def Updated.insert (u : Updated) (dieOn : BitVec 8) (ep id : Nat) (code : List Byte) : Updated :=
  let die := homeDie id
  let leaf := u.x.leafOf code
  if !dieOn.getLsbD die then { u with lost := u.lost + 1 }
  else if u.x.live leaf die id then { u with dup := u.dup + 1 }
  else match u.x.append leaf die ⟨id, ep, 0xFFFFFFFF, code⟩ with
    | none => { u with full := true }
    | some x => { u with x := x, inserted := u.inserted + 1 }

/-- One delete in epoch `ep` (R669, R686): an entry of the same update goes away, another one is marked. -/
def Updated.delete (u : Updated) (ep id : Nat) (code : List Byte) : Updated :=
  let die := homeDie id
  let leaf := u.x.leafOf code
  let es := u.x.shard leaf die
  match es.find? fun e => e.id == id && e.del == 0xFFFFFFFF with
  | none => { u with absent := u.absent + 1 }
  | some e =>
    if e.ins = ep then
      { u with x := u.x.setShard leaf die (es.filter fun y => y ≠ e), inserted := u.inserted - 1 }
    else
      { u with
        x := u.x.setShard leaf die (es.map fun y => if y = e then { y with del := ep } else y)
        deleted := u.deleted + 1 }

/-- An update begun on an index. -/
def Updated.start (x : PrsIndex) : Updated := ⟨x, 0, 0, 0, 0, 0, false⟩

/-- An update ended: the epoch advances when an item changed (R662). DEDUCED: log entry 35. -/
def Updated.commit (u : Updated) : PrsIndex :=
  if u.inserted + u.deleted = 0 then u.x else { u.x with epoch := u.x.epoch + 1 }

/-! ## Queries -/

/-- Whether one key comes before another. -/
def keyBefore (a b : Nat × Nat) : Bool := a.1 < b.1 || (a.1 == b.1 && a.2 < b.2)

/-- A key put in its place. -/
def keyInsert (k : Nat × Nat) : List (Nat × Nat) → List (Nat × Nat)
  | [] => [k]
  | x :: xs => if keyBefore k x then k :: x :: xs else x :: keyInsert k xs

/-- Nodes pushed on a probe queue of 8,192 (R672): the queue, and whether one was discarded. -/
def pushAll (x : PrsIndex) (code : List Byte) (ns : List Nat) (q : List (Nat × Nat)) : List (Nat × Nat) × Bool :=
  ns.foldl (fun (p : List (Nat × Nat) × Bool) n =>
    let q := keyInsert (hamming code (x.node n).code, n) p.1
    if 8192 < q.length then (q.take 8192, true) else (q, p.2)) (q, false)

/-- The next leaves of the probe order (R672): leaves, queue, overflow. -/
def probeGo (x : PrsIndex) (code : List Byte) : Nat → Nat → List (Nat × Nat) → List Nat → Bool →
    List Nat × List (Nat × Nat) × Bool
  | 0, _, q, got, over_ => (got, q, over_)
  | _, 0, q, got, over_ => (got, q, over_)
  | fuel + 1, budget + 1, q, got, over_ =>
    match q with
    | [] => (got, [], over_)
    | n :: q =>
      let y := x.node n.2
      if y.nchild = 0 then probeGo x code fuel budget q (got ++ [y.leaf]) over_
      else
        let p := pushAll x code y.children q
        probeGo x code fuel (budget + 1) p.1 got (over_ || p.2)

/-- Whether a filter allows an ID (R676). -/
def PrsRun.allows (r : PrsRun) (id : Nat) : Bool :=
  let inside := decide (r.base ≤ id) && decide (id < r.base + r.nbits)
  let b := bit (r.bitmap.getD ((id - r.base) / 8) 0).toNat ((id - r.base) % 8)
  match r.filter with
  | 1 => inside && b
  | 2 => !(inside && b)
  | _ => true

/-- The lowest `k` of two rising lists of keys (R675, R683). -/
def mergeKeys (k : Nat) (a b : List (Nat × Nat)) : List (Nat × Nat) :=
  (b.foldl (fun (xs : List (Nat × Nat)) y => keyInsert y xs) a).take k

/-- What a die sends of a round (R674, R683): its lowest K candidates, candidates, visible entries. -/
def PrsRun.scan (r : PrsRun) (x : PrsIndex) (die : Nat) (leaves : List Nat) : List (Nat × Nat) × Nat × Nat :=
  leaves.foldl (fun (a : List (Nat × Nat) × Nat × Nat) leaf =>
    let vis := (x.shard leaf die).filter fun e => e.visible r.pin
    let ok := vis.filter fun e => r.allows e.id
    (mergeKeys r.k a.1 (ok.map fun e => (hamming r.code e.code, e.id)), a.2.1 + ok.length, a.2.2 + vis.length)) ([], 0, 0)

/-- The next round of a query (R673): its leaves, and the query after the descent. -/
def PrsRun.nextRound (r : PrsRun) (x : PrsIndex) (dies : BitVec 8) : PrsRun :=
  let n := if r.rounds = 0 then r.probes else min r.probes (r.probesMax - r.probed)
  let p : List Nat × List (Nat × Nat) × Bool :=
    if x.nodes.isEmpty || (x.node 0).nchild = 0 then (if r.rounds = 0 then ([0], [], false) else ([], [], false))
    else
      let s := if r.rounds = 0 then pushAll x r.code (x.node 0).children [] else (r.queue, false)
      let g := probeGo x r.code (x.nodes.length + n) n s.1 [] false
      (g.1, g.2.1, s.2 || g.2.2)
  { r with
    queue := p.2.1, qfull := r.qfull || p.2.2, probed := r.probed + p.1.length, rounds := r.rounds + 1
    round := some p.1, waitOn := dies, got := [], gotFound := 0, gotScanned := 0 }

/-- Whether a further round follows (R673). -/
def PrsRun.widens (r : PrsRun) : Bool :=
  r.widen && r.found < r.k && r.probed < r.probesMax && !r.queue.isEmpty

/-- The result record of a query (R675, R678). -/
def PrsRun.record (r : PrsRun) (damaged : Bool) : List Byte :=
  let count := min r.found r.k
  leBytes 4 r.qid ++ leBytes 2 count
    ++ leBytes 1 (b2n (decide (1 < r.rounds)) + 2 * b2n (decide (count < r.k)) + 4 * b2n (decide (r.pin = 0))
      + 8 * b2n damaged + 16 * b2n r.qfull)
    ++ zeros 1 ++ leBytes 4 r.pin ++ leBytes 2 r.probed ++ zeros 2 ++ leBytes 4 (min r.found 0xFFFFFFFF)
    ++ leBytes 4 (min r.scanned 0xFFFFFFFF)
    ++ (List.range r.k).flatMap fun (i : Nat) =>
      let e := if i < count then r.cands.getD i (0xFFFF, 0xFFFFFFFF) else (0xFFFF, 0xFFFFFFFF)
      leBytes 4 e.2 ++ leBytes 2 e.1 ++ zeros 2

/-- The dies that are powered. -/
def Device.powered (d : Device) : List Nat := (List.range 8).filter fun k => d.pwr.dieOn.getLsbD k

/-- A round joins the window of every powered die, which opens if none is open (R682). -/
def Device.sendRound (d : Device) (r : PrsRun) : Device :=
  let p := d.prs
  { d with prs := { p with
    runs := p.runs ++ [r]
    windows := d.powered.foldl (fun t k => if (t.look k).isSome then t else t.put k d.time.now) p.windows
    rounds := d.powered.foldl (fun t k => t.put k (t.getD k [] ++ [(r.job, r.n)])) p.rounds } }

/-- A query replaced. -/
def Device.setRun (d : Device) (r : PrsRun) : Device :=
  { d with prs := { d.prs with runs := d.prs.runs.map fun y => if y.job = r.job && y.n = r.n then r else y } }

/-- The queries of a job go away: its rounds leave the windows (R670). -/
def Device.dropRuns (d : Device) (job : Nat) : Device :=
  { d with prs := { d.prs with
    runs := d.prs.runs.filter fun r => r.job != job
    rounds := d.prs.rounds.mapv fun l => l.filter fun e => e.1 != job } }

/-- The pins of a job are released (R664). -/
def Device.unpinPrs (d : Device) (job : Nat) : Device :=
  { d with prs := { d.prs with pins := d.prs.pins.filter fun p => p.1 != job } }

/-- The pins held on an index (R664). -/
def Device.pinsOn (d : Device) (i : Nat) : List Nat := (d.prs.pins.filter fun p => p.2.1 == i).map (·.2.2)

end Sys2Proof.Machine
end

