-- ==== Sys2Proof/Machine/MapOps.lean ====
section
/-! DEFINITION. Cairn (R614 to R647): IDs and homes, the directory, versions and pins, sessions and root slots, tiles; each
change is part of a commit that advances the generation once. -/

namespace Sys2Proof.Machine

/-- A little-endian field of a record. -/
def recU (b : List Byte) (off n : Nat) : Nat := leNat ((b.drop off).take n)

/-- A record with bytes laid over it. -/
def recSet (b : List Byte) (off : Nat) (bs : List Byte) : List Byte := b.take off ++ bs ++ b.drop (off + bs.length)

/-- The kind of a record (R622). -/
def recKindOf (b : List Byte) : Nat := recU b 4 1

/-- The bucket of an ID within its slice (R617). -/
def mapBucket (id : Nat) : Nat := bits (mapHash id) 16 13

/-- The common header of a record of a kind with its body (R622). -/
def mapRecord (id kind : Nat) (body : List Byte) : List Byte :=
  let size := (16 + body.length + 63) / 64
  fit (64 * size) (leBytes 4 id ++ leBytes 1 kind ++ zeros 1 ++ leBytes 2 size ++ zeros 8 ++ body)

/-- The newest committed version of an object (R629). -/
def Cairn.newest (m : Cairn) (id : Nat) : Option (List Byte) :=
  match m.objs.look id with
  | some (v :: _) => v.body
  | _ => none

/-- The version that a reader pinned at `pin` sees (R630). -/
def Cairn.seen (m : Cairn) (pin id : Nat) : Option (List Byte) :=
  match (m.objs.getD id []).find? fun v => v.gen ≤ pin with
  | some v => v.body
  | none => none

/-- The objects of a kind in their newest version. -/
def Cairn.ofKind (m : Cairn) (kind : Nat) : List (Nat × List Byte) :=
  m.objs.filterMap fun e => match e.2 with
    | v :: _ => v.body.bind fun b => if recKindOf b = kind then some (e.1, b) else none
    | [] => none

/-- Entries in use on a die (R619). -/
def Cairn.entries (m : Cairn) (die : Nat) : Nat := (m.objs.filter fun e => homeDie e.1 == die).length

/-- Pool bytes in use on a die (R619). -/
def Cairn.poolUsed (m : Cairn) (die : Nat) : Nat :=
  m.objs.foldl (fun n e => if homeDie e.1 = die then
    e.2.foldl (fun n v => n + (v.body.map (·.length)).getD 0) n else n) 0

/-- Bytes of a pool (R619), none where the die's pool was lost. -/
def Cairn.poolSize (m : Cairn) (die : Nat) : Nat := if (m.pools.look die).isSome then m.poolMib * 2 ^ 20 else 0

/-- The reserve of a pool (R619). -/
def mapReserve : Nat := 4 * 2 ^ 20

/-- Free pool outside the reserve. -/
def Cairn.poolFree (m : Cairn) (die : Nat) : Nat := m.poolSize die - mapReserve - m.poolUsed die

/-- Whether Cairn is FULL (R620). -/
def Device.mapFull (d : Device) : Bool :=
  d.powered.any fun k => (d.map.pools.look k).isSome && (126976 ≤ d.map.entries k || d.map.poolFree k = 0)

/-- The bucket in which an ID finds a free entry (R618). -/
def Cairn.freeBucket (m : Cairn) (id : Nat) : Option Nat :=
  (((List.range 8).map fun i => homeDie id * 8192 + (mapBucket id + i) % 8192).find? fun b =>
    (m.buckets.filter fun e => e.2 == b).length < 16)

/-- The counters of a die's slice and pool (R648). -/
def Device.mapDiag (d : Device) : Device :=
  (List.range 8).foldl (fun (d : Device) k =>
    (d.diagSet k 0x0C0 0 18 (d.map.entries k)).diagSet k 0x0C4 0 32 (d.map.poolFree k / 65536)) d

/-! ## Commits -/

/-- A change dropped (R620, R631). -/
def Device.mapStale (d : Device) (id : Nat) : Device := d.diagAdd (homeDie id) 0x0C8 0 16 1

/-- The versions of an object with one of generation `g` in front. -/
def putVersion (g : Nat) (b : Option (List Byte)) (vs : List MapVer) : List MapVer :=
  match vs with
  | v :: rest => if v.gen = g then ⟨g, b⟩ :: rest else ⟨g, b⟩ :: v :: rest
  | [] => [⟨g, b⟩]

/-- A record with its GEN (R622). -/
def stamped (g : Nat) (b : List Byte) : List Byte := recSet b 8 (leBytes 4 g)

/-- An object is created in the commit under way (R618 to R620): none when Cairn is FULL, its die is off or without pool, or
its buckets are full. -/
def Device.mapCreate (d : Device) (id : Nat) (b : List Byte) : Option Device :=
  let m := d.map
  if m.full || !d.pwr.dieOn.getLsbD (homeDie id) || (m.pools.look (homeDie id)).isNone then none else
    match (if (m.buckets.look id).isSome then m.buckets.look id else m.freeBucket id) with
    | none => none
    | some k => some { d with map := { m with
        objs := m.objs.put id (putVersion (m.gen + 1) (some (stamped (m.gen + 1) b)) (m.objs.getD id []))
        buckets := m.buckets.put id k } }

/-- An insertion that found no free entry is counted (R618, R648). -/
def Device.countOverflow (d : Device) (id : Nat) : Device :=
  if (d.map.buckets.look id).isNone && (d.map.freeBucket id).isNone then d.diagAdd (homeDie id) 0x0C8 16 16 1 else d

/-- A new version of an object's newest record (R620, R631): dropped where the object is gone or the reserve exhausted. -/
def Device.mapUpdate (d : Device) (id : Nat) (f : List Byte → List Byte) : Device :=
  let m := d.map
  match m.newest id with
  | none => d.mapStale id
  | some b =>
    if m.poolSize (homeDie id) < m.poolUsed (homeDie id) + b.length then d.mapStale id else
      { d with map := { m with
        objs := m.objs.put id (putVersion (m.gen + 1) (some (stamped (m.gen + 1) (f b))) (m.objs.getD id [])) } }

/-- An object is deleted in the commit under way. -/
def Device.mapDelete (d : Device) (id : Nat) : Device :=
  let m := d.map
  if (m.newest id).isNone then d else
    { d with map := { m with objs := m.objs.put id (putVersion (m.gen + 1) none (m.objs.getD id [])) } }

/-- FULL judged anew, with its event (R620). -/
def Device.mapJudge (d : Device) : Device :=
  let f := d.mapFull
  let used := (List.range 8).foldl (fun n k => n + d.map.entries k) 0
  let d := d.mapDiag
  if f = d.map.full then d else
    ({ d with map := { d.map with full := f } }).record 0x0050 0xFF 0 (b2n f) used

/-- The commit ends: the generation advances when it changed an object (R629). -/
def Device.mapCommit (d : Device) : Device :=
  if d.map.objs.any fun e => e.2.any fun v => v.gen == d.map.gen + 1 then
    ({ d with map := { d.map with gen := d.map.gen + 1 } }).mapJudge
  else d

/-- The next ID of the counter (R615), with `k` tries left. -/
def freeMapId (d : Device) : Nat → Nat → Nat
  | 0, id => id
  | k + 1, id =>
    let next := if id = 0xDFFFFFFF then 1 else id + 1
    if (d.map.objs.look id).isSome || !d.pwr.dieOn.getLsbD (homeDie id) then freeMapId d k next else id

/-- An ID is issued (R615). -/
def Device.issueId (d : Device) : Nat × Device :=
  let id := freeMapId d (d.map.objs.length + 4096) d.map.nextId
  (id, { d with map := { d.map with nextId := if id = 0xDFFFFFFF then 1 else id + 1 } })

/-! ## Sessions -/

/-- The record of a session. -/
def Device.session (d : Device) (id : Nat) : Option (List Byte) :=
  (d.map.newest id).bind fun b => if recKindOf b = 1 then some b else none

/-- The root of a session. -/
def Device.rootOf (d : Device) (id : Nat) : Nat := (d.session id).elim id fun b => recU b 20 4

/-- The root slot of a map frame (R633). -/
def Device.slotOf (d : Device) (root : Nat) : Nat := (d.session root).elim 0xFF fun b => recU b 24 1

/-- Whether a session is its own root. -/
def isRoot (b : List Byte) : Bool := recU b 16 4 == 0xFFFFFFFF

/-- Root slots in use (R633): those of roots, and those a MERGE has not yet freed (R640). -/
def Device.rootSlots (d : Device) : List Nat :=
  (((d.map.ofKind 1).filter fun e => isRoot e.2).map fun e => recU e.2 24 1) ++ d.jobs.table.filterMap fun e =>
    match e.2.work with
    | .mapMerge slot _ => if decide (e.2.state = .ended) then none else some slot
    | _ => none

/-- The lowest free root slot, 0xFF without one (R633). -/
def Device.freeRootSlot (d : Device) : Nat := (firstBelow 31 fun s => !d.rootSlots.elem s).getD 0xFF

/-- The session record is changed so that it is closed (R632): DTS_END is the stamp of its last commit. -/
def closeRecord (dts : Nat) (b : List Byte) : List Byte :=
  recSet (recSet b 48 (leBytes 16 dts)) 25 (leBytes 1 (recU b 25 1 / 2 * 2))

/-- The open session is closed in the commit under way (R632). -/
def Device.closeOpen (d : Device) : Device :=
  match d.map.opened with
  | none => d
  | some id =>
    let d := d.mapUpdate id (closeRecord (recU d.loc.committed 16 16))
    { d with map := { d.map with opened := none }, loc := { d.loc with session := none, lastKf := none, landmarks := [] } }

/-- A session body (R623). -/
def sessionBody (parent root slot flags : Nat) (dts : Nat) : List Byte :=
  leBytes 4 parent ++ leBytes 4 root ++ leBytes 1 slot ++ leBytes 1 flags ++ zeros 2 ++ zeros 4 ++ leBytes 16 dts
    ++ zeros 16 ++ leBytes 4 0xFFFFFFFF ++ leBytes 4 0xFFFFFFFF ++ zeros 40

/-- A session is opened in the commit under way (R632, R633): a root, or one linked to `parent`. -/
def Device.openSession (d : Device) (parent : Option Nat) (dts : Nat) : Device :=
  let d := d.closeOpen
  let x := d.issueId
  let d := x.2
  let id := x.1
  let body := match parent with
    | none => sessionBody 0xFFFFFFFF id d.freeRootSlot 1 dts
    | some p => sessionBody p (d.rootOf p) (d.slotOf (d.rootOf p)) 1 dts
  match d.mapCreate id (mapRecord id 1 body) with
  | none => d.countOverflow id
  | some d => { d with map := { d.map with opened := some id }, loc := { d.loc with
      session := some id, lastKf := none, landmarks := [], aligned := false, alignT := Vec3.zero, alignYaw := 0
      fixes := [], rejects := 0, corrections := [] } }

/-- Keyframes leave the place index (R634, R655): part of the same commit. -/
def Device.unindex (d : Device) (kfs : List (List Byte)) : Device :=
  match d.index 0 with
  | none => d
  | some x =>
    let u := kfs.foldl (fun (u : Updated) b =>
      u.delete (x.epoch + 1) (recU b 0 4) ((b.drop 176).take (x.codeBits / 8))) (Updated.start x)
    (d.setIndex 0 u.commit).prsDiag

/-- A session is deleted in the commit under way with all that is its own; its children and its frame are handed on
(R634). The tiles of a frame without a session left go with it (DEDUCED, log entry 27). -/
def Device.deleteSession (d : Device) (id : Nat) : Device :=
  match d.session id with
  | none => d
  | some b =>
    let kfs := (d.map.ofKind 2).filter fun e => recU e.2 16 4 == id
    let kfIds := kfs.map (·.1)
    let gone := kfIds ++ ((d.map.ofKind 3).filter fun e => recU e.2 16 4 == id).map (·.1)
      ++ ((d.map.ofKind 4).filter fun e => kfIds.elem (recU e.2 16 4) || kfIds.elem (recU e.2 20 4)).map (·.1)
    let d := (gone.foldl (fun (d : Device) k => d.mapDelete k) d).unindex (kfs.map (·.2))
    let parent := recU b 16 4
    let frame := (d.map.ofKind 1).filter fun e => e.1 != id && recU e.2 20 4 == recU b 20 4
    let linked := frame.filter fun e => recU e.2 16 4 == id
    let oldest := linked.find? fun e => linked.all fun f => recU e.2 32 16 ≤ recU f.2 32 16
    let heir := if isRoot b then oldest.map (·.1) else none
    let d := frame.foldl (fun (d : Device) (e : Nat × List Byte) => d.mapUpdate e.1 fun s =>
      let s := if recU s 16 4 = id then recSet s 16 (leBytes 4 parent) else s
      match heir with
      | none => s
      | some h =>
        let s := recSet s 20 (leBytes 4 h)
        if e.1 = h then
          recSet (recSet (recSet s 16 (leBytes 4 0xFFFFFFFF)) 24 ((b.drop 24).take 1)) 100 ((b.drop 100).take 2)
        else if recU s 16 4 = 0xFFFFFFFF then recSet s 16 (leBytes 4 h) else s) d
    let tiles := if isRoot b then (d.map.ofKind 5).filter fun e => recU e.2 16 4 == id else []
    let d := tiles.foldl (fun (d : Device) (e : Nat × List Byte) => match heir with
      | none => d.mapDelete e.1
      | some h => d.mapUpdate e.1 fun t => recSet t 16 (leBytes 4 h)) d
    d.mapDelete id

/-! ## Tiles -/

/-- The unknown record (R519). -/
def unknownCell : List Byte := [0x80#8, 0xFF#8, 0#8, 0#8, 0#8, 0x80#8, 0#8, 0#8]

/-- The confidence of a cell record. -/
def cellConf (c : List Byte) : Nat := recU c 3 1

/-- A tile ID (R616). -/
def tileId (slot : Nat) (tx ty : Int) : Nat := 0xE0000000 + slot * 2 ^ 24 + unsigned 12 ty * 2 ^ 12 + unsigned 12 tx

/-- A height in mm rebased by a difference in sQ31.32 m (R494, R636): saturating, 0x8000 kept. -/
def rebase (h : Nat) (diff : Int) : Nat :=
  if h = 0x8000 then h
  else unsigned 16 (clampI (-32767) 32767 (signed 16 h + rne (diff * 1000) (2 ^ 32)))

/-- A new tile (R628, R636). -/
def blankTile (id root cell : Nat) (tx ty : Int) (z : Int) : List Byte :=
  mapRecord id 5 (leBytes 4 root ++ leBytes 2 cell ++ leBytes 2 (unsigned 16 tx) ++ leBytes 2 (unsigned 16 ty) ++ zeros 2
    ++ leBytes 4 0xFFFFFFFF ++ zeros 16 ++ leBytes 8 (unsigned 64 z) ++ zeros 8
    ++ (List.range 4096).flatMap fun _ => unknownCell)

/-- A refused tile write (R633, R635, R647). -/
def Device.tileDrop (d : Device) : Device :=
  { d with map := { d.map with tileDropped := min 0xFFFFFFFF (d.map.tileDropped + 1) } }

/-- Where a tile holds a cell of the frame. -/
def tileOffset (i j : Int) : Nat := 64 + 8 * (64 * (j % 64).toNat + (i % 64).toNat)

/-- A cell of a tile of a frame at a pin; none where there is no tile or it is the unknown record (R637). -/
def Device.tileCell (d : Device) (pin root : Nat) (i j : Int) : Option (List Byte × Int) :=
  let slot := d.slotOf root
  if slot = 0xFF then none else
    match d.map.seen pin (tileId slot (i.fdiv 64) (j.fdiv 64)) with
    | none => none
    | some t =>
      let c := (t.drop (tileOffset i j)).take 8
      if c = unknownCell then none else some (c, signed 64 (recU t 48 8))

/-- A cell that leaves the window is written to its tile in the commit under way (R635, R636). -/
def Device.tileWrite (d : Device) (root session cell : Nat) (dts : Nat) (z : Int) (i j : Int) (c : List Byte) : Device :=
  let slot := d.slotOf root
  let tileCell := (d.session root).elim 0 fun b => recU b 100 2
  let tx := i.fdiv 64
  let ty := j.fdiv 64
  if cellConf c = 0 then d
  else if slot = 0xFF || (tileCell ≠ 0 && tileCell ≠ cell) || tx < -2048 || 2047 < tx || ty < -2048 || 2047 < ty then
    d.tileDrop
  else
    let id := tileId slot tx ty
    if !d.pwr.dieOn.getLsbD (homeDie id) then d.tileDrop else
      let d := if tileCell = 0 then d.mapUpdate root fun b => recSet b 100 (leBytes 2 cell) else d
      let made := match d.map.newest id with
        | some _ => some d
        | none => d.mapCreate id (blankTile id root cell tx ty z)
      match made with
      | none => (d.countOverflow id).tileDrop
      | some d => d.mapUpdate id fun t =>
          let zb := signed 64 (recU t 48 8)
          let rec_ := c.take 4 ++ leBytes 2 (rebase (recU c 4 2) (z - zb)) ++ zeros 2
          recSet (recSet (recSet t (tileOffset i j) rec_) 28 (leBytes 4 session)) 32 (leBytes 16 dts)

/-! ## Pins and reclamation -/

/-- A job is pinned to the current generation (R630). -/
def Device.pinMap (d : Device) (job : Nat) : Device :=
  { d with map := { d.map with pins := (d.map.pins.filter fun p => p.1 != job) ++ [(job, d.map.gen)] } }

/-- A job's pin is released. -/
def Device.unpinMap (d : Device) (job : Nat) : Device :=
  { d with map := { d.map with pins := d.map.pins.filter fun p => p.1 != job } }

/-- The versions of an object that some pin or no newer version keeps (R630), newest first; `next` the generation after. -/
def keepVersions (pins : List Nat) : Option Nat → List MapVer → List MapVer
  | _, [] => []
  | none, v :: vs => v :: keepVersions pins (some v.gen) vs
  | some g, v :: vs =>
    let rest := keepVersions pins (some v.gen) vs
    if pins.any fun p => v.gen ≤ p && p < g then v :: rest else rest

/-- Whether an entry is reclaimed: deleted, and no pin still sees a version. -/
def deadEntry (vs : List MapVer) : Bool :=
  match vs with
  | [v] => v.body.isNone
  | _ => false

/-- Versions and entries that no pin needs go away (R630). -/
def Device.mapReclaim (d : Device) : Device :=
  let m := d.map
  let pins := m.pins.map (·.2)
  let objs := m.objs.map fun e => (e.1, keepVersions pins none e.2)
  let dead := (objs.filter fun e => deadEntry e.2).map (·.1)
  let n := fun (k : Nat) => (m.objs.filter fun e => homeDie e.1 == k).foldl (fun n e =>
    n + e.2.length - ((Tbl.look objs e.1).getD []).length) 0 + (dead.filter fun id => homeDie id == k).length
  let d' := (List.range 8).foldl (fun (d : Device) k => d.diagAdd k 0x0CC 0 32 (n k)) d
  ({ d' with map := { m with
    objs := objs.filter fun e => !dead.elem e.1
    buckets := m.buckets.filter fun e => !dead.elem e.1 } }).mapJudge

/-- Pools of a size in MiB on every powered die (R619, R650): all of them or none. DESIGN CHOICE: log entry 32. -/
def Device.mapPools (d : Device) (mib : Nat) : Option Device :=
  d.powered.foldl (fun (acc : Option Device) k =>
    acc.bind fun d => (d.allocFw 1 k ((mib + 1) / 2)).map fun (id, d) =>
      { d with map := { d.map with pools := d.map.pools.put k id } })
    (some { d with map := { d.map with pools := [], poolMib := mib } })

/-- The pools given back. -/
def Device.freePools (d : Device) : Device :=
  { d.map.pools.foldl (fun (d : Device) e => d.freeBuf e.2) d with
    map := { d.map with pools := [] } }

/-- A die's slice, pool, shards and tree copies are lost (R647, R686). -/
def Device.mapDieDown (d : Device) (die : Nat) : Device :=
  let m := d.map
  let had := d.map.pools.length ≠ 0
  let d := { d with
    map := { m with
      objs := m.objs.filter fun e => homeDie e.1 != die, buckets := m.buckets.filter fun e => homeDie e.1 != die
      pools := m.pools.del die, damaged := m.damaged || had }
    prs := { d.prs with indexes := d.prs.indexes.mapv fun x => { x with
      shards := x.shards.filter fun e => e.1 % 8 != die, pools := x.pools.del die, copies := x.copies.del die
      damaged := true } } }
  (d.mapJudge).prsDiag

end Sys2Proof.Machine
end

