-- ==== Sys2Proof/Machine/OutOps.lean ====
section
/-! DEFINITION. Transmit ports and routes as other chapters use them (R697 to R703): messages formed, queued, replaced and
dropped. -/

namespace Sys2Proof.Machine

/-- Whether a trained item is down (R113): NO_PARTNER or FAIL. -/
def Device.itemDown (d : Device) (item : Nat) : Bool :=
  let st := d.boot.train.getD item 0
  st == 4 || st == 5

/-- Whether a transmit port can be used: trained, its die powered, with its reference (R75, R113, R703). -/
def Device.txUp (d : Device) (p : Nat) : Bool :=
  d.pwr.dieOn.getLsbD p && !d.itemDown (42 + p) && d.pwr.ref38.getLsbD p

/-- A transmit port. -/
def Device.tx (d : Device) (p : Nat) : TxPort := d.out.ports.getD p TxPort.reset

/-- A transmit port replaced. -/
def Device.setTx (d : Device) (p : Nat) (x : TxPort) : Device := { d with out := { d.out with ports := d.out.ports.put p x } }

/-- The key of a route. -/
def routeKey (dt p : Nat) : Nat := dt * 256 + p

/-- A route. -/
def Device.route_ (d : Device) (dt p : Nat) : Route := d.out.routes.getD (routeKey dt p) Route.reset

/-- A route replaced. -/
def Device.setRoute (d : Device) (dt p : Nat) (r : Route) : Device :=
  { d with out := { d.out with routes := d.out.routes.put (routeKey dt p) r } }

/-- A saturating count by data type. -/
def bump (t : Tbl Nat) (dt : Nat) : Tbl Nat := t.put dt (min 0xFFFFFFFF (t.getD dt 0 + 1))

/-- A message is dropped: counted in DROPPED, its type marked, its producer's transfer FAILED (R695, R700, R703). -/
def Device.dropMsg (d : Device) (p : Nat) (m : OutMsg) : Device :=
  let x := d.tx p
  (d.setTx p { x with dropped := bump x.dropped m.dt, marks := insertNat m.dt x.marks }).finishOpt m.handle stFailed []

/-- A port goes down (R703): a part on the wire completes when OUT_PORT disables the port (`cut` false) and is cut
otherwise; everything else is dropped. Packets sent whole count. -/
def Device.txDown (d : Device) (p : Nat) (cut : Bool) : Device :=
  let x := d.tx p
  let d := d.setTx p { x with queue := [], enabled := x.enabled && cut }
  let d := x.queue.foldl (fun (d : Device) m => d.dropMsg p m) d
  match x.wire with
  | none => d
  | some w =>
    if !cut then d else
      let whole := if w.endAt ≤ w.startAt then w.lines
        else min w.lines (w.lines * (d.time.now - w.startAt) / (w.endAt - w.startAt))
      let y := d.tx p
      let d := d.setTx p { y with wire := none, bytes := (y.bytes + whole * w.lineBytes) % 2 ^ 64 }
      if w.last then
        let y := d.tx p
        (d.setTx p { y with dropped := bump y.dropped w.dt, marks := insertNat w.dt y.marks }).finishOpt w.handle stFailed []
      else d

/-- Whether a message has started: a part of it has left or is on the wire. -/
def OutMsg.started (m : OutMsg) : Bool := 0 < m.part

/-- A message joins its port's queue (R700, R701, R703): a full queue drops its oldest message that has not started, a
newer layer or disparity message replaces the one waiting. -/
def Device.enqueueMsg (d : Device) (p : Nat) (m : OutMsg) : Device :=
  if !((d.tx p).enabled && d.txUp p) then d.dropMsg p m else
    let x := d.tx p
    let same := x.queue.filter fun y => y.dt == m.dt
    let victim :=
      if m.dt = 0x31 || m.dt = 0x32 then same.find? fun y => !y.started
      else if (m.dt = 0x30 || m.dt = 0x34 || m.dt = 0x35) && 64 ≤ same.length then same.find? fun y => !y.started
      else none
    let d := match victim with
      | none => d
      | some v => (d.setTx p { x with queue := x.queue.erase v }).dropMsg p v
    let x := d.tx p
    d.setTx p { x with queue := x.queue ++ [m] }

/-- A message of one routed type formed for one port: its number is used up (R695). -/
def Device.formOn (d : Device) (p dt : Nat) (dts : BitVec 128) (body : List Byte) (segs : List (Nat × Nat × Nat)) : Device :=
  let r := d.route_ dt p
  if !r.on then d else
    (d.setRoute dt p { r with seq := (r.seq + 1) % 2 ^ 32 }).enqueueMsg p
      ⟨dt, r.vc, r.seq, dts, body, segs, none, 0, 0, false, 0, false⟩

/-- A message formed for every port its type is routed to (R697, R698). -/
def Device.form (d : Device) (dt : Nat) (dts : BitVec 128) (body : List Byte) (segs : List (Nat × Nat × Nat)) : Device :=
  (List.range 2).foldl (fun (d : Device) p => d.formOn p dt dts body segs) d

/-- Whether a port is transmitting a ring slot: a message that reads it has started (R701). -/
def Device.slotSending (d : Device) (buf : Nat) : Bool :=
  (List.range 2).any fun p => (d.tx p).queue.any fun m => m.started && m.segs.any fun g => g.1 == buf

/-- A commit takes a ring slot (R701): waiting messages that would read it are dropped and counted in OVERRUN. -/
def Device.takeSlot (d : Device) (buf : Nat) : Device :=
  (List.range 2).foldl (fun (d : Device) p =>
    let x := d.tx p
    let gone := x.queue.filter fun m => !m.started && (m.dt == 0x31 || m.dt == 0x32) && m.segs.any fun g => g.1 == buf
    d.setTx p { x with
      queue := x.queue.filter fun m => !gone.elem m
      overrun := gone.foldl (fun t m => bump t m.dt) x.overrun
      marks := gone.foldl (fun l m => insertNat m.dt l) x.marks }) d

/-- The oldest slot of a ring that no port is transmitting (R701): from position `at_` on. -/
def Device.freeSlotOf (d : Device) (ring : List Nat) (at_ : Nat) : Nat :=
  ((List.range ring.length).find? fun i => !d.slotSending (ring.getD ((at_ + i) % ring.length) 0)).elim at_
    fun i => (at_ + i) % max 1 ring.length

end Sys2Proof.Machine
end

