-- ==== Sys2Proof/Machine/JobOps.lean ====
section
/-! DEFINITION. Jobs (R50 to R58, R712 to R749): admission and numbering, placement of parts, grants and deferral,
release, faults and restart. -/

namespace Sys2Proof.Machine

/-- A new job's fields before it is admitted. -/
def Job.blank (cls : JobClass) (work : JobWork) : Job where
  cls := cls
  state := .waiting
  work := work
  handle := none
  order := 0
  restarts := 0
  restartMax := 2
  total := 0
  waitMs := 100
  cause := 0
  parts := []
  grants := []
  dies := 0
  ready := 0
  admitted := 0
  admitAt := 0
  runAt := 0
  sticky := 0
  privileged := false
  failing := false
  lost := false
  deadline := none
  late := false
  sched := []
  schedPos := 0
  frames := []
  arg := []
  image := []
  ids := []

/-- Class numbers of R50 and R749. -/
def JobClass.code (c : JobClass) : Nat :=
  match c with
  | .tick => 0
  | .loop => 1
  | .user => 2
  | .map => 3
  | .test => 4

/-- State numbers of JOB_STATUS (R749). -/
def JobState.code (c : JobState) : Nat :=
  match c with
  | .waiting => 0
  | .loading => 1
  | .running => 2
  | .restarting => 3
  | .committing => 4
  | .ended => 5

/-- How many jobs are active (R53). -/
def Jobs.activeCount (j : Jobs) : Nat := (j.table.filter fun e => e.2.active).length

/-- The next job ID from `id` that no job of the table holds, 0x0000 and 0xFFFF skipped (R52). -/
def freeJobId (t : Tbl Job) : Nat → Nat → Nat
  | 0, id => id
  | k + 1, id =>
    if id = 0 || id = 0xFFFF || (t.look id).isSome then freeJobId t k ((id + 1) % 65536) else id

/-- A job is admitted (R52, R53): it waits to be placed. None when 64 are active. -/
def Device.admitJob (d : Device) (j : Job) : Option (Nat × Device) :=
  if 64 ≤ d.jobs.activeCount then none else
    let id := freeJobId d.jobs.table (d.jobs.table.length + 3) d.jobs.nextId
    let j := { j with state := .waiting, order := d.jobs.nextOrder, admitted := d.stamp, admitAt := d.time.now }
    some (id, { d with jobs := { d.jobs with
      table := d.jobs.table.put id j, nextId := (id + 1) % 65536, nextOrder := d.jobs.nextOrder + 1 } })

/-- A job of the table. -/
def Device.job (d : Device) (id : Nat) : Option Job := d.jobs.table.look id

/-- A job replaced. -/
def Device.setJob (d : Device) (id : Nat) (j : Job) : Device :=
  { d with jobs := { d.jobs with table := d.jobs.table.put id j } }

/-! ## Placement -/

/-- A cluster of the device. -/
def Device.cluster (d : Device) (c : Nat) : Cluster := d.clusters.getD c Cluster.reset

/-- A cluster changed. -/
def Device.updCluster (d : Device) (c : Nat) (f : Cluster → Cluster) : Device :=
  { d with clusters := d.clusters.upd c Cluster.reset f }

/-- A physical unit of the device. -/
def Device.unit (d : Device) (p : Nat) : CUnit := d.units.getD p CUnit.reset

/-- A physical unit changed. -/
def Device.updUnit (d : Device) (p : Nat) (f : CUnit → CUnit) : Device :=
  { d with units := d.units.upd p CUnit.reset f }

/-- The tags a unit holds are given up, in its cluster's count too (R364). -/
def Device.dropTags (d : Device) (p : Nat) : Device :=
  let n := (d.unit p).tags
  (d.updCluster (p / 17) fun k => { k with held := k.held - n }).updUnit p fun u => { u with tags := 0 }

/-- The physical unit of a slot (R24). -/
def Device.slotPhys (d : Device) (c l : Nat) : Option Nat := (d.view.slotUnit c l).map (c * 17 + ·)

/-- A slot no job holds and no profile reserves (R54, R714). -/
def Device.slotFree (d : Device) (c l : Nat) : Bool :=
  (d.slotPhys c l).isSome && ((d.cluster c).slots.look l).isNone && !d.jobs.profile.reserved.elem (c, l)

/-- Whether a cluster takes part in planning: its domain is on and its die is not withdrawn (R44, R736, R757). -/
def Device.planned (d : Device) (c : Nat) : Bool :=
  d.domainOn (c / 8) (c % 8) && !d.pwr.withdrawn.getLsbD (c / 8)

/-- The free slots, blocks and groups of a cluster (R28, R714). -/
def Device.freeSlots (d : Device) (c : Nat) : List Nat := (List.range 16).filter (d.slotFree c)
def Device.freeBlocks (d : Device) (c : Nat) : List Nat :=
  (List.range 64).filter fun b => ((d.cluster c).blocks.look b).isNone
def Device.freeGroups (d : Device) (c : Nat) : List Nat :=
  (List.range 32).filter fun g => ((d.cluster c).groups.look g).isNone

/-- Whether a die mask permits a cluster; mask 0 permits any (R742). -/
def maskPermits (mask : BitVec 8) (c : Nat) : Bool := mask = 0 || mask.getLsbD (c / 8)

/-- The lowest cluster that can take a part now, clusters of earlier parts left out (R714). -/
def Device.findCluster (d : Device) (used : List Nat) (p : Part) : Option Nat :=
  firstBelow 64 fun c => maskPermits p.dieMask c && d.planned c && !used.elem c
    && p.units ≤ (d.freeSlots c).length && p.blocks ≤ (d.freeBlocks c).length && p.groups ≤ (d.freeGroups c).length

/-- The lowest cluster that could take a part with every other job ended (R715). -/
def Device.couldCluster (d : Device) (used : List Nat) (p : Part) : Option Nat :=
  firstBelow 64 fun c => maskPermits p.dieMask c && d.planned c && !used.elem c
    && p.units ≤ countBelow 16 fun l => (d.slotPhys c l).isSome && !d.jobs.profile.reserved.elem (c, l)

/-- A part laid on a cluster: the lowest free slots, blocks and groups. -/
def Device.layPart (d : Device) (c : Nat) (p : Part) : Part :=
  let ss := (d.freeSlots c).take p.units
  { p with cluster := some c, slots := ss, phys := ss.filterMap (d.slotPhys c),
           blockList := (d.freeBlocks c).take p.blocks, groupList := (d.freeGroups c).take p.groups,
           segment := 0, loaded := 0 }

/-- A part whose cluster and units a profile's load chose takes its blocks and groups there, once they are free (R714,
R747). -/
def Device.landPart (d : Device) (c : Nat) (p : Part) : Option Part :=
  if !p.blockList.isEmpty || p.blocks = 0 then some p
  else if p.blocks ≤ (d.freeBlocks c).length && p.groups ≤ (d.freeGroups c).length then
    some { p with blockList := (d.freeBlocks c).take p.blocks, groupList := (d.freeGroups c).take p.groups }
  else none

/-- All parts in ascending order, each on a cluster of its own (R714); those that have one keep it. -/
def Device.planParts (d : Device) : List Nat → List Part → Option (List Part)
  | _, [] => some []
  | used, p :: ps =>
    match p.cluster with
    | some c =>
      match d.landPart c p with
      | some p => (d.planParts (c :: used) ps).map (p :: ·)
      | none => none
    | none =>
      match d.findCluster used p with
      | none => none
      | some c => (d.planParts (c :: used) ps).map (d.layPart c p :: ·)

/-- Whether some placement exists with every other job ended (R715). -/
def Device.couldPlan (d : Device) : List Nat → List Part → Bool
  | _, [] => true
  | used, p :: ps =>
    match d.couldCluster used p with
    | none => false
    | some c => d.couldPlan (c :: used) ps

/-- Units, blocks and groups of one part assigned to a job; groups zeroed, sticky flags cleared (R359, R373). Also R21. -/
def Device.assignPart (d : Device) (job : Nat) (p : Part) : Device :=
  match p.cluster with
  | none => d
  | some c =>
    let d := d.updCluster c fun k => { k with
      slots := p.slots.foldl (fun t l => t.put l job) k.slots
      blocks := p.blockList.foldl (fun t b => t.put b job) k.blocks
      groups := p.groupList.foldl (fun t g => t.put g job) k.groups
      flags := k.flags.filter fun e => !p.groupList.elem (e.1 / 32) }
    p.phys.foldl (fun d u => d.updUnit u fun x =>
      if x.state = .defective then x else { CUnit.reset with
        state := .loading, job := job, active := x.active, stalls := x.stalls, ecc := x.ecc, misses := x.misses,
        lastSeq := x.lastSeq }) d

/-- A part's resources given back (R712, R373). -/
def Device.releasePart (d : Device) (p : Part) : Device :=
  match p.cluster with
  | none => d
  | some c =>
    let d := d.updCluster c fun k => { k with
      slots := k.slots.filter fun e => !p.slots.elem e.1
      blocks := k.blocks.filter fun e => !p.blockList.elem e.1
      groups := k.groups.filter fun e => !p.groupList.elem e.1 }
    p.phys.foldl (fun d u => (d.dropTags u).updUnit u fun x =>
      if x.state = .defective then x else { x with state := .idle, job := 0, signals := [], loops := [] }) d

/-- Whether a part's cluster can still be used: planned with, and no unit of the part marked defective (R731). -/
def Device.usablePart (d : Device) (p : Part) : Bool :=
  match p.cluster with
  | none => false
  | some c => d.planned c && p.phys.all fun u => !d.view.isBad u

/-- The device as a job is planned on it: dies with a time base fault take no part in TICK and LOOP jobs (R736), and a
TICK job may take what its profile reserves (R54). -/
def Device.planView (d : Device) (j : Job) : Device :=
  let late := j.cls = .tick || j.cls = .loop
  { d with
    pwr := if late then { d.pwr with withdrawn := d.pwr.withdrawn ||| d.pwr.tickWithdrawn } else d.pwr
    jobs := if j.cls = .tick then { d.jobs with profile := { d.jobs.profile with reserved := [] } } else d.jobs }

/-- The parts of a job planned: those whose clusters can still be used keep them, the others are placed (R714, R731). -/
def Device.planJob (d : Device) (j : Job) : Option (List Part) :=
  let v := d.planView j
  let v := (j.parts.filter fun p => !v.usablePart p).foldl (fun v p => v.releasePart p) v
  let ps := j.parts.map fun p => if v.usablePart p then p else { p with cluster := none }
  v.planParts (ps.filterMap (·.cluster)) ps

/-- The slots some parts lie on. -/
def partSlots (ps : List Part) : List (Nat × Nat) :=
  ps.flatMap fun p => match p.cluster with
    | some c => p.slots.map (c, ·)
    | none => []

/-- A profile's part as it is kept between TICK jobs: its cluster and units, without blocks and groups. -/
def Part.kept (p : Part) : Part := { p with blockList := [], groupList := [], segment := 0, loaded := 0 }

/-- The units of a TICK job's parts are those its profile reserves (R54); a part that had to move stays where it is. -/
def Device.reserve (d : Device) (j : Job) (ps : List Part) : Device :=
  if j.cls = .tick && !j.ids.isEmpty then
    let all := (j.ids.zip ps).foldl (fun l x => l.set x.1
      { x.2.kept with loadOff := (l.getD x.1 x.2).loadOff, nload := (l.getD x.1 x.2).nload }) d.jobs.profile.parts
    { d with jobs := { d.jobs with profile := { d.jobs.profile with parts := all, reserved := partSlots all } } }
  else d

/-- The engines a job's plan needs, as die and engine code (R448, R485). -/
def Device.enginesOf (d : Device) (j : Job) : List (Nat × Nat) :=
  match j.work with
  | .ste p _ _ _ => [(p, 0)]
  | .fte s _ _ => [(s / 2, 1)]
  | .slv die _ => [(die, 2)]
  | .tick => if bit d.jobs.profile.flags 0 then [(d.loc.cfg.pair, 2)] else []
  | .loop _ | .reloc => [(d.loc.loop.die.getD d.loc.cfg.pair, 2)]
  | .calRefine _ => [(d.lead, 2)]
  | _ => []

/-- Whether the engines of a job can be planned with. -/
def Device.enginesPlan (d : Device) (j : Job) : Bool :=
  (d.enginesOf j).all fun e => d.engineUp e.1 e.2
    && (!(decide (j.cls = .tick) || decide (j.cls = .loop)) || d.tickDie e.1)

/-- The domain a self-test slice works in, by kind × 8 + target and index; none for a cache slice. -/
def sliceDomain (t index : Nat) : Option Nat :=
  match t with
  | 0 | 8 => some (index / 17 % 8)
  | 1 => some (index % 8)
  | 3 | 9 | 10 => some 8
  | 4 | 11 => some 9
  | 5 | 12 | 13 => some 10
  | _ => none

/-- Where a job's work lies: die and domain (codes of R738). A TICK job works in the vision domains of its profile's pairs
and streams; searches and map jobs in the search and map domain of every die. -/
def Device.domainsOf (d : Device) (j : Job) : List (Nat × Nat) :=
  let engines := (d.enginesOf j).map fun e => (e.1, if e.2 < 2 then 8 else 9)
  let more : List (Nat × Nat) := match j.work with
    | .tick => d.jobs.profile.uses.filterMap fun u =>
        if u.1 = 2 then some (u.2, 8) else if u.1 = 0 && u.2 < 16 then some (u.2 / 2, 8) else none
    | .loop _ | .reloc | .mapLoad | .mapExport | .mapMerge _ _ | .prsTree _ | .prsUpdate _ | .prsQuery _
    | .prsCompact _ => (List.range 8).map (·, 10)
    | .slice die t index => ((sliceDomain t index).map (die, ·)).toList
    | _ => []
  j.parts.filterMap (fun p => p.cluster.map fun c => (c / 8, c % 8)) ++ engines ++ more

/-- Whether a domain a job works in is being switched on or reset: the job waits for it (R738, R754). -/
def Device.domainWait (d : Device) (j : Job) : Bool :=
  (d.domainsOf j).any fun x => d.pwr.resetting.any fun r => r.1 == x.1 * 16 + x.2

/-- The dies a job's parts lie on. -/
def partDies (ps : List Part) : BitVec 8 :=
  ps.foldl (fun m p => match p.cluster with | some c => m ||| BitVec.twoPow 8 (c / 8) | none => m) 0

/-! ## Grants and deferral -/

/-- Two accesses to one buffer conflict unless both only read (R394). -/
def conflicts (a b : List Grant) : Bool :=
  a.any fun x => b.any fun y => x.buf == y.buf && (x.access != 0 || y.access != 0)

/-- Whether one waiting job comes before another: class, then admission order (R51, R715). -/
def Job.before (a b : Job) : Bool :=
  a.cls.code < b.cls.code || (a.cls.code == b.cls.code && a.order < b.order)

/-- Whether a waiting job's buffers are held in conflict, or named in conflict by a job admitted before it that still
waits (R394, R716). -/
def Device.deferred (d : Device) (id : Nat) (j : Job) : Bool :=
  d.jobs.table.any fun e => e.1 != id && conflicts e.2.grants j.grants
    && (e.2.holds || (decide (e.2.state = .waiting) && e.2.order < j.order))

/-- Privileged jobs that hold one of the four places (R409); an active profile's privileged TICK job holds one. -/
def Device.privilegedHeld (d : Device) : Nat :=
  (d.jobs.table.filter fun e => e.2.privileged && e.2.holds).length

/-- Whether another TICK job is in progress: one runs and one waits (R58). -/
def Device.tickAhead (d : Device) (j : Job) : Bool :=
  decide (j.cls = .tick) && d.jobs.table.any fun e => decide (e.2.cls = .tick) && e.2.holds

/-- Why a waiting job waits: 0 nothing, 1 units, 2 buffer conflict, 3 privileged place, 4 engine (R749). -/
def Device.waitReason (d : Device) (id : Nat) (j : Job) : Nat :=
  if j.state ≠ .waiting then 0
  else if d.deferred id j then 2
  else if j.privileged && 4 ≤ d.privilegedHeld then 3
  else if d.tickAhead j || (d.planJob j).isNone then 1
  else if d.domainWait j then 4
  else 0

/-- Whether a waiting job could be placed now. -/
def Device.startable (d : Device) (id : Nat) (j : Job) : Bool :=
  decide (j.state = .waiting) && d.waitReason id j == 0

/-! ## Snapshots -/

/-- Copies of a job's INOUT buffers: into the snapshots, or back over the whole buffer (R718). -/
def snapCopy (back : Bool) : List Grant → Device × Store → Device × Store
  | [], x => x
  | g :: gs, (d, m) =>
    if g.access = 2 then
      match d.buf g.buf, d.buf g.snap with
      | some b, some k =>
        let x := if back then fwWrite g.buf 0 (m.bufBytes k 0 b.size) d m
                 else fwWrite g.snap 0 (m.bufBytes b 0 b.size) d m
        snapCopy back gs x
      | _, _ => snapCopy back gs (d, m)
    else snapCopy back gs (d, m)

/-- Snapshot buffers allocated for INOUT grants, same size and placement (R718). -/
def allocSnaps : List Grant → Device → Option (List Grant × Device)
  | [], d => some ([], d)
  | g :: gs, d =>
    if g.access = 2 then
      match d.buf g.buf with
      | none => none
      | some b =>
        match d.allocFw b.placement b.target b.pitches.length with
        | none => none
        | some (id, d) => (allocSnaps gs d).map fun (l, d) => ({ g with snap := id } :: l, d)
    else (allocSnaps gs d).map fun (l, d) => (g :: l, d)

/-! ## End and release -/

/-- The result of an image job (R749). -/
def Job.result (j : Job) (id error index : Nat) (commit : BitVec 128) (runUs : Nat) : List Byte :=
  leBytes 1 error ++ zeros 3 ++ leBytes 4 index ++ leBytes 2 id ++ leBytes 1 (min 255 j.total) ++ leBytes 1 j.cause
    ++ leBytes 1 j.sticky ++ zeros 3 ++ leBytes 16 commit.toNat ++ leBytes 4 runUs

/-- The sticky flags of a job's units, ORed (R340). -/
def Device.jobSticky (d : Device) (j : Job) : Nat :=
  j.parts.foldl (fun n p => p.phys.foldl (fun n u => Nat.lor n (d.unit u).sticky) n) j.sticky

/-- The engine operations of a job and their pending copies are discarded (R473, R670, R712, R730). -/
def Device.dropOps (d : Device) (id : Nat) : Device :=
  ({ d with
    vis := { d.vis with
      ste := d.vis.ste.filter fun o => o.job != id, steOn := d.vis.steOn.filter fun e => e.2 != id
      fte := d.vis.fte.filter fun o => o.job != id, fteOn := d.vis.fteOn.filter fun e => e.2 != id }
    slv := { d.slv with ops := d.slv.ops.filter fun o => o.job != id } }).dropRuns id

/-- Whether a TICK, LOOP or relocalisation job is active. -/
def Device.profileBusy (d : Device) : Bool :=
  d.jobs.table.any fun e => e.2.active && (decide (e.2.cls = .tick) || decide (e.2.cls = .loop))

/-- The firmware buffers of a profile given back: its own, the rings of its pairs and of the grid, and the tensors
(R443, R496, R519, R748). -/
def Device.freeProfile (d : Device) : Device :=
  let p := d.jobs.profile
  let rings := d.vis.pairs.foldl (fun l e => l ++ e.2.ring) (d.grid.ring ++ d.grid.tensors.map (·.2))
  let d := (p.bufs ++ p.code.toList ++ rings).foldl (fun (d : Device) b => d.freeBuf b) d
  { d with
    vis := { d.vis with pairs := d.vis.pairs.mapv fun x => { x with ring := [] } }
    grid := { d.grid with ring := [], tensors := [] } }

/-- A PROFILE_UNLOAD completes once no job of the profile is active (R748): the session is closed, the profile's buffers,
units and objects are free. -/
def Device.unloadDone (d : Device) : Device :=
  let p := d.jobs.profile
  if p.state ≠ .unloading || d.profileBusy then d else
    let d := if d.map.opened.isSome then d.closeOpen.mapCommit else d
    let d := d.freeProfile
    { d with jobs := { d.jobs with profile := { Profile.reset with waiting := p.waiting, commitAt := p.commitAt } } }
      |>.finishOpt p.handle stOk []

/-- A job ends (R712): its resources are given back, its handle completes with the status and result, and it stays
listed as ENDED until its ring entry is read (R749); a job of firmware is dropped. -/
def Device.endJob (d : Device) (id status : Nat) (result : List Byte) : Device :=
  match d.job id with
  | none => d
  | some j =>
    if !j.active then d else
      let sticky := d.jobSticky j
      let d := j.parts.foldl (fun d p => d.releasePart p) ((d.dropOps id).unpinMap id |>.unpinPrs id)
      let d := j.grants.foldl (fun d g => if g.access = 2 then d.freeBuf g.snap else d) d
      let d := match j.handle with
        | some h => { d.setJob id { j with state := .ended, sticky := sticky } with
            jobs := { (d.setJob id { j with state := .ended, sticky := sticky }).jobs with
              unread := (id, h) :: d.jobs.unread } }
        | none => { d with jobs := { d.jobs with table := d.jobs.table.del id } }
      (d.finishOpt j.handle status result).unloadDone

/-- The result a job ends with when it gives none of its own. -/
def Device.plainResult (d : Device) (id : Nat) (j : Job) (commit : BitVec 128) : List Byte :=
  match j.work with
  | .image => { j with sticky := d.jobSticky j }.result id 0 0 commit ((d.time.now - j.runAt) / (1000 * oneNs))
  | _ => []

/-! ## Faults and restart (R727 to R733) -/

/-- Causes 0x01 to 0x0A count against RESTART_MAX (R727). -/
def counted (cause : Nat) : Bool := 1 ≤ cause && cause ≤ 0x0A

/-- Whether a job is granted a LOST buffer (R732); a TICK job may lack the buffer of a source that is off. -/
def Device.grantsLost (d : Device) (j : Job) : Bool :=
  j.grants.any fun g => match d.buf g.buf with
    | some b => b.lost
    | none => !(j.cls = .tick && g.buf = 0)

/-- The units of a job stop and drain their tags (R364, R373). -/
def Device.stopUnits (d : Device) (j : Job) : Device :=
  j.parts.foldl (fun d p => p.phys.foldl (fun d u => (d.dropTags u).updUnit u fun x =>
    match x.state with
    | .defective => x
    | .idle => x
    | _ => { x with state := .faulted, signals := [] }) d) d

/-- The broadcast packets of a job leave the ports (R712). -/
def Device.dropPackets (d : Device) (id : Nat) : Device :=
  { d with clusters := d.clusters.mapv fun c => { c with packets := c.packets.filter fun p => p.job != id } }

/-- A fault of a job: logged; the first one stops every part and decides whether the job restarts or fails, later
ones until it reloads are merged (R712, R728, R729, R734). -/
def Device.jobFault (d : Device) (id cause source die index : Nat) (addr : Option Nat) (detail : Nat) : Device :=
  match d.job id with
  | none => d
  | some j =>
    let d := d.diagAdd die 0x0FC 0 16 1
    match j.state with
    | .loading | .running =>
      let failing := counted cause && j.restartMax ≤ j.restarts
      let lost := d.grantsLost j
      let n := if counted cause && !failing then j.restarts + 1 else j.restarts
      let outcome := if lost then 2 else if failing then 1 else 0
      let d := ((d.stopUnits j).dropOps id).dropPackets id
      (d.setJob id { j with
        state := .restarting, cause := cause, restarts := n, failing := failing, lost := lost }).faultEntry
        id cause n outcome source die index addr detail
    | .restarting => d.faultEntry id cause j.restarts 4 source die index addr detail
    | _ => d

/-- The drained job starts again from its first packet: INOUT buffers restored, flag groups zeroed (R730). -/
def Device.reload (d : Device) (id : Nat) (j : Job) (ps : List Part) : Device :=
  let j := { j with state := .loading, parts := ps.map fun p => { p with segment := 0, loaded := 0 },
                    dies := partDies ps, ready := 0, total := j.total + 1, schedPos := 0,
                    sticky := 0 }
  let d := ps.foldl (fun d p => d.assignPart id p) (d.setJob id j)
  d.event 0x0020 2 0 id (j.cause + 256 * min 255 j.restarts)

/-- A job that fails, is aborted or has no plan ends with its event (R704, R712). -/
def Device.failJob (d : Device) (id status : Nat) (j : Job) : Device :=
  (d.endJob id status (d.plainResult id j 0)).event 0x0021 2 0 id j.cause

/-- A drained job is restarted, re-planned or ended (R712, R728, R731, R732, R733): INOUT buffers restored first. It waits
for a domain that is being reset, and for a plan that some other job's resources keep from it. -/
def restartJob (id : Nat) (d : Device) (m : Store) : Device × Store :=
  match d.job id with
  | none => (d, m)
  | some j =>
    if j.state ≠ .restarting then (d, m)
    else if j.lost || d.grantsLost j then (d.failJob id stAborted j, m)
    else
      let (d, m) := snapCopy true j.grants (d, m)
      if j.failing then (d.failJob id stFailed j, m)
      else if d.domainWait j then (d, m)
      else if !d.enginesPlan j || !(d.planView j).couldPlan [] j.parts then (d.failJob id stNoResource j, m)
      else
        match d.planJob j with
        | none => (d, m)
        | some ps =>
          let d := (j.parts.filter fun p => !(d.planView j).usablePart p).foldl (fun d p => d.releasePart p) d
          ((d.reserve j ps).reload id j ps, m)

/-- A job that HANDLE_CANCEL names is stopped (R712, R733). -/
def cancelJob (id : Nat) (d : Device) (m : Store) : Device × Store :=
  match d.job id with
  | none => (d, m)
  | some j =>
    match j.state with
    | .waiting => (d.endJob id stCancelled (d.plainResult id j 0), m)
    | .loading | .running | .restarting =>
      let d := (d.stopUnits j).dropPackets id
      let (d, m) := snapCopy true j.grants (d, m)
      (d.endJob id stCancelled (d.plainResult id j 0), m)
    | _ => (d, m)

/-- The job that a handle belongs to. -/
def Device.jobOf (d : Device) (h : Nat) : Option Nat :=
  (d.jobs.table.find? fun e => e.2.handle == some h && e.2.active).map (·.1)

/-- A waiting job is placed (R712, R714, R715): units, blocks, groups and grants assigned, INOUT snapshots taken. A job that
names a LOST buffer ends NO_RESOURCE (R396), as does one whose engines or parts cannot be planned with. -/
def placeJob (id : Nat) (d : Device) (m : Store) : Device × Store :=
  match d.job id with
  | none => (d, m)
  | some j =>
    if j.state ≠ .waiting || j.cls = .test then (d, m)
    else if d.grantsLost j || (!d.domainWait j && (!d.enginesPlan j || !(d.planView j).couldPlan [] j.parts)) then
      (d.failJob id stNoResource j, m)
    else if !d.startable id j || d.jobs.table.any (fun e => e.2.before j && d.startable e.1 e.2) then (d, m)
    else
      match d.planJob j with
      | none => (d, m)
      | some ps =>
        let (d, m) := snapCopy false j.grants (d, m)
        let j := { j with state := .loading, parts := ps, dies := j.dies ||| partDies ps }
        (ps.foldl (fun d p => d.assignPart id p) ((d.setJob id j).reserve j ps), m)

/-- A job of an engine command or of firmware (R712): admitted, with its handle; NO_RESOURCE when 64 are active (R53)
or 256 handles count. -/
def admitCmd (r : Request) (ch : Nat) (d : Device) (j : Job) : Device × Reply :=
  match d.mbx.newHandle ch r.op with
  | none => (d, ans stNoResource)
  | some (h, mb) =>
    match { d with mbx := mb }.admitJob { j with handle := some h } with
    | none => (d, ans stNoResource)
    | some (_, d) => (d, ⟨stAccepted, false, leBytes 4 h, true, some h⟩)

end Sys2Proof.Machine
end

