-- ==== Sys2Proof/Machine/LocOps.lean ====
section
/-! DEFINITION. Localisation and the pose propagator as other chapters use them: the state and its changes (R579, R580), and
the integration of IMU samples (R570 to R574). -/

namespace Sys2Proof.Machine

/-! ## Localisation state -/

/-- Codes of R579. -/
def LocState.code (s : LocState) : Nat :=
  match s with
  | .cold => 0
  | .init => 1
  | .tracking => 2
  | .degraded => 3
  | .lost => 4
  | .relocalised => 5

/-- Whether the state estimates in a map frame. -/
def LocState.estimating (s : LocState) : Bool := s = .tracking || s = .degraded || s = .relocalised

/-- The localisation state changes (R579): EVT_CAUSE.LOCALISATION, its event, the moment of the change. -/
def Device.locTo (d : Device) (s : LocState) : Device :=
  let l := d.loc
  if l.state = s then d else
    ({ d with loc := { l with
      state := s, prev := l.state, entered := d.stamp, enteredAt := d.time.now, relocCommits := 0, lostTicks := 0
      degradedRun := 0, fewRun := 0, initRun := 0
      lost := if s = LocState.lost then min 0xFFFFFFFF (l.lost + 1) else l.lost
      conf := if s.estimating then l.conf else 0 } }).event 0x0010 5 0 s.code l.state.code

/-- The window and the collected data are cleared (R580). -/
def Device.locClear (d : Device) : Device :=
  { d with loc := { d.loc with
    window := [], gravity := [], accepted := none, fix := [], fixes := [], aligned := false, match_ := none
    corrections := [], slowFrom := none, landmarks := [], lastKf := none }
           slv := { d.slv with pp := { d.slv.pp with anchor := none, cur := none } } }

/-- Localisation returns to COLD (R580); the open session is closed in a commit of its own (R632). -/
def Device.locCold (d : Device) : Device :=
  let d := d.locClear
  let d := if d.map.opened.isSome then d.closeOpen.mapCommit else d
  d.locTo .cold

/-- Whether the active profile runs localisation (R745): object class 11. -/
def Device.locRuns (d : Device) : Bool :=
  decide (d.jobs.profile.state ≠ .none) && d.jobs.profile.uses.elem (11, 0)

/-- LOST (R580): the window is cleared and anchoring stops; GNSS alignment is lost (R599). -/
def Device.locLost (d : Device) : Device :=
  ({ d with loc := { d.loc with window := [], aligned := false, fixes := [], fix := [], match_ := none } }).locTo .lost

/-! ## Integration -/

/-- A vector of rates and of forces in the body (R577): IMU axes rotated, in 32 fraction bits. -/
def PoseProp.toBody (p : PoseProp) (v : Vec3) : Vec3 := (p.qbi.rescale 30 62).rot v

/-- A rate of a sample in sQ31.32, bias taken off, in the body. -/
def PoseProp.rateOf (p : PoseProp) (g bg : Vec3) : Vec3 := p.toBody ((g.map (· * 256)).sub bg)

/-- A length of time of 2^-16 ns and a rate in sQ31.32: a half angle with 128 fraction bits. -/
def halfAngle (w : Vec3) (dt : Nat) : Vec3 := w.map fun v => rne (v * dt * 2 ^ 79) (10 ^ 9)

/-- A rate in sQ31.32 over a time of 2^-16 ns. -/
def overTime (v : Vec3) (dt : Nat) : Vec3 := v.map fun x => rne (x * dt) oneS

/-- The product of two sQ31.32 vectors, crossed. -/
def crossFx (a b : Vec3) : Vec3 := (a.cross b).map fun v => rne v (2 ^ 32)

/-- The motion after `dt` at a mean rate and force, bias taken off, both in the body in sQ31.32, with the change of the rate
in that time (R571): midpoint orientation, lever arm of the IMU taken out, gravity downwards.
DESIGN CHOICE: log entry 26. -/
def PoseProp.move (p : PoseProp) (s : WinState) (w dw a : Vec3) (dt : Nat) : WinState :=
  let lever := p.tbi.map (· * 65536)
  let alpha := if dt = 0 then Vec3.zero else dw.map fun v => rne (v * oneS) dt
  let a := (a.sub (crossFx alpha lever)).sub (crossFx w (crossFx w lever))
  let qm := (s.pose.q.mul (Quat.exp (halfAngle (w.map fun v => rne v 2) dt))).unit
  let f := (qm.rot a).sub ⟨0, 0, (p.gravity : Int) * 256⟩
  let t := (s.pose.t.add (overTime s.v dt)).add (f.map fun v => rne (v * dt * dt) (2 * oneS * oneS))
  { s with at_ := s.at_ + dt, pose := ⟨(s.pose.q.mul (Quat.exp (halfAngle w dt))).unit, t⟩, v := s.v.add (overTime f dt) }

/-- The mean of two vectors. -/
def meanVec (a b : Vec3) : Vec3 := (a.add b).map fun v => rne v 2

/-- The motion carried from one sample to the next by the midpoint rule (R571). DESIGN CHOICE: log entry 26. -/
def PoseProp.between (p : PoseProp) (s : WinState) (a b : ImuSample) : WinState :=
  let wa := p.rateOf a.g s.bg
  let wb := p.rateOf b.g s.bg
  let f := fun (x : ImuSample) => p.toBody ((x.a.map (· * 1024)).sub s.ba)
  p.move s (meanVec wa wb) (wb.sub wa) (meanVec (f a) (f b)) (b.at_ - s.at_)

/-- The motion extrapolated to a moment at one sample's rates. -/
def PoseProp.extrapolate (p : PoseProp) (s : WinState) (x : ImuSample) (at_ : Nat) : WinState :=
  p.move s (p.rateOf x.g s.bg) Vec3.zero (p.toBody ((x.a.map (· * 1024)).sub s.ba)) (at_ - s.at_)

/-- The motion of an anchor carried through the kept samples after it (R572). -/
def PoseProp.replay (p : PoseProp) : List ImuSample → WinState → WinState
  | a :: b :: xs, s => p.replay (b :: xs) (if s.at_ < b.at_ then p.between s a b else s)
  | _, s => s

/-- The last whole millisecond before a moment. -/
def msBefore (m : Nat) : Nat := (m - 1) / oneMs * oneMs

/-- A sample reaches the propagator (R571, R573): the motion moves on to it; after 200 ms without a sample it takes up the
pose it held. -/
def PoseProp.take (p : PoseProp) (x : ImuSample) : PoseProp :=
  let cur := match p.cur, p.samples.getLast? with
    | some s, some y =>
      if y.at_ + 200 * oneMs < x.at_ then
        some { p.extrapolate s y (max s.at_ (msBefore (y.at_ + 200 * oneMs + 1))) with at_ := x.at_ }
      else if s.at_ < x.at_ then some (p.between s y x) else some s
    | some s, none => some { s with at_ := max s.at_ x.at_ }
    | none, _ => none
  { p with
    cur := cur, samples := (p.samples ++ [x]).drop (p.samples.length + 1 - 16384), sampleAt := x.at_
    rate := p.rateOf x.g ((cur.map (·.bg)).getD Vec3.zero) }

/-- The motion at a moment, and whether the propagator holds it for want of samples. -/
def PoseProp.motionAt (p : PoseProp) (at_ : Nat) : Option WinState :=
  match p.cur with
  | none => none
  | some s =>
    match p.samples.getLast? with
    | none => some s
    | some x =>
      let lim := if x.at_ + 200 * oneMs < at_ then msBefore (x.at_ + 200 * oneMs + 1) else at_
      if s.at_ < lim then some (p.extrapolate s x lim) else some s

/-- A new anchor (R572): the kept samples from its stamp to the present are integrated. -/
def PoseProp.anchorAt (p : PoseProp) (a : Anchor) : PoseProp :=
  let s : WinState := ⟨a.at_, a.pose, a.v, a.bg, a.ba⟩
  { p with anchor := some a, cur := some (p.replay p.samples s), anchored := true }

/-- The propagator starts with the profile (R570). -/
def Device.ppStart (d : Device) : Device :=
  let p := d.slv.pp
  { d with slv := { d.slv with pp := { p with
    anchor := none, samples := [], ring := [], seq := 0, lastMs := none, anchored := false, stepped := false
    extrapolated := false, cur := none, rate := Vec3.zero, sampleAt := d.time.ns16 } } }

/-- A step of device time (R574): the history goes, the pose at the step moved by it is the new anchor. -/
def Device.ppStep (d : Device) (size : Int) : Device :=
  let p := d.slv.pp
  let now := ((d.time.ns16 : Int) - size).toNat
  let mv := fun (m : Nat) => ((m : Int) + size).toNat
  let cur := (p.motionAt now).map fun s => { s with at_ := mv now }
  { d with slv := { d.slv with pp := { p with
    samples := [], cur := cur, sampleAt := mv p.sampleAt, stepped := true
    lastMs := none
    anchor := match p.anchor, cur with
      | some a, some s => some { a with pose := s.pose, v := s.v, at_ := s.at_ }
      | a, _ => a } } }

/-- An IMU sample is offered to the propagator and, in INIT, to the gravity estimate (R571, R584). -/
def Device.imuSample (d : Device) (stream : Nat) (at_ : Nat) (g a : Vec3) : Device :=
  if d.locRuns && stream = d.slv.pp.imu then
    let x : ImuSample := ⟨at_, g, a⟩
    let l := d.loc
    { d with
      slv := { d.slv with pp := d.slv.pp.take x }
      loc := if l.state = .init && l.accepted.isNone then { l with gravity := l.gravity ++ [x] } else l }
  else d

end Sys2Proof.Machine
end

