-- ==== Sys2Proof/Machine/Settings.lean ====
section
/-! DEFINITION. Commands that configure an object: the rule that an object the active profile uses is not changed
(R746), and what Profile 0 permits (R135). -/

namespace Sys2Proof.Machine

/-- A configuring command: its opcode, which row of R135 permits it under Profile 0 (0 none, 1 returns localisation to
COLD, 2 leaves it), the objects it changes as class and index, and its effect. -/
structure Setting where
  op : Nat
  row : Nat
  objs : Request → Device → List (Nat × Nat)
  body : Request → Device → Store → (Device × Store) × Reply

/-- An effect on the device alone. -/
def devBody (f : Request → Device → Device × Reply) (r : Request) (d : Device) (m : Store) : (Device × Store) × Reply :=
  let x := f r d
  ((x.1, m), x.2)

/-- Whether the profile uses one of some objects. -/
def Device.profileUses (d : Device) (objs : List (Nat × Nat)) : Bool :=
  decide (d.jobs.profile.state ≠ .none) && objs.any fun o => d.jobs.profile.uses.elem o

/-- Whether a TICK job is in progress (R135). -/
def Device.tickBusy (d : Device) : Bool :=
  d.jobs.table.any fun e => decide (e.2.cls = .tick) && e.2.active && decide (e.2.state ≠ .waiting)

/-- What a configuring command comes to: its effect and answer, or none while it waits (R135). -/
def Setting.outcome (t : Setting) (r : Request) (d : Device) (m : Store) : Option ((Device × Store) × Reply) :=
  if d.profileUses (t.objs r d) then
    if !d.jobs.profile.zero || t.row = 0 then some ((d, m), ans stBadState)
    else if t.row = 2 then some (t.body r d m)
    else if d.tickBusy then none
    else
      let x := t.body r d m
      some (if x.2.status = stOk then ((x.1.1.locCold, x.1.2), x.2) else x)
  else some (t.body r d m)

/-- A configuring command of a channel. -/
def configure (t : Setting) (ch : Fin 8) (s : State) : Host.Outcome State Fault Refusal :=
  match s.dev.awaiting ch.val t.op with
  | none => .next s
  | some r =>
    match t.outcome r s.dev s.mem with
    | some x => .next { s with dev := x.1.1.answer ch.val r x.2, mem := x.1.2 }
    | none =>
      let p := s.dev.jobs.profile
      .next { s with dev := { s.dev with jobs := { s.dev.jobs with
        profile := { p with waiting := insertNat ch.val p.waiting } } } }

end Sys2Proof.Machine
end

