-- ==== Sys2Proof/Machine/TimeOps.lean ====
section
/-! DEFINITION. Device time and what is timed by it (R182 to R226): the servo and its sources, steps, PPS, trigger
schedules, latency compensation and the ordinary clock's view of its ports. -/

namespace Sys2Proof.Machine

/-! ## Quality and source -/

/-- The error class of a bound in 2^-16 ns (R188). -/
def classOf (b : Nat) : Nat :=
  if b ≤ 25 * oneNs then 1 else if b ≤ 100 * oneNs then 2 else if b ≤ 1000 * oneNs then 3
  else if b ≤ 10000 * oneNs then 4 else if b ≤ 100000 * oneNs then 5 else if b ≤ 1000000 * oneNs then 6 else 7

/-- The servo's estimate (R189): the largest magnitude of the last 16 offset samples plus 2 ns. -/
def TimeBase.estimate (t : TimeBase) : Nat := t.samples.foldl (fun n o => max n o.natAbs) 0 + 2 * oneNs

/-- Codes of TIME_STATE.SERVO. -/
def Servo.code (s : Servo) : Nat :=
  match s with
  | .free => 0
  | .acquire => 1
  | .locked => 2
  | .holdover => 3

/-- TIME is raised: EVT_CAUSE.TIME and event 0x0030 (R193). -/
def Device.timeEvent (d : Device) : Device :=
  let t := d.time
  d.event 0x0030 10 0 (t.source + t.quality * 16 + t.servo.code * 256) t.steps

/-- The time base changed; TIME is raised when asked for, and at every change of source or quality (R193). -/
def Device.retime (d : Device) (raise : Bool) (f : TimeBase → TimeBase) : Device :=
  let t := f d.time
  let d' := { d with time := t }
  if raise || t.source ≠ d.time.source || t.quality ≠ d.time.quality then d'.timeEvent else d'

/-- The die of an Ethernet port (R72). -/
def ethDie (p : Nat) : Nat := p / 2

/-- A PTP port of the device. -/
def Device.ptp (d : Device) (p : Nat) : PtpPort := d.tim.ptp.getD p PtpPort.reset

/-- A PTP port changed. -/
def Device.updPtp (d : Device) (p : Nat) (f : PtpPort → PtpPort) : Device :=
  { d with tim := { d.tim with ptp := d.tim.ptp.upd p PtpPort.reset f } }

/-- Whether the ordinary clock takes part on a port (R215, R217). -/
def PtpPort.takesPart (p : PtpPort) : Bool :=
  p.role == 1 || p.role == 4 || ((p.role == 2 || p.role == 3) && p.ocSlave)

/-- The clockClass the device announces (R216). PRESUMED: log entry 45. -/
def TimeBase.clockClass (t : TimeBase) : Nat :=
  if t.source = 4 && t.ppsTraceable then (if t.servo = .holdover then 7 else 6) else 248

/-- The rank of the device's own clock on a port: priority 1, class, accuracy and variance unknown, priority 2.
PRESUMED: log entry 45. -/
def Device.ownRank (d : Device) (p : Nat) : Nat :=
  (d.ptp p).priority1 * 2 ^ 40 + d.time.clockClass * 2 ^ 32 + 0xFE * 2 ^ 24 + 0xFFFF * 256 + (d.ptp p).priority2

/-- The master a port could follow: heard twice, on a powered port that takes part, and better than the device itself
where the port may be master. -/
def Device.candidate (d : Device) (p : Nat) : Option Foreign :=
  let q := d.ptp p
  match q.foreign with
  | some f =>
    if d.pwr.dieOn.getLsbD (ethDie p) && q.takesPart && 2 ≤ f.announces
        && ((q.role != 1 && q.role != 4) || f.rank < d.ownRank p) then some f else none
  | none => none

/-- The port with the best master of all (R215), the lowest port among equals. -/
def Device.masterPort (d : Device) : Option Nat :=
  let cs := (List.range 4).filterMap fun p => (d.candidate p).map fun f => (p, f)
  (cs.find? fun x => cs.all fun y => x.2.rank < y.2.rank || (x.2.rank == y.2.rank && (x.2.gm.toNat < y.2.gm.toNat
    || (x.2.gm == y.2.gm && x.1 ≤ y.1)))).map (·.1)

/-- The source MODE selects now, with its port (R192): 0 none, 2 PTP, 3 gPTP, 4 PPS. -/
def Device.selected (d : Device) : Nat × Nat :=
  let ptp := d.masterPort.map fun p => (if (d.candidate p).any (·.gptp) then 3 else 2, p)
  match d.time.mode with
  | 0 => ptp.getD (if d.tim.pps.qualified && d.time.everSet then (4, 0) else (0, 0))
  | 1 => ptp.getD (0, 0)
  | 2 => if d.tim.pps.qualified then (4, 0) else (0, 0)
  | _ => (0, 0)

/-- ACQUIRE on a source: measuring starts afresh. -/
def TimeBase.acquire (t : TimeBase) (src port : Nat) (gm : BitVec 64) : TimeBase :=
  { t with
    servo := .acquire, following := src, slavePort := port, gm := gm, samples := [], goodRun := 0, badRun := 0,
    hold := false }

/-- HOLDOVER: the addend is held and bit 11 set (R193, R198). -/
def TimeBase.holdover (t : TimeBase) : TimeBase :=
  { t with
    servo := .holdover, following := 0, gm := 0, hold := true, holdAt := t.now, holdBound := t.estimate
    samples := [], goodRun := 0, badRun := 0 }

/-- The ordinary clock begins to follow the source `s`: its port becomes UNCALIBRATED, others that were slave
listen. -/
def Device.follow (d : Device) (raise : Bool) (s : Nat × Nat) : Device :=
  let gm := if s.1 = 4 then 0 else ((d.candidate s.2).map (·.gm)).getD 0
  let d := d.retime raise fun t => t.acquire s.1 s.2 gm
  let t := (List.range 4).foldl (fun t p =>
    let q := t.getD p PtpPort.reset
    if s.1 ≠ 4 && p = s.2 then t.put p { q with portState := 8 }
    else if q.portState = 8 || q.portState = 9 then t.put p { q with portState := 4 }
    else t) d.tim.ptp
  { d with tim := { d.tim with ptp := t } }

/-- The servo acts on a change of what is available or selected (R193). `config` marks a TIME_CONFIG, under which a
holdover continues. -/
def Device.select (d : Device) (config : Bool) : Device :=
  let s := d.selected
  match d.time.servo with
  | .free => if s.1 = 0 then d else d.follow false s
  | .holdover => if s.1 = 0 || config then d else d.follow false s
  | .acquire | .locked =>
    let same := s.1 = d.time.following && (s.1 = 4 || s.1 = 0
      || (s.2 = d.time.slavePort && ((d.candidate s.2).map (·.gm)).getD 0 == d.time.gm))
    if s.1 = 0 then d.retime true fun t => t.holdover
    else if same then d
    else d.follow (decide (d.time.servo = .locked) || s.1 ≠ d.time.following) s

/-! ## Steps and samples -/

/-- A step is decided (R195): it replaces a pending one, whose 100 ms bound runs on. Also R133. -/
def TimeBase.decide_ (t : TimeBase) (size : Int) (bySet : Bool) : TimeBase :=
  { t with step := some ⟨size, (match t.step with | some p => p.firstAt | none => t.now), bySet⟩ }

/-- The addend after one turn of the servo's law, whose gains the spec does not give: free within ±500 ppm (R183, R197). -/
def Device.slew (d : Device) : Device :=
  ({ d with time := { d.time with addend := 2 ^ 33 - 4294967 + (d.freeWord 10).toNat % 8589935 } }).tickFree

/-- One offset sample, device minus source, in 2^-16 ns (R189, R193, R194, R197). -/
def Device.sample (d : Device) (off : Int) : Device :=
  let t := d.time
  let big := t.stepThresh * oneNs < off.natAbs
  let t' := { t with
    lastOffset := off
    samples := (t.samples ++ [off]).drop (t.samples.length + 1 - 16)
    goodRun := if off.natAbs < 100 * oneNs then t.goodRun + 1 else 0
    badRun := if big then t.badRun + 1 else 0 }
  match t.servo with
  | .acquire => if big then { d with time := t'.decide_ (-off) false } else ({ d with time := t' }).slew
  | .locked => (d.retime false fun _ => { t' with cls := classOf t'.estimate }).slew
  | _ => { d with time := { t with lastOffset := off } }

/-- The moment of device time moved by a step, in 2^-16 ns. -/
def moveNat (x : Nat) (s : Int) : Nat := ((x : Int) + s).toNat

/-- A trigger schedule moved by a step (R196). -/
def Group.shift (g : Group) (s : Int) : Group :=
  { g with
    start := moveNat g.start s
    change := g.change.map fun c => match c with
      | .restart a p => .restart (moveNat a s) p
      | .stop a => .stop (moveNat a s) }

/-- Schedules, pulses and PPS moved by a step, so that they keep their elapsed times (R196, R203). -/
def Timing.shift (t : Timing) (s : Int) : Timing :=
  { t with
    groups := t.groups.mapv (·.shift s)
    outs := t.outs.mapv fun o => { o with pulses := o.pulses.map fun p => (moveNat p.1 s, moveNat p.2 s) }
    pps := { t.pps with outFall := moveNat t.pps.outFall s, lastQual := t.pps.lastQual.map (· + s) } }

/-- The time base after a step of size `s` (R196): a time that TIME_SET set ends source 0 (R187). -/
def TimeBase.stepped (t : TimeBase) (p : PendingStep) : TimeBase :=
  { t with
    dt := ((t.dt : Int) + p.size * 65536).toNat
    step := none
    steps := min (t.steps + 1) 0xFFFFFFFF
    everSet := true
    source := if p.bySet && t.source = 0 then 1 else t.source }

/-- Device time steps: time, schedules, TIME_STEPS and EVT_CAUSE.TIME (R196). -/
def Device.stepTime (d : Device) (p : PendingStep) : Device :=
  let d := d.retime false fun t => t.stepped p
  (({ d with tim := d.tim.shift p.size }).setCause 10).select false

/-! ## Compensation (R211, R212) -/

/-- Key of a compensation record. -/
def compKey (kind index : Nat) : Nat := kind * 256 + index

/-- The record of a port. -/
def Device.comp (d : Device) (kind index : Nat) : Comp := d.tim.comp.getD (compKey kind index) Comp.reset

/-! ## Trigger schedules -/

/-- A trigger group of the device. -/
def Device.group (d : Device) (g : Nat) : Group := d.tim.groups.getD g Group.reset

/-- A timing output of the device. -/
def Device.tout (d : Device) (o : Nat) : TimingOut := d.tim.outs.getD o TimingOut.reset

/-- A timing output replaced. -/
def Device.setOut (d : Device) (o : Nat) (t : TimingOut) : Device :=
  { d with tim := { d.tim with outs := d.tim.outs.put o t } }

/-- The edge of a schedule at index `k`. -/
def Group.edge (g : Group) (k : Nat) : Nat := g.start + k * g.period

/-- The first edge of a running schedule at or after a moment, not counting edges that fell. -/
def Group.firstAfter (g : Group) (m : Nat) : Nat :=
  if m ≤ g.edge g.k || g.period = 0 then g.edge g.k
  else g.start + (m - g.start + g.period - 1) / g.period * g.period

/-- A moment rounded to the 0.25 ns output grid by RNE (R205). -/
def gridNs (m : Nat) : Nat := (rne m 16384).toNat * 16384

/-- The pulse of an output at an edge (R205). -/
def OutCfg.pulse (c : OutCfg) (e : Nat) : Nat × Nat :=
  let s := gridNs (e + c.offset)
  (s, s + c.width)

/-- Whether an output's settings fit a period (R206). -/
def OutCfg.fits (c : OutCfg) (period : Nat) : Bool :=
  c.width + 100 * oneNs ≤ period && c.offset + c.width + 100 * oneNs ≤ period

/-- Whether a die drives its timing outputs: powered and without a time base fault (R210, R736). -/
def Device.drives (d : Device) (die : Nat) : Bool := d.pwr.dieOn.getLsbD die && !d.evt.faultTb.getLsbD die

/-- The next edge of a group: the device at the edge and its moment, or the device after a stop took effect (R205,
R207). None when the group does not run. -/
def Device.nextEdge (d : Device) (g : Nat) : Option (Device × Option Nat) :=
  let x := d.group g
  if !x.running then none else
    let put := fun (d : Device) (x : Group) => { d with tim := { d.tim with groups := d.tim.groups.put g x } }
    let due := x.edge x.k
    match x.change with
    | some (.stop a) => if a ≤ due then some (put d { x with running := false, change := none }, none)
      else some ((put d { x with k := x.k + 1 }).advanceToDev due, some due)
    | some (.restart s p) => if s ≤ due then
        some ((put d { x with start := s, period := p, k := 1, change := none }).advanceToDev s, some s)
      else some ((put d { x with k := x.k + 1 }).advanceToDev due, some due)
    | none => some ((put d { x with k := x.k + 1 }).advanceToDev due, some due)

/-- The outputs of a group at an edge: waiting settings are taken, pulses begin (R205, R208). -/
def Device.drive (d : Device) (g e : Nat) : Device :=
  (List.range 16).foldl (fun d o =>
    let t := d.tout o
    let t := match t.next with
      | some c => if c.group = g then { t with cfg := some c, next := none } else t
      | none => t
    match t.cfg with
    | some c => if c.group = g && d.drives (o / 2) then d.setOut o { t with pulses := t.pulses ++ [c.pulse e] }
      else d.setOut o t
    | none => d.setOut o t) d

/-- The most recent pulse start of an output before a moment that lies within one period of it, from the group's
schedule as it stands, which ends where a stopped group's last edge fell (R207, R212). -/
def Device.pulseBefore (d : Device) (o m : Nat) : Option Nat :=
  match (d.tout o).cfg with
  | none => none
  | some c =>
    let x := d.group c.group
    if !x.hasPeriod || x.period = 0 then none else
      let first := (c.pulse x.start).1
      if m < first then none else
        let k := (m - first) / x.period + 1
        let cand := (List.range 3).filterMap fun i =>
          if i ≤ k && (x.running || k - i < x.k) then
            let s := (c.pulse (x.edge (k - i))).1
            if s ≤ m && m - s ≤ x.period then some s else none
          else none
        cand.head?

end Sys2Proof.Machine
end

