-- ==== Sys2Proof/Machine/IngestOps.lean ====
section
/-! DEFINITION. What ingest shares: streams and their states (R229 to R233), buffers and rings (R239, R268), fields of
received data (R250), and ports' availability (R75, R113). -/

namespace Sys2Proof.Machine

/-! ## Streams -/

/-- Stream IDs of this chapter (R229): 0 to 29 and 128 to 135. -/
def isStream (s : Nat) : Bool := s < 30 || (128 ≤ s && s < 136)

/-- A stream of the device. -/
def Device.stream (d : Device) (s : Nat) : Stream := d.ing.streams.getD s Stream.reset

/-- A stream changed. -/
def Device.updStream (d : Device) (s : Nat) (f : Stream → Stream) : Device :=
  { d with ing := { d.ing with streams := d.ing.streams.upd s Stream.reset f } }

/-- A receive port of the device. -/
def Device.csi (d : Device) (p : Nat) : CsiPort := d.ing.csi.getD p CsiPort.reset

/-- A receive port replaced. -/
def Device.setCsi (d : Device) (p : Nat) (c : CsiPort) : Device :=
  { d with ing := { d.ing with csi := d.ing.csi.put p c } }

/-- A pair of the device. -/
def Device.pair (d : Device) (p : Nat) : Pair := d.ing.pairs.getD p Pair.reset

/-- A pair replaced. -/
def Device.setPair (d : Device) (p : Nat) (x : Pair) : Device :=
  { d with ing := { d.ing with pairs := d.ing.pairs.put p x } }

/-- An Ethernet port of the device. -/
def Device.eth (d : Device) (p : Nat) : EthPort := d.ing.eth.getD p EthPort.reset

/-- An Ethernet port changed. -/
def Device.updEth (d : Device) (p : Nat) (f : EthPort → EthPort) : Device :=
  { d with ing := { d.ing with eth := d.ing.eth.upd p EthPort.reset f } }

/-- A lidar stream 16 to 23 of the device. -/
def Device.lidar (d : Device) (s : Nat) : Lidar := d.ing.lidar.getD s Lidar.reset

/-- A lidar stream replaced. -/
def Device.setLidar (d : Device) (s : Nat) (l : Lidar) : Device :=
  { d with ing := { d.ing with lidar := d.ing.lidar.put s l } }

/-- An IMU port, an encoder and a CAN controller of the device. -/
def Device.imu (d : Device) (p : Nat) : ImuPort := d.ing.imu.getD p ImuPort.reset
def Device.setImu (d : Device) (p : Nat) (x : ImuPort) : Device :=
  { d with ing := { d.ing with imu := d.ing.imu.put p x } }
def Device.enc (d : Device) (p : Nat) : Encoder := d.ing.enc.getD p Encoder.reset
def Device.setEnc (d : Device) (p : Nat) (x : Encoder) : Device :=
  { d with ing := { d.ing with enc := d.ing.enc.put p x } }
def Device.can (d : Device) (p : Nat) : CanCtrl := d.ing.can.getD p CanCtrl.reset
def Device.setCan (d : Device) (p : Nat) (x : CanCtrl) : Device :=
  { d with ing := { d.ing with can := d.ing.can.put p x } }

/-- Whether a receive port is up (R75, R113, R753). -/
def Device.csiUp (d : Device) (p : Nat) : Bool := 
  d.pwr.dieOn.getLsbD (p / 2) && !d.itemDown (26 + p) && d.pwr.ref38.getLsbD (p / 2)

/-- Whether an Ethernet port is up (R75, R113, R753). -/
def Device.ethUp (d : Device) (p : Nat) : Bool := 
  d.pwr.dieOn.getLsbD (ethDie p) && !d.itemDown (44 + p) && d.pwr.ref156

/-- The die whose memory a stream's records are in (R229): for lidar, that of its lowest port. Also R39. -/
def Device.streamDie (d : Device) (s : Nat) : Nat :=
  if s < 16 then s / 2
  else if s < 24 then (if (d.lidar s).ports % 4 ≠ 0 then 0 else 1)
  else if s < 28 then 2 * (s - 24)
  else if s < 30 then 0
  else s - 128

/-- Whether a stream's die and port are up. -/
def Device.streamUp (d : Device) (s : Nat) : Bool :=
  if s < 16 then d.csiUp s
  else if s < 24 && (d.lidar s).ports % 16 ≠ 0 then (List.range 4).any fun p => bit (d.lidar s).ports p && d.ethUp p
  else d.pwr.dieOn.getLsbD (d.streamDie s)

/-- State codes of STREAM_STATUS. -/
def StreamState.code (s : StreamState) : Nat :=
  match s with
  | .off => 0
  | .waitFirst => 1
  | .active => 2
  | .dropout => 3

/-- A change of state that raises SENSOR (R230): event 0x0001. -/
def Device.streamTo (d : Device) (s : Nat) (st : StreamState) : Device :=
  let old := (d.stream s).state
  (d.updStream s fun x => { x with state := st }).event 0x0001 6 s st.code old.code

/-- PERIOD of a camera, in 2^-16 ns: that of STREAM_CONFIG, or of its LINK output's group (R232, R277). -/
def Device.cameraPeriod (d : Device) (s : Nat) : Nat :=
  let p := (d.stream s).period
  if p ≠ 0 then p * 1000 * oneNs else
    match (d.tout (d.comp 0 s).link).cfg with
    | some c => (d.group c.group).period
    | none => 0

/-- TIMEOUT of a stream in 2^-16 ns, 0 when none can be formed (R232). -/
def Device.streamTimeout (d : Device) (s : Nat) : Nat :=
  let t := (d.stream s).timeout
  if t ≠ 0 then t * 1000 * oneNs
  else if s < 16 then 3 * d.cameraPeriod s
  else if s < 24 then 2 * (d.lidar s).sweepPeriod * 1000 * oneNs
  else if s < 28 then 10 * oneS / max 1 (d.imu (s - 24)).rate
  else 200 * oneMs

/-- RECOVER of a stream (R232). -/
def Device.streamRecover (d : Device) (s : Nat) : Nat :=
  let r := (d.stream s).recover
  if r ≠ 0 then r else if s < 16 then 3 else if s < 24 then 1 else if s < 28 then 20 else 5

/-- One sample received and judged (R230, R231). STREAM_RECOVER takes a stream out of DROPOUT. -/
def Device.judge (d : Device) (s : Nat) (usable : Bool) : Device :=
  let d := d.updStream s fun x => { x with
    samples := min (x.samples + 1) 0xFFFFFFFF
    unusable := if usable then x.unusable else min (x.unusable + 1) 0xFFFFFFFF }
  match (d.stream s).state with
  | .off => d
  | .waitFirst =>
    if usable then (d.updStream s fun x => { x with timerAt := d.time.now }).streamTo s .active else d
  | .active => if usable then d.updStream s fun x => { x with timerAt := d.time.now } else d
  | .dropout => d.updStream s fun x => { x with good := if usable then x.good + 1 else 0 }

/-- Whether a stream's records carry MASKED now (R233). -/
def Device.maskedNow (d : Device) (s : Nat) : Bool :=
  decide ((d.stream s).state = .waitFirst) || decide ((d.stream s).state = .dropout)

/-- A violation of a stream's port, counted in the stream. -/
def Device.streamLog (d : Device) (s iface unit code detail : Nat) : Device :=
  (d.violation iface unit code detail).updStream s fun x => { x with violations := min (x.violations + 1) 0xFFFFFFFF }

/-! ## Buffers -/

/-- The key by which a job holds a frame buffer, sweep buffer or ring slot (R719). -/
def slotKey (s slot : Nat) : Nat := s * 65536 + slot

/-- Whether a job holds a slot. -/
def Device.slotHeld (d : Device) (s slot : Nat) : Bool :=
  d.jobs.table.any fun e => e.2.active && e.2.frames.elem (slotKey s slot)

/-- Bytes of one stored pixel (R237). PRESUMED: log entry 43. -/
def pixelBytes (dt : Nat) : Nat :=
  if dt = 0x2A then 1 else if dt = 0x2F then 4 else 2

/-- Bytes from one line to the next (R237). -/
def CsiPort.strideBytes (c : CsiPort) : Nat := (c.width * pixelBytes c.dt + 127) / 128 * 128

/-- Bytes of one buffer of a stream (R238, R268). -/
def Device.bufBytes (d : Device) (s : Nat) : Nat :=
  if s < 16 then 4096 + (d.csi s).strideBytes * (d.csi s).height
  else if s < 24 then 4194368
  else if s < 28 then 16384 * 48
  else if s < 30 then 4096 * 40
  else 16384 * 48

/-- Bytes of a ring record, and records of the ring (R268). -/
def recBytes (s : Nat) : Nat := if s = 28 || s = 29 then 40 else 48
def ringLen (s : Nat) : Nat := if s = 28 || s = 29 then 4096 else 16384

/-- `n` buffers of `size` bytes on a die, all or none. -/
def allocMany (die size : Nat) : Nat → Device → Option (List Nat × Device)
  | 0, d => some ([], d)
  | k + 1, d =>
    match d.allocFw 1 die ((size + pitchSize - 1) / pitchSize) with
    | none => none
    | some (id, d) => (allocMany die size k d).map fun x => (id :: x.1, x.2)

/-- A stream's buffers given back. -/
def Device.freeStream (d : Device) (s : Nat) : Device :=
  ((d.stream s).bufs.foldl (fun d b => d.freeBuf b) d).updStream s fun x => { x with bufs := [], order := [], frames := [] }

/-- A stream enabled (R230): its buffers allocated, its count from 0; none when memory lacks. -/
def Device.startStream (d : Device) (s : Nat) : Option Device :=
  let d := d.freeStream s
  let n := if s < 24 then max 3 (d.stream s).buffers else 1
  match allocMany (d.streamDie s) (d.bufBytes s) n d with
  | none => none
  | some (ids, d) => some (d.updStream s fun x => { x with
      state := if 128 ≤ s then .active else .waitFirst
      bufs := ids, order := List.range n, at_ := 0, seq := 0, good := 0, timerAt := d.time.now, frames := [] })

/-- A track record (R481). -/
def trackRecord (stream slot id x y : Nat) (fx fy : Int) (age state reason conf resid fbErr score : Nat) : List Byte :=
  let q := fun (v : Int) => unsigned 16 (clampI (-32768) 32767 (rne v 4096))
  leBytes 4 id ++ leBytes 4 x ++ leBytes 4 y ++ leBytes 2 (q fx) ++ leBytes 2 (q fy) ++ leBytes 2 age ++ leBytes 2 slot
    ++ leBytes 1 stream ++ leBytes 1 state ++ leBytes 1 reason ++ leBytes 1 conf ++ leBytes 2 resid ++ leBytes 2 fbErr
    ++ leBytes 2 score ++ zeros 2

/-- The LOST record of a context that ends at its position p (R481). -/
def lostRecord (stream slot reason : Nat) (t : FteCtx) : List Byte :=
  trackRecord stream slot t.id t.x t.y 0 0 t.age 3 reason 0 0 0 t.score

/-- The LOST records of the live contexts of a stream that ends them (R466, reason 8). -/
def streamLost (s : Nat) (t : Tbl FteCtx) : List (List Byte) :=
  (t.filter fun e => e.2.state != 3).map fun e => lostRecord s e.1 8 e.2

/-- The tracks of an image stream that is disabled end, with records in its next list (R466, R478).
DESIGN CHOICE: log entry 24. -/
def Device.endTracks (d : Device) (s : Nat) : Device :=
  match d.vis.streams.look s with
  | none => d
  | some x =>
    let core := { x.core with ctxs := [], prev := none, owed := x.core.owed ++ streamLost s x.core.ctxs }
    { d with vis := { d.vis with streams := d.vis.streams.put s { x with core := core } } }

/-- A stream stopped: OFF, no more records (R230); the tracks of an image stream end (R466). -/
def Device.stopStream (d : Device) (s : Nat) : Device :=
  let d := d.updStream s fun x => { x with state := .off, good := 0 }
  if s < 16 then (d.setCsi s { d.csi s with frame := none }).endTracks s
  else if s < 24 then d.setLidar s { d.lidar s with origin := none, sweep := none }
  else d

/-- A record written to the next slot of a ring: dropped and counted when a job holds the slot; its SEQ is used up
(R267, R268). The answer says whether it was written. -/
def ringWrite (s : Nat) (rec_ : List Byte) (dts : BitVec 128) (d : Device) (m : Store) : (Device × Store) × Bool :=
  let x := d.stream s
  let next := { x with seq := (x.seq + 1) % 2 ^ 32 }
  if d.slotHeld s x.at_ then
    ((d.updStream s fun _ => { next with nobuf := min (x.nobuf + 1) 0xFFFFFFFF }, m), false)
  else
    let (d, m) := fwWrite (x.bufs.headD 0) (x.at_ * recBytes s) rec_ d m
    ((d.updStream s fun _ => { next with at_ := (x.at_ + 1) % ringLen s, dts := dts, lastSeq := x.seq }, m), true)

/-! ## Fields of received data (R250) -/

/-- Bytes of a field type. -/
def fieldBytes (typ : Nat) : Nat := if typ = 0 then 1 else if typ ≤ 4 then 2 else 4

/-- The raw value of a field in a byte string. -/
def fieldRaw (typ : Nat) (bs : List Byte) : Num :=
  let le := leNat bs
  let be := beNat bs
  match typ with
  | 0 => .ofInt le
  | 1 => .ofInt le
  | 2 => .ofInt be
  | 3 => .ofInt (signed 16 le)
  | 4 => .ofInt (signed 16 be)
  | 5 => .ofInt le
  | 6 => .ofInt be
  | 7 => .ofInt (signed 32 le)
  | 8 => .ofInt (signed 32 be)
  | 9 => ofFp32 le
  | _ => ofFp32 be

/-- The value of a field: raw times SCALE in binary32, the raw integer being rounded first. -/
def FSpec.value (f : FSpec) (bs : List Byte) : Num :=
  round32 ((round32 (fieldRaw f.typ ((bs.drop f.off).take (fieldBytes f.typ)))).mul (ofFp32 f.scale))

/-- Whether a field specification is present. -/
def FSpec.present (f : FSpec) : Bool := f.off != 0xFFFF

/-- An exact value as a saturated fixed-point number of `width` bits with `frac` fraction bits (R12, R13), and
whether it saturated; what is not a number gives 0 and saturates. -/
def toFixed (width frac : Nat) (x : Num) : Int × Bool :=
  let hi : Int := 2 ^ (width - 1) - 1
  let lo : Int := -(2 ^ (width - 1))
  match x with
  | .fin neg mag exp =>
    let q : Int := (quantise mag exp (-(frac : Int)) : Nat)
    let v := if neg then -q else q
    (clampI lo hi v, v < lo || hi < v)
  | .inf neg => (if neg then lo else hi, true)
  | .nan => (0, true)

/-- A field specification as a command gives it (R277). -/
def Request.fspec (r : Request) (off : Nat) : FSpec := ⟨r.u off 2, r.u (off + 2) 1, r.u (off + 4) 4⟩

/-- Its static checks: TYPE and the reserved byte. -/
def fspecChk (off : Nat) : List Chk := [.rng (off + 2) 1 0 10, .zero (off + 3) 1]

/-! ## Check sources -/

/-- The check source of a stream: its pair, or the lidar stream itself (R525, log entry 25). -/
def sourceOf (s : Nat) : Nat := if s < 16 then s / 2 else s

/-- A check source of the device. -/
def Device.checkSrc (d : Device) (k : Nat) : CheckSource := d.grid.sources.getD k CheckSource.reset

/-- A check source changed. -/
def Device.updSrc (d : Device) (k : Nat) (f : CheckSource → CheckSource) : Device :=
  { d with grid := { d.grid with sources := d.grid.sources.upd k CheckSource.reset f } }

/-- A stream's SCORE starts at 255 again (R511). -/
def Device.scoreFresh (d : Device) (s : Nat) : Device :=
  d.updSrc (sourceOf s) fun x => { x with score := 255, score0 := 255 }

end Sys2Proof.Machine
end

