-- ==== Sys2Proof/Machine/VisionOps.lean ====
section
/-! DEFINITION. Images as the vision engines see them: source frames (R237, R238), luma (R417, R418), rectification (R419,
R420), pyramids (R422), and what both engines share about their domain and their operations (R55). -/

namespace Sys2Proof.Machine

/-- Whether the vision domain of a die is on (R448, R485). -/
def Device.visionUp (d : Device) (die : Nat) : Bool := d.domainOn die 8

/-- Data types of CSI-2 (R236): bits of a raw pixel. -/
def dtBits (dt : Nat) : Nat :=
  match dt with
  | 0x2B => 10
  | 0x2C => 12
  | 0x2D => 14
  | 0x2E => 16
  | 0x2F => 20
  | _ => 8

/-- A source frame as an engine reads it: geometry, its bytes, its masked lines. -/
structure Source where
  w : Nat
  h : Nat
  dt : Nat
  stride : Nat
  byteAt : Nat → Byte
  lineMasked : Nat → Bool

/-- The source frame at a place in a buffer (R238). -/
def Device.source (d : Device) (m : Store) (f : FrameSrc) : Source :=
  let rd := fun o => match d.buf f.buf with
    | some b => m.lp.read 0#8 (b.addr (f.off + o))
    | none => 0#8
  let field := fun o n => leNat ((List.range n).map fun (i : Nat) => rd (o + i))
  { w := field 40 2, h := field 42 2, dt := field 3 1, stride := field 48 4, byteAt := fun o => rd (4096 + o)
    lineMasked := fun y => bit (rd (64 + y / 8)).toNat (y % 8) }

/-- Bytes of a source frame from its record on. -/
def Source.size (f : Source) : Nat := 4096 + f.stride * f.h

/-- A coordinate moved to the nearest one inside. -/
def clampTo (n : Nat) (i : Int) : Nat := (clampI 0 ((n : Int) - 1) i).toNat

/-- The raw value of a pixel, edges repeated; of YUV the Y byte, the second of each pixel (R417; the order of CSI-2).
PRESUMED: log entry 44. -/
def Source.raw (f : Source) (x y : Int) : Nat :=
  let px := clampTo f.w x
  let o := clampTo f.h y * f.stride
  if f.dt = 0x1E then (f.byteAt (o + 2 * px + 1)).toNat
  else if f.dt = 0x2A then (f.byteAt (o + px)).toNat
  else
    let n := pixelBytes f.dt
    leNat ((List.range n).map fun (i : Nat) => f.byteAt (o + n * px + i))

/-- The 8-bit luma of a pixel (R417). PRESUMED: log entry 44. -/
def Source.luma (f : Source) (input shift : Nat) (x y : Int) : Nat :=
  match input with
  | 0 => min 255 (rne (f.raw x y) (2 ^ shift)).toNat
  | 1 =>
    let w := fun (dx dy : Int) => (2 - dx.natAbs) * (2 - dy.natAbs) * f.raw (x + dx) (y + dy)
    let row := fun (dy : Int) => w (-1) dy + w 0 dy + w 1 dy
    min 255 (rne (row (-1) + row 0 + row 1 : Nat) (2 ^ (shift + 4))).toNat
  | _ => f.raw x y

/-- One level of one view: luma and flags (bit 0 invalid, 1 saturated, 2 masked) of its pixels. -/
structure View where
  w : Nat
  h : Nat
  luma : Nat → Nat → Nat
  flags : Nat → Nat → Nat

/-- Luma with edge values repeated. -/
def View.at_ (v : View) (x y : Int) : Nat := v.luma (clampTo v.w x) (clampTo v.h y)

/-- Flags of a pixel. -/
def View.invalid (v : View) (x y : Nat) : Bool := bit (v.flags x y) 0
def View.saturated (v : View) (x y : Nat) : Bool := bit (v.flags x y) 1
def View.masked (v : View) (x y : Nat) : Bool := bit (v.flags x y) 2

/-- The next level (R422). -/
def View.half (v : View) : View where
  w := v.w / 2
  h := v.h / 2
  luma x y := (rne (v.luma (2 * x) (2 * y) + v.luma (2 * x + 1) (2 * y) + v.luma (2 * x) (2 * y + 1)
    + v.luma (2 * x + 1) (2 * y + 1) : Nat) 4).toNat
  flags x y := Nat.lor (Nat.lor (v.flags (2 * x) (2 * y)) (v.flags (2 * x + 1) (2 * y)))
    (Nat.lor (v.flags (2 * x) (2 * y + 1)) (v.flags (2 * x + 1) (2 * y + 1)))

/-- Level `l` of a pyramid. -/
def View.level (v : View) : Nat → View
  | 0 => v
  | l + 1 => (v.level l).half

/-- A bit of a mask whose rows are padded to 64 bytes (R450). -/
def maskBit (mask : List Byte) (w x y : Nat) : Bool :=
  bit (mask.getD (y * pad64 ((w + 7) / 8) + x / 8) 0).toNat (x % 8)

/-- Bytes of such a mask. -/
def maskBytes (w h : Nat) : Nat := h * pad64 ((w + 7) / 8)

/-- Nodes in a row of a rectification map, and its bytes (R419). -/
def mapNodes (outW : Nat) : Nat := outW / 16 + 1
def mapBytes (outW outH : Nat) : Nat := mapNodes outW * (outH / 16 + 1) * 8

/-- A node of a map: X and Y in sQ15.16; none where it is invalid. The identity where there is no map (R421). -/
def mapNode (map : Option (List Byte)) (outW i j : Nat) : Option (Int × Int) :=
  match map with
  | none => some ((16 * i * 65536 : Nat), (16 * j * 65536 : Nat))
  | some bs =>
    let o := (j * mapNodes outW + i) * 8
    let x := leNat ((bs.drop o).take 4)
    if x = 0x80000000 then none else some (signed 32 x, signed 32 (leNat ((bs.drop (o + 4)).take 4)))

/-- The source position of a rectified pixel in units of 1/256 pixel (R420); none where a node is invalid. -/
def mapPos (map : Option (List Byte)) (outW x y : Nat) : Option (Int × Int) :=
  let i := x / 16
  let j := y / 16
  let fx := x % 16
  let fy := y % 16
  match mapNode map outW i j, mapNode map outW (i + 1) j, mapNode map outW i (j + 1), mapNode map outW (i + 1) (j + 1) with
  | some a, some b, some c, some e =>
    let mix := fun (p q r s : Int) =>
      rne (((16 - fx) * (16 - fy) : Nat) * p + (fx * (16 - fy) : Nat) * q + ((16 - fx) * fy : Nat) * r
        + (fx * fy : Nat) * s) 65536
    some (mix a.1 b.1 c.1 e.1, mix a.2 b.2 c.2 e.2)
  | _, _, _, _ => none

/-- The last source line that rectified rows `64k` to `64k + 63` need (R421), the 3 × 3 neighbourhood of BAYER included. -/
def lastLine (map : Option (List Byte)) (outW input k : Nat) : Nat :=
  (List.range 64).foldl (fun (n : Nat) (r : Nat) => (List.range outW).foldl (fun (n : Nat) (x : Nat) =>
    match mapPos map outW x (64 * k + r) with
    | some p => max n ((p.2.fdiv 256).toNat + 1 + b2n (input == 1))
    | none => n) n) 0

/-- Four values blended with weights in units of 1/256, rounded half to even. -/
def blend (fx fy a b c e : Nat) : Nat :=
  (rne ((256 - fx) * (256 - fy) * a + fx * (256 - fy) * b + (256 - fx) * fy * c + fx * fy * e : Nat) 65536).toNat

/-- The four source pixels around a position. -/
def corners (px py : Int) : List (Int × Int) :=
  let x := px.fdiv 256
  let y := py.fdiv 256
  [(x, y), (x + 1, y), (x, y + 1), (x + 1, y + 1)]

/-- The rectified image of a view: level 0 (R420). -/
def rectified (f : Source) (input shift sat : Nat) (map mask : Option (List Byte)) (outW outH : Nat) : View where
  w := outW
  h := outH
  luma x y :=
    match mapPos map outW x y with
    | none => 0
    | some (px, py) =>
      let l := fun (c : Int × Int) => f.luma input shift c.1 c.2
      match (corners px py).map l with
      | [a, b, c, e] => blend (px % 256).toNat (py % 256).toNat a b c e
      | _ => 0
  flags x y :=
    let own := match mask with
      | some bs => maskBit bs outW x y
      | none => false
    match mapPos map outW x y with
    | none => 1 + 4 * b2n own
    | some (px, py) =>
      let cs := corners px py
      let out := px < 0 || py < 0 || ((f.w : Int) - 1) * 256 < px || ((f.h : Int) - 1) * 256 < py
      let satd := cs.any fun c => decide (sat ≤ f.raw c.1 c.2)
      let msk := cs.any fun c => f.lineMasked (clampTo f.h c.2)
      b2n out + 2 * b2n satd + 4 * b2n (own || msk)

/-- Whether one job's engine operation comes before another's (R50, R51, R55). -/
def Device.opBefore (d : Device) (a b : Nat) : Bool :=
  match d.job a, d.job b with
  | some x, some y => x.before y
  | _, _ => false

/-- The job first in the order of R50 among some. -/
def Device.firstJob (d : Device) (js : List Nat) : Option Nat :=
  js.foldl (fun acc j => match acc with
    | none => some j
    | some k => some (if d.opBefore j k then j else k)) none

/-- A fault of an engine operation on an access (R723): source 1 STE, 2 FTE, 3 SLV, 4 PRS. -/
def Device.engineFault (d : Device) (job source die : Nat) (e : AccessError) : Device :=
  match e with
  | .ecc pa => (d.jobFault job 0x05 source die 0 (some pa) 0).diagAdd (pa / 2 ^ 35) (0x180 + 4 * (pa / 2 ^ 34 % 2)) 16 16 1
  | .completion pa => d.jobFault job 0x06 source die 0 (some pa) 0

/-- Lines of an ingest frame that an engine may read (R240): whole groups of 64, or all once it is closed. -/
def Device.linesReady (d : Device) (s slot : Nat) : Nat :=
  match (d.stream s).frames.look slot with
  | none => 0
  | some f => if f.closed then (d.csi s).height else (d.csi s).lineCount

/-- The newest frame of a stream that a tick's operation takes: its arrival or stamp is at or after the edge. -/
def Device.tickFrame (d : Device) (s edge : Nat) : Option Nat :=
  (d.stream s).order.reverse.find? fun k =>
    match (d.stream s).frames.look k with
    | none => false
    | some f => if f.closed then decide (edge ≤ dtsMoment f.dts) else
        match (d.csi s).frame with
        | some o => o.slot == some k && decide (edge ≤ o.arrival)
        | none => false

/-- The edge of a TICK job, as a stamp: the first 16 bytes of what its admission left. -/
def Job.edge (j : Job) : BitVec 128 := BitVec.ofNat 128 (leNat (j.arg.take 16))

/-- A job holds an ingest slot (R719). -/
def Device.holdSlot (d : Device) (job s slot : Nat) : Device :=
  match d.job job with
  | none => d
  | some j => if j.frames.elem (slotKey s slot) then d else d.setJob job { j with frames := slotKey s slot :: j.frames }

end Sys2Proof.Machine
end

