-- ==== Sys2Proof/Machine/SteOps.lean ====
section
/-! DEFINITION. Stereo matching (R422 to R435): census, cost, tiles and their search ranges, path aggregation, selection and
status, the bands and counts of an operation. Each value is given as a function of the rectified images. -/

namespace Sys2Proof.Machine

/-- What one STE operation matches: its settings and both rectified views. Also R416. -/
structure Stereo where
  cfg : SteCfg
  left : View
  right : View

/-- The census of a pixel (R423): 48 bits in row order. -/
def View.census (v : View) (x y : Nat) : List Bool :=
  let c := v.luma x y
  (List.range 49).filterMap fun (i : Nat) =>
    if i = 24 then none else some (decide (v.at_ ((x : Int) + (i % 7 : Nat) - 3) ((y : Int) + (i / 7 : Nat) - 3) < c))

/-- Whether the 7 × 7 window of a pixel is wholly made of valid pixels inside the level. -/
def View.windowValid (v : View) (x y : Nat) : Bool :=
  3 ≤ x && 3 ≤ y && x + 3 < v.w && y + 3 < v.h
    && (List.range 49).all fun (i : Nat) => !v.invalid (x + i % 7 - 3) (y + i / 7 - 3)

/-- The cost of candidate `k` at left pixel (x, y) (R424). -/
def steCost (l r : View) (x y k : Nat) : Nat :=
  if x < k || !r.windowValid (x - k) y then 48
  else (List.zipWith (fun (a b : Bool) => b2n (a != b)) (l.census x y) (r.census (x - k) y)).foldl (· + ·) 0

/-- The candidates of a tile, and whether its range was clipped (R427). -/
structure Range where
  lo : Nat
  hi : Nat
  clip : Bool
  deriving DecidableEq, Repr

/-- Number of candidates. -/
def Range.size (r : Range) : Nat := r.hi + 1 - r.lo

/-- A rectangle of pixels from (x0, y0) to before (x1, y1). -/
structure Rect where
  x0 : Nat
  y0 : Nat
  x1 : Nat
  y1 : Nat
  deriving DecidableEq, Repr

/-- The support of a tile: the tile and an apron of 16 pixels, clipped at the level's edges. -/
def support (w h tx ty : Nat) : Rect :=
  ⟨64 * tx - 16, 64 * ty - 16, min w (64 * tx + 80), min h (64 * ty + 80)⟩

/-- Tiles of a level, by column and row. -/
def tilesX (w : Nat) : Nat := (w + 63) / 64

/-- Path costs at a pixel from those of the pixel before it on the path (R428). -/
def pathNext (c : SteCfg) (prev cost : List Nat) (step : Nat) : List Nat :=
  let m := prev.foldl min (prev.headD 0)
  let p2 := max (c.p1 + 1) (c.p2 - step / 2 ^ c.p2Shift)
  (List.range cost.length).map fun (i : Nat) =>
    let a := min (prev.getD i 0) (m + p2)
    let b := if 0 < i then min a (prev.getD (i - 1) 0 + c.p1) else a
    let e := if i + 1 < prev.length then min b (prev.getD (i + 1) 0 + c.p1) else b
    cost.getD i 0 + e - m

/-- Path costs along direction (dx, dy) at (x, y), `n` pixels from the path's first pixel inside the support. -/
def pathCost (c : SteCfg) (cost : Nat → Nat → List Nat) (v : View) (dx dy : Int) : Nat → Nat → Nat → List Nat
  | 0, x, y => cost x y
  | n + 1, x, y =>
    let px := ((x : Int) - dx).toNat
    let py := ((y : Int) - dy).toNat
    pathNext c (pathCost c cost v dx dy n px py) (cost x y)
      ((v.luma x y : Int) - v.luma px py).natAbs

/-- Pixels before (x, y) on a path that enters a support. -/
def pathLen (s : Rect) (dx dy : Int) (x y : Nat) : Nat :=
  let nx := if dx = 1 then some (x - s.x0) else if dx = -1 then some (s.x1 - 1 - x) else none
  let ny := if dy = 1 then some (y - s.y0) else if dy = -1 then some (s.y1 - 1 - y) else none
  match nx, ny with
  | some a, some b => min a b
  | some a, none => a
  | none, some b => b
  | none, none => 0

/-- The eight directions (R428, R429). -/
def directions : List (Int × Int) := [(1, 0), (1, 1), (0, 1), (-1, 1), (-1, 0), (-1, -1), (0, -1), (1, -1)]

/-- The summed path costs of a pixel over its tile's candidates (R428). -/
def sums (c : SteCfg) (cost : Nat → Nat → List Nat) (v : View) (s : Rect) (n x y : Nat) : List Nat :=
  directions.foldl (fun acc r => List.zipWith (· + ·) acc (pathCost c cost v r.1 r.2 (pathLen s r.1 r.2 x y) x y))
    (List.replicate n 0)

/-- The winner of a pixel (R431): candidate index, the costs S1 and S2 (none without a candidate two away), and all sums. -/
structure Winner where
  i : Nat
  s1 : Nat
  s2 : Option Nat
  all : List Nat
  deriving DecidableEq, Repr

/-- The lowest entry of a list and its first index. -/
def lowest (xs : List Nat) : Nat × Nat :=
  xs.zipIdx.foldl (fun best e => if e.1 < best.1 then e else best) (xs.headD 0, 0)

/-- Selection (R431). -/
def select (xs : List Nat) : Winner :=
  let (s1, i) := lowest xs
  let far := (xs.zipIdx.filter fun e => i + 2 ≤ e.2 || e.2 + 2 ≤ i).map (·.1)
  ⟨i, s1, if far.isEmpty then none else some (far.foldl min (far.headD 0)), xs⟩

/-- The 4-bit confidence (R432). -/
def Winner.conf (w : Winner) : Nat :=
  match w.s2 with
  | none => 0
  | some s2 => if s2 = 0 then 0 else min 15 (16 * (s2 - w.s1) / s2)

/-- Candidates' costs at a left pixel. -/
def leftCosts (l r : View) (g : Range) (x y : Nat) : List Nat :=
  (List.range g.size).map fun (i : Nat) => steCost l r x y (g.lo + i)

/-- Candidates' costs at a right pixel (R430). -/
def rightCosts (l r : View) (g : Range) (x y : Nat) : List Nat :=
  (List.range g.size).map fun (i : Nat) => if x + g.lo + i < l.w then steCost l r (x + g.lo + i) y (g.lo + i) else 48

/-- The left winner at a pixel of a level whose tile searches `g`. -/
def Stereo.winner (t : Stereo) (l : Nat) (g : Range) (x y : Nat) : Winner :=
  let a := t.left.level l
  let b := t.right.level l
  select (sums t.cfg (leftCosts a b g) a (support a.w a.h (x / 64) (y / 64)) g.size x y)

/-- The right winner at a level-0 pixel, as a disparity (R430, R431). -/
def Stereo.rightDisparity (t : Stereo) (g : Range) (x y : Nat) : Nat :=
  g.lo + (select (sums t.cfg (rightCosts t.left t.right g) t.right (support t.right.w t.right.h (x / 64) (y / 64))
    g.size x y)).i

/-- The status of a pixel of a level, the left-right check left out (R427, R433). -/
def Stereo.status (t : Stereo) (l : Nat) (g : Range) (w : Winner) (x y : Nat) : Nat :=
  let a := t.left.level l
  let b := t.right.level l
  let k := g.lo + w.i
  let inside := decide (k ≤ x)
  if a.masked x y || (inside && b.masked (x - k) y) then 6
  else if !a.windowValid x y || x < k + 3 then 4
  else if a.saturated x y || b.saturated (x - k) y then 5
  else if w.i = 0 || w.i + 1 = g.size then 3
  else if w.conf < t.cfg.flatConf then 1
  else 0

/-- The lower median of a list. -/
def lowerMedian (xs : List Nat) : Nat := (xs.mergeSort).getD ((xs.length - 1) / 2) 0

/-- The whole range of a level (R425). -/
def SteCfg.levelLo (c : SteCfg) (l : Nat) : Nat := c.dMin / 2 ^ l
def SteCfg.levelHi (c : SteCfg) (l : Nat) : Nat := (c.dMin + c.dRange) / 2 ^ l - 1

/-- The range a tile of level `l` takes from the coarse winners beneath it (R427). -/
def rangeFrom (c : SteCfg) (l : Nat) (v : List Nat) : Range :=
  let lo := c.levelLo l
  let hi := c.levelHi l
  let mx := v.foldl max 0
  let mn := v.foldl min (v.headD 0)
  if v.isEmpty then ⟨lo, min (lo + 63) hi, false⟩
  else if 2 * mx - 2 * mn + 2 * c.margin ≤ 63 then ⟨max lo (2 * mn - c.margin), min hi (2 * mx + c.margin), false⟩
  else
    let a : Int := 2 * (lowerMedian v : Int) - 32
    let a := max (min a ((hi : Int) - 63)) lo
    ⟨a.toNat, a.toNat + 63, true⟩

/-- The range of a tile of level `3 − n` (R426, R427). -/
def Stereo.range (t : Stereo) : Nat → Nat → Nat → Range
  | 0, _, _ => ⟨t.cfg.levelLo 3, t.cfg.levelHi 3, false⟩
  | n + 1, tx, ty =>
    let l := 3 - n
    let a := t.left.level l
    let xs := (List.range a.w).filter fun (x : Nat) => 32 * tx ≤ x + 1 && x ≤ 32 * tx + 32
    let ys := (List.range a.h).filter fun (y : Nat) => 32 * ty ≤ y + 1 && y ≤ 32 * ty + 32
    let v := ys.flatMap fun y => xs.filterMap fun x =>
      let g := t.range n (x / 64) (y / 64)
      let w := t.winner l g x y
      if t.status l g w x y = 0 then some (g.lo + w.i) else none
    rangeFrom t.cfg (l - 1) v

/-- The range of a tile of a level. -/
def Stereo.rangeAt (t : Stereo) (l tx ty : Nat) : Range := t.range (3 - l) tx ty

/-- The final status of a level-0 pixel (R433) and its disparity word and quality byte (R434, R435). -/
def Stereo.pixel (t : Stereo) (x y : Nat) : Nat × Nat × Nat :=
  let g := t.rangeAt 0 (x / 64) (y / 64)
  let w := t.winner 0 g x y
  let st := t.status 0 g w x y
  let k := g.lo + w.i
  let st := if st = 0 &&
      t.cfg.lrTol < ((k : Int) - t.rightDisparity (t.rangeAt 0 ((x - k) / 64) (y / 64)) (x - k) y).natAbs then 2 else st
  if st = 0 then
    let s := fun (i : Nat) => ((w.all.getD i 0 : Nat) : Int)
    let den := s (w.i - 1) - 2 * s w.i + s (w.i + 1)
    let disp := if 0 < den then rne (32 * (k * (2 * den) + (s (w.i - 1) - s (w.i + 1)))) (2 * den).toNat else 32 * k
    (0, disp.toNat, 16 * w.conf)
  else (st, 0xFFFF, st)

/-- The disparity rows and then the quality rows of a band (R440), and the statuses of its pixels. -/
def Stereo.band (t : Stereo) (b : Nat) : List Byte × List Byte × List Nat :=
  let px := (List.range 64).flatMap fun (r : Nat) => (List.range t.cfg.outW).map fun (x : Nat) => t.pixel x (64 * b + r)
  (px.flatMap fun p => leBytes 2 p.2.1, px.map fun p => BitVec.ofNat 8 p.2.2, px.map (·.1))

/-- A band of an ABSENT operation (R444). -/
def absentBand (c : SteCfg) : List Byte × List Byte × List Nat :=
  (List.replicate (2 * 64 * c.outW) 0xFF#8, List.replicate (64 * c.outW) 0x06#8, List.replicate (64 * c.outW) 6)

/-- Width and height of a level, and its number of tiles. -/
def SteCfg.levelW (c : SteCfg) (l : Nat) : Nat := c.outW / 2 ^ l
def SteCfg.levelH (c : SteCfg) (l : Nat) : Nat := c.outH / 2 ^ l
def SteCfg.tiles (c : SteCfg) (l : Nat) : Nat := tilesX (c.levelW l) * tilesX (c.levelH l)

/-- Bands of level 0. -/
def SteCfg.bands (c : SteCfg) : Nat := c.outH / 64

/-- The cycles of an operation (R445). -/
def Stereo.cycles (t : Stereo) : Nat :=
  let tile := fun (l k : Nat) =>
    let w := t.cfg.levelW l
    let h := t.cfg.levelH l
    let tx := k % tilesX w
    let ty := k / tilesX w
    let s := support w h tx ty
    2 * (((s.x1 - s.x0) * (s.y1 - s.y0) * (t.rangeAt l tx ty).size + 63) / 64) + 256
  let level := fun (l : Nat) => ((List.range (t.cfg.tiles l)).map (tile l)).foldl (· + ·) 0
  level 3 + level 2 + level 1 + level 0 + (t.cfg.outW * t.cfg.outH + 15) / 16

end Sys2Proof.Machine
end

