-- ==== Sys2Proof/Machine/FteOps.lean ====
section
/-! DEFINITION. Feature tracking (R456 to R482): corners, flow, the ends of tracks, births, feedback, records and summaries,
each as a function of the images, the committed state and the settings (R474). -/

namespace Sys2Proof.Machine

/-- The level-0 image of a frame for tracking (R456). -/
def trackView (f : Source) (input shift sat : Nat) (mask : Option (List Byte)) : View where
  w := f.w
  h := f.h
  luma x y := f.luma input shift x y
  flags x y :=
    let own := match mask with
      | some bs => maskBit bs f.w x y
      | none => false
    2 * b2n (decide (sat ≤ f.raw x y)) + 4 * b2n (own || f.lineMasked y)

/-- A kept frame as a view. -/
def FtePyr.view (p : FtePyr) : View where
  w := p.w
  h := p.h
  luma x y := (p.luma.getD (y * p.w + x) 0).toNat
  flags x y := (p.flags.getD (y * p.w + x) 0).toNat

/-- A view kept as data. -/
def View.keep (v : View) (seq moment : Nat) (prevDt : Int) : FtePyr :=
  let px := (List.range v.h).flatMap fun (y : Nat) => (List.range v.w).map fun (x : Nat) => (x, y)
  ⟨v.w, v.h, px.map fun p => BitVec.ofNat 8 (v.luma p.1 p.2), px.map fun p => BitVec.ofNat 8 (v.flags p.1 p.2), seq,
   moment, prevDt⟩

/-! ## Corners (R458 to R460) -/

/-- The smaller eigenvalue as the corner score computes it. -/
def lambdaMin (a b c : Int) : Int :=
  (a + c - isqrt (((a - c) * (a - c) + 4 * b * b).toNat)).fdiv 2

/-- The corner score of a pixel (R458). -/
def View.score (v : View) (x y : Int) : Nat :=
  let g := (List.range 25).map fun (i : Nat) =>
    let u := x + (i % 5 : Nat) - 2
    let w := y + (i / 5 : Nat) - 2
    (((v.at_ (u + 1) w : Int) - v.at_ (u - 1) w), ((v.at_ u (w + 1) : Int) - v.at_ u (w - 1)))
  let sum := fun (f : Int × Int → Int) => g.foldl (fun n p => n + f p) 0
  min 65535 (lambdaMin (sum fun p => p.1 * p.1) (sum fun p => p.1 * p.2) (sum fun p => p.2 * p.2) / 25).toNat

/-- A candidate pixel (R459). -/
def View.candidate (v : View) (c : FteCfg) (x y : Nat) : Bool :=
  let m := (c.win - 1) / 2 + 3
  let s := v.score x y
  let at_ := fun (dx dy : Int) => v.score ((x : Int) + dx) ((y : Int) + dy)
  decide (m ≤ x) && decide (m ≤ y) && decide (x + m < v.w) && decide (y + m < v.h) && decide (c.cornerMin ≤ s)
    && [(-1, -1), (0, -1), (1, -1), (-1, 0)].all (fun (d : Int × Int) => decide (at_ d.1 d.2 < s))
    && [(1, 0), (-1, 1), (0, 1), (1, 1)].all (fun (d : Int × Int) => decide (at_ d.1 d.2 ≤ s))
    && (List.range 25).all fun (i : Nat) => v.flags (x + i % 5 - 2) (y + i / 5 - 2) == 0

/-- A corner: position and score. -/
structure Corner where
  x : Nat
  y : Nat
  score : Nat
  deriving DecidableEq, Repr

/-- Cells in a row and in a column (R460). -/
def cellsX (v : View) (c : FteCfg) : Nat := (v.w + c.cell - 1) / c.cell
def cellsY (v : View) (c : FteCfg) : Nat := (v.h + c.cell - 1) / c.cell

/-- The 8 strongest candidates of a cell, strongest first (R460). -/
def View.cellCorners (v : View) (c : FteCfg) (cx cy : Nat) : List Corner :=
  let px := (List.range c.cell).flatMap fun (j : Nat) => (List.range c.cell).filterMap fun (i : Nat) =>
    let x := cx * c.cell + i
    let y := cy * c.cell + j
    if x < v.w && y < v.h && v.candidate c x y then some (⟨x, y, v.score x y⟩ : Corner) else none
  (px.mergeSort fun a b => decide (b.score ≤ a.score)).take 8

/-! ## Flow (R461 to R463) -/

/-- A view sampled at a position in units of 1/256 pixel plus whole offsets. DESIGN CHOICE: log entry 24. -/
def View.sample (v : View) (px py : Int) (dx dy : Int) : Int :=
  let x := px.fdiv 256 + dx
  let y := py.fdiv 256 + dy
  blend (px % 256).toNat (py % 256).toNat (v.at_ x y) (v.at_ (x + 1) y) (v.at_ x (y + 1)) (v.at_ (x + 1) (y + 1))

/-- The quotient of two integers rounded to binary32 (R336). -/
def quotient32 (n : Int) (d : Nat) : Num :=
  let k := Nat.log2 d + 40
  let a := n.natAbs * 2 ^ k
  let q := a / d
  round32 (.fin (decide (n < 0)) (2 * q + b2n (q * d != a)) (-(k : Int) - 1))

/-- A finite value in units of 2^-16, rounded half to even. -/
def Num.to16 (x : Num) : Int :=
  match x with
  | .fin s m e => let q : Int := quantise m e (-16); if s then -q else q
  | _ => 0

/-- The window offsets of a side: `−half` to `half`. -/
def window (half : Nat) : List (Int × Int) :=
  (List.range (2 * half + 1)).flatMap fun (j : Nat) => (List.range (2 * half + 1)).map fun (i : Nat) =>
    ((i : Int) - half, (j : Int) - half)

/-- A template at one level (R462): its view and centre in 1/256 pixel, with G. -/
structure Template where
  view : View
  px : Int
  py : Int
  half : Nat
  a : Int
  b : Int
  c : Int

/-- The gradient of a template at an offset. -/
def Template.grad (t : Template) (o : Int × Int) : Int × Int :=
  (t.view.sample t.px t.py (o.1 + 1) o.2 - t.view.sample t.px t.py (o.1 - 1) o.2,
   t.view.sample t.px t.py o.1 (o.2 + 1) - t.view.sample t.px t.py o.1 (o.2 - 1))

/-- The template of a position (R462, step 1). -/
def template (v : View) (px py : Int) (win : Nat) : Template :=
  let t : Template := ⟨v, px, py, (win - 1) / 2, 0, 0, 0⟩
  let gs := (window t.half).map t.grad
  { t with a := gs.foldl (fun n g => n + g.1 * g.1) 0, b := gs.foldl (fun n g => n + g.1 * g.2) 0,
           c := gs.foldl (fun n g => n + g.2 * g.2) 0 }

/-- The determinant of G. -/
def Template.det (t : Template) : Int := t.a * t.c - t.b * t.b

/-- One iteration (R462, step 2): Δ in 2^-16 pixel. DESIGN CHOICE: log entry 24. -/
def Template.delta (t : Template) (v : View) (gx gy : Int) : Int × Int :=
  let e := (window t.half).foldl (fun (n : Int × Int) o =>
    let r := t.view.sample t.px t.py o.1 o.2 - v.sample (rne gx 256) (rne gy 256) o.1 o.2
    let g := t.grad o
    (n.1 + r * g.1, n.2 + r * g.2)) (0, 0)
  ((quotient32 (t.c * e.1 - t.b * e.2) t.det.toNat).to16, (quotient32 (t.a * e.2 - t.b * e.1) t.det.toNat).to16)

/-- What a level's iterations give: guess in 2^-16 pixel of the level, last Δ, iterations run. -/
structure Step where
  x : Int
  y : Int
  dx : Int
  dy : Int
  n : Nat
  deriving DecidableEq, Repr

/-- Up to `k` iterations from a guess. -/
def Template.iterate (t : Template) (v : View) (eps : Nat) : Nat → Step → Step
  | 0, s => s
  | k + 1, s =>
    let d := t.delta v s.x s.y
    let s : Step := ⟨s.x + d.1, s.y + d.2, d.1, d.2, s.n + 1⟩
    if d.1.natAbs ≤ eps * 256 && d.2.natAbs ≤ eps * 256 then s else t.iterate v eps k s

/-- The result of a flow: position in 2^-16 pixel, last Δ of level 0, lane cycles (R482). -/
structure FlowOut where
  x : Int
  y : Int
  dx : Int
  dy : Int
  cycles : Nat
  deriving DecidableEq, Repr

/-- Lane cycles of a level with `n` iterations (R482). -/
def laneCycles (win n : Nat) : Nat :=
  ((win + 2) * (win + 2) + 15) / 16 + 12 + n * ((win * win + 15) / 16 + 8)

/-- Flow from level `l` down (R462), from `p` (2^-16 pixel of level 0) with the guess at level `l`. -/
def flowFrom (src dst : View) (c : FteCfg) (px py : Int) : Nat → Int → Int → Nat → FlowOut
  | l, gx, gy, cyc =>
    let t := template (src.level l) (rne px (2 ^ (8 + l))) (rne py (2 ^ (8 + l))) c.win
    let s : Step := if t.det = 0 then ⟨gx, gy, 0, 0, 0⟩
      else t.iterate (dst.level l) c.eps c.iter ⟨gx, gy, 0, 0, 0⟩
    let cyc := cyc + laneCycles c.win s.n
    match l with
    | 0 => ⟨s.x, s.y, s.dx, s.dy, cyc⟩
    | l' + 1 => flowFrom src dst c px py l' (2 * s.x) (2 * s.y) cyc

/-- Flow from the top level (R462). -/
def flow (src dst : View) (c : FteCfg) (px py qx qy : Int) : FlowOut :=
  let top := c.levels - 1
  flowFrom src dst c px py top (rne qx (2 ^ top)) (rne qy (2 ^ top)) 0

/-- A point under a homography of nine binary32 values in row order, in 2^-16 pixel; none where it has no finite image
(R461). -/
def homography (h : List Nat) (x y : Int) : Option (Int × Int) :=
  let row := fun (i : Nat) =>
    let e := fun (k : Nat) => ofFp32 (h.getD (3 * i + k) 0)
    ((e 0).mul (.fin (decide (x < 0)) x.natAbs (-16))).add (((e 1).mul (.fin (decide (y < 0)) y.natAbs (-16))).add (e 2))
  match row 0, row 1, row 2 with
  | .fin sa a ea, .fin sb b eb, .fin sc c ec =>
    if c = 0 then none else
      let q := fun (s : Bool) (m : Nat) (e : Int) =>
        let lo := min e ec
        let n := scaleTo (s != sc) m e lo * 65536
        rne n (c * 2 ^ (ec - lo).toNat)
      some (q sa a ea, q sb b eb)
  | _, _, _ => none

/-- What a track's flow gives in one operation. -/
structure Tracked where
  ctx : FteCtx
  reason : Nat
  qx : Int
  qy : Int
  predicted : Bool
  resid : Nat
  fbErr : Nat
  conf : Nat
  cycles : Nat
  deriving DecidableEq, Repr

/-- The initial guess of a track (R461); `ratio` is Δt and Δt_prev, `h` the homography. -/
def guess (v : View) (c : FteCfg) (h : List Nat) (ratio : Int × Int) (t : FteCtx) : Int × Int :=
  let p : Int × Int := (t.x, t.y)
  let q := match c.pred with
    | 1 => if h.isEmpty then p else (homography h p.1 p.2).getD p
    | 2 => if ratio.2 ≤ 0 then p else
        (p.1 + rne (t.flowX * ratio.1) ratio.2.toNat, p.2 + rne (t.flowY * ratio.1) ratio.2.toNat)
    | _ => p
  let lim : Nat := c.maxFlow * 65536
  let out := q.1 < 0 || q.2 < 0 || ((v.w : Int) - 1) * 65536 < q.1 || ((v.h : Int) - 1) * 65536 < q.2
  if out || lim < (q.1 - p.1).natAbs || lim < (q.2 - p.2).natAbs then p else q

/-- Whether the smaller eigenvalue of G is below a bound, exactly (R464). -/
def Template.flat (t : Template) (bound : Nat) : Bool :=
  let u := t.a + t.c - 2 * bound
  decide (u < 0) || decide (u * u < (t.a - t.c) * (t.a - t.c) + 4 * t.b * t.b)

/-- The reason a tracked position ends with, 0 where it holds (R464). -/
def endReason (v : View) (c : FteCfg) (p : Int × Int) (f : FlowOut) (flat : Bool) (resid fbErr : Nat) : Nat :=
  let half : Int := ((c.win - 1) / 2 : Nat)
  let lo := fun (q : Int) => q.fdiv 65536 - half
  let hi := fun (q : Int) => -((-q).fdiv 65536) + half
  let lim : Nat := c.maxFlow * 65536
  if f.x < (half + 1) * 65536 || f.y < (half + 1) * 65536 || ((v.w : Int) - 2 - half) * 65536 < f.x
      || ((v.h : Int) - 2 - half) * 65536 < f.y then 4
  else if (List.range (hi f.y - lo f.y + 1).toNat).any fun (j : Nat) =>
      (List.range (hi f.x - lo f.x + 1).toNat).any fun (i : Nat) =>
        v.masked ((lo f.x).toNat + i) ((lo f.y).toNat + j) then 5
  else if lim < (f.x - p.1).natAbs || lim < (f.y - p.2).natAbs || 4 * c.eps * 256 < f.dx.natAbs
      || 4 * c.eps * 256 < f.dy.natAbs then 6
  else if flat then 1
  else if c.resMax < resid then 3
  else if c.fb && c.fbTol < fbErr then 2
  else 0

/-- A track followed from the last frame to this one (R461 to R465). -/
def follow (prev cur : View) (c : FteCfg) (h : List Nat) (ratio : Int × Int) (t : FteCtx) : Tracked :=
  let p : Int × Int := (t.x, t.y)
  let g := guess cur c h ratio t
  let f := flow prev cur c p.1 p.2 g.1 g.2
  let t0 := template prev (rne p.1 256) (rne p.2 256) c.win
  let diff := (window t0.half).foldl (fun (n : Nat) o =>
    n + (t0.view.sample t0.px t0.py o.1 o.2 - cur.sample (rne f.x 256) (rne f.y 256) o.1 o.2).natAbs) 0
  let resid := min 0xFFFF (rne (diff * 256 : Nat) (c.win * c.win)).toNat
  let b := flow cur prev c f.x f.y p.1 p.2
  let dist := (b.x - p.1).natAbs * (b.x - p.1).natAbs + (b.y - p.2).natAbs * (b.y - p.2).natAbs
  let fbErr := if c.fb then min 0xFFFF (rneSqrt dist 65536) else 0
  let part := fun (v top : Nat) => 255 * (top - v) / max 1 top
  let conf := min (part resid c.resMax) (if c.fb then part fbErr c.fbTol else 255)
  ⟨t, endReason cur c p f (t0.flat (c.eigMin * (c.win * c.win))) resid fbErr, f.x, f.y, g != p, resid, fbErr, conf,
   f.cycles + (if c.fb then b.cycles else 0)⟩

/-! ## Records (R480, R481) -/

/-- The slot of a record. -/
def recordSlot (r : List Byte) : Nat := leNat ((r.drop 18).take 2)

/-- A field of a record. -/
def recordField (r : List Byte) (off n : Nat) : Nat := leNat ((r.drop off).take n)

/-! ## An operation -/

/-- What an operation works on: contexts, records so far, slots freed in it, descriptor writes (slot and bytes; copies as
slots), entries skipped, merges applied with their slots, cycles of the flow lanes. -/
structure Work where
  ctxs : Tbl FteCtx
  recs : List (List Byte)
  freed : List Nat
  copies : List (Nat × Nat)
  born : List Nat
  skipped : Nat
  merged : List Nat
  cycles : Nat
  counter : Nat
  unborn : Nat
  deriving DecidableEq, Repr

/-- The context of an ID. -/
def Work.byId (w : Work) (id : Nat) : Option (Nat × FteCtx) := w.ctxs.find? fun e => e.2.id == id

/-- One feedback entry (R470, R471). -/
def feedback (stream : Nat) (w : Work) (e : List Byte) : Work :=
  let op := recordField e 0 1
  let skip := { w with skipped := w.skipped + 1 }
  match w.byId (recordField e 4 4) with
  | none => skip
  | some (slot, t) =>
    if t.state = 3 then skip
    else if op = 1 then
      { w with ctxs := w.ctxs.del slot, recs := lostRecord stream slot 7 t :: w.recs, freed := slot :: w.freed }
    else if op = 2 then
      match w.byId (recordField e 8 4) with
      | none => skip
      | some (old, u) =>
        if u.state ≠ 3 then skip else
          { w with
            ctxs := (w.ctxs.del slot).put old { u with state := 2, x := t.x, y := t.y, dormant := 0 }
            recs := lostRecord stream slot 9 t :: w.recs, freed := slot :: w.freed
            copies := w.copies ++ [(slot, old)], merged := old :: w.merged }
    else skip

/-- The context of a track after its flow, and its record (R464 to R466). -/
def Tracked.apply (stream slot : Nat) (reid : Bool) (r : Tracked) : FteCtx × List Byte :=
  let t := r.ctx
  let x := r.qx.toNat
  let y := r.qy.toNat
  let fx := r.qx - t.x
  let fy := r.qy - t.y
  let flags := 4 * b2n r.predicted + 8 * b2n reid
  if r.reason = 0 then
    let age := min 0xFFFF (t.age + 1)
    let rec_ := trackRecord stream slot t.id x y fx fy age (2 + flags) 0 r.conf r.resid r.fbErr t.score
    ({ t with state := 2, x := x, y := y, flowX := fx, flowY := fy, age := age, rec_ := rec_ }, rec_)
  else
    let rec_ := trackRecord stream slot t.id x y fx fy t.age (3 + flags) r.reason 0 r.resid r.fbErr t.score
    ({ t with state := 3, x := x, y := y, dormant := 0, rec_ := rec_ }, rec_)

/-- Flow over the live contexts in ascending slot order; contexts already DORMANT count an operation. -/
def flowAll (prev cur : View) (c : FteCfg) (h : List Nat) (ratio : Int × Int) (stream : Nat) (w : Work) : Work :=
  w.ctxs.foldl (fun w e =>
    if e.2.state = 3 then { w with ctxs := w.ctxs.put e.1 { e.2 with dormant := e.2.dormant + 1 } } else
      let r := follow prev cur c h ratio e.2
      let a := r.apply stream e.1 (w.merged.elem e.1)
      { w with ctxs := w.ctxs.put e.1 a.1, recs := a.2 :: w.recs, cycles := w.cycles + r.cycles }) w

/-- The next ID of a die (R454), from counter value `n` with `k` tries. Also R38. -/
def nextId (die : Nat) (held : List Nat) : Nat → Nat → Nat
  | 0, n => n
  | k + 1, n =>
    if held.elem (die * 2 ^ 29 + n) || (die = 7 && n = 2 ^ 29 - 1) then nextId die held k ((n + 1) % 2 ^ 29) else n

/-- A birth at a corner (R466, R468, R469). -/
def birth (stream base contexts : Nat) (others : List Nat) (w : Work) (p : Corner) : Work :=
  let die := stream / 2
  match (List.range contexts).find? fun (i : Nat) => (w.ctxs.look (base + i)).isNone && !w.freed.elem (base + i) with
  | none => { w with unborn := w.unborn + 1 }
  | some i =>
    let slot := base + i
    let held := others ++ w.ctxs.map (·.2.id)
    let n := nextId die held (held.length + 2) w.counter
    let id := die * 2 ^ 29 + n
    let rec_ := trackRecord stream slot id (p.x * 65536) (p.y * 65536) 0 0 0 1 0 255 0 0 p.score
    { w with ctxs := w.ctxs.put slot ⟨id, 1, p.x * 65536, p.y * 65536, 0, 0, 0, p.score, 0, rec_⟩
             recs := rec_ :: w.recs, born := slot :: w.born, counter := (n + 1) % 2 ^ 29 }

/-- Live tracks. -/
def Work.live (w : Work) : List FteCtx := (w.ctxs.filter fun e => e.2.state != 3).map (·.2)

/-- Whether a live track stands within MIN_DIST of a corner, by Chebyshev distance (R467). -/
def Work.near (w : Work) (c : FteCfg) (p : Corner) : Bool :=
  w.live.any fun t => ((t.x : Int) - p.x * 65536).natAbs ≤ c.minDist * 65536
    && ((t.y : Int) - p.y * 65536).natAbs ≤ c.minDist * 65536

/-- Live tracks of a cell. -/
def Work.inCell (w : Work) (c : FteCfg) (cx cy : Nat) : Nat :=
  (w.live.filter fun t => t.x / 65536 / c.cell == cx && t.y / 65536 / c.cell == cy).length

/-- Cells that hold at least one live track (R480). -/
def Work.covered (w : Work) (c : FteCfg) : Nat :=
  (w.live.map fun t => (t.x / 65536 / c.cell, t.y / 65536 / c.cell)).eraseDups.length

/-- The births of a cell (R467): its candidates in score order, at most BIRTH_MAX. -/
def cellBirths (c : FteCfg) (stream base : Nat) (others : List Nat) (cx cy : Nat) : Nat → List Corner → Work → Work
  | _, [], w => w
  | done, p :: ps, w =>
    if c.birthMax ≤ done || c.cellTarget ≤ w.inCell c cx cy then w
    else if w.near c p then cellBirths c stream base others cx cy done ps w
    else cellBirths c stream base others cx cy (done + 1) ps (birth stream base c.contexts others w p)

/-- All births, cells in raster order (R467). -/
def births (cur : View) (c : FteCfg) (stream base : Nat) (others : List Nat) (w : Work) : Work :=
  let cells := (List.range (cellsY cur c)).flatMap fun (y : Nat) => (List.range (cellsX cur c)).map fun (x : Nat) => (x, y)
  cells.foldl (fun w q => cellBirths c stream base others q.1 q.2 0 (cur.cellCorners c q.1 q.2) w) w

/-- DORMANT contexts freed for births that found no slot, oldest first and then the lower slot (R469). -/
def evictDormant : Nat → Work → Work
  | 0, w => w
  | k + 1, w =>
    let ds := w.ctxs.filter fun e => e.2.state == 3
    match ds.foldl (fun (best : Option (Nat × FteCtx)) e => match best with
        | none => some e
        | some b => if b.2.dormant < e.2.dormant then some e else some b) none with
    | none => w
    | some e => evictDormant k { w with ctxs := w.ctxs.del e.1 }

/-- The frame facts of an operation. -/
structure FrameFacts where
  seq : Nat
  dts : BitVec 128
  status : Nat
  deriving DecidableEq, Repr

/-- The summary of a list (R480). -/
def fteSummary (stream flags : Nat) (f : FrameFacts) (prevSeq : Nat) (cells : Nat) (recs : List (List Byte)) (w : Work) :
    List Byte :=
  let st := fun (r : List Byte) => recordField r 21 1 % 4
  let tr := recs.filter fun r => st r == 2
  let flows := if tr.isEmpty then [] else (w.ctxs.filter fun e => e.2.state == 2).map fun e =>
    rneSqrt (e.2.flowX.natAbs ^ 2 + e.2.flowY.natAbs ^ 2) (2 ^ 24)
  let resid : Nat := (tr.map fun r => recordField r 24 2).foldl (· + ·) 0
  let lost := fun (k : Nat) => (recs.filter fun r => st r == 3 && recordField r 22 1 == k).length
  leBytes 1 stream ++ leBytes 1 flags ++ leBytes 2 recs.length ++ leBytes 4 f.seq ++ leBytes 16 f.dts.toNat
    ++ leBytes 4 prevSeq ++ leBytes 2 (recs.filter fun r => st r == 1).length ++ leBytes 2 tr.length
    ++ leBytes 2 w.merged.length ++ leBytes 2 (w.ctxs.filter fun e => e.2.state == 3).length ++ leBytes 2 cells
    ++ leBytes 2 (if flows.isEmpty then 0 else lowerMedian flows)
    ++ leBytes 2 (if tr.isEmpty then 0 else lowerMedian (tr.map fun r => recordField r 16 2))
    ++ leBytes 2 (if tr.isEmpty then 0 else (rne (resid : Nat) tr.length).toNat) ++ leBytes 2 w.skipped ++ zeros 2
    ++ (List.range 8).flatMap fun (k : Nat) => leBytes 2 (lost (k + 1))

end Sys2Proof.Machine
end

