-- ==== Sys2Proof/Machine/Requests.lean ====
section
/-! DEFINITION. The opcodes of the mailbox with their payload sizes (R835) and their static field checks (R157,
check 7), chapter by chapter, as the command tables of the spec give them. -/

namespace Sys2Proof.Machine

/-- System group: mailbox service (R170) and power (R771). -/
def specSystem : List Spec := [
  ⟨0x0100, .range 0 4016, []⟩,
  ⟨0x0101, .fixed 4, []⟩,
  ⟨0x0102, .fixed 12, [.mask 10 2 1]⟩,
  ⟨0x0103, .fixed 4, []⟩,
  ⟨0x0104, .fixed 0, []⟩,
  ⟨0x0108, .fixed 0, []⟩,
  ⟨0x0110, .fixed 0, []⟩,
  ⟨0x0111, .fixed 4, [.zero 1 3, .rng 0 1 20 255]⟩,
  ⟨0x0112, .fixed 4, [.rng 0 1 0 7, .rng 1 1 0 11, .rng 2 1 0 1, .zero 3 1]⟩,
  ⟨0x0113, .fixed 4, [.rng 0 1 0 7, .rng 1 1 0 1, .zero 2 2]⟩,
  ⟨0x0114, .fixed 12, [.rng 0 1 0 1, .zero 1 1]⟩]

/-- Time group (R228). -/
def specTime : List Spec := [
  ⟨0x0200, .fixed 0, []⟩,
  ⟨0x0201, .fixed 12, [.rng 0 1 0 3, .rng 1 1 0 127, .mask 2 2 3, .rng 4 2 1 3600, .zero 6 2,
    .rng 8 4 1000 1000000000]⟩,
  ⟨0x0202, .fixed 12, [.rng 8 4 0 999999999]⟩,
  ⟨0x0203, .fixed 28, [.rng 0 1 0 5, .zero 3 1]⟩,
  ⟨0x0204, .fixed 4, [.rng 0 1 0 5, .zero 2 2]⟩,
  ⟨0x0205, .fixed 24, [.rng 0 1 0 7, .rng 1 1 0 1, .zero 2 2]⟩,
  ⟨0x0206, .fixed 20, [.rng 0 1 0 15, .among 1 1 [0, 1, 2, 3, 4, 5, 6, 7, 0xFF], .rng 2 1 0 2, .rng 3 1 0 1]⟩,
  ⟨0x0207, .fixed 12, [.rng 0 1 0 3, .rng 1 1 0 4, .rng 2 1 0 2, .rng 3 1 0 1, .srng 4 1 (-7) 1, .srng 5 1 (-3) 3,
    .srng 6 1 (-7) 1, .rng 7 1 2 10, .mask 10 1 1, .zero 11 1]⟩,
  ⟨0x0208, .fixed 4, [.rng 0 1 0 3, .zero 1 3]⟩,
  ⟨0x0209, .fixed 16, [.rng 0 1 0 1, .rng 1 1 0 1, .rng 2 1 0 1, .zero 3 1, .rng 12 2 1 500, .zero 14 2]⟩]

/-- Jobs and units group (R374, R749). -/
def specJobs : List Spec := [
  ⟨0x0500, .list 32 28 1 4, [.zero 4 4, .rng 24 1 0 7, .zero 25 1, .rng 26 2 0 10000, .rng 28 1 1 64, .zero 29 3]⟩,
  ⟨0x0501, .fixed 4, [.zero 2 2]⟩,
  ⟨0x0502, .fixed 0, []⟩,
  ⟨0x0503, .fixed 4, [.rng 0 1 0 7, .zero 1 1, .rng 2 2 1 10000]⟩,
  ⟨0x0504, .fixed 4, [.rng 0 1 0 7, .rng 1 1 0 11, .zero 2 2]⟩,
  ⟨0x0505, .fixed 4, [.rng 0 1 0 7, .zero 1 3]⟩,
  ⟨0x0506, .fixed 24, [.zero 4 4]⟩,
  ⟨0x0507, .fixed 0, []⟩,
  ⟨0x0508, .fixed 0, []⟩,
  ⟨0x0520, .fixed 4, [.rng 0 1 0 63, .zero 1 3]⟩,
  ⟨0x0521, .fixed 4, [.rng 0 2 0 1087, .zero 2 2]⟩]

/-- Memory group (R414). -/
def specMemory : List Spec := [
  ⟨0x0600, .fixed 0, []⟩,
  ⟨0x0601, .fixed 12, [.rng 0 8 1 (2 ^ 64 - 1), .rng 8 1 0 2, .zero 10 2]⟩,
  ⟨0x0602, .fixed 4, []⟩,
  ⟨0x0603, .fixed 8, []⟩,
  ⟨0x0604, .fixed 20, [.zero 4 4, .rng 16 4 1 4064]⟩,
  ⟨0x0605, .data 24 16 4, [.zero 4 4, .rng 16 4 1 3992, .zero 20 4]⟩]

/-- Security group (R818). -/
def specSecurity : List Spec := [
  ⟨0x1000, .fixed 0, []⟩,
  ⟨0x1001, .fixed 0, []⟩,
  ⟨0x1002, .fixed 32, []⟩,
  ⟨0x1003, .fixed 20, [.zero 4 4, .zero 18 2]⟩,
  ⟨0x1004, .fixed 0, []⟩,
  ⟨0x1005, .fixed 16, [.zero 4 4]⟩,
  ⟨0x1006, .fixed 0, []⟩,
  ⟨0x1007, .fixed 16, [.zero 4 4]⟩]

/-- Self-test group (R795). -/
def specSelfTest : List Spec := [
  ⟨0x0F00, .fixed 24, [.mask 2 1 1, .zero 5 1, .rng 8 2 0 60000, .zero 14 2]⟩,
  ⟨0x0F01, .fixed 4, []⟩,
  ⟨0x0F02, .list 8 1 1 1, [.rng 0 1 0 7, .rng 1 1 1 8, .zero 2 2, .among 4 4 [0x0860F05E]]⟩,
  ⟨0x0F03, .fixed 0, []⟩]

/-- Ingest group (R277). What a disabling command does not use is checked by its row (DEDUCED, log entry 19). -/
def specIngest : List Spec := [
  ⟨0x0300, .fixed 16, [.rng 1 1 0 1, .rng 3 1 0 100, .zero 14 2]⟩,
  ⟨0x0301, .fixed 4, [.zero 1 3]⟩,
  ⟨0x0302, .fixed 24, [.rng 0 1 0 15, .rng 1 1 0 1, .rng 3 1 0 15,
    .among 4 1 [0x1E, 0x2A, 0x2B, 0x2C, 0x2D, 0x2E, 0x2F],
    .among 5 1 [0, 1, 2, 3, 4, 5, 6, 7, 8, 9, 10, 11, 12, 13, 14, 15, 0xFF], .zero 6 2, .rng 8 2 16 8192,
    .rng 10 2 16 8192, .rng 12 4 1000 1000000]⟩,
  ⟨0x0303, .fixed 8, [.rng 0 1 0 7, .rng 1 1 0 1, .zero 2 2]⟩,
  ⟨0x0304, .fixed 28, [.rng 0 1 0 3, .zero 1 1, .zero 10 2]⟩,
  ⟨0x0305, .fixed 4, [.rng 0 1 0 3, .zero 1 3]⟩,
  ⟨0x0306, .flagList 88 3 3 30 1 4, [.rng 0 1 16 23, .mask 1 1 15, .among 2 1 [4, 6], .mask 3 1 31, .rng 26 2 1 1024,
    .rng 30 1 1 128, .zero 31 1, .rng 44 4 2000 500000, .rng 58 1 0 10, .zero 59 1, .rng 66 1 0 10, .zero 67 1,
    .rng 74 1 0 10, .zero 75 1, .rng 82 1 0 10, .zero 83 1]⟩,
  ⟨0x0307, .fixed 88, [.rng 0 1 0 3, .among 1 1 [0, 3], .rng 2 1 0 1, .rng 3 1 1 16, .rng 4 4 1000 50000,
    .rng 8 4 1 8000, .rng 28 1 1 48, .zero 31 1, .rng 34 1 0 10, .zero 35 1, .rng 42 1 0 10, .zero 43 1,
    .rng 50 1 0 10, .zero 51 1, .rng 58 1 0 10, .zero 59 1, .rng 66 1 0 10, .zero 67 1, .rng 74 1 0 10, .zero 75 1,
    .rng 82 1 0 10, .zero 83 1]⟩,
  ⟨0x0308, .fixed 12, [.rng 0 1 0 7, .rng 1 1 0 3, .mask 2 1 3, .rng 3 1 0 100]⟩,
  ⟨0x0309, .fixed 16, [.rng 0 1 0 1, .rng 1 1 0 1, .rng 2 1 0 1, .rng 3 1 0 1]⟩,
  ⟨0x030A, .list 12 3 1 16, [.rng 0 1 0 1, .rng 1 1 0 31, .mask 2 1 3, .rng 3 1 1 4]⟩,
  ⟨0x030B, .fixed 24, [.rng 0 1 0 1, .zero 2 2, .rng 16 4 64 1073741824]⟩]

/-- Static checks of the SFE group (R323). -/
def specSfe : List Spec := [
  ⟨0x0400, .fixed 32, [.rng 0 1 32 127, .rng 1 1 0 1, .zero 28 4]⟩,
  ⟨0x0401, .fixed 12, [.rng 0 1 0 7, .rng 1 1 0 1, .rng 2 1 6 12, .rng 3 1 1 255, .zero 8 4]⟩,
  ⟨0x0402, .fixed 12, [.rng 0 1 0 7, .rng 1 1 0 2, .mask 2 1 1, .zero 3 1]⟩,
  ⟨0x0403, .fixed 12, [.rng 0 1 32 63, .mask 1 1 3, .zero 5 3]⟩,
  ⟨0x0404, .fixed 12, [.rng 0 1 32 127, .rng 1 1 0 1, .zero 2 2]⟩,
  ⟨0x0405, .fixed 4, [.rng 0 1 32 127, .zero 1 3]⟩,
  ⟨0x0406, .fixed 4, [.rng 0 1 0 6, .zero 1 1]⟩]

/-- Static checks of the stereo group (R446, R450). -/
def specSte : List Spec := [
  ⟨0x0700, .fixed 22, [.rng 0 1 0 7, .rng 1 1 0 2, .rng 2 1 0 12, .zero 3 1, .rng 4 2 1 0xFFFF, .rng 6 2 512 4096,
    .rng 8 2 256 3072, .rng 10 2 0 1024, .rng 12 2 64 512, .rng 14 1 1 63, .rng 16 1 0 7, .rng 17 1 1 16, .rng 18 1 0 3,
    .rng 19 1 0 15, .rng 20 1 2 8, .zero 21 1]⟩,
  ⟨0x0701, .fixed 16, [.rng 0 1 0 7, .rng 1 1 0 1, .mask 2 1 1, .zero 3 1]⟩,
  ⟨0x0702, .fixed 16, [.rng 0 1 0 7, .rng 1 1 0 1, .mask 2 1 1, .zero 3 1]⟩,
  ⟨0x0703, .fixed 4, [.rng 0 1 0 7, .zero 1 3]⟩,
  ⟨0x0704, .fixed 48, [.rng 0 1 0 7, .zero 1 3, .zero 44 4]⟩]

/-- Static checks of the tracking group (R483, R487). Settings of a disabling command are not used (log entry 19). -/
def specFte : List Spec := [
  ⟨0x0800, .fixed 46, [.rng 0 1 0 15, .rng 1 1 0 1, .rng 2 1 0 2, .rng 3 1 0 12, .rng 4 2 1 0xFFFF, .rng 6 2 0 8192,
    .rng 8 1 1 5, .among 9 1 [7, 9, 11, 13, 15], .rng 10 1 1 16, .rng 11 1 1 255, .rng 12 1 0 2, .mask 13 1 1,
    .rng 14 1 1 8, .rng 15 1 1 16, .rng 16 1 1 8, .rng 17 1 2 64, .rng 19 1 1 255, .rng 20 2 1 0xFFFF,
    .rng 22 2 1 0xFFFF, .rng 24 2 8 1024, .rng 26 2 128 0xFF00, .rng 28 2 16 4096, .among 30 1 [0, 32, 64, 128],
    .zero 31 3]⟩,
  ⟨0x0801, .fixed 16, [.rng 0 1 0 15, .mask 1 1 1, .zero 2 2]⟩,
  ⟨0x0802, .fixed 4, [.rng 0 1 0 15, .zero 1 3]⟩,
  ⟨0x0803, .fixed 4, []⟩,
  ⟨0x0804, .fixed 48, [.rng 0 1 0 15, .zero 1 3, .zero 44 4]⟩]

/-- Static checks of the fusion group (R525). -/
def specGrid : List Spec := [
  ⟨0x0900, .fixed 16, [.rng 0 2 50 1000, .rng 2 2 256 1024, .among 4 1 [32, 64, 96, 128], .rng 5 1 2 8, .rng 6 2 8 256,
    .rng 12 1 0 64, .rng 13 1 0 64, .rng 14 1 0 1, .zero 15 1]⟩,
  ⟨0x0901, .fixed 12, [.rng 0 1 0 15, .rng 1 1 0 23, .rng 2 1 0 2, .rng 3 1 0 1, .rng 4 2 1 256, .among 7 1 [4, 8, 16]]⟩,
  ⟨0x0902, .fixed 112, [.rng 0 1 0 23, .rng 1 1 0 2, .mask 2 1 7, .zero 3 5, .zero 36 4, .zero 76 28, .zero 104 8]⟩,
  ⟨0x0903, .fixed 4, [.rng 0 1 0 23, .zero 1 3]⟩,
  ⟨0x0904, .fixed 16, [.rng 0 1 0 23, .mask 1 1 7, .rng 2 2 1 600, .zero 12 4]⟩,
  ⟨0x0905, .fixed 16, [.rng 4 1 1 255, .rng 5 1 1 255, .rng 7 1 0 3, .zero 12 4]⟩,
  ⟨0x0906, .fixed 0, []⟩]

/-- Static checks of the solver group (R577). -/
def specSlv : List Spec := [
  ⟨0x0A00, .fixed 24, [.rng 0 1 0 7, .rng 1 1 0 3, .zero 2 2]⟩,
  ⟨0x0A01, .inlined 20 2 0 16 4, [.rng 0 1 0 7, .rng 1 1 0 3, .mask 2 1 1, .zero 3 1]⟩,
  ⟨0x0A02, .fixed 32, [.rng 0 1 0 7, .rng 1 1 0 3, .mask 2 1 1, .zero 3 1, .rng 4 2 0 1000, .zero 6 2,
    .rng 16 4 0 999999999]⟩,
  ⟨0x0A03, .fixed 4, [.rng 0 1 0 7, .rng 1 1 0 3, .zero 2 2]⟩,
  ⟨0x0A04, .fixed 4, [.rng 0 1 0 7, .rng 1 1 0 3, .zero 2 2]⟩,
  ⟨0x0A05, .fixed 36, [.rng 0 1 24 27, .zero 1 3]⟩,
  ⟨0x0A06, .fixed 0, []⟩]

/-- Static checks of the localisation group (R612). -/
def specLoc : List Spec := [
  ⟨0x0B00, .fixed 36, [.rng 0 1 0 7, .rng 1 1 4 16, .rng 2 1 4 16, .rng 3 1 10 95, .rng 4 2 8 1000, .rng 6 2 20 1000,
    .rng 8 2 5 100, .rng 10 2 1 1000, .among 12 2 [1, 2, 4, 5, 8, 10, 20, 25, 40, 50, 100, 125, 200, 250, 500, 1000],
    .rng 14 2 1 3000, .rng 16 2 0 3000, .rng 18 2 1 3000, .rng 20 2 1 3600, .rng 22 2 10 10000, .rng 24 2 10 3000,
    .rng 26 2 1 600]⟩,
  ⟨0x0B01, .fixed 0, []⟩,
  ⟨0x0B02, .fixed 4, [.mask 0 1 1, .zero 1 3]⟩,
  ⟨0x0B03, .fixed 32, [.rng 0 1 0 3, .rng 1 1 0 2, .rng 2 1 0 1, .rng 12 1 0 7, .rng 13 1 0 7, .zero 14 2]⟩,
  ⟨0x0B04, .fixed 24, [.rng 0 1 0 1, .rng 1 1 1 4, .zero 2 2, .rng 20 2 5 1000, .zero 22 2]⟩,
  ⟨0x0B05, .fixed 52, [.rng 4 4 0 999999999, .rng 48 1 0 4, .zero 49 3]⟩,
  ⟨0x0B06, .fixed 18, [.rng 0 1 0 1, .rng 1 1 1 64, .rng 2 1 1 16, .rng 3 1 0 1, .rng 6 2 10 1000, .rng 8 1 10 90,
    .rng 9 1 0 7, .rng 10 1 1 30, .zero 11 1, .rng 12 2 0 3600, .rng 14 4 10000 10000000]⟩,
  ⟨0x0B07, .fixed 0, []⟩]

/-- Static checks of the map group (R649). -/
def specMap : List Spec := [
  ⟨0x0C00, .fixed 0, []⟩,
  ⟨0x0C01, .fixed 4, [.rng 0 2 64 8192, .zero 2 2]⟩,
  ⟨0x0C02, .fixed 28, [.zero 4 4, .mask 24 1 1, .zero 25 3]⟩,
  ⟨0x0C03, .list 16 2 1 4, [.rng 0 1 0 2, .mask 1 1 1, .rng 2 1 0 16, .zero 3 1]⟩,
  ⟨0x0C04, .fixed 12, [.zero 10 2]⟩,
  ⟨0x0C05, .fixed 24, [.rng 4 1 0 2, .zero 5 1]⟩,
  ⟨0x0C06, .fixed 0, []⟩]

/-- Static checks of the search group (R691). -/
def specPrs : List Spec := [
  ⟨0x0D00, .fixed 4, [.rng 0 1 0 3, .zero 1 3]⟩,
  ⟨0x0D01, .fixed 8, [.rng 0 1 0 3, .rng 1 1 0 1]⟩,
  ⟨0x0D02, .fixed 24, [.rng 0 1 0 3, .zero 1 3]⟩,
  ⟨0x0D03, .fixed 24, [.rng 0 1 1 3, .zero 1 3, .rng 4 4 1 16777216, .zero 12 4]⟩,
  ⟨0x0D04, .fixed 64, [.rng 0 1 0 3, .mask 1 1 1, .rng 2 1 0 2, .zero 3 1, .rng 4 2 1 256, .rng 6 2 1 256, .zero 10 2,
    .rng 12 4 1 65536, .zero 60 4]⟩,
  ⟨0x0D05, .fixed 4, [.rng 0 1 0 3, .zero 1 3]⟩,
  ⟨0x0D06, .fixed 4, [.rng 0 2 0 10000, .rng 2 1 5 100, .zero 3 1]⟩]

/-- Static checks of the outputs group (R711). What a disabling command does not use is checked by its row.
DEDUCED: log entry 19. -/
def specOut : List Spec := [
  ⟨0x0E00, .fixed 16, [.rng 0 1 0 1, .rng 1 1 0 1, .zero 12 4]⟩,
  ⟨0x0E01, .fixed 8, [.among 0 1 [0x30, 0x31, 0x32, 0x34, 0x35], .rng 1 1 0 1, .rng 2 1 0 1, .rng 3 1 0 15, .zero 5 1]⟩,
  ⟨0x0E02, .fixed 4, [.rng 0 1 0 1, .zero 1 3]⟩,
  ⟨0x0E03, .fixed 24, [.rng 0 1 0 1, .rng 1 1 0 15, .zero 2 2]⟩,
  ⟨0x0E04, .fixed 8, [.rng 4 2 1 126, .zero 6 2]⟩,
  ⟨0x0E10, .fixed 20, [.mask 1 1 7, .zero 19 1]⟩,
  ⟨0x0E11, .fixed 16, [.rng 0 1 0 1, .zero 1 3]⟩,
  ⟨0x0E12, .fixed 4, [.among 0 1 [0, 1, 0xFF], .zero 1 3]⟩,
  ⟨0x0E13, .fixed 0, []⟩]



/-- Every defined opcode. -/
def specs : List Spec :=
  specSystem ++ specTime ++ specJobs ++ specMemory ++ specSecurity ++ specSelfTest ++ specIngest ++ specSfe ++ specSte
    ++ specFte ++ specGrid ++ specSlv ++ specLoc ++ specMap
    ++ specPrs ++ specOut

/-- The entry of an opcode. -/
def specOf (op : Nat) : Option Spec := specs.find? (fun s => s.op == op)

/-- Opcode groups served from FW_START (R126): system, time, self-test, security. -/
def earlyGroup (op : Nat) : Bool := [0x01, 0x02, 0x0F, 0x10].elem (op / 256)

/-- The status of the first of the checks 4 to 7 of R157 that fails. -/
def staticCheck (d : Device) (r : Request) : Option Nat :=
  match specOf r.op with
  | none => some stBadOpcode
  | some sp =>
    if !(d.boot.ready || earlyGroup r.op) then some stBadState
    else if !sp.len.ok r then some stBadLength
    else if !sp.checks.all (fun c => c.ok r) then some stBadField
    else none

end Sys2Proof.Machine
end

