-- ==== Sys2Proof/Machine/Ste.lean ====
section
/-! DEFINITION. The stereo engine: its commands (R446, R447, R450, R451) and the events of an operation (R421, R436 to
R444). -/

namespace Sys2Proof.Machine

/-! ## Settings -/

/-- The record of a pair. -/
def Device.stePair (d : Device) (p : Nat) : StePair := d.vis.pairs.getD p StePair.reset
def Device.updSte (d : Device) (p : Nat) (f : StePair → StePair) : Device :=
  { d with vis := { d.vis with pairs := d.vis.pairs.upd p StePair.reset f } }

/-- The settings a pair resets to: those of its primary camera (R446). -/
def Device.steDefault (d : Device) (p : Nat) : SteCfg :=
  let c := d.csi (2 * p)
  ⟨0, dtBits c.dt - 8, 2 ^ dtBits c.dt - 1, min 4096 (c.width / 64 * 64), min 3072 (c.height / 64 * 64), 0, 128, 10, 120,
   2, 4, 1, 2, 3⟩

/-- The settings of a pair. -/
def Device.steCfg (d : Device) (p : Nat) : SteCfg := (d.stePair p).cfg.getD (d.steDefault p)

/-- A camera smaller than 512 × 256 leaves its pair ABSENT (R446). -/
def Device.steTooSmall (d : Device) (p : Nat) : Bool :=
  (d.steCfg p).outW < 512 || (d.steCfg p).outH < 256

/-- The fields of STE_CONFIG that depend on one another (R425, R446). -/
def steFieldsOk (r : Request) : Bool :=
  r.u 6 2 % 64 == 0 && r.u 8 2 % 64 == 0 && r.u 10 2 % 8 == 0 && r.u 12 2 % 8 == 0 && r.u 14 1 < r.u 15 1

/-- STE_CONFIG's effect (R446). A change of the output size leaves identity maps and clear masks. -/
def steConfig (r : Request) (d : Device) : Device × Reply :=
  let p := r.u 0 1
  let c : SteCfg := ⟨r.u 1 1, r.u 2 1, r.u 4 2, r.u 6 2, r.u 8 2, r.u 10 2, r.u 12 2, r.u 14 1, r.u 15 1, r.u 16 1,
    r.u 17 1, r.u 18 1, r.u 19 1, r.u 20 1⟩
  let old := d.steCfg p
  let same := old.outW = c.outW && old.outH = c.outH
  if !steFieldsOk r then (d, ans stBadField)
  else if !d.visionUp p then (d, ans stNoResource)
  else (d.updSte p fun x => { x with
    cfg := some c, maps := if same then x.maps else [], masks := if same then x.masks else [] }, ans stOk)

/-- STE_CONFIG as a setting (R135, R447). DESIGN CHOICE: log entry 23. -/
def setSteConfig : Setting := ⟨0x0700, 1, fun r _ => [(2, r.u 0 1)], devBody steConfig⟩

/-- STE_CONFIG (R446, R447). -/
def execSteConfig (ch : Fin 8) (s : State) : Host.Outcome State Fault Refusal := configure setSteConfig ch s

/-- The bytes of a READY host buffer's range, or none where the command answers BAD_FIELD (R450); a record of a profile that
loads names a buffer of the profile (R746). -/
def Device.hostBytes (d : Device) (m : Store) (id off n : Nat) : Option (List Byte) :=
  match d.buf id with
  | none => none
  | some b =>
    if ((isHostBuf id && d.bufReady id) || (decide (d.jobs.profile.state = .none) && d.jobs.profile.bufs.elem id))
        && off + n ≤ b.size then (d.bufRead m id off n).toOption
    else none

/-- STE_MAP's effect (R419, R447): the next operation that starts takes the map. -/
def steMap (r : Request) (d : Device) (m : Store) : (Device × Store) × Reply :=
  let p := r.u 0 1
  let c := d.steCfg p
  if !d.visionUp p then ((d, m), ans stNoResource)
  else if r.u 2 1 % 2 = 1 then ((d.updSte p fun x => { x with maps := x.maps.del (r.u 1 1) }, m), ans stOk)
  else
    match d.hostBytes m (r.u 4 4) (r.u 8 8) (mapBytes c.outW c.outH) with
    | none => ((d, m), ans stBadField)
    | some bs => ((d.updSte p fun x => { x with maps := x.maps.put (r.u 1 1) bs }, m), ans stOk)

/-- STE_MAP as a setting: permitted at any time. DESIGN CHOICE: log entry 23. -/
def setSteMap : Setting := ⟨0x0701, 0, fun _ _ => [], steMap⟩

/-- STE_MAP (R447). -/
def execSteMap (ch : Fin 8) (s : State) : Host.Outcome State Fault Refusal := configure setSteMap ch s

/-- STE_MASK's effect (R447, R450). -/
def steMask (r : Request) (d : Device) (m : Store) : (Device × Store) × Reply :=
  let p := r.u 0 1
  let c := d.steCfg p
  if !d.visionUp p then ((d, m), ans stNoResource)
  else if r.u 2 1 % 2 = 1 then ((d.updSte p fun x => { x with masks := x.masks.del (r.u 1 1) }, m), ans stOk)
  else
    match d.hostBytes m (r.u 4 4) (r.u 8 8) (maskBytes c.outW c.outH) with
    | none => ((d, m), ans stBadField)
    | some bs => ((d.updSte p fun x => { x with masks := x.masks.put (r.u 1 1) bs }, m), ans stOk)

/-- STE_MASK as a setting: permitted at any time. -/
def setSteMask : Setting := ⟨0x0702, 0, fun _ _ => [], steMask⟩

/-- STE_MASK (R447). -/
def execSteMask (ch : Fin 8) (s : State) : Host.Outcome State Fault Refusal := configure setSteMask ch s

/-! ## Operations -/

/-- Operations of a pair's engine. -/
def Device.steOps (d : Device) (p : Nat) : List SteOp := d.vis.ste.filter fun o => o.pair == p

/-- An operation replaced. -/
def Device.putSte (d : Device) (o : SteOp) : Device :=
  { d with vis := { d.vis with ste := d.vis.ste.map fun x => if x.job = o.job && x.pair = o.pair then o else x } }

/-- The operation of a pair that comes first among those a condition admits (R55). -/
def Device.pickSte (d : Device) (p : Nat) (ok : SteOp → Bool) : Option SteOp :=
  let xs := (d.steOps p).filter ok
  match d.firstJob (xs.map (·.job)) with
  | none => none
  | some j => xs.find? fun o => o.job == j

/-- The band of a view is next to build, and its source lines have landed (R421). -/
def Device.bandReady (d : Device) (o : SteOp) (view : Nat) (f : FrameSrc) : Bool :=
  let k := if view = 0 then o.builtL else o.builtR
  match f.slot with
  | none => true
  | some (s, slot) =>
    let n := d.linesReady s slot
    decide (lastLine (o.maps.look view) o.cfg.outW o.cfg.input k < n) || decide (n = (d.csi s).height)

/-- The frame an operation reads for a view; a TICK operation takes that of its tick. -/
def Device.steSource (d : Device) (o : SteOp) (view : Nat) : Option FrameSrc :=
  match if view = 0 then o.left else o.right with
  | some f => some f
  | none =>
    match d.job o.job with
    | none => none
    | some j =>
      let s := 2 * o.pair + view
      (d.tickFrame s (dtsMoment j.edge)).map fun k => ⟨(d.stream s).bufs.getD k 0, 0, some (s, k)⟩

/-- An operation with a view's frame set and one more band built. -/
def SteOp.build (o : SteOp) (view : Nat) (f : FrameSrc) : SteOp :=
  if view = 0 then { o with left := some f, builtL := o.builtL + 1 }
  else { o with right := some f, builtR := o.builtR + 1 }

/-- STE_BAND_BUILD (R421, R437): the next band of a view is rectified and added to the pyramid. -/
def execSteBandBuild (die : Fin 8) (view : Fin 2) (s : State) : Host.Outcome State Fault Refusal :=
  onBoth (fun d m =>
    let p := die.val
    let v := view.val
    if !d.visionUp p || d.engineTested p 0 then (d, m) else
      match d.pickSte p fun o => !o.absent && (if v = 0 then o.builtL else o.builtR) < o.cfg.bands
          && (match d.steSource o v with | some f => d.bandReady o v f | none => false) with
      | none => (d, m)
      | some o =>
        match d.steSource o v with
        | none => (d, m)
        | some f =>
          let err := match d.buf f.buf, f.slot with
            | some b, some (st, _) => d.rangeError b (f.off + 4096) ((d.csi st).strideBytes * (d.csi st).height) false
            | some b, none => d.rangeError b f.off (d.source m f).size false
            | none, _ => some (.completion 0)
          match err with
          | some e => (d.engineFault o.job 1 p e, m)
          | none =>
            let d := d.putSte (o.build v f)
            (match f.slot with | some (st, k) => d.holdSlot o.job st k | none => d, m)) s

/-- The two rectified views of an operation (R420). -/
def Device.stereo (d : Device) (m : Store) (o : SteOp) : Stereo :=
  let view := fun (f : Option FrameSrc) (v : Nat) =>
    rectified (d.source m (f.getD ⟨0, 0, none⟩)) o.cfg.input o.cfg.shift o.cfg.sat (o.maps.look v) (o.masks.look v)
      o.cfg.outW o.cfg.outH
  ⟨o.cfg, view o.left 0, view o.right 1⟩

/-- Whether two source frames may be matched: those of a tick are paired (R271). -/
def Device.stePaired (d : Device) (o : SteOp) : Bool :=
  match o.left.bind (·.slot), o.right.bind (·.slot) with
  | some (s, k), some (t, l) =>
    match (d.stream s).frames.look k, (d.stream t).frames.look l with
    | some f, some g => f.partner == some (t, g.seq)
    | _, _ => false
  | none, none => true
  | _, _ => false

/-- Whether every tile of an operation is done. -/
def SteOp.tilesDone (o : SteOp) : Bool := o.level == 0 && o.cfg.tiles 0 ≤ o.tile

/-- Whether an operation has a tile to run (R437). -/
def Device.steMatching (d : Device) (o : SteOp) : Bool :=
  !o.absent && o.builtL == o.cfg.bands && o.builtR == o.cfg.bands && !o.tilesDone && d.stePaired o

/-- An operation after its present tile, with the tile's clip counted (R427, R436). -/
def SteOp.nextTile (o : SteOp) (clip : Bool) : SteOp :=
  let o := { o with clips := o.clips + b2n clip }
  if o.tile + 1 < o.cfg.tiles o.level || o.level = 0 then { o with tile := o.tile + 1 }
  else { o with level := o.level - 1, tile := 0 }

/-- The operation an engine is on. -/
def Device.setSteOn (d : Device) (p : Nat) (j : Option Nat) : Device :=
  { d with vis := { d.vis with steOn := match j with
    | some j => d.vis.steOn.put p j
    | none => d.vis.steOn.del p } }

/-- STE_TILE_BOUNDARY (R436, R438, R55): a tile of the running operation ends; the engine goes on with the operation first
in priority. -/
def execSteTileBoundary (die : Fin 8) (s : State) : Host.Outcome State Fault Refusal :=
  onBoth (fun d m =>
    let p := die.val
    if !d.visionUp p || d.engineTested p 0 then (d, m) else
      let running := (d.steOps p).find? fun o => d.vis.steOn.look p == some o.job && d.steMatching o
      match running.orElse fun _ => d.pickSte p d.steMatching with
      | none => (d, m)
      | some o =>
        let n := tilesX (o.cfg.levelW o.level)
        let clip := decide (o.level ≤ 2) && ((d.stereo m o).rangeAt o.level (o.tile % n) (o.tile / n)).clip
        let d := d.putSte (o.nextTile clip)
        let d := if clip then d.diagAdd p 0x1C8 0 16 1 else d
        let next := (d.pickSte p d.steMatching).map (·.job)
        (d.setSteOn p (next.orElse fun _ => some o.job), m)) s

/-- A landing band slot (R439). -/
structure BandSlot where
  cluster : Nat
  block : Nat
  full : Nat
  free : Nat
  deriving DecidableEq, Repr

/-- Blocks a band slot takes (R439). -/
def SteCfg.slotBlocks (c : SteCfg) : Nat := (192 * c.outW + 32767) / 32768

/-- Whether a slot lies in the job's landing blocks and flag groups (R441). -/
def Device.slotOk (d : Device) (job : Nat) (c : SteCfg) (x : BandSlot) : Bool :=
  let k := d.cluster x.cluster
  (List.range c.slotBlocks).all (fun (i : Nat) => k.blocks.look (x.block + i) == some job)
    && k.groups.look (x.full / 32) == some job && k.groups.look (x.free / 32) == some job

/-- Whether an operation's next band can be written (R436, R444). -/
def SteOp.bandDue (o : SteOp) : Bool :=
  o.tick && o.band < o.cfg.bands
    && (o.absent || (o.level == 0 && (o.band + 1) * tilesX o.cfg.outW ≤ o.tile))

/-- STE_BAND_WRITE (R439 to R442, R444): the next level-0 band goes to its slot once FREE_FLAG allows, and FULL_FLAG is
raised. The slots are those firmware placed in the job's blocks (R747). -/
def execSteBandWrite (die : Fin 8) (slots : List (Nat × Nat × Nat × Nat)) (s : State) :
    Host.Outcome State Fault Refusal :=
  onBoth (fun d m =>
    let p := die.val
    let n := slots.length
    if !d.visionUp p || d.engineTested p 0 || n < 2 || 16 < n then (d, m) else
      match d.pickSte p (·.bandDue) with
      | none => (d, m)
      | some o =>
        let ss := slots.map fun x => (⟨x.1, x.2.1, x.2.2.1, x.2.2.2⟩ : BandSlot)
        if !ss.all (d.slotOk o.job o.cfg) then (d.jobFault o.job 0x03 1 p 0 none 0, m)
        else
          let x := ss.getD (o.band % n) ⟨0, 0, 0, 0⟩
          if (d.cluster x.cluster).flags.getD x.free 0 < o.band / n then
            let d := if o.waited then d else d.diagAdd p 0x1CC 0 32 1
            (d.putSte { o with waited := true }, m)
          else
            let b := if o.absent then absentBand o.cfg else (d.stereo m o).band o.band
            let m := m.sramWrite (landAddr x.cluster (x.block * 32768)) (b.1 ++ b.2.1)
            let d := d.updCluster x.cluster fun k => { k with
              flags := k.flags.put x.full (min 0xFFFF (k.flags.getD x.full 0 + 1)) }
            (d.putSte { o with band := o.band + 1, waited := false }, m)) s

/-- The frame record of an operation (R443). -/
def steRecord (o : SteOp) (seqL seqR : Nat) (dts : BitVec 128) (counts : List Nat) : List Byte :=
  leBytes 1 o.pair ++ leBytes 1 (b2n o.absent + 2 * b2n (0 < o.clips)) ++ leBytes 2 o.cfg.outW ++ leBytes 2 o.cfg.outH
    ++ leBytes 2 o.cfg.dMin ++ leBytes 2 o.cfg.dRange ++ leBytes 2 (min o.clips 0xFFFF) ++ leBytes 4 seqL
    ++ leBytes 16 dts.toNat ++ leBytes 4 seqR ++ counts.flatMap (leBytes 4)

/-- SEQ and DTS of a source frame's record (R238). -/
def Device.frameSeq (d : Device) (m : Store) (f : Option FrameSrc) : Nat × BitVec 128 :=
  match f with
  | none => (0xFFFFFFFF, 0)
  | some f =>
    let h := fwRead d m f.buf f.off 24
    (leNat ((h.drop 4).take 4), BitVec.ofNat 128 (leNat ((h.drop 8).take 16)))

/-- What a finished operation leaves: planes, record, counts and cycles. -/
structure SteOut where
  disp : List Byte
  qual : List Byte
  record : List Byte
  seq : Nat
  dts : BitVec 128
  counts : List Nat
  cycles : Nat
  deriving DecidableEq, Repr

/-- The output of an operation (R434, R435, R443, R444, R445). -/
def Device.steOutput (d : Device) (m : Store) (o : SteOp) : SteOut :=
  let t := d.stereo m o
  let bands := (List.range o.cfg.bands).map fun (b : Nat) => if o.absent then absentBand o.cfg else t.band b
  let st := bands.flatMap (·.2.2)
  let counts := (List.range 7).map fun (k : Nat) => (st.filter (· == k)).length
  let (seqL, dtsL) := if o.absent then (0xFFFFFFFF, (d.job o.job).elim 0 (·.edge)) else d.frameSeq m o.left
  let seqR := if o.absent then 0xFFFFFFFF else (d.frameSeq m o.right).1
  let cyc := if o.absent then (o.cfg.outW * o.cfg.outH + 15) / 16 else t.cycles
  ⟨bands.flatMap (·.1), bands.flatMap (·.2.1), steRecord o seqL seqR dtsL counts, seqL, dtsL, counts, cyc⟩

/-- Whether an operation has nothing left but its frame record. -/
def SteOp.finished (o : SteOp) : Bool :=
  (o.absent || o.tilesDone) && (!o.tick || o.cfg.bands ≤ o.band)

/-- The counters and the status of a pair after an operation (R449, R450). -/
def Device.steCount (d : Device) (o : SteOp) (x : SteOut) : Device :=
  let p := o.pair
  let busy := (d.stePair p).busy + x.cycles
  let d := (d.diagAdd p 0x1C0 0 32 1).diagAdd p 0x1C4 0 32 (busy / 1024)
  let d := if o.absent then d.diagAdd p 0x1C8 16 16 1 else d
  d.updSte p fun y => { y with
    frames := (y.frames + 1) % 2 ^ 32, absent := (y.absent + b2n o.absent) % 2 ^ 32
    clips := (y.clips + o.clips) % 2 ^ 32, lastSeq := x.seq, lastDts := x.dts, lastCycles := x.cycles
    lastCounts := x.counts, busy := busy % 1024 }

/-- STE_OP_DONE (R443, R444, R449): both planes and then the record go to the output frame; the engine is free. -/
def execSteOpDone (die : Fin 8) (s : State) : Host.Outcome State Fault Refusal :=
  onBoth (fun d m =>
    let p := die.val
    if !d.visionUp p || d.engineTested p 0 then (d, m) else
      match d.pickSte p (·.finished) with
      | none => (d, m)
      | some o =>
        let x := d.steOutput m o
        let y := d.stePair p
        let at_ := d.freeSlotOf y.ring y.at_
        let (buf, off) := if o.tick then (y.ring.getD at_ 0, 0) else (o.outBuf, o.outOff)
        let d := if o.tick then d.takeSlot buf else d
        let put := fun (a : Device × Store) (o : Nat) bs => d.bufStore a.2 buf (off + o) bs |>.map fun z => z
        match put (d, m) 4096 x.disp with
        | .error e => (d.engineFault o.job 1 p e, m)
        | .ok a =>
          match a.1.bufStore a.2 buf (off + 4096 + x.disp.length) x.qual with
          | .error e => (a.1.engineFault o.job 1 p e, a.2)
          | .ok b =>
            match b.1.bufStore b.2 buf off x.record with
            | .error e => (b.1.engineFault o.job 1 p e, b.2)
            | .ok (d, m) =>
              let d := { d with vis := { d.vis with
                ste := d.vis.ste.filter fun z => !(z.job == o.job && z.pair == p), steOn := d.vis.steOn.del p } }
              let d := d.steCount o x
              let d := if o.tick then d.updSte p fun y => { y with at_ := (at_ + 1) % max 1 y.ring.length } else d
              (match d.job o.job with
                | some j => if o.tick then d else d.setJob o.job { j with arg := j.arg ++ x.record }
                | none => d, m)) s

/-- Whether a tick finds no paired frames of a pair (R444). -/
def Device.pairAbsent (d : Device) (p : Nat) : Bool :=
  !(d.pair p).enabled || (d.pair p).lost || d.maskedNow (2 * p) || d.maskedNow (2 * p + 1) || d.steTooSmall p
    || decide ((d.stream (2 * p)).state = .off) || decide ((d.stream (2 * p + 1)).state = .off)

/-- A new operation of a job on a pair. -/
def Device.steNew (d : Device) (job p : Nat) (tick absent : Bool) (left right : Option FrameSrc) (buf off : Nat) :
    SteOp :=
  let y := d.stePair p
  ⟨job, p, tick, d.steCfg p, y.maps, y.masks, left, right, 0, 0, 3, 0, 0, 0, false, absent, buf, off⟩

/-- The STE operations of a job that starts (R712): those of a tick for each pair its profile uses, or the one of
STE_RUN. -/
def Device.steLoad (d : Device) (id : Nat) (j : Job) : Device :=
  let ops := match j.work with
    | .tick => ((List.range 8).filter fun p => d.jobs.profile.uses.elem (2, p) && d.engineUp p 0
        && d.tickDie p).map fun p =>
        d.steNew id p true (d.pairAbsent p) none none 0 0
    | .ste p l r out =>
      let f := fun o n => leNat ((j.arg.drop o).take n)
      [d.steNew id p false false (some ⟨l, f 8 8, none⟩) (some ⟨r, f 20 8, none⟩) out (f 32 8)]
    | _ => []
  { d with vis := { d.vis with ste := d.vis.ste ++ ops } }

/-- STE_STATUS (R450). -/
def execSteStatus (ch : Fin 8) (s : State) : Host.Outcome State Fault Refusal :=
  query 0x0703 ch (fun r d =>
    let p := r.u 0 1
    if !d.visionUp p then ans stNoResource else
      let y := d.stePair p
      let os := d.steOps p
      let cur := os.find? fun o => d.vis.steOn.look p == some o.job
      let (st, level) := match cur with
        | some o => (2, o.level)
        | none =>
          match os.find? fun o => 0 < o.tile || o.level < 3 with
          | some o => (3, o.level)
          | none => (if os.isEmpty then 0 else 1, 0)
      ans stOk (leBytes 1 st ++ leBytes 1 level ++ zeros 2 ++ leBytes 4 y.frames ++ leBytes 4 y.absent
        ++ leBytes 4 y.clips ++ leBytes 4 y.lastSeq ++ leBytes 16 y.lastDts.toNat ++ leBytes 4 y.lastCycles
        ++ y.lastCounts.flatMap (leBytes 4))) s

/-- Whether a frame in the layout of R238 lies inside a buffer. -/
def Device.frameInside (d : Device) (m : Store) (buf off : Nat) : Bool :=
  match d.buf buf with
  | none => false
  | some b => off + 4096 ≤ b.size && off + (d.source m ⟨buf, off, none⟩).size ≤ b.size

/-- STE_RUN (R451): one operation as a USER job under the pair's settings and maps; inputs and outputs are grants. -/
def execSteRun (ch : Fin 8) (s : State) : Host.Outcome State Fault Refusal :=
  commandRead 0x0704 ch (fun r d m =>
    let p := r.u 0 1
    let c := d.steCfg p
    let size := fun id => (d.buf id).elim 0 (·.size)
    let host := [r.u 4 4, r.u 16 4, r.u 28 4, r.u 40 4].all fun id => isHostBuf id && (d.buf id).isSome
    if !d.engineUp p 0 then (d, ans stNoResource)
    else if !host || !d.frameInside m (r.u 4 4) (r.u 8 8) || !d.frameInside m (r.u 16 4) (r.u 20 8)
        || size (r.u 28 4) < r.u 32 8 + 4096 + 3 * c.outW * c.outH || size (r.u 40 4) < 4 * c.outW * c.outH then
      (d, ans stBadField)
    else
      admitCmd r ch d { Job.blank .user (.ste p (r.u 4 4) (r.u 16 4) (r.u 28 4)) with
        arg := r.body, restartMax := d.jobs.restartFw, waitMs := d.jobs.waitFw
        grants := [⟨r.u 4 4, 0, 0, 0⟩, ⟨r.u 16 4, 0, 0, 0⟩, ⟨r.u 28 4, 1, 0, 0⟩, ⟨r.u 40 4, 1, 0, 0⟩] }) s

/-- The settings of this chapter. -/
def settingsSte : List Setting := [setSteConfig, setSteMap, setSteMask]

end Sys2Proof.Machine
end

