-- ==== Sys2Proof/Machine/Fte.lean ====
section
/-! DEFINITION. The feature tracking engine: its commands (R453, R457, R484, R487, R488) and the events of an operation
(R460, R462, R466, R473, R476). -/

namespace Sys2Proof.Machine

/-- The record of a stream. -/
def Device.fteS (d : Device) (s : Nat) : FteStream := d.vis.streams.getD s FteStream.reset
def Device.updFte (d : Device) (s : Nat) (f : FteStream → FteStream) : Device :=
  { d with vis := { d.vis with streams := d.vis.streams.upd s FteStream.reset f } }

/-- The settings a stream resets to (R483). -/
def Device.fteDefault (d : Device) (s : Nat) : FteCfg :=
  let b := dtBits (d.csi s).dt
  ⟨0, b - 8, 2 ^ b - 1, 4096, 4, 11, 8, 4, 0, true, 64, 4, 2, 8, 30, 15, 400, 100, 128, 6144, 128, 0, 0, 0⟩

/-- The settings of a stream. -/
def Device.fteCfg (d : Device) (s : Nat) : FteCfg := (d.fteS s).cfg.getD (d.fteDefault s)

/-- The first context slot of a stream (R453). -/
def Device.fteBase (d : Device) (s : Nat) : Nat := if s % 2 = 0 then 0 else (d.fteCfg (s - 1)).contexts

/-- The other stream of a die. -/
def otherStream (s : Nat) : Nat := if s % 2 = 0 then s + 1 else s - 1

/-- The settings FTE_CONFIG gives. -/
def fteCfgOf (r : Request) : FteCfg :=
  ⟨r.u 2 1, r.u 3 1, r.u 4 2, r.u 6 2, r.u 8 1, r.u 9 1, r.u 10 1, r.u 11 1, r.u 12 1, bit (r.u 13 1) 0, 16 * r.u 14 1,
   r.u 15 1, r.u 16 1, r.u 17 1, r.u 18 1, r.u 19 1, r.u 20 2, r.u 22 2, r.u 24 2, r.u 26 2, r.u 28 2, r.u 30 1, r.u 34 4,
   r.u 38 8⟩

/-- A buffer a tracking command may name: a READY host buffer, or a firmware buffer of the active profile (R487). -/
def Device.trackBuf (d : Device) (id : Nat) : Option Buffer :=
  match d.buf id with
  | none => none
  | some b => if (isHostBuf id && d.bufReady id) || d.jobs.profile.bufs.elem id then some b else none

/-- The descriptor table lies inside its buffer (R472, R487). -/
def Device.descOk (d : Device) (s : Nat) (c : FteCfg) : Bool :=
  c.descLen == 0 || match d.trackBuf c.descBuf with
    | some b => c.descOff + (d.fteBase s + c.contexts) * c.descLen ≤ b.size
    | none => false

/-- FTE_CONFIG's effect (R453, R457, R466, R484). -/
def fteConfig (r : Request) (d : Device) : Device × Reply :=
  let s := r.u 0 1
  let c := fteCfgOf r
  let p := d.csi s
  if !d.visionUp (s / 2) then (d, ans stNoResource)
  else if r.u 1 1 = 0 then
    (d.updFte s fun x => { x with
      enable := false
      core := { x.core with ctxs := [], prev := none, owed := x.core.owed ++ streamLost s x.core.ctxs } }, ans stOk)
  else if 8192 < c.contexts + (d.fteCfg (otherStream s)).contexts || 4096 < p.width || 3072 < p.height
      || p.width / 2 ^ (c.levels - 1) < 4 * c.win || p.height / 2 ^ (c.levels - 1) < 4 * c.win || !d.descOk s c then
    (d, ans stBadField)
  else if (d.fteS s).enable then (d.updFte s fun x => { x with next := some c }, ans stOk)
  else (d.updFte s fun x => { x with enable := true, cfg := some c, next := none }, ans stOk)

/-- FTE_CONFIG as a setting (R135, R484). -/
def setFteConfig : Setting := ⟨0x0800, 1, fun r _ => [(0, r.u 0 1)], devBody fteConfig⟩

/-- FTE_CONFIG (R484). -/
def execFteConfig (ch : Fin 8) (s : State) : Host.Outcome State Fault Refusal := configure setFteConfig ch s

/-- FTE_MASK's effect (R484, R487). -/
def fteMask (r : Request) (d : Device) (m : Store) : (Device × Store) × Reply :=
  let s := r.u 0 1
  let n := maskBytes (d.csi s).width (d.csi s).height
  if !d.visionUp (s / 2) then ((d, m), ans stNoResource)
  else if r.u 1 1 % 2 = 1 then ((d.updFte s fun x => { x with mask := none }, m), ans stOk)
  else
    match d.trackBuf (r.u 4 4) with
    | none => ((d, m), ans stBadField)
    | some b =>
      match if r.u 8 8 + n ≤ b.size then (d.bufRead m (r.u 4 4) (r.u 8 8) n).toOption else none with
      | none => ((d, m), ans stBadField)
      | some bs => ((d.updFte s fun x => { x with mask := some bs }, m), ans stOk)

/-- FTE_MASK as a setting: permitted at any time. -/
def setFteMask : Setting := ⟨0x0801, 0, fun _ _ => [], fteMask⟩

/-- FTE_MASK (R484). -/
def execFteMask (ch : Fin 8) (s : State) : Host.Outcome State Fault Refusal := configure setFteMask ch s

/-! ## Operations -/

/-- Operations of a stream. -/
def Device.fteOps (d : Device) (s : Nat) : List FteOp := d.vis.fte.filter fun o => o.stream == s

/-- An operation replaced. -/
def Device.putFte (d : Device) (o : FteOp) : Device :=
  { d with vis := { d.vis with fte := d.vis.fte.map fun x => if x.job = o.job && x.stream = o.stream then o else x } }

/-- The operation of a stream that comes first among those a condition admits (R55). -/
def Device.pickFte (d : Device) (s : Nat) (ok : FteOp → Bool) : Option FteOp :=
  let xs := (d.fteOps s).filter ok
  match d.firstJob (xs.map (·.job)) with
  | none => none
  | some j => xs.find? fun o => o.job == j

/-- The frame an operation reads; a tick's takes that of its tick. -/
def Device.fteSource (d : Device) (o : FteOp) : Option FrameSrc :=
  match o.src with
  | some f => some f
  | none =>
    match d.job o.job with
    | none => none
    | some j => (d.tickFrame o.stream (dtsMoment j.edge)).map fun k =>
        ⟨(d.stream o.stream).bufs.getD k 0, 0, some (o.stream, k)⟩

/-- Bands of 64 lines of a frame. -/
def bandsOf (h : Nat) : Nat := (h + 63) / 64

/-- Bands an operation builds: those of its frame, of both frames of FTE_RUN. -/
def Device.fteBands (d : Device) (m : Store) (o : FteOp) : Nat :=
  match o.fresh, o.src, o.src2 with
  | true, some a, some b => bandsOf (d.source m a).h + bandsOf (d.source m b).h
  | _, _, _ => bandsOf (d.csi o.stream).height

/-- The next band of an operation has landed (R460). -/
def Device.fteBandReady (d : Device) (m : Store) (o : FteOp) : Bool :=
  !o.done && o.built < d.fteBands m o &&
    match d.fteSource o with
    | none => false
    | some f =>
      match f.slot with
      | none => true
      | some (s, k) =>
        decide ((o.built + 1) * 64 ≤ d.linesReady s k) || decide (d.linesReady s k = (d.csi s).height)

/-- FTE_BAND_BUILD (R460): a band that has landed is scored and added to the pyramid. -/
def execFteBandBuild (die : Fin 8) (view : Fin 2) (s : State) : Host.Outcome State Fault Refusal :=
  onBoth (fun d m =>
    let st := 2 * die.val + view.val
    if !d.visionUp die.val || d.engineTested die.val 1 then (d, m) else
      match d.pickFte st (d.fteBandReady m) with
      | none => (d, m)
      | some o =>
        match d.fteSource o with
        | none => (d, m)
        | some f =>
          let err := match d.buf f.buf, f.slot with
            | some b, some (st, _) => d.rangeError b (f.off + 4096) ((d.csi st).strideBytes * (d.csi st).height) false
            | some b, none => d.rangeError b f.off (d.source m f).size false
            | none, _ => some (.completion 0)
          match err with
          | some e => (d.engineFault o.job 2 die.val e, m)
          | none =>
            let d := d.putFte { o with src := some f, built := o.built + 1 }
            let d := { d with vis := { d.vis with fteOn := d.vis.fteOn.put die.val o.job } }
            (match f.slot with | some (st, k) => d.holdSlot o.job st k | none => d, m)) s

/-- The facts of a frame from its record (R238). -/
def Device.frameFacts (d : Device) (m : Store) (f : FrameSrc) : FrameFacts :=
  let h := fwRead d m f.buf f.off 24
  ⟨leNat ((h.drop 4).take 4), BitVec.ofNat 128 (leNat ((h.drop 8).take 16)), (h.getD 2 0).toNat⟩

/-- IDs that contexts of a die hold, apart from those of the operation itself. -/
def Device.heldIds (d : Device) (s : Nat) : List Nat :=
  let ids := fun (t : Tbl FteCtx) => t.map (·.2.id)
  ids (d.fteS s).core.ctxs ++ ids (d.fteS (otherStream s)).core.ctxs
    ++ d.vis.fte.flatMap fun o => if o.stream / 2 = s / 2 then o.pending.elim [] (fun p => ids p.1.ctxs) else []

/-- The ID counter an operation starts from: that of an operation of the same job on the die, or the committed one
(R454, R473). -/
def Device.idCounter (d : Device) (o : FteOp) : Nat :=
  ((d.vis.fte.find? fun x => x.job == o.job && x.stream == otherStream o.stream && x.pending.isSome).bind
    (·.pending)).elim (d.vis.ids.getD (o.stream / 2) 0) (·.2)

/-- What an operation takes in besides its frame. -/
structure FteIn where
  stream : Nat
  base : Nat
  cfg : FteCfg
  mask : Option (List Byte)
  switched : Bool
  counter : Nat
  others : List Nat
  h : List Nat
  entries : List (List Byte)
  period : Nat

/-- What an operation gives: state, counter, list, descriptor births and copies, cycles. -/
structure FteOut where
  core : FteCore
  counter : Nat
  list : List Byte
  work : Work

/-- An operation on a frame that is not tracked (R476). -/
def frozenOp (i : FteIn) (core : FteCore) (f : FrameFacts) : FteOut :=
  let prev := core.prev.elim 0xFFFFFFFF (·.seq)
  let ctxs : Tbl FteCtx := core.ctxs.mapv fun t => if t.state = 3 then { t with dormant := t.dormant + 1 } else t
  let w : Work := ⟨ctxs, [], [], [], [], 0, [], 0, i.counter, 0⟩
  let gap := core.prev.isSome && (prev + 1) % 2 ^ 32 != f.seq
  let flags := b2n core.prev.isNone + 2 + 4 * b2n gap + 8 * b2n core.stepped + 16 * b2n core.wasReset
  let sm := fteSummary i.stream flags f prev (w.covered i.cfg) [] w
  ⟨{ core with ctxs := ctxs, frozen := core.frozen + 1, summary := sm, lastSeq := f.seq, lastDts := f.dts,
               lastCycles := 2000, wasReset := false }, i.counter, sm, w⟩

/-- An operation on a usable frame (R461 to R481). -/
def trackOp (i : FteIn) (core : FteCore) (cur : View) (f : FrameFacts) : FteOut :=
  let owed := core.owed ++ (if i.switched then streamLost i.stream core.ctxs else [])
  let prev := if i.switched then none else core.prev
  let w0 : Work := ⟨if i.switched then [] else core.ctxs, owed, owed.map recordSlot, [], [], 0, [], 0, i.counter, 0⟩
  let w := i.entries.foldl (feedback i.stream) w0
  let moment := dtsMoment f.dts
  let dt : Int := match prev with
    | none => 0
    | some p => if core.stepped then (i.period : Int) else (moment : Int) - p.moment
  let w := match prev with
    | none => w
    | some p =>
      let ratio := if core.stepped then ((1 : Int), (1 : Int)) else (dt, p.prevDt)
      flowAll p.view cur i.cfg i.h ratio i.stream w
  let w := births cur i.cfg i.stream i.base i.others w
  let w := evictDormant w.unborn w
  let recs := w.recs.mergeSort fun a b => decide (recordSlot a ≤ recordSlot b)
  let prevSeq := prev.elim 0xFFFFFFFF (·.seq)
  let gap := prev.isSome && (prevSeq + 1) % 2 ^ 32 != f.seq
  let flags := b2n prev.isNone + 4 * b2n gap + 8 * b2n (core.stepped && prev.isSome) + 16 * b2n core.wasReset
  let sm := fteSummary i.stream flags f prevSeq (w.covered i.cfg) recs w
  let cyc := (w.cycles + 3) / 4 + 16 * (cellsX cur i.cfg * cellsY cur i.cfg) + (recs.length + 1) / 2 + 2000
  ⟨⟨w.ctxs, some (cur.keep f.seq moment dt), 0, [], false, false, sm, f.seq, f.dts, cyc⟩, w.counter,
    sm ++ recs.flatten, w⟩

/-- Zeros at births and copies at merges in the descriptor table (R472). -/
def descWrites (c : FteCfg) (w : Work) (d : Device) (m : Store) : Device × Store :=
  if c.descLen = 0 then (d, m) else
    let at_ := fun (k : Nat) => c.descOff + k * c.descLen
    let x := w.copies.foldl (fun (x : Device × Store) e =>
      fwWrite c.descBuf (at_ e.2) (fwRead x.1 x.2 c.descBuf (at_ e.1) c.descLen) x.1 x.2) (d, m)
    w.born.foldl (fun (x : Device × Store) k => fwWrite c.descBuf (at_ k) (zeros c.descLen) x.1 x.2) x

/-- Live tracks among contexts. -/
def liveCount (t : Tbl FteCtx) : Nat := (t.filter fun e => e.2.state != 3).length

/-- Counters of an operation (R486). -/
def Device.fteCount (d : Device) (s : Nat) (x : FteOut) (frozen : Bool) : Device :=
  let die := s / 2
  let busy := d.vis.busy.getD die 0 + x.core.lastCycles
  let d := { d with vis := { d.vis with busy := d.vis.busy.put die (busy % 1024) } }
  let d := (d.diagAdd die 0x1D0 0 32 1).diagAdd die 0x1D4 0 32 (busy / 1024)
  let d := d.diagPeak die 0x1D8 0 14 (liveCount x.core.ctxs + liveCount (d.fteS (otherStream s)).core.ctxs)
  let d := d.diagAdd die 0x1DC 0 16 x.work.skipped
  if frozen then d.diagAdd die 0x1DC 16 16 1 else d

/-- The list of a tick's operation goes to its landing slot and its flag is raised; ACCESS before the first write when the
slot lies outside the job's blocks or flag groups (R479). -/
def fteList (o : FteOp) (cluster block flag : Nat) (list : List Byte) (d : Device) (m : Store) :
    Option (Device × Store) :=
  let k := d.cluster cluster
  let n := (64 + 32 * o.cfg.contexts + 32767) / 32768
  if (List.range n).all (fun (i : Nat) => k.blocks.look (block + i) == some o.job)
      && k.groups.look (flag / 32) == some o.job then
    some (d.updCluster cluster fun k => { k with flags := k.flags.put flag (min 0xFFFF (k.flags.getD flag 0 + 1)) },
      m.sramWrite (landAddr cluster (block * 32768)) list)
  else none

/-- The entries of a feedback list of `n` entries in a buffer the job is granted (R470). -/
def Device.feedbackList (d : Device) (m : Store) (buf off n : Nat) : List (List Byte) :=
  let bs := fwRead d m buf off (16 * n)
  (List.range n).map fun (i : Nat) => (bs.drop (16 * i)).take 16

/-- An operation of FTE_RUN (R488): birth on frame A, tracking to frame B, the list to OUT_BUF. -/
def fteRunOp (o : FteOp) (a b : FrameSrc) (d : Device) (m : Store) : Device × Store :=
  let i : FteIn := ⟨o.stream, 0, o.cfg, o.mask, false, d.vis.ids.getD (o.stream / 2) 0, d.heldIds o.stream, [], [],
    d.cameraPeriod o.stream⟩
  let view := fun f => trackView (d.source m f) o.cfg.input o.cfg.shift o.cfg.sat o.mask
  let x := trackOp i FteCore.reset (view a) (d.frameFacts m a)
  let y := trackOp { i with counter := x.counter } x.core (view b) (d.frameFacts m b)
  match d.bufStore m o.outBuf o.outOff y.list with
  | .error e => (d.engineFault o.job 2 (o.stream / 2) e, m)
  | .ok (d, m) =>
    let d := (d.fteCount o.stream y false).putFte { o with done := true }
    (match d.job o.job with
      | some j => d.setJob o.job { j with arg := j.arg ++ y.core.summary }
      | none => d, m)

/-- A tick's operation (R461 to R481): its results are pending until the job commits (R473). -/
def fteTickOp (o : FteOp) (f : FrameSrc) (h : List Nat) (entries : List (List Byte)) (cluster block flag : Nat)
    (d : Device) (m : Store) : Device × Store :=
  let st := d.fteS o.stream
  let facts := d.frameFacts m f
  let i : FteIn := ⟨o.stream, d.fteBase o.stream, o.cfg, o.mask, st.next.isSome, d.idCounter o, d.heldIds o.stream, h,
    entries, d.cameraPeriod o.stream⟩
  let frozen := bit facts.status 3 || bit facts.status 4
  let x := if frozen then frozenOp i st.core facts
    else trackOp i st.core (trackView (d.source m f) o.cfg.input o.cfg.shift o.cfg.sat o.mask) facts
  match fteList o cluster block flag x.list d m with
  | none => (d.jobFault o.job 0x03 2 (o.stream / 2) 0 none 0, m)
  | some (d, m) =>
    let (d, m) := descWrites o.cfg x.work d m
    ((d.fteCount o.stream x frozen).putFte { o with done := true, pending := some (x.core, x.counter) }, m)

/-- FTE_TRACK_OP (R461 to R481): once its frame is complete the operation applies feedback, runs flow, gives birth and
writes its list. Firmware gives the homography (none: identity), the feedback list and the list slot (R461, R470, R479).
Also R452. -/
def execFteTrackOp (die : Fin 8) (view : Fin 2) (h : List Nat) (fbBuf fbOff fbCount cluster block flag : Nat) (s : State) :
    Host.Outcome State Fault Refusal :=
  onBoth (fun d m =>
    let st := 2 * die.val + view.val
    if !d.visionUp die.val || d.engineTested die.val 1 then (d, m) else
      match d.pickFte st fun o => !o.done && o.built == d.fteBands m o && (match o.src.bind (·.slot) with
          | some (s, k) => (match (d.stream s).frames.look k with | some f => f.closed | none => false)
          | none => true) with
      | none => (d, m)
      | some o =>
        let d := { d with vis := { d.vis with fteOn := d.vis.fteOn.del die.val } }
        match o.fresh, o.src, o.src2 with
        | true, some a, some b => fteRunOp o a b d m
        | _, some f, _ => fteTickOp o f h (d.feedbackList m fbBuf fbOff fbCount) cluster block flag d m
        | _, _, _ => (d, m)) s

/-- A change of a stream's newest state: the pending copy of an operation that has ended, else the committed one. -/
def Device.updCore (d : Device) (s : Nat) (f : FteCore → FteCore) : Device :=
  if d.vis.fte.any fun o => o.stream == s && o.pending.isSome then
    { d with vis := { d.vis with fte := d.vis.fte.map fun o =>
      if o.stream = s then { o with pending := o.pending.map fun p => (f p.1, p.2) } else o } }
  else d.updFte s fun x => { x with core := f x.core }

/-- A stream's newest state. -/
def Device.newestCore (d : Device) (s : Nat) : FteCore :=
  ((d.vis.fte.find? fun o => o.stream == s && o.pending.isSome).bind (·.pending)).elim (d.fteS s).core (·.1)

/-- FTE_DORMANT_EXPIRE (R466): a DORMANT context reaches REID_AGE operations and is freed. -/
def execFteDormantExpire (stream : Fin 16) (slot : Nat) (s : State) : Host.Outcome State Fault Refusal :=
  onDev (fun d =>
    let n := (d.fteCfg stream.val).reidAge
    match (d.newestCore stream.val).ctxs.look slot with
    | some t =>
      if t.state = 3 && n ≤ t.dormant then d.updCore stream.val fun c => { c with ctxs := c.ctxs.del slot } else d
    | none => d) s

/-- FTE_FREEZE_EXPIRE (R476): after more than FREEZE_MAX frozen frames every context is freed, with records in the next
list. -/
def execFteFreezeExpire (stream : Fin 16) (s : State) : Host.Outcome State Fault Refusal :=
  onDev (fun d =>
    let k := stream.val
    if (d.fteCfg k).freezeMax < (d.newestCore k).frozen then
      d.updCore k fun c => { c with ctxs := [], owed := c.owed ++ streamLost k c.ctxs }
    else d) s

/-- The FTE operations of a job that starts: one per tracked stream its profile uses that delivers frames, or the one of
FTE_RUN. -/
def Device.fteLoad (d : Device) (id : Nat) (j : Job) : Device :=
  let new := fun (s : Nat) => ((d.fteS s).next.getD (d.fteCfg s), (d.fteS s).mask)
  let ops : List FteOp := match j.work with
    | .tick => ((List.range 16).filter fun s => d.jobs.profile.uses.elem (0, s) && (d.fteS s).enable
        && d.engineUp (s / 2) 1 && d.tickDie (s / 2) && !d.maskedNow s && decide ((d.stream s).state ≠ .off)).map fun s =>
          ⟨id, s, true, (new s).1, false, (new s).2, none, none, 0, false, none, 0, 0⟩
    | .fte s a out =>
      let f := fun o n => leNat ((j.arg.drop o).take n)
      [⟨id, s, false, d.fteCfg s, true, (new s).2, some ⟨a, f 8 8, none⟩, some ⟨f 16 4, f 20 8, none⟩, 0, false, none, out,
        f 32 8⟩]
    | _ => []
  { d with vis := { d.vis with fte := d.vis.fte ++ ops } }

/-- The pending copies of a job become the committed ones (R473). -/
def Device.fteCommit (d : Device) (id : Nat) : Device :=
  let mine := d.vis.fte.filter fun o => o.job == id
  let start := d.vis.ids
  let d := mine.foldl (fun d o => match o.pending with
    | none => d
    | some (core, n) =>
      let d := d.updFte o.stream fun x => { x with
        core := core, cfg := some o.cfg, next := if x.next = some o.cfg then none else x.next
        ops := (x.ops + 1) % 2 ^ 32 }
      let now := d.vis.ids.getD (o.stream / 2) 0
      let ahead := fun (k : Nat) => (k + 2 ^ 29 - start.getD (o.stream / 2) 0) % 2 ^ 29
      if ahead now < ahead n then { d with vis := { d.vis with ids := d.vis.ids.put (o.stream / 2) n } } else d) d
  { d with vis := { d.vis with fte := d.vis.fte.filter fun o => o.job != id } }

/-- Every context of a die is lost (R455): partition reset or power-off of the vision domain. -/
def Device.visionDown (d : Device) (die : Nat) : Device :=
  [2 * die, 2 * die + 1].foldl (fun d s => d.updFte s fun x => { x with
    core := { FteCore.reset with wasReset := true, summary := x.core.summary, lastSeq := x.core.lastSeq
                                 lastDts := x.core.lastDts } }) d

/-! ## Queries -/

/-- FTE_STATUS (R487). -/
def execFteStatus (ch : Fin 8) (s : State) : Host.Outcome State Fault Refusal :=
  query 0x0802 ch (fun r d =>
    let k := r.u 0 1
    if !d.visionUp (k / 2) then ans stNoResource else
      let x := d.fteS k
      let st := match (d.fteOps k).find? fun o => !o.done with
        | none => 0
        | some o =>
          if d.vis.fteOn.look (k / 2) == some o.job then (if o.built < bandsOf (d.csi k).height then 1 else 2)
          else if 0 < o.built then 3 else 1
      let live := liveCount x.core.ctxs
      let dorm := x.core.ctxs.length - live
      ans stOk (leBytes 1 st ++ zeros 3 ++ leBytes 4 x.ops ++ leBytes 2 live ++ leBytes 2 dorm
        ++ leBytes 2 ((d.fteCfg k).contexts - live - dorm) ++ zeros 2 ++ leBytes 4 x.core.lastSeq
        ++ leBytes 16 x.core.lastDts.toNat ++ leBytes 4 x.core.lastCycles ++ x.core.summary)) s

/-- FTE_TRACK_GET (R488). -/
def execFteTrackGet (ch : Fin 8) (s : State) : Host.Outcome State Fault Refusal :=
  query 0x0803 ch (fun r d =>
    let id := r.u 0 4
    let die := id / 2 ^ 29
    if !d.visionUp die then ans stNoResource else
      let all := (d.fteS (2 * die)).core.ctxs ++ (d.fteS (2 * die + 1)).core.ctxs
      match all.find? fun e => e.2.id == id with
      | some e => ans stOk (leBytes 1 e.2.state ++ leBytes 1 e.2.dormant ++ zeros 2 ++ e.2.rec_)
      | none => ans stOk (zeros 36)) s

/-- FTE_RUN (R488): one operation as a USER job with fresh contexts; inputs and outputs are grants. -/
def execFteRun (ch : Fin 8) (s : State) : Host.Outcome State Fault Refusal :=
  commandRead 0x0804 ch (fun r d m =>
    let k := r.u 0 1
    let c := d.fteCfg k
    let size := fun id => (d.buf id).elim 0 (·.size)
    let host := [r.u 4 4, r.u 16 4, r.u 28 4, r.u 40 4].all fun id => isHostBuf id && (d.buf id).isSome
    let f := d.source m ⟨r.u 4 4, r.u 8 8, none⟩
    if d.profileUses [(0, k)] then (d, ans stBadState)
    else if !d.engineUp (k / 2) 1 then (d, ans stNoResource)
    else if !host || !d.frameInside m (r.u 4 4) (r.u 8 8) || !d.frameInside m (r.u 16 4) (r.u 20 8)
        || size (r.u 28 4) < r.u 32 8 + 64 + 32 * c.contexts || size (r.u 40 4) < 3 * f.w * f.h then
      (d, ans stBadField)
    else
      admitCmd r ch d { Job.blank .user (.fte k (r.u 4 4) (r.u 28 4)) with
        arg := r.body, restartMax := d.jobs.restartFw, waitMs := d.jobs.waitFw
        grants := [⟨r.u 4 4, 0, 0, 0⟩, ⟨r.u 16 4, 0, 0, 0⟩, ⟨r.u 28 4, 1, 0, 0⟩, ⟨r.u 40 4, 1, 0, 0⟩] }) s

/-- The settings of this chapter. -/
def settingsFte : List Setting := [setFteConfig, setFteMask]

end Sys2Proof.Machine
end

