-- ==== Sys2Proof/Machine/SfeBase.lean ====
section
/-! DEFINITION. The sensing front end, its grids and power (R278, R279, R284, R286, R298, R304, R305): what other chapters
call when a domain goes on or off and when device time steps. -/

namespace Sys2Proof.Machine

/-- An SFE stream, changed, and the records by die. -/
def Device.sfeS (d : Device) (s : Nat) : SfeStream := d.sfe.streams.getD s SfeStream.reset
def Device.updSfe (d : Device) (s : Nat) (f : SfeStream → SfeStream) : Device :=
  { d with sfe := { d.sfe with streams := d.sfe.streams.upd s SfeStream.reset f } }
def Device.sfeExc (d : Device) (die : Nat) : SfeExc := d.sfe.exc.getD die SfeExc.reset
def Device.setExc (d : Device) (die : Nat) (x : SfeExc) : Device :=
  { d with sfe := { d.sfe with exc := d.sfe.exc.put die x } }
def Device.sfeScan (d : Device) (die : Nat) : SfeScan := d.sfe.scan.getD die SfeScan.reset
def Device.setScan (d : Device) (die : Nat) (x : SfeScan) : Device :=
  { d with sfe := { d.sfe with scan := d.sfe.scan.put die x } }

/-- The die of an SFE stream (R278). -/
def sfeDie (s : Nat) : Nat := if s < 64 then (s - 32) / 4 else (s - 64) / 8

/-- The SFE streams of a die. -/
def sfeStreams (die : Nat) : List Nat :=
  (List.range 4).map (32 + 4 * die + ·) ++ (List.range 8).map (64 + 8 * die + ·)

/-- The rail-current stream of a die (R284). -/
def railStream (die : Nat) : Nat := 64 + 8 * die + 7

/-- The S₀ of a channel start caused now (R286): the first multiple of 20 ms at least 2 ms later. -/
def startInstant (m : Nat) : Nat := (m + 2 * oneMs + 20 * oneMs - 1) / (20 * oneMs) * (20 * oneMs)

/-- The first whole second after a moment (R304). -/
def wholeSecondAfter (m : Nat) : Nat := (m / oneS + 1) * oneS

/-- A channel start falls due. -/
def Device.sfeStart (d : Device) (s : Nat) : Device :=
  d.updSfe s fun x => { x with start := some (startInstant d.time.ns16) }

/-- The SFE analogue domain of a die comes on (R279): its configured streams restart; from CLOCKS on the rail stream is
enabled and the reset scan has its A₀ (R284, R305). -/
def Device.sfeUp (d : Device) (die : Nat) : Device :=
  let d := d.updSfe (railStream die) fun x => { x with enable := true }
  let sc := d.sfeScan die
  let d := d.setScan die { sc with a0 := some (sc.a0.getD (wholeSecondAfter d.time.ns16)) }
  (sfeStreams die).foldl (fun d s => if (d.sfeS s).enable then d.sfeStart s else d) d

/-- The domain goes off (R279, R455): every stream OFF, configuration kept; a calibration and the excitation end. -/
def Device.sfeDown (d : Device) (die : Nat) : Device :=
  let d := (sfeStreams die).foldl (fun d s => d.updSfe s fun x => { x with
    state := .off, start := none, lines := [], lines2 := [], out := .empty, out2 := .empty, win := none, ready := [] }) d
  let d := d.setExc die { d.sfeExc die with mode := 0 }
  match d.sfe.cal.look die with
  | none => d
  | some c => { d with sfe := { d.sfe with cal := d.sfe.cal.del die } }.finishOpt c.handle 0x32 []

/-- A moment moved by a step. -/
def moveBy (x : Nat) (s : Int) : Nat := ((x : Int) + s).toNat

/-- A step of device time moves every grid; the next records carry STEP (R298). -/
def Device.sfeStep (d : Device) (s : Int) : Device :=
  { d with sfe := { d.sfe with
    streams := d.sfe.streams.mapv fun x => { x with
      start := x.start.map (moveBy · s), s0 := moveBy x.s0 s, w := moveBy x.w s, stepped := true, detStepped := true }
    exc := d.sfe.exc.mapv fun x => { x with e0 := moveBy x.e0 s }
    scan := d.sfe.scan.mapv fun x => { x with a0 := x.a0.map (moveBy · s) } } }

end Sys2Proof.Machine
end

