-- ==== Sys2Proof/Machine/GridOps.lean ====
section
/-! DEFINITION. The fusion grid: sources, the statistic of the consistency checks (R505 to R513), and the committed layers with
scroll, reset, tiles and counters (R489 to R495, R519 to R524). -/

namespace Sys2Proof.Machine

/-! ## Sources -/

/-- A source slot of the grid. -/
def Device.gridSlot (d : Device) (k : Nat) : GridSlot := d.grid.slots.getD k GridSlot.reset

/-- The calibration of a stream. -/
def Device.cal (d : Device) (s : Nat) : Calib := d.grid.cals.getD s (Calib.reset s)

/-- The calibration of a stream changed. -/
def Device.updCal (d : Device) (s : Nat) (f : Calib → Calib) : Device :=
  { d with grid := { d.grid with cals := d.grid.cals.upd s (Calib.reset s) f } }

/-- Bits of a byte as indices. -/
def bitList (v n : Nat) : List Nat := (List.range n).filter fun i => bit v i

/-- The sources that a check is set to use, in ascending order (R505, R525). DESIGN CHOICE: log entry 25. -/
def CheckCfg.sources (c : CheckCfg) (check : Nat) : List Nat :=
  if check = 0 then bitList c.motionPairs 8 ++ (bitList c.motionLidar 8).map (16 + ·)
      ++ (if c.wheel = 0 then [] else [0x80])
  else bitList c.geomPairs 8 ++ (bitList c.geomLidar 8).map (16 + ·)

/-- All check sources in use. -/
def CheckCfg.all (c : CheckCfg) : List Nat :=
  (List.range 129).filter fun k => (c.sources 0).elem k || (c.sources 1).elem k

/-- The wheel source is absent when a stream it needs is masked or off (R596, R597). -/
def Device.wheelAbsent (d : Device) : Bool :=
  let w := d.loc.wheel
  let bad := fun (s : Nat) => d.maskedNow s || decide ((d.stream s).state = .off)
  (match w.source with
    | 1 => bad 28
    | 2 => bad 29
    | 3 => bad (128 + w.encL) || bad (128 + w.encR)
    | _ => true)
    || (decide (w.model ≠ 0) && decide (w.angleSrc = 1) && decide ((d.sfeS w.resStream).state ≠ .active))

/-- Whether a lidar stream is absent (R500). -/
def Device.lidarAbsent (d : Device) (s : Nat) : Bool :=
  d.maskedNow s || decide ((d.stream s).state = .off) || !d.streamUp s

/-- Whether a check source is absent (R505). DESIGN CHOICE: log entry 25. -/
def Device.sourceAbsent (d : Device) (k : Nat) : Bool :=
  if k < 8 then d.pairAbsent k else if k = 0x80 then d.wheelAbsent else d.lidarAbsent k

/-- Whether a source slot is absent for the tick (R500). -/
def Device.slotAbsent (d : Device) (g : GridSlot) : Bool :=
  !g.enable || (if g.stream < 16 then d.maskedNow g.stream || decide ((d.stream g.stream).state = .off)
      || !d.streamUp g.stream
    else d.lidarAbsent g.stream)

/-- Channels of a cell before rounding (R504), for slots as listed and settings. -/
def channelTotal (slots : Tbl GridSlot) (c : GridCfg) : Nat :=
  slots.foldl (fun n e => if e.2.enable then n + e.2.channels + 1 else n) 0 + c.stateC + (if c.mapPrior then 4 else 0)

/-- CSTRIDE (R496). -/
def Grid.cstride (g : Grid) : Nat := (channelTotal g.slots g.cfg + 31) / 32 * 32

/-! ## The statistic (R506) -/

/-- A finite binary32 value. -/
def ratOf (v : Nat) : Option Rat :=
  match ofFp32 v with
  | .fin s m e =>
    let q : Rat := if 0 ≤ e then ((m * 2 ^ e.toNat : Nat) : Rat) else mkRat m (2 ^ (-e).toNat)
    some (if s then -q else q)
  | _ => none

/-- A symmetric 3 × 3 matrix by its upper triangle in row order. -/
structure Sym3 where
  a : Rat
  b : Rat
  c : Rat
  d : Rat
  e : Rat
  f : Rat

/-- Three rational components. -/
structure Rat3 where
  x : Rat
  y : Rat
  z : Rat

/-- Sums and products of the statistic. -/
def Sym3.add (m n : Sym3) : Sym3 := ⟨m.a + n.a, m.b + n.b, m.c + n.c, m.d + n.d, m.e + n.e, m.f + n.f⟩
def Rat3.add (u v : Rat3) : Rat3 := ⟨u.x + v.x, u.y + v.y, u.z + v.z⟩
def Rat3.sub (u v : Rat3) : Rat3 := ⟨u.x - v.x, u.y - v.y, u.z - v.z⟩
def Rat3.dot (u v : Rat3) : Rat := u.x * v.x + u.y * v.y + u.z * v.z
def Sym3.mul (m : Sym3) (v : Rat3) : Rat3 :=
  ⟨m.a * v.x + m.b * v.y + m.c * v.z, m.b * v.x + m.d * v.y + m.e * v.z, m.c * v.x + m.e * v.y + m.f * v.z⟩

/-- The inverse, where there is one. -/
def Sym3.inv (m : Sym3) : Option Sym3 :=
  let k := m.d * m.f - m.e * m.e
  let l := m.c * m.e - m.b * m.f
  let n := m.b * m.e - m.c * m.d
  let det := m.a * k + m.b * l + m.c * n
  if det = 0 then none else
    some ⟨k / det, l / det, n / det, (m.a * m.f - m.c * m.c) / det, (m.b * m.c - m.a * m.e) / det,
      (m.a * m.d - m.b * m.b) / det⟩

/-- An estimate of finite values. -/
structure Est where
  source : Nat
  x : Rat3
  s : Sym3

/-- An estimate read from what the units report. -/
def estOf (source : Nat) (x cov : List Nat) : Option Est :=
  match x.map ratOf, cov.map ratOf with
  | [some a, some b, some c], [some p, some q, some r, some s, some t, some u] =>
    some ⟨source, ⟨a, b, c⟩, ⟨p, q, r, s, t, u⟩⟩
  | _, _ => none

/-- The quadratic form of a difference under the inverse of a sum of covariances. -/
def statistic (x : Rat3) (s : Sym3) : Option Rat := s.inv.map fun m => x.dot (m.mul x)

/-- The statistic of source `i` against the others (R506). -/
def statOf (i : Est) (others : List Est) : Option Rat :=
  match others with
  | [j] => statistic (i.x.sub j.x) (i.s.add j.s)
  | _ =>
    match others.mapM fun j => j.s.inv with
    | none => none
    | some ms =>
      let sum := ms.foldl Sym3.add ⟨0, 0, 0, 0, 0, 0⟩
      match sum.inv with
      | none => none
      | some p =>
        let w := (List.zip ms others).foldl (fun (v : Rat3) e => v.add (e.1.mul e.2.x)) ⟨0, 0, 0⟩
        statistic (i.x.sub (p.mul w)) (i.s.add p)

/-- A statistic in binary32; one the covariances leave undefined is a free value (log entry 25). -/
def statBits (free source : Nat) (r : Option Rat) : Nat :=
  match r with
  | some q => toFp32 (quotient32_ q)
  | none => (Config.freeWord (1000 + source) free).toNat
where
  /-- A rational rounded to binary32. -/
  quotient32_ (q : Rat) : Num :=
    let k := Nat.log2 q.den + 40
    let a := q.num.natAbs * 2 ^ k
    let n := a / q.den
    round32 (.fin (decide (q.num < 0)) (2 * n + b2n (n * q.den != a)) (-(k : Int) - 1))

/-- A gate in uQ8.8 lies below a statistic. -/
def exceeds (gate stat : Nat) : Bool := (Num.fin false gate (-8)).lt (ofFp32 stat)

/-- What a check decides (R508, R509): sources masked, sources held out, statistics by source. -/
structure Verdict where
  masked : List Nat
  held : List Nat
  stats : Tbl Nat

/-- The check over the participants that remain, with `fuel` rounds left; `gate` by source. -/
def judge (free : Nat) (gate : Nat → Nat) (gx : Nat) : Nat → List Est → Verdict → Verdict
  | 0, _, v => v
  | fuel + 1, es, v =>
    match es with
    | [i, j] =>
      let q := statBits free i.source (statOf i [j])
      let v := { v with stats := (v.stats.put i.source q).put j.source q }
      let g := if gate i.source = gx || gate j.source = gx then gx else gate i.source
      if exceeds g q then { v with held := [i.source, j.source] } else v
    | [] => v
    | [_] => v
    | _ =>
      let qs := es.map fun i => (i.source, statBits free i.source (statOf i (es.filter fun j => j.source != i.source)))
      let v := { v with stats := qs.foldl (fun t q => t.put q.1 q.2) v.stats }
      if qs.any fun q => exceeds (gate q.1) q.2 then
        let top := qs.foldl (fun (best : Option (Nat × Nat)) q =>
          match best with
          | none => some q
          | some b => if (ofFp32 b.2).lt (ofFp32 q.2) then some q else some b) none
        match top with
        | none => v
        | some t => judge free gate gx fuel (es.filter fun i => i.source != t.1) { v with masked := v.masked ++ [t.1] }
      else v

/-! ## Calibration records -/

/-- The rotation of a calibration record in sQ1.62 and its origin in sQ31.32 m (R514). -/
def calPose (b : List Byte) : Pose :=
  let f := fun (off k : Nat) => match ofFp32 (recU b off 4) with
    | .fin s m e => let q : Int := quantise m e (-(k : Int)); if s then -q else q
    | _ => 0
  ⟨(Quat.mk (f 8 62) (f 12 62) (f 16 62) (f 20 62)).unit, ⟨f 24 32, f 28 32, f 32 32⟩⟩

/-- A fixed-point value in binary32. -/
def fixed32 (v : Int) (k : Nat) : List Byte := leBytes 4 (toFp32 (.fin (decide (v < 0)) v.natAbs (-(k : Int))))

/-- A calibration record with a pose laid over it. -/
def calWith (b : List Byte) (p : Pose) : List Byte :=
  recSet b 8 (p.q.list.flatMap (fun v => fixed32 v 62) ++ p.t.list.flatMap fun v => fixed32 v 32)

/-- A rotation brought down to an angle in µrad when it is larger (R516). -/
def limitRot (q : Quat) (urad : Nat) : Quat × Bool :=
  let lim := (urad : Int) * fxOne / 10 ^ 6
  if q.angle ≤ lim then (q, false) else
    let s := fxSin (lim / 2)
    let n := isqrt q.vec.sq
    let q := if q.w < 0 then ⟨-q.w, -q.x, -q.y, -q.z⟩ else q
    let f := fun (v : Int) => rne (v * s) (n * 2 ^ 66)
    ((Quat.mk (rne (fxCos (lim / 2)) (2 ^ 66)) (f q.x) (f q.y) (f q.z)).unit, true)

/-- A translation brought down to a length in µm when it is longer (R516). -/
def limitTrans (t : Vec3) (um : Nat) : Vec3 × Bool :=
  let lim := rne ((um : Int) * 2 ^ 32) (10 ^ 6)
  if t.sq ≤ (lim * lim).toNat then (t, false) else
    let f := fun (v : Int) =>
      let r : Int := rneSqrt ((v * v * lim * lim).toNat) t.sq
      if v < 0 then -r else r
    (t.map f, true)

/-- The calibration after an accepted refinement solve (R516): record, and whether it stopped at a bound. -/
def Calib.refine (c : Calib) (solved : Pose) : List Byte × Bool :=
  let old := calPose c.current
  let base := calPose c.base
  let dq := (limitRot (old.q.conj.mul solved.q).unit c.stepRot).1
  let dt := (limitTrans (solved.t.sub old.t) c.stepTrans).1
  let q := limitRot (base.q.conj.mul (old.q.mul dq).unit).unit c.maxRot
  let t := limitTrans ((old.t.add dt).sub base.t) c.maxTrans
  let hit := q.2 || t.2
  let b := calWith c.current ⟨(base.q.mul q.1).unit, base.t.add t.1⟩
  (if hit then recSet b 2 (leBytes 1 (Nat.lor (recU b 2 1) 6)) else b, hit)

/-! ## Layers -/

/-- Rows of the grid (R489). -/
def GridCfg.rows (c : GridCfg) : Nat := 8 * c.strip

/-- Whether an owner's bit covers a row. -/
def Grid.owned (g : Grid) (row : Nat) : Bool := g.owners.getLsbD (row / g.cfg.strip)

/-- The cell of a position in the frame's cells (R490): position in sQ31.32 m. -/
def cellOf (cell : Nat) (v : Int) : Int := (v * 1000).fdiv (cell * 2 ^ 32)

/-- A length of whole cells in sQ31.32 m. -/
def cellsLength (cell : Nat) (n : Int) : Int := rne (n * cell * 2 ^ 32) 1000

/-- A height rounded to 1 cm, in sQ31.32 m (R494). -/
def roundCm (z : Int) : Int := rne (rne (z * 100) (2 ^ 32) * 2 ^ 32) 100

/-- The committed cells moved by (−Δi, −Δj): those that stay, and those that leave with their old column and row (R492). -/
def shiftCells (c : GridCfg) (di dj : Int) (cells : Tbl (List Byte)) : Tbl (List Byte) × List (Int × Int × List Byte) :=
  cells.foldl (fun (acc : Tbl (List Byte) × List (Int × Int × List Byte)) e =>
    let i : Int := e.1 % c.gridW
    let j : Int := e.1 / c.gridW
    let x := i - di
    let y := j - dj
    if 0 ≤ x && x < c.gridW && 0 ≤ y && y < c.rows then (acc.1.put (y.toNat * c.gridW + x.toNat) e.2, acc.2)
    else (acc.1, acc.2 ++ [(i, j, e.2)])) ([], [])

/-- The cells that enter a window moved by (Δi, Δj). -/
def enteringCells (c : GridCfg) (di dj : Int) : List (Nat × Nat) :=
  (List.range c.rows).flatMap fun (j : Nat) => (List.range c.gridW).filterMap fun (i : Nat) =>
    let x : Int := i + di
    let y : Int := j + dj
    if 0 ≤ x && x < c.gridW && 0 ≤ y && y < c.rows then none else some (i, j)

/-- Every height rebased by a difference (R494). -/
def rebaseCells (diff : Int) (cells : Tbl (List Byte)) : Tbl (List Byte) :=
  cells.mapv fun c => c.take 4 ++ leBytes 2 (rebase (recU c 4 2) diff) ++ c.drop 6

/-- The vehicle's cell and height that a tick works with. -/
structure GridAt where
  map : Bool
  i : Int
  j : Int
  z : Int

/-- What a tick's window did (R492 to R494). -/
structure Moved where
  di : Int
  dj : Int
  reset : Bool
  scrolled : Bool

/-- Tiles take the cells that leave (R636). -/
def Device.handOver (d : Device) (dts : Nat) (leaving : List (Int × Int × List Byte)) : Device :=
  match d.loc.session with
  | none => d
  | some s =>
    let g := d.grid
    leaving.foldl (fun (d : Device) (e : Int × Int × List Byte) =>
      d.tileWrite (d.rootOf s) s g.cfg.cell dts g.zRef (g.x0 + e.1) (g.y0 + e.2.1) e.2.2) d

/-- The cells that enter take their prior from the tiles at a pin (R492, R637). -/
def Device.priors (d : Device) (pin : Nat) (di dj : Int) : Device :=
  match d.loc.session with
  | none => d
  | some s =>
    if !d.grid.cfg.mapPrior then d else
      let g := d.grid
      let root := d.rootOf s
      if (d.session root).elim 0 (fun b => recU b 100 2) ≠ g.cfg.cell then d else
        { d with grid := { g with cells := (enteringCells g.cfg di dj).foldl (fun t e =>
            match d.tileCell pin root (g.x0 + e.1) (g.y0 + e.2) with
            | none => t
            | some (c, z) => t.put (e.2 * g.cfg.gridW + e.1)
                (c.take 4 ++ leBytes 2 (rebase (recU c 4 2) (z - g.zRef)) ++ [8#8, 0#8])) g.cells } }

/-- The window before a tick's lifting (R491 to R495): the device and what happened. -/
def Device.gridMove (d : Device) (at_ : GridAt) (pin dts : Nat) : Device × Moved :=
  let g := d.grid
  let c := g.cfg
  let frame := b2n at_.map
  let di := at_.i - g.x0 - c.gridW / 2
  let dj := at_.j - g.y0 - c.rows / 2
  let back := g.owners &&& d.pwr.dieOn ≠ d.pwr.dieOn
  let far := at_.map && (decide ((c.gridW : Int) / 2 ≤ di.natAbs) || decide ((c.rows : Int) / 2 ≤ dj.natAbs))
  if frame ≠ g.frame || g.forced || back || far then
    let x0 : Int := if at_.map then at_.i - c.gridW / 2 else -((c.gridW : Int) / 2)
    let y0 : Int := if at_.map then at_.j - c.rows / 2 else -((c.rows : Int) / 2)
    ({ d with grid := { g with
      frame := frame, x0 := x0, y0 := y0, zRef := roundCm at_.z, cells := [], forced := false
      resets := min 0xFFFF (g.resets + 1), owners := d.pwr.dieOn } }, ⟨0, 0, true, false⟩)
  else
    let g := { g with owners := g.owners &&& d.pwr.dieOn }
    let mi : Int := if at_.map && c.margin < di.natAbs then di else 0
    let mj : Int := if at_.map && c.margin < dj.natAbs then dj else 0
    if mi = 0 && mj = 0 then ({ d with grid := g }, ⟨0, 0, false, false⟩) else
      let s := shiftCells c mi mj g.cells
      let d := ({ d with grid := g }).handOver dts s.2
      let z := if 10 * 2 ^ 32 < (at_.z - g.zRef).natAbs then roundCm at_.z else g.zRef
      let g := { d.grid with
        x0 := g.x0 + mi, y0 := g.y0 + mj, zRef := z
        cells := if z = g.zRef then s.1 else rebaseCells (g.zRef - z) s.1 }
      (({ d with grid := g }).priors pin mi mj, ⟨mi, mj, false, true⟩)

/-- The record of a cell that slots reached (R519, R522); none where its CONF is 0. -/
def cellRecord (conf occ trav cls height held n : Nat) : List Byte :=
  leBytes 1 occ ++ leBytes 1 trav ++ leBytes 1 cls ++ leBytes 1 conf ++ leBytes 2 height ++ leBytes 1 (1 + 4 * held)
    ++ leBytes 1 n

/-- A cell that no slot reached (R522): CONF falls, OBSERVED clears. -/
def decayed (decay : Nat) (c : List Byte) : Option (List Byte) :=
  if cellConf c ≤ decay then none
  else some (recSet (recSet c 3 (leBytes 1 (cellConf c - decay))) 6 (leBytes 1 (recU c 6 1 / 2 * 2)))

/-- The layer buffer (R519, R520): records in cell-index order, strips without an owner unknown with NO_OWNER. -/
def Grid.records (g : Grid) : List Byte :=
  (List.range (g.cfg.gridW * g.cfg.rows)).flatMap fun (k : Nat) =>
    if g.owned (k / g.cfg.gridW) then g.cells.getD k unknownCell else recSet unknownCell 6 [2#8]

/-- The layer header (R520). -/
def Grid.headerOf (g : Grid) (tickSeq dts flags : Nat) (m : Moved) : List Byte :=
  let len := fun (n : Int) => leBytes 8 (unsigned 64 (cellsLength g.cfg.cell n))
  leBytes 4 tickSeq ++ leBytes 1 g.frame ++ leBytes 1 flags ++ leBytes 1 g.owners.toNat ++ zeros 1 ++ leBytes 16 dts
    ++ len g.x0 ++ len g.y0 ++ leBytes 8 (unsigned 64 g.zRef) ++ leBytes 2 g.cfg.cell ++ leBytes 2 g.cfg.gridW
    ++ leBytes 2 g.cfg.rows ++ zeros 2 ++ leBytes 2 (unsigned 16 m.di) ++ leBytes 2 (unsigned 16 m.dj) ++ zeros 4

/-- Bytes of a layer buffer. -/
def GridCfg.layerBytes (c : GridCfg) : Nat := 64 + 8 * c.gridW * c.rows

end Sys2Proof.Machine
end

