-- ==== Sys2Proof/Machine/Descriptors.lean ====
section
/-! DEFINITION. The descriptor catalogue of a unit (R343 to R355): decoding, checked operand access (R345, R346),
and each operation. Where the spec states an operation's arithmetic exactly the result is computed; where it
does not (log entry 11) the result bytes are free values of the stated size. -/

namespace Sys2Proof.Machine

/-- A descriptor as 64 bytes decode (R344). -/
structure Desc where
  op : Nat
  fin : Nat
  fout : Nat
  ctrl : Nat
  waitFlag : Nat
  waitCount : Nat
  sigFlag : Nat
  sigCluster : Nat
  sigAdd : Nat
  epi : Nat
  src0 : Nat
  src1 : Nat
  dst : Nat
  p0 : Nat
  p1 : Nat
  p2 : Nat
  p3 : Nat
  p4 : Nat
  p5 : Nat
  res : Nat
  deriving DecidableEq, Repr

/-- Decoding of a record. -/
def Desc.ofBytes (b : List Byte) : Desc :=
  let f := fun o n => leNat ((b.drop o).take n)
  { op := f 0 1, fin := f 1 1 % 16, fout := f 1 1 / 16, ctrl := f 2 2, waitFlag := f 4 2, waitCount := f 6 2,
    sigFlag := f 8 2, sigCluster := f 10 1, sigAdd := f 11 1, epi := f 12 2, res := f 14 2,
    src0 := f 16 8, src1 := f 24 8, dst := f 32 8, p0 := f 40 4, p1 := f 44 4, p2 := f 48 4, p3 := f 52 4,
    p4 := f 56 4, p5 := f 60 4 }

/-- How an operation fails (R365). -/
inductive DFault where
  | invalid
  | data
  | access (pa : Option Nat)
  | mem (e : AccessError)
  deriving DecidableEq, Repr

/-- Where an operation runs: device, memories, the job and the physical unit. -/
structure Env where
  dev : Device
  mem : Store
  job : Job
  jobId : Nat
  phys : Nat
  deriving DecidableEq, Repr

/-- One resolved operand range (R345). -/
inductive Loc where
  | scratch (off : Nat)
  | landing (cluster off : Nat)
  | lp (pa : Nat)
  deriving DecidableEq, Repr

/-- The space of a descriptor address; a reserved space or set reserved bits make the descriptor invalid (R345). -/
def locOf (a : Nat) : Except DFault Loc :=
  match a / 2 ^ 62 with
  | 0 => if a < 2 ^ 17 then .ok (.scratch a) else .error .invalid
  | 1 => if bits a 21 3 = 0 && bits a 30 32 = 0 then .ok (.landing (bits a 24 6) (bits a 0 21)) else .error .invalid
  | 2 => if bits a 38 24 = 0 then .ok (.lp (bits a 0 38)) else .error .invalid
  | _ => .error .invalid

/-- Whether a job's plan grants an LPDDR6 range, which lies within one pitch (R346, R393). -/
def Env.granted (e : Env) (pa n : Nat) (write : Bool) : Bool :=
  e.job.grants.any fun g => (!write || g.access != 0) &&
    match e.dev.buf g.buf with
    | some b => b.pitches.any fun p => pitchBase p ≤ pa && pa + n ≤ pitchBase p + pitchSize
    | none => false

/-- Whether a job holds the landing blocks of a range (R28, R346). -/
def Env.holdsLanding (e : Env) (c off n : Nat) : Bool :=
  off + n ≤ 2097152 && (n == 0 ||
    (List.range ((off + n - 1) / 32768 - off / 32768 + 1)).all fun i =>
      (e.dev.cluster c).blocks.getD (off / 32768 + i) 0 == e.jobId && e.jobId != 0)

/-- The pieces of an LPDDR6 range that do not cross a 128-byte boundary need one pitch each; a longer operand
continues into the physically next pitch (R361, R393). -/
def pitchPieces : Nat → Nat → Nat → List (Nat × Nat)
  | 0, _, _ => []
  | k + 1, pa, n =>
    if n = 0 then [] else
      let t := min n (pitchSize - pa % pitchSize)
      (pa, t) :: pitchPieces k (pa + t) (n - t)

/-- The check of one access (R346, R364). -/
def Env.check (e : Env) (l : Loc) (n : Nat) (write : Bool) : Except DFault Unit :=
  match l with
  | .scratch o => if 131072 < o + n || (write && o < 0x4000 && 0 < n) then .error (.access none) else .ok ()
  | .landing c o => if e.holdsLanding c o n then .ok () else .error (.access none)
  | .lp pa =>
    let ps := pitchPieces (n / pitchSize + 2) pa n
    match ps.find? fun (q : Nat × Nat) => !e.granted q.1 q.2 write with
    | some (q, _) => .error (.access (some q))
    | none =>
      match ps.findSome? fun (q : Nat × Nat) => e.dev.accessError q.1 q.2 write with
      | some x => .error (.mem x)
      | none => .ok ()

/-- The bytes of a checked location. -/
def Env.bytes (e : Env) (l : Loc) (n : Nat) : List Byte :=
  match l with
  | .scratch o => e.mem.sramRead (scratchAddr e.phys o) n
  | .landing c o => e.mem.sramRead (landAddr c o) n
  | .lp pa => e.mem.lp.readAll 0#8 pa n

/-- A checked read of `n` bytes at a descriptor address. -/
def Env.read (e : Env) (a n : Nat) : Except DFault (List Byte) := do
  let l ← locOf a
  e.check l n false
  pure (e.bytes l n)

/-- Rows of `n` bytes at a stride. -/
def Env.rows (e : Env) (a stride n : Nat) : Nat → Except DFault (List (List Byte))
  | 0 => .ok []
  | k + 1 => do
    let r ← e.read a n
    let rs ← e.rows (a + stride) stride n k
    pure (r :: rs)

/-- What an operation writes, at descriptor addresses, in order, with the sticky flags it raises (R340: SAT_ACC, SAT_OUT,
NAN, INF as bits 0 to 3). -/
structure Effect where
  writes : List (Nat × List Byte)
  sticky : Nat
  deriving DecidableEq, Repr

/-- No effect. -/
def Effect.none : Effect := ⟨[], 0⟩

/-- Rows written at a stride. -/
def rowsOut (a stride : Nat) (rs : List (List Byte)) : List (Nat × List Byte) :=
  rs.zipIdx.map fun p => (a + stride * p.2, p.1)

/-- Free bytes where the spec states no arithmetic (log entry 11). -/
def Env.freeRows (e : Env) (a stride n rows : Nat) : Effect :=
  ⟨rowsOut a stride ((List.range rows).map fun r =>
      (List.range n).map fun i => Config.freeByte 10 e.dev.free (r * n + i)), 0⟩

/-! ## Matrix operations -/

/-- Positions and values of a 2:4 sparse row of `k` positions (R341): none when a nibble is out of order (R342). -/
def sparseRow (f : Fmt) (k : Nat) (row : List Byte) : Option (List Num) :=
  let keptBytes := pad64 (k / 2)
  let meta_ := (row.drop keptBytes).take (pad64 (k / 8))
  let scaleOff := keptBytes + pad64 (k / 8)
  let groups := (List.range (k / 4)).map fun g =>
    let nib := bits (meta_.getD (g / 2) 0).toNat (4 * (g % 2)) 4
    (nib % 4, nib / 4, (row.getD (2 * g) 0).toNat, (row.getD (2 * g + 1) 0).toNat)
  if groups.any fun (a, b, _, _) => decide (b ≤ a) then none
  else some ((List.range k).map fun i =>
    let (a, b, x, y) := groups.getD (i / 4) (0, 1, 0, 0)
    let v := if i % 4 = a then f.value x else if i % 4 = b then f.value y else .fin false 0 0
    if f.isMx then
      let sc := (row.getD (scaleOff + i / 32) 0).toNat
      if sc = 0xFF then .nan else v.scale ((sc : Int) - 127)
    else v)

/-- Stored bytes of a sparse row (R341). -/
def sparseBytes (f : Fmt) (k : Nat) : Nat := pad64 (k / 2) + pad64 (k / 8) + (if f.isMx then pad64 (k / 32) else 0)

/-- One output accumulator (R333 to R335) from its start value. -/
def dot (f : Fmt) (a b : List Num) (acc : Num) : Num × Bool :=
  if f.isInt then
    let (v, s) := accInt (List.zip (a.map Num.toInt) (b.map Num.toInt)) acc.toInt
    (Num.ofInt v, s)
  else
    let g := if f.isMx then 32 else 4
    (accGroups g ((a.length + g - 1) / g) (List.zip a b) acc, false)

/-- The epilogue table's entry of a column (R339). -/
def Env.epiOf (e : Env) (d : Desc) (col : Nat) : Epi :=
  Epi.ofBytes (e.mem.sramRead (scratchAddr e.phys (d.epi * 64 + 16 * col)) 16)

/-- Control bits of a descriptor (R344). DESIGN CHOICE: log entry 11. -/
def Desc.acc (d : Desc) : Bool := bit d.ctrl 2
def Desc.epiBias (d : Desc) : Bool := bit d.ctrl 3
def Desc.epiRelu (d : Desc) : Bool := bit d.ctrl 4
def Desc.epiReq (d : Desc) : Bool := bit d.ctrl 5

/-- GEMM, GEMM_SP and GEMV (R349). Also R327. -/
def opGemm (e : Env) (d : Desc) (f g : Fmt) (n : Nat) (sparse : Bool) : Except DFault Effect := do
  let m := d.p0
  let k := d.p2
  if m = 0 || n = 0 || k = 0 || 65535 < m || 65535 < n || 65535 < k || (f.isMx && k % 32 ≠ 0)
      || (sparse && k % 4 ≠ 0) || g.isMx && n % 32 ≠ 0 then .error .invalid
  let as ← e.rows d.src0 d.p3 (f.storedBytes k) m
  let bs ← e.rows d.src1 d.p4 (if sparse then sparseBytes f k else f.storedBytes k) n
  let cs ← if d.acc then e.rows d.dst d.p5 (g.storedBytes n) m else pure (List.replicate m [])
  let av := as.map (f.row k)
  let bv := bs.map fun r => if sparse then sparseRow f k r else some (f.row k r)
  if bv.any Option.isNone then .error .data
  let bv := bv.map (·.getD [])
  let outs := (List.range m).map fun i =>
    let c := g.row n (cs.getD i [])
    (List.range n).map fun j =>
      let (v, s) := dot f (av.getD i []) (bv.getD j []) (if d.acc then c.getD j (.fin false 0 0) else .fin false 0 0)
      (epilogue f.isInt d.epiBias d.epiRelu d.epiReq (e.epiOf d j) v, s)
  let ws := outs.map fun r => g.store (r.map (·.1))
  let sat := outs.any fun r => r.any (·.2)
  pure ⟨rowsOut d.dst d.p5 (ws.map (·.bytes)), ws.foldl (fun n w => Nat.lor n w.sticky) (b2n sat)⟩

/-- Output extent of a convolution or pooling along one axis. -/
def convOut (n k stride dil pad : Nat) : Nat :=
  if n + 2 * pad < dil * (k - 1) + 1 then 0 else (n + 2 * pad - (dil * (k - 1) + 1)) / stride + 1

/-- Convolutions and average pooling: the output tensor's size by its parameters, the weight layout and the order of
sums stated nowhere, so free values (log entry 11). -/
def opConv (e : Env) (d : Desc) (g : Fmt) (deconv : Bool) : Except DFault Effect := do
  let h := d.p0 % 65536
  let w := d.p0 / 65536
  let cin := d.p1 % 65536
  let cout := d.p1 / 65536
  let kh := bits d.p2 0 4
  let kw := bits d.p2 4 4
  let st := bits d.p2 8 4
  let dil := bits d.p2 12 4
  let pd := bits d.p2 16 8
  if h = 0 || w = 0 || cin = 0 || cout = 0 || kh = 0 || kw = 0 || 8 < kh || 8 < kw || st = 0 || 4 < st || dil = 0
      || 4 < dil then .error .invalid
  let _ ← e.rows d.src0 d.p3 (w * cin) h
  let oh := if deconv then 2 * h else convOut h kh st dil pd
  let ow := if deconv then 2 * w else convOut w kw st dil pd
  pure (e.freeRows d.dst d.p4 (g.rowBytes (ow * cout)) oh)

/-! ## Elementwise and reductions -/

/-- CONVERT and REQUANT (R349, R338, R339). -/
def opConvert (e : Env) (d : Desc) (f g : Fmt) (req : Bool) : Except DFault Effect := do
  if 65535 < d.p0 || 65535 < d.p1 || d.p0 = 0 || d.p1 = 0 || ((f.isMx || g.isMx) && d.p1 % 32 ≠ 0) then .error .invalid
  let rs ← e.rows d.src0 d.p2 (f.storedBytes d.p1) d.p0
  let ws := rs.map fun r =>
    let vs := f.row d.p1 r
    g.store (if req then vs.zipIdx.map fun p =>
      epilogue true d.epiBias d.epiRelu true (e.epiOf d p.2) p.1 else vs)
  pure ⟨rowsOut d.dst d.p3 (ws.map (·.bytes)), ws.foldl (fun n w => Nat.lor n w.sticky) 0⟩

/-- The operation of ELTWISE by its code. -/
def eltOp (op : Nat) (x y : Num) : Num :=
  match op with
  | 0 => x.add y
  | 1 => x.add y.neg
  | 2 => x.mul y
  | 3 => if x = .nan || y = .nan then .nan else if x.lt y then y else x
  | _ => if x = .nan || y = .nan then .nan else if y.lt x then y else x

/-- ELTWISE (R349). -/
def opEltwise (e : Env) (d : Desc) (f g : Fmt) : Except DFault Effect := do
  if 65535 < d.p0 || 65535 < d.p1 || 4 < d.p4 then .error .invalid
  let xs ← e.rows d.src0 d.p2 (f.rowBytes d.p1) d.p0
  let ys ← e.rows d.src1 d.p2 (f.rowBytes d.p1) d.p0
  let ws := (List.zip xs ys).map fun p =>
    g.store (List.zipWith (eltOp d.p4) (f.row d.p1 p.1) (f.row d.p1 p.2))
  pure ⟨rowsOut d.dst d.p3 (ws.map (·.bytes)), ws.foldl (fun n w => Nat.lor n w.sticky) 0⟩

/-- One reduction: sum, max or min; float sums round at each addition in order. -/
def reduceList (f : Fmt) (op : Nat) (xs : List Num) : Num :=
  match xs with
  | [] => .fin false 0 0
  | x :: t => t.foldl (fun a y =>
      match op with
      | 0 => let s := a.add y; if f = .fp32 then round32 s else
          Num.ofInt (clampI (-(2 ^ 31)) (2 ^ 31 - 1) s.toInt)
      | 1 => eltOp 3 a y
      | _ => eltOp 4 a y) x

/-- REDUCE (R349): integer results exact with saturation, max and min exact; the order of a float sum is stated
nowhere, so a float sum is free (log entry 11). -/
def opReduce (e : Env) (d : Desc) (f g : Fmt) : Except DFault Effect := do
  let op := d.p4 % 4
  if op = 3 || 65535 < d.p0 || 65535 < d.p1 then .error .invalid
  let rs ← e.rows d.src0 d.p2 (f.rowBytes d.p1) d.p0
  let vs := rs.map (f.row d.p1)
  let cols := bit d.p4 2
  if f = .fp32 && op = 0 then
    pure (if cols then e.freeRows d.dst d.p3 (g.rowBytes d.p1) 1 else e.freeRows d.dst d.p3 (g.rowBytes 1) d.p0)
  else if cols then
    let w := g.store ((List.range d.p1).map fun j => reduceList f op (vs.map fun r => r.getD j (.fin false 0 0)))
    pure ⟨[(d.dst, w.bytes)], w.sticky⟩
  else
    let ws := vs.map fun r => g.store [reduceList f op r]
    pure ⟨rowsOut d.dst d.p3 (ws.map (·.bytes)), ws.foldl (fun n w => Nat.lor n w.sticky) 0⟩

/-- TRANSPOSE of 8, 16 or 32-bit elements. -/
def opTranspose (e : Env) (d : Desc) (f : Fmt) : Except DFault Effect := do
  let w := f.width / 8
  if w = 0 || 65535 < d.p0 || 65535 < d.p1 then .error .invalid
  let rs ← e.rows d.src0 d.p2 (d.p1 * w) d.p0
  let cols := (List.range d.p1).map fun j => rs.flatMap fun r => (r.drop (j * w)).take w
  pure ⟨rowsOut d.dst d.p3 cols, 0⟩

/-! ## Graph, point and set work -/

/-- U32 values of a byte list. -/
def u32s (bs : List Byte) (n : Nat) : List Nat := (List.range n).map fun i => leNat ((bs.drop (4 * i)).take 4)

/-- Key and payload pairs of 8 bytes. -/
def pairs (bs : List Byte) (n : Nat) : List (Nat × Nat) :=
  (List.range n).map fun i => (leNat ((bs.drop (8 * i)).take 4), leNat ((bs.drop (8 * i + 4)).take 4))

/-- Pairs as bytes. -/
def pairBytes (ps : List (Nat × Nat)) : List Byte := ps.flatMap fun p => leBytes 4 p.1 ++ leBytes 4 p.2

/-- GATHER (R353). -/
def opGather (e : Env) (d : Desc) : Except DFault Effect := do
  if 65535 < d.p0 || d.p1 < 4 || 4096 < d.p1 then .error .invalid
  let ix ← e.read d.src1 (4 * d.p0)
  let rs ← (u32s ix d.p0).mapM fun i =>
    if i = 0xFFFFFFFF then Except.ok (zeros d.p1) else e.read (d.src0 + i * d.p2) d.p1
  pure ⟨rowsOut d.dst d.p3 rs, 0⟩

/-- SCATTER (R353): a repeated index takes the row with the highest position, as later writes do here. -/
def opScatter (e : Env) (d : Desc) : Except DFault Effect := do
  if 65535 < d.p0 || d.p1 < 4 || 4096 < d.p1 then .error .invalid
  let ix ← e.read d.src1 (4 * d.p0)
  let rs ← e.rows d.src0 d.p2 d.p1 d.p0
  pure ⟨(List.zip (u32s ix d.p0) rs).filterMap fun p =>
    if p.1 = 0xFFFFFFFF then none else some (d.dst + p.1 * d.p3, p.2), 0⟩

/-- Later writes of an effect seen by a read within the same operation. -/
def seen (ws : List (Nat × List Byte)) (a n : Nat) (old : List Byte) : List Byte :=
  match ws.reverse.find? fun w => w.1 == a && w.2.length == n with
  | some w => w.2
  | none => old

/-- The reducing combination of two rows. -/
def redRow (f : Fmt) (op k : Nat) (a b : List Byte) : Written :=
  f.store (List.zipWith (fun x y => match op with
    | 0 => let s := x.add y
           if f = .int32 then Num.ofInt (clampI (-(2 ^ 31)) (2 ^ 31 - 1) s.toInt) else s
    | 1 => eltOp 3 x y
    | _ => eltOp 4 x y) (f.row k a) (f.row k b))

/-- SCATTER_RED (R353, R354). -/
def opScatterRed (e : Env) (d : Desc) (f : Fmt) : Except DFault Effect := do
  if 65535 < d.p0 || d.p1 < 4 || 4096 < d.p1 || 2 < d.p4 then .error .invalid
  let ix ← e.read d.src1 (4 * d.p0)
  let rs ← e.rows d.src0 d.p2 d.p1 d.p0
  let k := d.p1 * 8 / f.width
  (List.zip (u32s ix d.p0) rs).foldlM (fun (acc : Effect) p =>
    if p.1 = 0xFFFFFFFF then pure acc else do
      let a := d.dst + p.1 * d.p3
      let old ← e.read a d.p1
      let w := redRow f d.p4 k (seen acc.writes a d.p1 old) p.2
      pure ⟨acc.writes ++ [(a, w.bytes)], Nat.lor acc.sticky w.sticky⟩) Effect.none

/-- SEG_REDUCE: one output row per run of equal segment IDs, packed in order. -/
def opSegReduce (e : Env) (d : Desc) (f : Fmt) : Except DFault Effect := do
  if 65535 < d.p0 || d.p1 < 4 || 4096 < d.p1 || 2 < d.p4 then .error .invalid
  let ix ← e.read d.src1 (4 * d.p0)
  let rs ← e.rows d.src0 d.p2 d.p1 d.p0
  let k := d.p1 * 8 / f.width
  let runs := (List.zip (u32s ix d.p0) rs).foldl (fun (acc : List (Nat × List Byte × Nat)) p =>
    match acc with
    | (i, r, s) :: t => if i = p.1 then
          let w := redRow f d.p4 k r p.2
          (i, w.bytes, Nat.lor s w.sticky) :: t
        else (p.1, p.2, 0) :: acc
    | [] => [(p.1, p.2, 0)]) []
  pure ⟨rowsOut d.dst d.p3 (runs.reverse.map (·.2.1)), runs.foldl (fun n r => Nat.lor n r.2.2) 0⟩

/-- COMPACT: rows whose mask bit is set, packed; the count goes to P5's scratch offset. -/
def opCompact (e : Env) (d : Desc) : Except DFault Effect := do
  if 65535 < d.p0 then .error .invalid
  let mk ← e.read d.src1 ((d.p0 + 7) / 8)
  let rs ← e.rows d.src0 d.p2 d.p1 d.p0
  let kept := (rs.zipIdx.filter fun p => bit (mk.getD (p.2 / 8) 0).toNat (p.2 % 8)).map (·.1)
  pure ⟨rowsOut d.dst d.p3 kept ++ [(d.p5, leBytes 4 kept.length)], 0⟩

/-- Stable insertion by key. -/
def insertPair (p : Nat × Nat) : List (Nat × Nat) → List (Nat × Nat)
  | [] => [p]
  | q :: qs => if p.1 < q.1 then p :: q :: qs else q :: insertPair p qs

/-- Stable ascending sort by key (SORT). -/
def sortPairs (ps : List (Nat × Nat)) : List (Nat × Nat) := ps.foldl (fun acc p => insertPair p acc) []

/-- Whether keys ascend (R352; equal keys are in order). -/
def ascending : List (Nat × Nat) → Bool
  | a :: b :: t => decide (a.1 ≤ b.1) && ascending (b :: t)
  | _ => true

/-- MERGE: on equal keys the first list comes first. -/
def mergePairs : Nat → List (Nat × Nat) → List (Nat × Nat) → List (Nat × Nat)
  | 0, a, b => a ++ b
  | _ + 1, [], b => b
  | _ + 1, a, [] => a
  | k + 1, x :: a, y :: b => if y.1 < x.1 then y :: mergePairs k (x :: a) b else x :: mergePairs k a (y :: b)

/-- SORT, MERGE, INTERSECT, DIFFERENCE, UNIQUE (R352). -/
def opSets (e : Env) (d : Desc) : Except DFault Effect := do
  if 65535 < d.p0 || (d.op = 0x40 && 8192 < d.p0) then .error .invalid
  let a ← e.read d.src0 (8 * d.p0)
  let ps := pairs a d.p0
  if d.op = 0x40 then pure ⟨[(d.dst, pairBytes (sortPairs ps))], 0⟩
  else if d.op = 0x44 then
    if ascending ps then
      pure ⟨[(d.dst, pairBytes (ps.foldl (fun acc p => match acc with
        | q :: _ => if q.1 = p.1 then acc else p :: acc
        | [] => [p]) []).reverse)], 0⟩
    else .error .data
  else
    if 65535 < d.p1 then .error .invalid
    let b ← e.read d.src1 (8 * d.p1)
    let qs := pairs b d.p1
    if !ascending ps || !ascending qs then .error .data
    let out := match d.op with
      | 0x41 => mergePairs (d.p0 + d.p1) ps qs
      | 0x42 => ps.filter fun p => qs.any fun q => q.1 == p.1
      | _ => ps.filter fun p => !(qs.any fun q => q.1 == p.1)
    pure ⟨[(d.dst, pairBytes out)], 0⟩

/-- TOPK (R349): the k highest scores, ties to the lower ID. -/
def opTopk (e : Env) (d : Desc) (f : Fmt) : Except DFault Effect := do
  if 65535 < d.p0 || 1024 < d.p1 then .error .invalid
  let a ← e.read d.src0 (8 * d.p0)
  let better (x y : Nat × Nat) : Bool :=
    let vx := f.value x.1
    let vy := f.value y.1
    vy.lt vx || (!(vx.lt vy) && decide (x.2 < y.2))
  let ins := fun (l : List (Nat × Nat)) (p : Nat × Nat) =>
    (l.takeWhile fun q => better q p) ++ p :: (l.dropWhile fun q => better q p)
  pure ⟨[(d.dst, pairBytes (((pairs a d.p0).foldl ins []).take d.p1))], 0⟩

/-- PREFIX_SUM: exclusive scan; a sum that leaves the format is stated nowhere and free (DESIGN CHOICE, log entry 11). -/
def opPrefix (e : Env) (d : Desc) (f : Fmt) : Except DFault Effect := do
  if 65535 < d.p0 then .error .invalid
  let a ← e.read d.src0 (4 * d.p0)
  let vs := (u32s a d.p0).map fun v => if f = .int32 then signed 32 v else (v : Int)
  let sums := vs.foldl (fun (p : List Int × Int) v => (p.2 :: p.1, p.2 + v)) ([], 0)
  let lo : Int := if f = .int32 then -(2 ^ 31) else 0
  let hi : Int := if f = .int32 then 2 ^ 31 - 1 else 2 ^ 32 - 1
  pure ⟨[(d.dst, sums.1.reverse.flatMap fun s =>
    if lo ≤ s && s ≤ hi then leBytes 4 (unsigned 32 s) else leBytes 4 (Config.freeWord 11 e.dev.free).toNat)], 0⟩

/-- HISTOGRAM: counts of keys in P1 equal bins from P2 of width P3. -/
def opHistogram (e : Env) (d : Desc) : Except DFault Effect := do
  if 65535 < d.p0 || 65535 < d.p1 || d.p3 = 0 then .error .invalid
  let a ← e.read d.src0 (4 * d.p0)
  let ks := u32s a d.p0
  pure ⟨[(d.dst, (List.range d.p1).flatMap fun b =>
    leBytes 4 ((ks.filter fun k => d.p2 + b * d.p3 ≤ k && k < d.p2 + (b + 1) * d.p3).length))], 0⟩

/-- HAMMING (R349): distances between codes, row by row. -/
def opHamming (e : Env) (d : Desc) : Except DFault Effect := do
  if 65535 < d.p0 || 1024 < d.p1 || d.p2 < 64 || 1024 < d.p2 || d.p2 % 64 ≠ 0 then .error .invalid
  let n := d.p2 / 8
  let a ← e.read d.src0 (n * d.p0)
  let b ← e.read d.src1 (n * d.p1)
  let code (bs : List Byte) (i : Nat) := leNat ((bs.drop (n * i)).take n)
  pure ⟨[(d.dst, (List.range d.p0).flatMap fun i => (List.range d.p1).flatMap fun j =>
    leBytes 4 (popcount d.p2 (Nat.xor (code a i) (code b j))))], 0⟩

/-- KNN (R355): squared distances exact in sQ31.32, ties to the lower index; k indices, padded, then the count. -/
def opKnn (e : Env) (d : Desc) : Except DFault Effect := do
  if 65535 < d.p0 || 65535 < d.p1 || d.p2 = 0 || 64 < d.p2 then .error .invalid
  let a ← e.read d.src0 (12 * d.p0)
  let b ← e.read d.src1 (12 * d.p1)
  let pt (bs : List Byte) (i c : Nat) : Int := signed 32 (leNat ((bs.drop (12 * i + 4 * c)).take 4))
  let dist (i j : Nat) : Nat := ((List.range 3).foldl (fun s c => s + (pt a i c - pt b j c) ^ 2) (0 : Int)).toNat
  -- P3 holds radius squared in sQ31.32 m²: the low word, as one 32-bit parameter carries it
  let out := (List.range d.p0).flatMap fun i =>
    let c := (List.range d.p1).map fun j => (dist i j, j)
    let near := (sortPairs (c.filter fun p => p.1 ≤ d.p3)).take d.p2
    (near.flatMap fun p => leBytes 4 p.2) ++ (List.range (d.p2 - near.length)).flatMap (fun _ => leBytes 4 0xFFFFFFFF)
      ++ leBytes 4 near.length
  pure ⟨[(d.dst, out)], 0⟩

/-! ## Data movement -/

/-- Offsets of up to three-dimensional extents: P0 bytes, P1 rows, P2 planes (log entry 11). -/
def boxRows (d : Desc) : List (Nat × Nat) :=
  (List.range (max 1 d.p2)).flatMap fun z => (List.range (max 1 d.p1)).map fun y => (y, z)

/-- COPY (R349). -/
def opCopy (e : Env) (d : Desc) : Except DFault Effect := do
  if 65535 < d.p1 || 65535 < d.p2 then .error .invalid
  let ws ← (boxRows d).mapM fun (y, z) => do
    let r ← e.read (d.src0 + y * d.p3 + z * d.p5) d.p0
    pure (d.dst + y * d.p4 + z * d.p5, r)
  pure ⟨ws, 0⟩

/-- FILL with the 32-bit pattern P4. -/
def opFill (d : Desc) : Except DFault Effect := do
  if 65535 < d.p1 || 65535 < d.p2 then .error .invalid
  let pat := leBytes 4 d.p4
  let row := (List.range d.p0).map fun i => pat.getD (i % 4) 0
  pure ⟨(boxRows d).map fun (y, z) => (d.dst + y * d.p3 + z * d.p5, row), 0⟩

/-- One bit step of the CRC-64 of ECMA-182, most significant bit first. -/
def crc64Step : Nat → Nat → Nat
  | 0, c => c
  | k + 1, c => crc64Step k (if c / 2 ^ 63 % 2 = 1 then Nat.xor (c * 2 % 2 ^ 64) 0x42F0E1EBA9EA3693 else c * 2 % 2 ^ 64)

/-- CRC-64 of bytes from a start value (CHECKSUM, R349). -/
def crc64 (start : Nat) (bs : List Byte) : Nat :=
  bs.foldl (fun c b => crc64Step 8 (Nat.xor c (b.toNat * 2 ^ 56))) start

/-- CHECKSUM: folded into the 64-bit signature at DST. -/
def opChecksum (e : Env) (d : Desc) : Except DFault Effect := do
  let old ← e.read d.dst 8
  let bs ← e.read d.src0 d.p0
  pure ⟨[(d.dst, leBytes 8 (crc64 (leNat old) bs))], 0⟩

/-! ## The catalogue -/

/-- Whether the formats of a descriptor are among those its operation lists (R329, R349). -/
def formatsOk (op : Nat) (f g : Fmt) : Bool :=
  let mat := f.isInt || f.isMx || f = .bf16
  match op with
  | 0x01 | 0x03 | 0x06 => mat && g ≠ .code && g ≠ .u32
  | 0x02 => f = .int8 || f = .mxint8
  | 0x04 | 0x05 | 0x17 | 0x18 => f = .int8 || f = .bf16
  | 0x10 => f ≠ .code && g ≠ .code
  | 0x11 => f = .int32 && (g = .int8 || g = .uint8 || g = .int4)
  | 0x12 => (f = .int8 || f = .int32 || f = .bf16 || f = .fp32) && g ≠ .code
  | 0x13 => f = .int8 || f = .bf16 || f = .fp32
  | 0x14 | 0x15 => f = .bf16 || f = .fp32
  | 0x16 | 0x33 => f = .int32 || f = .fp32
  | 0x19 => f.width = 8 || f.width = 16 || f.width = 32
  | 0x20 => f = .fp32 || f = .int32
  | 0x21 | 0x25 => f = .fp32
  | 0x22 | 0x34 => f = .int32
  | 0x23 => f = .bf16
  | 0x24 => f = .code
  | 0x32 => f = .int32 || f = .fp32 || f = .bf16
  | 0x45 => f = .int32 || f = .fp32
  | 0x46 => f = .u32 || f = .int32
  | _ => true

/-- The data operations of the catalogue (R349). -/
def runOp (e : Env) (d : Desc) (f g : Fmt) : Except DFault Effect :=
  match d.op with
  | 0x01 => opGemm e d f g d.p1 false
  | 0x02 => opGemm e d f g d.p1 true
  | 0x03 | 0x04 => opConv e d g false
  | 0x05 => opConv e d g true
  | 0x06 => opGemm e { d with p4 := d.p4 } f g 1 false
  | 0x10 => opConvert e d f g false
  | 0x11 => opConvert e d f g true
  | 0x12 => opEltwise e d f g
  | 0x13 | 0x14 | 0x15 => do
    let _ ← e.rows d.src0 d.p2 (f.rowBytes d.p1) d.p0
    pure (e.freeRows d.dst d.p3 (g.rowBytes d.p1) d.p0)
  | 0x16 => opReduce e d f g
  | 0x17 => opConv e d g false
  | 0x18 => do
    let _ ← e.read d.src0 (f.rowBytes (d.p0 % 65536 * (d.p0 / 65536) * d.p2))
    pure (e.freeRows d.dst 0 (g.rowBytes (d.p1 % 65536 * (d.p1 / 65536) * d.p2)) 1)
  | 0x19 => opTranspose e d f
  | 0x20 => do
    if 65535 < d.p0 then .error .invalid
    let _ ← e.rows d.src0 d.p1 12 d.p0
    let _ ← e.read d.src1 48
    pure (e.freeRows d.dst d.p1 12 d.p0)
  | 0x21 => do
    if 65535 < d.p0 then .error .invalid
    let _ ← e.rows d.src0 d.p1 12 d.p0
    let _ ← e.read d.src1 64
    pure (e.freeRows d.dst 8 8 d.p0)
  | 0x22 => do
    if 65535 < d.p0 then .error .invalid
    let _ ← e.rows d.src0 d.p1 12 d.p0
    pure (e.freeRows d.dst 4 4 d.p0)
  | 0x23 => do
    if 65535 < d.p0 || 128 < d.p1 || 256 < d.p2 then .error .invalid
    let _ ← e.read d.src0 (2 * d.p0 * (d.p1 + d.p2))
    pure (e.freeRows d.dst 0 (2 * d.p2) 1)
  | 0x24 => opHamming e d
  | 0x25 => do
    if 65535 < d.p0 || 1 < d.p1 then .error .invalid
    pure (e.freeRows d.dst 0 (4 * d.p0 + 4) 1)
  | 0x30 => opGather e d
  | 0x31 => opScatter e d
  | 0x32 => opScatterRed e d f
  | 0x33 => opSegReduce e d f
  | 0x34 => opKnn e d
  | 0x35 => opCompact e d
  | 0x40 | 0x41 | 0x42 | 0x43 | 0x44 => opSets e d
  | 0x45 => opTopk e d f
  | 0x46 => opPrefix e d f
  | 0x47 => opHistogram e d
  | 0x50 => opCopy e d
  | 0x51 => opFill d
  | 0x52 => opChecksum e d
  | _ => .ok Effect.none

/-- The operation codes of the catalogue. -/
def opCodes : List Nat :=
  [0x01, 0x02, 0x03, 0x04, 0x05, 0x06, 0x10, 0x11, 0x12, 0x13, 0x14, 0x15, 0x16, 0x17, 0x18, 0x19,
   0x20, 0x21, 0x22, 0x23, 0x24, 0x25, 0x30, 0x31, 0x32, 0x33, 0x34, 0x35,
   0x40, 0x41, 0x42, 0x43, 0x44, 0x45, 0x46, 0x47, 0x50, 0x51, 0x52, 0x60, 0x61, 0x62, 0x63, 0x64, 0x65]

/-- A descriptor that is invalid by its fixed part (R347): code, formats, reserved bits, flags, counts. -/
def Desc.invalid (d : Desc) : Bool :=
  !opCodes.elem d.op || d.ctrl / 64 ≠ 0 || d.res ≠ 0
    || (Fmt.ofCode d.fin).isNone || (Fmt.ofCode d.fout).isNone
    || (d.waitFlag ≠ 0xFFFF && (1023 < d.waitFlag || d.waitCount = 0))
    || (d.sigFlag ≠ 0xFFFF && (1023 < d.sigFlag || 63 < d.sigCluster || d.sigAdd = 0))
    || !formatsOk d.op ((Fmt.ofCode d.fin).getD .int8) ((Fmt.ofCode d.fout).getD .int8)

/-- All writes of an effect checked (R346) and made, in order. -/
def Env.write (e : Env) : List (Nat × List Byte) → Except DFault Env
  | [] => .ok e
  | (a, bs) :: ws => do
    let l ← locOf a
    e.check l bs.length true
    let e' := match l with
      | .scratch o => { e with mem := e.mem.sramWrite (scratchAddr e.phys o) bs }
      | .landing c o => { e with mem := e.mem.sramWrite (landAddr c o) bs }
      | .lp pa => { e with
          mem := { e.mem with lp := Cells.writeAll 0#8 e.mem.lp pa bs }
          dev := { e.dev with memsys := e.dev.memsys.renew pa bs.length } }
    e'.write ws

/-- A data operation, checked and carried out: what it wrote, its sticky flags. -/
def Env.run (e : Env) (d : Desc) : Except DFault (Env × Nat) :=
  match Fmt.ofCode d.fin, Fmt.ofCode d.fout with
  | some f, some g =>
    match runOp e d f g with
    | .error x => .error x
    | .ok fx =>
      match e.write fx.writes with
      | .error x => .error x
      | .ok e' => .ok (e', fx.sticky)
  | _, _ => .error .invalid

/-- Memory operations of up to 128 bytes that an operand address outside scratch needs (R361). -/
def tagsOf (d : Desc) : Nat :=
  let out := fun a => if a / 2 ^ 62 = 0 then 0 else 1
  out d.src0 + out d.src1 + out d.dst

end Sys2Proof.Machine
end

