-- ==== Sys2Proof/Machine/Units.lean ====
section
/-! DEFINITION. Units and clusters at work: the loading of a job's packets by configuration broadcast (R367 to
R371), the sequencer (R348 to R351), landing flags (R356 to R360), tags (R361 to R364), unit states (R373), and
CLUSTER_STATUS and UNIT_STATUS (R374). -/

namespace Sys2Proof.Machine

/-! ## Load lists (R742, R743) -/

/-- One record of a part's load list. -/
structure LoadRec where
  seg : Nat
  kind : Nat
  target : Nat
  dest : Nat
  data : List Byte
  deriving DecidableEq, Repr

/-- The records of a load list. -/
def loadRecs (img : List Byte) : Nat → Nat → List LoadRec
  | 0, _ => []
  | k + 1, off =>
    let f := fun o n => leNat ((img.drop (off + o)).take n)
    let len := f 8 2
    ⟨f 0 1, f 1 1, f 2 2, f 4 4, (img.drop (off + 16)).take len⟩ :: loadRecs img k (off + 16 + len)

/-- The records of a part's present segment. -/
def Part.segRecs (p : Part) (img : List Byte) : List LoadRec :=
  (loadRecs img p.nload p.loadOff).filter fun r => r.seg == p.segment

/-- Relocations of an image: PART, SLOT, SEG, DESC, FIELD, KIND, REF, OFFSET. -/
structure Reloc where
  part : Nat
  slot : Nat
  seg : Nat
  desc : Nat
  field : Nat
  kind : Nat
  ref : Nat
  off : Nat
  deriving DecidableEq, Repr

/-- The relocation table of a job image (R743). -/
def relocs (img : List Byte) : List Reloc :=
  let n := imgFieldOf img 8 4
  let base := imgFieldOf img 32 8
  (List.range n).map fun i =>
    let f := fun o k => imgFieldOf img (base + 16 * i + o) k
    ⟨f 0 1, f 1 1, f 2 1, f 3 1, f 4 1, f 5 1, f 6 2, f 8 8⟩
where
  imgFieldOf (img : List Byte) (off n : Nat) : Nat := leNat ((img.drop off).take n)

/-- The bytes a relocation stores and where in the descriptor (R743): a buffer's physical address (R345, R392), a
landing address, or a flag. -/
def Device.relocBytes (d : Device) (j : Job) (r : Reloc) : Nat × List Byte :=
  let p := j.parts.getD (r.ref / 256) ⟨0, 0, 0, 0, none, [], [], [], [], 0, 0, 0, 0⟩
  let c := p.cluster.getD 0
  let addr := match r.kind with
    | 0 =>
      match d.buf ((j.grants.getD r.ref ⟨0, 0, 0, 0⟩).buf) with
      | some b => 2 * 2 ^ 62 + b.addr r.off
      | none => 2 * 2 ^ 62
    | 1 => 2 ^ 62 + c * 2 ^ 24 + (p.blockList.getD (r.ref % 256) 0) * 32768 + r.off
    | _ => p.groupList.getD (r.ref % 256) 0 * 32 + r.off
  match r.field with
  | 0 => (16, leBytes 8 addr)
  | 1 => (24, leBytes 8 addr)
  | 2 => (32, leBytes 8 addr)
  | 3 => (4, leBytes 2 addr)
  | _ => (8, leBytes 2 addr ++ leBytes 1 c)

/-- Bytes laid over a byte list at an offset. -/
def patch (bs : List Byte) (off : Nat) (new : List Byte) : List Byte :=
  bs.take off ++ new.take (bs.length - off) ++ bs.drop (off + new.length)

/-- A record's data with the relocations of its descriptors resolved. -/
def Device.relocated (d : Device) (j : Job) (part : Nat) (seg : Nat) (r : LoadRec) : List Byte :=
  if r.kind ≠ 0 then r.data else
    (relocs j.image).foldl (fun bs x =>
      if x.part = part && x.seg = seg && bit r.target x.slot && r.dest ≤ x.desc * 64
          && x.desc * 64 + 64 ≤ r.dest + r.data.length then
        let (o, new) := d.relocBytes j x
        patch bs (x.desc * 64 - r.dest + o) new
      else bs) r.data

/-! ## Configuration broadcast -/

/-- Packets a cluster has outstanding (R369). -/
def Cluster.open_ (c : Cluster) : Nat := c.packets.length

/-- The slots of a part as a bitmap of the cluster's slots. -/
def slotMask (p : Part) (target : Nat) : Nat :=
  p.slots.zipIdx.foldl (fun m s => if bit target s.2 then m + 2 ^ s.1 else m) 0

/-- BCAST_PACKET (R367, R369): the next record of a loading part's segment goes to its cluster's port, with at most 4
packets outstanding. -/
def execBcastPacket (job part : Nat) (s : State) : Host.Outcome State Fault Refusal :=
  onDev (fun d =>
    match d.job job with
    | none => d
    | some j =>
      match j.parts[part]? with
      | none => d
      | some p =>
        match p.cluster, (p.segRecs j.image)[p.loaded + (match p.cluster with
            | some c => ((d.cluster c).packets.filter fun k => k.job == job && k.part == part).length
            | none => 0)]? with
        | some c, some r =>
          let k := d.cluster c
          if (j.state = .loading || j.state = .running) && k.open_ < 4 then
            let pk : Packet :=
              ⟨k.seq, r.kind, slotMask p r.target, r.dest, d.relocated j part p.segment r, job, part, 0, 0, []⟩
            d.updCluster c fun k => { k with seq := (k.seq + 1) % 65536, packets := k.packets ++ [pk] }
          else d
        | _, _ => d) s

/-- A missed packet is resent point to point (R369); its misses and resends are counted (R366, R374). -/
def Device.countMiss (d : Device) (c phys : Nat) (resend : Bool) : Device :=
  let d := d.updCluster c fun k => { k with
    misses := k.misses + 1, resends := k.resends + b2n resend }
  let d := d.updUnit phys fun u => { u with misses := u.misses + 1 }
  let d := d.diagAdd (c / 8) (0x160 + 4 * (c % 8)) 0 16 1
  if resend then d.diagAdd (c / 8) (0x160 + 4 * (c % 8)) 16 16 1 else d

/-- A unit is marked defective for the session (R371): soft list entry, view, event, and the fault of its job. -/
def Device.markBroadcast (d : Device) (phys job : Nat) : Device :=
  let w := defectWord 1 (phys / 136) 1 phys
  let full := 256 ≤ d.boot.soft.length
  let d := { d with
    view := d.view.mark phys true
    boot := { d.boot.softAdd w 3 with softOverflow := d.boot.softOverflow || full } }
  let d := ((d.dropTags phys).updUnit phys fun u => { u with state := .defective, signals := [] }).defectEvent (phys / 136) phys 1
  d.jobFault job 0x07 0 (phys / 136) phys none 0

/-- The unit in slot `slot` of cluster `c` misses packet `pk` (R368 to R371). Also R29. -/
def Device.bcastMiss (d : Device) (c slot : Nat) (pk : Packet) : Device :=
  match d.slotPhys c slot with
  | none => d
  | some u =>
    let n := pk.misses.getD slot 0 + 1
    let d := d.countMiss c u (n < 3)
    if n < 3 then
      d.updCluster c fun k => { k with packets := k.packets.map fun q =>
        if q.seq = pk.seq then { q with misses := q.misses.put slot n } else q }
    else d.markBroadcast u pk.job

/-- The outstanding packet of a SEQ. -/
def Cluster.packet (k : Cluster) (seq : Nat) : Option Packet := k.packets.find? fun p => p.seq == seq

/-- A unit's part starts at index 0 of a loaded segment. -/
def startUnit (u : CUnit) : CUnit := { u with state := .running, desc := 0, loops := [] }

/-- A packet every named unit acknowledged leaves the port; a later segment that is complete starts its units
(R351, R373). -/
def Device.packetDone (d : Device) (c : Nat) (pk : Packet) : Device :=
  let d := d.updCluster c fun k => { k with packets := k.packets.filter fun q => q.seq != pk.seq }
  match d.job pk.job with
  | none => d
  | some j =>
    match j.parts[pk.part]? with
    | none => d
    | some p =>
      let p' := { p with loaded := p.loaded + 1 }
      let d := d.setJob pk.job { j with parts := j.parts.set pk.part p' }
      if j.state = .running && p'.loaded = (p'.segRecs j.image).length then
        p'.phys.foldl (fun d u => d.updUnit u fun x => if x.state = .loading then startUnit x else x) d
      else d

/-- BCAST_ANSWER (R368, R370, R371): ACK writes the data at DEST in the unit's scratch, NACK is a miss. An answer for a
SEQ that is not outstanding is ignored. -/
def execBcastAnswer (cluster : Fin 64) (slot : Fin 16) (seq : Nat) (ack : Bool) (s : State) :
    Host.Outcome State Fault Refusal :=
  onBoth (fun d m =>
    let c := cluster.val
    match (d.cluster c).packet seq, d.slotPhys c slot.val with
    | some pk, some u =>
      if !bit pk.target slot.val then (d, m)
      else if ack then
        let m := m.sramWrite (scratchAddr u pk.dest) pk.data
        let d := d.updUnit u fun x => { x with lastSeq := some seq }
        if bit pk.acks slot.val then (d, m) else
          let pk' := { pk with acks := pk.acks + 2 ^ slot.val }
          let d := d.updCluster c fun k => { k with packets := k.packets.map fun q => if q.seq = seq then pk' else q }
          (if pk'.acks = pk'.target then d.packetDone c pk' else d, m)
      else (if bit pk.acks slot.val then d else d.bcastMiss c slot.val pk, m)
    | _, _ => (d, m)) s

/-- BCAST_ACK_TIMEOUT (R368): no answer within 2 µs of the last flit is a miss. -/
def execBcastAckTimeout (cluster : Fin 64) (slot : Fin 16) (seq : Nat) (s : State) :
    Host.Outcome State Fault Refusal :=
  onDev (fun d =>
    match (d.cluster cluster.val).packet seq with
    | some pk =>
      if bit pk.target slot.val && !bit pk.acks slot.val then
        (d.advance (2000 * oneNs)).bcastMiss cluster.val slot.val pk else d
    | none => d) s

/-- Whether every packet of a job's present segments has been acknowledged. -/
def Device.jobLoaded (d : Device) (id : Nat) (j : Job) : Bool :=
  j.parts.all fun p => p.loaded == (p.segRecs j.image).length
    && (match p.cluster with
        | some c => !((d.cluster c).packets.any fun k => k.job == id)
        | none => true)

/-! ## Flags -/

/-- A landing flag. Also R27. -/
def Device.flag (d : Device) (c f : Nat) : Nat := (d.cluster c).flags.getD f 0

/-- A signal applied (R356): addition saturating at 0xFFFF, or a SET. -/
def Device.signal (d : Device) (g : Signal) : Device :=
  d.updCluster g.cluster fun k => { k with
    flags := k.flags.put g.flag (if g.set then g.add else min 0xFFFF (k.flags.getD g.flag 0 + g.add)) }

/-- A wait is met (R356). -/
def Device.waitMet (d : Device) (c flag count : Nat) : Bool := flag == 0xFFFF || count ≤ d.flag c flag

/-- A job holds the group of a flag (R346). -/
def Device.holdsFlag (d : Device) (job c flag : Nat) : Bool := (d.cluster c).groups.getD (flag / 32) 0 == job && job != 0

/-! ## The sequencer -/

/-- The descriptor at a unit's index. -/
def unitDesc (m : Store) (phys index : Nat) : Desc := Desc.ofBytes (m.sramRead (scratchAddr phys (64 * index)) 64)

/-- A 32-bit parameter as a signed advance. -/
def advOf (p : Nat) : Int := signed 32 p

/-- An address moved by a signed amount. -/
def moveAddr (a : Nat) (k : Int) : Nat := ((a : Int) + k).toNat

/-- A descriptor with the advances of the loops that run around it (R349, R350). -/
def CUnit.advanced (u : CUnit) (d : Desc) : Desc :=
  u.loops.foldl (fun d l => if l.first ≤ u.desc && u.desc < l.index then
    { d with src0 := moveAddr d.src0 l.adv0, src1 := moveAddr d.src1 l.adv1, dst := moveAddr d.dst l.adv2 } else d) d

/-- The fault-log detail of a unit: segment and descriptor index (R734). -/
def CUnit.detail (u : CUnit) : Nat := u.segment % 256 * 256 + u.desc % 256

/-- The part of a job that runs on a unit: its index. -/
def Job.partOf (j : Job) (phys : Nat) : Nat := (firstBelow j.parts.length fun i =>
  match j.parts[i]? with
  | some p => p.phys.elem phys
  | none => false).getD 0

/-- The fault a descriptor raises (R365, R727). -/
def Device.descFault (d : Device) (phys : Nat) (x : DFault) : Device :=
  let u := d.unit phys
  let die := phys / 136
  match x with
  | .invalid => d.jobFault u.job 0x01 0 die phys none u.detail
  | .data => d.jobFault u.job 0x02 0 die phys none u.detail
  | .access pa => d.jobFault u.job 0x03 0 die phys pa u.detail
  | .mem (.ecc pa) =>
    let c := pa / 2 ^ 34
    ((d.jobFault u.job 0x05 0 die phys (some pa) u.detail).diagAdd (c / 2) (0x180 + 4 * (c % 2)) 16 16 1)
  | .mem (.completion pa) => d.jobFault u.job 0x06 0 die phys (some pa) u.detail

/-- LOOP (R349, R350): the frame of this LOOP is taken on, continued or left; a fifth level is invalid. -/
def CUnit.loop (u : CUnit) (x : Desc) : Option CUnit :=
  match u.loops with
  | l :: ls =>
    if l.index = u.desc then
      if l.left = 0 then some { u with loops := ls, desc := u.desc + 1 }
      else some { u with
        desc := l.first
        loops := { l with left := l.left - 1, adv0 := l.adv0 + advOf x.p2, adv1 := l.adv1 + advOf x.p3,
                          adv2 := l.adv2 + advOf x.p4 } :: ls }
    else if 4 ≤ u.loops.length then none
    else enter u x
  | [] => enter u x
where
  enter (u : CUnit) (x : Desc) : Option CUnit :=
    if u.desc < x.p0 then none
    else if x.p1 = 0 then some { u with desc := u.desc + 1 }
    else some { u with
      desc := x.p0
      loops := ⟨u.desc, x.p0, x.p1 - 1, advOf x.p2, advOf x.p3, advOf x.p4⟩ :: u.loops }

/-- The signal a descriptor leaves for when its writes are visible. -/
def Desc.signal? (x : Desc) : List Signal :=
  if x.sigFlag = 0xFFFF then [] else [⟨x.sigCluster, x.sigFlag, x.sigAdd, x.op == 0x61 && bit x.p0 0⟩]

/-- Tags now held by a cluster's units, counted with their peak (R37, R366). Also R22. -/
def Device.holdTags (d : Device) (c phys n : Nat) : Device :=
  let d := d.updUnit phys fun u => { u with tags := u.tags + n }
  let d := d.updCluster c fun k => { k with held := k.held + n, peak := max k.peak (k.held + n) }
  d.diagPeak (c / 8) (0x100 + 4 * (c % 8)) 16 9 (d.cluster c).held

/-- A schedule entry (R407) with its references as the image gives them (R743). -/
structure SchedEntry where
  waitFlag : Nat
  waitCount : Nat
  part : Nat
  flags : Nat
  slot : Nat
  offset : Nat
  len : Nat
  dest : Nat
  sigFlag : Nat
  deriving DecidableEq, Repr

/-- Entry `i` of a schedule. -/
def schedEntry (sched : List Byte) (i : Nat) : SchedEntry :=
  let f := fun o n => leNat ((sched.drop (32 * i + o)).take n)
  ⟨f 2 2, f 4 2, f 6 1, f 7 1, f 8 4, f 16 8, f 24 2 * 64, f 26 2 * 64, f 28 2⟩

/-- How many entries a job's schedule has. -/
def Job.schedLen (j : Job) : Nat := j.sched.length / 32

/-- The cluster, first landing byte and first flag of a part (R743). -/
def Job.partBase (j : Job) (i : Nat) : Option (Nat × Nat × Nat) :=
  match j.parts[i]? with
  | some p => p.cluster.map fun c => (c, p.blockList.headD 0 * 32768, p.groupList.headD 0 * 32)
  | none => none

/-- A flag of an entry, resolved; 0xFFFF stays none. -/
def resolveFlag (base f : Nat) : Nat := if f = 0xFFFF then f else base + f

/-- Whether a flag is the signal of a window load of the job's schedule that has not completed (R410, R411). -/
def Job.windowPending (j : Job) (c flag : Nat) : Bool :=
  (List.range (j.schedLen - j.schedPos)).any fun k =>
    let x := schedEntry j.sched (j.schedPos + k)
    bit x.flags 0 && (match j.partBase x.part with
      | some (cl, _, fb) => cl == c && x.sigFlag != 0xFFFF && fb + x.sigFlag == flag
      | none => false)

/-- The sequencer takes the next descriptor of a running unit (R347, R348): an unmet wait stops it, a fence waits for
outstanding operations, a bound on tags stalls it. Also R20, R328. -/
def issue (phys : Nat) (d : Device) (m : Store) : Device × Store :=
  let u := d.unit phys
  let c := phys / 17
  match d.job u.job with
  | none => (d, m)
  | some j =>
    if u.state ≠ .running || j.state ≠ .running then (d, m) else
      let x := u.advanced (unitDesc m phys u.desc)
      if 255 < u.desc || x.invalid then (d.descFault phys .invalid, m)
      else if x.waitFlag ≠ 0xFFFF && !d.holdsFlag u.job c x.waitFlag then (d.descFault phys (.access none), m)
      else if x.sigFlag ≠ 0xFFFF && !d.holdsFlag u.job x.sigCluster x.sigFlag then (d.descFault phys (.access none), m)
      else if !d.waitMet c x.waitFlag x.waitCount then
        let d := if j.windowPending c x.waitFlag then d.diagAdd (c / 8) 0x1B0 0 32 1 else d
        (d.updUnit phys fun u => { u with state := .waiting, waitAt := d.time.now }, m)
      else if (x.ctrl % 4 ≠ 0 || x.op = 0x62) && u.tags ≠ 0 then (d, m)
      else if 32 < u.tags + tagsOf x || 448 < (d.cluster c).held + tagsOf x then
        let d := d.updCluster c fun k => { k with stalls := k.stalls + 1 }
        ((d.updUnit phys fun u => { u with stalls := u.stalls + 1 }).diagAdd (c / 8) (0x130 + 4 * (c % 8)) 0 32 1, m)
      else if x.op = 0x64 then (d, m)
      else if x.op = 0x63 then
        match u.loop x with
        | none => (d.descFault phys .invalid, m)
        | some u' => (d.updUnit phys fun _ => { u' with signals := u'.signals ++ x.signal? }, m)
      else if x.op = 0x62 && 1 < x.p0 then (d.descFault phys .invalid, m)
      else
        match (Env.mk d m j u.job phys).run x with
        | .error f => (d.descFault phys f, m)
        | .ok (e, sticky) =>
          let d := e.dev.tickFree.updUnit phys fun u => { u with
            desc := u.desc + 1, sticky := Nat.lor u.sticky sticky, active := u.active + 1,
            signals := u.signals ++ x.signal? }
          (d.holdTags c phys (tagsOf x), e.mem)

/-- DESCRIPTOR_ISSUE (R348). -/
def execDescriptorIssue (unit : Fin 1088) (s : State) : Host.Outcome State Fault Refusal := onBoth (issue unit.val) s

/-- FLAG_SIGNAL (R356, R357): the oldest signal of a unit takes effect once its writes are visible. -/
def execFlagSignal (unit : Fin 1088) (s : State) : Host.Outcome State Fault Refusal :=
  onDev (fun d =>
    let u := d.unit unit.val
    match u.signals with
    | g :: gs => if u.tags = 0 then (d.updUnit unit.val fun u => { u with signals := gs }).signal g else d
    | [] => d) s

/-- FLAG_WAIT_MET (R356, R373): a waiting unit resumes. -/
def execFlagWaitMet (unit : Fin 1088) (s : State) : Host.Outcome State Fault Refusal :=
  onBoth (fun d m =>
    let u := d.unit unit.val
    let x := unitDesc m unit.val u.desc
    if u.state = .waiting && d.waitMet (unit.val / 17) x.waitFlag x.waitCount then
      (d.updUnit unit.val fun u => { u with state := .running }, m)
    else (d, m)) s

/-- WAIT_TIMEOUT (R360): a wait not met within the job's wait limit faults the job. -/
def execWaitTimeout (unit : Fin 1088) (s : State) : Host.Outcome State Fault Refusal :=
  onBoth (fun d m =>
    let u := d.unit unit.val
    let x := unitDesc m unit.val u.desc
    match d.job u.job with
    | some j =>
      if u.state = .waiting && !d.waitMet (unit.val / 17) x.waitFlag x.waitCount then
        let d := d.advanceTo (u.waitAt + j.waitMs * oneMs)
        (d.jobFault u.job 0x04 0 (unit.val / 136) unit.val none u.detail, m)
      else (d, m)
    | none => (d, m)) s

/-- MEM_COMPLETION (R361, R364): a completion frees its tag; an error completion (cause 0x05, 0x06, 0x08 or 0x09)
faults the job that issued it. Requesters from 1,088 on are the engines and CP DMA of die `requester − 1088`. -/
def execMemCompletion (requester : Nat) (error : Nat) (s : State) : Host.Outcome State Fault Refusal :=
  onDev (fun d =>
    if requester < 1088 then
      let u := d.unit requester
      if u.tags = 0 then d else
        let c := requester / 17
        let d := d.updUnit requester fun u => { u with tags := u.tags - 1 }
        let d := d.updCluster c fun k => { k with held := k.held - 1 }
        if [0x05, 0x06, 0x08, 0x09].elem error then d.jobFault u.job error 0 (requester / 136) requester none u.detail
        else d
    else
      let die := (requester - 1088) % 8
      { d with memsys := { d.memsys with engTags := d.memsys.engTags.put die (d.memsys.engTags.getD die 0 - 1) } }) s

/-- A die reports its part ready when every unit of the job on it is DONE (R720). -/
def Device.reportDie (d : Device) (id : Nat) (die : Nat) : Device :=
  match d.job id with
  | none => d
  | some j =>
    let on := (j.parts.flatMap (·.phys)).filter fun u => u / 136 == die
    if on.all fun u => (d.unit u).state = .done then
      d.setJob id { j with ready := j.ready ||| BitVec.twoPow 8 die } else d

/-- Whether a descriptor that a unit of the job has reached raises no fault of its own: its index, its fixed part and its
flags are in order (R346, R347). -/
def Device.soundAt (d : Device) (phys : Nat) (x : Desc) : Bool :=
  let u := d.unit phys
  u.desc ≤ 255 && !x.invalid && (x.waitFlag == 0xFFFF || d.holdsFlag u.job (phys / 17) x.waitFlag)
    && (x.sigFlag == 0xFFFF || d.holdsFlag u.job x.sigCluster x.sigFlag)

/-- UNIT_END (R351, R373): a unit at END with every write visible is DONE, or LOADING for the next segment; the wait of
the END is met first and its signal takes effect with it (R344, R357). -/
def execUnitEnd (unit : Fin 1088) (s : State) : Host.Outcome State Fault Refusal :=
  onBoth (fun d m =>
    let u := d.unit unit.val
    let x := unitDesc m unit.val u.desc
    match d.job u.job with
    | some j =>
      if u.state = .running && j.state = .running && x.op = 0x64 && u.tags = 0 && u.signals.isEmpty
          && d.soundAt unit.val x && d.waitMet (unit.val / 17) x.waitFlag x.waitCount then
        let d := x.signal?.foldl Device.signal d
        if bit x.p0 0 then
          let i := j.partOf unit.val
          let d := d.updUnit unit.val fun u => { u with state := .loading, segment := u.segment + 1, loops := [] }
          match j.parts[i]? with
          | some p =>
            if p.phys.all fun v => (d.unit v).segment = u.segment + 1 then
              (d.setJob u.job { j with parts := j.parts.set i { p with segment := u.segment + 1, loaded := 0 } }, m)
            else (d, m)
          | none => (d, m)
        else
          ((d.updUnit unit.val fun u => { u with state := .done, reported := true }).reportDie u.job (unit.val / 136), m)
      else (d, m)
    | none => (d, m)) s

/-! ## Commands -/

/-- UNIT_STATUS's state codes (R374). -/
def UnitState.code (u : UnitState) : Nat :=
  match u with
  | .idle => 0
  | .loading => 1
  | .running => 2
  | .waiting => 3
  | .done => 4
  | .faulted => 5
  | .defective => 6

/-- The clock of a cluster in MHz (R751, R762, R767): the lowest of the grade limit, its group's cap and its die's cap. -/
def Device.clusterClock (d : Device) (c : Nat) : Nat :=
  let tick := d.jobs.profile.reserved.any fun r => r.1 == c
  let cap := if tick then d.pwr.cTick else d.pwr.cOther
  let therm := d.pwr.cap.getD (c / 8) 0
  let m := min d.fuse.clockMHz cap
  if therm = 0 then m else min m therm

/-- CLUSTER_STATUS (R374). -/
def execClusterStatus (ch : Fin 8) (s : State) : Host.Outcome State Fault Refusal :=
  query 0x0520 ch (fun r d =>
    let c := r.u 0 1
    if !d.pwr.dieOn.getLsbD (c / 8) then ans stNoResource else
      let k := d.cluster c
      let spare := if (d.view.badUnits c).getLsbD 16 then 2 else if (d.view.spare.look c).isSome then 1 else 0
      ans stOk (leBytes 1 c ++ leBytes 1 (d.view.enabled c) ++ leBytes 1 spare ++ zeros 1
        ++ (List.range 16).flatMap (fun l => leBytes 1 ((d.view.slotUnit c l).getD 0xFF))
        ++ (List.range 16).flatMap (fun l => leBytes 2 (k.slots.getD l 0))
        ++ leBytes 1 (d.freeBlocks c).length ++ leBytes 1 (d.freeGroups c).length ++ leBytes 2 k.held
        ++ leBytes 2 (d.clusterClock c) ++ zeros 2 ++ leBytes 4 k.stalls ++ leBytes 4 k.misses ++ leBytes 4 k.resends)) s

/-- UNIT_STATUS (R374). -/
def execUnitStatus (ch : Fin 8) (s : State) : Host.Outcome State Fault Refusal :=
  query 0x0521 ch (fun r d =>
    let p := r.u 0 2
    if !d.pwr.dieOn.getLsbD (p / 136) then ans stNoResource else
      let u := d.unit p
      let st := if d.view.isBad p then 6 else u.state.code
      ans stOk (leBytes 2 p ++ leBytes 1 st ++ leBytes 1 ((d.view.unitSlot (p / 17) (p % 17)).getD 0xFF)
        ++ leBytes 2 u.job ++ leBytes 1 u.desc ++ leBytes 1 u.tags ++ leBytes 1 u.sticky ++ zeros 3
        ++ leBytes 8 u.active ++ leBytes 8 u.stalls ++ leBytes 4 u.ecc ++ leBytes 4 u.misses)) s

end Sys2Proof.Machine
end

