-- ==== Sys2Proof/Machine/Grid.lean ====
section
/-! DEFINITION. The fusion commands (R525 to R527) and the events of a tick that concern the grid: the consistency checks
(R505 to R513), the halo exchange (R497 to R499) and the admission of calibration refinement (R515, R517). -/

namespace Sys2Proof.Machine

/-! ## Commands -/

/-- GRID_CONFIG's settings. -/
def gridCfgOf (r : Request) : GridCfg :=
  ⟨r.u 0 2, r.u 2 2, r.u 4 1, r.u 5 1, r.u 6 2, r.i 8 2, r.i 10 2, r.u 12 1, r.u 13 1, r.u 14 1 == 1⟩

/-- GRID_CONFIG's effect (R504, R525, R527): the grid is reset at the next tick. -/
def gridConfig (r : Request) (d : Device) : Device × Reply :=
  let c := gridCfgOf r
  if c.gridW % 64 ≠ 0 || c.gridW / 4 < c.margin || c.zMax ≤ c.zMin || 512 < channelTotal d.grid.slots c then
    (d, ans stBadField)
  else ({ d with grid := { d.grid with cfg := c, forced := true } }, ans stOk)

/-- GRID_CONFIG as a setting: the grid is object class 10. -/
def setGridConfig : Setting := ⟨0x0900, 0, fun _ _ => [(10, 0)], devBody gridConfig⟩

/-- GRID_CONFIG (R527). -/
def execGridConfig (ch : Fin 8) (s : State) : Host.Outcome State Fault Refusal := configure setGridConfig ch s

/-- GRID_SOURCE's effect (R500, R504, R526). -/
def gridSource (r : Request) (d : Device) : Device × Reply :=
  let g : GridSlot := ⟨r.u 1 1, r.u 2 1, r.u 3 1 == 1, r.u 4 2, r.u 6 1, r.u 7 1, r.u 8 2, r.u 10 2⟩
  let slots := d.grid.slots.put (r.u 0 1) g
  let binsOk := if g.kind = 2 then 1 ≤ g.bins && g.bins ≤ 32 else 8 ≤ g.bins && g.bins ≤ 128
  if (g.kind == 2) != decide (16 ≤ g.stream) || !binsOk || 512 < channelTotal slots d.grid.cfg then (d, ans stBadField)
  else if !d.streamUp g.stream then (d, ans stNoResource)
  else ({ d with grid := { d.grid with slots := slots } }, ans stOk)

/-- GRID_SOURCE as a setting. -/
def setGridSource : Setting := ⟨0x0901, 0, fun _ _ => [(10, 0)], devBody gridSource⟩

/-- GRID_SOURCE (R526). -/
def execGridSource (ch : Fin 8) (s : State) : Host.Outcome State Fault Refusal := configure setGridSource ch s

/-- CAL_SET's effect (R514, R518): base and current calibration, AT_LIMIT and FROZEN clear, SCORE 255. -/
def calSet (r : Request) (d : Device) : Device × Reply :=
  let s := r.u 0 1
  let kindOk := if s < 16 then r.u 1 1 < 2 else r.u 1 1 == 2
  if !kindOk || (16 ≤ s && r.u 40 36 ≠ 0) then (d, ans stBadField)
  else if !d.streamUp s then (d, ans stNoResource)
  else
    let b := recSet (r.bytes 0 112) 2 (leBytes 1 (r.u 2 1 % 2))
    (((d.updCal s fun c => { c with base := b, current := b }).scoreFresh s), ans stOk)

/-- CAL_SET as a setting: permitted at any time (R527). -/
def setCalSet : Setting := ⟨0x0902, 0, fun _ _ => [], devBody calSet⟩

/-- CAL_SET (R518). -/
def execCalSet (ch : Fin 8) (s : State) : Host.Outcome State Fault Refusal := configure setCalSet ch s

/-- CAL_GET (R525). -/
def execCalGet (ch : Fin 8) (s : State) : Host.Outcome State Fault Refusal :=
  query 0x0903 ch (fun r d =>
    let c := d.cal (r.u 0 1)
    ans stOk (c.base ++ c.current ++ leBytes 4 c.refines ++ leBytes 16 c.lastDts.toNat)) s

/-- CAL_REFINE's effect (R516, R517): AT_LIMIT stays as it is; an enabled refinement first runs after PERIOD. -/
def calRefineSet (r : Request) (d : Device) : Device × Reply :=
  let s := r.u 0 1
  let f := r.u 1 1
  let pp := d.slv.pp
  (d.updCal s fun c =>
    let flags := f % 2 + 2 * (f / 2 % 2) + recU c.current 2 1 / 4 * 4
    let b := if f / 4 % 2 = 1 then c.base else c.current
    let was := recU c.current 2 1 % 2 == 1
    { c with
      current := recSet b 2 (leBytes 1 flags), period := r.u 2 2, stepRot := r.u 4 2, stepTrans := r.u 6 2
      maxRot := r.u 8 2, maxTrans := r.u 10 2
      lastAt := if was then c.lastAt else d.time.now
      speed0 := if was then c.speed0 else pp.speedSum
      count0 := if was then c.count0 else pp.speedCount }, ans stOk)

/-- CAL_REFINE as a setting: permitted at any time (R527). -/
def setCalRefine : Setting := ⟨0x0904, 0, fun _ _ => [], devBody calRefineSet⟩

/-- CAL_REFINE (R517). -/
def execCalRefine (ch : Fin 8) (s : State) : Host.Outcome State Fault Refusal := configure setCalRefine ch s

/-- CHECK_CONFIG's effect (R525, R595). -/
def checkConfig (r : Request) (d : Device) : Device × Reply :=
  if r.u 0 2 < r.u 2 2 || (r.u 7 1 ≠ 0 && r.u 7 1 ≠ d.loc.wheel.source) then (d, ans stBadField)
  else ({ d with grid := { d.grid with check := ⟨r.u 0 2, r.u 2 2, r.u 4 1, r.u 5 1, r.u 6 1, r.u 7 1, r.u 8 1, r.u 9 1,
    r.u 10 1, r.u 11 1⟩ } }, ans stOk)

/-- CHECK_CONFIG as a setting. -/
def setCheckConfig : Setting := ⟨0x0905, 0, fun _ _ => [(10, 0)], devBody checkConfig⟩

/-- CHECK_CONFIG (R525). -/
def execCheckConfig (ch : Fin 8) (s : State) : Host.Outcome State Fault Refusal := configure setCheckConfig ch s

/-- The settings of fusion. -/
def settingsGrid : List Setting := [setGridConfig, setGridSource, setCalSet, setCalRefine, setCheckConfig]

/-- FUSION_STATUS (R525). -/
def execFusionStatus (ch : Fin 8) (s : State) : Host.Outcome State Fault Refusal :=
  query 0x0906 ch (fun _ d =>
    let g := d.grid
    let ks := g.check.all
    let len := fun (n : Int) => leBytes 8 (unsigned 64 (cellsLength g.cfg.cell n))
    ans stOk (leBytes 1 g.frame ++ leBytes 1 g.owners.toNat ++ leBytes 2 g.resets ++ leBytes 4 g.tickSeq ++ len g.x0
      ++ len g.y0 ++ leBytes 8 (unsigned 64 g.zRef) ++ leBytes 4 ks.length ++ ks.flatMap fun k =>
        let x := d.checkSrc k
        leBytes 1 k ++ leBytes 1 x.last ++ leBytes 1 x.score ++ leBytes 1 x.run ++ leBytes 4 x.stat)) s

/-! ## The checks -/

/-- The running TICK job. -/
def Device.runningTick (d : Device) : Option (Nat × Job) :=
  d.jobs.table.find? fun e => decide (e.2.cls = .tick) && decide (e.2.state = .running)

/-- Whether a source was masked or held out in a check of the present tick. -/
def CheckSource.out (x : CheckSource) (check : Nat) : Bool := x.marks.elem (check, 3) || x.marks.elem (check, 4)

/-- A source after a check decided on it (R507, R511): the whole tick is counted from how the tick found it. -/
def CheckSource.decide_ (x : CheckSource) (c : CheckCfg) (check mark : Nat) (absent : Bool) (stat : Option Nat) :
    CheckSource :=
  let marks := if mark = 0 then x.marks else (check, mark) :: x.marks
  let masked := marks.any fun m => m.2 == 3
  let held := marks.any fun m => m.2 == 4
  let used := marks.any fun m => m.2 == 1
  let suspect := x.suspect || masked || held
  { x with
    marks := marks, suspect := suspect
    score := if masked then x.score0 - c.drop else if used then min 255 (x.score0 + c.rise) else x.score0
    run := if masked || held then 0 else if used then min 255 (x.run0 + 1) else 0
    last := if masked then 3 else if held then 4 else if marks.isEmpty && absent then 0 else if suspect then 2 else 1
    stat := stat.getD x.stat }

/-- SENSOR for a source that became masked or suspect (R513). -/
def Device.sourceEvents (d : Device) (check k : Nat) (old : CheckSource) : Device :=
  let x := d.checkSrc k
  let d := if x.last = 3 && old.last ≠ 3 then d.event 0x0004 6 k (check + 3 * 256) x.score else d
  if x.suspect && !old.suspect then d.event 0x0004 6 k (check + 2 * 256) x.score else d

/-- The tick's first decision: every source is taken as the tick finds it. -/
def Device.checksBegin (d : Device) (tick : Nat) : Device :=
  if d.grid.checkTick = some tick then d else
    { d with grid := { d.grid with
      checkTick := some tick, decided := []
      sources := d.grid.sources.mapv fun x => { x with score0 := x.score, run0 := x.run, marks := [] } } }

/-- The start and the end of a run of contradictions (R509, R513). -/
def Device.contradict (d : Device) (check : Nat) (held : List Nat) : Device :=
  let g := d.grid
  match g.contra.look check, held with
  | none, [a, b] =>
    ({ d with grid := { g with contra := g.contra.put check (a, b) } }).event 0x0005 6 check 1 (a + b * 256)
  | some (a, b), [] =>
    ({ d with grid := { g with contra := g.contra.del check } }).event 0x0005 6 check 0 (a + b * 256)
  | _, _ => d

/-- Whether a contradiction holds in the tick of a job (R509, R582). -/
def Device.tickContradiction (d : Device) (order : Nat) : Bool :=
  decide (d.grid.checkTick = some order) && d.grid.sources.any fun e => e.2.marks.any fun m => m.2 == 4

/-- CHECK_DECISION (R505 to R513): the lead CP decides one check of the running TICK job, once. The units' estimates are the
command's; which sources take part, the statistic, the gates, masking and holding out are as the rules say. -/
def execCheckDecision (check : Fin 2) (estimates : List Estimate) (s : State) : Host.Outcome State Fault Refusal :=
  onDev (fun d =>
    match d.runningTick with
    | none => d
    | some (_, j) =>
      let d := d.checksBegin j.order
      if d.grid.decided.elem check.val then d else
        let c := d.grid.check
        let ks := c.sources check.val
        let es := (ks.filter fun k => !d.sourceAbsent k).filterMap fun k =>
          (estimates.find? fun e => e.source == k).bind fun e => estOf k e.x e.cov
        let gate := fun k => if (d.checkSrc k).suspect then c.gExit else c.gEnter
        let v := judge d.free gate c.gExit es.length es ⟨[], [], []⟩
        let first := !d.tickContradiction j.order
        let d := ks.foldl (fun (d : Device) k =>
          let old := d.checkSrc k
          let mark := if v.masked.elem k then 3 else if v.held.elem k then 4
            else if es.any fun e => e.source == k then 1 else 0
          (d.updSrc k fun x => x.decide_ c check.val mark (d.sourceAbsent k) (v.stats.look k)).sourceEvents check.val k old) d
        let d := d.contradict check.val v.held
        let d := d.diagAdd d.lead 0x1E8 0 16 v.masked.length
        let d := if v.held.isEmpty || !first then d else d.diagAdd d.lead 0x1E8 16 16 1
        ({ d with grid := { d.grid with decided := check.val :: d.grid.decided } }).tickFree) s

/-- CHECK_SOURCE_CLEAN (R507, R513). -/
def execCheckSourceClean (source : Nat) (s : State) : Host.Outcome State Fault Refusal :=
  onDev (fun d =>
    let x := d.checkSrc source
    if x.suspect && d.grid.check.clear ≤ x.run && d.grid.check.all.elem source then
      let check := if (d.grid.check.sources 0).elem source then 0 else 1
      (d.updSrc source fun x => { x with suspect := false, last := if x.last = 2 then 1 else x.last }).event 0x0004 6 source
        (check + 256) x.score
    else d) s

/-! ## Halos -/

/-- Byte of a cell's channel in a strip's tensor (R496): local row in `0 … STRIP + 2·HMAX − 1`. -/
def tensorOff (g : Grid) (row col chan : Nat) : Nat := (row * g.cfg.gridW + col) * g.cstride * 2 + 2 * chan

/-- Rows of one tensor copied to rows of another, channel range by channel range (R497); none of a missing tensor. -/
def copyRows (g : Grid) (src dst : Option Nat) (from_ to_ n c0 c1 : Nat) (d : Device) (m : Store) : Device × Store :=
  match dst with
  | none => (d, m)
  | some b =>
    (List.range (n * g.cfg.gridW)).foldl (fun (x : Device × Store) i =>
      let row := i / g.cfg.gridW
      let col := i % g.cfg.gridW
      let bs := match src with
        | some a => fwRead x.1 x.2 a (tensorOff g (from_ + row) col c0) (2 * (c1 - c0))
        | none => zeros (2 * (c1 - c0))
      fwWrite b (tensorOff g (to_ + row) col c0) bs x.1 x.2) (d, m)

/-- HALO_COPY (R497 to R499): die `die` sends `width` rows, channels `c0` to `c1 − 1`, to the strips below and above and
signals a flag of each (cluster, flag); where a neighbour has no owner its halo here reads as zero. An error completion
faults the TICK job and copies nothing. -/
def execHaloCopy (die : Fin 8) (width hmax c0 c1 : Nat) (below above : Nat × Nat) (error : Bool) (s : State) :
    Host.Outcome State Fault Refusal :=
  onBoth (fun d m =>
    let g := d.grid
    let k := die.val
    match d.runningTick with
    | none => (d, m)
    | some (job, _) =>
      if !g.owners.getLsbD k || width = 0 || hmax < width || 32 < hmax || g.cfg.strip < width || c1 ≤ c0 || g.cstride < c1
          || (g.tensors.look k).isNone then (d, m)
      else if error then (d.jobFault job 0x06 6 k 0 none 0, m)
      else
        let mine := g.tensors.look k
        let has := fun (n : Nat) (on : Bool) => on && g.owners.getLsbD n
        let lo := has (k - 1) (decide (0 < k))
        let hi := has (k + 1) (decide (k < 7))
        let st := g.cfg.strip
        let x := if lo then copyRows g mine (g.tensors.look (k - 1)) hmax (hmax + st) width c0 c1 d m
          else copyRows g none mine 0 (hmax - width) width c0 c1 d m
        let x := if hi then copyRows g mine (g.tensors.look (k + 1)) (hmax + st - width) (hmax - width) width c0 c1 x.1 x.2
          else copyRows g none mine 0 (hmax + st) width c0 c1 x.1 x.2
        let d := x.1
        let d := if lo then d.signal ⟨below.1, below.2, 1, false⟩ else d
        let d := if hi then d.signal ⟨above.1, above.2, 1, false⟩ else d
        let sent := g.haloRem.getD k 0 + (b2n lo + b2n hi) * width * g.cfg.gridW * (c1 - c0) * 2
        let d := d.diagAdd k 0x1E4 0 32 (sent / 65536)
        ({ d with grid := { d.grid with haloRem := d.grid.haloRem.put k (sent % 65536) } }, x.2)) s

/-! ## Calibration refinement -/

/-- Whether refinement of a stream is frozen (R517). -/
def Device.calFrozen (d : Device) (s : Nat) : Bool :=
  let c := d.cal s
  let pp := d.slv.pp
  let n := pp.speedCount - c.count0
  recU c.current 2 1 / 2 % 2 == 1 || (d.checkSrc (sourceOf s)).score < 192 || decide (d.loc.state ≠ .tracking)
    || n = 0 || pp.speedSum - c.speed0 < n * 32768

/-- CAL_REFINE_TICK (R515, R517): PERIOD after the last refinement, and not frozen, a MAP job is admitted. -/
def execCalRefineTick (stream : Fin 24) (s : State) : Host.Outcome State Fault Refusal :=
  onDev (fun d =>
    let k := stream.val
    let c := d.cal k
    let busy := d.jobs.table.any fun e => decide (e.2.work = .calRefine k) && e.2.active
    if recU c.current 2 1 % 2 = 0 || busy then d else
      let d := d.advanceTo (c.lastAt + c.period * oneS)
      if d.calFrozen k then d else
        match d.admitJob { Job.blank .map (.calRefine k) with restartMax := d.jobs.restartFw, waitMs := d.jobs.waitFw } with
        | none => d
        | some (_, d) => d.updCal k fun c => { c with
            lastAt := d.time.now, speed0 := d.slv.pp.speedSum, count0 := d.slv.pp.speedCount }) s

end Sys2Proof.Machine
end

