-- ==== Sys2Proof/Machine/SlvOps.lean ====
section
/-! DEFINITION. The solver engine (R528 to R569): problem descriptions and their checks, the structure signature, update
packets, and the course of a solve from step to step. -/

namespace Sys2Proof.Machine

/-! ## Reading a description (R534 to R542) -/

/-- A slice of a byte string. -/
def slice (b : List Byte) (off n : Nat) : List Byte := (b.drop off).take n

/-- Counts and offsets of the sections of a description. -/
def slvNvar (b : List Byte) : Nat := recU b 8 4
def slvNfac (b : List Byte) : Nat := recU b 12 4
def slvNsuper (b : List Byte) : Nat := recU b 16 4
def slvNscale (b : List Byte) : Nat := recU b 20 4
def slvNcam (b : List Byte) : Nat := recU b 24 2
def slvFacOff (b : List Byte) : Nat := 64 + 64 * slvNvar b
def slvSupOff (b : List Byte) : Nat := slvFacOff b + 48 * slvNfac b
def slvScaleOff (b : List Byte) : Nat := slvSupOff b + 32 * slvNsuper b
def slvCamOff (b : List Byte) : Nat := slvScaleOff b + 4 * slvNscale b

/-- Where the data area starts: the camera table's end, padded to 64 bytes. -/
def slvDataOff (b : List Byte) : Nat := pad64 (slvCamOff b + 64 * slvNcam b)

/-- Record `i` of the tables. -/
def slvVar (b : List Byte) (i : Nat) : List Byte := slice b (64 + 64 * i) 64
def slvFac (b : List Byte) (i : Nat) : List Byte := slice b (slvFacOff b + 48 * i) 48
def slvSup (b : List Byte) (i : Nat) : List Byte := slice b (slvSupOff b + 32 * i) 32

/-- The exponent of a scale block (R545). -/
def slvExp (b : List Byte) (i : Nat) : Int := signed 8 (recU b (slvScaleOff b + 4 * i) 1)

/-- KIND, DIM and flags of a variable record; its value. -/
def varKind (v : List Byte) : Nat := recU v 4 1
def varDim (v : List Byte) : Nat := recU v 5 1
def varFlags (v : List Byte) : Nat := recU v 6 1
def varValue (v : List Byte) : List Byte := slice v 8 56

/-- The values that a description gives (R535). -/
def slvPriors (b : List Byte) : List (List Byte) := (List.range (slvNvar b)).map fun i => varValue (slvVar b i)

/-- KIND, NV and M of a factor record, and its variables. -/
def facKind (f : List Byte) : Nat := recU f 0 1
def facNv (f : List Byte) : Nat := recU f 1 1
def facM (f : List Byte) : Nat := recU f 3 1
def facVars (f : List Byte) : List Nat := (List.range (facNv f)).map fun k => recU f (16 + 4 * k) 4

/-- FIRST, NV, COLS, PARENT and ROWS of a supernode record, and its row list. -/
def supFirst (s : List Byte) : Nat := recU s 0 4
def supNv (s : List Byte) : Nat := recU s 4 2
def supCols (s : List Byte) : Nat := recU s 6 2
def supParent (s : List Byte) : Nat := recU s 8 4
def supRows (s : List Byte) : Nat := recU s 12 4
def supList (b s : List Byte) : List Nat := (List.range (supRows s)).map fun k => recU b (recU s 16 4 + 4 * k) 4

/-- Bytes padded to a multiple of 8. -/
def pad8 (n : Nat) : Nat := (n + 7) / 8 * 8

/-- DIM of each variable of a factor. -/
def facDims (b f : List Byte) : List Nat := (facVars f).map fun i => varDim (slvVar b i)

/-- Bytes of a factor's kind data (R538). -/
def facData (b f : List Byte) : Nat :=
  match facKind f with
  | 0 | 1 | 7 => 56
  | 2 => 352
  | 4 => 8
  | 5 => 24
  | 6 => 48
  | 8 => 8 * facM f + ((facDims b f).map fun n => 64 + 4 * facM f * n).sum
  | _ => 0

/-- Entries of an upper triangle. -/
def tri (n : Nat) : Nat := n * (n + 1) / 2

/-- Bytes of a factor's measurement entry (R539). -/
def facEntry (b f : List Byte) : Nat := pad8 (8 + facData b f + 4 * tri (facM f))

/-- The bound on a factor's evaluation in cycles (R538). -/
def facCycles (b f : List Byte) : Nat :=
  match facKind f with
  | 0 => 16
  | 1 => 48
  | 2 => 96
  | 3 => 8
  | 4 => 24
  | 5 => 32
  | 6 => 20
  | 7 => 16
  | _ => 8 + facM f * (facDims b f).sum

/-! ## The checks of a load (R543) -/

/-- DIM of a kind of variable (R535); VECTOR chooses its own. -/
def kindDim (k dim : Nat) : Bool :=
  match k with
  | 0 | 3 => dim == 6
  | 1 | 2 => dim == 3
  | 4 => 1 ≤ dim && dim ≤ 6
  | _ => false

/-- Components that a variable uses. -/
def kindComps (k dim : Nat) : Nat := if k = 0 then 7 else dim

/-- Code 1: the header, and the scale table's exponents. -/
def slvHeaderOk (b : List Byte) (len : Nat) : Bool :=
  let l0 := signed 8 (recU b 40 1)
  slice b 0 4 == [0x4B#8, 0x53#8, 0x4C#8, 0x56#8] && recU b 4 2 == 1 && recU b 6 1 ≤ 1 && recU b 7 1 ≤ 1
    && 1 ≤ slvNvar b && slvNvar b ≤ 65536 && 1 ≤ slvNfac b && slvNfac b ≤ 262144 && 1 ≤ slvNsuper b
    && slvNsuper b ≤ slvNvar b && 1 ≤ slvNscale b && slvNscale b ≤ 65535 && slvNcam b ≤ 16 && 1 ≤ recU b 26 2
    && recU b 26 2 ≤ 1000 && decide (-40 ≤ l0) && decide (l0 ≤ 40) && 1 ≤ recU b 41 1 && recU b 41 1 ≤ 8
    && 1 ≤ recU b 42 1 && recU b 42 1 ≤ 8 && recU b 43 1 ≤ 1 && 1 ≤ recU b 44 2 && recU b 44 2 ≤ 4096
    && recU b 46 2 == 0 && recU b 56 8 == 0 && recU b 52 4 == len && slvDataOff b ≤ len

/-- An exponent outside its range or reserved bytes in a scale entry. -/
def scaleBad (b : List Byte) (i : Nat) : Bool :=
  let e := slvExp b i
  decide (e < -64) || decide (63 < e) || recU b (slvScaleOff b + 4 * i + 1) 3 != 0

/-- Code 2: a variable record. -/
def varBad (b : List Byte) (ids : List Nat) (i : Nat) : Bool :=
  let v := slvVar b i
  let n := kindComps (varKind v) (varDim v)
  !kindDim (varKind v) (varDim v) || 4 ≤ varFlags v || recU v 7 1 != 0 || recU v (8 + 8 * n) (56 - 8 * n) != 0
    || (ids.take i).elem (recU v 0 4)

/-- The kinds of variable that a kind of factor takes, in order (R538); none for any. -/
def facKinds (k : Nat) : Option (List Nat) :=
  match k with
  | 1 | 5 => some [0, 0]
  | 2 => some [0, 2, 0, 2, 3]
  | 3 => some [3, 3]
  | 4 => some [0, 1]
  | 6 | 7 => some [0]
  | _ => none

/-- Whether M and the variables fit the kind (R538). -/
def facShape (b f : List Byte) : Bool :=
  let ks := (facVars f).map fun i => varKind (slvVar b i)
  let m := facM f
  (match facKinds (facKind f) with | some l => ks == l | none => true) &&
  match facKind f with
  | 0 => facNv f == 1 && facDims b f == [m]
  | 1 | 3 => m == 6
  | 2 => m == 9
  | 4 => m == 2 && decide (recU f 12 1 < slvNcam b)
  | 5 | 6 => m == 3
  | 7 => m == 1
  | 8 => 1 ≤ facNv f && facNv f ≤ 4 && 1 ≤ m && m ≤ 6
  | _ => false

/-- Code 3: a factor record. -/
def facBad (b : List Byte) (i : Nat) : Bool :=
  let f := slvFac b i
  let off := recU f 8 4
  6 < facNv f || facNv f == 0 || 4 ≤ recU f 2 1 || !(facVars f).all (fun v => v < slvNvar b) || !facShape b f
    || slvNscale b ≤ recU f 4 2 || off % 8 != 0 || off < slvDataOff b || b.length < off + facEntry b f
    || recU f 13 3 != 0 || recU f 40 8 != 0
    || (List.range 6).any fun k => facNv f ≤ k && recU f (16 + 4 * k) 4 != 0xFFFFFFFF

/-- The first scalar column of every variable, and the number of columns. -/
def slvCols (b : List Byte) : List Nat × Nat :=
  (List.range (slvNvar b)).foldl (fun (a : List Nat × Nat) i => (a.1 ++ [a.2], a.2 + varDim (slvVar b i))) ([], 0)

/-- Whether a list rises strictly from `lo` and stays below `hi`. -/
def risesWithin (lo hi : Nat) : List Nat → Bool
  | [] => true
  | x :: xs => lo ≤ x && x < hi && risesWithin (x + 1) hi xs

/-- Code 4: a supernode record; `first` is the variable it must start at, `col` its first column, `top` all columns. -/
def supBad (b : List Byte) (i first col top : Nat) : Bool :=
  let s := slvSup b i
  let dims := ((List.range (supNv s)).map fun k => varDim (slvVar b (first + k))).sum
  supFirst s != first || supNv s == 0 || slvNvar b < first + supNv s || supCols s != dims || supCols s == 0
    || 64 < supCols s || (supParent s != 0xFFFFFFFF && (supParent s ≤ i || slvNsuper b ≤ supParent s))
    || b.length < recU s 16 4 + 4 * supRows s || top < supRows s || !risesWithin (col + supCols s) top (supList b s)
    || slvNscale b ≤ recU s 20 2 || slvNscale b ≤ recU s 22 2 || slvNscale b ≤ recU s 24 2 || recU s 26 6 != 0

/-- The first bad supernode, walking the variables; the one after the last when they are not all covered. -/
def supWalk (b : List Byte) (cols : List Nat) (top : Nat) : Nat → Nat → Nat → Option Nat
  | 0, i, first => if first = slvNvar b then none else some (i - 1)
  | n + 1, i, first =>
    if supBad b i first (cols.getD first top) top then some i
    else supWalk b cols top n (i + 1) (first + supNv (slvSup b i))

/-- Code 5: the rows that factors and children imply for supernode `i` (R543); a root passes none on. -/
def supRowsBad (b : List Byte) (cols : List Nat) (i : Nat) : Bool :=
  let s := slvSup b i
  let lo := supFirst s
  let hi := lo + supNv s
  let c0 := cols.getD lo 0
  let c1 := c0 + supCols s
  let rows := supList b s
  let held := fun (c : Nat) => (c0 ≤ c && c < c1) || rows.elem c
  let facs := (List.range (slvNfac b)).any fun k =>
    let vs := facVars (slvFac b k)
    (vs.any fun v => lo ≤ v && v < hi) && vs.any fun v =>
      hi ≤ v && (List.range (varDim (slvVar b v))).any fun t => !rows.elem (cols.getD v 0 + t)
  let kids := (List.range i).any fun k =>
    supParent (slvSup b k) == i && (supList b (slvSup b k)).any fun c => !held c
  facs || kids || (supParent s == 0xFFFFFFFF && !rows.isEmpty)

/-- Multiply-accumulates of a supernode (R569). -/
def macOf (c r : Nat) : Nat := c * (c + 1) * (c + 2) / 6 + r * c * (c + 1) / 2 + c * r * (r + 1) / 2

/-- A quotient rounded up. -/
def ceilDiv (a b : Nat) : Nat := (a + b - 1) / b

/-- The assembly of a factor: m·n·(n + 3)/2 (R569). -/
def facAssemble (b f : List Byte) : Nat :=
  let n := (facDims b f).sum
  facM f * n * (n + 3) / 2

/-- Entries of L in a supernode (R569). -/
def supNnz (s : List Byte) : Nat := tri (supCols s) + supCols s * supRows s

/-- Code 6: a step of supernode `i` is bounded above 20,000 cycles (R556): its assembly, factorisation or solve. -/
def stepBad (b : List Byte) (i : Nat) : Bool :=
  let s := slvSup b i
  let lo := supFirst s
  let mine := (List.range (slvNfac b)).filter fun k =>
    let v := (facVars (slvFac b k)).foldl min (slvNvar b)
    lo ≤ v && v < lo + supNv s
  20000 < ceilDiv ((mine.map fun k => facAssemble b (slvFac b k)).sum) 32
    || 20000 < ceilDiv (macOf (supCols s) (supRows s)) 32 + 64 || 20000 < ceilDiv (supNnz s) 32

/-- Cycle bounds of an iteration (R569): EVAL, ASSEMBLE, FACTOR, SOLVE and NNZ. -/
def slvBounds (b : List Byte) : List Nat :=
  let facs := (List.range (slvNfac b)).map (slvFac b)
  let sups := (List.range (slvNsuper b)).map (slvSup b)
  let nnz := (sups.map supNnz).sum
  [ceilDiv (((facs.filter fun f => bit (recU f 2 1) 0).map (facCycles b)).sum) 4,
   ceilDiv ((facs.map (facAssemble b)).sum) 32,
   (sups.map fun s => ceilDiv (macOf (supCols s) (supRows s)) 32 + 64).sum, ceilDiv (2 * nnz) 32, nnz]

/-- Whether a variable belongs to the last supernode. -/
def inLastSuper (b : List Byte) (v : Nat) : Bool := supFirst (slvSup b (slvNsuper b - 1)) ≤ v

/-- Code 8: COV outside the last supernode. -/
def covBad (b : List Byte) (i : Nat) : Bool := bit (varFlags (slvVar b i)) 1 && !inLastSuper b i

/-- The first error of a description and the record it concerns (R543); `room` says whether SRAM and work buffer are
large enough. Codes are tried in order, records in table order. -/
def slvCheck (b : List Byte) (len : Nat) (room : Bool) : Option (Nat × Nat) :=
  if !slvHeaderOk b len then some (1, 0)
  else match firstBelow (slvNscale b) (scaleBad b) with
  | some i => some (1, i)
  | none =>
    let ids := (List.range (slvNvar b)).map fun i => recU (slvVar b i) 0 4
    match firstBelow (slvNvar b) (varBad b ids), firstBelow (slvNfac b) (facBad b) with
    | some i, _ => some (2, i)
    | none, some i => some (3, i)
    | none, none =>
      let (cols, top) := slvCols b
      match supWalk b cols top (slvNsuper b) 0 0 with
      | some i => some (4, i)
      | none =>
        match firstBelow (slvNsuper b) (supRowsBad b cols), firstBelow (slvNsuper b) (stepBad b) with
        | some i, _ => some (5, i)
        | none, some i => some (6, i)
        | none, none =>
          if !room then some (7, 0) else (firstBelow (slvNvar b) (covBad b)).map fun i => (8, i)

/-- The structure signature (R544). -/
def slvSignature (b : List Byte) : Nat :=
  crc64 0 (((List.range (slvNvar b)).flatMap fun i => slice (slvVar b i) 0 6)
    ++ ((List.range (slvNfac b)).flatMap fun i =>
        let f := slvFac b i
        slice f 0 2 ++ slice f 3 1 ++ slice f 12 1 ++ slice f 16 24)
    ++ (List.range (slvNsuper b)).flatMap fun i =>
        let s := slvSup b i
        slice s 0 16 ++ slice b (recU s 16 4) (4 * supRows s))

/-! ## Update packets (R549 to R551) -/

/-- The entries of a packet after its header; none where lengths do not fit. -/
def updEntries : Nat → List Byte → Option (List (List Byte))
  | 0, b => if b.isEmpty then some [] else none
  | n + 1, b =>
    let k := recU b 2 2
    if b.length < 8 || k < 8 || b.length < k then none else (updEntries n (b.drop k)).map (b.take k :: ·)

/-- Whether an entry is valid for a slot's problem (R549, R550). -/
def updEntryOk (b e : List Byte) : Bool :=
  let i := recU e 4 4
  let f := slvFac b i
  recU e 1 1 == 0 &&
  match recU e 0 1 with
  | 1 =>
    let v := slvVar b i
    let n := kindComps (varKind v) (varDim v)
    e.length == 64 && decide (i < slvNvar b) && recU e (8 + 8 * n) (56 - 8 * n) == 0
  | 2 => e.length == 16 && decide (i < slvNvar b) && decide (recU e 8 1 < 4) && recU e 9 7 == 0
      && (!bit (recU e 8 1) 1 || inLastSuper b i)
  | 3 => decide (i < slvNfac b) && e.length == 8 + pad8 (8 + facData b f) && recU e 9 7 == 0
  | 4 => decide (i < slvNfac b) && e.length == 8 + pad8 (8 + 4 * tri (facM f)) && recU e 9 7 == 0
  | 5 => decide (i < slvNfac b) && e.length == 16 && decide (recU e 8 1 < 4) && recU e 9 1 == 0 && recU e 12 4 == 0
  | 6 => decide (i < slvNscale b) && e.length == 16 && recU e 9 7 == 0 && decide (-64 ≤ signed 8 (recU e 8 1))
      && decide (signed 8 (recU e 8 1) ≤ 63)
  | _ => false

/-- One entry applied to a problem and its warm values. -/
def updApply (x : List Byte × List (List Byte)) (e : List Byte) : List Byte × List (List Byte) :=
  let (b, warm) := x
  let i := recU e 4 4
  let fo := slvFacOff b + 48 * i
  let mo := recU b (fo + 8) 4
  match recU e 0 1 with
  | 1 => (b, warm.set i (slice e 8 56))
  | 2 => (recSet b (64 + 64 * i + 6) (slice e 8 1), warm)
  | 3 => (recSet b mo (slice e 8 (8 + facData b (slvFac b i))), warm)
  | 4 =>
    let f := slvFac b i
    (recSet (recSet b mo (slice e 8 1)) (mo + 8 + facData b f) (slice e 16 (4 * tri (facM f))), warm)
  | 5 => (recSet (recSet b (fo + 2) (slice e 8 1)) (fo + 6) (slice e 10 2), warm)
  | _ => (if i < slvNscale b then recSet b (slvScaleOff b + 4 * i) (slice e 8 1) else b, warm)

/-- A packet's entries applied in list order (R551). -/
def packetApply (x : List Byte × List (List Byte)) (p : List Byte) : List Byte × List (List Byte) :=
  ((updEntries (recU p 4 4) (p.drop 16)).getD []).foldl updApply x

/-- The status of an update packet for a slot (R549, R550): none where it is accepted. -/
def packetCheck (s : SlvSlot) (p : List Byte) : Option Nat :=
  if p.length < 16 || recU p 0 2 != 0x5355 || recU p 2 1 != 1 || recU p 3 1 != 0 then some stBadField
  else if recU p 8 8 != s.signature then some stBadState
  else match updEntries (recU p 4 4) (p.drop 16) with
    | none => some stBadField
    | some es => if es.all (updEntryOk s.desc) then none else some stBadField

/-! ## Increments (R536) -/

/-- Component `k` of a value. -/
def compOf (v : List Byte) (k : Nat) : Int := signed 64 (recU v (8 * k) 8)

/-- A component as bytes, saturating. -/
def compBytes (v : Int) : List Byte := leBytes 8 (unsigned 64 (clampI (-(2 ^ 63)) (2 ^ 63 - 1) v))

/-- A raw increment brought to `f` fraction bits from a block's exponent. -/
def scaled (f : Nat) (e : Int) (raw : Int) : Int :=
  let k := e + f
  if 0 ≤ k then raw * 2 ^ k.toNat else rne raw (2 ^ (-k).toNat)

/-- A value moved by the increments of its columns. -/
def valueMove (kind dim : Nat) (v : List Byte) (inc : Nat → Nat → Int) : List Byte :=
  if kind = 0 then
    let q : Quat := ⟨compOf v 0, compOf v 1, compOf v 2, compOf v 3⟩
    let t : Vec3 := ⟨compOf v 4, compOf v 5, compOf v 6⟩
    let q' := (q.mul (Quat.exp ⟨inc 127 0, inc 127 1, inc 127 2⟩)).unit
    let t' := t.add (q.rot ⟨inc 32 3, inc 32 4, inc 32 5⟩)
    (q'.list ++ t'.list).flatMap compBytes
  else fit 56 ((List.range dim).flatMap fun k => compBytes (compOf v k + inc 32 k))

/-- The supernode a variable belongs to. -/
def superOf (b : List Byte) (v : Nat) : Nat :=
  (firstBelow (slvNsuper b) fun i => v < supFirst (slvSup b i) + supNv (slvSup b i)).getD 0

/-- The iterate after a step (R536, R545, R552): a FIXED variable receives no increment. -/
def slvNext (b : List Byte) (x : List (List Byte)) (lambda : Option Int) (kept : Option (List (List Byte))) :
    List (List Byte) :=
  let cols := (slvCols b).1
  (List.range (slvNvar b)).map fun i =>
    let r := slvVar b i
    let v := x.getD i (zeros 56)
    if bit (varFlags r) 0 then v else
      let e := slvExp b (recU (slvSup b (superOf b i)) 22 2)
      valueMove (varKind r) (varDim r) v fun f k =>
        scaled f e (Config.slvStep b x lambda kept (cols.getD i 0 + k)).toInt

/-! ## The course of a solve -/

/-- METHOD, LINEAR and the constants of a problem. -/
def SlvOp.lm (o : SlvOp) : Bool := recU o.desc 6 1 == 1
def SlvOp.pcg (o : SlvOp) : Bool := recU o.desc 7 1 == 1
def SlvOp.lambda0 (o : SlvOp) : Int := signed 8 (recU o.desc 40 1)

/-- The cost at an iterate, saturating (R552). -/
def SlvOp.cost (o : SlvOp) (x : List (List Byte)) : Nat := min (2 ^ 63 - 1) (Config.slvCost o.desc x)

/-- The factor that PCG is preconditioned with (R554). -/
def SlvOp.precond (o : SlvOp) : Option (List (List Byte)) :=
  if o.pcg && recU o.desc 43 1 == 1 then o.kept else none

/-- The iterate a step would give. -/
def SlvOp.candidate (o : SlvOp) : List (List Byte) :=
  slvNext o.desc o.x o.lambda (if o.pcg then o.precond else some o.x)

/-- Steps of the phase in progress (R556). -/
def SlvOp.steps (o : SlvOp) : Nat :=
  let n := slvNsuper o.desc
  match o.at_.phase with
  | 1 => n
  | 2 => if o.pcg then
      max 1 (min (recU o.desc 44 2) (Config.slvInner o.desc o.x o.lambda o.precond)) * n else n
  | 3 => 2 * n
  | _ => ceilDiv (slvNfac o.desc) 256

/-- An attempt starts at the solve's starting values. -/
def SlvOp.attempt (o : SlvOp) : SlvOp :=
  { o with at_ := ⟨0, 0⟩, x := o.start, prev := none, costPrev := 0, iter := 0, cheiral := 0
           lambda := if o.lm then some o.lambda0 else none }

/-- The exponent a saturated block takes (R548). -/
def rescaleTo (old : Int) (s : Nat × Int × Bool) : Int :=
  clampI (-64) 63 (if s.2.2 then max (s.2.1 - 31) (old + 8) else s.2.1 - 31)

/-- A saturated iteration stops the attempt (R547, R548): the first time it starts anew with new scales. -/
def SlvOp.saturated (o : SlvOp) (sat : List (Nat × Int × Bool)) : SlvOp :=
  if o.retried then
    { o with ended := some 5, rescaled := o.rescaled ++ sat.map fun s => (s.1, slvExp o.desc s.1, slvExp o.desc s.1) }
  else
    let desc := sat.foldl (fun b s => recSet b (slvScaleOff b + 4 * s.1)
      (leBytes 1 (unsigned 8 (rescaleTo (slvExp o.desc s.1) s)))) o.desc
    { o.attempt with
      desc := desc, retried := true
      rescaled := sat.map fun s => (s.1, slvExp o.desc s.1, rescaleTo (slvExp o.desc s.1) s) }

/-- The convergence test of R555. -/
def slvConverged (b : List Byte) (old new : Nat) : Bool :=
  decide (((old : Int) - new) * 2 ^ 32 ≤ (recU b 28 4 : Int) * old) || new ≤ recU b 32 8

/-- An iteration is completed with `n` (R547, R552, R555): saturation first, then the cap. -/
def SlvOp.endIter (o n : SlvOp) : SlvOp :=
  let sat := Config.slvIterSat o.desc o.x o.lambda o.precond
  if !sat.isEmpty then o.saturated sat else
    let n := { n with iter := o.iter + 1, at_ := ⟨0, 0⟩ }
    if n.ended.isSome then n
    else if n.maxIter ≤ n.iter then { n with at_ := ⟨5, 0⟩ } else n

/-- A rejected step (R552, R553). -/
def SlvOp.reject (o : SlvOp) : SlvOp :=
  match o.lambda with
  | none => o.endIter { o with lambda := some o.lambda0, prev := none }
  | some e =>
    if e = 40 then o.endIter { o with ended := some 1 }
    else o.endIter { o with lambda := some (min 40 (e + recU o.desc 41 1)), prev := none }

/-- An accepted step: Gauss-Newton takes every one; under damping the candidate's cost was lower (R552, R553, R555). -/
def SlvOp.take_ (o : SlvOp) : SlvOp :=
  let x := o.candidate
  let old := o.cost o.x
  if o.lm then
    let e := max (-40) (o.lambda.getD 0 - recU o.desc 42 1)
    o.endIter { o with
      x := x, prev := none, costPrev := old, lambda := some e
      ended := if slvConverged o.desc old (o.cost x) then some 0 else none }
  else o.endIter { o with x := x, prev := some o.x, costPrev := old, lambda := none }

/-- The step is known; under damping its cost is evaluated first. -/
def SlvOp.stepDone (o : SlvOp) : SlvOp := if o.lambda.isSome then { o with at_ := ⟨4, 0⟩ } else o.take_

/-- Linearisation at an iterate is complete (R552, R555). -/
def SlvOp.linearised (o : SlvOp) : SlvOp :=
  let c := o.cost o.x
  let o := { o with
    cheiral := min 0xFFFF (o.cheiral + Config.slvCheiral o.desc o.x)
    costWarm := if o.iter = 0 then c else o.costWarm, at_ := ⟨1, 0⟩ }
  if !(Config.slvEvalSat o.desc o.x).isEmpty then o else
    match o.prev with
    | some p =>
      if slvConverged o.desc o.costPrev c then
        { o with ended := some 0, at_ := ⟨0, 0⟩, x := if o.costPrev < c then p else o.x }
      else o
    | none => o

/-- A complete factor: what it is formed from (R558). -/
def SlvOp.factor (o : SlvOp) : List (List Byte) :=
  o.desc :: (o.lambda.elim [] fun e => leBytes 1 (unsigned 8 e)) :: o.x

/-- A phase is complete (R552 to R556). -/
def SlvOp.phaseDone (o : SlvOp) : SlvOp :=
  match o.at_.phase with
  | 0 => o.linearised
  | 1 => { o with at_ := ⟨2, 0⟩ }
  | 2 =>
    if o.pcg then o.stepDone
    else if Config.slvPivotFails o.desc o.x o.lambda then o.reject
    else { o with at_ := ⟨3, 0⟩, kept := some o.factor }
  | 3 => o.stepDone
  | 4 =>
    let x := o.candidate
    let o := { o with cheiral := min 0xFFFF (o.cheiral + Config.slvCheiral o.desc x) }
    if o.cost x < o.cost o.x then o.take_ else o.reject
  | _ =>
    let o := { o with cheiral := min 0xFFFF (o.cheiral + Config.slvCheiral o.desc o.x) }
    let sat := Config.slvEvalSat o.desc o.x
    if sat.isEmpty then { o with ended := some 1 } else o.saturated sat

/-- One step is complete. -/
def SlvOp.advance (o : SlvOp) : SlvOp :=
  let o := { o with at_ := ⟨o.at_.phase, o.at_.step + 1⟩ }
  if o.steps ≤ o.at_.step then o.phaseDone else o

/-- Whether a boundary lies inside the linear phase (R557). -/
def SlvOp.linearPhase (o : SlvOp) : Bool :=
  (o.at_.phase == 2 && decide (0 < o.at_.step)) || o.at_.phase == 3 || o.at_.phase == 4

/-- The deadline is checked at a boundary (R557). -/
def SlvOp.checkDeadline (o : SlvOp) : SlvOp :=
  if o.fw || !o.late || o.ended.isSome then o
  else if o.iter = 0 then { o with ended := some 2, x := o.start }
  else { o with ended := some (if o.linearPhase then 4 else 3) }

/-! ## Slots, results and counters -/

/-- Whether a die's solver domain is on. -/
def Device.slvUp (d : Device) (die : Nat) : Bool := d.engineUp die 2

/-- A slot (R529). -/
def Device.slvSlot (d : Device) (die slot : Nat) : SlvSlot := d.slv.slots.getD (die * 4 + slot) SlvSlot.reset
def Device.updSlv (d : Device) (die slot : Nat) (f : SlvSlot → SlvSlot) : Device :=
  { d with slv := { d.slv with slots := d.slv.slots.upd (die * 4 + slot) SlvSlot.reset f } }

/-- Whether the active profile holds a slot (R530). -/
def Device.slvHeld (d : Device) (die slot : Nat) : Bool := d.profileUses [(9, die * 4 + slot)]

/-- The solve of a slot, if one runs, is suspended or queued. -/
def Device.slvOpOf (d : Device) (die slot : Nat) : Option SlvOp :=
  d.slv.ops.find? fun o => o.die == die && o.slot == slot

/-- A solve replaced. -/
def Device.putSlv (d : Device) (o : SlvOp) : Device :=
  { d with slv := { d.slv with ops := d.slv.ops.map fun x => if x.job = o.job then o else x } }

/-- A new solve, queued. -/
def SlvOp.blank (job die slot : Nat) : SlvOp where
  job := job
  die := die
  slot := slot
  tick := false
  fw := false
  desc := []
  start := []
  taken := 0
  coldFlag := false
  matched := 0
  partial_ := false
  maxIter := 0
  deadline := none
  outBuf := 0
  outOff := 0
  begun := false
  suspended := false
  suspendAt := 0
  suspended16 := 0
  wasSuspended := false
  at_ := ⟨0, 0⟩
  x := []
  prev := none
  costWarm := 0
  costPrev := 0
  lambda := none
  iter := 0
  cheiral := 0
  rescaled := []
  retried := false
  kept := none
  busy := 0
  late := false
  ended := none
  header := []

/-- Whether the deadline of a solve has come is noted. -/
def Device.slvTime (d : Device) (o : SlvOp) : SlvOp :=
  match o.deadline with
  | some t => if t ≤ d.time.ns16 then { o with late := true } else o
  | none => o

/-- The packets a solve takes (R551, R568): all that wait; a restarted job takes those its first run took. -/
def SlvSlot.takes (s : SlvSlot) (job : Nat) : Nat :=
  match s.taken with
  | some (j, n) => if j = job then n else s.pending.length
  | none => s.pending.length

/-- A host solve begins (R551, R559, R561 to R563): pending packets apply, the starting values are taken. -/
def Device.slvBegin (d : Device) (o : SlvOp) : Device :=
  let o := d.slvTime o
  if o.fw then
    d.putSlv { o with
      begun := true
      deadline := match d.job o.job with
        | some j => (match j.work with
          | .loop _ => some (d.time.ns16 + d.loc.loop.deadline * 1000 * oneNs)
          | _ => o.deadline)
        | none => o.deadline }
  else
    let s := d.slvSlot o.die o.slot
    let n := s.takes o.job
    let (desc, warm) := (s.pending.take n).foldl packetApply (s.desc, s.warm)
    let cold := o.coldFlag || s.cold
    let start := if cold then slvPriors desc else warm
    let o := { o with
      begun := true, desc := desc, start := start, taken := n, coldFlag := cold
      matched := if cold then 0 else s.partial_.getD (slvNvar desc)
      partial_ := !cold && s.partial_.isSome, kept := s.kept
      maxIter := if o.maxIter = 0 then recU desc 26 2 else o.maxIter }
    (d.updSlv o.die o.slot fun s => { s with taken := some (o.job, n) }).putSlv
      { o.attempt with costWarm := o.cost start }.checkDeadline

/-- The engine of a die takes the solve that comes next, if it is free (R533, R56): a waiting TICK solve, then a suspended
one, then by class and order. -/
def Device.slvPick (d : Device) (die : Nat) : Device :=
  let ops := d.slv.ops.filter fun o => o.die == die && o.header.isEmpty
  if ops.any fun o => o.begun && !o.suspended then d else
    match ops.find? fun o => o.tick && !o.begun, ops.find? fun o => o.suspended with
    | some o, _ => d.slvBegin o
    | none, some o =>
      d.putSlv { d.slvTime o with
        suspended := false, suspended16 := o.suspended16 + (d.time.now - o.suspendAt) }.checkDeadline
    | none, none =>
      match (d.firstJob (ops.map (·.job))).bind fun j => ops.find? fun o => o.job == j with
      | some o => d.slvBegin o
      | none => d

/-- The status a solve ends with (R564). -/
def slvStatus (ended : Nat) (partial_ restarted : Bool) : Nat :=
  match ended with
  | 2 => 0x22
  | 4 => 0x21
  | 3 => 0x20
  | 5 => 0x23
  | _ => if partial_ then 0x24 else if restarted then 0x25 else 0

/-- The result flags (R565). -/
def slvFlags (ended : Nat) (cold partial_ retried restarted suspended : Bool) : Nat :=
  b2n (ended == 0) + 2 * b2n (ended == 1) + 4 * b2n cold + 8 * b2n partial_ + 16 * b2n retried + 32 * b2n (ended == 5)
    + 64 * b2n restarted + 128 * b2n suspended

/-- The counters of an ended solve (R576). -/
def Device.slvCount (d : Device) (die ended cycles : Nat) (retried : Bool) : Device :=
  let busy := d.slv.busyRem.getD die 0 + cycles
  let d := { d with slv := { d.slv with busyRem := d.slv.busyRem.put die (busy % 1024) } }
  let d := (d.diagAdd die 0x1F0 0 32 1).diagAdd die 0x1F4 0 32 (busy / 1024)
  let d := if retried then d.diagAdd die 0x1FC 0 16 1 else d
  match ended with
  | 2 => d.diagAdd die 0x1F8 24 8 1
  | 3 => d.diagAdd die 0x1F8 0 16 1
  | 4 => d.diagAdd die 0x1F8 16 8 1
  | 5 => d.diagAdd die 0x1FC 16 16 1
  | _ => d

/-- The result header of a host solve (R565). -/
def Device.slvHeader (d : Device) (o : SlvOp) (ended : Nat) (restarted : Bool) : List Byte :=
  leBytes 1 (slvStatus ended o.partial_ restarted)
    ++ leBytes 1 (slvFlags ended o.coldFlag o.partial_ o.retried restarted o.wasSuspended) ++ leBytes 2 o.iter
    ++ leBytes 4 o.matched ++ leBytes 4 (slvNvar o.desc) ++ leBytes 2 (min 504 o.rescaled.length) ++ leBytes 2 o.cheiral
    ++ leBytes 8 o.costWarm ++ leBytes 8 (o.cost o.x) ++ leBytes 16 (d.stampAt o.die d.time.ns16).toNat
    ++ leBytes 4 (min 0xFFFFFFFF (o.suspended16 / (1000 * oneNs))) ++ leBytes 4 (min 0xFFFFFFFF (o.busy / 1024))
    ++ leBytes 8 (slvSignature o.desc)

/-- The rescale entries of a result (R566). -/
def slvSatEntries (o : SlvOp) : List Byte :=
  (o.rescaled.take 504).flatMap fun r =>
    leBytes 4 r.1 ++ leBytes 1 (unsigned 8 r.2.1) ++ leBytes 1 (unsigned 8 r.2.2) ++ zeros 2

/-- The variable records of a result with the returned state. -/
def slvVarRecords (o : SlvOp) : List Byte :=
  (List.range (slvNvar o.desc)).flatMap fun i => recSet (slvVar o.desc i) 8 (fit 56 (o.x.getD i []))

/-- The covariance section: with at least one iteration, from the last complete factor. -/
def slvCovSection (o : SlvOp) : List Byte :=
  match o.kept with
  | none => []
  | some k =>
    if o.iter = 0 then [] else (List.range (slvNvar o.desc)).flatMap fun i =>
      let r := slvVar o.desc i
      if !bit (varFlags r) 1 then [] else
        let n := tri (varDim r)
        slice r 0 4 ++ leBytes 1 (varDim r) ++ zeros 3
          ++ fit (pad8 (4 * n)) ((List.range n).flatMap fun e => leBytes 4 (Config.slvCov o.desc k i e).toNat)

/-- The result in the output buffer, the header last (R566). -/
def Device.slvWrite (d : Device) (m : Store) (o : SlvOp) (header : List Byte) : Except AccessError (Device × Store) :=
  let body := slvVarRecords o ++ slvCovSection o
  match d.bufStore m o.outBuf (o.outOff + 64) (slvSatEntries o) with
  | .error e => .error e
  | .ok (d, m) =>
    match d.bufStore m o.outBuf (o.outOff + 4096) body with
    | .error e => .error e
    | .ok (d, m) => d.bufStore m o.outBuf o.outOff header

/-- Bytes that a result can take: the output buffer must hold them (R566). -/
def slvResultSize (b : List Byte) : Nat :=
  4096 + 64 * slvNvar b + ((List.range (slvNvar b)).map fun i =>
    if inLastSuper b i then 8 + pad8 (4 * tri (varDim (slvVar b i))) else 0).sum

/-- A die's solver domain is lost (R531, R532): every slot is EMPTY. -/
def Device.solverDown (d : Device) (die : Nat) : Device :=
  { d with slv := { d.slv with slots := d.slv.slots.filter fun e => e.1 / 4 != die } }

end Sys2Proof.Machine
end

