-- ==== Sys2Proof/Machine/Slv.lean ====
section
/-! DEFINITION. The solver commands (R530, R531, R543, R550, R577, R578) and the events of a solve (R556, R557, R564 to
R568). -/

namespace Sys2Proof.Machine

/-! ## Commands -/

/-- A slot that is solving, suspended, or has a solve queued (R578). -/
def Device.slvEngaged (d : Device) (die slot : Nat) : Bool :=
  (d.slvOpOf die slot).isSome || d.jobs.table.any fun e => decide (e.2.work = .slv die slot) && e.2.active

/-- SLV SRAM the other slots of a die take (R529). -/
def Device.slvSram (d : Device) (die slot : Nat) : Nat :=
  ((List.range 4).map fun k => if k = slot || (d.slvSlot die k).desc.isEmpty then 0
    else Config.slvNeed (d.slvSlot die k).desc 0).sum

/-- Whether SRAM and work buffer can take a description (R543, code 7). -/
def Device.slvRoom (d : Device) (die slot : Nat) (b : List Byte) (work : Nat) : Bool :=
  decide (d.slvSram die slot + Config.slvNeed b 0 ≤ 8388608) &&
    match d.buf work with
    | some w => decide (Config.slvNeed b 1 ≤ w.size)
    | none => false

/-- The slot after a load (R561 to R563), and the variables matched by ID. -/
def slvLoaded (s : SlvSlot) (b : List Byte) (sig work : Nat) : SlvSlot × Nat :=
  let pri := slvPriors b
  if s.desc.isEmpty then (⟨b, sig, pri, none, [], true, none, zeros 64, work, none⟩, 0)
  else if s.signature = sig then ({ s with desc := b, workBuf := work }, slvNvar b)
  else
    let old := (List.range (slvNvar s.desc)).map fun i => (slice (slvVar s.desc i) 0 5, s.warm.getD i [])
    let hit := fun (i : Nat) => old.find? fun e => e.1 == slice (slvVar b i) 0 5
    let warm := (List.range (slvNvar b)).map fun i => match hit i with | some e => e.2 | none => pri.getD i []
    let n := countBelow (slvNvar b) fun i => (hit i).isSome
    ({ s with desc := b, signature := sig, warm := warm, kept := none, pending := [], cold := false, partial_ := some n
              workBuf := work }, n)

/-- The result of SLV_LOAD (R577). -/
def slvLoadResult (b : List Byte) (sig matched : Nat) : List Byte :=
  zeros 8 ++ leBytes 8 sig ++ (slvBounds b).flatMap (leBytes 4) ++ leBytes 4 matched ++ leBytes 8 (Config.slvNeed b 1)

/-- SLV_LOAD (R531, R543, R578). -/
def execSlvLoad (ch : Fin 8) (s : State) : Host.Outcome State Fault Refusal :=
  commandRead 0x0A00 ch (fun r d m =>
    let die := r.u 0 1
    let slot := r.u 1 1
    let size := fun id => (d.buf id).elim 0 (·.size)
    if d.slvHeld die slot || d.slvEngaged die slot then (d, ans stBadState)
    else if !d.slvUp die then (d, ans stNoResource)
    else if !isHostBuf (r.u 4 4) || !d.bufReady (r.u 4 4) || !isHostBuf (r.u 20 4) || !d.bufReady (r.u 20 4)
        || size (r.u 4 4) < r.u 8 8 + r.u 16 4 then (d, ans stBadField)
    else
      accept r ch.val d fun h d =>
        match d.bufRead m (r.u 4 4) (r.u 8 8) (r.u 16 4) with
        | .error e => (d.logAccess 3 e).finish h stFailed []
        | .ok b =>
          match slvCheck b (r.u 16 4) (d.slvRoom die slot b (r.u 20 4)) with
          | some (code, i) =>
            d.finish h (if code = 7 then stNoResource else stBadField) (fit 48 (leBytes 1 code ++ zeros 3 ++ leBytes 4 i))
          | none =>
            let sig := slvSignature b
            let x := slvLoaded (d.slvSlot die slot) b sig (r.u 20 4)
            (d.updSlv die slot fun _ => x.1).finish h stOk (slvLoadResult b sig x.2)) s

/-- SLV_UPDATE (R530, R549 to R551). -/
def execSlvUpdate (ch : Fin 8) (s : State) : Host.Outcome State Fault Refusal :=
  commandRead 0x0A01 ch (fun r d m =>
    let die := r.u 0 1
    let slot := r.u 1 1
    let inBuf := bit (r.u 2 1) 0
    let p := if !inBuf then some (r.body.drop 20)
      else if isHostBuf (r.u 4 4) && d.bufReady (r.u 4 4) then (d.bufRead m (r.u 4 4) (r.u 8 8) (r.u 16 4)).toOption
      else none
    if d.slvHeld die slot then (d, ans stBadState)
    else if !d.slvUp die then (d, ans stNoResource)
    else
      match p with
      | none => (d, ans stBadField)
      | some p =>
        let k := d.slvSlot die slot
        if k.desc.isEmpty then (d, ans stBadState) else
          match packetCheck k p with
          | some st => (d, ans st)
          | none => (d.updSlv die slot fun k => { k with pending := k.pending ++ [p] }, ans stOk)) s

/-- SLV_SOLVE (R530, R578): a USER job granted the output buffer. -/
def execSlvSolve (ch : Fin 8) (s : State) : Host.Outcome State Fault Refusal :=
  command 0x0A02 ch (fun r d =>
    let die := r.u 0 1
    let slot := r.u 1 1
    let k := d.slvSlot die slot
    let size := (d.buf (r.u 20 4)).elim 0 (·.size)
    if d.slvHeld die slot || k.desc.isEmpty || d.slvEngaged die slot then
      (d, ans (if d.slvUp die then stBadState else stNoResource))
    else if !isHostBuf (r.u 20 4) || (d.buf (r.u 20 4)).isNone || size < r.u 24 8 + slvResultSize k.desc then
      (d, ans stBadField)
    else
      admitCmd r ch d { Job.blank .user (.slv die slot) with
        arg := r.body, restartMax := d.jobs.restartFw, waitMs := d.jobs.waitFw, grants := [⟨r.u 20 4, 1, 0, 0⟩, ⟨k.workBuf, 1, 0, 0⟩] }) s

/-- Where a slot stands (R531, R577): a slot held by the profile is loaded by firmware. -/
def Device.slvState (d : Device) (die slot : Nat) : Nat :=
  match d.slvOpOf die slot with
  | some o => if o.suspended then 3 else if o.begun && o.header.isEmpty then 2 else 1
  | none => if (d.slvSlot die slot).desc.isEmpty && !d.slvHeld die slot then 0 else 1

/-- SLV_STATUS (R577). What firmware has loaded in a slot of the profile is not described: free values. -/
def execSlvStatus (ch : Fin 8) (s : State) : Host.Outcome State Fault Refusal :=
  command 0x0A03 ch (fun r d =>
    let die := r.u 0 1
    let slot := r.u 1 1
    let k := d.slvSlot die slot
    let held := d.slvHeld die slot
    let taken := ((d.slvOpOf die slot).map (·.taken)).getD 0
    let body := if held then d.freeBytes 30 32
      else if k.desc.isEmpty then zeros 32
      else leBytes 8 k.signature ++ slice k.desc 8 8 ++ ((slvBounds k.desc).take 4).flatMap (leBytes 4)
    if !d.slvUp die then (d, ans stNoResource)
    else (if held then d.tickFree else d, ans stOk (leBytes 1 (d.slvState die slot) ++ leBytes 1 (b2n held)
      ++ leBytes 2 (k.pending.length - taken) ++ body ++ k.result))) s

/-- SLV_UNLOAD (R531, R578). -/
def execSlvUnload (ch : Fin 8) (s : State) : Host.Outcome State Fault Refusal :=
  command 0x0A04 ch (fun r d =>
    let die := r.u 0 1
    let slot := r.u 1 1
    if d.slvHeld die slot || d.slvEngaged die slot then (d, ans stBadState)
    else if !d.slvUp die then (d, ans stNoResource)
    else if (d.slvSlot die slot).desc.isEmpty then (d, ans stBadState)
    else ({ d with slv := { d.slv with slots := d.slv.slots.del (die * 4 + slot) } }, ans stOk)) s

/-! ## Events of a solve -/

/-- The solve that runs on a die. -/
def Device.slvRunning (d : Device) (die : Nat) : Option SlvOp :=
  d.slv.ops.find? fun o => o.die == die && o.begun && !o.suspended && o.header.isEmpty

/-- A step boundary of the running solve (R556, R557): the step is complete, then the deadline is checked, then a TICK
solve that waits suspends it (R56, R533). -/
def Device.slvBoundary (d : Device) (die cycles : Nat) : Device :=
  match d.slvRunning die with
  | none => d.slvPick die
  | some o =>
    let o := { d.slvTime o with busy := o.busy + cycles }
    let o := if o.fw || o.ended.isSome then o else o.advance.checkDeadline
    let waits := d.slv.ops.any fun x => x.die == die && x.tick && !x.begun
    if waits && !o.tick && o.ended.isNone then
      (d.putSlv { o with suspended := true, wasSuspended := true, suspendAt := d.time.now }).slvPick die
    else d.putSlv o

/-- SLV_STEP_BOUNDARY (R556): `cycles` the step took. An idle engine takes its next solve. -/
def execSlvStepBoundary (die : Fin 8) (cycles : Nat) (s : State) : Host.Outcome State Fault Refusal :=
  onDev (fun d => if d.slvUp die.val && !d.engineTested die.val 2 then d.slvBoundary die.val cycles else d) s

/-- SLV_DEADLINE (R557, R559): the deadline of a job's solve is reached; it stops at its next boundary. -/
def execSlvDeadline (job : Nat) (s : State) : Host.Outcome State Fault Refusal :=
  onDev (fun d =>
    match d.slv.ops.find? fun o => o.job == job && o.header.isEmpty with
    | none => d
    | some o =>
      match o.deadline with
      | none => d
      | some t => (d.advanceToDev t).putSlv { o with late := true }) s

/-- How a solve of firmware ended (R557, R564): none while nothing ends it. -/
def slvOutEnded (x : SlvOut) (late : Bool) : Option Nat :=
  if x.converged then some 0
  else if x.range then some 5
  else if x.capped then some 1
  else if !late then none
  else if x.iter = 0 then some 2 else some (if x.inLinear then 4 else 3)

/-- The result header of a solve of firmware (R565). -/
def Device.fwHeader (d : Device) (o : SlvOp) (x : SlvOut) (ended : Nat) (restarted : Bool) : List Byte :=
  leBytes 1 (slvStatus ended x.partial_ restarted)
    ++ leBytes 1 (slvFlags ended x.cold x.partial_ x.retried restarted o.wasSuspended) ++ leBytes 2 x.iter
    ++ leBytes 4 x.matched ++ leBytes 4 x.nvar ++ leBytes 2 (min 504 x.nsat) ++ leBytes 2 (min 0xFFFF x.cheiral)
    ++ leBytes 8 x.costWarm ++ leBytes 8 x.costFinal ++ leBytes 16 (d.stampAt o.die d.time.ns16).toNat
    ++ leBytes 4 (min 0xFFFFFFFF (o.suspended16 / (1000 * oneNs))) ++ leBytes 4 (min 0xFFFFFFFF (o.busy / 1024))
    ++ leBytes 8 x.signature

/-- The end of the running solve of a die (R564 to R566): the result is written, the header last, and the engine takes its
next solve. -/
def slvEnd (die : Nat) (x : SlvOut) (d : Device) (m : Store) : Device × Store :=
  match d.slvRunning die with
  | none => (d, m)
  | some o =>
    let o := d.slvTime o
    let restarted := match d.job o.job with | some j => 0 < j.total | none => false
    if o.fw then
      match slvOutEnded x o.late with
      | none => (d, m)
      | some e =>
        (((d.slvCount die e o.busy x.retried).putSlv { o with
          ended := some e, iter := x.iter, header := d.fwHeader o x e restarted }).slvPick die, m)
    else
      match o.ended with
      | none => (d, m)
      | some e =>
        let h := d.slvHeader o e restarted
        match d.slvWrite m o h with
        | .error err => (d.engineFault o.job 3 die err, m)
        | .ok (d, m) => (((d.slvCount die e o.busy o.retried).putSlv { o with header := h }).slvPick die, m)

/-- SLV_SOLVE_END (R564): a host solve ends as its course gave; of a solve of firmware `result` says how it ended. -/
def execSlvSolveEnd (die : Fin 8) (result : SlvOut) (s : State) : Host.Outcome State Fault Refusal :=
  onBoth (fun d m => slvEnd die.val result d m) s

/-! ## Solves and their jobs -/

/-- The period of the profile's tick group in 2^-16 ns. -/
def Device.tickPeriod (d : Device) : Nat := (d.tim.groups.getD d.jobs.profile.tickGroup Group.reset).period

/-- One microsecond in 2^-16 ns. -/
def oneUs : Nat := 1000 * oneNs

/-- TICK_DEADLINE in µs (R589): 0 means 0.84 periods to the nearest 100 µs; held within its limits. Also R63. -/
def Device.tickDeadlineUs (d : Device) : Nat :=
  let p := d.tickPeriod / oneUs
  let v := d.loc.cfg.tickDeadline
  if v = 0 then (rne (d.tickPeriod * 84) (10000 * oneUs)).toNat * 100 else min v (p - 1000)

/-- SOLVE_END in µs (R589). -/
def Device.solveEndUs (d : Device) : Nat :=
  let t := d.tickDeadlineUs
  let v := d.loc.cfg.solveEnd
  if v = 0 then t - 6000 else min v (t - 1000)

/-- The solve of a job that starts: the one of SLV_SOLVE; the window solve of a tick outside COLD and LOST (R586, R590), of
a LOOP job (R601) and of a calibration (R515; on slot 2 of the lead die, log entry 28). -/
def Device.slvLoad (d : Device) (id : Nat) (j : Job) : Device :=
  let f := fun o n => leNat ((j.arg.drop o).take n)
  let fw := fun die slot => { SlvOp.blank id die slot with fw := true }
  let ops : List SlvOp := match j.work with
    | .slv die slot => [{ SlvOp.blank id die slot with
        coldFlag := bit (f 2 1) 0, maxIter := f 4 2, deadline := some (f 8 8 * oneS + f 16 4 * oneNs), outBuf := f 20 4
        outOff := f 24 8 }]
    | .tick =>
      if !d.locRuns || d.loc.state = LocState.cold || d.loc.state = LocState.lost then [] else
        [{ fw d.loc.cfg.pair 0 with tick := true, deadline := some (dtsMoment j.edge + d.solveEndUs * oneUs) }]
    | .loop _ => [fw (d.loc.loop.die.getD d.loc.cfg.pair) 1]
    | .calRefine _ => [fw d.lead 2]
    | _ => []
  { d with slv := { d.slv with ops := d.slv.ops ++ ops } }

/-- A step of device time moves the deadlines (R559). -/
def Device.slvTimeStep (d : Device) (size : Int) : Device :=
  { d with slv := { d.slv with ops := d.slv.ops.map fun o =>
    { o with deadline := o.deadline.map fun t => ((t : Int) + size).toNat } } }

/-- The solves of a job commit (R568): result, warm state, scales and kept factor of a host slot; its packets are used. -/
def Device.slvCommit (d : Device) (id : Nat) : Device :=
  let mine := d.slv.ops.filter fun o => o.job == id && !o.header.isEmpty
  let d := mine.foldl (fun (d : Device) o => d.updSlv o.die o.slot fun k =>
    if o.fw then { k with result := o.header }
    else { k with
      desc := o.desc, warm := o.x, kept := o.kept, pending := k.pending.drop o.taken, taken := none, cold := false, partial_ := none
      result := o.header }) d
  { d with slv := { d.slv with ops := d.slv.ops.filter fun o => o.job != id } }

end Sys2Proof.Machine
end

