-- ==== Sys2Proof/Machine/Pp.lean ====
section
/-! DEFINITION. The pose propagator's commands (R577, R578) and its record of every millisecond (R570 to R575), from which the
published pose records are made (R607 to R609). -/

namespace Sys2Proof.Machine

/-- PP_CONFIG's effect. -/
def ppConfig (r : Request) (d : Device) : Device × Reply :=
  let q : Quat := ⟨r.i 8 4, r.i 12 4, r.i 16 4, r.i 20 4⟩
  let t : Vec3 := ⟨r.i 24 4, r.i 28 4, r.i 32 4⟩
  ({ d with slv := { d.slv with pp := { d.slv.pp with imu := r.u 0 1, gravity := r.u 4 4, qbi := q, tbi := t } } }, ans stOk)

/-- PP_CONFIG as a setting: the tick is object class 13 (R578). -/
def setPpConfig : Setting := ⟨0x0A05, 1, fun _ _ => [(13, 0)], devBody ppConfig⟩

/-- PP_CONFIG (R578). -/
def execPpConfig (ch : Fin 8) (s : State) : Host.Outcome State Fault Refusal := configure setPpConfig ch s

/-- The newest ring record; zeros before the first. -/
def PoseProp.latest (p : PoseProp) : List Byte := if p.seq = 0 then zeros 96 else p.ring.getD ((p.seq - 1) % 2048) (zeros 96)

/-- PP_STATUS (R577): the propagator is that of the pair's die (R570). -/
def execPpStatus (ch : Fin 8) (s : State) : Host.Outcome State Fault Refusal :=
  query 0x0A06 ch (fun _ d => ans stOk (leBytes 1 d.loc.cfg.pair ++ zeros 3 ++ d.slv.pp.latest)) s

/-- The pose that records carry before the first anchor (R609). -/
def restPose : WinState := ⟨0, Pose.id, Vec3.zero, Vec3.zero, Vec3.zero⟩

/-- Flags of a record at a moment (R575): EXTRAPOLATED, STALE, INVALID, STEP, ANCHORED. -/
def PoseProp.flagsAt (p : PoseProp) (at_ : Nat) : Nat :=
  let age := at_ - p.sampleAt
  b2n p.extrapolated + 2 * b2n (decide (20 * oneMs ≤ age)) + 4 * b2n (decide (200 * oneMs < age)) + 8 * b2n p.stepped
    + 16 * b2n p.anchored

/-- A velocity and a rate as records hold them. -/
def velField (v : Vec3) : List Byte := v.list.flatMap fun x => leBytes 4 (toField 32 16 x)
def rateField (w : Vec3) : List Byte := w.list.flatMap fun x => leBytes 4 (toField 32 8 x)

/-- A ring record (R575). -/
def PoseProp.recordOf (p : PoseProp) (flags : Nat) (dts : BitVec 128) (s : WinState) : List Byte :=
  leBytes 2 flags ++ zeros 2 ++ leBytes 4 p.seq ++ leBytes 16 dts.toNat ++ s.pose.bytes ++ velField s.v ++ rateField p.rate
    ++ leBytes 4 ((p.anchor.map (·.seq)).getD 0) ++ zeros 4

/-- Confidence of a propagated record (R609): the anchor's, less one for each 10 ms of age. -/
def Device.propConf (d : Device) (age : Nat) (invalid : Bool) : Nat :=
  match d.slv.pp.anchor with
  | some a => if invalid || !d.loc.state.estimating then 0 else a.conf - age / 10000
  | none => 0

/-- A propagated pose record (R608, R609) made from a ring record. -/
def Device.propagated (d : Device) (at_ : Nat) (rec_ : List Byte) : List Byte :=
  let flags := recU rec_ 0 2
  let age := match d.slv.pp.anchor with | some a => min 0xFFFFFFFF ((at_ - a.at_) / oneUs) | none => 0
  let sig := match d.slv.pp.anchor with | some a => a.sigmas | none => [0, 0, 0]
  leBytes 1 d.loc.state.code ++ leBytes 1 (d.propConf age (bit flags 2)) ++ leBytes 2 flags ++ leBytes 4 d.loc.poseSeq
    ++ slice rec_ 88 4 ++ leBytes 4 (d.loc.session.getD 0xFFFFFFFF) ++ slice rec_ 8 16 ++ slice rec_ 24 64
    ++ sig.flatMap (leBytes 4) ++ leBytes 4 age ++ zeros 16

/-- A pose record is published: counted, kept, and sent as data type 0x30 (R607, R608). -/
def Device.publishPose (d : Device) (dts : BitVec 128) (body : List Byte) : Device :=
  let l := d.loc
  ({ d with loc := { l with poseSeq := (l.poseSeq + 1) % 2 ^ 32, published := body } }).form 0x30 dts body []

/-- How long the speed has stayed below 0.05 m/s (R605). -/
def slowSince (old : Option Nat) (at_ : Nat) (v : Vec3) : Option Nat :=
  if v.sq < 214748364 * 214748364 then some (old.getD at_) else none

/-- The record of a whole millisecond of device time (R570 to R573). -/
def Device.ppRecord (d : Device) (at_ : Nat) : Device :=
  let p := d.slv.pp
  let motion := p.motionAt at_
  let s := motion.getD restPose
  let rec_ := p.recordOf (p.flagsAt at_) (d.stampAt d.loc.cfg.pair at_) s
  let slow := if motion.isSome then slowSince d.loc.slowFrom at_ s.v else none
  let d := { d with
    slv := { d.slv with pp := { p with
      ring := p.ring.put (p.seq % 2048) rec_, seq := (p.seq + 1) % 2 ^ 32, lastMs := some at_, anchored := false
      stepped := false, speedSum := p.speedSum + isqrt s.v.sq / 65536, speedCount := p.speedCount + 1 } }
    loc := { d.loc with slowFrom := slow }
    out := { d.out with guide := { d.out.guide with
      extrapFrom := if p.extrapolated then some (d.out.guide.extrapFrom.getD at_) else none } } }
  if at_ / oneMs % (1000 / d.loc.cfg.poseRate) = 0 then
    d.publishPose (d.stampAt d.loc.cfg.pair at_) (d.propagated at_ rec_)
  else d

/-- PP_RECORD (R570): the next whole millisecond of device time. -/
def execPpRecord (s : State) : Host.Outcome State Fault Refusal :=
  onDev (fun d =>
    if !d.locRuns then d else
      let due := match d.slv.pp.lastMs with
        | some m => m + oneMs
        | none => (d.time.ns16 + oneMs - 1) / oneMs * oneMs
      (d.advanceToDev due).ppRecord due) s

end Sys2Proof.Machine
end

