-- ==== Sys2Proof/Machine/Outputs.lean ====
section
/-! DEFINITION. The CSI-2 transmit ports: their commands and routes (R696, R698, R701, R711), event records (R704), and the
parts, event messages and diagnostic messages that leave (R694 to R703). -/

namespace Sys2Proof.Machine

/-! ## Ports and routes -/

/-- The packets of a part of `n` payload bytes (R694). -/
def partLines (lineBytes n : Nat) : Nat := ceilDiv (64 + n) (max 1 lineBytes)

/-- Whether a part takes at most 500 µs (R696). -/
def partFits (lines lineBytes lanes rate : Nat) : Bool := lines * (lineBytes + 6) * 8 ≤ 498 * lanes * rate

/-- The longest part still to be sent of the messages of a port that have started, as packets and LINE_BYTES. -/
def TxPort.startedParts (x : TxPort) : List (Nat × Nat) :=
  (x.queue.filter (·.started)).map fun m => (partLines m.lineBytes m.partBytes, m.lineBytes)

/-- OUT_PORT's effect (R696, R703, R711). A disabling command uses no other field (log entry 19). -/
def outPort (r : Request) (d : Device) : Device × Reply :=
  let p := r.u 0 1
  let x := d.tx p
  let lanes := r.u 2 1
  let rate := r.u 4 2
  let line := r.u 6 2
  let part := r.u 8 4
  if !d.pwr.dieOn.getLsbD p then (d, ans stNoResource)
  else if r.u 1 1 = 0 then (d.txDown p false, ans stOk)
  else if ! [1, 2, 4].elem lanes || 1 < r.u 3 1 || rate < 80 || 4500 < rate || line < 256 || 8192 < line || line % 64 ≠ 0
      || part < 4096 || 4194304 < part || part % 64 ≠ 0 || !partFits (partLines line part) line lanes rate
      || x.startedParts.any (fun q => !partFits q.1 q.2 lanes rate) then (d, ans stBadField)
  else (d.setTx p { x with
    enabled := true, lanes := lanes, clock := r.u 3 1, rate := rate, lineBytes := line, partBytes := part }, ans stOk)

/-- OUT_PORT as a setting. -/
def setOutPort : Setting := ⟨0x0E00, 2, fun r _ => [(5, r.u 0 1)], devBody outPort⟩

/-- OUT_PORT (R711). -/
def execOutPort (ch : Fin 8) (s : State) : Host.Outcome State Fault Refusal := configure setOutPort ch s

/-- The next whole multiple of a period in ms after now, in device time. -/
def Device.nextMultiple (d : Device) (ms : Nat) : Nat := (d.time.ns16 / (ms * oneMs) + 1) * (ms * oneMs)

/-- Whether a route would send a ring of fewer than three slots on both ports (R701). -/
def Device.routeTight (d : Device) (dt p pairs : Nat) : Bool :=
  let o := d.route_ dt (1 - p)
  o.on &&
    match dt with
    | 0x31 => d.grid.cfg.layerBuffers < 3
    | 0x32 => (bitList (Nat.land pairs o.pairs) 8).any fun k => (d.steCfg k).outBuffers < 3
    | _ => false

/-- OUT_ROUTE's effect (R698, R701). -/
def outRoute (r : Request) (d : Device) : Device × Reply :=
  let dt := r.u 0 1
  let p := r.u 1 1
  let x := d.route_ dt p
  let period := r.u 6 2
  if (dt ≠ 0x32 && r.u 4 1 ≠ 0) || (dt ≠ 0x34 && period ≠ 0) || (period ≠ 0 && (period < 100 || 60000 < period)) then
    (d, ans stBadField)
  else if r.u 2 1 = 0 then (d.setRoute dt p { x with on := false }, ans stOk)
  else if d.routeTight dt p (r.u 4 1) then (d, ans stBadState)
  else (d.setRoute dt p { x with
    on := true, vc := r.u 3 1, pairs := r.u 4 1, period := period
    seq := if x.on then x.seq else 0, cursor := if x.on then x.cursor else d.evt.evSeq
    diagAt := if x.on && x.period = period then x.diagAt else d.nextMultiple (max 1 period) }, ans stOk)

/-- OUT_ROUTE as a setting. -/
def setOutRoute : Setting := ⟨0x0E01, 2, fun r _ => [(6, routeKey (r.u 0 1) (r.u 1 1))], devBody outRoute⟩

/-- OUT_ROUTE (R698). -/
def execOutRoute (ch : Fin 8) (s : State) : Host.Outcome State Fault Refusal := configure setOutRoute ch s

/-- The settings of the outputs but guidance. -/
def settingsOut : List Setting := [setOutPort, setOutRoute]

/-- OUT_STATUS (R711). -/
def execOutStatus (ch : Fin 8) (s : State) : Host.Outcome State Fault Refusal :=
  query 0x0E02 ch (fun r d =>
    let p := r.u 0 1
    let x := d.tx p
    let st := if !(x.enabled && d.txUp p) then 0 else if x.wire.isSome then 2 else 1
    ans stOk (leBytes 1 st ++ zeros 3 ++ leBytes 8 x.bytes ++ (List.range 7).flatMap fun k =>
      leBytes 4 (x.sent.getD (0x30 + k) 0) ++ leBytes 4 (x.dropped.getD (0x30 + k) 0)
        ++ leBytes 4 (x.overrun.getD (0x30 + k) 0))) s

/-- A message that a command sends on one port (R697, R698): its number is the port's for its type. -/
def Device.sendOn (d : Device) (p dt vc : Nat) (dts : BitVec 128) (body : List Byte) (segs : List (Nat × Nat × Nat))
    (handle : Option Nat) : Device :=
  let x := d.tx p
  let n := x.seqs.getD dt 0
  (d.setTx p { x with seqs := x.seqs.put dt ((n + 1) % 2 ^ 32) }).enqueueMsg p
    ⟨dt, vc, n, dts, body, segs, handle, 0, 0, false, 0, false⟩

/-- OUT_BULK (R697, R711). -/
def execOutBulk (ch : Fin 8) (s : State) : Host.Outcome State Fault Refusal :=
  command 0x0E03 ch (fun r d =>
    let p := r.u 0 1
    let inside := isHostBuf (r.u 4 4) && d.bufReady (r.u 4 4) && match d.buf (r.u 4 4) with
      | some b => decide (r.u 8 8 + r.u 16 8 ≤ b.size)
      | none => false
    if !inside || r.u 16 8 = 0 then (d, ans stBadField)
    else if !((d.tx p).enabled && d.txUp p) then (d, ans stNoResource)
    else accept r ch.val d fun h d => d.sendOn p 0x36 (r.u 1 1) d.stamp [] [(r.u 4 4, r.u 8 8, r.u 16 8)] (some h)) s

/-! ## Event records -/

/-- An event record (R704). -/
def EventRec.bytes (e : EventRec) : List Byte :=
  leBytes 2 e.code ++ leBytes 1 e.cause ++ leBytes 1 e.unit ++ leBytes 4 e.seq ++ leBytes 16 e.dts.toNat
    ++ leBytes 4 e.p0.toNat ++ leBytes 4 e.p1.toNat

/-- EVENT_GET (R711). -/
def execEventGet (ch : Fin 8) (s : State) : Host.Outcome State Fault Refusal :=
  query 0x0E04 ch (fun r d =>
    let from_ := r.u 0 4
    let oldest := (d.evt.events.head?.map (·.seq)).getD d.evt.evSeq
    let got := (d.evt.events.filter fun e => from_ ≤ e.seq).take (r.u 4 2)
    ans stOk (leBytes 4 ((got.head?.map (·.seq)).getD from_) ++ leBytes 2 got.length ++ zeros 2 ++ leBytes 4 (oldest - from_)
      ++ got.flatMap (·.bytes))) s

/-! ## Messages of events and diagnostics (R697) -/

/-- Event messages of at most 64 records, in order. DEDUCED: log entry 36. -/
def eventMsgs (p : Nat) : Nat → List EventRec → Device → Device
  | 0, _, d => d
  | k + 1, es, d =>
    match es with
    | [] => d
    | e :: _ =>
      let now := es.take 64
      eventMsgs p k (es.drop 64)
        (d.formOn p 0x34 e.dts (leBytes 1 0 ++ zeros 3 ++ leBytes 4 now.length ++ now.flatMap (·.bytes)) [])

/-- EVENT_MSG_FORM (R697): at a whole millisecond of device time, the records pending for the route. -/
def execEventMsgForm (port : Fin 2) (s : State) : Host.Outcome State Fault Refusal :=
  onDev (fun d =>
    let p := port.val
    let r := d.route_ 0x34 p
    let pend := d.evt.events.filter fun e => r.cursor ≤ e.seq
    if !r.on || pend.isEmpty then d else
      let d := d.advanceToDev ((d.time.ns16 + oneMs - 1) / oneMs * oneMs)
      let d := eventMsgs p pend.length pend d
      d.setRoute 0x34 p { d.route_ 0x34 p with cursor := d.evt.evSeq }) s

/-- The counter summary of every die as DIAG_COLLECT returns it (R173): a powered-off die's block is zero. -/
def Device.summary (d : Device) : List Byte :=
  (List.range 8).flatMap fun k => (List.range 128).flatMap fun w =>
    leBytes 4 (d.diagRead k (4 * w))

/-- DIAG_MSG_FORM (R697): at a multiple of the route's PERIOD. -/
def execDiagMsgForm (port : Fin 2) (s : State) : Host.Outcome State Fault Refusal :=
  onDev (fun d =>
    let p := port.val
    let r := d.route_ 0x34 p
    if !r.on || r.period = 0 then d else
      let due := if d.time.ns16 + r.period * oneMs < r.diagAt then d.nextMultiple r.period else r.diagAt
      let d := d.advanceToDev due
      let d := d.formOn p 0x34 d.stamp (leBytes 1 1 ++ zeros 3 ++ leBytes 4 1 ++ d.summary) []
      d.setRoute 0x34 p { d.route_ 0x34 p with diagAt := due + r.period * oneMs }) s

/-! ## Parts (R694 to R703) -/

/-- Payload bytes of a message. -/
def OutMsg.total (m : OutMsg) : Nat := m.body.length + (m.segs.map fun g => g.2.2).sum

/-- Bytes `o` to `o + n − 1` of a message's payload, read from its buffers (R702). -/
def segRead (d : Device) (m : Store) : List (Nat × Nat × Nat) → Nat → Nat → Except AccessError (List Byte)
  | [], _, _ => .ok []
  | (buf, off, len) :: gs, o, n =>
    if n = 0 then .ok []
    else if len ≤ o then segRead d m gs (o - len) n
    else
      let k := min n (len - o)
      match d.buf buf with
      | none => .error (.completion 0)
      | some b =>
        if b.lost then .error (.completion 0) else
          match d.bufRead m buf (off + o) k with
          | .error e => .error e
          | .ok bs => (segRead d m gs 0 (n - k)).map (bs ++ ·)

/-- The payload of a part. -/
def OutMsg.payload (x : OutMsg) (d : Device) (m : Store) : Except AccessError (List Byte) :=
  let o := x.part * x.partBytes
  let n := min x.partBytes (x.total - o)
  let head := slice x.body o n
  (segRead d m x.segs (o - x.body.length) (n - head.length)).map (head ++ ·)

/-- How many parts a message has. -/
def OutMsg.parts (m : OutMsg) : Nat := ceilDiv m.total (max 1 m.partBytes)

/-- The output header of a part (R695). -/
def OutMsg.header (x : OutMsg) (payload : List Byte) : List Byte :=
  leBytes 2 0x4B4F ++ leBytes 1 x.dt ++ leBytes 1 (b2n (x.part + 1 == x.parts) + 2 * b2n x.dropped) ++ leBytes 4 x.seq
    ++ leBytes 4 x.part ++ leBytes 4 x.parts ++ leBytes 8 x.total ++ leBytes 4 payload.length
    ++ leBytes 4 (crc32c payload) ++ leBytes 16 x.dts.toNat ++ zeros 16

/-- The part on the wire has left (R696): its packets count, and a message's last part counts in SENT. -/
def Device.wireDone (d : Device) (p : Nat) : Device :=
  match (d.tx p).wire with
  | none => d
  | some w =>
    let d := d.advanceTo w.endAt
    let x := d.tx p
    let d := d.setTx p { x with
      wire := none, bytes := (x.bytes + w.lines * w.lineBytes) % 2 ^ 64, sent := if w.last then bump x.sent w.dt else x.sent }
    if w.last && w.dt = 0x36 then d.finishOpt w.handle stOk [] else d

/-- The order of the data types (R699). -/
def txOrder : List Nat := [0x30, 0x34, 0x35, 0x31, 0x32, 0x36, 0x33]

/-- The message a port takes its next part from: the highest type that waits, its oldest message. -/
def TxPort.pick (x : TxPort) : Option OutMsg :=
  (txOrder.find? fun dt => x.queue.any fun m => m.dt == dt).bind fun dt => x.queue.find? fun m => m.dt == dt

/-- A message leaves the queue of its port. -/
def TxPort.without (x : TxPort) (m : OutMsg) : TxPort := { x with queue := x.queue.erase m }

/-- A message whose next part cannot be read (R702). -/
def Device.partFails (d : Device) (p : Nat) (x : OutMsg) (e : AccessError) : Device :=
  let d := match e with
    | .ecc _ => d.logAccess 10 e
    | .completion _ => d
  let d := d.setTx p ((d.tx p).without x)
  if x.dt = 0x31 || x.dt = 0x32 then d.dropMsg p x else d.finishOpt x.handle stFailed []

/-- A part goes on the wire as one frame (R694, R696). -/
def Device.putPart (d : Device) (p : Nat) (old x : OutMsg) (payload : List Byte) : Device :=
  let t := d.tx p
  let lines := partLines x.lineBytes payload.length
  let last := x.part + 1 == x.parts
  let time := lines * (x.lineBytes + 6) * 8 * oneUs / (t.lanes * t.rate) + 2 * oneUs
  let n := t.frames.getD x.vc 0
  d.setTx p { t with
    queue := if last then t.queue.erase old else t.queue.map fun y => if y = old then { x with part := x.part + 1 } else y
    wire := some ⟨x.dt, last, x.handle, lines, x.lineBytes, d.time.now, d.time.now + time⟩
    frames := t.frames.put x.vc (n % 65535 + 1), marks := if x.part = 0 then t.marks.filter (· != x.dt) else t.marks
    frame := fit (lines * x.lineBytes) (x.header payload ++ payload) }

/-- TX_PART_SEND (R699, R702): the part on the wire ends, and the port takes the next one. DEDUCED: log entry 36. -/
def execTxPartSend (port : Fin 2) (s : State) : Host.Outcome State Fault Refusal :=
  onBoth (fun d m =>
    let p := port.val
    let d := d.wireDone p
    let t := d.tx p
    if !(t.enabled && d.txUp p) then (d, m) else
      match t.pick with
      | none => (d, m)
      | some y =>
        if y.cancel then ((d.setTx p (t.without y)).finishOpt y.handle stCancelled [], m) else
          let x := if y.started then y else { y with
            lineBytes := t.lineBytes, partBytes := t.partBytes, dropped := t.marks.elem y.dt }
          match x.payload d m with
          | .error e => (d.partFails p y e, m)
          | .ok payload => (d.putPart p y x payload, m)) s

end Sys2Proof.Machine
end

