-- ==== Sys2Proof/Machine/Guide.lean ====
section
/-! DEFINITION. CAN FD guidance (R705 to R711): its commands, and the errors, state and frame of each guidance instant. -/

namespace Sys2Proof.Machine

/-! ## Commands -/

/-- A controller of CAN FD (R263). -/
def Device.canSends (d : Device) (k : Nat) : Bool :=
  let c := d.ing.can.getD k CanCtrl.reset
  c.enable && c.err != 2 && d.pwr.dieOn.getLsbD 0

/-- Guidance replaced. -/
def Device.setGuide (d : Device) (g : Guide) : Device := { d with out := { d.out with guide := g } }

/-- The guidance state changes (R704, R708). -/
def Device.guideTo (d : Device) (state reason : Nat) : Device :=
  let g := d.out.guide
  let d := d.setGuide { g with state := state, reason := reason }
  if g.state = state then d else d.record 0x0060 0xFF g.ctrl state reason

/-- GUIDE_CONFIG's effect (R710, R711). -/
def guideConfig (r : Request) (d : Device) : Device × Reply :=
  let f := r.u 1 1
  let k := r.u 0 1
  let c := d.ing.can.getD k CanCtrl.reset
  let g := d.out.guide
  if f % 2 = 0 then ((d.setGuide { g with enable := false, waiting := none }).guideTo 0 0, ans stOk)
  else if ! [10, 20, 25, 40, 50, 100, 125, 200].elem (r.u 2 1) || 1 < k || r.u 12 2 < 100 || 10000 < r.u 12 2 || r.u 16 2 < 8
      || 1024 < r.u 16 2 || (if bit f 1 then 2 ^ 29 else 2 ^ 11) ≤ r.u 4 4 then (d, ans stBadField)
  else if !d.pwr.dieOn.getLsbD 0 then (d, ans stNoResource)
  else if c.enable && !c.fd then (d, ans stBadState)
  else (d.setGuide { g with
    enable := true, ext := bit f 1, allowDegraded := bit f 2, ctrl := k, rate := r.u 2 1, minConf := r.u 3 1
    canId := r.u 4 4, cpX := r.i 8 2, cpY := r.i 10 2, lookahead := r.u 12 2, maxXte := r.u 14 2, window := r.u 16 2
    maxExtrap := r.u 18 1, nextAt := d.nextMultiple (1000 / r.u 2 1) }, ans stOk)

/-- GUIDE_CONFIG as a setting: guidance of a controller is object class 8. -/
def setGuideConfig : Setting := ⟨0x0E10, 0, fun r _ => [(8, r.u 0 1)], devBody guideConfig⟩

/-- GUIDE_CONFIG (R711). -/
def execGuideConfig (ch : Fin 8) (s : State) : Host.Outcome State Fault Refusal := configure setGuideConfig ch s

/-- GUIDE_SELECT's effect (R706): from the next guidance instant. -/
def guideSelect (r : Request) (d : Device) : Device × Reply :=
  let g := d.out.guide
  let k := r.u 0 1
  if k ≠ 0xFF && (g.stores.look k).isNone then (d, ans stBadField)
  else (d.setGuide { g with select := some (if k = 0xFF then none else some k) }, ans stOk)

/-- GUIDE_SELECT as a setting. -/
def setGuideSelect : Setting := ⟨0x0E12, 0, fun _ _ => [], devBody guideSelect⟩

/-- GUIDE_SELECT (R706). -/
def execGuideSelect (ch : Fin 8) (s : State) : Host.Outcome State Fault Refusal := configure setGuideSelect ch s

/-- The settings of guidance. -/
def settingsGuide : List Setting := [setGuideConfig, setGuideSelect]

/-- Points of a path, X and Y in sQ31.32 m. -/
def pathPts (b : List Byte) : Nat := recU b 8 4
def pathPt (b : List Byte) (i : Nat) : Int × Int := (signed 64 (recU b (64 + 24 * i) 8), signed 64 (recU b (72 + 24 * i) 8))

/-- The square of the distance of two points. -/
def dist2 (a b : Int × Int) : Nat := ((a.1 - b.1) * (a.1 - b.1) + (a.2 - b.2) * (a.2 - b.2)).toNat

/-- ERROR and INDEX of a path image (R706). -/
def pathCheck (b : List Byte) (room : Nat) : Option (Nat × Nat) :=
  let n := pathPts b
  if slice b 0 4 != [0x4B#8, 0x47#8, 0x50#8, 0x54#8] || recU b 4 2 != 1 || recU b 6 2 != 0 || n < 2 || 65536 < n
      || recU b 20 44 != 0 || room < 64 + 24 * n then some (1, 0)
  else ((List.range (n - 1)).find? fun i => dist2 (pathPt b i) (pathPt b (i + 1)) * 10000 < 2 ^ 64).map fun i => (2, i + 1)

/-- GUIDE_PATH (R706): the path is copied into a store that is not active. -/
def execGuidePath (ch : Fin 8) (s : State) : Host.Outcome State Fault Refusal :=
  commandRead 0x0E11 ch (fun r d m =>
    let g := d.out.guide
    let k := r.u 0 1
    let off := r.u 8 8
    let size := (d.buf (r.u 4 4)).elim 0 (·.size)
    if g.active = some k || g.select = some (some k) then (d, ans stBadState)
    else if !isHostBuf (r.u 4 4) || !d.bufReady (r.u 4 4) || size < off + 64 then (d, ans stBadField)
    else
      accept r ch.val d fun h d =>
        let n := pathPts (fwRead d m (r.u 4 4) off 64)
        match d.bufRead m (r.u 4 4) off (min (64 + 24 * n) (size - off)) with
        | .error e => (d.logAccess 10 e).finish h stFailed []
        | .ok b =>
          match pathCheck b (size - off) with
          | some (e, i) => d.finish h stBadField (leBytes 1 e ++ zeros 3 ++ leBytes 4 i)
          | none => (d.setGuide { g with stores := g.stores.put k b }).finish h stOk (zeros 8)) s

/-- GUIDE_STATUS (R711). -/
def execGuideStatus (ch : Fin 8) (s : State) : Host.Outcome State Fault Refusal :=
  query 0x0E13 ch (fun _ d =>
    let g := d.out.guide
    let path := g.active.bind fun k => g.stores.look k
    ans stOk (leBytes 1 g.state ++ leBytes 1 g.reason ++ leBytes 1 (g.active.getD 0xFF) ++ zeros 1
      ++ leBytes 4 (path.elim 0 fun b => recU b 16 4) ++ [g.seg, g.sent, g.notSent, g.replaced].flatMap (leBytes 4)
      ++ g.last)) s

/-! ## The errors of an instant (R707) -/

/-- A projection on a segment: its squared distance, its fraction along the segment, and the segment. -/
structure Proj where
  d2 : Rat
  t : Rat
  seg : Nat

/-- The projection of a point on segment `i` of a path. -/
def projOn (b : List Byte) (c : Int × Int) (i : Nat) : Proj :=
  let p := pathPt b i
  let q := pathPt b (i + 1)
  let u : Int × Int := (q.1 - p.1, q.2 - p.2)
  let w : Int × Int := (c.1 - p.1, c.2 - p.2)
  let t : Rat := ((w.1 * u.1 + w.2 * u.2 : Int) : Rat) / ((dist2 p q : Nat) : Rat)
  let t := if t < 0 then 0 else if 1 < t then 1 else t
  let x : Rat := (w.1 : Rat) - t * (u.1 : Rat)
  let y : Rat := (w.2 : Rat) - t * (u.2 : Rat)
  ⟨x * x + y * y, t, i⟩

/-- The nearest of some segments, the lower among equals. -/
def nearestSeg (b : List Byte) (c : Int × Int) (segs : List Nat) : Proj :=
  match segs with
  | [] => projOn b c 0
  | i :: is => is.foldl (fun (best : Proj) k =>
      let x := projOn b c k
      if x.d2 < best.d2 then x else best) (projOn b c i)

/-- The segments searched: WINDOW from the previous one, or all. -/
def Guide.searched (g : Guide) (b : List Byte) : List Nat :=
  let n := pathPts b - 1
  if g.fresh || g.state ≠ 3 then List.range n else (List.range (min g.window (n - g.seg))).map (g.seg + ·)

/-- The length of a segment in 2^-32 m. DEDUCED: log entry 37. -/
def segLength (b : List Byte) (i : Nat) : Nat := rneSqrt (dist2 (pathPt b i) (pathPt b (i + 1))) 1

/-- The point `r` further along from a length `at_` into segment `i`, clamped to the last point. -/
def alongPath (b : List Byte) : Nat → Nat → Int → Int × Int
  | 0, i, _ => pathPt b i
  | k + 1, i, r =>
    let n : Int := segLength b i
    if n < r then alongPath b k (i + 1) (r - n)
    else
      let p := pathPt b i
      let q := pathPt b (i + 1)
      (p.1 + rne ((q.1 - p.1) * r) n.toNat, p.2 + rne ((q.2 - p.2) * r) n.toNat)

/-- The length from a fraction of segment `i` to the last point, in 2^-32 m. -/
def toEnd (b : List Byte) (x : Proj) : Int :=
  let n := pathPts b - 1
  (((List.range n).filter fun i => x.seg ≤ i).map fun i => (segLength b i : Int)).sum - ratRound (x.t * (segLength b x.seg : Rat))
where
  /-- A rational to the nearest integer, ties to even. -/
  ratRound (r : Rat) : Int := rne r.num r.den

/-- An angle in fixed point wrapped to ±π. -/
def wrapPi (a : Int) : Int := if fxPi < a then a - 2 * fxPi else if a < -fxPi then a + 2 * fxPi else a

/-- What an instant computes, in the formats of R709. -/
structure GuideErr where
  proj : Proj
  over_ : Bool
  atEnd : Bool
  xte : Nat
  heading : Nat
  curvature : Nat
  dist : Nat

/-- The errors of a body pose against a path (R707). A lookahead point at the control point has no stated curvature: a free
value. DEDUCED: log entry 37. -/
def Guide.errors (g : Guide) (free : Nat) (b : List Byte) (p : Pose) : GuideErr :=
  let cm := fun (v : Int) => rne (v * 2 ^ 32) 100
  let c3 := p.t.add (p.q.rot ⟨cm g.cpX, cm g.cpY, 0⟩)
  let c := (c3.x, c3.y)
  let x := nearestSeg b c (g.searched b)
  let a := pathPt b x.seg
  let z := pathPt b (x.seg + 1)
  let left := 0 ≤ (z.1 - a.1) * (c.2 - a.2) - (z.2 - a.2) * (c.1 - a.1)
  let mag : Int := rneSqrt x.d2.num.toNat (x.d2.den * 2 ^ 32)
  let yaw := p.q.yaw
  let at_ := toEnd.ratRound (x.t * (segLength b x.seg : Rat))
  let l := alongPath b (pathPts b - 1 - x.seg) x.seg (at_ + cm g.lookahead)
  let dx := l.1 - c.1
  let dy := l.2 - c.2
  let lx := rne (fxCos yaw * dx + fxSin yaw * dy) (2 ^ 128)
  let ly := rne (fxCos yaw * dy - fxSin yaw * dx) (2 ^ 128)
  let r2 := (lx * lx + ly * ly).toNat
  { proj := x, over_ := decide (((g.maxXte * 2 ^ 32) * (g.maxXte * 2 ^ 32) : Nat) < x.d2 * 10000)
    atEnd := x.seg + 2 == pathPts b && decide (x.t = 1)
    xte := toField 32 0 (if left then mag else -mag)
    heading := toField 16 115 (wrapPi (fxAtan2 (z.2 - a.2) (z.1 - a.1) - yaw))
    curvature := if r2 = 0 then (Config.freeWord 31 free).toNat % 65536 else toField 16 0 (rne (2 * ly * 2 ^ 44) r2)
    dist := min 0xFFFFFFFF (rne (toEnd b x) (2 ^ 24)).toNat }

/-- CRC-8 of R709. -/
def crc8Bit : Nat → Nat → Nat
  | 0, c => c
  | k + 1, c => crc8Bit k (if 128 ≤ c then Nat.xor (c * 2 % 256) 0x1D else c * 2 % 256)
def crc8 (bs : List Byte) : Nat := Nat.xor (bs.foldl (fun c b => crc8Bit 8 (Nat.xor c b.toNat)) 0xFF) 0xFF

/-- State and reason by the first row of R708 that applies; the path and its errors where a store is active. -/
def Device.guideRow (d : Device) (flags conf : Nat) (path : Option (List Byte × GuideErr)) (at_ : Nat) : Nat × Nat :=
  let g := d.out.guide
  let l := d.loc
  match path with
  | none => (1, 0)
  | some (b, e) =>
    if bit flags 2 || bit flags 1 then (2, 3)
    else if !(l.state = .tracking || l.state = .relocalised || (l.state = .degraded && g.allowDegraded)) then (2, 1)
    else if (match l.session with | some s => d.rootOf s != recU b 12 4 | none => true) then (2, 4)
    else if conf < g.minConf then (2, 2)
    else if (match g.extrapFrom with | some t => decide (g.maxExtrap * 10 * oneMs < at_ - t) | none => false) then (2, 6)
    else if e.over_ then (2, 5)
    else if e.atEnd then (4, 0)
    else (3, 0)

/-- The propagator ring record of a whole millisecond; without a propagator an INVALID record at rest. -/
def Device.guideRecord (d : Device) (at_ : Nat) : Option (List Byte) :=
  if d.locRuns then
    (d.slv.pp.ring.find? fun e => dtsMoment (BitVec.ofNat 128 (recU e.2 8 16)) == at_).map (·.2)
  else some (leBytes 2 4 ++ zeros 22 ++ Pose.id.bytes ++ zeros 32)

/-- The payload of a guidance frame (R709). -/
def Device.guideFrame (d : Device) (rec_ : List Byte) (age conf state reason : Nat) (e : Option GuideErr) : List Byte :=
  let g := d.out.guide
  let flags := recU rec_ 0 2
  let p := Pose.ofBytes (slice rec_ 24 40)
  let v : Vec3 := Vec3.ofList ((List.range 3).map fun k => signed 32 (recU rec_ (64 + 4 * k) 4))
  let speed := toField 16 8 (p.q.conj.rot v).x
  let corr := match d.loc.correctedAt with | some t => decide (d.time.now ≤ t + oneS) | none => false
  let sigma := match d.slv.pp.anchor with | some a => a.sigmas.getD 0 0 | none => 0
  let show_ := state = 3 || state = 4
  let f := fun (n : Nat) (k : GuideErr → Nat) => leBytes n (match e with | some x => if show_ then k x else 0 | none => 0)
  let body := leBytes 1 (state + g.counter * 16)
    ++ leBytes 1 (d.loc.state.code + 8 * (flags % 2) + 16 * b2n corr + 32 * b2n (bit flags 3)) ++ leBytes 1 conf
    ++ leBytes 1 reason ++ f 4 (·.xte) ++ f 2 (·.heading) ++ f 2 (·.curvature) ++ leBytes 2 speed
    ++ f 2 (fun x => min 0xFFFF x.proj.seg) ++ f 4 (·.dist) ++ leBytes 2 (min 0xFFFF (rne sigma 65536).toNat)
    ++ leBytes 1 (min 255 (rne age 1000).toNat)
  body ++ leBytes 1 (crc8 body)

/-- A frame is handed to the controller (R710). -/
def Device.handFrame (d : Device) (frame : List Byte) : Device :=
  let g := d.out.guide
  let g := { g with last := frame, replaced := if g.waiting.isSome then min 0xFFFFFFFF (g.replaced + 1) else g.replaced }
  if !d.canSends g.ctrl then d.setGuide { g with notSent := min 0xFFFFFFFF (g.notSent + 1), waiting := none }
  else d.setGuide { g with waiting := some frame }

/-- What an instant does with its record. -/
def Device.guideAt (d : Device) (at_ : Nat) (rec_ : List Byte) : Device :=
  let g := d.out.guide
  let g := match g.select with
    | some k => { g with active := k, select := none, fresh := true }
    | none => g
  let flags := recU rec_ 0 2
  let age := match d.slv.pp.anchor with | some a => (at_ - a.at_) / oneUs | none => 0
  let conf := d.propConf age (bit flags 2)
  let path := (g.active.bind fun k => g.stores.look k).map fun b =>
    (b, g.errors d.free b (Pose.ofBytes (slice rec_ 24 40)))
  let d := (d.setGuide g).tickFree
  let (st, why) := d.guideRow flags conf path at_
  let d := d.guideTo st why
  let d := match path with
    | some (_, e) => d.setGuide { d.out.guide with
        seg := if st = 3 || st = 4 then e.proj.seg else d.out.guide.seg, fresh := false }
    | none => d
  let d := d.handFrame (d.guideFrame rec_ age conf st why (path.map (·.2)))
  d.setGuide { d.out.guide with nextAt := at_ + 1000 / g.rate * oneMs }

/-- GUIDE_INSTANT (R707 to R710): at the next whole multiple of 1,000 ÷ RATE ms, with the ring record of that millisecond. -/
def execGuideInstant (s : State) : Host.Outcome State Fault Refusal :=
  onDev (fun d =>
    let g := d.out.guide
    let per := 1000 / max 1 g.rate
    if !g.enable then d else
      let due := if d.time.ns16 + per * oneMs < g.nextAt then d.nextMultiple per else g.nextAt
      match d.guideRecord due with
      | none => d
      | some r => (d.advanceToDev due).guideAt due r) s

/-- GUIDANCE_FRAME_TX (R710): the frame wins arbitration and is sent. -/
def execGuidanceFrameTx (s : State) : Host.Outcome State Fault Refusal :=
  onDev (fun d =>
    let g := d.out.guide
    match g.waiting with
    | none => d
    | some _ =>
      if d.canSends g.ctrl then
        d.setGuide { g with waiting := none, sent := min 0xFFFFFFFF (g.sent + 1), counter := (g.counter + 1) % 16 }
      else d.setGuide { g with waiting := none, notSent := min 0xFFFFFFFF (g.notSent + 1) }) s

end Sys2Proof.Machine
end

