-- ==== Sys2Proof/Machine/Mailbox.lean ====
section
/-! DEFINITION. The mailbox channels (R150 to R163): doorbell, checks, duplicates, publication, FLUSH; and the
handle commands of R170 to R173. -/

namespace Sys2Proof.Machine

/-- Whether the MBX, TIME and DIAG windows answer (R87, R126, R768). -/
def Device.windowsOpen (d : Device) : Bool := d.boot.fwStarted && !d.pkg.shutdown

/-- Address of a mailbox register (R150). -/
def mbxAddr (ch off : Nat) : Nat := 0x10000 + 0x2000 * ch + off

/-- The request in a channel's request page (R155). -/
def Channel.request (c : Channel) : Request :=
  let len := c.req.field 4 2
  { op := c.req.field 0 2, seq := c.req.field 2 2, len := len, flags := c.req.field 6 2, tag := c.req.field 8 4,
    crc := c.req.field 12 4, body := if len ≤ 4016 then c.req.readAll 0#8 16 len else [] }

/-- A rejection (R157, R181 code 0x10): empty payload, logged, entered in the store only past check 3. -/
def Device.reject (d : Device) (ch : Nat) (r : Request) (status : Nat) (enter : Bool) : Device :=
  let d := d.violation 1 ch 0x10 (status * 65536 + r.seq)
  d.setChan ch { d.chan ch with formed := some ⟨status, false, [], enter, none⟩ }

/-- A long command whose handle has not completed (R160). -/
def Device.handlePending (d : Device) (h : Option Nat) : Bool :=
  match h with
  | none => false
  | some h =>
    match d.mbx.handles.look h with
    | some r => r.final.isNone
    | none => false

/-- The replay of a stored entry (R160). -/
def Device.replay (d : Device) (ch : Nat) (e : StoreEntry) : Device :=
  let st := if d.handlePending e.handle then 0x02 else e.status
  d.setChan ch { d.chan ch with formed := some ⟨st, true, e.payload, false, e.handle⟩ }

/-- The CRC rule of R155. -/
def Request.crcOk (r : Request) : Bool := if r.len = 0 then r.crc == 0 else r.crc == crc32c r.body

/-- The checks of R157 in order, on a request just taken. -/
def Device.checkRequest (d : Device) (ch : Nat) (r : Request) : Device :=
  if 4016 < r.len then d.reject ch r stBadLength false
  else if !r.crcOk then d.reject ch r stBadCrc false
  else
    match (d.chan ch).store.find? (fun e => e.seq == r.seq) with
    | some e =>
      if e.op == r.op && e.len == r.len && e.crc == r.crc then d.replay ch e
      else d.reject ch r 0x03 false
    | none =>
      match staticCheck d r with
      | some st => d.reject ch r st true
      | none => d

/-- A doorbell write (R151, R737). -/
def Device.doorbell (d : Device) (ch : Nat) (value : Word) : Device :=
  let c := d.chan ch
  if !d.windowsOpen then d.violation 0 0 0x0A (mbxAddr ch 0xFC0)
  else if value ≠ 1 then d.violation 1 ch 0x04 value.toNat
  else if c.state = .busy || d.evt.faultCp.getLsbD d.lead then d.violation 1 ch 0x01 c.seq
  else
    let r := c.request
    (d.setChan ch { c with state := .busy, seq := r.seq, resp := [], taken := some r, formed := none }).checkRequest ch r

/-- MBX_DOORBELL (R151 to R163). -/
def execMbxDoorbell (ch : Fin 8) (value : Word) (s : State) : Host.Outcome State Fault Refusal :=
  onDev (fun d => if d.takesPrivate then (d.doorbell ch.val value).wrote (mbxAddr ch.val 0xFC4) else d) s

/-- A write of 1 to MBX_CHCTL.FLUSH (R151). -/
def Device.flush (d : Device) (ch : Nat) : Device :=
  let c := d.chan ch
  if !d.windowsOpen then d.violation 0 0 0x0A (mbxAddr ch 0xFC8)
  else if c.state = .busy then d.violation 1 ch 0x05 0
  else d.setChan ch { c with store := [] }

/-- FLUSH (R151, R163). -/
def execFlush (ch : Fin 8) (s : State) : Host.Outcome State Fault Refusal :=
  onDev (fun d => if d.takesPrivate then (d.flush ch.val).wrote (mbxAddr ch.val 0xFCC) else d) s

/-- The bytes of a response page (R156). -/
def respPage (r : Request) (a : Reply) : List Byte :=
  let n := a.payload.length
  leBytes 2 r.op ++ leBytes 2 r.seq ++ leBytes 2 n ++ leBytes 1 a.status ++ leBytes 1 (b2n a.dup)
    ++ leBytes 4 r.tag ++ leBytes 4 (if n = 0 then 0 else crc32c a.payload) ++ a.payload

/-- The entry a command leaves in the sequence store (R158); a handle that has already completed stores its final
status (R161). -/
def storeEntry (d : Device) (r : Request) (a : Reply) : StoreEntry :=
  let st := match a.handle with
    | some h => ((d.mbx.handles.look h).bind (·.final)).getD a.status
    | none => a.status
  ⟨r.seq, r.op, r.len, r.crc, st, a.payload, a.handle⟩

/-- The store with one more entry, the oldest dropped past 64 (R158). -/
def enterStore (st : List StoreEntry) (e : StoreEntry) : List StoreEntry :=
  (st ++ [e]).drop (st.length + 1 - 64)

/-- A formed response is published (R151, R152). -/
def Device.publish (d : Device) (ch : Nat) : Device :=
  let c := d.chan ch
  match c.state, c.taken, c.formed with
  | .busy, some r, some a =>
    let st := if a.enter then enterStore c.store (storeEntry d r a) else c.store
    let d := d.setChan ch { c with state := .resp, resp := respPage r a, store := st, taken := none, formed := none }
    if r.flags % 2 = 1 then d.raiseIbi (0x20 + ch) else d
  | _, _, _ => d

/-- MBX_RESPONSE_FORMED (R151). -/
def execMbxResponseFormed (ch : Fin 8) (s : State) : Host.Outcome State Fault Refusal :=
  onDev (fun d => d.publish ch.val) s

/-! ## Handle commands -/

/-- NOP (R170): echoes the payload. -/
def execNop (ch : Fin 8) (s : State) : Host.Outcome State Fault Refusal :=
  query 0x0100 ch (fun r _ => ans stOk r.body) s

/-- A held handle (R165): known and not released. -/
def Device.handle (d : Device) (h : Nat) : Option Handle :=
  match d.mbx.handles.look h with
  | some r => if r.released then none else some r
  | none => none

/-- HANDLE_QUERY (R170). -/
def execHandleQuery (ch : Fin 8) (s : State) : Host.Outcome State Fault Refusal :=
  query 0x0101 ch (fun r d =>
    match d.handle (r.u 0 4) with
    | none => ans stBadHandle
    | some h => ans stOk (leBytes 4 (r.u 0 4) ++ leBytes 1 (b2n h.final.isSome) ++ leBytes 1 (h.final.getD 0)
        ++ leBytes 2 h.op ++ leBytes 4 h.result.length)) s

/-- A released handle leaves the table once its ring entry is consumed too (R165). -/
def Mbx.release (m : Mbx) (h : Nat) : Mbx :=
  match m.handles.look h with
  | none => m
  | some r =>
    if r.consumed then { m with handles := m.handles.del h }
    else { m with handles := m.handles.put h { r with released := true, result := [] } }

/-- RESULT_GET (R171). -/
def execResultGet (ch : Fin 8) (s : State) : Host.Outcome State Fault Refusal :=
  command 0x0102 ch (fun r d =>
    let h := r.u 0 4
    let off := r.u 4 4
    match d.handle h with
    | none => (d, ans stBadHandle)
    | some x =>
      if x.final.isNone then (d, ans stBadState)
      else if x.result.length < off then (d, ans stBadField)
      else
        let n := min (min (r.u 8 2) 4068) (x.result.length - off)
        let a := ans stOk (leBytes 4 h ++ leBytes 4 x.result.length ++ leBytes 4 off ++ (x.result.drop off).take n)
        (if r.u 10 2 % 2 = 1 then { d with mbx := d.mbx.release h } else d, a)) s

/-- HANDLE_LIST (R170). -/
def execHandleList (ch : Fin 8) (s : State) : Host.Outcome State Fault Refusal :=
  query 0x0104 ch (fun _ d =>
    let hs := (d.mbx.handles.filter fun e => !e.2.released).map (·.1)
    ans stOk (leBytes 4 hs.length ++ hs.flatMap (leBytes 4))) s

/-- DIAG_COLLECT (R173): the latch is DIAG_LATCH's. -/
def execDiagCollect (ch : Fin 8) (s : State) : Host.Outcome State Fault Refusal :=
  command 0x0108 ch (fun r d =>
    accept r ch.val d fun h d => { d with mbx := { d.mbx with diagHandle := d.mbx.diagHandle ++ [h] } }) s

end Sys2Proof.Machine
end

