-- ==== Sys2Proof/Machine/Ingest.lean ====
section
/-! DEFINITION. Sensor ingest, first part: the ingest commands (R277), CSI-2 receive (R235 to R243), stereo pairing (R270
to R273), the dropout of streams (R230), and host bulk data (R274 to R276). -/

namespace Sys2Proof.Machine

/-! ## Commands -/

/-- The first whole second after now plus SWEEP_PHASE (R253). -/
def Device.sweepOrigin (d : Device) (s : Nat) : Nat :=
  (d.time.ns16 / oneS + 1) * oneS + (d.lidar s).sweepPhase * 1000 * oneNs

/-- A stream enabled with its lidar sweeps counted from S and its SCORE at 255 (R511). -/
def Device.enableStream (d : Device) (s : Nat) : Option Device :=
  (d.startStream s).map fun d =>
    let d := if s < 24 then d.scoreFresh s else d
    if 16 ≤ s && s < 24 then
      d.setLidar s { d.lidar s with origin := some (d.sweepOrigin s), sweep := none, lastSeq := none, carried := 0 }
    else d

/-- The settings of a stream as STREAM_CONFIG gives them. -/
def streamSet (r : Request) (x : Stream) : Stream :=
  { x with buffers := r.u 2 1, usablePct := r.u 3 1, period := r.u 4 4, timeout := r.u 8 4, recover := r.u 12 2 }

/-- STREAM_CONFIG's effect (R230, R234, R277). BUFFERS of an enabled stream changes only under R135, which stops and
starts the stream. DEDUCED: log entry 49. -/
def streamConfig (r : Request) (d : Device) : Device × Reply :=
  let s := r.u 0 1
  let x := d.stream s
  let restart := fun (d : Device) =>
    match (d.updStream s (streamSet r)).enableStream s with
    | some d => (d, ans stOk)
    | none => (d, ans stNoResource)
  if !isStream s then (d, ans stBadField)
  else if r.u 1 1 = 0 then
    ((d.updStream s (streamSet r)).stopStream s, ans stOk)
  else if s < 24 && (r.u 2 1 < 3 || 16 < r.u 2 1) then (d, ans stBadField)
  else if !d.streamUp s then (d, ans stNoResource)
  else if x.state = .off then restart d
  else if s < 24 && x.buffers ≠ r.u 2 1 then
    if d.profileUses [(0, s)] then restart d else (d, ans stBadState)
  else (d.updStream s (streamSet r), ans stOk)

/-- STREAM_CONFIG as a setting. -/
def setStreamConfig : Setting := ⟨0x0300, 1, fun r _ => [(0, r.u 0 1)], devBody streamConfig⟩

/-- STREAM_CONFIG (R230, R232, R234). -/
def execStreamConfig (ch : Fin 8) (s : State) : Host.Outcome State Fault Refusal := configure setStreamConfig ch s

/-- STREAM_STATUS (R277). DEDUCED: log entry 49. -/
def execStreamStatus (ch : Fin 8) (s : State) : Host.Outcome State Fault Refusal :=
  query 0x0301 ch (fun r d =>
    let k := r.u 0 1
    if !isStream k then ans stBadField else
      let x := d.stream k
      let p := d.pair (k / 2)
      let ps := if k < 16 && p.enabled then (if p.lost then 2 else 1) else 0
      ans stOk (leBytes 1 x.state.code ++ leBytes 1 ps ++ zeros 2 ++ leBytes 4 x.lastSeq ++ leBytes 16 x.dts.toNat
        ++ leBytes 4 x.samples ++ leBytes 4 x.nobuf ++ leBytes 4 x.unusable ++ leBytes 4 x.unpaired ++ leBytes 4 x.slips
        ++ leBytes 4 x.dropouts ++ leBytes 4 x.violations)) s

/-- CSI_PORT's settings laid over a port. -/
def csiSet (r : Request) (c : CsiPort) : CsiPort :=
  { c with
    phy := r.u 1 1, lanes := r.u 2 1, vc := r.u 3 1, dt := r.u 4 1, bulkVc := r.u 5 1, width := r.u 8 2
    height := r.u 10 2, frameTimeout := r.u 12 4, embOff := r.u 16 2, embLen := r.u 18 1, embOrder := r.u 19 1
    embUnit := r.u 20 4 }

/-- Whether CSI_PORT's fields that depend on one another are in range (R235, R277). PRESUMED: log entry 43. -/
def csiFieldsOk (r : Request) : Bool :=
  (if r.u 1 1 = 0 then [1, 2, 4].elem (r.u 2 1) else [1, 2, 3].elem (r.u 2 1))
    && (r.u 16 2 == 0xFFFF || (2 ≤ r.u 18 1 && r.u 18 1 ≤ 4 && r.u 19 1 ≤ 1))

/-- CSI_PORT's effect (R234, R236); under R135 the stream stops, the change applies and the stream starts again. -/
def csiPort (r : Request) (d : Device) : Device × Reply :=
  let p := r.u 0 1
  let c := csiSet r (d.csi p)
  if !csiFieldsOk r then (d, ans stBadField)
  else if !d.csiUp p then (d, ans stNoResource)
  else if (d.stream p).state = .off || c = d.csi p then (d.setCsi p c, ans stOk)
  else if d.profileUses [(0, p)] then
    match ((d.stopStream p).setCsi p { c with frame := none }).enableStream p with
    | some d => (d, ans stOk)
    | none => (d, ans stNoResource)
  else (d, ans stBadState)

/-- CSI_PORT as a setting. -/
def setCsiPort : Setting := ⟨0x0302, 1, fun r _ => [(0, r.u 0 1)], devBody csiPort⟩

/-- CSI_PORT (R236). -/
def execCsiPort (ch : Fin 8) (s : State) : Host.Outcome State Fault Refusal := configure setCsiPort ch s

/-- PAIR_CONFIG's effect (R270). -/
def pairConfig (r : Request) (d : Device) : Device × Reply :=
  let p := r.u 0 1
  let x := d.pair p
  let x' : Pair :=
    if r.u 1 1 = 0 then { Pair.reset with period := r.u 4 4 }
    else if x.enabled then { x with period := r.u 4 4 }
    else ⟨true, r.u 4 4, false, none, none, 0, 0, none⟩
  (d.setPair p x', ans stOk)

/-- PAIR_CONFIG as a setting. -/
def setPairConfig : Setting := ⟨0x0303, 1, fun r _ => [(2, r.u 0 1)], devBody pairConfig⟩

/-- PAIR_CONFIG (R270). -/
def execPairConfig (ch : Fin 8) (s : State) : Host.Outcome State Fault Refusal := configure setPairConfig ch s

/-- ETH_PORT's effect (R248). -/
def ethPort (r : Request) (d : Device) : Device × Reply :=
  let p := r.u 0 1
  if !d.ethUp p then (d, ans stNoResource)
  else
    (d.updEth p fun e => { e with
      vlanOwn := r.u 2 2, ipv4 := BitVec.ofNat 32 (beNat (r.bytes 4 4)), bulkUdp := r.u 8 2
      ipv6 := BitVec.ofNat 128 (beNat (r.bytes 12 16)) }, ans stOk)

/-- ETH_PORT as a setting. -/
def setEthPort : Setting := ⟨0x0304, 0, fun _ _ => [], devBody ethPort⟩

/-- ETH_PORT (R248). -/
def execEthPort (ch : Fin 8) (s : State) : Host.Outcome State Fault Refusal := configure setEthPort ch s

/-- The MAC address of a port (R244): the base plus the port over all 48 bits. -/
def Device.macOf (d : Device) (p : Nat) : BitVec 48 := d.fuse.mac + BitVec.ofNat 48 p

/-- ETH_STATUS (R277). -/
def execEthStatus (ch : Fin 8) (s : State) : Host.Outcome State Fault Refusal :=
  query 0x0305 ch (fun r d =>
    let p := r.u 0 1
    let e := d.eth p
    ans stOk (beBytes 6 (d.macOf p).toNat ++ leBytes 1 (if d.ethUp p then e.rate else 0) ++ leBytes 1 e.mode
      ++ leBytes 8 e.rx ++ leBytes 8 e.tx ++ leBytes 4 e.fcsErr ++ leBytes 4 e.qDrop ++ leBytes 8 e.forwarded
      ++ leBytes 8 e.consumed)) s

/-- LIDAR_STREAM's settings laid over a stream. -/
def lidarSet (r : Request) (l : Lidar) : Lidar :=
  { l with
    ports := r.u 1 1, ipver := r.u 2 1, flags := r.u 3 1, vlan := r.u 4 2, udp := r.u 6 2
    src := BitVec.ofNat 128 (beNat (r.bytes 8 16)), hdrLen := r.u 24 2, points := r.u 26 2, stride := r.u 28 2
    channels := r.u 30 1, pointDt := r.u 32 4, pktSpan := r.u 36 4, tsOff := r.u 40 2, seqOff := r.u 42 2
    sweepPeriod := r.u 44 4, sweepPhase := r.u 48 4, maxRange := r.u 52 4, fr := r.fspec 56, faz := r.fspec 64
    fel := r.fspec 72, fint := r.fspec 80
    elev := if bit (r.u 3 1) 3 then (List.range (r.u 30 1)).map fun i => r.u (88 + 4 * i) 4 else [] }

/-- LIDAR_STREAM's effect (R234, R249). -/
def lidarStream (r : Request) (d : Device) : Device × Reply :=
  let s := r.u 0 1
  let l := lidarSet r (d.lidar s)
  if (d.stream s).state ≠ .off && l ≠ d.lidar s then (d, ans stBadState)
  else (d.setLidar s l, ans stOk)

/-- LIDAR_STREAM as a setting. -/
def setLidarStream : Setting := ⟨0x0306, 0, fun r _ => [(0, r.u 0 1)], devBody lidarStream⟩

/-- LIDAR_STREAM (R249). -/
def execLidarStream (ch : Fin 8) (s : State) : Host.Outcome State Fault Refusal := configure setLidarStream ch s

/-- IMU_PORT's settings laid over a port. -/
def imuSet (r : Request) (x : ImuPort) : ImuPort :=
  { x with
    mode := r.u 1 1, drdyPol := r.u 2 1, txLen := r.u 3 1, sclk := r.u 4 4, rate := r.u 8 4, tx := r.bytes 12 16
    rxLen := r.u 28 1, statusOff := r.u 29 1, statusMask := r.u 30 1
    specs := (List.range 7).map fun i => r.fspec (32 + 8 * i) }

/-- Whether the transaction fits the period (R257) and its fields lie in what is received. -/
def imuFieldsOk (r : Request) : Bool :=
  (r.u 3 1 + r.u 28 1) * 8 * 1000 * r.u 8 4 + r.u 4 4 * r.u 8 4 ≤ 1000000 * r.u 4 4
    && (r.u 29 1 == 0xFF || r.u 29 1 < r.u 28 1)
    && (List.range 7).all fun i =>
      let f := r.fspec (32 + 8 * i)
      !f.present || f.off + fieldBytes f.typ ≤ r.u 28 1

/-- IMU_PORT's effect (R234, R257). -/
def imuPort (r : Request) (d : Device) : Device × Reply :=
  let p := r.u 0 1
  let s := 24 + p
  let x := imuSet r (d.imu p)
  if !imuFieldsOk r then (d, ans stBadField)
  else if !d.pwr.dieOn.getLsbD (2 * p) then (d, ans stNoResource)
  else if (d.stream s).state = .off || x = d.imu p then (d.setImu p x, ans stOk)
  else if d.profileUses [(0, s)] then
    match ((d.stopStream s).setImu p { x with busy := none }).enableStream s with
    | some d => (d, ans stOk)
    | none => (d, ans stNoResource)
  else (d, ans stBadState)

/-- IMU_PORT as a setting. -/
def setImuPort : Setting := ⟨0x0307, 1, fun r _ => [(0, 24 + r.u 0 1)], devBody imuPort⟩

/-- IMU_PORT (R257). -/
def execImuPort (ch : Fin 8) (s : State) : Host.Outcome State Fault Refusal := configure setImuPort ch s

/-- ENC_CONFIG's effect (R260, R261): mode 0 turns the encoder's stream OFF, another turns it on with the count at 0. -/
def encConfig (r : Request) (d : Device) : Device × Reply :=
  let k := r.u 0 1
  let x := d.enc k
  let x' := { x with mode := r.u 1 1, flags := r.u 2 1, glitch := r.u 3 1, cpr := r.u 4 4, rate := r.u 8 4 }
  if r.u 1 1 ≠ 0 && (r.u 8 4 = 0 || 10000 < r.u 8 4) then (d, ans stBadField)
  else if !d.pwr.dieOn.getLsbD k then (d, ans stNoResource)
  else if r.u 1 1 = 0 then ((d.setEnc k x').stopStream (128 + k), ans stOk)
  else if (d.stream (128 + k)).state ≠ .off then (d.setEnc k x', ans stOk)
  else
    match d.enableStream (128 + k) with
    | some d => (d.setEnc k { x' with
        count := 0, indexCount := 0, indexed := false, seen := false, mismatch := false, lastEdge := none
        prevEdge := none }, ans stOk)
    | none => (d, ans stNoResource)

/-- ENC_CONFIG as a setting. -/
def setEncConfig : Setting := ⟨0x0308, 0, fun r _ => [(0, 128 + r.u 0 1)], devBody encConfig⟩

/-- ENC_CONFIG (R260). -/
def execEncConfig (ch : Fin 8) (s : State) : Host.Outcome State Fault Refusal := configure setEncConfig ch s

/-- CAN_CONTROLLER's effect (R263). -/
def canController (r : Request) (d : Device) : Device × Reply :=
  let k := r.u 0 1
  let on := r.u 1 1 = 1
  if on && (r.u 4 4 < 125000 || 1000000 < r.u 4 4 || (r.u 2 1 = 1 && (r.u 8 4 = 0 || 8000000 < r.u 8 4))
      || 1000 < r.u 12 2 || 1000 < r.u 14 2) then (d, ans stBadField)
  else if !d.pwr.dieOn.getLsbD 0 then (d, ans stNoResource)
  else
    (d.setCan k { d.can k with
      enable := on, fd := r.u 2 1 = 1, tdc := r.u 3 1, nomRate := r.u 4 4, dataRate := r.u 8 4, nomSp := r.u 12 2
      dataSp := r.u 14 2 }, ans stOk)

/-- CAN_CONTROLLER as a setting: its stream is the object. -/
def setCanController : Setting := ⟨0x0309, 0, fun r _ => [(0, 28 + r.u 0 1)], devBody canController⟩

/-- CAN_CONTROLLER (R263). -/
def execCanController (ch : Fin 8) (s : State) : Host.Outcome State Fault Refusal := configure setCanController ch s

/-- Signal `i` of a CAN_FILTER. -/
def canSignal (r : Request) (i : Nat) : CanSignal :=
  let o := 12 + 16 * i
  ⟨r.u o 1, r.u (o + 1) 1, r.u (o + 2) 2, r.u (o + 4) 1, r.u (o + 5) 1, r.u (o + 6) 1 == 1, r.u (o + 8) 4, r.u (o + 12) 4⟩

/-- Whether a signal's fields are in range (R265, R266, R277). -/
def canSignalOk (r : Request) (i : Nat) : Bool :=
  let o := 12 + 16 * i
  let x := canSignal r i
  1 ≤ x.kind && x.kind ≤ 7 && x.wheel ≤ 7 && x.start ≤ 511 && 1 ≤ x.len && x.len ≤ 32 && x.order ≤ 1
    && r.u (o + 6) 1 ≤ 1 && r.u (o + 7) 1 == 0

/-- CAN_FILTER's effect (R264). -/
def canFilter (r : Request) (d : Device) : Device × Reply :=
  let n := r.u 3 1
  if !(List.range n).all (canSignalOk r) then (d, ans stBadField)
  else
    let f : CanFilter := ⟨bit (r.u 2 1) 0, bit (r.u 2 1) 1, r.u 4 4, r.u 8 4, (List.range n).map (canSignal r)⟩
    let c := d.can (r.u 0 1)
    (d.setCan (r.u 0 1) { c with filters := c.filters.put (r.u 1 1) f }, ans stOk)

/-- CAN_FILTER as a setting. -/
def setCanFilter : Setting := ⟨0x030A, 0, fun r _ => [(0, 28 + r.u 0 1)], devBody canFilter⟩

/-- CAN_FILTER (R264). -/
def execCanFilter (ch : Fin 8) (s : State) : Host.Outcome State Fault Refusal := configure setCanFilter ch s

/-- The settings of the ingest group. -/
def settingsIngest : List Setting :=
  [setStreamConfig, setCsiPort, setPairConfig, setEthPort, setLidarStream, setImuPort, setEncConfig, setCanController,
   setCanFilter]

/-- A buffer's bulk mark. -/
def Device.markBulk (d : Device) (id : Nat) (on : Bool) : Device :=
  match d.buf id with
  | some b => { d with memsys := { d.memsys with bufs := d.memsys.bufs.put id { b with bulk := on } } }
  | none => d

/-- BULK_OPEN (R274). -/
def execBulkOpen (ch : Fin 8) (s : State) : Host.Outcome State Fault Refusal :=
  command 0x030B ch (fun r d =>
    let path := r.u 0 1
    let port := r.u 1 1
    let id := r.u 4 4
    match d.buf id with
    | none => (d, ans stBadField)
    | some b =>
      if (if path = 0 then 16 ≤ port else 4 ≤ port) || !isHostBuf id || b.size < r.u 8 8 + r.u 16 4 then
        (d, ans stBadField)
      else if !(if path = 0 then d.csiUp port else d.ethUp port) || b.lost || d.bufHeld id b || 4 ≤ d.ing.bulk.length then
        (d, ans stNoResource)
      else
        accept r ch.val d fun h d =>
          let x : Bulk := ⟨h, path, port, id, r.u 8 8, r.u 16 4, r.u 20 4, []⟩
          ({ d with ing := { d.ing with bulk := d.ing.bulk ++ [x] } }).markBulk id true) s

/-! ## Bulk packets (R275, R276) -/

/-- A range added to a rising list of ranges apart. -/
def addRange : List (Nat × Nat) → Nat → Nat → List (Nat × Nat)
  | [], a, b => [(a, b)]
  | (x, y) :: t, a, b =>
    if b < x then (a, b) :: (x, y) :: t
    else if y < a then (x, y) :: addRange t a b
    else addRange t (min a x) (max b y)

/-- A transfer closed with a status. -/
def Device.bulkEnd (d : Device) (x : Bulk) (status : Nat) : Device :=
  (({ d with ing := { d.ing with bulk := d.ing.bulk.filter fun y => y.handle != x.handle } }).markBulk x.buf false).finish
    x.handle status []

/-- One bulk packet on a path and port: written, or none when its header is invalid. -/
def bulkPacket (path port : Nat) (bs : List Byte) (d : Device) (m : Store) : Option (Device × Store) :=
  let f := fun o n => leNat ((bs.drop o).take n)
  let len := f 2 2
  let off := f 8 8
  match d.ing.bulk.find? fun x => x.handle == f 4 4 && x.path == path && x.port == port with
  | none => none
  | some x =>
    if bs.length < 16 + len || f 0 2 ≠ 0x4B42 || x.length < off + len || off % 64 ≠ 0 || len = 0
        || (len % 64 ≠ 0 && off + len ≠ x.length) then none
    else if ((d.mbx.handles.look x.handle).map (·.cancel)).getD false then some (d.bulkEnd x stCancelled, m)
    else
      let (d, m) := fwWrite x.buf (x.off + off) ((bs.drop 16).take len) d m
      let x' := { x with got := addRange x.got off (off + len) }
      let d := { d with ing := { d.ing with bulk := d.ing.bulk.map fun y => if y.handle = x.handle then x' else y } }
      if x'.got = [(0, x.length)] then
        some (d.bulkEnd x' (if crc32c (fwRead d m x.buf x.off x.length) = x.crc then stOk else stBadCrc), m)
      else some (d, m)

/-! ## CSI-2 receive -/

/-- A violation on a receive port (R243). -/
def Device.csiLog (d : Device) (p code detail : Nat) : Device := d.streamLog p 3 p code detail

/-- Detail of a packet header: virtual channel and data type. -/
def vcdt (vc dt : Nat) : Nat := vc % 256 * 256 + dt % 256

/-- The exposure of a closing frame in ns and half of it in 2^-16 ns, with EXPO_STALE (R212, R241). -/
def exposureOf (b : Int) (c : CsiPort) (f : OpenFrame) : Nat × Int × Bool :=
  if b ≠ 0 then ((rne b oneNs).toNat, rne b 2, false)
  else
    let ns := f.expo.getD c.lastExpo
    (ns, rne ((ns * oneNs : Nat) : Int) 2, f.expo.isNone)

/-- The line mask of a frame, one bit a line, padded to 8 bytes (R238). -/
def lineMask (height : Nat) (masked : List Nat) : List Byte :=
  leBytes ((height + 63) / 64 * 8) (masked.foldl (fun n l => Nat.lor n (2 ^ l)) 0)

/-- The record of a frame (R238), unpaired. -/
def frameRecord (stream status dt seq : Nat) (dts fs : BitVec 128) (c : CsiPort) (rx masked expo num : Nat) : List Byte :=
  leBytes 2 stream ++ leBytes 1 status ++ leBytes 1 dt ++ leBytes 4 seq ++ leBytes 16 dts.toNat ++ leBytes 16 fs.toNat
    ++ leBytes 2 c.width ++ leBytes 2 c.height ++ leBytes 2 rx ++ leBytes 2 masked ++ leBytes 4 c.strideBytes
    ++ leBytes 4 expo ++ leBytes 2 num ++ leBytes 2 0xFFFF ++ leBytes 4 0xFFFFFFFF

/-- The partner of a frame written into its record, if its buffer still holds it (R271). -/
def setPartner (s slot seq ps pseq : Nat) (d : Device) (m : Store) : Device × Store :=
  let x := d.stream s
  match x.frames.look slot with
  | some f =>
    if f.seq ≠ seq then (d, m) else
      let d := d.updStream s fun x => { x with frames := x.frames.put slot { f with partner := some (ps, pseq) } }
      fwWrite (x.bufs.getD slot 0) 58 (leBytes 2 ps ++ leBytes 4 pseq) d m
  | none => (d, m)

/-- A frame released unpaired (R271, R273). -/
def Device.releaseUnpaired (d : Device) (h : HeldFrame) : Device :=
  let p := d.pair (h.stream / 2)
  let d := d.updStream h.stream fun x => { x with unpaired := min (x.unpaired + 1) 0xFFFFFFFF }
  d.setPair (h.stream / 2) { p with
    unpairedRun := if h.stream % 2 = 0 then p.unpairedRun + 1 else p.unpairedRun, pairRun := 0, held := none }

/-- Two frames of a pair joined (R271, R272): partners written, the SEQ offset kept, a slip raised. -/
def joinPair (f g : HeldFrame) (d : Device) (m : Store) : Device × Store :=
  let k := f.stream / 2
  let p := d.pair k
  let (pr, se) := if f.stream % 2 = 0 then (f, g) else (g, f)
  let off : Int := (se.seq : Int) - pr.seq
  let slip := match p.offset with | some o => o != off | none => false
  let (d, m) := setPartner f.stream f.slot f.seq g.stream g.seq d m
  let (d, m) := setPartner g.stream g.slot g.seq f.stream f.seq d m
  let d := d.setPair k { p with
    held := none, offset := some off, unpairedRun := 0, pairRun := p.pairRun + 1, newest := some (pr.slot, se.slot) }
  if slip then
    let d := d.updStream (2 * k + 1) fun x => { x with slips := min (x.slips + 1) 0xFFFFFFFF }
    (d.event 0x0002 6 k (unsigned 32 off) (d.stream (2 * k + 1)).slips, m)
  else (d, m)

/-- A closed frame offered to its pair (R271): joined with the held frame of the other stream, or held in its place. -/
def offerPair (f : HeldFrame) (d : Device) (m : Store) : Device × Store :=
  let k := f.stream / 2
  let p := d.pair k
  if !p.enabled then (d, m) else
    match p.held with
    | none => (d.setPair k { p with held := some f }, m)
    | some g =>
      let diff := ((f.moment : Int) - g.moment).natAbs
      if g.stream ≠ f.stream && 4 * diff ≤ p.period * 1000 * oneNs then joinPair f g d m
      else
        let d := d.releaseUnpaired g
        (d.setPair k { d.pair k with held := some f }, m)

/-- A port's open frame closed (R238, R241, R242): missing lines masked, stamped, recorded, judged and offered to its
pair. A frame that had no buffer is only dropped. DEDUCED: log entry 47. -/
def closeFrame (p : Nat) (incomplete : Bool) (d : Device) (m : Store) : Device × Store :=
  let c := d.csi p
  match c.frame with
  | none => (d, m)
  | some f =>
    let cmp := d.comp 0 p
    let d := if c.height < f.linesRx then d.csiLog p 0x08 f.linesRx else d
    let (expo, half, stale) := exposureOf cmp.b c f
    let c := { c with frame := none, lastExpo := if cmp.b = 0 then expo else c.lastExpo }
    match f.slot with
    | none => (d.setCsi p c, m)
    | some slot =>
      let lost := (List.range (c.height - f.pos)).map (f.pos + ·)
      let masked := f.masked ++ lost
      let moment := match f.pulse with
        | some q => ((q : Int) + cmp.a + half).toNat
        | none => ((f.arrival : Int) - cmp.c).toNat
      let c := { c with untriggered := if f.pulse.isNone then c.untriggered + 1 else c.untriggered }
      let x := d.stream p
      let usable := decide (masked.length * 100 ≤ x.usablePct * c.height)
      let d := (d.setCsi p c).judge p usable
      let status : Nat := b2n incomplete + 2 * b2n f.pulse.isNone + 4 * b2n stale + 8 * b2n (!usable) + 16 * (b2n (d.maskedNow p))
      let dts := d.stampAt (p / 2) moment
      let rec_ := frameRecord p status f.dt f.seq dts (d.stampAt (p / 2) f.arrival) c f.linesRx masked.length expo f.frameNum
      let id := x.bufs.getD slot 0
      let (d, m) := fwWrite id 0 (rec_ ++ lineMask c.height masked) d m
      let d := d.updStream p fun x => { x with
        dts := dts, lastSeq := f.seq, frames := x.frames.put slot ⟨f.seq, dts, c.height, true, status, none⟩ }
      offerPair ⟨p, slot, f.seq, moment⟩ d m

/-- A port takes packets while its stream is on and its port is up. -/
def Device.csiTakes (d : Device) (p : Nat) : Bool := decide ((d.stream p).state ≠ .off) && d.csiUp p

/-- A header with a single-bit error is logged and used (R243, code 0x01). -/
def Device.csiHeader (d : Device) (p ecc vc dt : Nat) : Device :=
  if ecc = 1 then d.csiLog p 0x01 (vcdt vc dt) else d

/-- A frame begins (R239): the oldest buffer that no job holds, or none. -/
def Device.openFrame (d : Device) (p num : Nat) : Device :=
  let x := d.stream p
  let c := d.csi p
  let slot := x.order.find? fun k => !d.slotHeld p k
  let gap := match c.lastNum with
    | some n => b2n (num % 65536 != (n + 1) % 65536)
    | none => 0
  let f : OpenFrame := ⟨slot, x.seq, d.time.now, d.time.ns16, d.pulseBefore (d.comp 0 p).link d.time.ns16, num, c.dt,
    0, 0, [], none⟩
  let d := d.setCsi p { c with frame := some f, lastNum := some num, gaps := c.gaps + gap, lineCount := 0 }
  d.updStream p fun x => { x with
    seq := (x.seq + 1) % 2 ^ 32
    nobuf := if slot.isNone then min (x.nobuf + 1) 0xFFFFFFFF else x.nobuf
    order := match slot with
      | some k => x.order.filter (· != k) ++ [k]
      | none => x.order
    frames := match slot with
      | some k => x.frames.put k ⟨f.seq, 0, 0, false, 0, none⟩
      | none => x.frames }

/-- CSI_FRAME_START (R238, R239, R243). -/
def execCsiFrameStart (port : Fin 16) (vc frameNum ecc : Nat) (at_ : Nat) (s : State) :
    Host.Outcome State Fault Refusal :=
  onBoth (fun d m =>
    let p := port.val
    let d := d.advanceTo at_
    if !d.csiTakes p then (d, m)
    else if ecc = 2 then (d.csiLog p 0x02 0, m)
    else
      let d := d.csiHeader p ecc vc 0
      if vc ≠ (d.csi p).vc then (d.csiLog p 0x09 (vcdt vc 0), m)
      else
        match (d.csi p).frame with
        | none => (d.openFrame p frameNum, m)
        | some f =>
          let (d, m) := closeFrame p true (d.csiLog p 0x05 f.frameNum) m
          (d.openFrame p frameNum, m)) s

/-- The bytes of a stored line: pixels cut or zero-filled to WIDTH (R237, R243). -/
def lineBytes (c : CsiPort) (pixels : List Nat) : List Byte :=
  (pixels.take c.width).flatMap (fun v => leBytes (pixelBytes c.dt) v)
    ++ zeros ((c.width - pixels.length) * pixelBytes c.dt)

/-- The next line of an open frame lands (R240, R243). DEDUCED: log entry 47. -/
def landLine (p : Nat) (crcOk : Bool) (pixels : List Nat) (words : Nat) (d : Device) (m : Store) : Device × Store :=
  let c := d.csi p
  match c.frame with
  | none => (d, m)
  | some f =>
    let i := f.pos
    if c.height ≤ i then
      (d.setCsi p { c with frame := some { f with linesRx := f.linesRx + 1 } }, m)
    else
      let long := c.width < pixels.length
      let short := pixels.length < c.width
      let d := if long then d.csiLog p 0x06 words else if short then d.csiLog p 0x07 words else d
      let d := if crcOk then d else d.csiLog p 0x03 i
      let bad := long || short || !crcOk
      let f := { f with pos := i + 1, linesRx := f.linesRx + 1, masked := if bad then f.masked ++ [i] else f.masked }
      let d := d.setCsi p { d.csi p with frame := some f, lineCount := f.pos / 64 * 64 }
      match f.slot with
      | none => (d, m)
      | some k =>
        let d := d.updStream p fun x => { x with
          frames := x.frames.upd k ⟨f.seq, 0, 0, false, 0, none⟩ fun g => { g with lines := f.pos / 64 * 64 } }
        fwWrite ((d.stream p).bufs.getD k 0) (4096 + c.strideBytes * i) (lineBytes c pixels) d m

/-- CSI_LINE_PACKET (R236, R237, R240, R243). A line whose header is uncorrectable is lost and masked. -/
def execCsiLinePacket (port : Fin 16) (vc dt ecc : Nat) (crcOk : Bool) (pixels : List Nat) (words : Nat) (s : State) :
    Host.Outcome State Fault Refusal :=
  onBoth (fun d m =>
    let p := port.val
    if !d.csiTakes p then (d, m)
    else if ecc = 2 then
      let d := d.csiLog p 0x02 0
      match (d.csi p).frame with
      | some f =>
        if f.pos < (d.csi p).height then
          (d.setCsi p { d.csi p with frame := some { f with pos := f.pos + 1, masked := f.masked ++ [f.pos] } }, m)
        else (d, m)
      | none => (d, m)
    else
      let d := d.csiHeader p ecc vc dt
      if vc ≠ (d.csi p).vc || dt ≠ (d.csi p).dt then (d.csiLog p 0x09 (vcdt vc dt), m)
      else landLine p crcOk pixels words d m) s

/-- CSI_EMBEDDED_DATA (R236, R241): the exposure, when B is 0 and no image line has come. -/
def execCsiEmbeddedData (port : Fin 16) (vc ecc : Nat) (bytes : List Byte) (s : State) :
    Host.Outcome State Fault Refusal :=
  onDev (fun d =>
    let p := port.val
    if !d.csiTakes p then d
    else if ecc = 2 then d.csiLog p 0x02 0
    else
      let d := d.csiHeader p ecc vc 0x12
      let c := d.csi p
      if vc ≠ c.vc then d.csiLog p 0x09 (vcdt vc 0x12)
      else
        match c.frame with
        | some f =>
          if f.pos = 0 && f.linesRx = 0 && f.expo.isNone && c.embOff ≠ 0xFFFF && c.embOff + c.embLen ≤ bytes.length then
            let bs := (bytes.drop c.embOff).take c.embLen
            let raw := if c.embOrder = 0 then leNat bs else beNat bs
            d.setCsi p { c with frame := some { f with expo := some (rne ((raw * c.embUnit : Nat) : Int) 65536).toNat } }
          else d
        | none => d) s

/-- CSI_FRAME_END (R238). -/
def execCsiFrameEnd (port : Fin 16) (vc ecc : Nat) (at_ : Nat) (s : State) : Host.Outcome State Fault Refusal :=
  onBoth (fun d m =>
    let p := port.val
    let d := d.advanceTo at_
    if !d.csiTakes p then (d, m)
    else if ecc = 2 then (d.csiLog p 0x02 0, m)
    else
      let d := d.csiHeader p ecc vc 1
      if vc ≠ (d.csi p).vc then (d.csiLog p 0x09 (vcdt vc 1), m) else closeFrame p false d m) s

/-- FRAME_TIMEOUT (R242, R243). -/
def execFrameTimeout (port : Fin 16) (s : State) : Host.Outcome State Fault Refusal :=
  onBoth (fun d m =>
    let p := port.val
    match (d.csi p).frame with
    | some f =>
      let d := d.advanceTo (f.startAt + (d.csi p).frameTimeout * 1000 * oneNs)
      closeFrame p true (d.csiLog p 0x04 f.linesRx) m
    | none => (d, m)) s

/-- CSI_BULK_PACKET (R236, R275): user-defined data types on BULK_VC. -/
def execCsiBulkPacket (port : Fin 16) (vc dt ecc : Nat) (bytes : List Byte) (s : State) :
    Host.Outcome State Fault Refusal :=
  onBoth (fun d m =>
    let p := port.val
    if !d.csiUp p then (d, m)
    else if ecc = 2 then (d.csiLog p 0x02 0, m)
    else
      let d := d.csiHeader p ecc vc dt
      let c := d.csi p
      if c.bulkVc = 0xFF || vc ≠ c.bulkVc || dt < 0x30 || 0x37 < dt then (d.csiLog p 0x09 (vcdt vc dt), m)
      else
        match bulkPacket 0 p bytes d m with
        | some x => x
        | none => (d.csiLog p 0x0A (leNat ((bytes.drop 4).take 4)), m)) s

/-! ## Pairs and streams -/

/-- PAIR_LOST (R273): 8 consecutive primary frames released unpaired. -/
def execPairLost (pair : Fin 8) (s : State) : Host.Outcome State Fault Refusal :=
  onDev (fun d =>
    let p := d.pair pair.val
    if p.enabled && !p.lost && 8 ≤ p.unpairedRun then
      (d.setPair pair.val { p with lost := true, pairRun := 0 }).event 0x0003 6 pair.val 2 0
    else d) s

/-- PAIR_RECOVER (R273): 3 consecutive pairs. -/
def execPairRecover (pair : Fin 8) (s : State) : Host.Outcome State Fault Refusal :=
  onDev (fun d =>
    let p := d.pair pair.val
    if p.enabled && p.lost && 3 ≤ p.pairRun then
      (d.setPair pair.val { p with lost := false, unpairedRun := 0 }).event 0x0003 6 pair.val 1 0
    else d) s

/-- STREAM_DROPOUT (R230): no usable sample for TIMEOUT. -/
def execStreamDropout (stream : Nat) (s : State) : Host.Outcome State Fault Refusal :=
  onDev (fun d =>
    let x := d.stream stream
    let t := d.streamTimeout stream
    if stream < 30 && t ≠ 0 && (x.state = .waitFirst || x.state = .active) then
      let d := d.advanceTo (x.timerAt + t)
      (d.updStream stream fun x => { x with good := 0, dropouts := min (x.dropouts + 1) 0xFFFFFFFF }).streamTo stream
        .dropout
    else d) s

/-- STREAM_RECOVER (R230): RECOVER consecutive usable samples. -/
def execStreamRecover (stream : Nat) (s : State) : Host.Outcome State Fault Refusal :=
  onDev (fun d =>
    let x := d.stream stream
    if stream < 30 && x.state = .dropout && d.streamRecover stream ≤ x.good then
      (d.updStream stream fun x => { x with good := 0, timerAt := d.time.now }).streamTo stream .active
    else d) s

/-- Streams of a die or port that goes down turn OFF (R230). -/
def Device.streamsDown (d : Device) : Device :=
  let ids : List Nat := List.range 30 ++ (List.range 8).map (128 + ·)
  ids.foldl (fun d s => if (d.stream s).state ≠ .off && !d.streamUp s then d.stopStream s else d) d

end Sys2Proof.Machine
end

