-- ==== Sys2Proof/Machine/Memory.lean ====
section
/-! DEFINITION. The memory family: prefetch schedules and windows (R406 to R411), requests at a home slice (R399 to
R403), the patrol scrub (R385), and the memory commands (R414, R415). -/

namespace Sys2Proof.Machine

/-! ## Schedules -/

/-- Whether a landing range lies in blocks the job holds in a cluster (R346, R408). -/
def Device.holdsBlocks (d : Device) (job c off n : Nat) : Bool :=
  off + n ≤ 2097152 &&
    (List.range ((off % 32768 + n + 32767) / 32768)).all fun k =>
      (d.cluster c).blocks.getD (off / 32768 + k) 0 == job

/-- A fault of the CP DMA of a die under a job. -/
def Device.dmaFault (d : Device) (job cause die : Nat) (addr : Option Nat) : Device :=
  d.jobFault job cause 6 die 0 addr 0

/-- A CP DMA access error faults the job (R364, R383, R387). -/
def Device.dmaError (d : Device) (job die : Nat) (e : AccessError) : Device :=
  match e with
  | .ecc pa =>
    let c := pa / 2 ^ 34
    let d := d.dmaFault job 0x05 die (some pa)
    ({ d with memsys := { d.memsys with ue := d.memsys.ue.upd c 0 (· + 1) } }).diagAdd (c / 2) (0x180 + 4 * (c % 2)) 16 16 1
  | .completion pa => d.dmaFault job 0x06 die (some pa)

/-- The copy of one entry (R407, R408): into the landing, or back to the buffer; then its signal. -/
def schedCopy (job : Nat) (j : Job) (x : SchedEntry) (c lbase fbase : Nat) (d : Device) (m : Store) : Device × Store :=
  let die := c / 8
  let land := lbase + x.dest
  let g := j.grants.getD x.slot ⟨0, 0, 0, 0⟩
  let toT3 := bit x.flags 1
  let sig := resolveFlag fbase x.sigFlag
  let done := fun (d : Device) =>
    let d := if sig = 0xFFFF then d else d.signal ⟨c, sig, 1, false⟩
    match d.job job with
    | some j => d.setJob job { j with schedPos := j.schedPos + 1 }
    | none => d
  match d.buf g.buf with
  | none => (d.dmaFault job 0x03 die none, m)
  | some b =>
    if j.grants.length ≤ x.slot || b.size < x.offset + x.len || !d.holdsBlocks job c land x.len
        || (toT3 && g.access == 0) || (sig != 0xFFFF && !d.holdsFlag job c sig) then
      (d.dmaFault job 0x03 die (if x.offset < b.size then some (b.addr x.offset) else none), m)
    else if toT3 then
      match d.bufStore m g.buf x.offset (m.sramRead (landAddr c land) x.len) with
      | .error e => (d.dmaError job die e, m)
      | .ok (d, m) => (done d, m)
    else
      match d.bufRead m g.buf x.offset x.len with
      | .error e => (d.dmaError job die e, m)
      | .ok bs => (done d, m.sramWrite (landAddr c land) bs)

/-- The next entry of a running job's schedule runs once its wait flag is met and, for a window slot, the previous load
is done, as list order makes it (R406, R410). `window` says which kind of entry is served. -/
def schedNext (job : Nat) (window : Bool) (d : Device) (m : Store) : Device × Store :=
  match d.job job with
  | none => (d, m)
  | some j =>
    if j.state ≠ .running || j.schedLen ≤ j.schedPos then (d, m) else
      let x := schedEntry j.sched j.schedPos
      if bit x.flags 0 != window then (d, m) else
        match j.partBase x.part with
        | none => (d.dmaFault job 0x03 d.lead none, m)
        | some (c, lbase, fbase) =>
          let wf := resolveFlag fbase x.waitFlag
          if wf ≠ 0xFFFF && !d.holdsFlag job c wf then (d.dmaFault job 0x03 (c / 8) none, m)
          else if !d.waitMet c wf x.waitCount then (d, m)
          else schedCopy job j x c lbase fbase d m

/-- SCHED_ENTRY_COPY (R406 to R408). -/
def execSchedEntryCopy (job : Nat) (s : State) : Host.Outcome State Fault Refusal := onBoth (schedNext job false) s

/-- WINDOW_SLOT_LOAD (R410). -/
def execWindowSlotLoad (job : Nat) (s : State) : Host.Outcome State Fault Refusal := onBoth (schedNext job true) s

/-! ## Requests at the home slice -/

/-- The job that holds the buffer of a physical address with access RW (R403). -/
def Device.rwHolder (d : Device) (pa : Nat) : Option Nat :=
  let p := pa / 2 ^ 34 * 8192 + pa % 2 ^ 34 / pitchSize
  (d.jobs.table.find? fun e => e.2.holds && e.2.grants.any fun g =>
    g.access != 0 && (match d.buf g.buf with | some b => b.pitches.elem p | none => false)).map (·.1)

/-- A sector from now on decodes as uncorrectable (R383, R403). -/
def Device.markBad (d : Device) (pa : Nat) : Device :=
  { d with memsys := { d.memsys with bad := insertNat (pa / 64) d.memsys.bad } }

/-- One sector of a way invalidated. -/
def Way.drop (w : Way) (pa : Nat) : Way :=
  if w.has (mscTag pa) then (if pa % 128 < 64 then { w with v0 := false, d0 := false }
    else { w with v1 := false, d1 := false }) else w

/-- A sector leaves the slice without a write-back. -/
def Device.dropSector (d : Device) (pa : Nat) : Device :=
  let st := d.memsys.msc.getD (mscKey pa) MscSet.empty
  { d with memsys := { d.memsys with msc := d.memsys.msc.put (mscKey pa) ⟨st.ways.map (·.drop pa), st.plru⟩ } }

/-- An uncorrectable error found in a dirty sector of the slice as it is written back (R403): marked, logged, and the job
that holds its buffer with RW faults with cause ECC. -/
def Device.evictBad (d : Device) (pa : Nat) : Device :=
  let d := ((d.dropSector pa).markBad pa).logAccess 12 (.ecc pa)
  match d.rwHolder pa with
  | some j => d.jobFault j 0x05 12 (pa / 2 ^ 35) (pa / 2 ^ 34) (some pa) 0
  | none => d

/-- What the error codes of the channel or of the slice's SRAM did in one request (R382, R383, R403). -/
def Device.mscEcc (d : Device) (pa : Nat) (e : EccHit) (held dirty : Bool) : Device :=
  match e with
  | .clean => d
  | .corrected => if held then d else
      let d := d.countCorrected (pa / 2 ^ 34)
      { d with memsys := d.memsys.dirtySector pa }
  | .uncorrectable => if held then d else ((d.dropSector pa).markBad pa).logAccess 12 (.ecc pa)
  | .sliceData => if !held then d else if dirty then (d.markBad pa).logAccess 12 (.ecc pa) else d.countCorrected (pa / 2 ^ 34)
  | .victim => if dirty then d.evictBad pa else d

/-- MSC_REQUEST (R398 to R403): one operation of up to 128 bytes on one line reaches its home slice. A hole or a
channel that is off gives an error completion (R387), which reaches its requester through MEM_COMPLETION. For
`victim`, `pa` is the dirty sector that the slice evicts. -/
def execMscRequest (pa len : Nat) (write : Bool) (policy : Fin 3) (ecc : EccHit) (s : State) :
    Host.Outcome State Fault Refusal :=
  onDev (fun d =>
    let c := pa / 2 ^ 34
    if 16 ≤ c || !d.channelUp c || d.mscTested c || d.density * 2 ^ 30 ≤ pa % 2 ^ 34 || len = 0 || 128 < pa % 128 + len then d
    else
      let held := d.memsys.holdsSector pa
      let dirty := d.memsys.isDirty pa
      if ecc = .victim then d.mscEcc pa ecc held dirty
      else
        let d := d.mscAccess pa len policy.val write
        if write then { d with memsys := d.memsys.renew pa len } else d.mscEcc pa ecc held dirty) s

/-- PATROL_SCRUB (R385): the next sector of a channel is read through the slice; one that the slice holds is skipped. -/
def execPatrolScrub (channel : Fin 16) (ecc : EccHit) (s : State) : Host.Outcome State Fault Refusal :=
  onDev (fun d =>
    let c := channel.val
    if !d.channelUp c || d.density = 0 || d.mscTested c then d else
      let sectors := d.density * 2 ^ 24
      let k := d.memsys.scrub.getD c 0 % sectors
      let pa := c * 2 ^ 34 + k * 64
      let d := if d.memsys.holdsSector pa then d
        else if d.memsys.bad.elem (pa / 64) || ecc = .uncorrectable then (d.markBad pa).logAccess 12 (.ecc pa)
        else if ecc = .corrected then (d.countCorrected c).countPayload c true 64
        else d
      let k' := (k + 1) % sectors
      let d := { d with memsys := { d.memsys with scrub := d.memsys.scrub.put c k' } }
      d.diagSet (c / 2) (0x1A8 + 4 * (c % 2)) 0 24 (k' * 64 / pitchSize)) s

/-! ## Commands -/

/-- MEM_STATUS (R414). -/
def execMemStatus (ch : Fin 8) (s : State) : Host.Outcome State Fault Refusal :=
  query 0x0600 ch (fun _ d =>
    ans stOk (leBytes 2 d.boot.memCap ++ leBytes 1 d.boot.lpRate ++ zeros 1 ++
      (List.range 16).flatMap fun c =>
        leBytes 2 (if d.channelUp c then d.poolPitches c - d.memsys.takenOn c else 0)
          ++ leBytes 1 (b2n !(d.channelUp c)) ++ zeros 1
          ++ leBytes 4 (min 0xFFFFFFFF (d.memsys.ce.getD c 0)) ++ leBytes 4 (min 0xFFFFFFFF (d.memsys.ue.getD c 0)))) s

/-- Whether TARGET suits PLACEMENT (R414). -/
def targetOk (placement target : Nat) : Bool :=
  match placement with
  | 0 => target < 16
  | 1 => target < 8
  | _ => target == 0

/-- BUF_ALLOC (R390, R391). -/
def execBufAlloc (ch : Fin 8) (s : State) : Host.Outcome State Fault Refusal :=
  command 0x0601 ch (fun r d =>
    let n := (r.u 0 8 + pitchSize - 1) / pitchSize
    if !targetOk (r.u 8 1) (r.u 9 1) then (d, ans stBadField) else
      match d.allocHost (r.u 8 1) (r.u 9 1) n with
      | none => (d, ans stNoResource)
      | some (id, d) => (d, ans stOk (leBytes 4 id ++ leBytes 4 n))) s

/-- BUF_FREE (R395, R396). -/
def execBufFree (ch : Fin 8) (s : State) : Host.Outcome State Fault Refusal :=
  command 0x0602 ch (fun r d =>
    let id := r.u 0 4
    match d.buf id with
    | none => (d, ans stBadField)
    | some b =>
      if !isHostBuf id || (!b.lost && d.bufHeld id b) then (d, ans stBadState)
      else (d.freeBuf id, ans stOk)) s

/-- The state code of a buffer (R395, R414). -/
def Device.bufState (d : Device) (id : Nat) (b : Buffer) : Nat := if b.lost then 2 else b2n (d.bufHeld id b)

/-- BUF_INFO (R414, R415). -/
def execBufInfo (ch : Fin 8) (s : State) : Host.Outcome State Fault Refusal :=
  query 0x0603 ch (fun r d =>
    match d.buf (r.u 0 4) with
    | none => ans stBadField
    | some b =>
      let first := r.u 4 4
      if b.pitches.length < first then ans stBadField else
        let ps := (b.pitches.drop first).take 500
        ans stOk (leBytes 1 (d.bufState (r.u 0 4) b) ++ leBytes 1 b.placement ++ zeros 2 ++ leBytes 8 b.size
          ++ leBytes 4 b.pitches.length ++ leBytes 4 first ++ leBytes 4 ps.length
          ++ ps.flatMap fun p => leBytes 8 (pitchBase p))) s

/-- MEM_READ (R395, R415): an access error is logged and answers FAILED. DEDUCED: log entry 48. -/
def execMemRead (ch : Fin 8) (s : State) : Host.Outcome State Fault Refusal :=
  commandRead 0x0604 ch (fun r d m =>
    match d.buf (r.u 0 4) with
    | none => (d, ans stBadField)
    | some b =>
      let off := r.u 8 8
      let n := r.u 16 4
      if b.size < off + n then (d, ans stBadField)
      else if b.lost then (d, ans stNoResource)
      else
        match d.bufRead m (r.u 0 4) off n with
        | .error e => (d.logAccess 10 e, ans stFailed)
        | .ok bs => (d, ans stOk (leBytes 8 off ++ leBytes 4 n ++ zeros 4 ++ bs))) s

/-- MEM_WRITE (R395, R415): into a READY host buffer. -/
def execMemWrite (ch : Fin 8) (s : State) : Host.Outcome State Fault Refusal :=
  commandMem 0x0605 ch (fun r d m =>
    match d.buf (r.u 0 4) with
    | none => ((d, m), ans stBadField)
    | some b =>
      let off := r.u 8 8
      let n := r.u 16 4
      if b.size < off + n then ((d, m), ans stBadField)
      else if b.lost then ((d, m), ans stNoResource)
      else if !isHostBuf (r.u 0 4) || d.bufHeld (r.u 0 4) b then ((d, m), ans stBadState)
      else
        match d.bufStore m (r.u 0 4) off (r.bytes 24 n) with
        | .error e => ((d.logAccess 10 e, m), ans stFailed)
        | .ok x => (x, ans stOk)) s

end Sys2Proof.Machine
end

