-- ==== Sys2Proof/Machine/Jobs.lean ====
section
/-! DEFINITION. Job images and their checks (R741 to R744), JOB_SUBMIT, the job queries and settings (R749), placement
(R712, R714), and the faults and restarts of jobs (R727 to R733). -/

namespace Sys2Proof.Machine

/-! ## Images (R741 to R744) -/

/-- A range lies inside an image. -/
def inImage (img : List Byte) (off n : Nat) : Bool := off + n ≤ img.length

/-- The header's own checks (R741). -/
def imageHeaderOk (img : List Byte) (nbuf : Nat) : Bool :=
  64 ≤ img.length && imgField img 0 4 == 0x424F4A4B && imgField img 4 2 == 1
    && imgField img 6 1 == nbuf && 1 ≤ nbuf && nbuf ≤ 64
    && 1 ≤ imgField img 7 1 && imgField img 7 1 ≤ 64
    && imgField img 16 8 == img.length && imgField img 52 8 == 0 && imgField img 60 4 == 0
    && inImage img 64 (8 * nbuf) && inImage img (imgField img 24 8) (32 * imgField img 7 1)
    && inImage img (imgField img 32 8) (16 * imgField img 8 4)
    && inImage img (imgField img 40 8) (32 * imgField img 12 4)

/-- Whether `n` load records from `off` are well formed for a part of `units` (R742, R367). -/
def loadListOk (img : List Byte) (units : Nat) : Nat → Nat → Bool
  | 0, _ => true
  | k + 1, off =>
    let f := fun o n => imgField img (off + o) n
    let len := f 8 2
    inImage img off 16 && inImage img (off + 16) len && f 1 1 ≤ 2 && f 10 6 == 0
      && f 2 2 != 0 && f 2 2 < 2 ^ units && 64 ≤ len && len ≤ 4032 && len % 64 == 0
      && f 4 4 % 64 == 0 && f 4 4 + len ≤ 131072
      && (if f 1 1 = 0 then f 4 4 + len ≤ 0x4000 else 0x4000 ≤ f 4 4)
      && loadListOk img units k (off + 16 + len)

/-- Part entry `i` (R742). -/
def partOk (img : List Byte) (i : Nat) : Bool :=
  let f := fun o n => imgField img (imgField img 24 8 + 32 * i + o) n
  1 ≤ f 1 1 && f 1 1 ≤ 16 && f 1 1 ≤ f 2 1 && f 2 1 ≤ 64 && f 1 1 ≤ f 3 1 && f 3 1 ≤ 32 && f 4 4 == 0
    && f 20 8 == 0 && f 28 4 == 0 && f 16 4 ≤ img.length && loadListOk img (f 1 1) (f 16 4) (f 8 8)

/-- Relocation `i` (R743). -/
def relocOk (img : List Byte) (i : Nat) : Bool :=
  let f := fun o n => imgField img (imgField img 32 8 + 16 * i + o) n
  let part := fun p o => imgField img (imgField img 24 8 + 32 * p + o) 1
  let npart := imgField img 7 1
  f 0 1 < npart && f 1 1 < part (f 0 1) 1 && f 4 1 ≤ 4 && f 5 1 ≤ 2
    && (if 3 ≤ f 4 1 then f 5 1 == 2 else f 5 1 != 2)
    && (match f 5 1 with
        | 0 => f 6 2 < imgField img 6 1
        | 1 => f 6 2 / 256 < npart && f 6 2 % 256 < part (f 6 2 / 256) 2 && f 8 8 < 32768
        | _ => f 6 2 / 256 < npart && f 6 2 % 256 < part (f 6 2 / 256) 3 && f 8 8 < 32)

/-- Schedule entry `i` (R407, R743). -/
def schedOk (img : List Byte) (i : Nat) : Bool :=
  let f := fun o n => imgField img (imgField img 40 8 + 32 * i + o) n
  let layer := fun k => imgField img (imgField img 40 8 + 32 * k) 2
  (i == 0 || layer (i - 1) ≤ layer i) && (f 2 2 == 0xFFFF || 1 ≤ f 4 2) && f 6 1 < imgField img 7 1 && f 7 1 < 4
    && f 8 4 < imgField img 6 1 && f 12 4 == 0 && f 16 8 % 64 == 0 && 1 ≤ f 24 2 && f 24 2 ≤ 32768 && f 30 2 == 0

/-- The checks of R744 in order: ERROR and INDEX of the first that fails. `bind i access pitches` says whether
buffer slot `i` is bound well. DEDUCED: log entry 16. -/
def imageError (img : List Byte) (nbuf : Nat) (bind : Nat → Nat → Nat → Bool) : Option (Nat × Nat) :=
  if !imageHeaderOk img nbuf then some (1, 0)
  else if crc32c (img.drop 64) ≠ imgField img 48 4 then some (2, 0)
  else
    let b := fun i o n => imgField img (64 + 8 * i + o) n
    match firstBelow nbuf fun i =>
        !(b i 0 1 ≤ 2 && b i 1 1 ≤ 2 && b i 2 2 == 0 && bind i (b i 0 1) (b i 4 4)) with
    | some i => some (3, i)
    | none =>
      match firstBelow (imgField img 7 1) fun i => !partOk img i with
      | some i => some (4, i)
      | none =>
        match firstBelow (imgField img 8 4) fun i => !relocOk img i with
        | some i => some (5, i)
        | none => (firstBelow (imgField img 12 4) fun i => !schedOk img i).map fun i => (6, i)

/-- The parts of a checked image. -/
def imageParts (img : List Byte) : List Part :=
  (List.range (imgField img 7 1)).map fun i =>
    let f := fun o n => imgField img (imgField img 24 8 + 32 * i + o) n
    ⟨BitVec.ofNat 8 (f 0 1), f 1 1, f 2 1, f 3 1, none, [], [], [], [], f 8 8, f 16 4, 0, 0⟩

/-- The grants of a checked image bound to buffers. -/
def imageGrants (img : List Byte) (bufs : List Nat) : List Grant :=
  (List.range (imgField img 6 1)).map fun i =>
    ⟨bufs.getD i 0, imgField img (64 + 8 * i) 1, imgField img (65 + 8 * i) 1, 0⟩

/-- The schedule bytes of a checked image. -/
def imageSched (img : List Byte) : List Byte := imgBytes img (imgField img 40 8) (32 * imgField img 12 4)

/-- Whether a schedule holds WINDOW entries, which makes its job privileged (R409). -/
def hasWindow (sched : List Byte) : Bool :=
  (List.range (sched.length / 32)).any fun i => bit (imgField sched (32 * i + 7) 1) 0

/-- Binding of a USER job's buffer slot (R744, error 3). -/
def Device.bindOk (d : Device) (bufs : List Nat) (i access pitches : Nat) : Bool :=
  match d.buf (bufs.getD i 0) with
  | some b => isHostBuf (bufs.getD i 0) && pitches ≤ b.pitches.length && (access != 0 || d.bufReady (bufs.getD i 0))
  | none => false

/-! ## Commands -/

/-- A submission whose image is refused: the job ends before placement with BAD_FIELD (R744). -/
def submitBad (r : Request) (ch error index : Nat) (d : Device) : Device × Reply :=
  match d.mbx.newHandle ch r.op with
  | none => (d, ans stNoResource)
  | some (h, mb) =>
    let j := { Job.blank .user .image with handle := some h, restartMax := r.u 24 1 }
    match { d with mbx := mb }.admitJob j with
    | none => (d, ans stNoResource)
    | some (id, d) => (d.endJob id stBadField (j.result id error index 0 0), ⟨stAccepted, false, leBytes 4 h, true, some h⟩)

/-- A submission whose image passed: admitted with its snapshots, or NO_RESOURCE (R53, R715, R718). -/
def submitGood (r : Request) (ch : Nat) (img : List Byte) (bufs : List Nat) (d : Device) : Device × Reply :=
  let sched := imageSched img
  let wait := if r.u 26 2 = 0 then 100 else r.u 26 2
  let ps := imageParts img
  if !d.couldPlan [] ps then (d, ans stNoResource) else
    match allocSnaps (imageGrants img bufs) d with
    | none => (d, ans stNoResource)
    | some (gs, d') =>
      let j := { Job.blank .user .image with
        restartMax := r.u 24 1, waitMs := wait, parts := ps, grants := gs, sched := sched,
        privileged := hasWindow sched, image := img }
      match admitCmd r ch d' j with
      | (d'', a) => if a.status = stAccepted then (d'', a) else (d, a)

/-- JOB_SUBMIT (R741 to R744, R749): an image that cannot be read ends the job FAILED (DEDUCED, log entry 16). -/
def execJobSubmit (ch : Fin 8) (s : State) : Host.Outcome State Fault Refusal :=
  commandRead 0x0500 ch (fun r d m =>
    let bufs := (List.range (r.u 28 1)).map fun i => r.u (32 + 4 * i) 4
    match d.buf (r.u 0 4) with
    | none => (d, ans stBadField)
    | some b =>
      if b.size < r.u 8 8 + r.u 16 8 || bufs.any (fun i => (d.buf i).isNone) then (d, ans stBadField)
      else if b.lost then (d, ans stNoResource)
      else
        match d.bufRead m (r.u 0 4) (r.u 8 8) (r.u 16 8) with
        | .error e =>
          match d.mbx.newHandle ch.val r.op with
          | none => (d, ans stNoResource)
          | some (h, mb) => (({ d with mbx := mb }.logAccess 6 e).finish h stFailed [],
              ⟨stAccepted, false, leBytes 4 h, true, some h⟩)
        | .ok img =>
          match imageError img bufs.length (d.bindOk bufs) with
          | some (error, index) => submitBad r ch.val error index d
          | none => submitGood r ch.val img bufs d) s

/-- How many units a job's parts hold. -/
def Job.unitCount (j : Job) : Nat := j.parts.foldl (fun n p => n + p.phys.length) 0

/-- JOB_STATUS (R749). -/
def execJobStatus (ch : Fin 8) (s : State) : Host.Outcome State Fault Refusal :=
  query 0x0501 ch (fun r d =>
    match d.job (r.u 0 2) with
    | none => ans stBadField
    | some j => ans stOk (leBytes 1 j.cls.code ++ leBytes 1 j.state.code ++ leBytes 1 (min 255 j.total)
        ++ leBytes 1 j.restartMax ++ leBytes 1 j.cause ++ leBytes 1 j.dies.toNat ++ leBytes 2 j.unitCount
        ++ leBytes 1 (d.waitReason (r.u 0 2) j) ++ zeros 3 ++ leBytes 4 (j.handle.getD 0) ++ leBytes 16 j.admitted.toNat)) s

/-- JOB_LIST (R749): the active jobs in ascending ID. -/
def execJobList (ch : Fin 8) (s : State) : Host.Outcome State Fault Refusal :=
  query 0x0502 ch (fun _ d =>
    let js := d.jobs.table.filter fun e => e.2.active
    ans stOk (leBytes 4 js.length ++ js.flatMap fun e =>
      leBytes 2 e.1 ++ leBytes 1 e.2.cls.code ++ leBytes 1 e.2.state.code)) s

/-- The setting of firmware jobs (R749). -/
def jobConfig (r : Request) (d : Device) : Device × Reply :=
  ({ d with jobs := { d.jobs with restartFw := r.u 0 1, waitFw := r.u 2 2 } }, ans stOk)

/-- JOB_CONFIG (R749). -/
def execJobConfig (ch : Fin 8) (s : State) : Host.Outcome State Fault Refusal := command 0x0503 ch jobConfig s

/-! ## Events -/

/-- JOB_PLACE (R712, R714 to R716). -/
def execJobPlace (job : Nat) (s : State) : Host.Outcome State Fault Refusal := onBoth (placeJob job) s

/-- JOB_FAULT (R712, R727, R734): a fault of a cause of R727 that some source raises under the job. -/
def execJobFault (job cause source : Nat) (die : Fin 8) (index : Nat) (addr : Option Nat) (detail : Nat) (s : State) :
    Host.Outcome State Fault Refusal :=
  onDev (fun d => if 1 ≤ cause && cause ≤ 0x0E && source ≤ 12 then d.jobFault job cause source die.val index addr detail
    else d) s

end Sys2Proof.Machine
end

