-- ==== Sys2Proof/Machine/Loc.lean ====
section
/-! DEFINITION. The localisation commands (R612, R613), GNSS fixes (R598 to R600) and the state changes outside a commit
(R580). -/

namespace Sys2Proof.Machine

/-! ## Configuration -/

/-- LOC_CONFIG's settings. -/
def locCfgOf (r : Request) : LocCfg :=
  ⟨r.u 0 1, r.u 1 1, r.u 2 1, r.u 3 1, r.u 4 2, r.u 6 2, r.u 8 2, r.u 10 2, r.u 12 2, r.u 14 2, r.u 16 2, r.u 18 2, r.u 20 2,
   r.u 22 2, r.u 24 2, r.u 26 2, r.u 28 4, r.u 32 4⟩

/-- Whether the deadlines lie in their ranges (R589); the upper limits apply once the tick group's period is known.
Also R63. -/
def Device.deadlinesOk (d : Device) (c : LocCfg) : Bool :=
  let p := if d.jobs.profile.state = .none then 0 else d.tickPeriod / oneUs
  let t := ({ d with loc := { d.loc with cfg := c } }).tickDeadlineUs
  (c.tickDeadline == 0 || (5000 ≤ c.tickDeadline && (p == 0 || c.tickDeadline + 1000 ≤ p))) &&
  (c.solveEnd == 0 || (2000 ≤ c.solveEnd && ((p == 0 && c.tickDeadline == 0) || c.solveEnd + 1000 ≤ (if p = 0 then c.tickDeadline else t))))

/-- LOC_CONFIG's effect. -/
def locConfig (r : Request) (d : Device) : Device × Reply :=
  let c := locCfgOf r
  if d.deadlinesOk c then ({ d with loc := { d.loc with cfg := c } }, ans stOk) else (d, ans stBadField)

/-- LOC_CONFIG as a setting: localisation is object class 11. -/
def setLocConfig : Setting := ⟨0x0B00, 1, fun _ _ => [(11, 0)], devBody locConfig⟩

/-- LOC_CONFIG (R613). -/
def execLocConfig (ch : Fin 8) (s : State) : Host.Outcome State Fault Refusal := configure setLocConfig ch s

/-- WHEEL_CONFIG's effect (R595, R597). -/
def wheelConfig (r : Request) (d : Device) : Device × Reply :=
  let w : WheelCfg := ⟨r.u 0 1, r.u 1 1, r.u 2 1, r.u 3 1, r.u 4 2, r.u 6 2, r.u 8 2, r.u 10 2, r.u 12 1, r.u 13 1, r.u 16 4,
    r.u 20 4, r.i 24 4, r.u 28 2, r.u 30 2⟩
  let resOk := w.resStream % 2 = 0 && 32 ≤ w.resStream && w.resStream < 64 && (d.sfeS w.resStream).res
  let check := d.grid.check.wheel
  if (w.angleSrc = 1 && !resOk) || (check ≠ 0 && check ≠ w.source) then (d, ans stBadField)
  else ({ d with loc := { d.loc with wheel := w } }, ans stOk)

/-- WHEEL_CONFIG as a setting. -/
def setWheelConfig : Setting := ⟨0x0B03, 1, fun _ _ => [(11, 0)], devBody wheelConfig⟩

/-- WHEEL_CONFIG (R595). -/
def execWheelConfig (ch : Fin 8) (s : State) : Host.Outcome State Fault Refusal := configure setWheelConfig ch s

/-- GNSS alignment is lost and starts again (R599). -/
def Localisation.unalign (l : Localisation) : Localisation := { l with aligned := false, fixes := [], rejects := 0 }

/-- GNSS_CONFIG's effect (R599, R613). -/
def gnssConfig (r : Request) (d : Device) : Device × Reply :=
  let g : GnssCfg := ⟨r.u 0 1 == 1, r.u 1 1, ⟨r.i 4 4, r.i 8 4, r.i 12 4⟩, r.u 16 4, r.u 20 2⟩
  ({ d with loc := { d.loc.unalign with gnss := g } }, ans stOk)

/-- GNSS_CONFIG as a setting: permitted at any time. -/
def setGnssConfig : Setting := ⟨0x0B04, 0, fun _ _ => [], devBody gnssConfig⟩

/-- GNSS_CONFIG (R613). -/
def execGnssConfig (ch : Fin 8) (s : State) : Host.Outcome State Fault Refusal := configure setGnssConfig ch s

/-- LOOP_CONFIG's effect. -/
def loopConfig (r : Request) (d : Device) : Device × Reply :=
  ({ d with loc := { d.loc with loop := ⟨r.u 0 1 == 1, r.u 1 1, r.u 2 1, r.u 3 1, r.u 4 2, r.u 6 2, r.u 8 1, some (r.u 9 1),
    r.u 10 1, r.u 12 2, r.u 14 4⟩ } }, ans stOk)

/-- LOOP_CONFIG as a setting: permitted at any time. -/
def setLoopConfig : Setting := ⟨0x0B06, 0, fun _ _ => [], devBody loopConfig⟩

/-- LOOP_CONFIG (R613). -/
def execLoopConfig (ch : Fin 8) (s : State) : Host.Outcome State Fault Refusal := configure setLoopConfig ch s

/-- The settings of this chapter and of the propagator. -/
def settingsLoc : List Setting := [setPpConfig, setLocConfig, setWheelConfig, setGnssConfig, setLoopConfig]

/-! ## Status -/

/-- LOC_STATUS (R612). -/
def execLocStatus (ch : Fin 8) (s : State) : Host.Outcome State Fault Refusal :=
  query 0x0B01 ch (fun _ d =>
    let l := d.loc
    ans stOk (leBytes 1 l.state.code ++ leBytes 1 l.conf ++ leBytes 1 l.prev.code ++ leBytes 1 (b2n l.aligned)
      ++ leBytes 4 (l.session.getD 0xFFFFFFFF) ++ leBytes 4 l.tickSeq ++ zeros 4 ++ leBytes 16 l.entered.toNat
      ++ [l.commits, l.degraded, l.lost, l.keyframes, l.loopTried, l.loopAccepted, l.loopReplaced, l.relocs, l.gnssUsed,
          l.gnssRejected, l.gnssDropped, 0].flatMap (leBytes 4)
      ++ l.alignT.list.flatMap (fun v => leBytes 8 (unsigned 64 v)) ++ leBytes 4 (unsigned 32 l.alignYaw) ++ zeros 4)) s

/-- POSE_GET (R612). -/
def execPoseGet (ch : Fin 8) (s : State) : Host.Outcome State Fault Refusal :=
  query 0x0B07 ch (fun _ d => ans stOk (d.loc.published ++ d.loc.committed ++ d.loc.covRecord)) s

/-- LOC_RESET (R580, R613, R632). -/
def execLocReset (ch : Fin 8) (s : State) : Host.Outcome State Fault Refusal :=
  command 0x0B02 ch (fun r d =>
    if !d.locRuns then (d, ans stBadState) else
      let d := if bit (r.u 0 1) 0 && d.map.opened.isSome then d.closeOpen.mapCommit else d
      (d.locCold, ans stOk)) s

/-! ## GNSS (R598 to R600) -/

/-- The propagated motion of the whole millisecond that a moment lies in, from the ring (R599). -/
def Device.ringPose (d : Device) (at_ : Nat) : Option Pose :=
  (d.slv.pp.ring.find? fun e => dtsMoment (BitVec.ofNat 128 (recU e.2 8 16)) / oneMs == at_ / oneMs).map fun e =>
    Pose.ofBytes (slice e.2 24 40)

/-- The map position of the antenna at a body pose. -/
def antennaAt (p : Pose) (lever : Vec3) : Vec3 := p.t.add (p.q.rot (lever.map (· * 65536)))

/-- A rational to the nearest integer, ties to even. -/
def ratRne (r : Rat) : Int := rne r.num r.den

/-- A horizontal rotation by a yaw in sQ0.31 turns. -/
def turnBy (yaw : Int) (v : Vec3) : Vec3 :=
  let a := rne (yaw * 2 * fxPi) (2 ^ 31)
  let c := fxCos a
  let s := fxSin a
  ⟨rne (c * v.x - s * v.y) (2 ^ 128), rne (s * v.x + c * v.y) (2 ^ 128), v.z⟩

/-- The planar transform that fits pairs of fixes and antenna positions best by weighted least squares (R599): weights are the
inverse squares of the deviations, a deviation of 0 counted as 1 mm (log entry 29). -/
def alignFit (ps : List (Fix × Vec3)) : Vec3 × Int :=
  let w := fun (f : Fix) => (1 : Rat) / ((max 1 f.sigmaH * max 1 f.sigmaH : Nat) : Rat)
  let wv := fun (f : Fix) => (1 : Rat) / ((max 1 f.sigmaV * max 1 f.sigmaV : Nat) : Rat)
  let sum := fun (g : Fix × Vec3 → Rat) => ps.foldl (fun a p => a + g p) (0 : Rat)
  let sw := sum fun p => w p.1
  let mean := fun (g : Fix × Vec3 → Int) => sum (fun p => w p.1 * (g p : Rat)) / sw
  let ex := mean fun p => p.1.e.x
  let ey := mean fun p => p.1.e.y
  let px := mean fun p => p.2.x
  let py := mean fun p => p.2.y
  let s1 := sum fun p => w p.1 * (((p.1.e.x : Rat) - ex) * ((p.2.y : Rat) - py) - ((p.1.e.y : Rat) - ey) * ((p.2.x : Rat) - px))
  let s0 := sum fun p => w p.1 * (((p.1.e.x : Rat) - ex) * ((p.2.x : Rat) - px) + ((p.1.e.y : Rat) - ey) * ((p.2.y : Rat) - py))
  let yaw := rne (fxAtan2 (s1.num * s0.den) (s0.num * s1.den) * 2 ^ 31) (2 * fxPi).toNat
  let yaw := if yaw = 2 ^ 31 then -(2 ^ 31) else yaw
  let r := turnBy yaw ⟨ratRne ex, ratRne ey, 0⟩
  let tz := sum (fun p => wv p.1 * ((p.2.z - p.1.e.z : Int) : Rat)) / sum fun p => wv p.1
  (⟨ratRne px - r.x, ratRne py - r.y, ratRne tz⟩, yaw)

/-- A fix taken into the map frame. -/
def toMap (t : Vec3) (yaw : Int) (e : Vec3) : Vec3 := (turnBy yaw e).add t

/-- Whether a fit is accepted: the horizontal RMS residual is at most 3 times the mean deviation (R599). -/
def fitOk (ps : List (Fix × Vec3)) (t : Vec3) (yaw : Int) : Bool :=
  let r2 := (ps.map fun p =>
    let r := p.2.sub (toMap t yaw p.1.e)
    (r.x * r.x + r.y * r.y).toNat).sum
  let s := (ps.map fun p => p.1.sigmaH).sum
  r2 * ps.length * 1000000 ≤ 9 * s * s * 2 ^ 64

/-- Whether the first and last paired fixes lie ALIGN_DIST apart (R599). -/
def spansDist (ps : List (Fix × Vec3)) (m : Nat) : Bool :=
  match ps.head?, ps.getLast? with
  | some a, some b =>
    let v := b.1.e.sub a.1.e
    (m * 2 ^ 32) * (m * 2 ^ 32) ≤ (v.x * v.x + v.y * v.y).toNat
  | _, _ => false

/-- A paired fix (R599): once the pairs span the distance, the fit is accepted and stored with the session, or the older half
is discarded. -/
def Device.pairFix (d : Device) (f : Fix) (at_ : Vec3) : Device :=
  let l := d.loc
  let ps := l.fixes ++ [(f, at_)]
  if !spansDist ps l.gnss.alignDist then { d with loc := { l with fixes := ps } } else
    let (t, yaw) := alignFit ps
    if !fitOk ps t yaw then { d with loc := { l with fixes := ps.drop (ps.length / 2) } } else
      let d := { d with loc := { l with fixes := [], aligned := true, alignT := t, alignYaw := yaw, rejects := 0 } }
      match l.session with
      | none => d
      | some id => (d.mapUpdate id fun b =>
          recSet (recSet b 25 (leBytes 1 (Nat.lor (recU b 25 1) 2))) 72
            (t.list.flatMap (fun v => leBytes 8 (unsigned 64 v)) ++ leBytes 4 (unsigned 32 yaw))).mapCommit

/-- The window state with the stamp nearest to a moment, within 25 ms (R600); the older of two equally near. -/
def Device.nearState (d : Device) (at_ : Nat) : Option WinState :=
  let gap := fun (s : WinState) => ((s.at_ : Int) - at_).natAbs
  (d.loc.window.foldl (fun (acc : Option WinState) s => match acc with
    | some b => if gap s < gap b then some s else some b
    | none => some s) none).filter fun s => gap s ≤ 25 * oneMs

/-- Whether a GNSS factor's squared whitened residual at the window state exceeds 16.27 (R600). -/
def residualLarge (d : Device) (s : WinState) (f : Fix) : Bool :=
  let e := (antennaAt s.pose d.loc.gnss.lever).sub f.e
  let h := f.sigmaH * f.sigmaH
  let v := f.sigmaV * f.sigmaV
  let n := (e.x * e.x + e.y * e.y).toNat * v + (e.z * e.z).toNat * h
  1627 * h * v * 2 ^ 64 < 100 * n * 1000000

/-- A fix dropped. -/
def Device.dropFix (d : Device) : Device := { d with loc := { d.loc with gnssDropped := min 0xFFFFFFFF (d.loc.gnssDropped + 1) } }

/-- A fix after alignment (R600). -/
def Device.useFix (d : Device) (f : Fix) (p : Pose) : Device :=
  match d.nearState f.at_ with
  | none => d.dropFix
  | some s =>
    let l := d.loc
    let back := (d.ringPose s.at_).elim s.pose id
    let moved := (antennaAt back l.gnss.lever).sub (antennaAt p l.gnss.lever)
    let g : Fix := { f with at_ := s.at_, e := (toMap l.alignT l.alignYaw f.e).add moved }
    if residualLarge d s g then
      let l := { l with gnssRejected := min 0xFFFFFFFF (l.gnssRejected + 1), rejects := l.rejects + 1 }
      { d with loc := if 5 ≤ l.rejects then l.unalign else l }
    else { d with loc := { l with
      fix := (l.fix.filter fun x => x.at_ != s.at_) ++ [g], rejects := 0, gnssUsed := min 0xFFFFFFFF (l.gnssUsed + 1) } }

/-- GNSS_FIX (R598 to R600). -/
def execGnssFix (ch : Fin 8) (s : State) : Host.Outcome State Fault Refusal :=
  command 0x0B05 ch (fun r d =>
    let l := d.loc
    let f : Fix := ⟨dtsMoment (BitVec.ofNat 128 (r.u 0 16)), ⟨r.i 16 8, r.i 24 8, r.i 32 8⟩, r.u 40 4, r.u 44 4⟩
    let early := match l.window.head? with | some w => f.at_ < w.at_ | none => true
    let drop := !l.gnss.enable || r.u 48 1 = 0 || r.u 48 1 < l.gnss.minType || l.gnss.sigmaMax < f.sigmaH || early
      || d.time.ns16 < f.at_ || !l.state.estimating
    let d := if drop then d.dropFix else
      match d.ringPose f.at_ with
      | none => d.dropFix
      | some p => if l.aligned then d.useFix f p else d.pairFix f (antennaAt p l.gnss.lever)
    (d, ans stOk)) s

/-! ## State changes outside a commit (R580) -/

/-- Whether the named IMU stream is ACTIVE and the pair PAIRED. -/
def Device.locReady (d : Device) : Bool :=
  let p := d.pair d.loc.cfg.pair
  decide ((d.stream d.slv.pp.imu).state = .active) && p.enabled && !p.lost && p.newest.isSome

/-- Whether the data INIT collects is lost: the IMU stream leaves ACTIVE, or the pair goes LOST. -/
def Device.locUnready (d : Device) : Bool :=
  let p := d.pair d.loc.cfg.pair
  decide ((d.stream d.slv.pp.imu).state ≠ .active) || p.lost || !p.enabled

/-- LOC_INIT_START (R580): COLD to INIT, which waits while a map load runs (R642), or INIT back to COLD.
DESIGN CHOICE: log entry 29. -/
def execLocInitStart (s : State) : Host.Outcome State Fault Refusal :=
  onDev (fun d =>
    if !d.locRuns then d
    else if d.loc.state = .cold && d.locReady && !d.jobs.table.any (fun e => e.2.active && decide (e.2.work = .mapLoad)) then
      d.locTo .init
    else if d.loc.state = .init && d.locUnready then d.locCold
    else d) s

/-- LOC_LOST_TIMEOUT (R580). -/
def execLocLostTimeout (s : State) : Host.Outcome State Fault Refusal :=
  onDev (fun d =>
    if !d.locRuns || !d.loc.state.estimating then d
    else if bit (recU d.slv.pp.latest 0 2) 2 then d.locLost
    else (d.advanceTo (d.loc.lastCommitAt + 1000 * oneMs)).locLost) s

/-- LOC_REINIT_TIMEOUT (R580). -/
def execLocReinitTimeout (s : State) : Host.Outcome State Fault Refusal :=
  onDev (fun d =>
    if d.locRuns && d.loc.state = .lost then
      (d.advanceTo (d.loc.enteredAt + d.loc.cfg.reinitTime * oneS)).locCold
    else d) s

end Sys2Proof.Machine
end

