-- ==== Sys2Proof/Machine/MapImage.lean ====
section
/-! DEFINITION. Map images (R641 to R646): the records of a load and their checks, the load itself, and the image of an
export; and the merging of tiles (R639, R640). -/

namespace Sys2Proof.Machine

/-! ## Records of an image -/

/-- Units of 64 bytes that a record of a kind takes (R614). -/
def recUnits (b : List Byte) : Nat :=
  match recKindOf b with
  | 1 => 2
  | 2 => (304 + 12 * recU b 28 2 + 63) / 64
  | 3 => (64 + recU b 30 1 + 63) / 64
  | 4 => 3
  | 5 => 513
  | _ => 0

/-- Offsets of the IDs that a record refers to (R623 to R628). -/
def refOffsets (b : List Byte) : List Nat :=
  match recKindOf b with
  | 1 => [16, 20, 64, 68]
  | 2 => [16, 20] ++ (List.range (recU b 28 2)).map fun i => 304 + 12 * i
  | 3 | 4 => [16, 20]
  | 5 => [16, 28]
  | _ => []

/-- Whether a record is valid by itself (R622 to R628), with place codes of `bits_` bits (R654). -/
def recValid (bits_ : Nat) (b : List Byte) : Bool :=
  let k := recKindOf b
  let id := recU b 0 4
  let zero := fun (o n : Nat) => recU b o n == 0
  (if k = 5 then decide (0xE0000000 ≤ id) && decide (id < 0xFF000000) else 1 ≤ id && id ≤ 0xDFFFFFFF)
    && decide (recU b 5 1 < 2) && zero 8 8 && recU b 6 2 == recUnits b && b.length == 64 * recUnits b &&
  match k with
  | 1 => decide (recU b 25 1 < 8) && zero 102 10
  | 2 => zero 25 1 && zero 30 2 && zero 172 4 && decide (recU b 28 2 ≤ 1024) && recU b 26 2 == bits_
      && zero (176 + recU b 26 2 / 8) (128 - recU b 26 2 / 8)
  | 3 => zero 31 1 && zero 60 4 && [0, 32, 64, 128].elem (recU b 30 1)
  | 4 => decide (recU b 24 1 ≤ 2) && zero 25 1 && zero 28 4 && zero 172 20
  | 5 =>
    let t := fun (o : Nat) => signed 16 (recU b o 2)
    zero 26 2 && zero 56 8 && decide (-2048 ≤ t 22) && decide (t 22 ≤ 2047) && decide (-2048 ≤ t 24) && decide (t 24 ≤ 2047)
      && id % 2 ^ 24 == unsigned 12 (t 24) * 2 ^ 12 + unsigned 12 (t 22)
  | _ => false

/-- The records of an image, cut by their SIZE; none where they do not fit. -/
def imageRecords : Nat → List Byte → Option (List (List Byte))
  | 0, b => if b.isEmpty then some [] else none
  | n + 1, b =>
    let k := 64 * recU b 6 2
    if k = 0 || b.length < k then none else (imageRecords n (b.drop k)).map (b.take k :: ·)

/-- COUNT1 to COUNT5 of an image. -/
def imageCounts (b : List Byte) : List Nat := (List.range 5).map fun k => recU b (8 + 4 * k) 4

/-- What a load is made of. -/
structure MapImage where
  recs : List (List Byte)
  damaged : Bool

/-- The image of a load, or its ERROR and INDEX: header, CRC, records (R644). DEDUCED: log entry 33. -/
def imageOf (bits_ : Nat) (b : List Byte) (len : Nat) : Except (Nat × Nat) MapImage :=
  let counts := imageCounts b
  if slice b 0 4 != [0x4B#8, 0x43#8, 0x52#8, 0x4E#8] || recU b 4 2 != 1 || 2 ≤ recU b 6 1 || recU b 7 1 != 0
      || recU b 40 8 != len || len < 64 || recU b 52 12 != 0 then .error (1, 0)
  else match imageRecords counts.sum (slice b 64 (len - 64)) with
    | none => .error (1, 0)
    | some rs =>
      let kinds := (List.range 5).flatMap fun k => List.replicate (counts.getD k 0) (k + 1)
      if recU b 48 4 != crc32c (slice b 64 (len - 64)) then .error (2, 0)
      else match firstBelow rs.length fun i =>
          let r := rs.getD i []
          !recValid bits_ r || recKindOf r != kinds.getD i 0 || (rs.take i).any fun q => recU q 0 4 == recU r 0 4 with
        | some i => .error (3, i)
        | none => .ok ⟨rs, recU b 6 1 == 1⟩

/-! ## A load -/

/-- IDs replaced by newly issued ones (R643): old and new ID in record order, and the device after.
DEDUCED: log entry 33. -/
def remapIds : List (List Byte) → Device → List (Nat × Nat) × Device
  | [], d => ([], d)
  | r :: rs, d =>
    if recKindOf r = 5 then remapIds rs d else
      let (id, d) := d.issueId
      let (l, d) := remapIds rs d
      ((recU r 0 4, id) :: l, d)

/-- A record with its ID and its references translated. -/
def remapRec (t : List (Nat × Nat)) (r : List Byte) : List Byte :=
  let f := fun (i : Nat) => (t.find? fun e => e.1 == i).elim i (·.2)
  let r := (refOffsets r).foldl (fun r o => recSet r o (leBytes 4 (f (recU r o 4)))) r
  if recKindOf r = 5 then r else recSet r 0 (leBytes 4 (f (recU r 0 4)))

/-- A record whose frame's root slot is known takes it (R633, R643): sessions in SLOT, tiles in their ID; a loaded session is
not OPEN. -/
def slotRec (slots : List (Nat × Nat)) (d : Device) (r : List Byte) : List Byte :=
  let slot := fun (root : Nat) => (slots.find? fun e => e.1 == root).elim (d.slotOf root) (·.2)
  if recKindOf r = 1 then recSet r 24 (leBytes 1 (slot (recU r 20 4)) ++ leBytes 1 (recU r 25 1 / 2 * 2))
  else if recKindOf r = 5 then
    recSet r 0 (leBytes 4 (0xE0000000 + slot (recU r 16 4) * 2 ^ 24 + recU r 0 4 % 2 ^ 24))
  else r

/-- The outcome of a load: its ring status and result, and the device after. -/
structure LoadOut where
  status : Nat
  error : Nat
  index : Nat
  first : Nat
  counts : List Nat

/-- The result of MAP_LOAD (R649). -/
def LoadOut.bytes (o : LoadOut) (gen : Nat) : List Byte :=
  leBytes 1 o.error ++ zeros 3 ++ leBytes 4 o.index ++ leBytes 4 gen ++ o.counts.flatMap (leBytes 4) ++ leBytes 4 o.first

/-- The records of a load created, their keyframes put into the place index (R644, R645); none where Cairn becomes FULL, a
bucket overflows or the index has no room. -/
def Device.loadRecords (d : Device) (rs : List (List Byte)) : Option Device :=
  let made := rs.foldl (fun (acc : Option Device) r => acc.bind fun d => d.mapCreate (recU r 0 4) r) (some d)
  made.bind fun d =>
    if d.mapFull then none else
      match d.index 0 with
      | none => some d
      | some x =>
        let kfs := rs.filter fun r => recKindOf r == 2
        let u := kfs.foldl (fun (u : Updated) r =>
          u.insert d.pwr.dieOn (x.epoch + 1) (recU r 0 4) (slice r 176 (x.codeBits / 8))) (Updated.start x)
        if u.full then none else some (d.setIndex 0 u.commit).prsDiag

/-- A load of a checked image (R643 to R645). -/
def Device.loadImage (d : Device) (img : MapImage) (counts : List Nat) (remap : Bool) : Device × LoadOut :=
  let fail := fun (st e i : Nat) => (d, (⟨st, e, i, 0, counts⟩ : LoadOut))
  let (t, d1) := if remap then remapIds img.recs d else ([], d)
  let rs := img.recs.map (remapRec t)
  let roots := (rs.filter fun r => recKindOf r == 1 && isRoot r).map fun r => recU r 0 4
  let free := (List.range 31).filter fun s => !d.rootSlots.elem s
  let rs := rs.map (slotRec (List.zip roots free) d)
  let known := fun (i : Nat) => i == 0xFFFFFFFF || (d.map.newest i).isSome || rs.any fun r => recU r 0 4 == i
  let missing := fun (r : List Byte) => (refOffsets r).any fun o => !known (recU r o 4)
  match firstBelow rs.length fun i => (d.map.buckets.look (recU (rs.getD i []) 0 4)).isSome with
  | some i => fail stBadField 4 i
  | none =>
    match (if img.damaged then none else firstBelow rs.length fun i => missing (rs.getD i [])) with
    | some i => fail stBadField 5 i
    | none =>
      if free.length < roots.length then fail stNoResource 6 0
      else
        let rs := rs.map fun r => recSet r 5 (leBytes 1 (b2n (missing r)))
        match d1.loadRecords rs with
        | none => fail stNoResource 7 0
        | some d2 =>
          let wasEmpty := d.map.objs.isEmpty
          let d2 := { d2 with map := { d2.map with damaged := img.damaged || (d2.map.damaged && !wasEmpty) } }
          (d2.mapCommit, ⟨stOk, 0, 0, (t.head?.map (·.2)).getD 0, counts⟩)

/-- MAP_LOAD's job at its commit. -/
def mapLoad (arg : List Byte) (d : Device) (m : Store) : Device × LoadOut :=
  match d.bufRead m (recU arg 0 4) (recU arg 8 8) (recU arg 16 8) with
  | .error e => (d.logAccess 6 e, ⟨stFailed, 0, 0, 0, List.replicate 5 0⟩)
  | .ok b =>
    match imageOf ((d.index 0).elim 256 (·.codeBits)) b (recU arg 16 8) with
    | .error (e, i) => (d, ⟨stBadField, e, i, 0, List.replicate 5 0⟩)
    | .ok img => d.loadImage img (imageCounts b) (bit (recU arg 24 1) 0)

/-! ## An export -/

/-- The objects of a kind as a pin sees them, in ascending ID. -/
def Cairn.seenOf (m : Cairn) (pin kind : Nat) : List (Nat × List Byte) :=
  m.objs.filterMap fun e => (m.seen pin e.1).bind fun b => if recKindOf b = kind then some (e.1, b) else none

/-- The root a session is written with: that of the chain of exported parents (R646). -/
def writtenRoot (ss : List (Nat × List Byte)) : Nat → Nat → Nat
  | 0, id => id
  | k + 1, id =>
    match ss.find? fun e => e.1 == id with
    | none => id
    | some e => if ss.any fun p => p.1 == recU e.2 16 4 then writtenRoot ss k (recU e.2 16 4) else id

/-- A record as an image holds it: GEN and the device's own field zero (R622). -/
def exported (b : List Byte) : List Byte := recSet b 8 (zeros 8)

/-- The records an export writes, by kind, of all sessions or of a list (R646). -/
def Cairn.selected (m : Cairn) (pin : Nat) (list : List Nat) : List (List (List Byte)) :=
  let all := list.isEmpty
  let ss := (m.seenOf pin 1).filter fun e => all || list.elem e.1
  let mine := fun (b : List Byte) => all || list.elem (recU b 16 4)
  let kfs := (m.seenOf pin 2).filter fun e => mine e.2
  let ids := kfs.map (·.1)
  let lms := (m.seenOf pin 3).filter fun e => mine e.2
  let edges := (m.seenOf pin 4).filter fun e => all || (ids.elem (recU e.2 16 4) && ids.elem (recU e.2 20 4))
  let root := fun (id : Nat) => writtenRoot ss ss.length id
  let sess := ss.map fun e =>
    if all then e.2
    else
      let top := !ss.any fun p => p.1 == recU e.2 16 4
      recSet e.2 16 (leBytes 4 (if top then 0xFFFFFFFF else recU e.2 16 4) ++ leBytes 4 (root e.1))
  let tiles := (m.seenOf pin 5).filterMap fun e =>
    if all then some e.2
    else (ss.find? fun s => recU s.2 20 4 == recU e.2 16 4).map fun s => recSet e.2 16 (leBytes 4 (root s.1))
  [sess, kfs.map (·.2), lms.map (·.2), edges.map (·.2), tiles].map fun l => l.map exported

/-- The image of an export at a pin (R641, R646). -/
def Cairn.image (m : Cairn) (pin : Nat) (list : List Nat) : List Byte :=
  let rs := m.selected pin list
  let body := rs.flatten.flatten
  let ids := (rs.take 4).flatten.map fun r => recU r 0 4
  let lo := ids.foldl min 0xFFFFFFFF
  [0x4B#8, 0x43#8, 0x52#8, 0x4E#8] ++ leBytes 2 1 ++ leBytes 1 (b2n m.damaged) ++ zeros 1
    ++ rs.flatMap (fun l => leBytes 4 l.length) ++ leBytes 4 (if ids.isEmpty then 0 else lo) ++ leBytes 4 (ids.foldl max 0)
    ++ leBytes 4 pin ++ leBytes 8 (64 + body.length) ++ leBytes 4 (crc32c body) ++ zeros 12 ++ body

/-- The session IDs an export names. -/
def exportList (arg : List Byte) : List Nat := (List.range (recU arg 2 1)).map fun i => recU arg (16 + 4 * i) 4

/-! ## Merging tiles (R639, R640) -/

/-- The centre of a cell of a tile in sQ31.32 m, carried by the planar part of a correction, as cells of the new frame. -/
def mergeCell (c : Pose) (cell : Nat) (i j : Int) : Int × Int :=
  let mid := fun (n : Int) => rne ((2 * n + 1) * cell * 2 ^ 32) 2000
  let a := c.q.yaw
  let x := rne (fxCos a * mid i - fxSin a * mid j) (2 ^ 128) + c.t.x
  let y := rne (fxSin a * mid i + fxCos a * mid j) (2 ^ 128) + c.t.y
  (cellOf cell x, cellOf cell y)

/-- One old cell merged (R639): `base` is the map before the merge, which decides. -/
def mergeOne (base : Device) (root : Nat) (c : Pose) (old : List Byte) (dts : Nat) (d : Device) (k : Nat) : Device :=
  let cell := recU old 20 2
  let i := 64 * signed 16 (recU old 22 2) + ((k % 64 : Nat) : Int)
  let j := 64 * signed 16 (recU old 24 2) + ((k / 64 : Nat) : Int)
  let rec_ := slice old (64 + 8 * k) 8
  if cellConf rec_ = 0 then d else
    let p := mergeCell c cell i j
    let id := tileId (base.slotOf root) (p.1.fdiv 64) (p.2.fdiv 64)
    let take_ := match base.map.newest id with
      | none => true
      | some t => slice t (tileOffset p.1 p.2) 8 == unknownCell
          || decide (dtsMoment (BitVec.ofNat 128 (recU t 32 16)) < dtsMoment (BitVec.ofNat 128 (recU old 32 16)))
    if take_ then
      d.tileWrite root (recU old 28 4) cell dts (signed 64 (recU old 48 8) + c.t.z) p.1 p.2 rec_
    else d

/-- MERGE at its commit: the tiles of the old slot go into the frame of the new root and are deleted, in one generation. -/
def mapMerge (slot root : Nat) (c : Pose) (d : Device) : Device :=
  let olds := (d.map.ofKind 5).filter fun e => e.1 / 2 ^ 24 == 0xE0 + slot
  let e := olds.foldl (fun (x : Device) (o : Nat × List Byte) =>
    (List.range 4096).foldl (mergeOne d root c o.2 (recU o.2 32 16)) x) d
  (olds.foldl (fun (x : Device) (o : Nat × List Byte) => x.mapDelete o.1) e).mapCommit

end Sys2Proof.Machine
end

