-- ==== Sys2Proof/Machine/Map.lean ====
section
/-! DEFINITION. The map commands (R642, R646, R649, R650) and reclamation (R630). -/

namespace Sys2Proof.Machine

/-- Whether an active job's work meets a condition. -/
def Device.working (d : Device) (p : JobWork → Bool) : Bool := d.jobs.table.any fun e => e.2.active && p e.2.work

/-- Active jobs that load, export and merge. -/
def JobWork.isLoad (w : JobWork) : Bool := w = .mapLoad
def JobWork.isExport (w : JobWork) : Bool := w = .mapExport
def JobWork.isMerge (w : JobWork) : Bool := match w with | .mapMerge _ _ => true | _ => false

/-- R642's conditions for a load. -/
def Device.mapIdle (d : Device) : Bool :=
  (!d.locRuns || d.loc.state = .cold || d.loc.state = .lost) && !d.working (·.isLoad) && !d.working (·.isExport)

/-- MAP_STATUS (R649). -/
def execMapStatus (ch : Fin 8) (s : State) : Host.Outcome State Fault Refusal :=
  query 0x0C00 ch (fun _ d =>
    let m := d.map
    let flags := b2n m.full + 2 * b2n m.damaged + 4 * b2n (d.working (·.isLoad)) + 8 * b2n (d.working (·.isExport))
      + 16 * b2n (d.working (·.isMerge))
    let roots := ((m.ofKind 1).filter fun e => isRoot e.2).length
    ans stOk (leBytes 4 m.gen ++ leBytes 1 flags ++ leBytes 1 roots ++ zeros 2 ++ leBytes 4 m.nextId
      ++ leBytes 4 (m.opened.getD 0xFFFFFFFF) ++ ((List.range 5).flatMap fun k => leBytes 4 (m.ofKind (k + 1)).length)
      ++ leBytes 4 ((List.range 8).map m.entries).sum ++ leBytes 4 m.kfDropped ++ leBytes 4 m.tileDropped
      ++ (List.range 8).flatMap fun k => leBytes 4 (m.entries k) ++ leBytes 4 (m.poolFree k / 65536))) s

/-- MAP_CONFIG's effect (R650). -/
def mapConfig (r : Request) (d : Device) : Device × Reply :=
  if !d.mapIdle || !d.map.pins.isEmpty || !d.map.objs.isEmpty then (d, ans stBadState)
  else match d.freePools.mapPools (r.u 0 2) with
    | none => (d, ans stNoResource)
    | some d => (d.mapDiag, ans stOk)

/-- MAP_CONFIG as a setting: its own conditions say when it is permitted. -/
def setMapConfig : Setting := ⟨0x0C01, 0, fun _ _ => [], devBody mapConfig⟩

/-- MAP_CONFIG (R650). -/
def execMapConfig (ch : Fin 8) (s : State) : Host.Outcome State Fault Refusal := configure setMapConfig ch s

/-- The settings of this chapter. -/
def settingsMap : List Setting := [setMapConfig]

/-- Whether a host buffer can be read or written from an offset over a length (R650). -/
def Device.hostRange (d : Device) (id off len : Nat) : Bool :=
  isHostBuf id && match d.buf id with
    | some b => decide (off + len ≤ b.size)
    | none => false

/-- The ID counter raised past an image's IDs, so that none issued falls among them (R643). -/
def Device.raiseIds (d : Device) (hi : Nat) : Device :=
  if 0 < hi && hi ≤ 0xDFFFFFFF && d.map.nextId ≤ hi then
    { d with map := { d.map with nextId := if hi = 0xDFFFFFFF then 1 else hi + 1 } }
  else d

/-- MAP_LOAD (R642, R643): a MAP job that holds its buffer. -/
def execMapLoad (ch : Fin 8) (s : State) : Host.Outcome State Fault Refusal :=
  commandRead 0x0C02 ch (fun r d m =>
    if !d.mapIdle then (d, ans stBadState)
    else if !d.hostRange (r.u 0 4) (r.u 8 8) (r.u 16 8) then (d, ans stBadField)
    else
      let x := admitCmd r ch d { Job.blank .map .mapLoad with
        arg := r.body, restartMax := d.jobs.restartFw, waitMs := d.jobs.waitFw, grants := [⟨r.u 0 4, 0, 0, 0⟩] }
      let head := fwRead d m (r.u 0 4) (r.u 8 8) 64
      if x.2.status = stAccepted && !bit (r.u 24 1) 0 then (x.1.raiseIds (recU head 32 4), x.2) else x) s

/-- MAP_EXPORT (R646): a MAP job pinned at its admission, or at the next TICK commit with FLUSH. Also R48. -/
def execMapExport (ch : Fin 8) (s : State) : Host.Outcome State Fault Refusal :=
  command 0x0C03 ch (fun r d =>
    let dest := r.u 0 1
    let flush := bit (r.u 1 1) 0
    let port := d.tx (dest - 1)
    let running := (d.jobs.table.filter fun e => e.2.active && e.2.work.isExport).length
    if dest = 0 && !d.hostRange (r.u 4 4) (r.u 8 8) 64 then (d, ans stBadField)
    else if (exportList r.body).any fun id => (d.session id).isNone then (d, ans stBadField)
    else if (0 < dest && !(port.enabled && d.txUp (dest - 1))) || (flush && !d.jobs.profile.uses.elem (13, 0)) then
      (d, ans stBadState)
    else if 2 ≤ running then (d, ans stNoResource)
    else
      let id := freeJobId d.jobs.table (d.jobs.table.length + 3) d.jobs.nextId
      let x := admitCmd r ch d { Job.blank .map .mapExport with
        arg := r.body, restartMax := d.jobs.restartFw, waitMs := d.jobs.waitFw
        grants := if dest = 0 then [⟨r.u 4 4, 1, 0, 0⟩] else [] }
      if x.2.status = stAccepted && !flush then (x.1.pinMap id, x.2) else x) s

/-- MAP_GET (R649, R650). -/
def execMapGet (ch : Fin 8) (s : State) : Host.Outcome State Fault Refusal :=
  query 0x0C04 ch (fun r d =>
    match d.map.newest (r.u 0 4) with
    | none => ans stBadField
    | some b =>
      if r.u 4 4 % 64 ≠ 0 || b.length ≤ r.u 4 4 then ans stBadField else
        ans stOk (leBytes 4 (recU b 8 4) ++ leBytes 2 (recU b 6 2) ++ zeros 2 ++ leBytes 4 (r.u 4 4)
          ++ slice (recSet b 12 (zeros 4)) (r.u 4 4) (min (r.u 8 2) 4064))) s

/-- MAP_SESSION (R632, R634, R649). -/
def execMapSession (ch : Fin 8) (s : State) : Host.Outcome State Fault Refusal :=
  command 0x0C05 ch (fun r d =>
    let sel := if r.u 0 4 = 0xFFFFFFFF then d.map.opened else some (r.u 0 4)
    match sel with
    | none => (d, ans stBadState)
    | some id =>
      if (d.session id).isNone then (d, ans stBadField)
      else if r.u 4 1 = 0 then
        ((d.mapUpdate id fun b => recSet (recSet b 26 (r.bytes 6 2)) 112 (r.bytes 8 16)).mapCommit, ans stOk)
      else if r.u 4 1 = 1 then
        if d.map.opened = some id then (d.closeOpen.mapCommit, ans stOk) else (d, ans stBadState)
      else if d.map.opened = some id then (d, ans stBadState)
      else ((d.deleteSession id).mapCommit, ans stOk)) s

/-- The place index empties with the map, its epoch 0 again (R650, R662). -/
def Device.emptyIndex (d : Device) : Device :=
  match d.index 0 with
  | none => d
  | some x => (d.setIndex 0 { x with
      shards := [], epoch := 0, damaged := false }).prsDiag

/-- MAP_CLEAR (R615, R629, R647, R650). -/
def execMapClear (ch : Fin 8) (s : State) : Host.Outcome State Fault Refusal :=
  command 0x0C06 ch (fun _ d =>
    if !d.mapIdle || !d.map.pins.isEmpty then (d, ans stBadState)
    else
      let d := { d with
        map := { d.map with objs := [], buckets := [], gen := 0, nextId := 1, opened := none, damaged := false }
        loc := { d.loc with session := none, lastKf := none, landmarks := [] } }
      (d.emptyIndex.mapJudge, ans stOk)) s

/-- MAP_RECLAIM (R630): what no pin needs any more goes away. DESIGN CHOICE: log entry 34. -/
def execMapReclaim (s : State) : Host.Outcome State Fault Refusal := onDev (fun d => d.mapReclaim) s

end Sys2Proof.Machine
end

