-- ==== Sys2Proof/Machine/Prs.lean ====
section
/-! DEFINITION. The place search engine (R651 to R692): its commands, batch windows, merges, and compaction. -/

namespace Sys2Proof.Machine

/-! ## Indexes -/

/-- Update jobs of an index, active and waiting. -/
def Device.updatesOf (d : Device) (i : Nat) : Nat :=
  (d.jobs.table.filter fun e => e.2.active && decide (e.2.work = .prsUpdate i)).length

/-- The lowest pin held on an index. -/
def Device.minPin (d : Device) (i : Nat) : Option Nat :=
  match d.pinsOn i with
  | [] => none
  | p :: ps => some (ps.foldl min p)

/-- PRS_STATUS (R691). -/
def execPrsStatus (ch : Fin 8) (s : State) : Host.Outcome State Fault Refusal :=
  query 0x0D00 ch (fun r d =>
    let i := r.u 0 1
    match d.index i with
    | none => ans stBadField
    | some x =>
      let all := x.shards.flatMap (·.2)
      let live := (all.filter fun e => e.del == 0xFFFFFFFF).length
      ans stOk (leBytes 1 (1 + 2 * b2n x.damaged + 4 * b2n x.nodes.isEmpty) ++ leBytes 1 x.branch ++ leBytes 1 x.depth
        ++ zeros 1 ++ leBytes 2 x.codeBits ++ zeros 2 ++ leBytes 4 x.leaves ++ leBytes 4 x.epoch
        ++ leBytes 4 ((d.minPin i).getD 0xFFFFFFFF) ++ leBytes 2 (d.pinsOn i).length ++ leBytes 2 (d.updatesOf i)
        ++ leBytes 8 live ++ leBytes 8 (all.length - live)
        ++ (List.range 8).flatMap fun k => leBytes 4 (x.entries k) ++ leBytes 4 (x.freeBlocks k))) s

/-- Buffers of a size in MiB, one with DIE placement on every powered die: all of them or none. -/
def Device.dieBuffers (d : Device) (mib : Nat) : Option (Tbl Nat × Device) :=
  d.powered.foldl (fun (acc : Option (Tbl Nat × Device)) k =>
    acc.bind fun (t, d) => (d.allocFw 1 k ((mib + 1) / 2)).map fun (id, d) => (t.put k id, d)) (some ([], d))

/-- Buffers given back. -/
def Device.freeBufs (d : Device) (t : Tbl Nat) : Device := t.foldl (fun (d : Device) e => d.freeBuf e.2) d

/-- A new index: a flat tree, empty pools (R654, R691). -/
def Device.newIndex (d : Device) (i bits_ mib : Nat) : Option Device :=
  let d := match d.index i with
    | some x => (d.freeBufs x.pools).freeBufs x.copies
    | none => d
  (d.dieBuffers mib).map fun (t, d) => (d.setIndex i ⟨bits_, 0, 0, [], [], mib, t, [], 0, false⟩).prsDiag

/-- PRS_INDEX's effect (R691, R692). -/
def prsIndex (r : Request) (d : Device) : Device × Reply :=
  let i := r.u 0 1
  let bits_ := r.u 2 2
  if r.u 1 1 = 0 then
    if bits_ < 64 || 1024 < bits_ || bits_ % 64 ≠ 0 || r.u 4 4 < 64 || 24576 < r.u 4 4 then (d, ans stBadField)
    else if (if i = 0 then !d.mapIdle || !d.map.pins.isEmpty else (d.index i).isSome) then (d, ans stBadState)
    else match d.newIndex i bits_ (r.u 4 4) with
      | none => (d, ans stNoResource)
      | some d => (d, ans stOk)
  else
    match d.index i with
    | none => (d, ans stBadField)
    | some x =>
      if i = 0 then (d, ans stBadField)
      else if !(d.pinsOn i).isEmpty || 0 < d.updatesOf i then (d, ans stBadState)
      else
        let d := (d.freeBufs x.pools).freeBufs x.copies
        ({ d with prs := { d.prs with indexes := d.prs.indexes.del i } }, ans stOk)

/-- PRS_INDEX as a setting: its own conditions say when it is permitted. -/
def setPrsIndex : Setting := ⟨0x0D01, 0, fun _ _ => [], devBody prsIndex⟩

/-- PRS_INDEX (R692). -/
def execPrsIndex (ch : Fin 8) (s : State) : Host.Outcome State Fault Refusal := configure setPrsIndex ch s

/-- PRS_CONFIG's effect. -/
def prsConfig (r : Request) (d : Device) : Device × Reply :=
  ({ d with prs := { d.prs with batchUs := r.u 0 2, compactPct := r.u 2 1 } }, ans stOk)

/-- PRS_CONFIG as a setting. -/
def setPrsConfig : Setting := ⟨0x0D06, 0, fun _ _ => [], devBody prsConfig⟩

/-- PRS_CONFIG (R691). -/
def execPrsConfig (ch : Fin 8) (s : State) : Host.Outcome State Fault Refusal := configure setPrsConfig ch s

/-- The settings of this chapter. -/
def settingsPrs : List Setting := [setPrsIndex, setPrsConfig]

/-! ## Trees (R656 to R658) -/

/-- Where the walk over node records stands: the next node to become a child, the next leaf, the level of each node known,
the records read. -/
structure TreeWalk where
  next : Nat
  leaf : Nat
  levels : List Nat
  nodes : List PrsNode

/-- One node record (R657); none where it is invalid. -/
def TreeWalk.node (w : TreeWalk) (bits_ branch depth : Nat) (b : List Byte) : Option TreeWalk :=
  let first := recU b 0 4
  let n := recU b 4 1
  let lv := recU b 5 1
  let leaf := recU b 8 4
  let ok := recU b 6 2 == 0 && recU b 12 4 == 0 && w.levels.getD w.nodes.length 256 == lv &&
    (if n = 0 then first == 0xFFFFFFFF && leaf == w.leaf && (if depth = 0 then lv == 0 else 1 ≤ lv && lv ≤ depth)
     else 2 ≤ n && n ≤ branch && first == w.next && leaf == 0xFFFFFFFF)
  if ok then
    some ⟨w.next + n, if n = 0 then w.leaf + 1 else w.leaf, w.levels ++ List.replicate n (lv + 1),
      w.nodes ++ [⟨first, n, lv, leaf, slice b 16 (bits_ / 8)⟩]⟩
  else none

/-- The records of a tree image from node `i` on; the first invalid node where one is. -/
def treeGo (bits_ branch depth size : Nat) (b : List Byte) : Nat → Nat → TreeWalk → Except Nat TreeWalk
  | 0, _, w => .ok w
  | k + 1, i, w =>
    match w.node bits_ branch depth (slice b (64 + i * size) size) with
    | none => .error i
    | some w => treeGo bits_ branch depth size b k (i + 1) w

/-- The nodes of a tree image, or the ERROR and the node (R658). -/
def treeOf (bits_ : Nat) (b : List Byte) (len : Nat) : Except (Nat × Nat) (List PrsNode) :=
  let n := recU b 12 4
  let size := 16 + bits_ / 8
  let branch := recU b 8 1
  let depth := recU b 9 1
  if slice b 0 4 != [0x4B#8, 0x50#8, 0x52#8, 0x54#8] || recU b 4 2 != 1 || recU b 6 2 != bits_ || recU b 24 8 != len
      || len != 64 + n * size then .error (1, 0)
  else if recU b 32 4 != crc32c (slice b 64 (len - 64)) then .error (2, 0)
  else match treeGo bits_ branch depth size b n 0 ⟨1, 0, [0], []⟩ with
    | .error i => .error (3, i)
    | .ok w =>
      if w.next != n then .error (3, n - 1)
      else if branch < 8 || 64 < branch || 8 < depth || n = 0 || 2097152 < n || w.leaf != recU b 16 4 || w.leaf = 0
          || 1048576 < w.leaf || depth != w.levels.foldl max 0 then .error (4, 0)
      else .ok w.nodes

/-- PRS_TREE_LOAD (R658): a MAP job. -/
def execPrsTreeLoad (ch : Fin 8) (s : State) : Host.Outcome State Fault Refusal :=
  command 0x0D02 ch (fun r d =>
    let i := r.u 0 1
    match d.index i with
    | none => (d, ans stBadField)
    | some x =>
      if !x.shards.isEmpty || 0 < d.updatesOf i || (i == 0 && !(d.map.ofKind 2).isEmpty) then (d, ans stBadState)
      else if !d.hostRange (r.u 4 4) (r.u 8 8) (r.u 16 8) then (d, ans stBadField)
      else admitCmd r ch d { Job.blank .map (.prsTree i) with
        arg := r.body, restartMax := d.jobs.restartFw, waitMs := d.jobs.waitFw, grants := [⟨r.u 4 4, 0, 0, 0⟩] }) s

/-- A tree load at its commit: status, ERROR and node. -/
def prsTreeLoad (i : Nat) (arg : List Byte) (d : Device) (m : Store) : Device × Nat × Nat × Nat :=
  match d.index i, d.bufRead m (recU arg 4 4) (recU arg 8 8) (recU arg 16 8) with
  | none, _ => (d, stBadField, 0, 0)
  | some _, .error e => (d.logAccess 4 e, stFailed, 0, 0)
  | some x, .ok b =>
    match treeOf x.codeBits b (recU arg 16 8) with
    | .error (e, n) => (d, stBadField, e, n)
    | .ok nodes =>
      match (d.freeBufs x.copies).dieBuffers ((b.length + 1048575) / 1048576) with
      | none => (d, stNoResource, 5, 0)
      | some (t, d) => (d.setIndex i { x with
          branch := recU b 8 1, depth := recU b 9 1, nodes := if nodes.length = 1 then [] else nodes, copies := t }, stOk, 0, 0)

/-! ## Updates (R667 to R671) -/

/-- PRS_UPDATE (R691): a USER job. -/
def execPrsUpdate (ch : Fin 8) (s : State) : Host.Outcome State Fault Refusal :=
  command 0x0D03 ch (fun r d =>
    let i := r.u 0 1
    match d.index i with
    | none => (d, ans stBadField)
    | some x =>
      if !d.hostRange (r.u 8 4) (r.u 16 8) (r.u 4 4 * (8 + x.codeBits / 8)) then (d, ans stBadField)
      else admitCmd r ch d { Job.blank .user (.prsUpdate i) with
        arg := r.body, restartMax := d.jobs.restartFw, waitMs := d.jobs.waitFw, grants := [⟨r.u 8 4, 0, 0, 0⟩] }) s

/-- The result of PRS_UPDATE. -/
def Updated.bytes (u : Updated) : List Byte :=
  [u.x.epoch, u.inserted, u.deleted, u.dup, u.absent, u.lost].flatMap (leBytes 4)

/-- An update at its commit: its records in order, all or none (R670, R671, R692). DEDUCED: log entry 35. -/
def prsUpdate (i : Nat) (arg : List Byte) (d : Device) (m : Store) : Device × Nat × List Byte :=
  match d.index i with
  | none => (d, stBadField, [])
  | some x =>
    let size := 8 + x.codeBits / 8
    let n := recU arg 4 4
    match d.bufRead m (recU arg 8 4) (recU arg 16 8) (n * size) with
    | .error e => (d.logAccess 4 e, stFailed, [])
    | .ok b =>
      let rs := (List.range n).map fun k => slice b (k * size) size
      if rs.any fun r => recU r 0 1 == 0 || 2 < recU r 0 1 || recU r 1 3 != 0 || recU r 4 4 == 0xFFFFFFFF then
        (d, stBadField, [])
      else
        let u := rs.foldl (fun (u : Updated) r =>
          if recU r 0 1 = 1 then u.insert d.pwr.dieOn (x.epoch + 1) (recU r 4 4) (r.drop 8)
          else u.delete (x.epoch + 1) (recU r 4 4) (r.drop 8)) (Updated.start x)
        if u.full || (0 < u.inserted + u.deleted && x.epoch = 0xFFFFFFFE) then (d, stNoResource, [])
        else
          let u := { u with x := u.commit }
          (d.setIndex i u.x, stOk, u.bytes)

/-! ## Queries (R672 to R683) -/

/-- PRS_QUERY (R664, R691, R692): a USER job, pinned at its acceptance. -/
def execPrsQuery (ch : Fin 8) (s : State) : Host.Outcome State Fault Refusal :=
  command 0x0D04 ch (fun r d =>
    let i := r.u 0 1
    let f := r.u 2 1
    let nq := r.u 12 4
    match d.index i with
    | none => (d, ans stBadField)
    | some x =>
      if r.u 8 2 < r.u 6 2 || 4096 < r.u 8 2 || !d.hostRange (r.u 16 4) (r.u 24 8) (nq * (8 + x.codeBits / 8))
          || !d.hostRange (r.u 20 4) (r.u 32 8) (nq * (24 + 8 * r.u 4 2))
          || (f != 0 && (r.u 56 4 == 0 || 0xFFFFFFFF < r.u 44 4 + r.u 56 4
            || !d.hostRange (r.u 40 4) (r.u 48 8) ((r.u 56 4 + 7) / 8))) then (d, ans stBadField)
      else
        let id := freeJobId d.jobs.table (d.jobs.table.length + 3) d.jobs.nextId
        let y := admitCmd r ch d { Job.blank .user (.prsQuery i) with
          arg := r.body, restartMax := d.jobs.restartFw, waitMs := d.jobs.waitFw
          grants := [⟨r.u 16 4, 0, 0, 0⟩, ⟨r.u 20 4, 1, 0, 0⟩] ++ (if f = 0 then [] else [⟨r.u 40 4, 0, 0, 0⟩]) }
        if y.2.status = stAccepted then
          ({ y.1 with prs := { y.1.prs with pins := y.1.prs.pins ++ [(id, i, x.epoch)] } }, y.2)
        else y) s

/-- A query that starts (R673, R681): round 1 is sent. -/
def Device.startRun (d : Device) (r : PrsRun) : Device :=
  match d.index r.index with
  | none => d
  | some x => d.sendRound (r.nextRound x d.pwr.dieOn)

/-- A query not yet begun. -/
def PrsRun.blank (job index n : Nat) (code : List Byte) (pin k : Nat) : PrsRun where
  job := job
  index := index
  n := n
  qid := n
  code := code
  pin := pin
  k := k
  probes := 8
  widen := true
  probesMax := 64
  filter := 0
  base := 0
  nbits := 0
  bitmap := []
  coord := 0
  queue := []
  probed := 0
  rounds := 0
  qfull := false
  found := 0
  scanned := 0
  cands := []
  round := none
  waitOn := 0
  got := []
  gotFound := 0
  gotScanned := 0
  done := false

/-- The pin a job holds on an index. -/
def Device.pinOf (d : Device) (job i : Nat) : Nat :=
  (d.prs.pins.find? fun p => p.1 == job && p.2.1 == i).elim 0 (·.2.2)

/-- The queries of PRS_QUERY when its job starts. -/
def Device.queryLoad (d : Device) (m : Store) (id i : Nat) (a : List Byte) : Device :=
  match d.index i with
  | none => d
  | some x =>
    let size := 8 + x.codeBits / 8
    let dies := d.powered
    let f := recU a 2 1
    let map := if f = 0 then [] else fwRead d m (recU a 40 4) (recU a 48 8) ((recU a 56 4 + 7) / 8)
    (List.range (recU a 12 4)).foldl (fun (d : Device) n =>
      let q := fwRead d m (recU a 16 4) (recU a 24 8 + n * size) size
      d.startRun { PrsRun.blank id i n (q.drop 8) (d.pinOf id i) (recU a 4 2) with
        qid := recU q 0 4, probes := recU a 6 2, widen := bit (recU a 1 1) 0, probesMax := recU a 8 2, filter := f
        base := recU a 44 4, nbits := recU a 56 4, bitmap := map, coord := dies.getD (n % max 1 dies.length) 0 }) d

/-- A list of IDs as a deny bitmap from the lowest of them: base, length and bits (R602, R680). -/
def denyMap (ids : List Nat) : Nat × Nat × List Byte :=
  match ids with
  | [] => (0, 0, [])
  | i :: is =>
    let lo := is.foldl min i
    let n := is.foldl max i + 1 - lo
    (lo, n, (List.range ((n + 7) / 8)).map fun b =>
      BitVec.ofNat 8 ((List.range 8).foldl (fun v k => v + b2n (ids.elem (lo + 8 * b + k)) * 2 ^ k) 0))

/-- The query of a LOOP job (R602, R606, R680, R681): of a keyframe, or of a frame whose code the job carries; it is pinned to
map and index as it is accepted (R630, R664). -/
def Device.loopLoad (d : Device) (id : Nat) (j : Job) : Device :=
  let die := d.loc.loop.die.getD d.loc.cfg.pair
  match d.index 0 with
  | none => d
  | some x =>
    let start := fun (code : List Byte) (filter : Nat) (dm : Nat × Nat × List Byte) =>
      let d := d.pinMap id
      let d := { d with prs := { d.prs with pins := d.prs.pins ++ [(id, 0, x.epoch)] } }
      d.startRun { PrsRun.blank id 0 0 code x.epoch d.loc.loop.k with
        filter := filter, base := dm.1, nbits := dm.2.1, bitmap := dm.2.2, coord := die }
    match j.work with
    | .loop kf =>
      match d.map.newest kf with
      | none => d
      | some b =>
        let at_ := dtsMoment (BitVec.ofNat 128 (recU b 32 16))
        let near := (d.map.ofKind 2).filter fun e => recU e.2 16 4 == recU b 16 4
          && decide (((dtsMoment (BitVec.ofNat 128 (recU e.2 32 16)) : Int) - at_).natAbs ≤ d.loc.loop.exclude * oneS)
        start (slice b 176 (x.codeBits / 8)) 2 (denyMap (near.map (·.1)))
    | .reloc => start (j.arg.take (x.codeBits / 8)) 0 (0, 0, [])
    | _ => d

/-- What the place search holds for a job that starts. -/
def Device.prsLoad (d : Device) (m : Store) (id : Nat) (j : Job) : Device :=
  match j.work with
  | .prsQuery i => d.queryLoad m id i j.arg
  | .prsCompact i =>
    match d.index i with
    | none => d
    | some x => { d with prs := { d.prs with
        compacts := d.prs.compacts ++ x.shards.map fun e => (id, e.1 % 8, i, e.1 / 8)
        reclaimed := d.prs.reclaimed.put id 0 } }
  | _ => d.loopLoad id j

/-- The rounds a window takes first: class, admission, query number (R682). -/
def Device.roundBefore (d : Device) (a b : Nat × Nat) : Bool :=
  if a.1 = b.1 then a.2 ≤ b.2 else d.opBefore a.1 b.1

/-- What one window does: rounds of a die scanned, and shard bytes and compared pairs counted. -/
def Device.scanWindow (d : Device) (die : Nat) (rs : List (Nat × Nat)) : Device :=
  let runs := rs.filterMap fun k => d.prs.runs.find? fun r => r.job == k.1 && r.n == k.2
  let leaves := (runs.flatMap fun r => (r.round.getD []).map fun l => (r.index, l)).eraseDups
  let blocks := (leaves.map fun l => match d.index l.1 with
    | some x => x.blocks (x.shard l.2 die).length
    | none => 0).sum
  let cycles := (runs.map fun r => match d.index r.index with
    | some x => ((r.round.getD []).map fun l => (x.shard l die).length).sum * ((x.codeBits + 255) / 256)
    | none => 0).sum
  let d := runs.foldl (fun (d : Device) r => match d.index r.index with
    | none => d
    | some x =>
      let g := r.scan x die (r.round.getD [])
      d.setRun { r with
        got := mergeKeys r.k r.got g.1, gotFound := r.gotFound + g.2.1, gotScanned := r.gotScanned + g.2.2
        waitOn := r.waitOn &&& ~~~ BitVec.twoPow 8 die }) d
  let read := d.prs.readRem.getD die 0 + 4096 * blocks
  let busy := d.prs.busyRem.getD die 0 + max (4096 * blocks / 32) ((cycles + 15) / 16) + 2000
  let d := ((d.diagAdd die 0x0D0 0 32 1).diagAdd die 0x0D4 0 32 (busy / 1024)).diagAdd die 0x0D8 0 32 (read / 65536)
  { d with prs := { d.prs with readRem := d.prs.readRem.put die (read % 65536), busyRem := d.prs.busyRem.put die (busy % 1024) } }

/-- BATCH_WINDOW_CLOSE (R682, R683): full, or BATCH_US after it opened; rounds beyond 1,024 open the next. -/
def execBatchWindowClose (die : Fin 8) (s : State) : Host.Outcome State Fault Refusal :=
  onDev (fun d =>
    let k := die.val
    match if d.engineTested k 3 then none else d.prs.windows.look k with
    | none => d
    | some at_ =>
      let rs := (d.prs.rounds.getD k []).mergeSort d.roundBefore
      let d := if 1024 ≤ rs.length then d else d.advanceTo (at_ + d.prs.batchUs * oneUs)
      let d := d.scanWindow k (rs.take 1024)
      let rest := rs.drop 1024
      { d with prs := { d.prs with
        windows := if rest.isEmpty then d.prs.windows.del k else d.prs.windows.put k d.time.now
        rounds := d.prs.rounds.put k rest } }) s

/-- A query's result goes to the result buffer of its command (R678); that of firmware stays with the query. -/
def prsDone (r : PrsRun) (d : Device) (m : Store) : Device × Store :=
  let d := if r.qfull then d.diagAdd r.coord 0x0DC 0 16 1 else d
  let d := d.setRun { r with done := true, round := none }
  match d.job r.job with
  | none => (d, m)
  | some j =>
    match j.work with
    | .prsQuery _ =>
      let damaged := match d.index r.index with | some x => x.damaged | none => true
      match d.bufStore m (recU j.arg 20 4) (recU j.arg 32 8 + r.n * (24 + 8 * r.k)) (r.record damaged) with
      | .error e => (d.engineFault r.job 4 r.coord e, m)
      | .ok x => x
    | _ => (d, m)

/-- ROUND_MERGE (R673, R675, R683): all dies have answered a round of a query; a further round follows or the query ends. -/
def execRoundMerge (job n : Nat) (s : State) : Host.Outcome State Fault Refusal :=
  onBoth (fun d m =>
    match d.prs.runs.find? fun r => r.job == job && r.n == n with
    | none => (d, m)
    | some r =>
      if r.done || r.round.isNone || (r.waitOn &&& d.pwr.dieOn) ≠ 0 then (d, m) else
        let r := { r with
          cands := mergeKeys r.k r.cands r.got, found := r.found + r.gotFound, scanned := r.scanned + r.gotScanned
          round := none }
        match d.index r.index with
        | none => prsDone r d m
        | some x =>
          if r.widens then
            let r' := r.nextRound x d.pwr.dieOn
            let runs := d.prs.runs.filter fun y => !(y.job == job && y.n == n)
            (({ d with prs := { d.prs with runs := runs } }.sendRound r').diagAdd r.coord 0x0DC 16 16 1, m)
          else prsDone r d m) s

/-- The queries of a job that are not done. -/
def Device.queriesOpen (d : Device) (job : Nat) : Bool := d.prs.runs.any fun r => r.job == job && !r.done

/-- The result of PRS_QUERY. -/
def Device.queryResult (d : Device) (job i nq : Nat) : List Byte :=
  let rs := d.prs.runs.filter fun r => r.job == job
  let count := fun (p : PrsRun → Bool) => (rs.filter p).length
  [d.pinOf job i, nq, count fun r => decide (r.found < r.k), count fun r => decide (1 < r.rounds)].flatMap (leBytes 4)

/-! ## Compaction (R684, R685) -/

/-- Whether an entry is reclaimable. -/
def PrsEntry.reclaimable (e : PrsEntry) (pin : Option Nat) : Bool :=
  e.del != 0xFFFFFFFF && match pin with | none => true | some p => e.del ≤ p

/-- PRS_COMPACT (R691): a MAP job. -/
def execPrsCompact (ch : Fin 8) (s : State) : Host.Outcome State Fault Refusal :=
  command 0x0D05 ch (fun r d =>
    let i := r.u 0 1
    if (d.index i).isNone then (d, ans stBadField)
    else admitCmd r ch d { Job.blank .map (.prsCompact i) with
      arg := r.body, restartMax := d.jobs.restartFw, waitMs := d.jobs.waitFw }) s

/-- SHARD_COMPACTION (R684, R685): on a die with no window to process, a shard that is asked for or has enough reclaimable
entries is copied without them; one without free blocks is passed over. DESIGN CHOICE: log entry 34. -/
def execShardCompaction (die : Fin 8) (index leaf : Nat) (s : State) : Host.Outcome State Fault Refusal :=
  onDev (fun d =>
    let k := die.val
    match d.index index with
    | none => d
    | some x =>
      if (d.prs.windows.look k).isSome || !d.domainOn k 10 then d else
        let es := x.shard leaf k
        let pin := d.minPin index
        let dead := (es.filter fun e => e.reclaimable pin).length
        let asks := d.prs.compacts.filter fun c => c.2 == (k, index, leaf)
        let due := !es.isEmpty && es.length * d.prs.compactPct ≤ dead * 100 && 0 < dead
        if asks.isEmpty && !due then d else
          let kept := es.filter fun e => !e.reclaimable pin
          let d := { d with prs := { d.prs with compacts := d.prs.compacts.filter fun c => c.2 != (k, index, leaf) } }
          if x.freeBlocks k < x.blocks kept.length || dead = 0 then d else
            let d := (d.setIndex index (x.setShard leaf k kept)).diagAdd k 0x0E0 0 32 dead
            let d := { d with prs := { d.prs with
              reclaimed := asks.foldl (fun (t : Tbl Nat) (a : Nat × Nat × Nat × Nat) => t.put a.1 (t.getD a.1 0 + dead)) d.prs.reclaimed } }
            d.prsDiag) s

end Sys2Proof.Machine
end

