-- ==== Sys2Proof/Machine/SfeOps.lean ====
section
/-! DEFINITION. The decimation chain of the sensing front end (R287 to R297), calibration (R307), detectors (R312 to R314),
resolvers (R318) and the records (R321, R322). Chain values are sQ0.23 with the mark of R288. -/

namespace Sys2Proof.Machine

/-! ## Delays -/

/-- Taps of a half-band stage or HBR by coefficient set (R287). -/
def hbTaps (stage : Nat) : Nat :=
  match stage with
  | 0 => 7
  | 1 => 11
  | 2 => 15
  | 3 => 23
  | 4 => 35
  | 5 => 59
  | _ => 513

/-- The coefficient set of half-band stage HBk. -/
def hbSet (k : Nat) : Nat := if k ≤ 5 then k - 1 else 5

/-- T_H in 2^-16 ns (R286). -/
def chainPeriod (h : Nat) : Nat := 1280 * 2 ^ h * oneNs

/-- GD_H in 2^-16 ns (R290). -/
def chainDelay : Nat → Nat
  | 0 => 3000 * oneNs
  | h + 1 => chainDelay h + (hbTaps (hbSet (h + 1)) - 1) / 2 * chainPeriod h

/-- 0.60 µs in 2^-16 ns. -/
def frontDelay : Nat := 600 * oneNs

/-- Twice the whole group delay of a main channel in 2^-16 ns (R291). -/
def SfeStream.delay2 (x : SfeStream) : Nat :=
  if x.path = 0 then 2 * chainDelay x.h + 16 * chainPeriod x.h + 29 * x.p
  else 2 * chainDelay x.h + 3 * (x.m - 1) * chainPeriod x.h

/-! ## Filters -/

/-- A coefficient in sQ1.22; K(512) is 0 (R296). -/
def sfeCoef (stage i : Nat) : Int :=
  if stage = 6 && i = 512 then 0 else signed 24 (Config.sfeCoef stage i).toNat

/-- Saturation to sQ0.23, joined to the mark of what went in (R288). -/
def sat23 (v : Int) (over_ : Bool) : Int × Bool :=
  let c := clampI (-8388608) 8388607 v
  (c, over_ || decide (c ≠ v))

/-- A value enters a delay line that keeps `cap` values. -/
def SfeLine.push (l : SfeLine) (cap : Nat) (v : Int × Bool) : SfeLine := ⟨l.n + 1, (v :: l.xs).take cap⟩

/-- The value of index `i` in a line; zero before the start (R286). -/
def SfeLine.at (l : SfeLine) (i : Int) : Int × Bool :=
  if i < 0 || (l.n : Int) ≤ i then (0, false) else l.xs.getD ((l.n : Int) - 1 - i).toNat (0, false)

/-- The sum of coefficients times values. -/
def firSum : List Int → List (Int × Bool) → Int
  | c :: cs, x :: xs => c * x.1 + firSum cs xs
  | _, _ => 0

/-- One value through half-band stage `set`: the line after it, and the output when its index is even (R287). -/
def halfBand (set : Nat) (l : SfeLine) (v : Int × Bool) : SfeLine × Option (Int × Bool) :=
  let taps := hbTaps set
  let l' := l.push taps v
  let dl := (taps - 1) / 2
  if l.n < dl || (l.n - dl) % 2 ≠ 0 then (l', none)
  else
    let cs := (List.range taps).map (sfeCoef set)
    (l', some (sat23 (rne (firSum cs l'.xs) (2 ^ 22)) (l'.xs.any (·.2))))

/-- What a value at stage `k` leaves: lines after it, the value at stage `det` when one came, and the value at the last
stage. -/
def chainGo (det : Nat) : Nat → List SfeLine → Int × Bool → List SfeLine × Option (Int × Bool) × Option (Int × Bool)
  | k, [], v => ([], if k = det then some v else none, some v)
  | k, l :: ls, v =>
    let here := if k = det then some v else none
    match halfBand (hbSet (k + 1)) l v with
    | (l', none) => (l' :: ls, here, none)
    | (l', some y) =>
      let r := chainGo det (k + 1) ls y
      (l' :: r.1, here.or r.2.1, r.2.2)

/-- Weights of the sinc3 stage (R287): how many triples below `m` sum to `t`. -/
def sinc3Weight (m t : Nat) : Nat :=
  (List.range m).foldl (fun n c => if c ≤ t && t - c ≤ 2 * (m - 1) then n + min (t - c + 1) (2 * m - 1 - (t - c)) else n) 0

/-- Output `n` of the INTDEC path (R293). -/
def intdec (m n : Nat) (l : SfeLine) : Int × Bool :=
  if m ≤ 1 then l.at n else
    let ts := (List.range (3 * m - 2)).map fun t => (sinc3Weight m t, l.at ((n * m + t : Nat) : Int))
    sat23 (rne (ts.foldl (fun a x => a + (x.1 : Int) * x.2.1) 0) (m * m * m)) (ts.any (·.2.2))

/-- Where resampler sample `m` lies (R295): the chain index j and f16. `ws` is W − S₀ in 2^-16 ns. -/
def resamplePoint (ws : Int) (p h : Nat) (m : Int) : Int × Nat :=
  let num := 2 * ws + m * p
  let den := 2 * chainPeriod h
  let j := num.fdiv den
  let f := (rne ((num - j * den) * 65536) den).toNat
  if f = 65536 then (j + 1, 0) else (j, f)

/-- Resampler sample `m` (R295). -/
def resample (ws : Int) (p h : Nat) (l : SfeLine) (m : Int) : Int × Bool :=
  let (j, f) := resamplePoint ws p h m
  let ph := f / 1024
  let a := f % 1024
  let ts := (List.range 16).map fun (i : Nat) =>
    let n : Int := 64 * (7 - (i : Int)) + ph
    let kv := (1024 - (a : Int)) * sfeCoef 6 n.natAbs + a * sfeCoef 6 (n + 1).natAbs
    (kv, l.at (j - 7 + i))
  sat23 (rne (ts.foldl (fun s x => s + x.1 * x.2.1) 0) (1024 * 2 ^ 22)) (ts.any (·.2.2))

/-- Output `k` of the RESAMPLE path: HBR centred on resampler sample 2k (R294). -/
def resampled (ws : Int) (p h : Nat) (l : SfeLine) (k : Nat) : Int × Bool :=
  let ts := (List.range 59).map fun t => (sfeCoef 5 t, resample ws p h l (2 * (k : Int) + 29 - t))
  sat23 (rne (ts.foldl (fun s x => s + x.1 * x.2.1) 0) (2 ^ 22)) (ts.any (·.2.2))

/-- W − S₀ (R294). -/
def SfeStream.ws (x : SfeStream) : Int := (x.w : Int) - x.s0

/-- The instant that output `n` describes, in 2^-16 ns (R293, R294). -/
def SfeStream.instant (x : SfeStream) (n : Nat) : Nat :=
  if x.path = 0 then x.w + n * x.p else x.s0 + (2 * n * x.m + 3 * (x.m - 1)) * chainPeriod x.h / 2

/-- Whether everything output `n` rests on has come. -/
def SfeStream.complete (x : SfeStream) (n : Nat) : Bool :=
  if x.path = 0 then decide ((resamplePoint x.ws x.p x.h (2 * (n : Int) + 29)).1 + 8 < x.out.n)
  else n * x.m + 3 * x.m - 3 < x.out.n

/-- An output of one winding or input. -/
def SfeStream.output (x : SfeStream) (l : SfeLine) (n : Nat) : Int × Bool :=
  if x.path = 0 then resampled x.ws x.p x.h l n else intdec x.m n l

/-! ## Calibration -/

/-- A raw sinc4 output or conversion, in 2^-31 of full scale, calibrated (R280, R307). -/
def calibrated (offset : Int) (gain : Nat) (raw : Int) : Int × Bool :=
  sat23 (rne ((gain : Int) * (raw - offset)) (2 ^ 38)) (decide (2147483648 ≤ raw.natAbs))

/-- The values a channel start takes (R310). -/
def Device.sfeValues (d : Device) (s : Nat) : Int × Nat :=
  ((d.sfeS s).written).getD ((d.sfe.lastCal.look s).getD (0, 1073741824))

/-! ## Detectors -/

/-- The window of a moment relative to S₀: the index of its window from W. -/
def SfeStream.windowOf (x : SfeStream) (n : Nat) : Nat :=
  let wn := x.window * 1000 * oneNs
  if wn = 0 then 0 else (x.s0 - x.w + n * chainPeriod x.detH) / wn

/-- One sample of stage DET_H in the detectors (R312 to R314). -/
def SfeStream.detect (x : SfeStream) (masked : Bool) (v : Int × Bool) : SfeStream :=
  let k := x.windowOf x.detN
  let settling := decide (x.detN * chainPeriod x.detH + frontDelay < chainDelay x.detH)
  let e31 : Int := v.1.natAbs * 256
  let diff := e31 - x.env
  let env := x.env + rne diff (2 ^ (if 0 < diff then x.attack else x.release))
  let fresh : SfeWin := ⟨k, 0, v.1, v.1, 0, 0, env, env, false, false, false⟩
  let (w, ready) := match x.win with
    | none => (fresh, x.ready)
    | some w => if w.k = k then (w, x.ready) else (fresh, x.ready ++ [w])
  let w' : SfeWin :=
    { k := k, n := w.n + 1, max := max w.max v.1, min := min w.min v.1, sum := w.sum + v.1,
      sq := w.sq + v.1.natAbs * v.1.natAbs, envMax := max w.envMax env, envEnd := env,
      settling := w.settling || settling, over_ := w.over_ || v.2, masked := w.masked || masked }
  { x with detN := x.detN + 1, env := env, win := some w', ready := ready }

/-- Whether the current window holds its last sample. -/
def SfeStream.windowFull (x : SfeStream) : Bool :=
  match x.win with
  | some w => w.k < x.windowOf x.detN
  | none => false

/-! ## Samples through the chain -/

/-- The sine of the excitation phase less PHASE_C at sinc4 sample `j` of a stream (R315, R318), fixed point. -/
def Device.excSine (d : Device) (s j : Nat) : Int :=
  let x := d.sfeS s
  let e := d.sfeExc (sfeDie s)
  let inc := rne ((e.freq : Int) * 65536) 781250
  let steps := ((x.s0 : Int) - e.e0).fdiv (chainPeriod 0) + j
  let turns := (steps * inc - (x.phaseC : Int) * 65536) % 4294967296
  fxSin ((2 * fxPi * turns).fdiv 4294967296)

/-- A calibrated winding sample times the reference, in sQ0.23 (R318). -/
def demod (v : Int × Bool) (sine : Int) : Int × Bool := sat23 (rne (v.1 * sine) (2 ^ 128)) v.2

/-- How many values of the last stage are kept: the 190 of the longest sinc3, or those under HBR. -/
def outCap : Nat := 200

/-- One sinc4 sample of a main channel, and of its partner when it is a resolver, goes through (R287, R318). -/
def Device.sfePush (d : Device) (s : Nat) (raw raw2 : Int) : Device :=
  let x := d.sfeS s
  let v := calibrated x.offset x.gain raw
  let v2 := calibrated (d.sfeS (s + 1)).offset (d.sfeS (s + 1)).gain raw2
  let j := (x.lines.head?.getD x.out).n
  let sine := if x.res then d.excSine s j else 0
  let a := chainGo x.detH 0 x.lines (if x.res then demod v sine else v)
  let x := { x with lines := a.1, out := (a.2.2.map (x.out.push outCap)).getD x.out }
  let x := if x.res then
      let b := chainGo x.detH 0 x.lines2 (demod v2 sine)
      { x with lines2 := b.1, out2 := (b.2.2.map (x.out2.push outCap)).getD x.out2 }
    else x
  let x := match a.2.1 with
    | some v => if x.detOn then x.detect (decide (x.state = .fault)) v else x
    | none => x
  d.updSfe s fun _ => x

/-- Sinc4 samples in order; a partner's missing samples are zero. -/
def sfePushAll (s : Nat) : List Int → List Int → Device → Device
  | [], _, d => d
  | r :: rs, qs, d => sfePushAll s rs qs.tail (d.sfePush s r (qs.headD 0))

/-! ## Records -/

/-- Key by which a job holds a record of an SFE ring (R300). -/
def sfeSlotKey (s slot : Nat) : Nat := slotKey (1024 + s) slot

/-- A ring of a stream, allocated when it has none. -/
def Device.sfeRing (d : Device) (s : Nat) (det : Bool) : Device :=
  let x := d.sfeS s
  let have_ := if det then x.detBuf else x.buf
  if have_.isSome then d else
    match d.allocFw 1 (sfeDie s) 1 with
    | none => d
    | some (id, d) => d.updSfe s fun x => if det then { x with detBuf := some id } else { x with buf := some id }

/-- The flag bits of a record (R321). -/
def sfeFlags (settling over_ masked stepped gap : Bool) : Nat :=
  b2n settling + 2 * b2n over_ + 4 * b2n masked + 8 * b2n stepped + 16 * b2n gap

/-- A sample record written, or dropped when a job holds its slot (R300, R321, R325). DESIGN CHOICE: log entry 21. -/
def sfeRecord (s kind flags : Nat) (dts : BitVec 128) (a b : Nat) (d : Device) (m : Store) : Device × Store :=
  let d := d.sfeRing s false
  let x := d.sfeS s
  let die := sfeDie s
  let next := { x with seq := (x.seq + 1) % 2 ^ 32, gap := false, stepped := false }
  if d.jobs.table.any fun e => e.2.active && e.2.frames.elem (sfeSlotKey s x.at_) then
    ((d.updSfe s fun _ => { next with held := min (x.held + 1) 0xFFFFFFFF }).diagAdd die 0x024 0 32 1, m)
  else
    let bytes := leBytes 1 s ++ leBytes 1 flags ++ leBytes 1 kind ++ zeros 1 ++ leBytes 4 x.seq ++ leBytes 16 dts.toNat
      ++ leBytes 4 a ++ leBytes 4 b
    let (d, m) := fwWrite (x.buf.getD 0) (x.at_ * 32) bytes d m
    let over_ := bit flags 1
    let d := if over_ then d.diagAdd die 0x020 0 32 1 else d
    (d.updSfe s fun _ => { next with
      at_ := (x.at_ + 1) % max 1 x.ring
      lastSeq := x.seq
      dts := dts
      last := signed 32 a
      over_ := if over_ then min (x.over_ + 1) 0xFFFFFFFF else x.over_ }, m)

/-- The VALUE field of a chain value and its ENG field (R321, DESIGN CHOICE, log entry 21). -/
def SfeStream.engOf (x : SfeStream) (v : Int) : Nat :=
  toFp32 ((((Num.ofInt v).scale (-23)).mul (ofFp32 x.engScale)).add (ofFp32 x.engOffset))

/-- The moment an SFE record is stamped with: the instant minus A (R291, R212). -/
def Device.sfeMoment (d : Device) (s instant : Nat) : Nat := ((instant : Int) - (d.comp 3 s).a).toNat

/-- ANGLE of a resolver (R318): exact to the rounding, plus a free error of at most 2^-20 turn. -/
def Device.resolverAngle (d : Device) (s c : Int) : Nat :=
  let turns := rne (fxAtan2 (s * fxOne) (c * fxOne) * 2147483648) fxPi.toNat
  unsigned 32 (turns + ((d.freeWord 20).toNat % 8193 : Nat) - 4096)

/-- Full scale of a range in mV (R280). -/
def fullScale (range : Nat) : Nat :=
  match range with
  | 0 => 10000
  | 1 => 2500
  | 2 => 250
  | _ => 25

/-- AMPL of a resolver in uQ1.15 (R318). -/
def resolverAmpl (s c : Int) (range ampl : Nat) : Nat :=
  let num := (s.natAbs * s.natAbs + c.natAbs * c.natAbs) * (fullScale range * 65536) ^ 2
  min 65535 (rneSqrt num ((max 1 ampl * 8388608) ^ 2))

/-- The next output of a main channel leaves the shell (R291 to R299, R318). -/
def sfeEmit (s : Nat) (d : Device) (m : Store) : Device × Store :=
  let x := d.sfeS s
  let n := x.next
  if !x.complete n then (d, m) else
    let instant := x.instant n
    let settling := decide (2 * instant + 2 * frontDelay < 2 * x.s0 + x.delay2)
    let d := d.advanceToDev (instant + x.delay2 / 2)
    let dts := d.stampAt (sfeDie s) (d.sfeMoment s instant)
    let v := x.output x.out n
    let w := if x.res then x.output x.out2 n else (0, false)
    let flags := sfeFlags settling (v.2 || w.2) (decide (x.state = .fault)) x.stepped x.gap
    let ampl := resolverAmpl v.1 w.1 x.range (d.sfeExc (sfeDie s)).ampl
    let angle := d.resolverAngle v.1 w.1
    let (d, m) := if x.res then sfeRecord s 1 flags dts angle ampl d.tickFree m
      else sfeRecord s 0 flags dts (unsigned 32 (v.1 * 256)) (x.engOf v.1) d m
    let weak := ampl * 20 < 32768
    (d.updSfe s fun y => { y with
      next := n + 1
      state := if y.state = .settling && !settling then .active else y.state
      low := if x.res && weak then y.low + 1 else 0
      good := if x.res && !weak then y.good + 1 else 0 }, m)

/-- Whether a stream is the odd half of a resolver pair in use (R316). -/
def Device.sfeOdd (d : Device) (s : Nat) : Bool :=
  s < 64 && s % 2 = 1 && (d.sfeS (s - 1)).enable && (d.sfeS (s - 1)).res

/-- Whether a main channel's chain runs. -/
def Device.sfeRuns (d : Device) (s : Nat) : Bool :=
  let x := d.sfeS s
  32 ≤ s && s < 64 && x.start.isNone && !d.sfeOdd s
    && (decide (x.state = .settling) || decide (x.state = .active) || decide (x.state = .fault))

/-- RMS of a window in 2^-31 (R313). -/
def SfeWin.rms (w : SfeWin) (dc : Bool) : Nat :=
  if dc then rneSqrt ((w.n * w.sq - w.sum.natAbs * w.sum.natAbs) * 65536) (w.n * w.n)
  else rneSqrt (w.sq * 65536) w.n

/-- A value saturated to sQ0.31, as its 32 bits. -/
def q31 (v : Int) : Nat := unsigned 32 (clampI (-2147483648) 2147483647 v)

/-- A complete window's record is emitted (R312 to R314, R322, R325). -/
def sfeWindow (s : Nat) (w : SfeWin) (d : Device) (m : Store) : Device × Store :=
  let d := d.sfeRing s true
  let x := d.sfeS s
  let die := sfeDie s
  let len := x.window * 1000 * oneNs
  let start := x.w + w.k * len
  let d := d.advanceToDev (start + len + chainDelay x.detH)
  let dts := d.stampAt die (d.sfeMoment s start)
  let next := { x with detSeq := (x.detSeq + 1) % 2 ^ 32, detStepped := false, detGap := false }
  if d.jobs.table.any fun e => e.2.active && e.2.frames.elem (sfeSlotKey (s + 128) x.detAt) then
    ((d.updSfe s fun _ => { next with held := min (x.held + 1) 0xFFFFFFFF }).diagAdd die 0x024 0 32 1, m)
  else
    let flags := sfeFlags w.settling w.over_ w.masked x.detStepped x.detGap
    let bytes := leBytes 1 s ++ leBytes 1 flags ++ leBytes 1 2 ++ zeros 1 ++ leBytes 4 x.detSeq ++ leBytes 16 dts.toNat
      ++ leBytes 4 (q31 (w.max * 256)) ++ leBytes 4 (q31 (w.min * 256)) ++ leBytes 4 (q31 (w.rms x.detDc))
      ++ leBytes 4 (q31 (rne (w.sum * 256) w.n)) ++ leBytes 4 (q31 w.envEnd) ++ leBytes 4 (q31 w.envMax)
    let (d, m) := fwWrite (x.detBuf.getD 0) (x.detAt * 48) bytes d m
    let d := if w.over_ then d.diagAdd die 0x020 0 32 1 else d
    (d.updSfe s fun _ => { next with
      detAt := (x.detAt + 1) % 1024
      over_ := if w.over_ then min (x.over_ + 1) 0xFFFFFFFF else x.over_ }, m)

/-! ## Auxiliary scan -/

/-- The conversion window of a scan in 2^-16 ns (R302). -/
def SfeScan.window (c : SfeScan) : Nat := (if c.mode = 0 then 1 else 3) * 2 ^ c.osr * 80 * oneNs

/-- A slot of a scan in 2^-16 ns. -/
def SfeScan.slot (c : SfeScan) : Nat := c.settle * 1000 * oneNs + c.window

/-- The enabled auxiliary inputs of a die; input 7 always (R302). -/
def Device.auxEnabled (d : Device) (die : Nat) : List Nat :=
  (List.range 8).filter fun j => j == 7 || (d.sfeS (64 + 8 * die + j)).enable

/-- Whether the slots of `n` inputs fit the period (R304). -/
def SfeScan.fits (c : SfeScan) (n : Nat) : Bool := n * c.slot ≤ c.period * oneNs

/-- One auxiliary conversion: its record (R283, R303, R321). -/
def auxRecord (s instant : Nat) (raw : Int) (d : Device) (m : Store) : Device × Store :=
  let x := d.sfeS s
  if x.start.isSome || !(x.state = .settling || x.state = .active || x.state = .fault) then (d, m) else
    let v := calibrated x.offset x.gain raw
    let dts := d.stampAt (sfeDie s) (d.sfeMoment s instant)
    let flags := sfeFlags false v.2 (decide (x.state = .fault)) x.stepped x.gap
    let (d, m) := sfeRecord s 0 flags dts (unsigned 32 (v.1 * 256)) (x.engOf v.1) d m
    (d.updSfe s fun y => { y with state := if y.state = .settling then .active else y.state }, m)

/-- The conversions of one scan, in order, with the slot each stands in. -/
def auxGo (die : Nat) (c : SfeScan) (start : Nat) : Nat → List Nat → List Int → Device → Store → Device × Store
  | _, [], _, d, m => (d, m)
  | i, j :: js, rs, d, m =>
    let fin := start + (i + 1) * c.slot
    let d := d.advanceToDev fin
    let (d, m) := auxRecord (64 + 8 * die + j) (fin - c.window / 2 - frontDelay) (rs.headD 0) d m
    auxGo die c start (i + 1) js rs.tail d m

end Sys2Proof.Machine
end

