-- ==== Sys2Proof/Machine/Sfe.lean ====
section
/-! DEFINITION. The sensing front end: its commands (R323) and its events (R278 to R325). -/

namespace Sys2Proof.Machine

/-- Whether the SFE analogue domain of a die is on (R279). -/
def Device.sfeDomain (d : Device) (die : Nat) : Bool := d.domainOn die 11

/-! ## Commands -/

/-- The H of an output period on the RESAMPLE path (R292). -/
def pathH (p : Nat) : Nat := (firstBelow 13 fun h => p ≤ chainPeriod (h + 1)).getD 12

/-- Ring lengths of SFE_CHANNEL (R323). -/
def ringOk (n : Nat) : Bool := [1024, 2048, 4096, 8192, 16384, 32768, 65536].elem n

/-- Whether the fields of an enabling SFE_CHANNEL are in range and zero where they do not apply (R280, R281, R292, R293,
R316, R323). -/
def sfeFieldsOk (r : Request) : Bool :=
  ringOk (r.u 16 4) &&
  if 64 ≤ r.u 0 1 then r.u 2 6 == 0 && r.u 8 8 == 0
  else
    r.u 2 1 ≤ 3 && r.u 3 1 ≤ 2 && (r.u 3 1 != 2 || r.u 2 1 ≤ 1) && (r.u 7 1 == 0 || (r.u 7 1 == 1 && r.u 0 1 % 2 == 0))
      && (if r.u 4 1 = 0 then r.u 5 2 == 0 && decide (chainPeriod 0 < r.u 8 8) && decide (r.u 8 8 ≤ chainPeriod 13)
          else r.u 4 1 == 1 && r.u 5 1 ≤ 12 && 1 ≤ r.u 6 1 && r.u 6 1 ≤ 64 && r.u 8 8 == 0)

/-- The H that SFE_CHANNEL gives. -/
def sfeH (r : Request) : Nat := if r.u 0 1 < 64 && r.u 4 1 = 0 then pathH (r.u 8 8) else r.u 5 1

/-- Whether f_H is at most the excitation frequency (R317). -/
def rateOk (h freq : Nat) : Bool := 781250 * 65536 ≤ freq * 2 ^ h

/-- The settings of SFE_CHANNEL laid over a stream (R312, R323). -/
def sfeSet (r : Request) (x : SfeStream) : SfeStream :=
  { x with
    enable := true, range := r.u 2 1, coupling := r.u 3 1, path := r.u 4 1, h := sfeH r, m := r.u 6 1
    res := r.u 7 1 == 1, p := r.u 8 8, ring := r.u 16 4, engScale := r.u 20 4, engOffset := r.u 24 4
    detH := min x.detH (sfeH r), at_ := 0 }

/-- SFE_CHANNEL's effect (R284, R286, R299, R317, R323, R761). -/
def sfeChannel (r : Request) (d : Device) : Device × Reply :=
  let s := r.u 0 1
  let die := sfeDie s
  let aux := 64 ≤ s
  if r.u 1 1 = 1 && !sfeFieldsOk r then (d, ans stBadField)
  else if !d.sfeDomain die then (d, ans stNoResource)
  else if s = railStream die then (d, ans stBadState)
  else if r.u 1 1 = 0 then
    (d.updSfe s fun x => { x with enable := false, state := .off, start := none, lines := [], lines2 := [], win := none,
                                   ready := [] }, ans stOk)
  else if r.u 7 1 = 1 && (d.sfeExc die).mode ≠ 1 then (d, ans stBadState)
  else if r.u 7 1 = 1 && !rateOk (sfeH r) (d.sfeExc die).freq then (d, ans stBadField)
  else
    let d' := d.updSfe s (sfeSet r)
    if aux && !(d'.sfeScan die).fits (d'.auxEnabled die).length then (d, ans stBadState)
    else
      match (d'.sfeRing s false).sfeS s |>.buf with
      | none => (d, ans stNoResource)
      | some _ =>
        let d' := d'.sfeRing s false
        (if (d'.sfeS s).state = .cal then d' else d'.sfeStart s, ans stOk)

/-- SFE_CHANNEL as a setting. -/
def setSfeChannel : Setting := ⟨0x0400, 0, fun r _ => [(1, r.u 0 1)], devBody sfeChannel⟩

/-- SFE_CHANNEL. DESIGN CHOICE: log entry 22. -/
def execSfeChannel (ch : Fin 8) (s : State) : Host.Outcome State Fault Refusal := configure setSfeChannel ch s

/-- SFE_AUX_SCAN's effect (R304). -/
def sfeAuxScan (r : Request) (d : Device) : Device × Reply :=
  let die := r.u 0 1
  let c : SfeScan := ⟨r.u 1 1, r.u 2 1, r.u 3 1, r.u 4 4, some (wholeSecondAfter d.time.ns16), 0⟩
  if 1000000 < r.u 4 4 || !c.fits (d.auxEnabled die).length then (d, ans stBadField)
  else if !d.sfeDomain die then (d, ans stNoResource)
  else (d.setScan die c, ans stOk)

/-- SFE_AUX_SCAN as a setting. -/
def setSfeAuxScan : Setting := ⟨0x0401, 0, fun _ _ => [], devBody sfeAuxScan⟩

/-- SFE_AUX_SCAN (R302 to R304). -/
def execSfeAuxScan (ch : Fin 8) (s : State) : Host.Outcome State Fault Refusal := configure setSfeAuxScan ch s

/-- Whether the excitation settings are in range (R315). DESIGN CHOICE: log entry 22. -/
def excOk (r : Request) : Bool :=
  match r.u 1 1 with
  | 0 => true
  | 1 => 65536000 ≤ r.u 4 4 && r.u 4 4 ≤ 1310720000 && 500 ≤ r.u 8 2 && r.u 8 2 ≤ 7000
  | _ => 1000 ≤ r.u 8 2 && r.u 8 2 ≤ 5000

/-- Whether every resolver pair of a die could go on with an excitation (R317). -/
def Device.excServes (d : Device) (die mode freq : Nat) : Bool :=
  [32 + 4 * die, 34 + 4 * die].all fun s =>
    let x := d.sfeS s
    !(x.enable && x.res) || (mode == 1 && rateOk x.h freq)

/-- SFE_EXC's effect (R315). Settings under which a resolver pair in use could not run are answered BAD_STATE (log
entry 22). -/
def sfeExcite (r : Request) (d : Device) : Device × Reply :=
  let die := r.u 0 1
  if !excOk r then (d, ans stBadField)
  else if !d.sfeDomain die then (d, ans stNoResource)
  else if !d.excServes die (r.u 1 1) (r.u 4 4) then (d, ans stBadState)
  else
    let d := d.setExc die ⟨r.u 1 1, bit (r.u 2 1) 0, r.u 4 4, r.u 8 2, startInstant d.time.ns16⟩
    let set := fun (x : SfeStream) => { x with phaseC := r.u 10 2 }
    ((d.updSfe (32 + 4 * die) set).updSfe (34 + 4 * die) set, ans stOk)

/-- SFE_EXC as a setting. -/
def setSfeExc : Setting := ⟨0x0402, 0, fun _ _ => [], devBody sfeExcite⟩

/-- SFE_EXC (R315). -/
def execSfeExc (ch : Fin 8) (s : State) : Host.Outcome State Fault Refusal := configure setSfeExc ch s

/-- How many values of stage `h` a channel has had. -/
def SfeStream.stageCount (x : SfeStream) (h : Nat) : Nat := (x.lines.getD h x.out).n

/-- SFE_DETECT's effect (R312). -/
def sfeDetect (r : Request) (d : Device) : Device × Reply :=
  let s := r.u 0 1
  let on := bit (r.u 1 1) 0
  if on && !(r.u 2 1 ≤ (d.sfeS s).h && r.u 3 1 ≤ 15 && r.u 4 1 ≤ 15 && 1000 ≤ r.u 8 4 && r.u 8 4 ≤ 10000000) then
    (d, ans stBadField)
  else if !d.sfeDomain (sfeDie s) then (d, ans stNoResource)
  else
    (d.updSfe s fun x => { x with
      detOn := on, detDc := bit (r.u 1 1) 1, detH := r.u 2 1, attack := r.u 3 1 % 16, release := r.u 4 1 % 16
      window := r.u 8 4, detN := x.stageCount (r.u 2 1), win := none, ready := [], env := 0 }, ans stOk)

/-- SFE_DETECT as a setting. -/
def setSfeDetect : Setting := ⟨0x0403, 0, fun r _ => [(1, r.u 0 1)], devBody sfeDetect⟩

/-- SFE_DETECT. -/
def execSfeDetect (ch : Fin 8) (s : State) : Host.Outcome State Fault Refusal := configure setSfeDetect ch s

/-- The streams a calibration of a stream takes in: all eight auxiliary inputs of the die, or the one (R306). -/
def calStreams (s : Nat) : List Nat := if s < 64 then [s] else (List.range 8).map (64 + 8 * sfeDie s + ·)

/-- An internal calibration begins: the streams it takes stop output (R299, R306). -/
def Device.calBegin (d : Device) (s : Nat) (h : Option Nat) : Device :=
  let d := { d with sfe := { d.sfe with cal := d.sfe.cal.put (sfeDie s) ⟨s, h, d.time.now, false⟩ } }
  (calStreams s).foldl (fun d k => d.updSfe k fun x =>
    if x.enable && x.state ≠ .fault then { x with state := .cal, start := none } else x) d

/-- SFE_CAL with OP 1 (R310). -/
def sfeCalWrite (r : Request) (d : Device) : Device × Reply :=
  (d.updSfe (r.u 0 1) fun x => { x with written := some (r.i 4 4, r.u 8 4) }, ans stOk)

/-- SFE_CAL from a record of a profile, where it has no handle. -/
def sfeCal (r : Request) (d : Device) : Device × Reply :=
  let die := sfeDie (r.u 0 1)
  if !d.sfeDomain die then (d, ans stNoResource)
  else if r.u 1 1 = 1 then sfeCalWrite r d
  else if (d.sfe.cal.look die).isSome then (d, ans stNoResource)
  else (d.calBegin (r.u 0 1) none, ans stOk)

/-- SFE_CAL sent on a channel: OP 0 takes a handle (R309, R323). -/
def sfeCalOn (ch : Nat) (r : Request) (d : Device) : Device × Reply :=
  let die := sfeDie (r.u 0 1)
  if r.u 1 1 = 1 || !d.sfeDomain die || (d.sfe.cal.look die).isSome then sfeCal r d
  else accept r ch d fun h d => d.calBegin (r.u 0 1) (some h)

/-- The objects of SFE_CAL. -/
def calObjs (r : Request) (_ : Device) : List (Nat × Nat) := (calStreams (r.u 0 1)).map fun s => (1, s)

/-- SFE_CAL as a setting. -/
def setSfeCal : Setting := ⟨0x0404, 0, calObjs, devBody sfeCal⟩

/-- SFE_CAL (R306 to R311). -/
def execSfeCal (ch : Fin 8) (s : State) : Host.Outcome State Fault Refusal :=
  configure ⟨0x0404, 0, calObjs, devBody (sfeCalOn ch.val)⟩ ch s

/-- State codes of SFE_STATUS. -/
def SfeState.code (s : SfeState) : Nat :=
  match s with
  | .off => 0
  | .settling => 1
  | .active => 2
  | .cal => 3
  | .fault => 4

/-- The group delay that SFE_STATUS reports (R291, R303). -/
def Device.sfeDelay (d : Device) (s : Nat) : Nat :=
  if s < 64 then (rne (d.sfeS s).delay2 2).toNat else frontDelay + (d.sfeScan (sfeDie s)).window / 2

/-- SFE_STATUS (R320, R323). -/
def execSfeStatus (ch : Fin 8) (s : State) : Host.Outcome State Fault Refusal :=
  query 0x0405 ch (fun r d =>
    let k := r.u 0 1
    if !d.sfeDomain (sfeDie k) then ans stNoResource else
      let x := d.sfeS k
      ans stOk (leBytes 1 x.state.code ++ leBytes 1 x.h ++ leBytes 2 x.phaseC ++ leBytes 4 x.lastSeq
        ++ leBytes 16 x.dts.toNat ++ leBytes 8 (d.sfeDelay k) ++ leBytes 4 (unsigned 32 (d.sfeValues k).1)
        ++ leBytes 4 (d.sfeValues k).2 ++ leBytes 4 (unsigned 32 x.last) ++ leBytes 4 x.over_ ++ leBytes 4 x.held
        ++ leBytes 4 x.violations)) s

/-- SFE_COEF_GET (R296, R323). -/
def execSfeCoefGet (ch : Fin 8) (s : State) : Host.Outcome State Fault Refusal :=
  query 0x0406 ch (fun r _ =>
    let taps := hbTaps (r.u 0 1)
    let first := r.u 2 2
    if taps ≤ first then ans stBadField else
      let n := min 1000 (taps - first)
      ans stOk (leBytes 2 taps ++ leBytes 2 first ++ leBytes 2 n ++ zeros 2
        ++ (List.range n).flatMap fun i => leBytes 4 (unsigned 32 (sfeCoef (r.u 0 1) (first + i))))) s

/-- The settings of this chapter. -/
def settingsSfe : List Setting := [setSfeChannel, setSfeAuxScan, setSfeExc, setSfeDetect, setSfeCal]

/-! ## Events -/

/-- The stream after a channel start at S₀ (R286, R294, R310). -/
def SfeStream.begin (x : SfeStream) (s0 : Nat) (v : Int × Nat) : SfeStream :=
  let w := s0 / oneS * oneS
  { x with
    state := .settling, start := none, s0 := s0, w := w
    next := if x.path = 0 then (s0 - w + x.p - 1) / max 1 x.p else 0
    lines := List.replicate x.h .empty, lines2 := List.replicate x.h .empty, out := .empty, out2 := .empty
    offset := v.1, gain := v.2, seq := 0, low := 0, good := 0, detN := 0, env := 0, win := none, ready := [], detSeq := 0 }

/-- SFE_CHANNEL_START (R286). -/
def execSfeChannelStart (stream : Nat) (s : State) : Host.Outcome State Fault Refusal :=
  onDev (fun d =>
    match (d.sfeS stream).start with
    | none => d
    | some s0 =>
      let d := d.advanceToDev s0
      let v := d.sfeValues stream
      let v2 := d.sfeValues (stream + 1)
      let d := d.updSfe stream fun x => x.begin s0 v
      if (d.sfeS stream).res then d.updSfe (stream + 1) fun x => { x with offset := v2.1, gain := v2.2 } else d) s

/-- SFE_OUTPUT_SAMPLE (R287 to R300): sinc4 outputs of the channel, and of the cosine winding, that came since the last
event of the stream; the next output leaves the shell once all it rests on is there. -/
def execSfeOutputSample (stream : Nat) (raw raw2 : List Int) (s : State) : Host.Outcome State Fault Refusal :=
  onBoth (fun d m => if d.sfeRuns stream then sfeEmit stream (sfePushAll stream raw raw2 d) m else (d, m)) s

/-- SFE_DETECTOR_WINDOW (R312 to R314). -/
def execSfeDetectorWindow (stream : Nat) (raw raw2 : List Int) (s : State) : Host.Outcome State Fault Refusal :=
  onBoth (fun d m =>
    if !d.sfeRuns stream || !(d.sfeS stream).detOn then (d, m) else
      let d := sfePushAll stream raw raw2 d
      let x := d.sfeS stream
      match x.ready, x.win with
      | w :: ws, _ => sfeWindow stream w (d.updSfe stream fun x => { x with ready := ws }) m
      | [], some w =>
        if x.windowFull then sfeWindow stream w (d.updSfe stream fun x => { x with win := none }) m else (d, m)
      | [], none => (d, m)) s

/-- Whether an auxiliary calibration runs on a die (R311). -/
def Device.auxCal (d : Device) (die : Nat) : Bool :=
  match d.sfe.cal.look die with
  | some c => 64 ≤ c.stream
  | none => false

/-- SFE_AUX_SCAN_START (R302 to R304): `raw` the conversions of the enabled inputs in ascending order, in 2^-31 of full
scale. -/
def execSfeAuxScanStart (die : Fin 8) (raw : List Int) (s : State) : Host.Outcome State Fault Refusal :=
  onBoth (fun d m =>
    let c := d.sfeScan die.val
    match c.a0 with
    | none => (d, m)
    | some a0 =>
      if !d.sfeDomain die.val || d.auxCal die.val then (d, m) else
        let start := a0 + c.k * c.period * oneNs
        let d := (d.advanceToDev start).setScan die.val { c with k := c.k + 1 }
        let (d, m) := auxGo die.val c start 0 (d.auxEnabled die.val) raw d m
        (d.diagAdd die.val 0x02C 0 32 1, m)) s

/-- c₁ of a stream in 2^-31 (R306): the fused value of the range, or 2.25 ÷ 2.5. -/
def Device.calVolt (d : Device) (s : Nat) : Nat :=
  if s < 64 then d.fuse.sfeVolt.getD (s * 4 + (d.sfeS s).range) 1932735283 else 1932735283

/-- What a calibration finds (R306, R308): OUTCOME, with OFFSET and GAIN when they are applied. -/
def calResult (c1 : Nat) (m0 m1 : Int) (full : Bool) : Nat × Option (Int × Nat) :=
  let g := (rne ((c1 : Int) * 1073741824) (m1 - m0).toNat).toNat
  if full then (2, none)
  else if m1 ≤ m0 || 10 * g < 9 * 1073741824 || 11 * 1073741824 < 10 * g || 2147483648 < 20 * m0.natAbs then (1, none)
  else (0, some (m0, g))

/-- The streams of a calibration start again, their first record with GAP (R299). -/
def Device.calEnd (d : Device) (s : Nat) : Device :=
  (calStreams s).foldl (fun d k =>
    if (d.sfeS k).state = .cal then (d.updSfe k fun x => { x with gap := true, detGap := true }).sfeStart k else d) d

/-- The values of a calibration are held for a stream (R308, R310). -/
def Device.calApply (d : Device) (k : Nat) (v : Int × Nat) : Device :=
  let d := d.updSfe k fun x => { x with written := none }
  { d with sfe := { d.sfe with lastCal := d.sfe.lastCal.put k v } }

/-- SFE_CAL_DONE (R306 to R309): `m0` and `m1` the averages in 2^-31, `full` when a sample was at full scale. -/
def execSfeCalDone (die : Fin 8) (m0 m1 : Int) (full : Bool) (s : State) : Host.Outcome State Fault Refusal :=
  onDev (fun d =>
    match d.sfe.cal.look die.val with
    | none => d
    | some c =>
      let gone := { d with sfe := { d.sfe with cal := d.sfe.cal.del die.val } }
      if c.cancel then (gone.calEnd c.stream).finishOpt c.handle stCancelled []
      else
        let d := gone.advanceTo (c.startAt + 10885760 * oneNs)
        let o := calResult (d.calVolt c.stream) m0 m1 full
        let d := match o.2 with
          | some v => (calStreams c.stream).foldl (fun (d : Device) k => d.calApply k v) (d.diagAdd die.val 0x028 0 16 1)
          | none => d
        let v := d.sfeValues c.stream
        (d.calEnd c.stream).finishOpt c.handle stOk (leBytes 1 o.1 ++ zeros 3 ++ leBytes 4 (unsigned 32 v.1)
          ++ leBytes 4 v.2 ++ leBytes 4 (unsigned 32 m0) ++ leBytes 4 (unsigned 32 m1))) s

/-- A violation of an SFE stream (R324). -/
def Device.sfeLog (d : Device) (s code : Nat) : Device :=
  (d.violation 10 (sfeDie s) code s).updSfe s fun x => { x with violations := min (x.violations + 1) 0xFFFFFFFF }

/-- A stream enters FAULT (R299, R325). -/
def Device.sfeFault (d : Device) (s code : Nat) : Device :=
  let old := (d.sfeS s).state
  ((((d.updSfe s fun x => { x with state := .fault, good := 0 }).event 0x0001 6 s 4 old.code).sfeLog s code)).diagAdd
    (sfeDie s) 0x028 16 16 1

/-- Whether a main channel is SETTLING or ACTIVE. -/
def Device.sfeLive (d : Device) (s : Nat) : Bool :=
  32 ≤ s && s < 64 && (decide ((d.sfeS s).state = .settling) || decide ((d.sfeS s).state = .active))

/-- IEPE_BIAS_FAULT (R282, R299). -/
def execIepeBiasFault (stream : Nat) (s : State) : Host.Outcome State Fault Refusal :=
  onDev (fun d => if d.sfeLive stream && (d.sfeS stream).coupling = 2 then d.sfeFault stream 0x02 else d) s

/-- RESOLVER_LOS (R319): AMPL below 0.05 for 8 consecutive outputs. -/
def execResolverLos (stream : Nat) (s : State) : Host.Outcome State Fault Refusal :=
  onDev (fun d =>
    if d.sfeLive stream && (d.sfeS stream).res && 8 ≤ (d.sfeS stream).low then d.sfeFault stream 0x03 else d) s

/-- SFE_FAULT_RECOVER (R299): the bias inside its window for 100 ms, or 8 good outputs of a resolver. -/
def execSfeFaultRecover (stream : Nat) (s : State) : Host.Outcome State Fault Refusal :=
  onDev (fun d =>
    let x := d.sfeS stream
    if x.state = .fault && (!x.res || 8 ≤ x.good) then
      (d.updSfe stream fun x => { x with state := .active, low := 0 }).event 0x0001 6 stream 2 4
    else d) s

/-- PHASE_AUTO_UPDATE (R320): PHASE_C moves by at most 2^-12 turn toward the null; by how much the spec does not give. -/
def execPhaseAutoUpdate (stream : Nat) (s : State) : Host.Outcome State Fault Refusal :=
  onDev (fun d =>
    if d.sfeRuns stream && (d.sfeS stream).res && (d.sfeExc (sfeDie stream)).auto then
      let move : Int := ((d.freeWord 21).toNat % 33 : Nat) - 16
      (d.updSfe stream fun x => { x with phaseC := unsigned 16 (x.phaseC + move) }).tickFree
    else d) s

/-- EXC_OVERCURRENT (R315, R324): the excitation is set to off. -/
def execExcOvercurrent (die : Fin 8) (s : State) : Host.Outcome State Fault Refusal :=
  onDev (fun d =>
    let e := d.sfeExc die.val
    if e.mode = 0 then d else (d.setExc die.val { e with mode := 0 }).violation 10 die.val 0x04 0) s

/-- SFE_INPUT_CLAMP (R324): the samples of the input saturate by their raw values. -/
def execSfeInputClamp (stream : Nat) (s : State) : Host.Outcome State Fault Refusal :=
  onDev (fun d => if 32 ≤ stream && stream < 128 && d.sfeDomain (sfeDie stream) then d.sfeLog stream 0x01 else d) s

end Sys2Proof.Machine
end

