-- ==== Sys2Proof/Machine/Time.lean ====
section
/-! DEFINITION. The time family: time commands (R228), snapshots (R226), PPS (R200 to R203), the servo's events (R193,
R198), PTP messages and the transparent clock (R213 to R225), pulses and slave faults. Trigger edges and the
application of a step, which act on jobs too, are with the jobs. -/

namespace Sys2Proof.Machine

/-! ## Commands -/

/-- A signed number of 32 bits as bytes, saturating. -/
def le32s (i : Int) : List Byte := leBytes 4 (unsigned 32 (clampI (-2147483648) 2147483647 i))

/-- TIME_OFFSET: the last sample as sQ23.8 ns (R13). -/
def TimeBase.offset8 (t : TimeBase) : Int := clampI (-2147483648) 2147483647 (rne t.lastOffset 256)

/-- TIME_FREQ: the addend's adjustment in units of 10^-9. -/
def TimeBase.freq (t : TimeBase) : Int := rne (((t.addend : Int) - 2 ^ 33) * 1000000000) (2 ^ 33)

/-- TIME_STATUS (R228). -/
def execTimeStatus (ch : Fin 8) (s : State) : Host.Outcome State Fault Refusal :=
  query 0x0200 ch (fun _ d =>
    let t := d.time
    ans stOk (leBytes 16 d.stamp.toNat ++ leBytes 1 t.servo.code ++ leBytes 1 t.source ++ leBytes 1 t.quality
      ++ leBytes 1 t.slavePort ++ le32s t.offset8 ++ le32s t.freq ++ leBytes 8 t.gm.toNat ++ leBytes 4 t.steps)) s

/-- HOLD_MAX has elapsed (R198): FREE, source 1, or 0 when no time was ever set. -/
def Device.holdEnd (d : Device) : Device :=
  d.retime true fun t => { t with
    servo := .free, hold := false, cls := 0, following := 0, source := if t.everSet then 1 else 0 }

/-- The rules of R193 for a TIME_CONFIG. -/
def Device.timeConfigured (d : Device) : Device :=
  if d.time.mode = 3 then d.holdEnd
  else if d.time.servo = .holdover && d.time.holdAt + d.time.holdMax * oneS ≤ d.time.now then d.holdEnd
  else d.select true

/-- TIME_CONFIG's effect (R192, R194, R198). DESIGN CHOICE: log entry 71. -/
def timeConfig (r : Request) (d : Device) : Device × Reply :=
  let t := { d.time with
    mode := r.u 0 1, domain := r.u 1 1, allowStep := bit (r.u 2 2) 0, ppsTraceable := bit (r.u 2 2) 1
    holdMax := r.u 4 2, stepThresh := r.u 8 4 }
  (({ d with time := t }).timeConfigured, ans stOk)

/-- TIME_CONFIG as a setting. -/
def setTimeConfig : Setting := ⟨0x0201, 0, fun _ _ => [], devBody timeConfig⟩

/-- TIME_CONFIG (R192). -/
def execTimeConfig (ch : Fin 8) (s : State) : Host.Outcome State Fault Refusal := configure setTimeConfig ch s

/-- TIME_SET (R199): a step to the time it carries; under source 4 the seconds wait for the next qualified edge. -/
def execTimeSet (ch : Fin 8) (s : State) : Host.Outcome State Fault Refusal :=
  command 0x0202 ch (fun r d =>
    let secs := r.u 0 8
    let ns := r.u 8 4
    if d.time.source = 2 || d.time.source = 3 then (d, ans stBadState)
    else if d.time.source = 4 then
      if ns ≠ 0 then (d, ans stBadField) else ({ d with time := { d.time with ppsSeconds := some secs } }, ans stOk)
    else
      let target := secs * oneS + ns * oneNs
      ({ d with time := d.time.decide_ ((target : Int) - d.time.ns16) true }, ans stOk)) s

/-- Which of A, B, C and LINK a kind of port uses (R211). -/
def compUses (kind : Nat) : Bool × Bool × Bool × Bool :=
  match kind with
  | 0 => (true, true, true, true)
  | 1 => (true, true, true, false)
  | 2 => (true, true, false, false)
  | _ => (true, false, false, false)

/-- Whether an INDEX names a port of a kind (R211). -/
def compIndexOk (kind index : Nat) : Bool :=
  match kind with
  | 0 => index < 16
  | 1 => index < 4
  | 2 => index < 4
  | 3 => 32 ≤ index && index < 128
  | 4 => index < 8
  | _ => index < 2

/-- The die that bonds a port of a kind (R72); main and auxiliary SFE inputs lie 12 to a die from stream 32 on. -/
def compDie (kind index : Nat) : Nat :=
  match kind with
  | 0 => index / 2
  | 1 => index / 2
  | 2 => 2 * index
  | 3 => (index - 32) / 12
  | 4 => index
  | _ => 0

/-- A value of at most 1 s in magnitude (R211). -/
def compValueOk (v : Int) : Bool := v.natAbs ≤ oneS

/-- COMP_SET's effect (R211). -/
def compSet (r : Request) (d : Device) : Device × Reply :=
  let kind := r.u 0 1
  let index := r.u 1 1
  let link := r.u 2 1
  let (ua, ub, uc, ul) := compUses kind
  let a := if ua then r.i 4 8 else 0
  let b := if ub then r.i 12 8 else 0
  let c := if uc then r.i 20 8 else 0
  if !compIndexOk kind index || (ul && 16 ≤ link && link != 0xFF) || !compValueOk a || !compValueOk b
      || !compValueOk c then (d, ans stBadField)
  else if !d.pwr.dieOn.getLsbD (compDie kind index) || (ul && link < 16 && !d.pwr.dieOn.getLsbD (link / 2)) then
    (d, ans stNoResource)
  else
    ({ d with tim := { d.tim with
      comp := d.tim.comp.put (compKey kind index) ⟨if ul then link else 0, a, b, c⟩ } }, ans stOk)

/-- The object a compensation record belongs to: stream, SFE stream or PTP port. -/
def compObjs (r : Request) (_ : Device) : List (Nat × Nat) :=
  match r.u 0 1 with
  | 0 => [(0, r.u 1 1)]
  | 1 => [(7, r.u 1 1)]
  | 2 => [(0, 24 + r.u 1 1)]
  | 3 => [(1, r.u 1 1)]
  | 4 => []
  | _ => [(0, 28 + r.u 1 1)]

/-- COMP_SET as a setting. -/
def setCompSet : Setting := ⟨0x0203, 1, compObjs, devBody compSet⟩

/-- COMP_SET (R211). -/
def execCompSet (ch : Fin 8) (s : State) : Host.Outcome State Fault Refusal := configure setCompSet ch s

/-- COMP_GET (R211): unused fields read zero. -/
def execCompGet (ch : Fin 8) (s : State) : Host.Outcome State Fault Refusal :=
  query 0x0204 ch (fun r d =>
    let kind := r.u 0 1
    let index := r.u 1 1
    if !compIndexOk kind index then ans stBadField else
      let c := d.comp kind index
      ans stOk (leBytes 1 kind ++ leBytes 1 index ++ leBytes 1 (if kind = 0 then c.link else 0) ++ zeros 1
        ++ leBytes 8 (unsigned 64 c.a) ++ leBytes 8 (unsigned 64 c.b) ++ leBytes 8 (unsigned 64 c.c))) s

/-- Whether the outputs of a group, waiting ones too, fit a period (R206). -/
def Device.periodFits (d : Device) (g period : Nat) : Bool :=
  d.tim.outs.all fun e =>
    let ok := fun (c : Option OutCfg) => match c with | some c => c.group != g || c.fits period | none => true
    ok e.2.cfg && ok e.2.next

/-- The next whole second at or after a moment. -/
def nextSecond (m : Nat) : Nat := (m + oneS - 1) / oneS * oneS

/-- TRIG_GROUP's effect (R206, R207). -/
def trigGroup (r : Request) (d : Device) : Device × Reply :=
  let g := r.u 0 1
  let x := d.group g
  let now := d.time.ns16
  let put := fun (x : Group) => { d with tim := { d.tim with groups := d.tim.groups.put g x } }
  if r.u 1 1 = 1 then
    (if x.running then put { x with change := some (.stop (x.firstAfter (now + oneMs))) } else d, ans stOk)
  else
    let period := r.u 4 8
    let zero := r.u 12 12 = 0
    let start := r.u 12 8 * oneS + r.u 20 4 * oneNs
    if period < 100000 * oneNs || 10 * oneS < period || 1000000000 ≤ r.u 20 4
        || (!zero && start < now + 2 * oneMs) || !d.periodFits g period then (d, ans stBadField)
    else if x.running then
      (put { x with hasPeriod := true
                    change := some (.restart (if zero then x.firstAfter (now + oneMs) else start) period) }, ans stOk)
    else
      (put ⟨true, true, period, if zero then nextSecond (now + 2 * oneMs) else start, 0, none⟩, ans stOk)

/-- TRIG_GROUP as a setting. -/
def setTrigGroup : Setting := ⟨0x0205, 2, fun r _ => [(3, r.u 0 1)], devBody trigGroup⟩

/-- TRIG_GROUP (R206, R207). -/
def execTrigGroup (ch : Fin 8) (s : State) : Host.Outcome State Fault Refusal := configure setTrigGroup ch s

/-- TRIG_OUT's effect (R204, R206, R208, R210): an output that waits for a change must fit both periods. -/
def trigOut (r : Request) (d : Device) : Device × Reply :=
  let o := r.u 0 1
  let g := r.u 1 1
  let c : OutCfg := ⟨g, r.u 2 1, r.u 3 1, r.u 4 8, r.u 12 8 * oneNs⟩
  let x := d.group g
  let fits := c.fits x.period && (match x.change with | some (.restart _ p) => c.fits p | _ => true)
  if !d.pwr.dieOn.getLsbD (o / 2) then (d, ans stNoResource)
  else if g = 0xFF then (d.setOut o ⟨none, none, []⟩, ans stOk)
  else if c.width < 100 * oneNs || (x.hasPeriod && !fits) then (d, ans stBadField)
  else (d.setOut o { d.tout o with next := some c }, ans stOk)

/-- TRIG_OUT as a setting: the output is the object it changes. -/
def setTrigOut : Setting := ⟨0x0206, 2, fun r _ => [(4, r.u 0 1)], devBody trigOut⟩

/-- TRIG_OUT (R204, R206, R208, R210). -/
def execTrigOut (ch : Fin 8) (s : State) : Host.Outcome State Fault Refusal := configure setTrigOut ch s

/-- The other port of a bridge (R74). DEDUCED: log entry 17. -/
def partner (p : Nat) : Nat := if p % 2 = 0 then p + 1 else p - 1

/-- PTP_PORT's effect (R213, R217): a role other than the one the partner holds is refused; a port that is off holds none
(DEDUCED, log entry 17). -/
def ptpPort (r : Request) (d : Device) : Device × Reply :=
  let p := r.u 0 1
  let role := r.u 1 1
  let oc := bit (r.u 10 1) 0
  if (oc && role ≠ 2 && role ≠ 3) || (role = 4 && r.u 2 1 ≠ 0) then (d, ans stBadField)
  else if !d.pwr.dieOn.getLsbD (ethDie p) then (d, ans stNoResource)
  else if role ≠ 0 && (d.ptp (partner p)).role ≠ 0 && (d.ptp (partner p)).role ≠ role then (d, ans stBadState)
  else
    let d := d.updPtp p fun q =>
      let q := { q with
        role := role, transport := r.u 2 1, twoStep := r.u 3 1 = 1, logSync := r.i 4 1, logAnnounce := r.i 5 1
        logDelay := r.i 6 1, annTimeout := r.u 7 1, priority1 := r.u 8 1, priority2 := r.u 9 1, ocSlave := oc }
      if q.takesPart then q else { q with foreign := none, portState := if role = 0 then 3 else 4 }
    (d.select false, ans stOk)

/-- PTP_PORT as a setting. -/
def setPtpPort : Setting := ⟨0x0207, 0, fun r _ => [(7, r.u 0 1)], devBody ptpPort⟩

/-- PTP_PORT (R213, R217). -/
def execPtpPort (ch : Fin 8) (s : State) : Host.Outcome State Fault Refusal := configure setPtpPort ch s

/-- PTP_PORT_STATUS (R228). -/
def execPtpPortStatus (ch : Fin 8) (s : State) : Host.Outcome State Fault Refusal :=
  query 0x0208 ch (fun r d =>
    let q := d.ptp (r.u 0 1)
    ans stOk (leBytes 1 q.portState ++ zeros 3 ++ leBytes 8 (unsigned 64 q.peerDelay) ++ leBytes 4 q.rxEvents
      ++ leBytes 4 q.txEvents ++ leBytes 4 q.tcCorrected ++ leBytes 4 q.violations)) s

/-- PPS in is lost (R202); the servo acts on the loss (R193). -/
def Device.ppsLost (d : Device) : Device :=
  ({ d with tim := { d.tim with pps := { d.tim.pps with qualified := false, run := 0, lastQual := none } } }).select false

/-- PPS_CONFIG's effect (R200 to R203). -/
def ppsConfig (r : Request) (d : Device) : Device × Reply :=
  let was := d.tim.pps.inEn
  let out := r.u 2 1 = 1
  let d := { d with tim := { d.tim with pps := { d.tim.pps with
    inEn := r.u 0 1 = 1, inPol := r.u 1 1, outEn := out, inDelay := r.i 4 4, outDelay := r.i 8 4, outWidth := r.u 12 2
    outHigh := d.tim.pps.outHigh && out } } }
  (if was && r.u 0 1 = 0 then d.ppsLost else d, ans stOk)

/-- PPS_CONFIG as a setting. -/
def setPpsConfig : Setting := ⟨0x0209, 0, fun _ _ => [], devBody ppsConfig⟩

/-- PPS_CONFIG (R202). -/
def execPpsConfig (ch : Fin 8) (s : State) : Host.Outcome State Fault Refusal := configure setPpsConfig ch s

/-- The settings of the time group. -/
def settingsTime : List Setting := [setTimeConfig, setCompSet, setTrigGroup, setTrigOut, setPtpPort, setPpsConfig]

/-! ## Snapshots -/

/-- A latch of device time (R226). -/
def Device.latch (d : Device) : Device :=
  { d with time := { d.time with snap := d.stamp, snapValid := true, onPps := false } }

/-- A write of TIME_SNAP_CTL (R226): LATCH latches at the end of the write, ON_PPS arms. -/
def Device.snapCtl (d : Device) (value : Word) : Device :=
  if !d.windowsOpen then d.violation 0 0 0x0A 0x3000
  else
    let d := if value.getLsbD 0 then d.latch else d
    if value.getLsbD 1 then { d with time := { d.time with onPps := true } } else d

/-- LATCH (R226). -/
def execLatch (s : State) : Host.Outcome State Fault Refusal :=
  onDev (fun d => if d.takesPrivate then (d.snapCtl 1).wrote 0x3004 else d) s

/-- ON_PPS (R226). -/
def execOnPps (s : State) : Host.Outcome State Fault Refusal :=
  onDev (fun d => if d.takesPrivate then (d.snapCtl 2).wrote 0x3004 else d) s

/-! ## Pulses and PPS -/

/-- PULSE_END (R205): the pulse of an output that ends first reaches its end. -/
def execPulseEnd (output : Fin 16) (s : State) : Host.Outcome State Fault Refusal :=
  onDev (fun d =>
    let t := d.tout output.val
    match t.pulses with
    | [] => d
    | p :: ps =>
      let e := ps.foldl (fun m q => min m q.2) p.2
      let d := d.advanceToDev e
      d.setOut output.val { t with pulses := t.pulses.filter fun q => e < q.2 }) s

/-- The stamp of an edge at a ball: device time on the 0.25 ns grid (R190). -/
def Device.edgeStamp (d : Device) : Nat := d.time.ns16 / 16384 * 16384

/-- A moment's distance from the nearest whole second. -/
def offSecond (m : Int) : Int :=
  let f := m.emod oneS
  if (oneS : Int) / 2 < f then f - oneS else f

/-- An active edge of PPS in (R200, R201): judged, counted, latched when armed, and used for seconds and offset.
DEDUCED: log entry 13. -/
def Device.ppsEdge (d : Device) : Device :=
  let p := d.tim.pps
  if !p.inEn then d else
    let m : Int := d.edgeStamp - p.inDelay * oneNs
    let good := match p.lastQual with
      | none => true
      | some q => (m - q - oneS).natAbs ≤ 100000 * oneNs
    if !good then d.diagAdd d.lead 0 0 16 1
    else
      let d := d.diagAdd d.lead 0 16 16 1
      let d := { d with tim := { d.tim with
        pps := { p with lastQual := some m, lastQualAt := d.time.now, run := min 3 (p.run + 1) } } }
      let d := if d.time.onPps then d.latch else d
      let d := match d.time.ppsSeconds with
        | some s => { d with time := { d.time.decide_ ((s * oneS : Nat) - m) true with ppsSeconds := none } }
        | none => d
      if d.time.following = 4 then d.sample (offSecond m) else d

/-- PPS_IN_EDGE (R200, R201). DEDUCED: log entry 13. -/
def execPpsInEdge (at_ : Nat) (s : State) : Host.Outcome State Fault Refusal :=
  onDev (fun d => (d.advanceTo at_).ppsEdge) s

/-- PPS_QUALIFIED (R201). -/
def execPpsQualified (s : State) : Host.Outcome State Fault Refusal :=
  onDev (fun d =>
    let p := d.tim.pps
    if p.inEn && 3 ≤ p.run && !p.qualified then
      ({ d with tim := { d.tim with pps := { p with qualified := true } } }).select false
    else d) s

/-- PPS_LOST (R202): 2 s without a qualified edge. -/
def execPpsLost (s : State) : Host.Outcome State Fault Refusal :=
  onDev (fun d =>
    let p := d.tim.pps
    if p.inEn && p.lastQual.isSome then (d.advanceTo (p.lastQualAt + 2 * oneS)).ppsLost else d) s

/-- PPS_OUT_RISE (R203): at the next whole second of device time, advanced by OUT_DELAY. -/
def execPpsOutRise (s : State) : Host.Outcome State Fault Refusal :=
  onDev (fun d =>
    let p := d.tim.pps
    if !p.outEn then d else
      let k := ((d.time.ns16 : Int) + p.outDelay * oneNs).fdiv oneS + 1
      let rise := (k * oneS - p.outDelay * oneNs).toNat
      let d := d.advanceToDev rise
      { d with tim := { d.tim with pps := { d.tim.pps with
        outHigh := true, outFall := max (if p.outHigh then p.outFall else 0) (rise + p.outWidth * oneMs) } } }) s

/-- PPS_OUT_FALL (R203). -/
def execPpsOutFall (s : State) : Host.Outcome State Fault Refusal :=
  onDev (fun d =>
    if d.tim.pps.outHigh then
      let d := d.advanceToDev d.tim.pps.outFall
      { d with tim := { d.tim with pps := { d.tim.pps with outHigh := false } } }
    else d) s

/-! ## The servo's events -/

/-- SERVO_LOCK (R193): 16 consecutive samples below 100 ns. -/
def execServoLock (s : State) : Host.Outcome State Fault Refusal :=
  onDev (fun d =>
    if d.time.servo = .acquire && 16 ≤ d.time.goodRun then
      let d := d.retime true fun t => { t with
        servo := .locked, source := t.following, hold := false, cls := classOf t.estimate, badRun := 0, everSet := true }
      if d.time.following = 4 then d else d.updPtp d.time.slavePort fun q => { q with portState := 9 }
    else d) s

/-- SERVO_UNLOCK (R193, R194): 8 consecutive samples above the step threshold; with ALLOW_STEP the eighth schedules a
step of its own size. -/
def execServoUnlock (s : State) : Host.Outcome State Fault Refusal :=
  onDev (fun d =>
    if d.time.servo = .locked && 8 ≤ d.time.badRun then
      let off := d.time.lastOffset
      let d := d.retime true fun t => t.acquire t.following t.slavePort t.gm
      if d.time.allowStep then { d with time := d.time.decide_ (-off) false } else d
    else d) s

/-- HOLD_MAX_EXPIRY (R198). -/
def execHoldMaxExpiry (s : State) : Host.Outcome State Fault Refusal :=
  onDev (fun d =>
    if d.time.servo = .holdover then (d.advanceTo (d.time.holdAt + d.time.holdMax * oneS)).holdEnd else d) s

/-- The error bound of a holdover now (R198): 0.5 µs more per second since its entry. -/
def TimeBase.bound (t : TimeBase) : Nat := t.holdBound + (t.now - t.holdAt) / 2000000

/-- HOLDOVER_CLASS_CHANGE (R198): the class follows the bound at this moment; sources 0 and 1 keep class 0 (R189). -/
def execHoldoverClassChange (at_ : Nat) (s : State) : Host.Outcome State Fault Refusal :=
  onDev (fun d =>
    let d := d.advanceTo at_
    if d.time.servo = .holdover && 2 ≤ d.time.source then d.retime false fun t => { t with cls := classOf t.bound }
    else d) s

/-- TB_SLAVE_FAULT (R185, R736): a follower's slave offset, in 0.25 ns, above 50 ns for 1 ms. DEDUCED: log entry 50. -/
def execTbSlaveFault (die : Fin 8) (offset : Nat) (s : State) : Host.Outcome State Fault Refusal :=
  onDev (fun d =>
    let k := die.val
    if k = d.lead || !d.pwr.dieOn.getLsbD k then d else
      let d := d.diagPeak k 0x00C 0 16 offset
      if offset ≤ 200 || d.evt.faultTb.getLsbD k then d else
        let d := { d with evt := { d.evt with faultTb := d.evt.faultTb ||| BitVec.twoPow 8 k } }
        let d := (d.event 0x0042 1 k 0 0).outsideFault 0 11 k 0 none 0
        let d := { d with pwr := { d.pwr with tickWithdrawn := d.pwr.tickWithdrawn ||| BitVec.twoPow 8 k } }
        (d.setOut (2 * k) { d.tout (2 * k) with pulses := [] }).setOut (2 * k + 1)
          { d.tout (2 * k + 1) with pulses := [] }) s

/-! ## PTP -/

/-- The rule of R225 that a message breaks: CODE and DETAIL. `pending` says whether a Follow_Up or Delay_Resp has its
event message. -/
def ptpViolation (m : PtpMsg) (own : BitVec 64) (pending : Bool) : Option (Nat × Nat) :=
  if !m.udpOk then some (0x08, m.udpPort)
  else if m.version ≠ 2 then some (0x01, m.version)
  else if !m.lengthOk then some (0x02, m.messageLength)
  else if (4 ≤ m.messageType && m.messageType ≤ 7) || m.messageType = 14 || m.messageType = 15 then
    some (0x03, m.messageType)
  else if 1000000000 ≤ m.nanos then some (0x04, m.messageType)
  else if (m.messageType = 8 || m.messageType = 9) && !pending then some (0x05, m.sequenceId)
  else if m.messageType = 11 && (255 ≤ m.stepsRemoved || m.grandmaster = own) then some (0x06, m.stepsRemoved)
  else if m.messageType ≤ 3 && m.correction < 0 then some (0x07, m.messageType)
  else none

/-- The device's clock identity, an EUI-64 of the MAC of ETH0 (R214). Also R46. -/
def Fuses.clockIdentity (f : Fuses) : BitVec 64 :=
  BitVec.ofNat 64 (f.mac.toNat / 2 ^ 24 * 2 ^ 40 + 0xFFFE * 2 ^ 24 + f.mac.toNat % 2 ^ 24)

/-- A violation on a PTP port, logged with IFACE 5 and counted (R225). -/
def Device.ptpLog (d : Device) (p code detail : Nat) : Device :=
  (d.violation 5 p code detail).updPtp p fun q => { q with violations := min (q.violations + 1) 0xFFFFFFFF }

/-- The origin time a message carries, in 2^-16 ns. -/
def originOf (m : PtpMsg) : Int := (m.seconds * oneS + m.nanos * oneNs : Nat)

/-- The receive stamp on a port's wire: MAC stamp minus A (R220). -/
def Device.rxWire (d : Device) (p : Nat) : Int := d.time.ns16 - (d.comp 1 p).a

/-- The transmit stamp on a port's wire: MAC stamp plus B (R220). -/
def Device.txWire (d : Device) (p : Nat) : Int := d.time.ns16 + (d.comp 1 p).b

/-- Whether a port measures its delay by peer delay (R217). -/
def PtpPort.peer (q : PtpPort) : Bool := q.role == 3 || q.role == 4

/-- An offset sample from a port, when its delay is known and the servo follows it. -/
def Device.ptpSample (d : Device) (p : Nat) : Device :=
  let e := (d.ptp p).ex
  match e.t21, e.delay with
  | some x, some y =>
    if (d.time.following = 2 || d.time.following = 3) && d.time.slavePort = p then d.sample (x - y) else d
  | _, _ => d

/-- An Announce heard on a port (R215): the master it names, or a better one, is kept. -/
def Device.announce (d : Device) (p : Nat) (m : PtpMsg) : Device :=
  let d := d.diagAdd d.lead 4 0 16 1
  let fresh : Foreign := ⟨m.grandmaster, m.rank, m.gptp, 1, d.time.now, d.time.now⟩
  let d := d.updPtp p fun q =>
    match q.foreign with
    | some f =>
      if f.gm = m.grandmaster then
        { q with foreign := some { f with rank := m.rank, announces := f.announces + 1, announceAt := d.time.now } }
      else if m.rank < f.rank then { q with foreign := some fresh } else q
    | none => { q with foreign := some fresh }
  d.select false

/-- A Sync heard on the followed port (R218). -/
def Device.syncRx (d : Device) (p : Nat) (m : PtpMsg) : Device :=
  let t2 := d.rxWire p - m.correction - (d.comp 1 p).c
  let d := (d.diagAdd d.lead 4 16 16 1).updPtp p fun q => { q with
    foreign := q.foreign.map fun f => { f with syncAt := d.time.now }
    ex := if m.twoStep then { q.ex with sync := some (m.sequenceId, t2) }
          else { q.ex with sync := none, t21 := some (t2 - originOf m) } }
  if m.twoStep then d else d.ptpSample p

/-- Half of a sum, rounded to even (R13). -/
def half (x : Int) : Int := rne x 2

/-- A message the ordinary clock takes on a port, by its type. -/
def Device.ptpTake (d : Device) (p : Nat) (m : PtpMsg) : Device :=
  let e := (d.ptp p).ex
  let setEx := fun (d : Device) (x : Exchange) => d.updPtp p fun q => { q with ex := x }
  match m.messageType with
  | 0 => if (d.time.following = 2 || d.time.following = 3) && d.time.slavePort = p then d.syncRx p m else d
  | 8 =>
    match e.sync with
    | some (_, t2) => (setEx d { e with sync := none, t21 := some (t2 - originOf m - m.correction) }).ptpSample p
    | none => d
  | 9 =>
    match e.req, e.t21 with
    | some (_, t3), some x =>
      let t43 := originOf m - t3 - m.correction + (d.comp 1 p).c
      let first := e.delay.isNone
      let d := setEx d { e with req := none, delay := some (half (x + t43)) }
      if first then d.ptpSample p else d
    | _, _ => setEx d { e with req := none }
  | 3 =>
    match e.preq with
    | some (n, t1) =>
      if n ≠ m.sequenceId then d
      else if m.twoStep then setEx d { e with presp := some (n, d.rxWire p + originOf m - t1 - m.correction) }
      else
        let y := half (d.rxWire p - t1 - m.correction)
        d.updPtp p fun q => { q with peerDelay := y, ex := { e with preq := none, delay := if q.peer then some y else e.delay } }
    | none => d
  | 10 =>
    match e.presp with
    | some (n, x) =>
      if n ≠ m.sequenceId then d else
        let y := half (x - originOf m - m.correction)
        d.updPtp p fun q => { q with
          peerDelay := y, ex := { e with preq := none, presp := none, delay := if q.peer then some y else e.delay } }
    | none => d
  | 1 => setEx d { e with asked := some m.sequenceId }
  | 2 => if (d.ptp p).peer then setEx d { e with pasked := some m.sequenceId } else d
  | 11 => d.announce p m
  | _ => d

/-- Whether the event message of a Follow_Up or Delay_Resp is held. -/
def Device.ptpPending (d : Device) (p : Nat) (m : PtpMsg) : Bool :=
  let e := (d.ptp p).ex
  if m.messageType = 8 then e.sync.any (·.1 == m.sequenceId) else e.req.any (·.1 == m.sequenceId)

/-- PTP_MESSAGE_RX (R213, R215, R225): messages of another domain are ignored without logging. A port of peer delay
exchanges Pdelay messages whether or not the ordinary clock takes part on it (R222). -/
def execPtpMessageRx (port : Fin 4) (msg : PtpMsg) (at_ : Nat) (s : State) : Host.Outcome State Fault Refusal :=
  onDev (fun d =>
    let p := port.val
    let d := d.advanceTo at_
    let q := d.ptp p
    if !d.boot.fwStarted || !d.pwr.dieOn.getLsbD (ethDie p) || q.role = 0 then d else
      let d := if msg.messageType ≤ 3 then d.updPtp p fun q => { q with rxEvents := min (q.rxEvents + 1) 0xFFFFFFFF } else d
      if msg.version = 2 && msg.udpOk && msg.domain ≠ (if q.role = 4 then 0 else d.time.domain) then d else
        match ptpViolation msg d.fuse.clockIdentity (d.ptpPending p msg) with
        | some (code, detail) => d.ptpLog p code detail
        | none =>
          let pdelay := msg.messageType = 2 || msg.messageType = 3 || msg.messageType = 10
          if q.takesPart || (q.peer && pdelay) then d.ptpTake p msg else d) s

/-- A power of two of a second by a log interval, in 2^-16 ns. -/
def logInterval (l : Int) : Nat := if l < 0 then oneS / 2 ^ l.natAbs else oneS * 2 ^ l.natAbs

/-- PTP_MASTER_LOST (R218): the earlier of the Announce and Sync timeouts of the selected master. -/
def execPtpMasterLost (s : State) : Host.Outcome State Fault Refusal :=
  onDev (fun d =>
    match d.masterPort with
    | none => d
    | some p =>
      let q := d.ptp p
      match q.foreign with
      | none => d
      | some f =>
        let due := min (f.announceAt + q.annTimeout * logInterval q.logAnnounce) (f.syncAt + 16 * logInterval q.logSync)
        let d := (d.advanceTo due).updPtp p fun q => { q with foreign := none, portState := 4 }
        d.select false) s

/-- The sequenceId a message is sent with: that of the message it answers or follows, else the port's next (R213). None
where the message has nothing to answer or to follow. -/
def PtpPort.outSeq (q : PtpPort) (messageType : Nat) : Option Nat :=
  match messageType with
  | 3 => q.ex.pasked
  | 8 => q.ex.sent
  | 9 => q.ex.asked
  | 10 => q.ex.psent
  | _ => some q.txSeq

/-- The exchange of a port after it sent a message with sequenceId `n`, which left the wire at `t`: a request waits for
its answer, an event message of two steps for its Follow_Up (R213). -/
def PtpPort.afterSend (q : PtpPort) (messageType n : Nat) (t : Int) : Exchange :=
  let e := q.ex
  let two := if q.twoStep then some n else none
  match messageType with
  | 0 => { e with sent := two }
  | 1 => { e with req := some (n, t) }
  | 2 => { e with preq := some (n, t) }
  | 3 => { e with pasked := none, psent := two }
  | 8 => { e with sent := none }
  | 9 => { e with asked := none }
  | 10 => { e with psent := none }
  | _ => e

/-- PTP_MESSAGE_TX (R213, R216): at its interval the device sends a message of its role. A port of role 1 or 4 with no
better master than itself is MASTER and sends Sync and Announce, with TWO_STEP a Follow_Up, and answers Delay_Req; a
followed port of request-response sends Delay_Req; ports of peer delay send Pdelay_Req and answer those they hear. -/
def execPtpMessageTx (port : Fin 4) (messageType : Nat) (at_ : Nat) (s : State) :
    Host.Outcome State Fault Refusal :=
  onDev (fun d =>
    let p := port.val
    let d := d.advanceTo at_
    let q := d.ptp p
    if !d.boot.fwStarted || !d.pwr.dieOn.getLsbD (ethDie p) then d else
      let master := (q.role = 1 || q.role = 4) && d.masterPort.isNone
      let slave := q.takesPart && (d.time.following = 2 || d.time.following = 3) && d.time.slavePort = p
      let ok := match messageType with
        | 0 => master
        | 8 => master
        | 11 => master
        | 1 => slave && !q.peer
        | 2 => q.peer
        | 3 => q.peer
        | 10 => q.peer
        | 9 => master
        | _ => false
      match q.outSeq messageType with
      | none => d
      | some n =>
        if !ok then d else
          let out : PtpOut := ⟨p, messageType, n, 0, d.time.clockClass⟩
          let own := messageType ≤ 2 || messageType = 11
          let e := q.afterSend messageType n (d.txWire p)
          let d := d.updPtp p fun q => { q with
            txSeq := if own then (n + 1) % 65536 else q.txSeq
            ex := e, portState := if messageType = 0 || messageType = 11 then 6 else q.portState
            txEvents := if messageType ≤ 3 then min (q.txEvents + 1) 0xFFFFFFFF else q.txEvents }
          { d with tim := { d.tim with ptpOut := some out } }) s

/-- The residence values held for one direction of a bridge, by ingress port (R221). -/
def Device.residences (d : Device) (p : Nat) : List Residence := d.tim.residence.getD p []

/-- PTP_EVENT_FORWARD (R220 to R223, R225): a message crosses a bridge that runs as a transparent clock, with MAC stamps
`rx` and `tx` of device time. The correctionField it leaves with is in `ptpOut`. -/
def execPtpEventForward (port : Fin 4) (msg : PtpMsg) (rx tx : Nat) (s : State) :
    Host.Outcome State Fault Refusal :=
  onDev (fun d =>
    let p := port.val
    let e := partner p
    let q := d.ptp p
    if !d.boot.fwStarted || !d.pwr.dieOn.getLsbD (ethDie p) || (q.role ≠ 2 && q.role ≠ 3)
        || (q.role = 3 && (msg.messageType = 2 || msg.messageType = 3 || msg.messageType = 10)) then d
    else
      let event := msg.messageType ≤ 3
      let count := fun (d : Device) => if event then
          (d.updPtp p fun q => { q with rxEvents := min (q.rxEvents + 1) 0xFFFFFFFF }).updPtp e fun q =>
            { q with txEvents := min (q.txEvents + 1) 0xFFFFFFFF }
        else d
      let send := fun (d : Device) (c : Int) =>
        { d with tim := { d.tim with ptpOut := some ⟨e, msg.messageType, msg.sequenceId, c, d.time.clockClass⟩ } }
      let corrected := fun (d : Device) (c : Int) => send
        (d.updPtp e fun q => { q with tcCorrected := min (q.tcCorrected + 1) 0xFFFFFFFF }) c
      let d := count d
      if msg.version = 2 && msg.udpOk && msg.domain ≠ d.time.domain then send d msg.correction else
        match ptpViolation msg d.fuse.clockIdentity true with
        | some (code, detail) => send (d.ptpLog p code detail) msg.correction
        | none =>
          let stay : Int := ((tx : Int) + (d.comp 1 e).b) - ((rx : Int) - (d.comp 1 p).a)
          let link := if q.role = 3 && msg.messageType = 0 then q.peerDelay else 0
          let held := d.residences p
          let setHeld := fun (d : Device) (l : List Residence) =>
            { d with tim := { d.tim with residence := d.tim.residence.put p l } }
          if msg.messageType = 0 && msg.twoStep then
            if 16 ≤ held.length then send (d.ptpLog p 0x09 msg.sequenceId) msg.correction
            else send (setHeld d (held ++ [⟨msg.sequenceId, stay + link, d.time.now⟩])) msg.correction
          else if event then corrected d (msg.correction + stay + link)
          else if msg.messageType = 8 then
            match held.find? fun x => x.seq == msg.sequenceId && d.time.now - x.at_ ≤ oneS with
            | some x => corrected (setHeld d (held.filter fun y => y.seq != msg.sequenceId)) (msg.correction + x.value)
            | none => send d msg.correction
          else send d msg.correction) s

/-- RESIDENCE_ENTRY_EXPIRY (R221): the oldest value held for a direction reaches 1 s. -/
def execResidenceEntryExpiry (port : Fin 4) (s : State) : Host.Outcome State Fault Refusal :=
  onDev (fun d =>
    match d.residences port.val with
    | [] => d
    | x :: _ =>
      let d := d.advanceTo (x.at_ + oneS)
      let l := (d.residences port.val).filter fun y => d.time.now < y.at_ + oneS
      { d with tim := { d.tim with residence := d.tim.residence.put port.val l } }) s

end Sys2Proof.Machine
end

