-- ==== Sys2Proof/Machine/Profile.lean ====
section
/-! DEFINITION. Profiles (R131, R134, R745 to R749): profile images and their checks, Profile 0, loading and unloading, and
the end of a boot step with Profile 0 at READY (R94, R812). -/

namespace Sys2Proof.Machine

/-! ## Images -/

/-- Every configuring command. -/
def settings : List Setting :=
  settingsTime ++ settingsIngest ++ settingsSfe ++ settingsSte ++ settingsFte ++ settingsGrid ++ settingsLoc ++ settingsMap
    ++ settingsPrs ++ settingsOut ++ settingsGuide

/-- Whether a configuration record may carry an opcode (R746). -/
def recordOp (op : Nat) : Bool :=
  extends_.elem op && ! [0x0111, 0x0112, 0x0113, 0x0114, 0x0503, 0x0C01, 0x0D01].elem op

/-- Why a load fails: ring status, ERROR, STATUS and INDEX of its result (R748). -/
structure LoadFail where
  status : Nat
  error : Nat
  sub : Nat
  index : Nat
  deriving DecidableEq, Repr

/-- A refusal of the image itself. -/
def badImage (error index : Nat) : LoadFail := ⟨stBadField, error, 0, index⟩

/-- Something lacks. -/
def noRoom (error index : Nat) : LoadFail := ⟨stNoResource, error, 0, index⟩

/-- The header and CRC of a profile image (R745). -/
def profileHeaderOk (b : List Byte) : Bool :=
  let f := imgField b
  64 ≤ b.length && slice b 0 4 == [0x4B#8, 0x50#8, 0x52#8, 0x46#8] && f 4 2 == 1 && f 6 1 ≤ 7 && f 7 1 < 8
    && (f 7 1 / 2 == 0 || bit (f 7 1) 0) && f 12 4 ≤ 4096 && f 24 2 ≤ 240 && f 26 2 ≤ 32 && f 28 4 == 0 && f 60 4 == 0
    && f 16 8 % 64 == 0 && f 32 8 % 64 == 0 && f 40 8 % 64 == 0 && f 48 8 == b.length
    && f 16 8 ≤ b.length && f 32 8 + 32 * f 24 2 ≤ b.length && f 40 8 + 32 * f 26 2 ≤ b.length
    && crc32c (b.drop 64) == f 56 4

/-- The configuration records from an offset: opcode, reserved field and payload; none for one that leaves the image. -/
def profileRecords (b : List Byte) : Nat → Nat → List (Option (Nat × Nat × List Byte))
  | 0, _ => []
  | k + 1, off =>
    let n := imgField b (off + 2) 2
    if b.length < off + 8 + n then [none]
    else some (imgField b off 2, imgField b (off + 4) 4, imgBytes b (off + 8) n)
      :: profileRecords b k (off + 8 + (n + 7) / 8 * 8)

/-- An entry of the buffer table (R747). -/
structure BufEntry where
  placement : Nat
  target : Nat
  pitches : Nat
  dataOff : Nat
  dataLen : Nat
  deriving DecidableEq, Repr

/-- Entry `i` of the buffer table; none where it is not valid. -/
def bufEntry (b : List Byte) (i : Nat) : Option BufEntry :=
  let f := fun o n => imgField b (imgField b 32 8 + 32 * i + o) n
  let e : BufEntry := ⟨f 0 1, f 1 1, f 4 4, f 8 8, f 16 8⟩
  if f 2 2 = 0 && f 24 8 = 0 && e.placement ≤ 2 && targetOk e.placement e.target && 1 ≤ e.pitches && e.dataOff % 64 = 0
      && (e.dataOff = 0 || (e.dataLen ≤ e.pitches * pitchSize && e.dataOff + e.dataLen ≤ b.length)) then some e
  else none

/-- Whether a role may name a source (R747). -/
def sourceOk (role source : Nat) : Bool :=
  match role with
  | 0 | 1 | 2 => source < 16
  | 3 => source == 0xFF
  | 4 => source < 8
  | 5 => source < 16
  | _ => false

/-- Entry `i` of the network table (R747) with its image checked under R744; none where it is not valid. -/
def netEntry (b : List Byte) (pitches : List Nat) (i : Nat) : Option Net :=
  let f := fun o n => imgField b (imgField b 40 8 + 32 * i + o) n
  let img := imgBytes b (f 8 8) (f 16 8)
  let binds := (imgBytes b (f 24 8) (f 2 1)).map (·.toNat)
  let bind := fun slot (_access need : Nat) =>
    let v := binds.getD slot 0xFF
    if v < 240 then v < pitches.length && need ≤ pitches.getD v 0 else 0xF0 ≤ v && v ≤ 0xF5
  if sourceOk (f 0 1) (f 1 1) && f 3 5 = 0 && f 8 8 % 64 = 0 && f 24 8 % 64 = 0 && f 8 8 + f 16 8 ≤ b.length
      && f 24 8 + f 2 1 ≤ b.length && (imageError img (f 2 1) bind).isNone then
    some ⟨f 0 1, f 1 1, 0, binds, img, 0⟩
  else none

/-! ## Networks and their parts -/

/-- The networks in the order their parts are spliced: ROLE, then table order (R747). -/
def netOrder (ns : List Net) : List Net := (List.range 6).flatMap fun r => ns.filter fun n => n.role == r

/-- A fusion network runs once for each strip, on the die that owns it (R489, R747). DEDUCED: log entry 61. -/
def netCopies (dies : List Nat) (n : Net) : List Net := if n.role = 3 then dies.map fun k => { n with strip := k } else [n]

/-- The parts of one network. DEDUCED: log entry 61. -/
def Net.parts (n : Net) : List Part :=
  (imageParts n.image).map fun p => if n.role = 3 then { p with dieMask := BitVec.twoPow 8 n.strip } else p

/-- Networks numbered with the first of their parts. -/
def numberNets : Nat → List Net → List Net
  | _, [] => []
  | k, n :: ns => { n with first := k } :: numberNets (k + n.parts.length) ns

/-! ## Buffers -/

/-- A buffer's memory at zero (R747). -/
def zeroBuf (id : Nat) (d : Device) (m : Store) : Device × Store :=
  match d.buf id with
  | none => (d, m)
  | some b => ({ d with memsys := d.memsys.renewRange b 0 b.size },
      { m with lp := b.pitches.foldl (fun c p => c.clear (pitchBase p) pitchSize) m.lp })

/-- The profile buffers made and filled, each with its number. -/
def makeBufs (img : List Byte) : Nat → List BufEntry → Device → Store → Except LoadFail (Device × Store)
  | _, [], d, m => .ok (d, m)
  | i, e :: es, d, m =>
    match d.allocFw e.placement e.target e.pitches with
    | none => .error (noRoom 4 i)
    | some (id, d) =>
      let (d, m) := zeroBuf id d m
      let (d, m) := if e.dataOff = 0 then (d, m) else fwWrite id 0 (imgBytes img e.dataOff e.dataLen) d m
      let p := d.jobs.profile
      makeBufs img (i + 1) es { d with jobs := { d.jobs with profile := { p with bufs := p.bufs ++ [id] } } } m

/-- A profile buffer that a record names as 0xFFFF_0000 + i, put in its place (R746). -/
def recordPayload (d : Device) (op : Nat) (b : List Byte) : List Byte :=
  let off := if op = 0x0701 || op = 0x0702 || op = 0x0801 then 4 else 34
  let v := recU b off 4
  if [0x0701, 0x0702, 0x0800, 0x0801].elem op && 0xFFFF0000 ≤ v then
    recSet b off (leBytes 4 (d.jobs.profile.bufs.getD (v - 0xFFFF0000) 0))
  else b

/-- One configuration record applied as its command would be (R746). -/
def applyRecord (i op reserved : Nat) (payload : List Byte) (d : Device) (m : Store) : Except LoadFail (Device × Store) :=
  if !recordOp op then .error (badImage 3 i)
  else
    let body := recordPayload d op payload
    let r : Request := ⟨op, 0, body.length, 0, 0, 0, body⟩
    match settings.find? fun t => t.op == op with
    | none => .error (badImage 3 i)
    | some t =>
      match if reserved = 0 then staticCheck d r else some stBadField with
      | some st => .error ⟨stBadField, 2, st, i⟩
      | none =>
        let x := t.body r d m
        if x.2.status ≤ 1 then
          let p := x.1.1.jobs.profile
          .ok ({ x.1.1 with jobs := { x.1.1.jobs with profile := { p with uses := t.objs r d ++ p.uses } } }, x.1.2)
        else .error ⟨stBadField, 2, x.2.status, i⟩

/-- The configuration records applied in order. -/
def applyRecords : Nat → List (Option (Nat × Nat × List Byte)) → Device → Store → Except LoadFail (Device × Store)
  | _, [], d, m => .ok (d, m)
  | i, none :: _, _, _ => .error ⟨stBadField, 2, stBadLength, i⟩
  | i, some (op, reserved, b) :: rs, d, m =>
    match applyRecord i op reserved b d m with
    | .error e => .error e
    | .ok x => applyRecords (i + 1) rs x.1 x.2

/-! ## What every load does -/

/-- The die on which verification and the solve of LOOP jobs run (R601, R613). -/
def Device.loopDie (d : Device) : Nat := d.loc.loop.die.getD d.loc.cfg.pair

/-- A solver slot the profile can have for itself. -/
def Device.slvFree (d : Device) (die slot : Nat) : Bool :=
  d.slvUp die && (d.slvSlot die slot).desc.isEmpty && !d.slvEngaged die slot

/-- The ring of disparity frames of a pair (R443). -/
def Device.pairRing (d : Device) (p : Nat) : Option Device :=
  let c := d.steCfg p
  (allocMany p (4096 + 3 * c.outW * c.outH) c.outBuffers d).map fun (ids, d) =>
    d.updSte p fun x => { x with ring := ids, at_ := 0 }

/-- The layer ring and the input tensors of the strips' owners (R496, R519). -/
def Device.gridBuffers (d : Device) (dies : List Nat) : Option Device :=
  let g := d.grid
  let bytes := (g.cfg.strip + 64) * g.cfg.gridW * g.cstride * 2
  let d := { d with grid := { g with
    frame := 0, cells := [], x0 := -(g.cfg.gridW / 2 : Int), y0 := -(g.cfg.rows / 2 : Int), at_ := 0, header := zeros 64
    tickSeq := 0, contra := [], checkTick := none, decided := [], stepped := false } }
  (allocMany d.lead g.cfg.layerBytes g.cfg.layerBuffers d).bind fun (ids, d) =>
    dies.foldl (fun (acc : Option Device) k =>
      acc.bind fun d => (allocMany k bytes 1 d).map fun (t, d) =>
        { d with grid := { d.grid with tensors := d.grid.tensors.put k (t.headD 0) } })
      (some { d with grid := { d.grid with ring := ids } })

/-- The objects a profile's flags put in use: solver slots, localisation, loop closure, the grid, and the TICK itself. -/
def Device.flagUses (d : Device) (flags : Nat) : List (Nat × Nat) :=
  (if bit flags 0 then [(9, 4 * d.loc.cfg.pair), (11, 0)] else []) ++ (if bit flags 1 then [(10, 0)] else [])
    ++ (if bit flags 2 then [(9, 4 * d.loopDie + 1), (12, 0)] else []) ++ [(13, 0)]

/-- What a load does once its settings stand: solver slots, rings and buffers, the TICK job's parts placed and their units
reserved (R54, R714, R747), and localisation at COLD (R748). -/
def Device.startProfile (d : Device) (m : Store) (flags group id : Nat) (zero : Bool) (nets : List Net)
    (units : List (Nat × Nat)) : Except LoadFail (Device × Store) :=
  let dies := (List.range 8).filter fun k => d.grid.owners.getLsbD k && d.tickDie k && d.pwr.dieOn.getLsbD k
  let nets := numberNets 0 ((netOrder nets).flatMap (netCopies dies))
  let pairs := (List.range 8).filter fun p => d.jobs.profile.uses.elem (2, p)
  if (bit flags 0 && !d.slvFree d.loc.cfg.pair 0) || (bit flags 2 && !d.slvFree d.loopDie 1) then .error (noRoom 0 0)
  else if units.any fun u => !d.slotFree u.1 u.2 then .error (noRoom 5 0)
  else
    match if 64 < (nets.flatMap (·.parts)).length then none else d.planParts [] (nets.flatMap (·.parts)) with
    | none => .error (noRoom 5 0)
    | some ps =>
      match pairs.foldl (fun (acc : Option Device) p => acc.bind fun d => d.pairRing p) (some d) with
      | none => .error (noRoom 4 0)
      | some d =>
        match if bit flags 1 then d.gridBuffers dies else some d with
        | none => .error (noRoom 4 0)
        | some d =>
          match if nets.any (fun n => n.binds.elem 0xF4) then (d.allocFw 1 d.lead 1).map (fun x => (some x.1, x.2))
              else some (none, d) with
          | none => .error (noRoom 4 0)
          | some (code, d) =>
            let ps := ps.map (·.kept)
            let p := d.jobs.profile
            let d := { d with jobs := { d.jobs with profile := { p with
              state := .active, zero := zero, id := id, flags := flags, tickGroup := group
              uses := d.flagUses flags ++ p.uses, reserved := partSlots ps ++ units, ticks := 0, nets := nets, parts := ps
              code := code } } }
            let d := { d with loc := { d.loc with poseSeq := 0, tickSeq := 0, stepped := false } }
            .ok (d.locCold.ppStart, m)

/-! ## Profile 0 (R131, R134) -/

/-- A timing output's pulse width that no rule gives (log entry 5): a free value within the limits of R206. -/
def Device.freeWidth (d : Device) : Nat := (100 + (d.freeWord 22).toNat % 33000000) * oneNs

/-- A stream set up and started anew. -/
def Device.restartStream (d : Device) (s : Nat) (x : Stream → Stream) : Option Device :=
  ((d.stopStream s).updStream s x).enableStream s

/-- Cameras 0 and 1 and the IMU, with their compensation and pair (R131, R134). DESIGN CHOICE: log entry 30.
DEDUCED: log entry 62. -/
def zeroStreams (d : Device) : Option Device :=
  let cam := fun (c : CsiPort) => { c with
    phy := 0, lanes := 4, vc := 0, dt := 0x2C, bulkVc := 0xFF, width := 1920, height := 1200, frameTimeout := 100000
    embOff := 0xFFFF, frame := none }
  let c0 := d.tim.comp.put (compKey 0 0) ⟨0, 0, 1000000 * oneNs, 0⟩
  let c1 := c0.put (compKey 0 1) ⟨1, 0, 1000000 * oneNs, 0⟩
  let d := { d with tim := { d.tim with comp := c1 } }
  let d := (List.range 30).foldl (fun (d : Device) s => d.stopStream s) d
  let d := (d.setCsi 0 (cam (d.csi 0))).setCsi 1 (cam (d.csi 1))
  let imu := d.imu 0
  let d := d.setImu 0 { imu with
    mode := 3, drdyPol := 0, sclk := 10000, rate := 400, specs := List.replicate 7 FSpec.absent, busy := none }
  let base := fun (x : Stream) => { x with buffers := 4, usablePct := 10, period := 0, timeout := 0, recover := 0 }
  if !d.csiUp 0 || !d.csiUp 1 then none else
    ((d.restartStream 0 base).bind fun d => d.restartStream 1 base).bind fun d => d.restartStream 24 fun x =>
      { x with usablePct := 10, period := 0, timeout := 0, recover := 0 }

/-- Tracking of streams 0 and 1 with descriptor tables of their own, and the pair with the settings of R446. -/
def zeroVision (d : Device) : Option Device :=
  (allocMany 0 (8192 * 32) 2 d).map fun (ids, d) =>
    let d := d.setPair 0 ⟨true, 33333, false, none, none, 0, 0, none⟩
    let d := d.updSte 0 fun x => { x with cfg := none, maps := [], masks := [] }
    let p := d.jobs.profile
    let d := { d with jobs := { d.jobs with profile := { p with bufs := ids } } }
    (List.range 2).foldl (fun (d : Device) s =>
      let c := { d.fteDefault s with pred := 1, descLen := 32, descBuf := ids.getD s 0, descOff := 0 }
      d.updFte s fun x => { x with enable := true, cfg := some c, next := none, mask := none }) d

/-- Triggers, time base, localisation, check sources and outputs; other streams and outputs are off.
DEDUCED: log entry 62. Also R132. -/
def zeroRest (d : Device) : Device :=
  let d := (trigGroup ⟨0x0205, 0, 24, 0, 0, 0, leBytes 4 0 ++ leBytes 8 2184533333333 ++ zeros 12⟩ d).1
  let w := d.freeWidth
  let d := { d with tim := { d.tim with outs := [], ptp := [], pps := Pps.reset } }
  let d := d.tickFree
  let d := (List.range 2).foldl (fun (d : Device) o => d.setOut o { d.tout o with next := some ⟨0, 0, 0, 0, w⟩ }) d
  let d := { d with time := { d.time with
    mode := 0, domain := 0, allowStep := false, ppsTraceable := false, holdMax := 300, stepThresh := 1000000 } }
  let d := d.timeConfigured
  let d := { d with
    slv := { d.slv with pp := { d.slv.pp with
      imu := 24, gravity := PoseProp.reset.gravity, qbi := PoseProp.reset.qbi, tbi := Vec3.zero } }
    loc := { d.loc with
      cfg := Localisation.reset.cfg, wheel := Localisation.reset.wheel, gnss := Localisation.reset.gnss
      loop := { Localisation.reset.loop with die := some 0 } }
    grid := { d.grid with check := { Grid.reset.check with motionPairs := 1, geomPairs := 1 } }
    ing := { d.ing with can := d.ing.can.mapv fun c => { c with enable := false } } }
  let d := d.txDown 1 false
  let t := d.tx 0
  let d := d.setTx 0 { t with enabled := true, lanes := 4, clock := 0, rate := 2500, lineBytes := 4096, partBytes := 262144 }
  let d := { d with out := { d.out with routes := d.out.routes.mapv fun r => { r with on := false } } }
  d.setRoute 0x30 0 { Route.reset with on := true }

/-- Profile 0 loaded. Its networks are not part of the source: its TICK job reserves slots 0 to 7 of cluster 0, and has no
part of its own (DESIGN CHOICE, log entry 30). -/
def loadZero (d : Device) (m : Store) : Except LoadFail (Device × Store) :=
  match zeroStreams d with
  | none => .error (noRoom 2 0)
  | some d =>
    match zeroVision d with
    | none => .error (noRoom 4 0)
    | some d =>
      let d := zeroRest d
      let p := d.jobs.profile
      let d := { d with jobs := { d.jobs with profile := { p with
        uses := [(0, 0), (0, 1), (0, 24), (2, 0), (3, 0), (4, 0), (4, 1), (5, 0), (6, routeKey 0x30 0)] } } }
      d.startProfile m 5 0 0 true [] ((List.range 8).map (0, ·))

/-! ## Loading an image (R748) -/

/-- A profile image checked and loaded. DEDUCED: log entry 60. -/
def loadImage (b : List Byte) (d : Device) (m : Store) : Except LoadFail (Device × Store) :=
  if !profileHeaderOk b then .error (badImage 1 0)
  else
    let bufs := (List.range (imgField b 24 2)).map (bufEntry b)
    match firstBelow bufs.length fun i => (bufs.getD i none).isNone with
    | some i => .error (badImage 4 i)
    | none =>
      let bufs := bufs.filterMap id
      let nets := (List.range (imgField b 26 2)).map (netEntry b (bufs.map (·.pitches)))
      match firstBelow nets.length fun i => (nets.getD i none).isNone with
      | some i => .error (badImage 5 i)
      | none =>
        match makeBufs b 0 bufs d m with
        | .error e => .error e
        | .ok (d, m) =>
          match applyRecords 0 (profileRecords b (imgField b 12 4) (imgField b 16 8)) d m with
          | .error e => .error e
          | .ok (d, m) =>
            d.startProfile m (imgField b 7 1) (imgField b 6 1) (imgField b 8 4) false (nets.filterMap id) []

/-- The result of a load (R749). -/
def LoadFail.bytes (e : LoadFail) (id : Nat) : List Byte :=
  leBytes 1 e.error ++ leBytes 1 e.sub ++ zeros 2 ++ leBytes 4 e.index ++ leBytes 4 id

/-- A load under its handle: what a failed one changed is put back (R748). DEDUCED: log entry 60. -/
def loadUnder (h id : Nat) (d : Device) (m : Store) (x : Except LoadFail (Device × Store)) : Device × Store :=
  match x with
  | .error e => (d.finish h e.status (e.bytes id), m)
  | .ok (d, m) => (d.finish h stOk ((⟨stOk, 0, 0, 0⟩ : LoadFail).bytes id), m)

/-- PROFILE_LOAD (R746 to R748): the load extends the configuration digest (R812). -/
def execProfileLoad (ch : Fin 8) (s : State) : Host.Outcome State Fault Refusal :=
  commandMem 0x0506 ch (fun r d m =>
    let id := r.u 0 4
    let size := (d.buf id).elim 0 (·.size)
    if d.jobs.profile.state ≠ .none then ((d, m), ans stBadState)
    else if id ≠ 0 && (!isHostBuf id || size < r.u 8 8 + r.u 16 8) then ((d, m), ans stBadField)
    else if id ≠ 0 && (d.buf id).any (·.lost) then ((d, m), ans stNoResource)
    else if id ≠ 0 && !d.bufReady id then ((d, m), ans stBadState)
    else
      match d.mbx.newHandle ch.val r.op with
      | none => ((d, m), ans stNoResource)
      | some (h, mb) =>
        let d := Device.extendConfig { d with mbx := mb } r.op r.body
        let a : Reply := ⟨stAccepted, false, leBytes 4 h, true, some h⟩
        if id = 0 then (loadUnder h 0 d m (loadZero d m), a)
        else
          match d.bufRead m id (r.u 8 8) (r.u 16 8) with
          | .error e => (((d.logAccess 10 e).finish h stFailed (zeros 12), m), a)
          | .ok b => (loadUnder h (imgField b 8 4) d m (loadImage b d m), a)) s

/-- PROFILE_UNLOAD (R748): TICK and LOOP jobs are no longer admitted; it completes once none is active. -/
def execProfileUnload (ch : Fin 8) (s : State) : Host.Outcome State Fault Refusal :=
  command 0x0507 ch (fun r d =>
    if d.jobs.profile.state ≠ .active then (d, ans stBadState) else
      accept r ch.val d fun h d =>
        let p := d.jobs.profile
        Device.unloadDone { d with jobs := { d.jobs with profile := { p with state := .unloading, handle := some h } } }) s

/-- STATE codes of PROFILE_STATUS (R749). -/
def ProfState.code (p : ProfState) : Nat :=
  match p with
  | .none => 0
  | .loading => 1
  | .active => 2
  | .unloading => 3

/-- PROFILE_STATUS (R749). -/
def execProfileStatus (ch : Fin 8) (s : State) : Host.Outcome State Fault Refusal :=
  query 0x0508 ch (fun _ d =>
    let p := d.jobs.profile
    ans stOk (leBytes 1 p.state.code ++ leBytes 1 p.flags ++ leBytes 1 p.tickGroup ++ zeros 1 ++ leBytes 4 p.id
      ++ leBytes 2 p.reserved.length ++ leBytes 2 p.bufs.length ++ leBytes 4 p.ticks ++ fit 48 d.sec.cfgDigest)) s

/-! ## The end of a boot step -/

/-- READY (R125, R131, R812): the map's pool and index 0 are made, Profile 0 is applied unless NO_DEFAULT, the configuration
digest is set. -/
def atReady (d : Device) (m : Store) : Device × Store :=
  let d := { d with boot := { d.boot with ready := true } }
  let d := ((d.mapPools 512).getD d).mapDiag
  let d := (d.newIndex 0 256 256).getD d
  let x := if d.boot.noDefault then (d, m) else
    match loadZero d m with
    | .ok x => x
    | .error _ => (d, m)
  let d0 := { x.1 with sec := { x.1.sec with cfgDigest := zeros 48 } }
  (d0.extendConfig 0 [if d.boot.noDefault then 0xFF#8 else 0#8], x.2)

/-- What a step that completed leaves (R94): firmware runs from FW_START on, the device is ready after READY. -/
def stepDone (d : Device) (m : Store) : Device × Store :=
  let n := d.boot.step
  let b := { d.boot with state := .done, lastDone := n, result := none, fwStarted := d.boot.fwStarted || n == 8 }
  let d := { d with boot := b }
  let d := if b.ibiEn && d.i3c.dyn.isSome then d.raiseIbi n else d
  if n = 10 then atReady d m else (d, m)

/-- BOOT_STEP_END (R89, R94, R95): the result of the step's work is published. -/
def execBootStepEnd (s : State) : Host.Outcome State Fault Refusal :=
  onBoth (fun d m =>
    match d.boot.state, d.boot.result with
    | .busy, some .done => stepDone d m
    | .busy, some (.failed code detail ext) => (d.bootFail code detail ext, m)
    | _, _ => (d, m)) s

end Sys2Proof.Machine
end

