-- ==== Sys2Proof/Machine/PowerOps.lean ====
section
/-! DEFINITION. What is lost and what comes back when a domain or a die goes off or on, or is reset (R44, R373, R396, R455,
R532, R688, R738, R755 to R758), CP faults (R736), the clock caps and their event (R751, R765), and the shutdown (R768). -/

namespace Sys2Proof.Machine

/-! ## Domains -/

/-- Key of a domain of a die. -/
def domKey (die dom : Nat) : Nat := die * 16 + dom

/-- SOURCE of a domain's faults in the fault log (R753). -/
def domSource (dom : Nat) : Nat :=
  match dom with
  | 8 => 1
  | 9 => 3
  | 10 => 4
  | 11 => 7
  | _ => 0

/-- The jobs in work that a condition holds of. -/
def Device.jobsIn (d : Device) (p : Job → Bool) : List Nat :=
  (d.jobs.table.filter fun e => (decide (e.2.state = .loading) || decide (e.2.state = .running)
    || decide (e.2.state = .restarting)) && p e.2).map (·.1)

/-- Every one of some jobs faults. -/
def Device.faultAll (d : Device) (cause source die : Nat) (ids : List Nat) : Device :=
  ids.foldl (fun (d : Device) id => d.jobFault id cause source die 0 none 0) d

/-- A unit whose cluster loses its power (R373): IDLE unless DEFECTIVE, counters kept. -/
def CUnit.lost (u : CUnit) : CUnit :=
  if u.state = .defective then u
  else { CUnit.reset with active := u.active, stalls := u.stalls, ecc := u.ecc, misses := u.misses }

/-- A cluster's units, flags and allotments lost (R373). -/
def Device.clusterLost (d : Device) (c : Nat) : Device :=
  let d := (List.range 17).foldl (fun (d : Device) i => d.updUnit (c * 17 + i) CUnit.lost) d
  d.updCluster c fun k => { k with packets := [], flags := [], slots := [], blocks := [], groups := [], held := 0 }

/-- Open windows and compactions of a die are discarded; an interrupted compaction leaves the old chain (R688). -/
def Device.searchReset (d : Device) (die : Nat) : Device :=
  { d with prs := { d.prs with
    windows := d.prs.windows.del die, rounds := d.prs.rounds.del die
    compacts := d.prs.compacts.filter fun c => c.2.1 != die } }

/-- The contents of a domain are lost (R279, R373, R455, R532, R688). -/
def domainContents (die dom : Nat) (d : Device) (m : Store) : Device × Store :=
  if dom < 8 then (d.clusterLost (die * 8 + dom), m.loseCluster (die * 8 + dom))
  else if dom = 8 then (d.visionDown die, m)
  else if dom = 9 then (d.solverDown die, m)
  else if dom = 10 then (d.searchReset die, m)
  else (d.sfeDown die, m)

/-- A domain goes off (R738, R755): every job with work in it faults with cause RESET, its contents are lost. -/
def domainOff (die dom : Nat) (d : Device) (m : Store) : Device × Store :=
  let d := d.faultAll 0x0B (domSource dom) die (d.jobsIn fun j => (d.domainsOf j).elem (die, dom))
  let (d, m) := domainContents die dom d m
  (d.setDomain die dom false, m)

/-- A domain is back and returns to planning (R754): every command that waits for it is answered OK. -/
def Device.domainBack (d : Device) (die dom : Nat) : Device :=
  let mine := d.pwr.resetting.filter fun r => r.1 == domKey die dom
  let d := (d.setDomain die dom true)
  let d := { d with pwr := { d.pwr with resetting := d.pwr.resetting.filter fun r => r.1 != domKey die dom } }
  let d := if dom = 11 then d.sfeUp die else d
  mine.foldl (fun (d : Device) r =>
    match r.2 with
    | some ch =>
      match (d.chan ch).taken with
      | some q => d.answer ch q (ans stOk)
      | none => d
    | none => d) d

/-- A domain is switched on again and returns through DOMAIN_POWER_GOOD; `ch` is the channel that waits for it. -/
def Device.domainReturn (d : Device) (die dom : Nat) (ch : Option Nat) : Device :=
  { d with pwr := { d.pwr with resetting := d.pwr.resetting ++ [(domKey die dom, ch)] } }

/-- Whether a domain is on its way back. -/
def Device.domainPending (d : Device) (die dom : Nat) : Bool := d.pwr.resetting.any fun r => r.1 == domKey die dom

/-- Whether the active profile uses a domain (R746, R755): reserved units, pairs and tracked streams, solver slots, the
search and map domains with LOC, and SFE streams. -/
def Device.profileDomain (d : Device) (die dom : Nat) : Bool :=
  let p := d.jobs.profile
  decide (p.state ≠ .none) &&
    if dom < 8 then p.reserved.any fun r => r.1 == die * 8 + dom
    else p.uses.any fun u =>
      match dom with
      | 8 => (u.1 == 2 && u.2 == die) || (u.1 == 0 && u.2 < 16 && u.2 / 2 == die && (d.fteS u.2).enable)
      | 9 => u.1 == 9 && u.2 / 4 == die
      | 10 => u.1 == 11 || u.1 == 12
      | _ => u.1 == 1 && sfeDie u.2 == die

/-- The die an object of a profile lies on; none when it lies on none alone. -/
def Device.useDie (d : Device) (u : Nat × Nat) : Option Nat :=
  match u.1 with
  | 0 => some (d.streamDie u.2)
  | 1 => some (sfeDie u.2)
  | 2 => some u.2
  | 4 => some (u.2 / 2)
  | 5 => some u.2
  | 6 => some (u.2 % 256)
  | 7 => some (ethDie u.2)
  | 8 => some 0
  | 9 => some (u.2 / 4)
  | _ => none

/-- Whether the active profile uses a die (R756). -/
def Device.profileDie (d : Device) (die : Nat) : Bool :=
  let p := d.jobs.profile
  decide (p.state ≠ .none) && (p.reserved.any (fun r => r.1 / 8 == die) || p.uses.any (fun u => d.useDie u == some die)
    || p.uses.any (fun u => u.1 == 10)
    || p.bufs.any fun b => match d.buf b with | some x => x.pitches.any (fun q => q / 16384 == die) | none => false)

/-! ## Dies -/

/-- Buffers with a pitch on a die become LOST (R396). -/
def MemSys.loseDie (m : MemSys) (die : Nat) : MemSys :=
  { m with
    bufs := m.bufs.mapv fun b => if b.pitches.any fun q => q / 16384 == die then { b with lost := true } else b
    msc := m.msc.filter fun e => e.1 / 4096 != die
    bad := m.bad.filter fun s => s / 2 ^ 29 != die
    scrub := (m.scrub.del (2 * die)).del (2 * die + 1)
    engTags := m.engTags.del die }

/-- The die's part of the map and of the indexes, with their pools and tree copies, is lost (R647, R686). -/
def Device.storesDown (d : Device) (die : Nat) : Device :=
  let ids := (d.map.pools.look die).toList
    ++ d.prs.indexes.flatMap fun e => (e.2.pools.look die).toList ++ (e.2.copies.look die).toList
  (ids.foldl (fun (d : Device) id => d.freeBuf id) d).mapDieDown die

/-- The interfaces of a die go down: its transmit port is cut, its timing outputs go low, its streams turn OFF (R75, R210,
R230, R703). -/
def Device.interfacesDown (d : Device) (die : Nat) : Device :=
  let d := if die < 2 then d.txDown die true else d
  let d := [2 * die, 2 * die + 1].foldl (fun (d : Device) o => d.setOut o { d.tout o with pulses := [] }) d
  (d.streamsDown).select false

/-- A follower die goes off (R44, R758): the jobs that hold something on it fault with cause DIE_DOWN, and it keeps
nothing. -/
def dieOff (die : Nat) (d : Device) (m : Store) : Device × Store :=
  let d := { d with memsys := d.memsys.loseDie die }
  let hit := d.jobsIn fun j => (d.domainsOf j).any (fun x => x.1 == die && x.2 != 10) || d.grantsLost j
    || j.dies.getLsbD die
  let d := d.faultAll 0x0C 10 die hit
  let (d, m) := (List.range 12).foldl (fun x dom => domainContents die dom x.1 x.2) (d, m)
  let d := d.storesDown die
  let d := { d with
    pwr := { d.pwr with
      dieOn := d.pwr.dieOn &&& ~~~ BitVec.twoPow 8 die, domains := d.pwr.domains.put die 0
      tjValid := d.pwr.tjValid &&& ~~~ BitVec.twoPow 8 die, throttle := d.pwr.throttle &&& ~~~ BitVec.twoPow 8 die
      cap := d.pwr.cap.del die, sensed := d.pwr.sensed &&& ~~~ BitVec.twoPow 8 die, current := d.pwr.current.del die
      resetting := d.pwr.resetting.filter fun r => r.1 / 16 != die }
    grid := { d.grid with tensors := d.grid.tensors.del die }
    diag := d.diag.filter fun e => e.1 / 128 != die }
  (d.interfacesDown die, { m with lp := (m.lp.clear (2 * die * 2 ^ 34) (2 ^ 35)) })

/-- Firmware buffers that a die's return makes usable again; a profile's buffers stay LOST until it is loaded anew
(R396). -/
def Device.refreshBufs (d : Device) : Device :=
  { d with memsys := { d.memsys with bufs := d.memsys.bufs.map fun e =>
      (e.1, if !isHostBuf e.1 && !d.jobs.profile.bufs.elem e.1 && e.2.pitches.all fun q => d.pwr.dieOn.getLsbD (q / 16384)
        then { e.2 with lost := false } else e.2) } }

/-- Pools of the map and the indexes and tree copies on a die that returned: empty shards, a copy of every tree (R647,
R687). -/
def Device.storesUp (d : Device) (die : Nat) : Device :=
  let d := match d.allocFw 1 die ((d.map.poolMib + 1) / 2) with
    | some (id, d) => { d with map := { d.map with pools := d.map.pools.put die id } }
    | none => d
  d.prs.indexes.foldl (fun (d : Device) e =>
    let d := match d.allocFw 1 die ((e.2.poolMib + 1) / 2) with
      | some (id, d) => { d with prs := { d.prs with indexes := d.prs.indexes.map fun y =>
          if y.1 = e.1 then (y.1, { y.2 with pools := y.2.pools.put die id }) else y } }
      | none => d
    if e.2.nodes.isEmpty then d else
      match e.2.copies with
      | [] => d
      | (_, other) :: _ =>
        match d.allocFw 1 die (((d.buf other).map (·.pitches.length)).getD 1) with
        | some (id, d) => { d with prs := { d.prs with indexes := d.prs.indexes.map fun y =>
            if y.1 = e.1 then (y.1, { y.2 with copies := y.2.copies.put die id }) else y } }
        | none => d) d

/-- A unit that fails the known-answer slices of a die's power-on is marked, listed and reported (R129, R757). -/
def Device.katUnit (d : Device) (phys : Nat) : Device :=
  ((katMark d phys).updUnit phys fun u => { u with state := .defective }).defectEvent (phys / 136) phys 1

/-- A follower die comes back (R757): every domain on, its memory zero-filled, its known-answer slices judged. An engine
that fails, or a unit that cannot be spared, leaves it withdrawn and its ring entry carries FAILED. -/
def dieBack (die : Nat) (engines units : List Nat) (d : Device) : Device :=
  let pin := d.pwr.dieHandles.look die
  let d := { d with pwr := { d.pwr with
    dieOn := d.pwr.dieOn ||| BitVec.twoPow 8 die, domains := d.pwr.domains.put die 0xFFF
    pendingOn := d.pwr.pendingOn &&& ~~~ BitVec.twoPow 8 die, dieHandles := d.pwr.dieHandles.del die } }
  let before := d.view
  let full := 256 ≤ d.boot.soft.length
  let bad := (List.range 136).map (die * 136 + ·) |>.filter fun u => units.elem u && !d.view.isBad u
  let d := bad.foldl (fun (d : Device) u => d.katUnit u) d
  let stuck := bad.find? (katUnspared before d.view)
  let failed := !engines.isEmpty || stuck.isSome || (full && !bad.isEmpty)
  let d := match engines.head?, stuck with
    | some e, _ => d.outsideFault 0x0A (if e < 5 then e + 1 else 7) die 0 none e
    | none, some u => d.outsideFault 0x0A 0 die u none 0
    | none, none => d
  let bits_ := BitVec.twoPow 8 die
  let d := { d with pwr := { d.pwr with
    withdrawn := if failed || d.evt.faultCp.getLsbD die then d.pwr.withdrawn ||| bits_ else d.pwr.withdrawn &&& ~~~ bits_
    tickWithdrawn := if d.evt.faultTb.getLsbD die then d.pwr.tickWithdrawn ||| bits_
      else d.pwr.tickWithdrawn &&& ~~~ bits_ } }
  let d := ((d.refreshBufs).storesUp die).sfeUp die
  d.finishOpt pin (if failed then stFailed else stOk) []

/-- A fault of a die's control processor (R736): reported, the die withdrawn, the jobs with parts there fault.
DEDUCED: log entry 40. -/
def Device.cpFault (d : Device) (die source : Nat) : Device :=
  let d := { d with
    evt := { d.evt with faultCp := d.evt.faultCp ||| BitVec.twoPow 8 die }
    pwr := { d.pwr with withdrawn := d.pwr.withdrawn ||| BitVec.twoPow 8 die } }
  let d := (d.outsideFault 0x0D source die 0 none 0).event 0x0043 0 die 0 0
  d.faultAll 0x0D 10 die (d.jobsIn fun j => (d.domainsOf j).any (fun x => x.1 == die && x.2 != 10) || j.dies.getLsbD die)

/-! ## Clocks -/

/-- Clusters whose clock a change took below the grade limit write event 0x0031, once in any 100 ms each (R765). -/
def Device.capEvents (d : Device) (old : Device) : Device :=
  (List.range 64).foldl (fun (d : Device) c =>
    if !d.domainOn (c / 8) (c % 8) || d.clusterClock c = d.fuse.clockMHz || old.clusterClock c < d.fuse.clockMHz then d
    else if (d.pwr.capEventAt.look c).any fun t => decide (d.time.now < t + 100 * oneMs) then d
    else
      ({ d with pwr := { d.pwr with capEventAt := d.pwr.capEventAt.put c d.time.now } }).event 0x0031 9 c
        (d.clusterClock c) d.pwr.est) d

/-! ## Shutdown -/

/-- The package shuts down (R767, R768): everything but the I3C target and the BOOT, DEFECT and EVT windows stops and is
lost until a package reset; EVT_THERM records why. -/
def shutdown (cause die : Nat) (d : Device) (m : Store) : Device × Store :=
  let tj := d.pwr.tj.getD die 0
  let r := d.packageReset
  let off : Device := { r with
    pkg := { d.pkg with shutdown := true }, boot := { d.boot with result := none, pll := false }, view := d.view
    i3c := d.i3c, evt := d.evt, time := d.time, sec := { d.sec with ops := [] }
    pwr := { d.pwr with
      domains := [], resetting := [], pendingOn := 0, dieHandles := []
      therm := BitVec.ofNat 32 (2 ^ 31 + cause * 2 ^ 24 + die * 65536 + unsigned 16 tj) } }
  (off.setCause 8, { m with lp := [], sram := [] })

end Sys2Proof.Machine
end

