-- ==== Sys2Proof/Machine/SelfTestOps.lean ====
section
/-! DEFINITION. Self-test slices (R772 to R791): their targets, times and windows, what a slice holds, its save and restore,
and the repairs that its finds lead to. -/

namespace Sys2Proof.Machine

/-! ## Targets and times -/

/-- Banks of a memory target (R777). -/
def stBanks (target : Nat) : Nat :=
  match target with
  | 0 => 8
  | 1 => 128
  | 2 => 256
  | 3 => 512
  | 4 => 512
  | _ => 192

/-- The first die bank number of a memory slice (R777). -/
def StSlice.firstBank (x : StSlice) : Nat :=
  match x.target with
  | 0 => 8 * (x.index % 136)
  | 1 => 1088 + 128 * (x.index % 8)
  | 2 => 2112 + 256 * (x.index % 2)
  | 3 => 2624
  | 4 => 3136
  | _ => 3648

/-- Bytes of a memory target: 16 KiB a bank (R777). -/
def stBytes (target : Nat) : Nat := stBanks target * 16384

/-- Pitches of the save buffer of a target; a cache slice and a logic target need none (R784, R786). -/
def stPitches (kind target : Nat) : Nat :=
  if kind = 0 && target ≠ 2 then (stBytes target + pitchSize - 1) / pitchSize else 0

/-- The cluster of a unit or landing target. -/
def StSlice.cluster (x : StSlice) (kind : Nat) : Option Nat :=
  if x.target = 0 then some (x.index / 17) else if kind = 0 && x.target = 1 then some x.index else none

/-- The clock of a target's island in MHz (R777, R783). -/
def Device.stClock (d : Device) (kind : Nat) (x : StSlice) : Nat :=
  match x.cluster kind with
  | some c => d.clusterClock c
  | none =>
    if kind = 0 then (if x.target = 2 then 1600 else if x.target = 3 then 1200 else 1000)
    else if x.target ≤ 2 then 1200 else 1000

/-- `n` cycles at a clock of `mhz`, in 2^-16 ns, rounded up. -/
def cyclesAt (n mhz : Nat) : Nat := (n * 1000 * oneNs + mhz - 1) / mhz

/-- The save and the restore of a memory target at the rate of its save path (R777, R779), in 2^-16 ns. A cache slice has
neither. DESIGN CHOICE: log entry 51. -/
def stSaveTime (target : Nat) : Nat :=
  let n := 2 * stBytes target * oneNs
  if target = 2 then 0
  else if target < 2 then (n * 100 + 6826) / 6827
  else (n * 10 + 511) / 512

/-- Scan patterns of a logic mode, and cycles of a pattern by target (R782, R783). -/
def stPatterns (mode : Nat) : Nat := if mode = 0 then 4096 else if mode = 1 then 16384 else 65536
def stPatternCycles (target : Nat) : Nat :=
  match target with
  | 0 => 160
  | 1 => 320
  | 2 => 320
  | 3 => 256
  | 4 => 256
  | _ => 192

/-- The budget of a slice (R780, R783), in 2^-16 ns. DESIGN CHOICE: log entry 51. -/
def stBudget (kind mode target mhz : Nat) : Nat :=
  if kind = 0 then
    let ops := if mode = 0 then 10 else 22
    2 * (cyclesAt ((stBanks target + 127) / 128 * 2 * ops * 2064) mhz + stSaveTime target) + 100000 * oneNs
      + (if target = 1 then oneMs else 0)
  else 2 * (cyclesAt (stPatterns mode * stPatternCycles target) mhz + 20000 * oneNs) + 100000 * oneNs

/-- The slices of a run in their order (R774). -/
def stSlices (kind targets : Nat) (dies : BitVec 8) (unitFirst unitLast : Nat) (clusters : Nat) : List StSlice :=
  ((List.range 8).filter fun k => dies.getLsbD k).flatMap fun k =>
    ((List.range 6).filter fun t => bit targets t).flatMap fun t =>
      if t = 0 then ((List.range 136).map (136 * k + ·)).filterMap fun u =>
        if unitFirst ≤ u && u ≤ unitLast && bit clusters (u / 17) then some ⟨0, k, u⟩ else none
      else if kind = 0 && t = 1 then ((List.range 8).map (8 * k + ·)).filterMap fun c =>
        if bit clusters c then some ⟨1, k, c⟩ else none
      else if kind = 0 && t = 2 then [⟨2, k, 2 * k⟩, ⟨2, k, 2 * k + 1⟩]
      else [⟨t, k, k⟩]

/-! ## When a slice may start -/

/-- Whether the die and the domain of a target are on (R775). -/
def Device.stUp (d : Device) (kind : Nat) (x : StSlice) : Bool :=
  d.pwr.dieOn.getLsbD x.die && match sliceDomain (kind * 8 + x.target) x.index with
    | some dom => d.domainOn x.die dom
    | none => true

/-- Whether no job but `job` has an entry of a table. -/
def heldOnlyBy (t : Tbl Nat) (job : Nat) : Bool := t.all fun e => e.2 == job

/-- Whether no operation is running on an engine (R775). -/
def Device.engineIdle (d : Device) (die code : Nat) : Bool :=
  match code with
  | 0 => (d.vis.steOn.look die).isNone
  | 1 => (d.vis.fteOn.look die).isNone
  | 2 => !d.slv.ops.any fun o => o.die == die && o.begun && !o.suspended && o.header.isEmpty
  | 3 => (d.prs.windows.look die).isNone
  | _ => true

/-- Whether a target is free for the slice job `job` (R775). -/
def Device.stFree (d : Device) (kind job : Nat) (x : StSlice) : Bool :=
  let k := d.cluster (x.index / (if x.target = 0 then 17 else 1))
  if x.target = 0 then
    let u := d.unit x.index
    let held := match d.view.unitSlot (x.index / 17) (x.index % 17) with
      | some l => match k.slots.look l with | some j => decide (j ≠ job) | none => false
      | none => false
    (decide (u.state = .idle) || decide (u.state = .defective)) && !held
  else if kind = 0 && x.target = 1 then
    heldOnlyBy k.slots job && heldOnlyBy k.blocks job && heldOnlyBy k.groups job
  else (stEngines kind x.target).all (d.engineIdle x.die)

/-- Whether the active profile uses an engine of a die (R776). -/
def Device.engineUsed (d : Device) (die code : Nat) : Bool :=
  let p := d.jobs.profile
  decide (p.state ≠ .none) && p.uses.any fun u =>
    match code with
    | 0 => u.1 == 2 && u.2 == die
    | 1 => u.1 == 0 && u.2 < 16 && u.2 / 2 == die && (d.fteS u.2).enable
    | 2 => u.1 == 9 && u.2 / 4 == die
    | _ => u.1 == 11 || u.1 == 12

/-- Whether a profile runs TICK jobs. -/
def Device.ticking (d : Device) : Bool :=
  decide (d.jobs.profile.state = .active) && d.jobs.profile.uses.elem (13, 0)

/-- Whether R776 lets a slice start now: at once, or right after a TICK commit when its budget ends at least 1 ms before the
next edge of the tick group. -/
def Device.stMoment (d : Device) (kind budget : Nat) (x : StSlice) : Bool :=
  if (kind == 0 && x.target == 2 && d.ticking) || (stEngines kind x.target).any (d.engineUsed x.die) then
    let g := d.group d.jobs.profile.tickGroup
    d.jobs.profile.commitAt == some d.time.now
      && (!g.running || d.time.ns16 + budget + oneMs ≤ g.edge (g.firstAfter d.time.ns16))
  else true

/-- Whether the island clock of a memory slice is high enough (R781); only cluster targets have a minimum. -/
def Device.stClockOk (d : Device) (kind clkMin : Nat) (x : StSlice) : Bool :=
  kind != 0 || (x.cluster kind).isNone
    || decide ((if clkMin = 0 then d.fuse.clockMHz else clkMin) ≤ d.stClock kind x)

/-! ## Holding a target -/

/-- The slice's target is given to its job (R775): a unit's slot, or all of a cluster. -/
def Device.stHold (d : Device) (kind job : Nat) (x : StSlice) : Device :=
  if x.target = 0 then
    match d.view.unitSlot (x.index / 17) (x.index % 17) with
    | some l => d.updCluster (x.index / 17) fun k => { k with slots := k.slots.put l job }
    | none => d
  else if kind = 0 && x.target = 1 then
    d.updCluster x.index fun k => { k with
      slots := (List.range 16).map (·, job), blocks := (List.range 64).map (·, job)
      groups := (List.range 32).map (·, job) }
  else d

/-- What a job holds of any cluster is given back. -/
def Device.stRelease (d : Device) (job : Nat) : Device :=
  { d with clusters := d.clusters.mapv fun k => { k with
      slots := k.slots.filter fun e => e.2 != job, blocks := k.blocks.filter fun e => e.2 != job
      groups := k.groups.filter fun e => e.2 != job } }

/-- The bytes a target holds (R784): those of engine SRAM are laid out nowhere, free values. -/
def Device.stContent (d : Device) (m : Store) (x : StSlice) : List Byte :=
  match x.target with
  | 0 => m.sramRead (scratchAddr x.index 0) (stBytes 0)
  | 1 => m.sramRead (landAddr x.index 0) (stBytes 1)
  | t => d.freeBytes 50 (stBytes t)

/-- Every dirty sector of a region's slice is written back and the slice is emptied (R786). -/
def Device.stFlush (d : Device) (region : Nat) : Device :=
  let ways := (d.memsys.msc.filter fun e => e.1 / 2048 == region).flatMap fun e => e.2.ways
  let d := ways.foldl (fun (d : Device) w => d.evict region w) d
  { d with memsys := d.memsys.dropSlice region }

/-- The save buffer of a die, allotted if it is not yet there; none when it cannot be. -/
def Device.stSave (d : Device) (r : StRun) (x : StSlice) : Option (Option Nat × StRun × Device) :=
  let n := stPitches r.kind x.target
  if n = 0 then some (none, r, d) else
    match r.save.look x.die with
    | some id => some (some id, r, d)
    | none => (d.allocFw 1 x.die n).map fun (id, d) => (some id, { r with save := r.save.put x.die id }, d)

/-- The target as its save buffer holds it (R784); a landing slice first resets its cluster's partition (R785), whose units,
flags and landing are then held again. -/
def stRestore (r : StRun) (x : StSlice) (job : Nat) (d : Device) (m : Store) : Device × Store :=
  if r.kind ≠ 0 || 2 ≤ x.target then (d, m) else
    let (d, m) := if x.target = 1 then domainContents x.die (x.index % 8) d m else (d, m)
    let a := if x.target = 0 then scratchAddr x.index 0 else landAddr x.index 0
    match (r.save.look x.die).map fun id => d.bufRead m id 0 (stBytes x.target) with
    | some (.ok bs) => (d.stHold r.kind job x, m.sramWrite a bs)
    | some (.error (.ecc pa)) => ((d.stHold r.kind job x).jobFault job 0x05 6 x.die 0 (some pa) 0, m)
    | some (.error (.completion pa)) => ((d.stHold r.kind job x).jobFault job 0x06 6 x.die 0 (some pa) 0, m)
    | none => (d, m)

/-! ## Repair (R787 to R789) -/

/-- A run of the table replaced. -/
def Device.setStRun (d : Device) (h : Nat) (r : StRun) : Device := { d with st := { d.st with runs := d.st.runs.put h r } }

/-- A unit is marked defective by a slice, listed with origin 2 and reported (R788). -/
def Device.stMark (d : Device) (phys : Nat) : Device :=
  if d.view.isBad phys then d else
    let b := d.boot.softAdd (defectWord 1 (phys / 136) 1 phys) 2
    (({ d with view := d.view.mark phys true, boot := b }).updUnit phys fun u =>
      { u with state := .defective }).defectEvent (phys / 136) phys 1

/-- An engine is withdrawn until a package reset (R787). -/
def Device.stWithdraw (d : Device) (die code : Nat) : Device :=
  if d.pwr.engines.elem (die, code) then d else
    ({ d with pwr := { d.pwr with engines := d.pwr.engines ++ [(die, code)] } }).outsideFault 0x0A (code + 1) die 0 none 0

/-- The excess column of R787 for a target. DEDUCED: log entry 53. -/
def Device.stExcess (d : Device) (kind : Nat) (x : StSlice) : Device :=
  if x.target = 0 then d.stMark x.index
  else if kind = 0 && x.target = 1 then
    ((List.range 17).map (x.index * 17 + ·)).foldl (fun (d : Device) u => d.stMark u) d
  else if kind = 0 && x.target = 2 then
    { d with pwr := { d.pwr with noalloc := d.pwr.noalloc ||| BitVec.twoPow 16 x.index } }
  else (stEngines kind x.target).foldl (fun (d : Device) e => d.stWithdraw x.die e) d

/-- One failing row (R787, R788): remapped to a spare, or left to the excess column. `n` rows were repaired before it. -/
def Device.stRow (d : Device) (die : Nat) (again : List Nat) (n bank row : Nat) : Device × Bool :=
  let v := { d.view with rows := d.view.rows ++ [(die, bank, row)] }
  if v.bankRows die bank false ≤ 2 - v.bankRows die bank true && !again.elem bank && n < 16 then
    let b := d.boot.softAdd (defectWord 2 die 1 (bank * 4096 + row)) 2
    (({ d with view := v, boot := b }).defectEvent die (bank * 4096 + row) 2, true)
  else (d, false)

/-- All failing rows in order: the device and the rows repaired. -/
def stRows (die : Nat) (again : List Nat) : List (Nat × Nat) → Device → List (Nat × Nat) → Device × List (Nat × Nat)
  | [], d, done => (d, done)
  | p :: ps, d, done =>
    match d.stRow die again done.length p.1 p.2 with
    | (d, true) => stRows die again ps d (done ++ [p])
    | (d, false) => stRows die again ps d done

/-- A failing bit as it can be found in a target (R777). -/
def StSlice.canFind (x : StSlice) (f : StFind) : Bool :=
  x.firstBank ≤ f.bank && f.bank < x.firstBank + stBanks x.target && f.row ≤ 257 && f.word < 8 && f.bit < 72 && f.element ≤ 5

/-- OFFSET of a failure record (R778, R791): in the arrays of codes 2 to 5 it is stated nowhere, a free value. -/
def Device.stOffset (d : Device) (x : StSlice) (f : StFind) : Nat :=
  let k := f.bank - x.firstBank
  if 256 ≤ f.row then 0xFFFFFFFF
  else if x.target = 0 then (f.row * 8 + k) * 64 + f.word * 8
  else if x.target = 1 then (f.row * 128 + k) * 64 + f.word * 8
  else (d.freeWord 51).toNat

/-- INDEX of a failure record. -/
def StSlice.recordIndex (x : StSlice) (kind : Nat) : Nat := if (stEngines kind x.target).isEmpty then x.index else 0

/-- A failure record of a memory slice (R791). -/
def Device.stRecord (d : Device) (x : StSlice) (f : StFind) (repaired excess : Bool) : List Byte :=
  leBytes 1 x.target ++ leBytes 1 x.die ++ leBytes 2 (x.recordIndex 0) ++ leBytes 2 f.bank ++ leBytes 2 f.row
    ++ leBytes 1 f.word ++ leBytes 1 f.bit ++ leBytes 1 f.element
    ++ leBytes 1 (b2n f.expected + 2 * b2n repaired + 4 * b2n excess + 8 * b2n (decide (256 ≤ f.row)))
    ++ leBytes 4 (d.stOffset x f) ++ zeros 16

/-- A failure record of a logic slice (R791). DEDUCED: log entry 53. -/
def stLogicRecord (x : StSlice) (out : SliceOut) (repaired excess : Bool) : List Byte :=
  leBytes 1 x.target ++ leBytes 1 x.die ++ leBytes 2 (x.recordIndex 1) ++ List.replicate 7 0xFF#8
    ++ leBytes 1 (2 * b2n repaired + 4 * b2n excess) ++ leBytes 4 0xFFFFFFFF ++ leBytes 8 out.sigExp ++ leBytes 8 out.sigObs

/-- The defect that a failure record names (R793), as a word of R105 with SOURCE 0: a unit, or a bank and row. -/
def recordDefects (kind : Nat) (rec_ : List Byte) : List Word :=
  let f := fun o n => leNat ((rec_.drop o).take n)
  (if f 0 1 = 0 then [defectWord 1 (f 1 1) 0 (f 2 2)] else [])
    ++ if kind = 0 then [defectWord 2 (f 1 1) 0 (f 4 2 * 4096 + f 6 2)] else []

/-- Failure records kept (R790): 1,024 in a run, later ones set TRUNCATED. -/
def StRun.keep (r : StRun) (recs : List (List Byte)) : StRun :=
  let room := 1024 - r.records.length
  { r with records := r.records ++ recs.take room, truncated := r.truncated || decide (room < recs.length) }

/-- What a memory slice's finds lead to: device, outcome, failure records (R787 to R791). -/
def Device.stMemory (d : Device) (r : StRun) (x : StSlice) (out : SliceOut) : Device × Nat × List (List Byte) :=
  let fs := out.finds.filter x.canFind
  let plain := fun (d : Device) => fs.foldl (fun (a : Device × List (List Byte)) f =>
    (a.1.tickFree, a.2 ++ [a.1.stRecord x f false false])) (d, [])
  if fs.isEmpty then (d, 0, [])
  else if x.target = 0 && d.view.isBad x.index then
    let (d, recs) := plain d
    (d, 10, recs)
  else if r.noRepair then
    let (d, recs) := plain d
    (d, 2, recs)
  else
    let rows := (fs.map fun f => (f.bank, f.row)).eraseDups
    let (d, done) := stRows x.die out.again rows d []
    let bad := rows.any fun p => !done.elem p
    let d := if bad then d.stExcess 0 x else d
    let (d, recs) := fs.foldl (fun (a : Device × List (List Byte)) f =>
      let ok := done.elem (f.bank, f.row)
      (a.1.tickFree, a.2 ++ [a.1.stRecord x f ok !ok])) (d, [])
    (d, if bad then 3 else 1, recs)

/-- What a logic slice's signature leads to (R787, R789): device, outcome, failure records. -/
def Device.stLogic (d : Device) (r : StRun) (x : StSlice) (out : SliceOut) : Device × Nat × List (List Byte) :=
  if out.sigExp % 2 ^ 64 = out.sigObs % 2 ^ 64 then (d, 0, [])
  else if x.target = 0 && d.view.isBad x.index then (d, 10, [stLogicRecord x out false false])
  else if r.noRepair then (d, 2, [stLogicRecord x out false false])
  else
    let d' := d.stExcess 1 x
    let spared := x.target = 0 && !katUnspared d.view d'.view x.index
    (d', if spared then 1 else 3, [stLogicRecord x out spared !spared])

/-! ## Runs -/

/-- A slice that becomes due: its job is admitted (R773). -/
def Device.stDue (d : Device) (h : Nat) (r : StRun) : Device :=
  match r.current with
  | none => d.setStRun h r
  | some x =>
    let budget := stBudget r.kind r.mode x.target (d.stClock r.kind x)
    let j := { Job.blank .test (.slice x.die (r.kind * 8 + x.target) x.index) with
      waitMs := (budget + oneMs - 1) / oneMs, dies := BitVec.twoPow 8 x.die }
    match d.admitJob j with
    | some (id, d) => d.setStRun h { r with job := some id }
    | none => d.setStRun h { r with job := none }

/-- The result of a run (R790). -/
def StRun.result (r : StRun) : List Byte :=
  let count := fun k => (r.results.filter fun x => x.outcome == k).length
  let head := leBytes 1 r.kind ++ leBytes 1 r.mode ++ leBytes 1 (b2n r.truncated + 2 * b2n r.cancel) ++ zeros 1
    ++ leBytes 2 r.slices.length ++ leBytes 2 r.records.length ++ ((List.range 11).flatMap fun k => leBytes 2 (count k))
    ++ zeros 2 ++ leBytes 16 r.startDts.toNat ++ leBytes 16 r.endDts.toNat
  let entries := (List.zip r.slices r.results).flatMap fun (x, o) =>
    leBytes 1 x.target ++ leBytes 1 x.die ++ leBytes 2 x.index ++ leBytes 1 o.outcome ++ leBytes 1 (min 255 o.attempts)
      ++ leBytes 2 (min 65535 o.nfail)
  fit ((64 + entries.length + 63) / 64 * 64) (head ++ entries) ++ r.records.flatten

/-- A run ends (R773, R785): its buffers are freed and its handle completes. -/
def Device.stFinish (d : Device) (h : Nat) (r : StRun) : Device :=
  let d := r.save.foldl (fun (d : Device) e => d.freeBuf e.2) d
  ({ d with st := { d.st with runs := d.st.runs.del h } }).finish h (if r.cancel then stCancelled else stOk) r.result

/-- The present slice ends with an outcome; the run goes on, or ends with the slices it left out CANCELLED (R775, R785). -/
def Device.stEnd (d : Device) (h : Nat) (r : StRun) (outcome nfail : Nat) : Device :=
  let d := match r.job with
    | some j => (d.stRelease j).endJob j stOk []
    | none => d
  let r := { r with results := r.results ++ [⟨outcome, r.attempts, nfail⟩], job := none, attempts := 0, voids := 0,
                    testing := false, dueAt := d.time.now, endDts := d.stamp }
  if r.results.length = r.slices.length then d.stFinish h r
  else if r.cancel then
    d.stFinish h { r with results := r.results ++ List.replicate (r.slices.length - r.results.length) ⟨9, 0, 0⟩ }
  else d.stDue h r

/-- A run is cancelled (R785): at the end of the slice under test, at once while its slice waits. -/
def Device.stCancel (d : Device) (h : Nat) : Device :=
  match d.st.runs.look h with
  | none => d
  | some r =>
    let r := { r with cancel := true }
    if r.testing then d.setStRun h r else d.stEnd h r 9 0

end Sys2Proof.Machine
end

