-- ==== Sys2Proof/Machine/SelfTest.lean ====
section
/-! DEFINITION. Self-test on command (R772 to R795): ST_RUN, its slices, ST_PROGRESS, the field-repair records, and the
restart of jobs, slice jobs among them. -/

namespace Sys2Proof.Machine

/-! ## Commands -/

/-- ST_RUN's field checks (R774, R781, R782, R790). -/
def stRunOk (r : Request) (d : Device) (xs : List StSlice) : Bool :=
  let kind := r.u 0 1
  let clk := r.u 6 2
  kind ≤ 1 && r.u 1 1 ≤ (if kind = 0 then 1 else 2) && r.u 3 1 < 64 && r.u 10 2 ≤ 1087 && r.u 12 2 ≤ 1087
    && (clk == 0 || (400 ≤ clk && clk ≤ d.fuse.clockMHz)) && xs.length ≤ 2048

/-- Whether a slice names a unit reserved under R54, or the landing of a cluster that holds one (R776). -/
def Device.stReserved (d : Device) (kind : Nat) (x : StSlice) : Bool :=
  if x.target = 0 then d.jobs.profile.reserved.any fun r => d.slotPhys r.1 r.2 == some x.index
  else kind == 0 && x.target == 1 && d.jobs.profile.reserved.any fun r => r.1 == x.index

/-- The save buffers of a run, one for each powered die (R784): none when one cannot be allotted. -/
def stSaves (kind : Nat) (xs : List StSlice) : List Nat → Device → Tbl Nat → Option (Tbl Nat × Device)
  | [], d, t => some (t, d)
  | k :: ks, d, t =>
    let n := (xs.filter fun x => x.die == k).foldl (fun n x => max n (stPitches kind x.target)) 0
    if n = 0 || !d.pwr.dieOn.getLsbD k then stSaves kind xs ks d t else
      match d.allocFw 1 k n with
      | some (id, d) => stSaves kind xs ks d (t.put k id)
      | none => none

/-- The run that ST_RUN starts, before its first slice. -/
def stNew (r : Request) (d : Device) (h : Nat) (xs : List StSlice) (save : Tbl Nat) : StRun where
  handle := h
  kind := r.u 0 1
  mode := r.u 1 1
  noRepair := bit (r.u 2 1) 0
  clkMin := r.u 6 2
  waitMs := r.u 8 2
  slices := xs
  results := []
  save := save
  job := none
  dueAt := d.time.now
  attempts := 0
  voids := 0
  testing := false
  startedAt := 0
  clock := 0
  heldFrom := 0
  records := []
  truncated := false
  startDts := 0
  endDts := 0
  cancel := false

/-- ST_RUN (R772 to R776, R784, R790): a run of no slice completes at once. -/
def stRunCmd (ch : Nat) (r : Request) (d : Device) : Device × Reply :=
  let kind := r.u 0 1
  let xs := stSlices kind (r.u 3 1) (BitVec.ofNat 8 (r.u 4 1)) (r.u 10 2) (r.u 12 2) (r.u 16 8)
  if !stRunOk r d xs then (d, ans stBadField)
  else if !d.boot.ready || xs.any (d.stReserved kind) then (d, ans stBadState)
  else if 2 ≤ d.st.runs.length then (d, ans stNoResource)
  else
    match stSaves kind xs (List.range 8) d [] with
    | none => (d, ans stNoResource)
    | some (save, d') =>
      match d'.mbx.newHandle ch r.op with
      | none => (d, ans stNoResource)
      | some (h, mb) =>
        let d := { d' with mbx := mb }
        let run := stNew r d h xs save
        (if xs.isEmpty then d.stFinish h run else d.stDue h run, ⟨stAccepted, false, leBytes 4 h, true, some h⟩)

/-- ST_RUN. -/
def execStRun (ch : Fin 8) (s : State) : Host.Outcome State Fault Refusal := command 0x0F00 ch (stRunCmd ch.val) s

/-- ST_PROGRESS (R795). DEDUCED: log entry 52. -/
def execStProgress (ch : Fin 8) (s : State) : Host.Outcome State Fault Refusal :=
  query 0x0F01 ch (fun r d =>
    match d.st.runs.look (r.u 0 4) with
    | some x =>
      let c := x.current.getD ⟨0, 0, 0⟩
      ans stOk (leBytes 2 x.slices.length ++ leBytes 2 x.results.length ++ leBytes 1 c.target ++ leBytes 1 c.die
        ++ leBytes 2 c.index ++ leBytes 1 (min 255 x.attempts) ++ leBytes 1 (if x.testing then 2 else 0) ++ zeros 2
        ++ leBytes 2 (x.job.getD 0) ++ zeros 2)
    | none =>
      match d.mbx.handles.look (r.u 0 4) with
      | some h => ans (if h.op = 0x0F00 && !h.released then stBadState else stBadHandle)
      | none => ans stBadHandle) s

/-! ## Slices -/

/-- A slice begins (R775, R784 to R786): its target is held and saved, and its test runs. DEDUCED: log entry 52. -/
def stBegin (h job : Nat) (r : StRun) (x : StSlice) (d : Device) (m : Store) : Device × Store :=
  match d.stSave r x with
  | none => (d, m)
  | some (buf, r, d) =>
    let (d, m) := match buf with
      | some id => fwWrite id 0 (d.stContent m x) d.tickFree m
      | none => (d, m)
    let d := if r.kind = 0 && x.target = 2 then d.stFlush x.index else d
    let d := d.stHold r.kind job x
    let d := match d.job job with
      | some j => d.setJob job { j with state := .running, runAt := d.time.now }
      | none => d
    (d.setStRun h { r with
      testing := true, attempts := r.attempts + 1, startedAt := d.time.now, clock := d.stClock r.kind x
      startDts := if r.startDts = 0 then d.stamp else r.startDts }, m)

/-- ST_SLICE_START (R775, R776, R781, R788): the present slice of a run starts if it can; one whose die or domain is off ends
OFF. -/
def stStart (h : Nat) (d : Device) (m : Store) : Device × Store :=
  match d.st.runs.look h with
  | none => (d, m)
  | some r =>
    if r.testing then (d, m) else
      match r.current with
      | none => (d, m)
      | some x =>
        if !d.stUp r.kind x then (d.stEnd h r 8 0, m) else
          match r.job with
          | none => (d.stDue h r, m)
          | some job =>
            let waits := match d.job job with | some j => decide (j.state = .waiting) | none => false
            if !waits then (d, m)
            else if !d.stClockOk r.kind r.clkMin x then (d.setStRun h { r with heldFrom := d.time.now }, m)
            else if 0 < r.voids && d.time.now < r.heldFrom + oneMs then (d, m)
            else if 256 < d.boot.soft.length + 16 || !d.stFree r.kind job x
                || !d.stMoment r.kind (stBudget r.kind r.mode x.target (d.stClock r.kind x)) x then (d, m)
            else stBegin h job r x d m

/-- ST_SLICE_START. -/
def execStSliceStart (run : Nat) (s : State) : Host.Outcome State Fault Refusal := onBoth (stStart run) s

/-- ST_SLICE_BUSY (R775): WAIT_MS pass before the target is free. -/
def execStSliceBusy (run : Nat) (s : State) : Host.Outcome State Fault Refusal :=
  onDev (fun d =>
    match d.st.runs.look run with
    | none => d
    | some r =>
      if r.testing || r.current.isNone || 0 < r.attempts then d
      else (d.advanceTo (r.dueAt + r.waitMs * oneMs)).stEnd run r 5 0) s

/-- A slice is void (R781): its target is restored and it is repeated; the third time it ends WINDOW. -/
def stVoid (h job : Nat) (r : StRun) (x : StSlice) (d : Device) (m : Store) : Device × Store :=
  let (d, m) := stRestore r x job d m
  let r := { r with testing := false, voids := r.voids + 1, heldFrom := d.time.now }
  if 3 ≤ r.voids then (d.stEnd h r 4 0, m)
  else
    let d := match d.job job with
      | some j => d.setJob job { j with state := .waiting }
      | none => d
    (d.setStRun h r, m)

/-- The slice of a run that is under test with its job running. -/
def Device.stTesting (d : Device) (h : Nat) : Option (StRun × StSlice × Nat) :=
  match d.st.runs.look h with
  | none => none
  | some r =>
    match r.current, r.job with
    | some x, some job =>
      let runs := match d.job job with | some j => decide (j.state = .running) | none => false
      if r.testing && runs then some (r, x, job) else none
    | _, _ => none

/-- ST_WINDOW_VOID (R781): a clock or voltage window of a memory slice breaks during its march. -/
def execStWindowVoid (run : Nat) (s : State) : Host.Outcome State Fault Refusal :=
  onBoth (fun d m =>
    match d.stTesting run with
    | some (r, x, job) => if r.kind = 0 then stVoid run job r x d m else (d, m)
    | none => (d, m)) s

/-- ST_SLICE_END (R785 to R791): a slice whose island clock changed is void; otherwise its finds are acted on, its target is
restored and it commits. -/
def stSliceEnd (h : Nat) (out : SliceOut) (d : Device) (m : Store) : Device × Store :=
  match d.stTesting h with
  | none => (d, m)
  | some (r, x, job) =>
    if r.kind = 0 && (d.stClock 0 x != r.clock || !d.stClockOk 0 r.clkMin x) then stVoid h job r x d m
    else
      let (d, outcome, recs) := if r.kind = 0 then d.stMemory r x out else d.stLogic r x out
      let kept := r.keep recs
      let d := { d with st := { d.st with
        confirmed := d.st.confirmed ++ (kept.records.drop r.records.length).flatMap (recordDefects r.kind) } }
      let (d, m) := stRestore kept x job d m
      (d.stEnd h kept outcome recs.length, m)

/-- ST_SLICE_END. -/
def execStSliceEnd (run : Nat) (out : SliceOut) (s : State) : Host.Outcome State Fault Refusal :=
  onBoth (stSliceEnd run out) s

/-- ST_SLICE_TIMEOUT (R780, R783): the budget passes; the target goes by the excess column, or as a signature mismatch. -/
def stTimeout (h : Nat) (d : Device) (m : Store) : Device × Store :=
  match d.stTesting h with
  | none => (d, m)
  | some (r, x, job) =>
    let d := d.advanceTo (r.startedAt + stBudget r.kind r.mode x.target r.clock)
    let d := if r.noRepair || (x.target = 0 && d.view.isBad x.index) then d else d.stExcess r.kind x
    let (d, m) := stRestore r x job d m
    (d.stEnd h r 6 0, m)

/-- ST_SLICE_TIMEOUT. -/
def execStSliceTimeout (run : Nat) (s : State) : Host.Outcome State Fault Refusal := onBoth (stTimeout run) s

/-! ## Restart of jobs -/

/-- The restart of a slice job (R773, R784, R790): its target is restored; it waits again, or ends FAULT. -/
def stRestart (id : Nat) (j : Job) (d : Device) (m : Store) : Device × Store :=
  match d.st.runs.find? fun e => e.2.job == some id with
  | none => (d.endJob id stFailed [], m)
  | some (h, r) =>
    match r.current with
    | none => (d, m)
    | some x =>
      let (d, m) := if d.stUp r.kind x && r.testing then stRestore r x id d m else (d, m)
      let r := { r with testing := false }
      if j.failing || j.lost then (d.stEnd h r 7 0, m)
      else ((d.setJob id { j with state := .waiting, total := j.total + 1 }).setStRun h r, m)

/-! ## Field-repair records (R792 to R794) -/

/-- The field-repair records of a die. -/
def Fuses.fieldRecords (f : Fuses) (die : Nat) : List FuseRecord := f.repairs.getD die []

/-- Whether any die is above 100.0 °C (R793, R806). -/
def Device.hot (d : Device) : Bool :=
  (List.range 8).any fun k => d.pwr.tjValid.getLsbD k && decide (1000 < d.pwr.tj.getD k 0)

/-- The word of a soft-list entry that may be appended for a die (R793); none where it is skipped. -/
def Device.fusable (d : Device) (die index : Nat) : Option Word :=
  match d.boot.soft[index]? with
  | none => none
  | some e =>
    let w := e.word &&& 0xFEFFFFFF
    if recDie w == die && (recKind w == 1 || recKind w == 2) && d.st.confirmed.elem w
        && !(d.fuse.records die).any fun r => r.word &&& 0xFEFFFFFF == w then some e.word else none

/-- Entries at the front that are skipped get their result; the fusing ends when none is left, or cancelled (R172, R793). -/
def fuseSkip : List (Option Word) → List Byte → List (Option Word) × List Byte
  | none :: xs, out => fuseSkip xs (out ++ [1, 0xFF])
  | xs, out => (xs, out)

/-- The fusing goes on after a record, or ends. -/
def Device.fuseNext (d : Device) (f : Fusing) : Device :=
  let x := fuseSkip f.left f.out
  if f.cancel then
    ({ d with st := { d.st with fusing := none } }).finish f.handle stCancelled
      (x.2 ++ (List.replicate x.1.length [1#8, 0xFF#8]).flatten)
  else if x.1.isEmpty then ({ d with st := { d.st with fusing := none } }).finish f.handle stOk x.2
  else { d with st := { d.st with fusing := some { f with left := x.1, out := x.2 } } }

/-- ST_FUSE (R793). -/
def stFuseCmd (ch : Nat) (r : Request) (d : Device) : Device × Reply :=
  let die := r.u 0 1
  let n := r.u 1 1
  if d.hot || d.st.fusing.isSome then (d, ans stBadState)
  else if 32 < (d.fuse.fieldRecords die).length + n then (d, ans stNoResource)
  else accept r ch d fun h d =>
    d.fuseNext ⟨h, die, (List.range n).map fun i => d.fusable die (r.u (8 + i) 1), [], false⟩

/-- ST_FUSE. -/
def execStFuse (ch : Fin 8) (s : State) : Host.Outcome State Fault Refusal := command 0x0F02 ch (stFuseCmd ch.val) s

/-- ST_FUSE_STATUS (R795). -/
def execStFuseStatus (ch : Fin 8) (s : State) : Host.Outcome State Fault Refusal :=
  query 0x0F03 ch (fun _ d =>
    ans stOk ((List.range 8).flatMap fun k =>
      let rs := d.fuse.fieldRecords k
      leBytes 1 (rs.filter (·.valid)).length ++ leBytes 1 (rs.filter fun r => !r.valid).length
        ++ leBytes 1 (32 - rs.length) ++ zeros 1)) s

/-- FUSE_RECORD_BLOW (R794): the next record is blown and read back, or left VOID; the defect-map digest follows. -/
def execFuseRecordBlow (ok : Bool) (s : State) : Host.Outcome State Fault Refusal :=
  onDev (fun d =>
    match d.st.fusing with
    | none => d
    | some f =>
      match f.left with
      | some w :: rest =>
        let rs := d.fuse.fieldRecords f.die
        let rec_ : FuseRecord := ⟨w, .good, ok⟩
        let d := { d with fuse := { d.fuse with repairs := d.fuse.repairs.put f.die (rs ++ [rec_]) } }
        let d := if d.boot.ready then { d with sec := { d.sec with defectDigest := d.defectDigest } } else d
        d.fuseNext { f with left := rest, out := f.out ++ leBytes 1 (if ok then 0 else 2) ++ leBytes 1 rs.length }
      | _ => d) s

end Sys2Proof.Machine
end

