-- ==== Sys2Proof/Machine/Cancel.lean ====
section
/-! DEFINITION. Commands that wait for the TICK job (R135), the restart of jobs, and HANDLE_CANCEL with what it stops in
each chapter (R172, R173, R276, R309, R712, R733, R785). -/

namespace Sys2Proof.Machine

/-! ## Waiting commands -/

/-- The command of a channel that waited for the TICK job takes effect (R135). -/
def resumeOne (ch : Nat) (d : Device) (m : Store) : Device × Store :=
  match (d.chan ch).taken with
  | none => (d, m)
  | some r =>
    match d.awaiting ch r.op, settings.find? fun t => t.op == r.op with
    | some r, some t =>
      match t.outcome r d m with
      | some x => (x.1.1.answer ch r x.2, x.1.2)
      | none => (d, m)
    | _, _ => (d, m)

/-- Once no TICK job is in progress, the commands that waited for it take effect in channel order (R135). -/
def resumeAll (d : Device) (m : Store) : Device × Store :=
  if d.tickBusy then (d, m) else
    let p := d.jobs.profile
    p.waiting.foldl (fun (x : Device × Store) ch => resumeOne ch x.1 x.2)
      ({ d with jobs := { d.jobs with profile := { p with waiting := [] } } }, m)

/-- JOB_RESTART (R728 to R733): a drained job restarts or ends. -/
def execJobRestart (job : Nat) (s : State) : Host.Outcome State Fault Refusal :=
  onBoth (fun d m =>
    match d.job job with
    | none => (d, m)
    | some j =>
      match j.work with
      | .slice _ _ _ => if j.state = .restarting then stRestart job j d m else (d, m)
      | _ =>
        let x := restartJob job d m
        resumeAll x.1 x.2) s

/-! ## HANDLE_CANCEL -/

/-- The mark of a cancel in every operation that stops at a boundary of its own: calibrations, transfers to a port, and
fusing. DEDUCED: log entry 42. -/
def Device.markCancel (d : Device) (h : Nat) : Device :=
  { d with
    sfe := { d.sfe with cal := d.sfe.cal.mapv fun c => if c.handle = some h then { c with cancel := true } else c }
    out := { d.out with ports := d.out.ports.mapv fun p => { p with
      queue := p.queue.map fun x => if x.handle = some h then { x with cancel := true } else x } }
    st := { d.st with fusing := d.st.fusing.map fun f => if f.handle = h then { f with cancel := true } else f } }

/-- A pending operation is asked to stop (R172): a DIAG_COLLECT before its latch and a waiting or running job stop here,
the others at their next boundary. -/
def cancelHandle (h : Nat) (d : Device) (m : Store) : Device × Store :=
  let hs := d.mbx.handles
  let d := { d with mbx := { d.mbx with handles := (hs.look h).elim hs fun x => hs.put h { x with cancel := true } } }
  let d := d.markCancel h
  if d.mbx.diagHandle.elem h then
    (Device.finish { d with mbx := { d.mbx with diagHandle := d.mbx.diagHandle.filter (· != h) } } h stCancelled [], m)
  else if (d.st.runs.look h).isSome then (d.stCancel h, m)
  else
    match d.jobOf h with
    | some id => cancelJob id d m
    | none => (d, m)

/-- HANDLE_CANCEL (R172). -/
def execHandleCancel (ch : Fin 8) (s : State) : Host.Outcome State Fault Refusal :=
  commandMem 0x0103 ch (fun r d m =>
    match d.handle (r.u 0 4) with
    | none => ((d, m), ans stBadHandle)
    | some x =>
      if x.final.isSome then ((d, m), ans stBadState)
      else (cancelHandle (r.u 0 4) d m, ans stOk)) s

end Sys2Proof.Machine
end

