-- ==== Sys2Proof/Machine/Sensors.lean ====
section
/-! DEFINITION. Sensor ingest, second part: the Ethernet bridges (R244 to R248), lidar streams (R249 to R256), SPI IMUs
(R257 to R259), encoders (R260 to R262) and CAN FD receive (R263 to R269). -/

namespace Sys2Proof.Machine

/-! ## Ethernet frames -/

/-- A received frame taken apart: tag VIDs and the highest PCP, the Ethertype and the offset of the payload. -/
structure EthInfo where
  vids : List Nat
  pcp : Nat
  typ : Nat
  off : Nat
  deriving DecidableEq, Repr

/-- A big-endian field of a frame. -/
def be (bs : List Byte) (off n : Nat) : Nat := beNat ((bs.drop off).take n)

/-- One 802.1Q tag or two 802.1ad tags (R246). -/
def ethInfo (f : List Byte) : EthInfo :=
  let t := be f 12 2
  if t = 0x88A8 && be f 16 2 = 0x8100 then
    ⟨[be f 14 2 % 4096, be f 18 2 % 4096], be f 14 2 / 8192, be f 20 2, 22⟩
  else if t = 0x8100 then ⟨[be f 14 2 % 4096], be f 14 2 / 8192, be f 16 2, 18⟩
  else ⟨[], 0, t, 14⟩

/-- A UDP datagram of a frame: IP version, source, destination, destination port, payload and IP identification. -/
structure Udp where
  ver : Nat
  src : Nat
  dst : Nat
  port : Nat
  payload : List Byte
  deriving DecidableEq, Repr

/-- The UDP datagram a frame carries, unfragmented. -/
def udpOf (f : List Byte) (x : EthInfo) : Option Udp :=
  let o := x.off
  if x.typ = 0x0800 then
    let ihl := be f o 1 % 16 * 4
    if be f (o + 9) 1 = 17 && be f (o + 6) 2 % 16384 = 0 then
      some ⟨4, be f (o + 12) 4, be f (o + 16) 4, be f (o + ihl + 2) 2,
        (f.drop (o + ihl + 8)).take (be f (o + ihl + 4) 2 - 8)⟩
    else none
  else if x.typ = 0x86DD then
    if be f (o + 6) 1 = 17 then
      some ⟨6, be f (o + 8) 16, be f (o + 24) 16, be f (o + 42) 2, (f.drop (o + 48)).take (be f (o + 44) 2 - 8)⟩
    else none
  else none

/-- Whether a frame is a PTP message, and one of the event messages (R213, R247). -/
def isPtp (x : EthInfo) (u : Option Udp) : Bool :=
  x.typ == 0x88F7 || u.any fun v => v.port == 319 || v.port == 320
def isPtpEvent (f : List Byte) (x : EthInfo) (u : Option Udp) : Bool :=
  (x.typ == 0x88F7 && be f x.off 1 % 16 ≤ 3) || u.any fun v => v.port == 319

/-- Whether a PTP message is one of the peer delay mechanism, which a peer-to-peer transparent clock does not forward
(R222). -/
def isPdelay (f : List Byte) (x : EthInfo) (u : Option Udp) : Bool :=
  let t := if x.typ = 0x88F7 then be f x.off 1 else (u.map fun v => be v.payload 0 1).getD 0
  [2, 3, 10].elem (t % 16)

/-- Whether a frame's tags match VLAN_OWN (R248). DEDUCED: log entry 46. -/
def ownVlan (own : Nat) (x : EthInfo) : Bool := if own = 0xFFFF then x.vids.isEmpty else x.vids.elem own

/-- Bytes of a port's egress queues. DEDUCED: log entry 20. -/
def EthPort.queued (e : EthPort) : Nat := (e.upper ++ e.lower).foldl (fun n f => n + f.length + 4) 0

/-- A frame put in an egress queue, or dropped at the tail and counted (R247). The 512 KiB are shared by the two queues
(DEDUCED, log entry 20). -/
def Device.enqueue (d : Device) (p : Nat) (upper : Bool) (f : List Byte) : Device :=
  d.updEth p fun e =>
    if 524288 < e.queued + f.length + 4 then { e with qDrop := min (e.qDrop + 1) 0xFFFFFFFF }
    else if upper then { e with upper := e.upper ++ [f] } else { e with lower := e.lower ++ [f] }

/-- The tag bytes of a frame repeated in an answer. DEDUCED: log entry 46. -/
def tagsOf_ (f : List Byte) (x : EthInfo) : List Byte := (f.drop 12).take (x.off - 14)

/-- The answer to an ARP request for the port's address (R248). -/
def arpReply (mac : Nat) (ip : Nat) (f : List Byte) (x : EthInfo) : List Byte :=
  let o := x.off
  (f.drop 6).take 6 ++ beBytes 6 mac ++ tagsOf_ f x ++ beBytes 2 0x0806 ++ beBytes 2 1 ++ beBytes 2 0x0800
    ++ beBytes 1 6 ++ beBytes 1 4 ++ beBytes 2 2 ++ beBytes 6 mac ++ beBytes 4 ip ++ (f.drop (o + 8)).take 10

/-- The ones' complement sum of 16-bit words. -/
def onesSum : List Byte → Nat → Nat
  | a :: b :: t, n => onesSum t (n + a.toNat * 256 + b.toNat)
  | [a], n => n + a.toNat * 256
  | [], n => n

/-- An Internet checksum. -/
def checksum (bs : List Byte) : Nat :=
  let s := onesSum bs 0
  let s := s % 65536 + s / 65536
  let s := s % 65536 + s / 65536
  65535 - s % 65536

/-- The neighbour advertisement that answers a solicitation for the port's address (R248, RFC 4861). -/
def ndpReply (mac : Nat) (ip : Nat) (f : List Byte) (x : EthInfo) : List Byte :=
  let src := (f.drop (x.off + 8)).take 16
  let body := fun (sum : Nat) => beBytes 1 136 ++ beBytes 1 0 ++ beBytes 2 sum ++ beBytes 4 0x60000000 ++ beBytes 16 ip
    ++ beBytes 1 2 ++ beBytes 1 1 ++ beBytes 6 mac
  let pseudo := beBytes 16 ip ++ src ++ beBytes 4 32 ++ beBytes 4 58
  (f.drop 6).take 6 ++ beBytes 6 mac ++ tagsOf_ f x ++ beBytes 2 0x86DD ++ beBytes 4 0x60000000 ++ beBytes 2 32
    ++ beBytes 1 58 ++ beBytes 1 255 ++ beBytes 16 ip ++ src ++ body (checksum (pseudo ++ body 0))

/-! ## Lidar (R249 to R256) -/

/-- The lowest lidar stream that takes a datagram (R249). -/
def Device.lidarOf (d : Device) (p : Nat) (x : EthInfo) (u : Udp) : Option Nat :=
  (firstBelow 8 fun k =>
    let s := 16 + k
    let l := d.lidar s
    decide ((d.stream s).state ≠ .off) && bit l.flags 0 && bit l.ports p && l.ipver == u.ver
      && (l.src == 0 || (if u.ver = 4 then l.src.toNat / 2 ^ 96 == u.src && l.src.toNat % 2 ^ 96 == 0
          else l.src.toNat == u.src))
      && l.udp == u.port && (l.vlan == 0xFFFF || x.vids.elem l.vlan)).map (16 + ·)

/-- SWEEP_PERIOD in 2^-16 ns. -/
def Lidar.period (l : Lidar) : Nat := l.sweepPeriod * 1000 * oneNs

/-- A sweep opened with the next sweep buffer, unless a job holds it (R253, R268). -/
def Device.openSweep (d : Device) (s k : Nat) : Device :=
  let x := d.stream s
  let l := d.lidar s
  let slot := if d.slotHeld s x.at_ then none else some x.at_
  let d := d.updStream s fun x => { x with
    seq := (x.seq + 1) % 2 ^ 32
    at_ := if slot.isSome then (x.at_ + 1) % max 1 x.bufs.length else x.at_
    nobuf := if slot.isNone then min (x.nobuf + 1) 0xFFFFFFFF else x.nobuf }
  d.setLidar s { l with sweep := some ⟨k, 0, 0, 0, if slot.isSome then l.carried else 0, false, false, slot⟩,
                        carried := if slot.isSome then 0 else l.carried }

/-- The open sweep closed (R253, R255): judged and its header written; the points of one that had no buffer are carried
to DROPPED of the next. -/
def closeSweep (s : Nat) (d : Device) (m : Store) : Device × Store :=
  let l := d.lidar s
  match l.sweep, l.origin with
  | some w, some o =>
    let d := d.setLidar s { l with sweep := none }
    match w.slot with
    | none => (d.setLidar s { d.lidar s with carried := l.carried + w.points + w.dropped }, m)
    | some slot =>
      let d := d.judge s (0 < w.points)
      let start := o + w.k * l.period
      let dts := d.stampAt (d.streamDie s) start
      let flags := b2n (d.maskedNow s) + 2 * b2n (decide (0 < w.lost)) + 4 * b2n w.overflow + 8 * b2n w.fallback
      let x := d.stream s
      let seq := (x.seq + 2 ^ 32 - 1) % 2 ^ 32
      let h := leBytes 2 s ++ leBytes 2 flags ++ leBytes 4 seq ++ leBytes 16 dts.toNat ++ leBytes 4 w.points
        ++ leBytes 4 w.packets ++ leBytes 4 w.lost ++ leBytes 4 w.dropped ++ zeros 24
      let (d, m) := fwWrite (x.bufs.getD slot 0) 0 h d m
      (d.updStream s fun x => { x with
        dts := dts
        lastSeq := seq
        order := x.order.filter (· != slot) ++ [slot]
        frames := x.frames.put slot ⟨seq, dts, w.points, true, flags, none⟩ }, m)
  | _, _ => (d, m)

/-- Sweeps closed and opened until the sweep of index `k` is open. -/
def reachSweep (s k : Nat) : Nat → Device → Store → Device × Store
  | 0, d, m => (d, m)
  | n + 1, d, m =>
    match (d.lidar s).sweep with
    | none => (d.openSweep s k, m)
    | some w =>
      if w.k < k then
        let (d, m) := closeSweep s d m
        reachSweep s k n (d.openSweep s (w.k + 1)) m
      else (d, m)

/-- A point's coordinates as exact fixed-point or binary32 values and its range test (R251): x, y, z in sQ15.16 with the
saturated flag, none when it is dropped. -/
def Lidar.convert (l : Lidar) (i : Nat) (bs : List Byte) : Option (Int × Int × Int × Bool) :=
  let v := fun (f : FSpec) => if f.present then f.value bs else .fin false 0 0
  let limit := ofFp32 l.maxRange
  if bit l.flags 1 then
    let x := v l.fr
    let y := v l.faz
    let z := v l.fel
    let r2 := ((x.mul x).add (y.mul y)).add (z.mul z)
    let zero := match r2 with | .fin _ 0 _ => true | _ => false
    if zero || (limit.mul limit).lt r2 then none
    else
      let a := toFixed 32 16 x
      let b := toFixed 32 16 y
      let c := toFixed 32 16 z
      some (a.1, b.1, c.1, a.2 || b.2 || c.2)
  else
    let r := v l.fr
    let az := degToFx (v l.faz)
    let el := degToFx (if bit l.flags 3 then ofFp32 (l.elev.getD (i % max 1 l.channels) 0) else v l.fel)
    let zero := match r with | .fin _ 0 _ => true | _ => false
    if zero || limit.lt r then none
    else
      let fr := r.toFx
      let flat := fxMul fr (fxCos el)
      let c := fun (t : Int) =>
        let q := rne t (2 ^ 112)
        (clampI (-2147483648) 2147483647 q, decide (q < -2147483648) || decide (2147483647 < q))
      let a := c (fxMul flat (fxCos az))
      let b := c (fxMul flat (fxSin az))
      let z := c (fxMul fr (fxSin el))
      some (a.1, b.1, z.1, a.2 || b.2 || z.2)

/-- Points the lidar ingest of a die has taken in this second of elapsed time (R254; DEDUCED, log entry 70). -/
def Device.lidarTaken (d : Device) (die : Nat) : Nat :=
  match d.ing.taken.look die with
  | some (sec, n) => if sec = d.time.now / oneS then n else 0
  | none => 0

/-- One more point taken. DEDUCED: log entry 70. -/
def Device.lidarTake (d : Device) (die : Nat) : Device :=
  { d with ing := { d.ing with taken := d.ing.taken.put die (d.time.now / oneS, d.lidarTaken die + 1) } }

/-- One point of a datagram that came on a port of `die`: placed in its sweep, late, dropped for range, rate or overflow
(R251 to R254). `late` of a sweep already closed is counted; a point before S belongs to no sweep. -/
def placePoint (die s i time : Nat) (bs : List Byte) (d : Device) (m : Store) : Device × Store :=
  let l := d.lidar s
  let o := l.origin.getD 0
  let late := fun (d : Device) => d.setLidar s { d.lidar s with late := (d.lidar s).late + 1 }
  if time < o || l.period = 0 then (late d, m) else
    let k := (time - o) / l.period
    let (d, m) := reachSweep s k (k + 2) d m
    let l := d.lidar s
    match l.sweep with
    | none => (d, m)
    | some w =>
      if k < w.k then (late d, m) else
        let put := fun (d : Device) (w : Sweep) => d.setLidar s { d.lidar s with sweep := some w }
        match l.convert i bs with
        | none => (put d { w with dropped := w.dropped + 1 }, m)
        | some (x, y, z, sat) =>
          if 40000000 ≤ d.lidarTaken die then (put d { w with dropped := w.dropped + 1 }, m)
          else if 262144 ≤ w.points then (put d { w with dropped := w.dropped + 1, overflow := true }, m)
          else
            let start := o + k * l.period
            let dt := (rne ((time - start : Nat) : Int) (8000 * oneNs)).toNat
            let inten := if l.fint.present then (toFixed 32 0 (l.fint.value bs)).1 else 0
            let rec_ := leBytes 4 (unsigned 32 x) ++ leBytes 4 (unsigned 32 y) ++ leBytes 4 (unsigned 32 z)
              ++ leBytes 2 dt ++ leBytes 1 (clampI 0 255 inten).toNat
              ++ leBytes 1 (b2n sat + 2 * (i % max 1 l.channels))
            let d := (put d { w with points := w.points + 1 }).lidarTake die
            match w.slot with
            | some slot => fwWrite ((d.stream s).bufs.getD slot 0) (64 + 16 * w.points) rec_ d m
            | none => (d, m)

/-- The points of a datagram from index `i`. -/
def placePoints (die s pt : Nat) (l : Lidar) (payload : List Byte) : Nat → Nat → Device → Store → Device × Store
  | 0, _, d, m => (d, m)
  | n + 1, i, d, m =>
    let (d, m) := placePoint die s i (pt + i * l.pointDt) ((payload.drop (l.hdrLen + i * l.stride)).take l.stride) d m
    placePoints die s pt l payload n (i + 1) d m

/-- A datagram of a lidar stream that arrived on port `p` (R249 to R254, R256). -/
def lidarDatagram (p s : Nat) (payload : List Byte) (d : Device) (m : Store) : Device × Store :=
  let l := d.lidar s
  if payload.length ≠ l.hdrLen + l.points * l.stride then (d.streamLog s 5 p 0x21 payload.length, m) else
    let arrival := ((d.rxWire p) - l.pktSpan * oneNs).toNat
    let bs := (payload.drop l.tsOff).take 8
    let given := (if bit l.flags 4 then beNat bs else leNat bs) * oneNs
    let far := bit l.flags 2 && oneS < ((given : Int) - d.time.ns16).natAbs
    let d := if far then d.streamLog s 5 p 0x22 s else d
    let pt := if bit l.flags 2 && !far then given else arrival
    let counter := if l.seqOff = 0xFFFF then none else some (leNat ((payload.drop l.seqOff).take 2))
    let gap := match counter, l.lastSeq with
      | some c, some q => (c + 65536 - (q + 1) % 65536) % 65536
      | _, _ => 0
    let d := d.setLidar s { l with lastSeq := counter.orElse fun _ => l.lastSeq }
    let (d, m) := placePoints (ethDie p) s pt l payload l.points 0 d m
    let l := d.lidar s
    match l.sweep with
    | some w => (d.setLidar s { l with sweep := some { w with
        packets := w.packets + 1, lost := w.lost + gap, fallback := w.fallback || far } }, m)
    | none => (d, m)

/-- SWEEP_CLOSE (R253): the end boundary of the open sweep plus a quarter period. -/
def execSweepClose (stream : Nat) (s : State) : Host.Outcome State Fault Refusal :=
  onBoth (fun d m =>
    if stream < 16 || 24 ≤ stream || (d.stream stream).state = .off then (d, m) else
      let l := d.lidar stream
      match l.origin with
      | none => (d, m)
      | some o =>
        let k := match l.sweep with | some w => w.k | none => 0
        let d := d.advanceToDev (o + (k + 1) * l.period + l.period / 4)
        let d := if l.sweep.isNone then d.openSweep stream k else d
        let (d, m) := closeSweep stream d m
        (d.openSweep stream (k + 1), m)) s

/-- A step of device time closes the open sweeps and recomputes S (R253). -/
def stepSweeps (d : Device) (m : Store) : Device × Store :=
  (List.range 8).foldl (fun (x : Device × Store) k =>
    let s := 16 + k
    if (x.1.lidar s).origin.isSome then
      let (d, m) := closeSweep s x.1 x.2
      (d.setLidar s { d.lidar s with origin := some (d.sweepOrigin s), sweep := none }, m)
    else x) (d, m)

/-- What the functions of a port make of a frame offered to them: taken or not (R246, R248). -/
def offerFrame (p : Nat) (own : Bool) (f : List Byte) (x : EthInfo) (u : Option Udp) (d : Device) (m : Store) :
    (Device × Store) × Bool :=
  let e := d.eth p
  let o := x.off
  let mac := (d.macOf p).toNat
  let ip4 := e.ipv4.toNat
  let fragment := x.typ = 0x0800 && be f (o + 6) 2 % 16384 ≠ 0
  if fragment && (own || (ip4 ≠ 0 && be f (o + 16) 4 = ip4)) then ((d.violation 5 p 0x23 (be f (o + 4) 2), m), true)
  else if x.typ = 0x0806 && ownVlan e.vlanOwn x && ip4 ≠ 0 && be f (o + 6) 2 = 1 && be f (o + 24) 4 = ip4 then
    ((d.enqueue p false (arpReply mac ip4 f x), m), true)
  else if x.typ = 0x86DD && ownVlan e.vlanOwn x && e.ipv6 ≠ 0 && be f (o + 6) 1 = 58 && be f (o + 40) 1 = 135
      && be f (o + 48) 16 = e.ipv6.toNat then
    ((d.enqueue p false (ndpReply mac e.ipv6.toNat f x), m), true)
  else
    match u with
    | none => ((d, m), false)
    | some v =>
      if own && e.bulkUdp ≠ 0 && v.port = e.bulkUdp then
        match bulkPacket 1 p v.payload d m with
        | some r => (r, true)
        | none => ((d.violation 5 p 0x24 (leNat ((v.payload.drop 4).take 4)), m), true)
      else
        match d.lidarOf p x v with
        | some s => (lidarDatagram p s v.payload d m, true)
        | none => ((d, m), false)

/-- ETH_FRAME_RX (R246 to R256): a frame, its FCS left out, received on a port. PTP messages are the PTP rows'
(DESIGN CHOICE: log entry 75). -/
def execEthFrameRx (port : Fin 4) (frame : List Byte) (fcsOk : Bool) (at_ : Nat) (s : State) :
    Host.Outcome State Fault Refusal :=
  onBoth (fun d m =>
    let p := port.val
    let d := d.advanceTo at_
    if !d.ethUp p then (d, m) else
      let len := frame.length + 4
      let d := d.updEth p fun e => { e with rx := e.rx + 1 }
      if !fcsOk || len < 64 then (d.updEth p fun e => { e with fcsErr := min (e.fcsErr + 1) 0xFFFFFFFF }, m)
      else if 9216 < len then (d.violation 5 p 0x20 len, m)
      else
        let x := ethInfo frame
        let u := udpOf frame x
        let own := be frame 0 6 = (d.macOf p).toNat
        let group := be frame 0 1 % 2 = 1
        let up := x.pcp = 6 || x.pcp = 7 || isPtpEvent frame x u
        let fwd := fun (d : Device) =>
          if d.ethUp (partner p) then
            (d.updEth p fun e => { e with forwarded := e.forwarded + 1 }).enqueue (partner p) up frame
          else d
        if isPtp x u then
          (if own then d.updEth p fun e => { e with consumed := e.consumed + 1 }
           else if (d.ptp p).role = 3 && isPdelay frame x u then d else fwd d, m)
        else if own then
          let ((d, m), taken) := offerFrame p true frame x u d m
          (if taken then d.updEth p fun e => { e with consumed := e.consumed + 1 }
           else d.updEth p fun e => { e with unclaimed := e.unclaimed + 1 }, m)
        else if group then
          let ((d, m), _) := offerFrame p false frame x u d m
          (fwd d, m)
        else (fwd d, m)) s

/-- ETH_FRAME_TX (R247): the next frame in strict priority. -/
def execEthFrameTx (port : Fin 4) (s : State) : Host.Outcome State Fault Refusal :=
  onDev (fun d =>
    if !d.ethUp port.val then d else
      d.updEth port.val fun e =>
        match e.upper, e.lower with
        | f :: fs, _ => { e with upper := fs, tx := e.tx + 1, lastTx := f }
        | [], f :: fs => { e with lower := fs, tx := e.tx + 1, lastTx := f }
        | [], [] => e) s

/-! ## SPI IMUs -/

/-- IMU_DATA_READY (R257, R259): stamped and corrected; an edge during a transaction is ignored. -/
def execImuDataReady (port : Fin 4) (at_ : Nat) (s : State) : Host.Outcome State Fault Refusal :=
  onDev (fun d =>
    let p := port.val
    let d := d.advanceTo at_
    let x := d.imu p
    if (d.stream (24 + p)).state = .off || !d.pwr.dieOn.getLsbD (2 * p) then d
    else if x.busy.isSome then (d.streamLog (24 + p) 7 p 0x01 0).setImu p { x with missed := x.missed + 1 }
    else
      let c := d.comp 2 p
      d.setImu p { x with busy := some ((d.edgeStamp : Int) - c.a - c.b).toNat }) s

/-- One IMU axis: RNE and saturation, 0 when absent (R258). -/
def imuField (x : ImuPort) (bs : List Byte) (i width frac : Nat) : Int × Bool :=
  let f := x.specs.getD i .absent
  if f.present then toFixed width frac (f.value bs) else (0, false)

/-- IMU_TRANSACTION_DONE (R257, R258): status checked, parsed and stored. A port with no field for any axis stores no
sample (R134). A sample whose ring slot a job holds counts as not received (R268). -/
def execImuTransactionDone (port : Fin 4) (bytes : List Byte) (s : State) : Host.Outcome State Fault Refusal :=
  onBoth (fun d m =>
    let p := port.val
    let k := 24 + p
    let x := d.imu p
    match x.busy with
    | none => (d, m)
    | some t =>
      let d := d.setImu p { x with busy := none }
      let bs := fit x.rxLen bytes
      let st := (bs.getD x.statusOff 0).toNat
      if (d.stream k).state = .off || (x.specs.take 6).all fun f => !f.present then (d, m)
      else if x.statusOff ≠ 0xFF && Nat.land st x.statusMask ≠ 0 then ((d.streamLog k 7 p 0x02 st).judge k false, m)
      else
        let held := d.slotHeld k (d.stream k).at_
        let d := if held then d else d.judge k true
        let g := (List.range 3).map fun i => imuField x bs i 32 24
        let a := (List.range 3).map fun i => imuField x bs (3 + i) 32 22
        let tmp := imuField x bs 6 16 8
        let sat := (g ++ a ++ [tmp]).any (·.2)
        let dts := d.stampAt (2 * p) t
        let rec_ := leBytes 1 k ++ leBytes 1 (b2n sat + 2 * b2n (d.maskedNow k)) ++ leBytes 2 (unsigned 16 tmp.1)
          ++ leBytes 4 (d.stream k).seq ++ leBytes 16 dts.toNat ++ (g ++ a).flatMap fun v => leBytes 4 (unsigned 32 v.1)
        let d := if held then d else d.imuSample k t (Vec3.ofList (g.map (·.1))) (Vec3.ofList (a.map (·.1)))
        (ringWrite k rec_ dts d m).1) s

/-! ## Encoders -/

/-- The move of the count for new filtered levels, none for an illegal transition (R260). -/
def Encoder.move (x : Encoder) (a b : Bool) : Option Int :=
  let dir := fun (up : Bool) => if up = Config.encoderUp x.mode then (1 : Int) else -1
  match x.mode with
  | 1 =>
    if a ≠ x.a && b ≠ x.b then none
    else if a ≠ x.a then some (dir (a ≠ b))
    else if b ≠ x.b then some (dir (a = b))
    else some 0
  | 2 =>
    if a ≠ x.a && b ≠ x.b then none
    else if a && !x.a then some (dir (!b)) else some 0
  | 3 => if a && !x.a then some (dir (!b)) else some 0
  | _ => some 0

/-- ENCODER_EDGE (R260): the filtered levels after an edge of A or B; stamped less the filter's delay and A (R212). -/
def execEncoderEdge (enc : Fin 8) (a b : Bool) (at_ : Nat) (s : State) : Host.Outcome State Fault Refusal :=
  onDev (fun d =>
    let k := enc.val
    let d := d.advanceTo at_
    let x := d.enc k
    if x.mode = 0 || !d.pwr.dieOn.getLsbD k then d else
      match x.move a b with
      | none => (d.streamLog (128 + k) 9 k 0x01 (unsigned 32 x.count)).setEnc k { x with a := a, b := b }
      | some n =>
        let n := if bit x.flags 0 then -n else n
        let t := ((d.edgeStamp : Int) - x.glitch * 10 * oneNs - (d.comp 4 k).a).toNat
        d.setEnc k { x with
          a := a, b := b, count := signed 64 (unsigned 64 (x.count + n))
          lastEdge := if n = 0 then x.lastEdge else some t
          prevEdge := if n = 0 then x.prevEdge else x.lastEdge }) s

/-- ENCODER_INDEX (R261). -/
def execEncoderIndex (enc : Fin 8) (at_ : Nat) (s : State) : Host.Outcome State Fault Refusal :=
  onDev (fun d =>
    let k := enc.val
    let d := d.advanceTo at_
    let x := d.enc k
    if x.mode = 0 || !bit x.flags 1 || !d.pwr.dieOn.getLsbD k then d else
      let diff := x.count - x.indexCount
      let bad := x.indexed && x.cpr ≠ 0 && diff % (x.cpr : Int) ≠ 0
      let x' := { x with indexCount := x.count, indexed := true, seen := true, mismatch := x.mismatch || bad }
      (if bad then d.streamLog (128 + k) 9 k 0x02 (unsigned 32 diff) else d).setEnc k x') s

/-- ENCODER_SAMPLE (R262): at whole seconds of device time plus multiples of 1 ÷ RATE. -/
def execEncoderSample (enc : Fin 8) (s : State) : Host.Outcome State Fault Refusal :=
  onBoth (fun d m =>
    let k := enc.val
    let st := 128 + k
    let x := d.enc k
    if x.mode = 0 || x.rate = 0 || (d.stream st).state = .off || !d.pwr.dieOn.getLsbD k then (d, m) else
      let n := d.time.ns16 * x.rate / oneS + 1
      let t := (rne ((n * oneS : Nat) : Int) x.rate).toNat
      let d := d.advanceToDev t
      let sat := fun (v : Nat) => min 0xFFFFFFFF (v / oneNs)
      let age := match x.lastEdge with | some e => sat (t - e) | none => 0xFFFFFFFF
      let per := match x.lastEdge, x.prevEdge with | some e, some q => sat (e - q) | _, _ => 0xFFFFFFFF
      let dts := d.stampAt k t
      let rec_ := leBytes 1 st ++ leBytes 1 (b2n x.seen + 2 * b2n x.mismatch) ++ zeros 2 ++ leBytes 4 (d.stream st).seq
        ++ leBytes 16 dts.toNat ++ leBytes 8 (unsigned 64 x.count) ++ leBytes 8 (unsigned 64 x.indexCount) ++ leBytes 4 age
        ++ leBytes 4 per
      let got := if d.slotHeld st (d.stream st).at_ then 0 else 1
      let d := (d.setEnc k { x with seen := false }).updStream st fun y => { y with
        samples := min (y.samples + got) 0xFFFFFFFF }
      (ringWrite st rec_ dts d m).1) s

/-! ## CAN FD -/

/-- The raw bits of a signal, none when it reaches past the data (R265). -/
def CanSignal.raw (c : CanSignal) (data : List Byte) : Option Nat :=
  let v := leNat data
  let n := 8 * data.length
  if c.order = 0 then (if c.start + c.len ≤ n then some (bits v c.start c.len) else none)
  else
    let pos := (List.range c.len).map fun i =>
      let top := c.start % 8
      let byte := c.start / 8
      if i ≤ top then byte * 8 + (top - i) else (byte + 1 + (i - top - 1) / 8) * 8 + (7 - (i - top - 1) % 8)
    if pos.all (· < n) then some (pos.foldl (fun a b => 2 * a + b2n (bit v b)) 0) else none

/-- The value of a signal in sQ15.16 and whether it saturated (R265). -/
def CanSignal.value (c : CanSignal) (raw : Nat) : Int × Bool :=
  let x := Num.ofInt (if c.isSigned then signed c.len raw else raw)
  toFixed 32 16 (round32 ((round32 ((round32 x).mul (ofFp32 c.scale))).add (ofFp32 c.offset)))

/-- CAN_FRAME_RX (R264, R265, R267): the lowest filter that matches takes the frame; remote frames are ignored. -/
def execCanFrameRx (ctrl : Fin 2) (fd extended remote : Bool) (id : Nat) (data : List Byte) (at_ : Nat) (s : State) :
    Host.Outcome State Fault Refusal :=
  onBoth (fun d m =>
    let k := ctrl.val
    let st := 28 + k
    let d := d.advanceTo at_
    let c := d.can k
    if !c.enable || c.err = 2 || remote || (fd && !c.fd) || !d.pwr.dieOn.getLsbD 0 then (d, m) else
      match firstBelow 32 fun i => match c.filters.look i with
          | some f => f.enable && f.extended == extended && Nat.land id f.mask == Nat.land f.id f.mask
          | none => false with
      | none => (d.setCan k { c with discarded := c.discarded + 1 }, m)
      | some i =>
        if (d.stream st).state = .off then (d, m) else
          let sigs := ((c.filters.look i).map (·.signals)).getD []
          let raws := sigs.map fun g => (g.raw data).map g.value
          if raws.any (·.isNone) then ((d.streamLog st 6 k 0x03 i).judge st false, m)
          else
            let vs := raws.filterMap id_
            let d := if d.slotHeld st (d.stream st).at_ then d else d.judge st true
            let flags := b2n fd + 2 * b2n extended + 4 * b2n (vs.any (·.2)) + 8 * b2n (d.maskedNow st)
            let dts := d.stampAt 0 ((d.time.ns16 : Int) + (d.comp 5 k).a).toNat
            let rec_ := leBytes 1 st ++ leBytes 1 i ++ leBytes 1 sigs.length ++ leBytes 1 flags ++ leBytes 4 id
              ++ leBytes 16 dts.toNat ++ fit 16 (vs.flatMap fun v => leBytes 4 (unsigned 32 v.1))
            (ringWrite st rec_ dts d m).1) s
where
  id_ (x : Option (Int × Bool)) : Option (Int × Bool) := x

/-- CAN_ERROR_STATE (R263, R269). -/
def execCanErrorState (ctrl : Fin 2) (busOff : Bool) (tec rec : Nat) (s : State) : Host.Outcome State Fault Refusal :=
  onDev (fun d =>
    let k := ctrl.val
    let c := d.can k
    if !c.enable then d
    else if busOff then
      if c.err = 2 then d else (d.setCan k { c with err := 2 }).streamLog (28 + k) 6 k 0x02 0
    else if c.err = 0 then (d.setCan k { c with err := 1 }).streamLog (28 + k) 6 k 0x01 (tec % 256 * 256 + rec % 256)
    else d) s

/-- BUS_OFF_RECOVERY_DONE (R263): back to normal operation. -/
def execBusOffRecoveryDone (ctrl : Fin 2) (s : State) : Host.Outcome State Fault Refusal :=
  onDev (fun d =>
    let c := d.can ctrl.val
    if c.enable && c.err ≠ 0 then d.setCan ctrl.val { c with err := 0 } else d) s

end Sys2Proof.Machine
end

