-- ==== Sys2Proof/Machine/TimeStep.lean ====
section
/-! DEFINITION. The application of a step of device time (R195, R196) and what it does in every chapter (R255, R272, R477,
R559, R574, R592). -/

namespace Sys2Proof.Machine

/-- Frames that pairing holds are released unpaired, and the next pair of each stream pair sets its offset (R272). -/
def Device.stepPairs (d : Device) : Device :=
  (List.range 8).foldl (fun (d : Device) p =>
    let x := d.pair p
    let d := match x.held with
      | some h => d.releaseUnpaired h
      | none => d
    let x := d.pair p
    if (d.ing.pairs.look p).isSome then d.setPair p { x with held := none, offset := none } else d) d

/-- Localisation, tracking and the grid at a step: the stamps of the window move, the next records carry STEP
(R477, R519, R592). -/
def Device.stepEstimates (d : Device) (size : Int) : Device :=
  { d with
    loc := { d.loc with
      window := d.loc.window.map fun w => { w with at_ := moveNat w.at_ size }
      fix := d.loc.fix.map fun f => { f with at_ := moveNat f.at_ size }
      stepped := true }
    grid := { d.grid with stepped := true }
    vis := { d.vis with streams := d.vis.streams.mapv fun x => { x with core := { x.core with stepped := true } } } }

/-- The pending step applied in every chapter. -/
def stepAll (p : PendingStep) (d : Device) (m : Store) : Device × Store :=
  let d := d.stepTime p
  let d := ((d.ppStep p.size).slvTimeStep p.size).sfeStep p.size
  let x := stepSweeps ((d.stepPairs).stepEstimates p.size) m
  let running := x.1.jobs.table.filter fun e => decide (e.2.cls = .tick) && e.2.holds
  (running.foldl (fun (d : Device) e => d.jobFault e.1 0x0E 11 d.lead 0 none 0) x.1, x.2)

/-- TIME_STEP_APPLY (R195): at once when no TICK job runs or waits, 100 ms after the first decision otherwise; a running
TICK job is restarted. -/
def execTimeStepApply (s : State) : Host.Outcome State Fault Refusal :=
  onBoth (fun d m =>
    match d.time.step with
    | none => (d, m)
    | some p =>
      let tick := d.jobs.table.any fun e => decide (e.2.cls = .tick) && e.2.active
      stepAll p (if tick then d.advanceTo (p.firstAt + 100 * oneMs) else d) m) s

end Sys2Proof.Machine
end

