-- ==== Sys2Proof/Machine/Tick.lean ====
section
/-! DEFINITION. The TICK job (R58, R64, R589, R747): its networks spliced, its admission at an edge of the tick group, and its
commit deadline. -/

namespace Sys2Proof.Machine

/-! ## Networks spliced into a job (R747) -/

/-- Networks laid together: load lists, relocations, schedule, parts, grants, and the places of the parts in the profile. -/
structure Splice where
  body : List Byte
  relocs : List Byte
  sched : List Byte
  parts : List Part
  grants : List Grant
  ids : List Nat
  deriving DecidableEq, Repr

/-- The stream whose frame a network takes: that of its grid source slot, of its pair, or its own. -/
def Device.netStream (d : Device) (n : Net) : Nat :=
  if n.role < 3 then (d.gridSlot n.source).stream else if n.role = 4 then 2 * n.source else n.source

/-- The buffer a BIND value names at a tick (R747); 0 where there is none. -/
def Device.bindBuf (d : Device) (n : Net) (edge v : Nat) : Nat :=
  let s := d.netStream n
  let x := d.stream s
  let y := d.stePair (s / 2)
  match v with
  | 0xF0 => x.bufs.getD ((d.tickFrame s edge).getD (x.order.headD 0)) 0
  | 0xF1 => y.ring.getD (d.freeSlotOf y.ring y.at_) 0
  | 0xF2 => d.grid.tensors.getD n.strip 0
  | 0xF3 => d.grid.ring.getD (d.freeSlotOf d.grid.ring d.grid.at_) 0
  | 0xF4 => d.jobs.profile.code.getD 0
  | 0xF5 => (d.fteCfg s).descBuf
  | _ => d.jobs.profile.bufs.getD v 0

/-- A relocation of a network with its part, and what it refers to, counted among all of the job. -/
def movedReloc (part grant : Nat) (b : List Byte) : List Byte :=
  let b' := recSet b 0 (leBytes 1 (recU b 0 1 + part))
  recSet b' 6 (leBytes 2 (if recU b 5 1 = 0 then recU b 6 2 + grant else recU b 6 2 + 256 * part))

/-- A schedule entry of a network likewise. -/
def movedSched (part grant : Nat) (b : List Byte) : List Byte :=
  recSet (recSet b 6 (leBytes 1 (recU b 6 1 + part))) 8 (leBytes 4 (recU b 8 4 + grant))

/-- Consecutive records of `size` bytes. -/
def chunked (size : Nat) (b : List Byte) : List (List Byte) :=
  (List.range (b.length / size)).map fun i => slice b (size * i) size

/-- One network laid after the others. -/
def Device.splice (d : Device) (edge : Nat) (x : Splice) (n : Net) : Splice :=
  let base := x.body.length
  let np := x.parts.length
  let ng := x.grants.length
  let bufs := n.binds.map (d.bindBuf n edge)
  let mine := n.parts.zipIdx.map fun (p, i) =>
    let q := d.jobs.profile.parts.getD (n.first + i) p
    { q with loadOff := base + p.loadOff, nload := p.nload }
  { body := x.body ++ n.image
    relocs := x.relocs ++ (chunked 16 (imgBytes n.image (imgField n.image 32 8) (16 * imgField n.image 8 4))).flatMap
      (movedReloc np ng)
    sched := x.sched ++ (chunked 32 (imageSched n.image)).flatMap (movedSched np ng)
    parts := x.parts ++ mine
    grants := x.grants ++ imageGrants n.image bufs
    ids := x.ids ++ (List.range n.parts.length).map (n.first + ·) }

/-- Whether the place descriptor network runs in a tick (R594, R606, R747): where the tick may make a keyframe, and every
RELOC_EVERY ticks in LOST. -/
def Device.placeDue (d : Device) : Bool :=
  match d.loc.state with
  | .init | .tracking | .relocalised => true
  | .lost => (d.loc.lostTicks + 1) % max 1 d.loc.loop.relocEvery == 0
  | _ => false

/-- The networks of a tick laid together. -/
def Device.spliced (d : Device) (edge : Nat) : Splice :=
  (d.jobs.profile.nets.filter fun n => n.role != 4 || d.placeDue).foldl (d.splice edge) ⟨zeros 64, [], [], [], [], []⟩

/-- The image a TICK job loads from: a header with the number and place of its relocations, the load lists, the
relocations. -/
def Splice.image (x : Splice) : List Byte :=
  let head := zeros 8 ++ leBytes 4 (x.relocs.length / 16) ++ zeros 20 ++ leBytes 8 x.body.length ++ zeros 24
  head ++ x.body.drop 64 ++ x.relocs

/-! ## Admission (R58) -/

/-- The active TICK jobs, in the order of their admission. -/
def Device.ticks (d : Device) : List (Nat × Job) :=
  (d.jobs.table.filter fun e => decide (e.2.cls = .tick) && e.2.active).mergeSort fun a b => a.2.order ≤ b.2.order

/-- A waiting TICK job is discarded (R58): it is counted and raised as TICK_SKIP. -/
def Device.discardTick (d : Device) (id : Nat) : Device :=
  match d.job id with
  | none => d
  | some j =>
    let n := d.jobs.skips + 1
    let d := d.endJob id stCancelled []
    let p := d.slv.pp
    let late := d.ticks.any fun e => e.2.late
    let d := { d with
      jobs := { d.jobs with skips := n }
      slv := { d.slv with pp := { p with extrapolated := p.extrapolated && (late || !j.late) } } }
    d.event 0x0012 7 0 n 0

/-- A TICK job admitted at an edge (R58, R518, R630): it waits to be placed where the profile's load placed it; the
propagator's pose at the edge and the calibrations in force go with it. DEDUCED: log entry 42. DEDUCED: log entry 63. -/
def Device.admitTick (d : Device) (e : Nat) : Device :=
  let x := d.spliced e
  match allocSnaps x.grants d with
  | none => d
  | some (grants, d') =>
    let pose := (d.slv.pp.motionAt e).elim Pose.id (·.pose)
    let j := { Job.blank .tick .tick with
      restartMax := d.jobs.restartFw, waitMs := d.jobs.waitFw, parts := x.parts, grants := grants, sched := x.sched
      privileged := hasWindow x.sched, image := x.image, ids := x.ids
      arg := leBytes 16 (d.stampAt d.lead e).toNat ++ pose.bytes
      deadline := some (d.time.now + d.tickDeadlineUs * oneUs) }
    match d'.admitJob j with
    | none => d
    | some (id, d) =>
      let p := d.jobs.profile
      Device.pinMap { d with
        jobs := { d.jobs with profile := { p with ticks := (p.ticks + 1) % 2 ^ 32 } }
        grid := { d.grid with cals := d.grid.cals.mapv fun c => { c with used := c.current } } } id

/-- An edge of the tick group (R58, R210): a third TICK job takes the place of the one that waits. DEDUCED: log entry 63. -/
def Device.tickEdge (d : Device) (e : Nat) : Device :=
  let ts := d.ticks
  let d := if 2 ≤ ts.length then
      match ts.reverse.find? fun t => t.2.state = .waiting with
      | some t => d.discardTick t.1
      | none => d
    else d
  if 2 ≤ d.ticks.length then d else d.admitTick e

/-- TRIGGER_EDGE (R58, R205 to R208, R210). -/
def execTriggerEdge (group : Fin 8) (s : State) : Host.Outcome State Fault Refusal :=
  onDev (fun d =>
    match d.nextEdge group.val with
    | none => d
    | some (d, none) => d
    | some (d, some e) =>
      let d := d.drive group.val e
      let p := d.jobs.profile
      if p.state = .active && p.tickGroup = group.val then d.tickEdge e else d) s

/-- TICK_DEADLINE (R64, R589): a TICK job passes its commit deadline; propagated poses carry EXTRAPOLATED. -/
def execTickDeadline (s : State) : Host.Outcome State Fault Refusal :=
  onDev (fun d =>
    match d.ticks.find? fun t => t.2.deadline.isSome && !t.2.late with
    | none => d
    | some (id, j) =>
      let d := (d.advanceTo (j.deadline.getD 0)).setJob id { j with late := true }
      { d with slv := { d.slv with pp := { d.slv.pp with extrapolated := true } } }) s

end Sys2Proof.Machine
end

