-- ==== Sys2Proof/Machine/LocTick.lean ====
section
/-! DEFINITION. What a TICK commit does to localisation (R579 to R594, R607 to R611): the window, its covariance and
confidence, the state, keyframes and the committed record. -/

namespace Sys2Proof.Machine

/-! ## The window -/

/-- A pose given by its components. -/
def poseOf (q t : List Int) : Pose := ⟨(Quat.ofList q).unit, Vec3.ofList t⟩

/-- A solved window state with its stamp. -/
def winOf (at_ : Nat) (x : StateOut) : WinState :=
  ⟨at_, poseOf x.q x.t, Vec3.ofList x.v, Vec3.ofList x.bg, Vec3.ofList x.ba⟩

/-- A window state moved by a transform of the map frame. -/
def moveState (c : Pose) (w : WinState) : WinState := { w with pose := c.mul w.pose, v := c.q.rot w.v }

/-- The last `n` of a list. -/
def lastOf {α : Type} (n : Nat) (l : List α) : List α := l.drop (l.length - n)

/-- The propagated motion at a stamp (R591): the anchor's, carried through the samples up to it. -/
def Device.propState (d : Device) (at_ : Nat) : WinState :=
  let p := d.slv.pp
  match p.anchor with
  | none => { restPose with at_ := at_ }
  | some a =>
    let p := { p with samples := p.samples.filter fun x => x.at_ ≤ at_ }
    let p := { p with cur := some (p.replay p.samples ⟨a.at_, a.pose, a.v, a.bg, a.ba⟩) }
    { p.motionAt at_ |>.getD restPose with at_ := at_ }

/-- The window after a tick (R590, R591): the newest WINDOW stamps, with the solved states where the solve gives any.
DEDUCED: log entry 65. -/
def Device.nextWindow (d : Device) (stamp : Nat) (x : TickOut) (solved : Bool) : List WinState :=
  (lastOf d.loc.cfg.window (d.loc.window ++ [d.propState stamp])).zipIdx.map fun (w, i) =>
    if solved then (x.states[i]?).elim w (winOf w.at_) else w

/-- The stamp of a TICK job's pose (R607): that of the primary frame it took; its edge where it took none.
DEDUCED: log entry 65. -/
def Device.tickStamp (d : Device) (id : Nat) (j : Job) : BitVec 128 :=
  match d.vis.fte.find? fun o => o.job == id && o.stream == 2 * d.loc.cfg.pair with
  | some o =>
    match o.src.bind (·.slot) with
    | some (s, k) => ((d.stream s).frames.look k).elim j.edge (·.dts)
    | none => j.edge
  | none => j.edge

/-- The window solve of a job, when it has ended: how (R565), and the iterations it completed. -/
def Device.tickSolve (d : Device) (id : Nat) : Option (Nat × Nat) :=
  (d.slv.ops.find? fun o => o.job == id && !o.header.isEmpty).bind fun o => o.ended.map fun e => (e, o.iter)

/-! ## Covariance and confidence (R583, R607, R610) -/

/-- A quadratic form of a symmetric 3 × 3 block of COV, given by its six places, with a vector in 32 fraction bits. -/
def covForm (cov : List Nat) (places : List Nat) (a : Vec3) : Option Rat :=
  let f := fun (i : Nat) => ratOf (cov.getD (places.getD i 0) 0)
  let r := fun (v : Int) => mkRat v (2 ^ 32)
  match f 0, f 1, f 2, f 3, f 4, f 5 with
  | some xx, some xy, some xz, some yy, some yz, some zz =>
    some (r a.x * r a.x * xx + r a.y * r a.y * yy + r a.z * r a.z * zz
      + 2 * (r a.x * r a.y * xy + r a.x * r a.z * xz + r a.y * r a.z * yz))
  | _, _, _, _, _, _ => none

/-- The places of the rotation and of the translation block among the 21 values of COV (R610). -/
def covRot : List Nat := [0, 1, 2, 6, 7, 11]
def covPos : List Nat := [15, 16, 17, 18, 19, 20]

/-- The square root of a variance in uQ16.16 of a thousandth of its unit, rounded down and saturating. -/
def sigmaField (v : Option Rat) : Nat :=
  match v with
  | none => 0xFFFFFFFF
  | some r =>
    let n := (r.num * 65536000 * 65536000).toNat / r.den
    if 2 ^ 64 ≤ n then 0xFFFFFFFF else min 0xFFFFFFFF (isqrt n)

/-- SIGMA_H, SIGMA_V and SIGMA_YAW of a covariance at an orientation (R607). -/
def sigmasOf (cov : List Nat) (q : Quat) : List Nat :=
  let x := q.conj.rot ⟨2 ^ 32, 0, 0⟩
  let y := q.conj.rot ⟨0, 2 ^ 32, 0⟩
  let z := q.conj.rot ⟨0, 0, 2 ^ 32⟩
  let h := match covForm cov covPos x, covForm cov covPos y with
    | some a, some b => some (a + b)
    | _, _ => none
  [sigmaField h, sigmaField (covForm cov covPos z), sigmaField (covForm cov covRot z)]

/-- CONF of a committed pose (R583). -/
def confOf (s : LocState) (ref sigmaH : Nat) : Nat :=
  let c := 255 * ref * 65536 / (ref * 65536 + sigmaH)
  match s with
  | .tracking | .relocalised => c
  | .degraded => min 127 c
  | _ => 0

/-! ## Initialisation (R584 to R588) -/

/-- The mean specific force of the collected samples, in 22 fraction bits. -/
def meanForce (xs : List ImuSample) : Vec3 :=
  (xs.foldl (fun (s : Vec3) x => s.add x.a) Vec3.zero).map fun v => rne v (max 1 xs.length)

/-- The span of the collected samples is long enough, and whether its mean is near G (R584). -/
def Device.gravitySpan (d : Device) (stamp : Nat) : Bool × Bool :=
  let xs := d.loc.gravity.filter fun x => x.at_ ≤ stamp
  let long := match xs.head?, xs.getLast? with
    | some a, some b => decide (oneS / 2 ≤ b.at_ - a.at_)
    | _, _ => false
  let norm := isqrt (meanForce xs).sq
  (long, decide ((((norm : Int) * 4 - d.slv.pp.gravity).natAbs) ≤ 2 ^ 23))

/-- The gravity direction of a solution differs from the collected one by at most 0.035 rad (R586). -/
def Device.gravityAgrees (d : Device) (stamp : Nat) (w : WinState) : Bool :=
  let a := d.slv.pp.toBody ((meanForce (d.loc.gravity.filter fun x => x.at_ ≤ stamp)).map (· * 1024))
  let up := w.pose.q.conj.rot ⟨0, 0, 2 ^ 32⟩
  let c := a.cross up
  decide (fxAtan2 (isqrt ((c.map fun v => rne v (2 ^ 34)).sq)) (rne (a.dot up) (2 ^ 34)) ≤ 35 * 2 ^ 128 / 1000)

/-- The map frame of a session that opens (R587): origin at the oldest state, x axis along its heading.
DEDUCED: log entry 67. -/
def mapFrame (ws : List WinState) : List WinState :=
  match ws.head? with
  | none => ws
  | some w =>
    let q := Quat.exp ⟨0, 0, rne (-w.pose.q.yaw) 2⟩
    let c : Pose := ⟨q, (q.rot w.pose.t).map fun v => -v⟩
    ws.map (moveState c)

/-- Whether a prior map is loaded (R580, R588). -/
def Device.priorMap (d : Device) : Bool := !(d.map.ofKind 2).isEmpty

/-! ## LOOP jobs (R601, R606) -/

/-- A LOOP job admitted (R601): it takes the place of one that waits. -/
def Device.admitLoop (d : Device) (w : JobWork) (arg : List Byte) : Device :=
  let old := d.jobs.table.filter fun e => decide (e.2.cls = .loop) && decide (e.2.state = .waiting)
  let d := old.foldl (fun (d : Device) e => d.endJob e.1 stCancelled []) d
  let l := d.loc
  let d := { d with loc := { l with loopReplaced := min 0xFFFFFFFF (l.loopReplaced + old.length) } }
  let j := { Job.blank .loop w with arg := arg, restartMax := d.jobs.restartFw, waitMs := d.jobs.waitFw }
  (d.admitJob j).elim d (·.2)

/-- Whether LOOP jobs run: the profile runs them and LOOP_CONFIG enables them. -/
def Device.loops (d : Device) : Bool :=
  decide (d.jobs.profile.state = .active) && bit d.jobs.profile.flags 2 && d.loc.loop.enable

/-- A relocalisation is admitted for the tick's frame (R606). -/
def Device.admitReloc (d : Device) (stamp : BitVec 128) (code : List Byte) : Device :=
  if d.loops then d.admitLoop .reloc (fit 128 code ++ leBytes 16 stamp.toNat) else d

/-! ## Keyframes (R593, R594, R621) -/

/-- How far two positions lie apart, in mm. -/
def distMm (a b : Vec3) : Nat := isqrt (a.sub b).sq * 1000 / 2 ^ 32

/-- Whether a tick makes a keyframe (R593). -/
def Device.keyframeDue (d : Device) (w : WinState) : Bool :=
  let c := d.loc.cfg
  match d.loc.lastKf with
  | none => true
  | some k =>
    let moved := distMm k.pose.t w.pose.t
    let turned := ((k.pose.q.conj.mul w.pose.q).angle * 1000).natAbs / 2 ^ 128
    let ctxs := (d.fteS (2 * c.pair)).core.ctxs
    let seen := (k.tracks.filter fun t => ctxs.any fun e => e.2.id == t && e.2.state == 2).length
    decide (10 * c.kfDist ≤ moved) || decide (c.kfRot ≤ turned) || decide (seen * 100 < c.kfOverlap * k.tracks.length)
      || (decide (k.at_ + c.kfTime * oneS ≤ w.at_) && decide (100 ≤ moved))

/-- Quaternion and translation of a record: 4 × sQ1.30 and 3 × sQ31.32 (R624, R627). -/
def covBytes (cov : List Nat) : List Byte := fit 84 (cov.flatMap (leBytes 4))

/-- The body of an edge (R627). -/
def edgeBody (from_ to_ ekind inliers : Nat) (dts : BitVec 128) (z : Pose) (cov : List Nat) : List Byte :=
  leBytes 4 from_ ++ leBytes 4 to_ ++ leBytes 1 ekind ++ zeros 1 ++ leBytes 2 (min 0xFFFF inliers) ++ zeros 4
    ++ leBytes 16 dts.toNat ++ z.bytes ++ covBytes cov ++ zeros 20

/-- An object made in the commit under way, under the next ID. -/
def Device.makeObject (d : Device) (kind : Nat) (body : List Byte) : Option (Nat × Device) :=
  let x := d.issueId
  (x.2.mapCreate x.1 (mapRecord x.1 kind body)).map fun d => (x.1, d)

/-- The landmark of an inlier (R594, R626): the one its track has, whose OBS rises, or a new one. -/
def Device.landmarkOf (d : Device) (session kf : Nat) (x : InlierOut) : Option (Nat × Device) :=
  match d.loc.landmarks.look x.track with
  | some id => some (id, d.mapUpdate id fun b => recSet b 28 (leBytes 2 (min 0xFFFF (recU b 28 2 + 1))))
  | none =>
    let n := x.desc.length
    let body := leBytes 4 session ++ leBytes 4 kf ++ leBytes 4 x.track ++ leBytes 2 1 ++ leBytes 1 n ++ zeros 1
      ++ (Vec3.ofList x.pos).list.flatMap (fun v => leBytes 8 (unsigned 64 v)) ++ leBytes 4 x.sigma ++ zeros 4 ++ x.desc
    (d.makeObject 3 body).map fun (id, d) => (id, { d with loc := { d.loc with
      landmarks := d.loc.landmarks.put x.track id } })

/-- The observations of a keyframe with their landmarks. -/
def Device.observe (d : Device) (session kf : Nat) : List InlierOut → Option (List Byte × Device)
  | [] => some ([], d)
  | x :: xs =>
    (d.landmarkOf session kf x).bind fun (id, d) =>
      (d.observe session kf xs).map fun (b, d) => (leBytes 4 id ++ leBytes 4 x.u ++ leBytes 4 x.v ++ b, d)

/-- The index insertion of a keyframe (R594, R621, R663): none when the index is full or its epochs are spent. -/
def Device.indexKf (d : Device) (kf : Nat) (code : List Byte) : Option Device :=
  match d.index 0 with
  | none => none
  | some x =>
    if 0xFFFFFFFE ≤ x.epoch then none else
      let u := (Updated.start x).insert d.pwr.dieOn (x.epoch + 1) kf (code.take (x.codeBits / 8))
      if u.full then none else some (d.setIndex 0 u.commit).prsDiag

/-- Everything a keyframe creates (R594): all together or none. -/
def Device.makeKeyframe (d : Device) (session : Nat) (stamp : BitVec 128) (w : WinState) (x : TickOut) :
    Option (Nat × Device) :=
  let bits_ := (d.index 0).elim 256 (·.codeBits)
  let code := fit 128 (x.code.take (bits_ / 8))
  let prev := d.loc.lastKf
  let seen := x.inliers.take 1024
  let kf := d.issueId.1
  let d0 := d.issueId.2
  (d0.observe session kf seen).bind fun (obs, d) =>
    let body := leBytes 4 session ++ leBytes 4 ((prev.map (·.id)).getD 0xFFFFFFFF) ++ leBytes 1 d.loc.cfg.pair ++ zeros 1
      ++ leBytes 2 bits_ ++ leBytes 2 seen.length ++ zeros 2 ++ leBytes 16 stamp.toNat ++ w.pose.bytes ++ d.loc.cov
      ++ zeros 4 ++ code ++ obs
    (d.mapCreate kf (mapRecord kf 2 body)).bind fun d =>
      let edged := match prev with
        | none => some d
        | some k => if (d.map.newest k.id).isNone then some d else (d.makeObject 4 (edgeBody k.id kf 0 0 stamp (k.pose.inv.mul w.pose) x.relCov)).map
          fun (y : Nat × Device) => y.2
      edged.bind fun d => (d.indexKf kf code).map fun d => (kf, d)

/-- A keyframe commits with its session's record (R593, R621, R623). -/
def Device.keyframe (d : Device) (stamp : BitVec 128) (w : WinState) (x : TickOut) : Device × Option Nat :=
  match d.loc.session with
  | none => (d, none)
  | some s =>
    match d.makeKeyframe s stamp w x with
    | none =>
      let d := d.countOverflow d.issueId.1
      ({ d with map := { d.map with kfDropped := min 0xFFFFFFFF (d.map.kfDropped + 1) } }, none)
    | some (kf, d) =>
      let d := d.mapUpdate s fun b =>
        let b := recSet b 28 (leBytes 4 (recU b 28 4 + 1))
        recSet (if recU b 64 4 = 0xFFFFFFFF then recSet b 64 (leBytes 4 kf) else b) 68 (leBytes 4 kf)
      ({ d with loc := { d.loc with
          keyframes := min 0xFFFFFFFF (d.loc.keyframes + 1)
          lastKf := some ⟨kf, w.pose, w.at_, x.inliers.map (·.track)⟩ } }, some kf)

/-! ## Corrections (R605) -/

/-- The pose of a keyframe record, and the record with another one. -/
def kfPose (b : List Byte) : Pose := Pose.ofBytes (slice b 48 40)
def kfMoved (p : Pose) (b : List Byte) : List Byte := recSet b 48 p.bytes

/-- The keyframes of the session that were committed after K move by its correction. -/
def Device.moveLater (d : Device) (c : Correction) : Device :=
  match d.map.newest c.k with
  | none => d
  | some k =>
    let later := (d.map.ofKind 2).filter fun e => recU e.2 16 4 == recU k 16 4 && decide (recU k 32 16 < recU e.2 32 16)
    later.foldl (fun (d : Device) e => d.mapUpdate e.1 fun b => kfMoved (c.c.mul (kfPose b)) b) d

/-- A correction moves every window state, the anchor, and what keyframes are measured from; in INIT and LOST only
keyframes move. -/
def Device.applyCorrection (d : Device) (c : Correction) : Device :=
  let p := d.slv.pp
  let d := { d with loc := { d.loc with
    applying := d.loc.applying ++ [c], corrections := d.loc.corrections.filter (· != c)
    lastKf := d.loc.lastKf.map fun k => { k with pose := c.c.mul k.pose } } }
  if !d.loc.state.estimating then d else
    { d with
      loc := { d.loc with window := d.loc.window.map (moveState c.c) }
      slv := { d.slv with pp := { p with
        anchor := p.anchor.map fun a => { a with pose := c.c.mul a.pose, v := c.c.q.rot a.v }
        cur := p.cur.map (moveState c.c) } } }

/-- Whether a correction is due for a TICK job admitted at an elapsed moment (R605): after the LOOP commit with APPLY 0, after a
second below 0.05 m/s with APPLY 1. DEDUCED: log entry 64. -/
def Device.correctionDue (d : Device) (admitAt : Nat) (c : Correction) : Bool :=
  decide (c.at_ ≤ admitAt) && (d.loc.loop.apply == 0 || match d.loc.slowFrom with
    | some t => decide (t + oneS ≤ d.time.ns16)
    | none => false)

/-- LOOP_CORRECTION_APPLY (R605): the corrections that are due move the window of the newest admitted TICK job, in commit
order. DEDUCED: log entry 64. -/
def execLoopCorrectionApply (s : State) : Host.Outcome State Fault Refusal :=
  onDev (fun d =>
    match d.ticks.getLast? with
    | none => d
    | some (_, j) => (d.loc.corrections.filter (d.correctionDue j.admitAt)).foldl
        (fun (d : Device) c => d.applyCorrection c) d) s

/-! ## The commit in each state -/

/-- What the committed record says of a tick: its flags of R608 from bit 7 up, and the keyframe made. -/
structure LocMade where
  flags : Nat
  kf : Option Nat

/-- Whether a MOTION source other than the pair took part in a tick (R581). -/
def Device.otherMotion (d : Device) (order : Nat) : Bool :=
  decide (d.grid.checkTick = some order) && d.grid.sources.any fun e => e.1 != d.loc.cfg.pair && e.2.marks.elem (0, 1)

/-- A degrading condition (R582). -/
def Device.degrading (d : Device) (order : Nat) (ended : Nat) (inliers : Nat) : Bool :=
  d.tickContradiction order || ended == 2 || ended == 5 || (d.stream d.slv.pp.imu).dropouts != d.loc.imuDrops
    || d.maskedNow d.slv.pp.imu || decide (inliers < d.loc.cfg.trackMin)

/-- The next state of R581. -/
def Device.nextState (d : Device) (bad few : Bool) : LocState :=
  let l := d.loc
  if (bad && l.cfg.lostTicks ≤ l.degradedRun + 1) || (few && 2 ≤ l.fewRun) then LocState.lost
  else if bad then LocState.degraded
  else if l.applying.any (·.across) then LocState.relocalised
  else if l.state = .relocalised && l.relocCommits < l.cfg.relocHold then LocState.relocalised
  else LocState.tracking

/-- The covariance and sigmas of a solve that completed an iteration (R610). -/
def Device.takeCov (d : Device) (x : TickOut) (iter : Nat) (q : Quat) : Device :=
  if iter = 0 then d else { d with loc := { d.loc with cov := covBytes x.cov, sigmas := sigmasOf x.cov q } }

/-- The newest state becomes the propagator's anchor (R571, R609). -/
def Device.anchor (d : Device) (w : WinState) : Device :=
  let p := d.slv.pp
  { d with slv := { d.slv with pp := p.anchorAt ⟨w.pose, w.v, w.bg, w.ba, w.at_, d.loc.tickSeq, d.loc.conf, d.loc.sigmas⟩ } }

/-- The keyframe of a tick in TRACKING or RELOCALISED, and its LOOP job (R593, R601). -/
def Device.tickKeyframe (d : Device) (stamp : BitVec 128) (w : WinState) (x : TickOut) : Device × LocMade :=
  if d.keyframeDue w then
    let y := d.keyframe stamp w x
    (y.1, ⟨b2n y.2.isSome, y.2⟩)
  else (d, ⟨0, none⟩)

/-- The first commit of a session gives its record DTS_START (R623); the answer is SESSION_NEW. -/
def Device.firstCommit (d : Device) (stamp : BitVec 128) : Device × Bool :=
  match d.loc.session.bind fun s => (d.session s).map fun b => (s, b) with
  | none => (d, false)
  | some (s, b) =>
    if recU b 32 16 = 0 then (d.mapUpdate s fun b => recSet b 32 (leBytes 16 stamp.toNat), true) else (d, false)

/-- A tick in TRACKING, DEGRADED or RELOCALISED (R581 to R583, R590, R593). -/
def Device.trackCommit (d : Device) (order : Nat) (stamp : BitVec 128) (x : TickOut) (solve : Option (Nat × Nat)) :
    Device × LocMade :=
  let l := d.loc
  let (ended, iter) := solve.getD (2, 0)
  let ws := d.nextWindow (dtsMoment stamp) x (ended ≠ 2)
  let w := ws.getLast?.getD { restPose with at_ := dtsMoment stamp }
  let n := x.inliers.length
  let bad := d.degrading order ended n
  let few := decide (n < 8) && !d.otherMotion order
  let next := d.nextState bad few
  let reloc := l.match_.isSome && solve.isSome
  let gnss := solve.isSome && !l.fix.isEmpty
  let fewRun := if few then l.fewRun + 1 else 0
  let degradedRun := if next = LocState.degraded then l.degradedRun + 1 else 0
  let relocCommits := l.relocCommits + 1
  let d := { d with loc := { l with window := ws, match_ := if reloc then none else l.match_ } }
  let d := d.takeCov x iter w.pose.q
  if next = LocState.lost then (d.locLost, ⟨2 * b2n (!l.applying.isEmpty) + 4 * b2n reloc + 16 * b2n gnss, none⟩)
  else
    let same := decide (next = l.state)
    let d := d.locTo next
    let d := { d with loc := { d.loc with
      fewRun := fewRun, degradedRun := degradedRun, relocCommits := if same then relocCommits else 0
      degraded := if next = LocState.degraded then min 0xFFFFFFFF (l.degraded + 1) else l.degraded
      conf := confOf next l.cfg.confRef (d.loc.sigmas.getD 0 0)
      fix := d.loc.fix.filter fun f => ws.any fun w => w.at_ == f.at_ } }
    let (d, new) := d.firstCommit stamp
    let (d, made) := if bad then (d, ⟨0, none⟩) else d.tickKeyframe stamp w x
    (d.anchor w, ⟨made.flags + 2 * b2n (!l.applying.isEmpty) + 4 * b2n reloc + 8 * b2n new + 16 * b2n gnss, made.kf⟩)

/-- A session opens after initialisation (R580, R587): TRACKING, its first keyframe and the first anchor. -/
def Device.openTracking (d : Device) (stamp : BitVec 128) (x : TickOut) (iter : Nat) : Device × LocMade :=
  let ws := mapFrame d.loc.window
  let w := ws.getLast?.getD restPose
  let d := (d.openSession none 0).firstCommit stamp |>.1
  let d := ({ d with loc := { d.loc with window := ws, accepted := none, gravity := [] } }).locTo .tracking
  let d := d.takeCov x iter w.pose.q
  let d := { d with loc := { d.loc with conf := confOf .tracking d.loc.cfg.confRef (d.loc.sigmas.getD 0 0) } }
  let (d, made) := d.tickKeyframe stamp w x
  (d.anchor w, ⟨made.flags + 8, made.kf⟩)

/-- Whether the initialisation solve has what it needs (R585, R586): frames held and landmarks.
DESIGN CHOICE: log entry 29. -/
def Localisation.initReady (l : Localisation) (x : TickOut) : Bool :=
  decide (l.cfg.initFrames ≤ l.initRun)
    && decide (l.cfg.initLandmarks ≤ (x.marks.filter fun t => 3 ≤ t.1 && t.2 ≤ l.cfg.initRange * 1000).length)

/-- A tick in INIT (R580, R584 to R588). -/
def Device.initCommit (d : Device) (stamp : BitVec 128) (x : TickOut) (solve : Option (Nat × Nat)) : Device × LocMade :=
  let at_ := dtsMoment stamp
  let l := { d.loc with initRun := d.loc.initRun + 1 }
  let (long, near) := d.gravitySpan at_
  let ws := d.nextWindow at_ x solve.isSome
  let fresh := l.accepted.isNone && long && near && l.initReady x && (match solve with | some (e, _) => e == 0 | none => false)
    && (ws.head?.any fun w => d.gravityAgrees at_ w)
  let iter := (solve.map (·.2)).getD 0
  let d := { d with loc := { l with
    window := ws, gravity := if long && !near && l.accepted.isNone then [] else l.gravity } }
  let n := if fresh then some 0 else l.accepted.map (· + 1)
  match n with
  | none => (d, ⟨0, none⟩)
  | some n =>
    if !d.priorMap || d.loc.cfg.relocWait ≤ n then d.openTracking stamp x iter
    else (({ d with loc := { d.loc with accepted := some n } }).admitReloc stamp x.code, ⟨0, none⟩)

/-- A tick in LOST (R606): a relocalisation every RELOC_EVERY ticks. -/
def Device.lostCommit (d : Device) (stamp : BitVec 128) (x : TickOut) : Device × LocMade :=
  let due := d.placeDue
  let l := d.loc
  let d := { d with loc := { l with lostTicks := l.lostTicks + 1 } }
  (if due then d.admitReloc stamp x.code else d, ⟨0, none⟩)

/-! ## The committed record (R607 to R611) -/

/-- The rates of a committed record: those of the newest sample up to its stamp. -/
def Device.ratesAt (d : Device) (w : WinState) : Vec3 :=
  match (d.slv.pp.samples.filter fun x => x.at_ ≤ w.at_).getLast? with
  | some x => d.slv.pp.rateOf x.g w.bg
  | none => Vec3.zero

/-- The committed pose record (R608). -/
def Device.committedRecord (d : Device) (stamp : BitVec 128) (w : WinState) (flags : Nat) : List Byte :=
  let l := d.loc
  leBytes 1 l.state.code ++ leBytes 1 l.conf ++ leBytes 2 flags ++ leBytes 4 l.poseSeq ++ leBytes 4 l.tickSeq
    ++ leBytes 4 (l.session.getD 0xFFFFFFFF) ++ leBytes 16 stamp.toNat ++ w.pose.bytes ++ velField w.v
    ++ rateField (d.ratesAt w) ++ l.sigmas.flatMap (leBytes 4) ++ zeros 20

/-- The covariance record that follows it (R610). -/
def Device.covarianceRecord (d : Device) (stamp : BitVec 128) : List Byte :=
  leBytes 4 d.loc.tickSeq ++ leBytes 1 d.loc.state.code ++ zeros 3 ++ leBytes 16 stamp.toNat ++ d.loc.cov ++ zeros 20

/-- The records of a commit are published (R607, R697): one message carries both. -/
def Device.publishCommit (d : Device) (stamp : BitVec 128) (w : WinState) (flags : Nat) : Device :=
  let a := d.committedRecord stamp w flags
  let b := d.covarianceRecord stamp
  let l := d.loc
  Device.form { d with loc := { l with
    poseSeq := (l.poseSeq + 1) % 2 ^ 32, published := a, committed := a, covRecord := b } } 0x30 stamp (a ++ b) []

/-- Localisation at a TICK commit: its state, its keyframe with the LOOP job, and the published records. -/
def Device.locCommit (d : Device) (id : Nat) (j : Job) (stamp : BitVec 128) (solve : Option (Nat × Nat)) (x : TickOut) :
    Device :=
  let l := d.loc
  let d := l.applying.foldl (fun (d : Device) c => d.moveLater c) d
  let (d, made) := match l.state with
    | .cold => (d, (⟨0, none⟩ : LocMade))
    | .init => d.initCommit stamp x solve
    | .lost => d.lostCommit stamp x
    | _ => d.trackCommit j.order stamp x solve
  let w := (d.loc.window.getLast?).getD { restPose with at_ := dtsMoment stamp }
  let flags := 8 * b2n l.stepped + 32 + 64 * b2n (0 < j.total) + 128 * made.flags
  let d := d.publishCommit stamp w flags
  let d := { d with loc := { d.loc with
    imuDrops := (d.stream d.slv.pp.imu).dropouts, stepped := false, applying := []
    correctedAt := if l.applying.isEmpty && made.flags / 4 % 2 = 0 then l.correctedAt else some d.time.now } }
  match made.kf with
  | some kf => if d.loops then d.admitLoop (.loop kf) (leBytes 4 id) else d
  | none => d

end Sys2Proof.Machine
end

