-- ==== Sys2Proof/Machine/GridTick.lean ====
section
/-! DEFINITION. What a TICK commit does to the grid (R491 to R495, R519 to R523, R636, R637) and to the ring outputs of the tick
(R697, R701). -/

namespace Sys2Proof.Machine

/-- Whether the profile runs the grid (R745). -/
def Device.gridRuns (d : Device) : Bool := decide (d.jobs.profile.state ≠ .none) && d.jobs.profile.uses.elem (10, 0)

/-- The check source of a stream: its pair, or itself (R525). -/
def Device.markOf (d : Device) (stream mark : Nat) : Bool := (d.checkSrc (sourceOf stream)).marks.elem (1, mark)

/-- Where the vehicle stands in the grid's frame (R491, R492, R494): the propagated pose at the edge, the committed pose when
the frame becomes MAP. DEDUCED: log entry 67. -/
def Device.gridAt (d : Device) (j : Job) : GridAt :=
  let g := d.grid
  let map := d.loc.state.estimating
  if !map then ⟨false, 0, 0, 0⟩ else
    let p := if g.frame = 1 then Pose.ofBytes (slice j.arg 16 40)
      else ((d.loc.window.getLast?).map (·.pose)).getD Pose.id
    ⟨true, cellOf g.cfg.cell p.t.x, cellOf g.cfg.cell p.t.y, p.t.z⟩

/-- A cell the network wrote (R508, R522): the slots that count, its confidence, and whether a source was held out. -/
def Device.cellOf (d : Device) (x : CellOut) : Option (List Byte) :=
  let live := x.slots.filter fun k =>
    let s := d.gridSlot k
    s.enable && !d.slotAbsent s && !d.markOf s.stream 3 && !d.markOf s.stream 4
  let held := x.slots.any fun k => d.markOf (d.gridSlot k).stream 4
  if live.isEmpty then none else
    let best := live.foldl (fun n k => max n (d.checkSrc (sourceOf (d.gridSlot k).stream)).score) 0
    some (cellRecord (min x.conf best) x.occ x.trav x.cls x.height (b2n held) live.length)

/-- The committed cells of a tick (R522): those slots reached, the others decayed; a cell of CONF 0 is the unknown record. -/
def Device.tickCells (d : Device) (cells : List CellOut) : Tbl (List Byte) :=
  let g := d.grid
  let reached : List (Nat × List Byte) := cells.filterMap fun x =>
    if x.index < g.cfg.gridW * g.cfg.rows then (d.cellOf x).map (x.index, ·) else none
  let kept : Tbl (List Byte) := if g.frame = 0 then [] else g.cells.filterMap fun e =>
    if reached.any fun r => r.1 == e.1 then none else (decayed g.cfg.decay e.2).map (e.1, ·)
  let all := reached.foldl (fun (t : Tbl (List Byte)) r => if cellConf r.2 = 0 then t else t.put r.1 r.2) kept
  all.filter fun e => g.owned (e.1 / g.cfg.gridW)

/-- Points lifted, counted by die in units of 1,024 (R524). -/
def Device.countLifted (d : Device) (xs : List (Nat × Nat)) : Device :=
  xs.foldl (fun (d : Device) x =>
    let n := d.grid.liftRem.getD x.1 0 + x.2
    let d := d.diagAdd x.1 0x1E0 0 32 (n / 1024)
    { d with grid := { d.grid with liftRem := d.grid.liftRem.put x.1 (n % 1024) } }) d

/-- The layer buffer of a tick is written, its header last, and offered to the ports (R519, R520, R523, R697). -/
def writeLayer (stamp : BitVec 128) (flags : Nat) (mv : Moved) (d : Device) (m : Store) : Device × Store :=
  let g := d.grid
  let at_ := d.freeSlotOf g.ring g.at_
  let buf := g.ring.getD at_ 0
  let head := g.headerOf d.loc.tickSeq stamp.toNat flags mv
  let x := fwWrite buf 64 g.records (d.takeSlot buf) m
  let x := fwWrite buf 0 head x.1 x.2
  let d := { x.1 with grid := { x.1.grid with
    header := head, at_ := (at_ + 1) % max 1 g.ring.length, tickSeq := d.loc.tickSeq, stepped := false } }
  (d.form 0x31 stamp [] [(buf, 0, g.cfg.layerBytes)], x.2)

/-- The grid at a TICK commit. -/
def gridCommit (id : Nat) (j : Job) (stamp : BitVec 128) (x : TickOut) (d : Device) (m : Store) : Device × Store :=
  if !d.gridRuns then (d, m) else
    let pin := (d.map.pins.find? fun p => p.1 == id).elim d.map.gen (·.2)
    let y := d.gridMove (d.gridAt j) pin stamp.toNat
    let d := y.1
    let d := { d with grid := { d.grid with cells := d.tickCells x.cells } }
    let worse := decide (d.loc.state = .degraded) || d.tickContradiction j.order
    let flags := b2n y.2.reset + 2 * b2n y.2.scrolled + 4 * b2n worse + 8 * b2n d.grid.stepped
    writeLayer stamp flags y.2 (d.countLifted x.lifted) m

/-- The cells of the window are written to their tiles as if they left it (R646). -/
def Device.flushCells (d : Device) : Device :=
  let g := d.grid
  if g.frame = 0 || !d.gridRuns then d else
    d.handOver (recU g.header 8 16) (g.cells.map fun e => ((e.1 % g.cfg.gridW : Int), (e.1 / g.cfg.gridW : Int), e.2))

/-- The disparity frames of a tick, for each pair that a route selects (R697, R698). -/
def Device.formDisparity (d : Device) : Device :=
  (List.range 8).foldl (fun (d : Device) p =>
    let y := d.stePair p
    let c := d.steCfg p
    let n := y.ring.length
    if n = 0 || y.frames = 0 || !d.jobs.profile.uses.elem (2, p) then d else
      let buf := y.ring.getD ((y.at_ + n - 1) % n) 0
      (List.range 2).foldl (fun (d : Device) port =>
        if bit (d.route_ 0x32 port).pairs p then
          d.formOn port 0x32 y.lastDts [] [(buf, 0, 64), (buf, 4096, 3 * c.outW * c.outH)] else d) d) d

/-- The track-list summaries of a tick (R697). -/
def Device.formTracks (d : Device) (stamp : BitVec 128) (streams : List Nat) : Device :=
  let ss := (List.range 16).filter streams.elem
  d.form 0x35 stamp (leBytes 4 d.loc.tickSeq ++ leBytes 2 ss.length ++ zeros 2
    ++ ss.flatMap fun s => fit 64 (d.fteS s).core.summary) []

end Sys2Proof.Machine
end

