-- ==== Sys2Proof/Machine/Commit.lean ====
section
/-! DEFINITION. Where a job starts its work and where it commits (R712, R720): units, engine operations, queries and schedules
at JOB_LOADED; at JOB_COMMIT what each kind of job makes visible in one moment. -/

namespace Sys2Proof.Machine

/-! ## JOB_LOADED -/

/-- Where an export writes: DEST of its command (R649). -/
def Job.exportDest (j : Job) : Nat := recU j.arg 0 1

/-- The generation a job is pinned to. -/
def Device.pinned (d : Device) (id : Nat) : Option Nat := (d.map.pins.find? fun p => p.1 == id).map (·.2)

/-- An export to a port leaves as data type 0x33 once its pin is made (R646, R695). -/
def Device.sendExport (d : Device) (id : Nat) (j : Job) : Device :=
  match d.pinned id with
  | none => d
  | some gen =>
    if j.exportDest = 0 then d
    else d.sendOn (j.exportDest - 1) 0x33 0 j.admitted (d.map.image gen (exportList j.arg)) [] j.handle

/-- JOB_LOADED (R712, R373): sequencers, engine operations, queries and schedules start. -/
def execJobLoaded (job : Nat) (s : State) : Host.Outcome State Fault Refusal :=
  onBoth (fun d m =>
    match d.job job with
    | some j =>
      if j.state = .loading && d.jobLoaded job j then
        let d := d.setJob job { j with state := .running, runAt := d.time.now }
        let d := j.parts.foldl (fun (d : Device) p => p.phys.foldl (fun (d : Device) u => d.updUnit u fun x =>
          if x.state = .loading then startUnit x else x) d) d
        let d := ((d.steLoad job j).fteLoad job j).slvLoad job j
        let d := d.prsLoad m job j
        (match j.work with
          | .mapExport => d.sendExport job j
          | _ => d, m)
      else (d, m)
    | none => (d, m)) s

/-! ## Whether a job may commit (R720) -/

/-- Every solve of a job has ended; a solve that an initialisation or a LOOP job never began is not waited for. -/
def Device.solvesEnded (d : Device) (id : Nat) (j : Job) : Bool :=
  let free := match j.work with
    | .tick => decide (d.loc.state = .init)
    | .loop _ | .reloc => true
    | _ => false
  d.slv.ops.all fun o => o.job != id || !o.header.isEmpty || (free && !o.begun)

/-- An export has its pin, and one to a port has left (R646). -/
def Device.exportDone (d : Device) (id : Nat) (j : Job) : Bool :=
  (d.pinned id).isSome && (j.exportDest == 0
    || ((d.tx (j.exportDest - 1)).queue.all fun x => x.handle != j.handle)
      && (d.tx (j.exportDest - 1)).wire.all fun w => w.handle != j.handle)

/-- An update of an index admitted earlier is still active (R670). -/
def Device.updateBefore (d : Device) (j : Job) (i : Nat) : Bool :=
  d.jobs.table.any fun e => e.2.active && decide (e.2.work = .prsUpdate i) && decide (e.2.order < j.order)

/-- Every participating die has reported its part ready (R720). -/
def Device.commitReady (d : Device) (id : Nat) (j : Job) : Bool :=
  decide (j.state = .running) && (j.ready &&& j.dies) == j.dies
    && d.vis.ste.all (fun o => o.job != id) && d.vis.fte.all (fun o => o.job != id || o.done)
    && d.solvesEnded id j && j.schedPos == j.schedLen && !d.queriesOpen id
    && d.prs.compacts.all (fun c => c.1 != id)
    && match j.work with
      | .mapExport => d.exportDone id j
      | .prsUpdate i => !d.updateBefore j i
      | .slice _ _ _ => false
      | _ => true

/-- The status of a job that commits: OK, or FAULT_RESTARTED after a restart (R712). -/
def Job.commitStatus (j : Job) : Nat := if 0 < j.total then stRestarted else stOk

/-- A job that commits ends with its own status where that is a failure. -/
def Device.commitAs (d : Device) (id : Nat) (j : Job) (status : Nat) (result : List Byte) : Device :=
  d.endJob id (if status = stOk then j.commitStatus else status) result

/-! ## TICK jobs -/

/-- Nothing from units and engines. -/
def TickOut.none_ : TickOut := ⟨[], [], [], [], [], [], [], []⟩

/-- What a commit's data gives a TICK job. -/
def tickOf (o : CommitOut) : TickOut :=
  match o with
  | .tick x => x
  | .plain | .loop _ | .refine _ _ => TickOut.none_

/-- Exports that wait for a TICK commit write the window's cells and are pinned to its generation (R646). -/
def Device.flushing (d : Device) : List (Nat × Job) :=
  d.jobs.table.filter fun e => e.2.active && e.2.work.isExport && (d.pinned e.1).isNone

/-- A TICK job commits (R57, R607, R697, R720): tracks, localisation, grid, tiles and generation, the outputs of the tick, its
event. -/
def tickCommit (id : Nat) (j : Job) (x : TickOut) (d : Device) (m : Store) : Device × Store :=
  let stamp := d.tickStamp id j
  let solve := d.tickSolve id
  let streams := (d.vis.fte.filter fun o => o.job == id && o.pending.isSome).map (·.stream)
  let d := (d.fteCommit id).slvCommit id
  let l := d.loc
  let d := { d with loc := { l with
    commits := min 0xFFFFFFFF (l.commits + 1), tickSeq := (l.tickSeq + 1) % 2 ^ 32, lastCommitAt := d.time.now } }
  let d := if d.locRuns then d.locCommit id j stamp solve x else d
  let (d, m) := gridCommit id j stamp x d m
  let exports := d.flushing
  let d := (if exports.isEmpty then d else d.flushCells).mapCommit
  let d := exports.foldl (fun (d : Device) e =>
    let d := d.pinMap e.1
    if e.2.state = .running then d.sendExport e.1 e.2 else d) d
  let d := d.formDisparity.formTracks stamp streams
  let d := d.event 0x0011 4 0 d.loc.tickSeq j.commitStatus
  let p := d.jobs.profile
  let d := { d with jobs := { d.jobs with profile := { p with commitAt := some d.time.now } } }
  let d := d.endJob id j.commitStatus []
  let q := d.slv.pp
  ({ d with slv := { d.slv with pp := { q with extrapolated := d.ticks.any fun t => t.2.late } } }, m)

/-! ## LOOP jobs -/

/-- The place query of a LOOP job found a keyframe that verification may have taken (R602, R603): among the first VERIFY
candidates within MAX_DIST, still in the map, with enough inliers. DEDUCED: log entry 66. -/
def Device.verified (d : Device) (id : Nat) (x : LoopOut) : Option (List Byte) :=
  let c := d.loc.loop
  let bits_ := (d.index 0).elim 256 (·.codeBits)
  let far := if c.maxDist = 0 then bits_ / 4 else c.maxDist
  match d.prs.runs.find? fun r => r.job == id with
  | none => none
  | some r =>
    let near := (r.cands.filter fun k => k.1 ≤ far).take c.verify
    if near.any (fun k => k.2 == x.found) && c.inliers ≤ x.inliers then
      (d.map.seen ((d.pinned id).getD d.map.gen) x.found).bind fun b => if recKindOf b = 2 then some b else none
    else none

/-- The solved poses of a session's keyframes are committed (R604): keyframes of other sessions are fixed. -/
def Device.commitPoses (d : Device) (session : Nat) (ps : List (Nat × List Int × List Int)) : Device :=
  ps.foldl (fun (d : Device) p =>
    match d.map.newest p.1 with
    | some b => if recKindOf b = 2 && recU b 16 4 = session then d.mapUpdate p.1 (kfMoved (poseOf p.2.1 p.2.2)) else d
    | none => d) d

/-- The newest solved keyframe of a session, with its old and its new pose (R605). -/
def Device.newestSolved (d : Device) (session : Nat) (ps : List (Nat × List Int × List Int)) : Option (Nat × Pose × Pose) :=
  let mine := ps.filterMap fun p => (d.map.newest p.1).bind fun b =>
    if recKindOf b = 2 && recU b 16 4 = session then some (recU b 32 16, p.1, kfPose b, poseOf p.2.1 p.2.2) else none
  (mine.foldl (fun (best : Option (Nat × Nat × Pose × Pose)) k =>
    match best with
    | some b => if b.1 < k.1 then some k else some b
    | none => some k) none).map (·.2)

/-- A correction across sessions (R638, R639): the open session is merged into that of the candidate, and a MERGE job takes the
tiles of its slot. DEDUCED: log entry 66. -/
def Device.mergeInto (d : Device) (open_ other : Nat) (c : Pose) : Device :=
  let slot := d.slotOf open_
  let wasRoot := (d.session open_).elim false isRoot
  let root := d.rootOf other
  let d := d.mapUpdate open_ fun b =>
    recSet (recSet (recSet b 16 (leBytes 4 other)) 20 (leBytes 4 root)) 24
      (leBytes 1 (d.slotOf root) ++ leBytes 1 (Nat.lor (recU b 25 1) 4))
  if !wasRoot || slot = 0xFF then d else
    let j := { Job.blank .map (.mapMerge slot root) with
      arg := c.bytes, restartMax := d.jobs.restartFw, waitMs := d.jobs.waitFw }
    match d.admitJob j with
    | none => d
    | some (id, d) => d.pinMap id

/-- A LOOP job of a keyframe commits (R601 to R605, R631, R638): the edge, the poses where the solve gives them, and the correction. -/
def Device.loopCommit (d : Device) (id kf : Nat) (out : CommitOut) : Device :=
  let l := d.loc
  let d := { d with loc := { l with loopTried := min 0xFFFFFFFF (l.loopTried + 1) } }
  match out, d.map.newest kf with
  | .loop x, some b =>
    match d.verified id x with
    | none => d
    | some f =>
      let session := recU b 16 4
      let other := recU f 16 4
      let across := decide (other ≠ session)
      let z := poseOf x.q x.t
      let d := if (d.map.newest x.found).isNone then d else
        match d.makeObject 4 (edgeBody x.found kf (1 + b2n across) x.inliers d.stamp z x.cov) with
        | some y => y.2
        | none => d.countOverflow d.issueId.1
      let d := { d with loc := { d.loc with loopAccepted := min 0xFFFFFFFF (d.loc.loopAccepted + 1) } }
      match d.tickSolve id with
      | none => d.mapCommit
      | some (e, _) =>
        if e = 2 || e = 5 then d.mapCommit else
          match d.newestSolved session x.poses with
          | none => d.mapCommit
          | some (k, old, new) =>
            let c := new.mul old.inv
            let d := d.commitPoses session x.poses
            let d := if across && d.map.opened = some session then d.mergeInto session other c else d
            let d := d.mapCommit
            if d.loc.session = some session then
              { d with loc := { d.loc with corrections := d.loc.corrections ++ [⟨c, k, across, d.time.now⟩] } }
            else d
  | _, _ => d

/-- A relocalisation commits (R580, R606): in LOST and in INIT a verified match seeds the window and the state becomes
RELOCALISED; a match in another session opens one linked to it. -/
def Device.relocCommit (d : Device) (id : Nat) (j : Job) (out : CommitOut) : Device :=
  let l := d.loc
  match out with
  | .loop x =>
    match d.verified id x with
    | none => d
    | some f =>
      if !(l.state = .lost || (l.state = .init && l.accepted.isSome)) then d else
        let other := recU f 16 4
        let stamp := BitVec.ofNat 128 (recU j.arg 128 16)
        let w : WinState := { restPose with at_ := dtsMoment stamp, pose := (kfPose f).mul (poseOf x.q x.t) }
        let d := if l.session = some other then d else d.openSession (some other) 0
        let d := { d with loc := { d.loc with
          window := [w], match_ := some (x.found, w.pose), accepted := none, gravity := [], lastCommitAt := d.time.now
          relocs := min 0xFFFFFFFF (l.relocs + 1) } }
        (d.locTo .relocalised).mapCommit
  | .plain | .tick _ | .refine _ _ => d

/-! ## Other jobs -/

/-- The header of a job's solve, with the status it carries (R565). -/
def Device.solveHeader (d : Device) (id : Nat) : List Byte :=
  ((d.slv.ops.find? fun o => o.job == id).map (·.header)).getD []

/-- A calibration refinement commits (R515, R516, R524), its solve ended OK, DEADLINE or WARM_PARTIAL: the limited step,
counted; a bound raises its event. -/
def Device.refineCommit (d : Device) (stream id : Nat) (out : CommitOut) : Device :=
  match out, d.tickSolve id with
  | .refine q t, some _ =>
    if ([0, 0x20, 0x24].elem (recU (d.solveHeader id) 0 1)) = false then d else
      let c := d.cal stream
      let x := c.refine (poseOf q t)
      let d := d.updCal stream fun c => { c with
        current := x.1, refines := (c.refines + 1) % 2 ^ 32, lastDts := d.stamp }
      let d := d.diagAdd d.lead 0x1EC 0 16 1
      if x.2 then (d.diagAdd d.lead 0x1EC 16 16 1).event 0x0006 0 stream (recU x.1 2 1) 0 else d
  | _, _ => d

/-- An export commits (R646): to a buffer its image is written now; a buffer too small, or a port that dropped it, fails it. -/
def exportCommit (id : Nat) (j : Job) (d : Device) (m : Store) : Device × Store :=
  let img := d.map.image ((d.pinned id).getD d.map.gen) (exportList j.arg)
  let head := img.take 64
  if j.exportDest ≠ 0 then (d.commitAs id j stOk head, m)
  else
    let buf := recU j.arg 4 4
    let off := recU j.arg 8 8
    if (d.buf buf).elim 0 (·.size) < off + img.length then (d.commitAs id j stBadField [], m)
    else
      match d.bufStore m buf off img with
      | .error e => ((d.logAccess 10 e).commitAs id j stFailed [], m)
      | .ok x => (x.1.commitAs id j stOk head, x.2)

/-- What a job makes visible at its commit (R720), by what it does. -/
def commitJob (id : Nat) (j : Job) (out : CommitOut) (d : Device) (m : Store) : Device × Store :=
  match j.work with
  | .tick => tickCommit id j (tickOf out) d m
  | .loop kf =>
    let y := d.loopCommit id kf out
    ((y.slvCommit id).endJob id stOk [], m)
  | .reloc =>
    let y := d.relocCommit id j out
    ((y.slvCommit id).endJob id stOk [], m)
  | .image => (d.endJob id j.commitStatus (d.plainResult id j d.stamp), m)
  | .ste _ _ _ _ => (d.endJob id j.commitStatus (lastOf 64 j.arg), m)
  | .fte _ _ _ => ((d.fteCommit id).endJob id j.commitStatus (lastOf 64 j.arg), m)
  | .slv _ _ =>
    let h := d.solveHeader id
    ((d.slvCommit id).endJob id (recU h 0 1) h, m)
  | .calRefine stream => (((d.refineCommit stream id out).slvCommit id).endJob id stOk [], m)
  | .mapLoad =>
    let x := mapLoad j.arg d m
    (x.1.commitAs id j x.2.status (x.2.bytes x.1.map.gen), m)
  | .mapExport => exportCommit id j d m
  | .mapMerge slot root => ((mapMerge slot root (Pose.ofBytes j.arg) d).endJob id stOk [], m)
  | .prsTree i =>
    let x := prsTreeLoad i j.arg d m
    (x.1.commitAs id j x.2.1 (leBytes 1 x.2.2.1 ++ zeros 3 ++ leBytes 4 x.2.2.2), m)
  | .prsUpdate i =>
    let x := prsUpdate i j.arg d m
    (x.1.commitAs id j x.2.1 x.2.2, m)
  | .prsQuery i => (d.endJob id j.commitStatus (d.queryResult id i (recU j.arg 12 4)), m)
  | .prsCompact _ => (d.endJob id j.commitStatus (leBytes 8 (d.prs.reclaimed.getD id 0)), m)
  | .slice _ _ _ => (d, m)

/-- JOB_COMMIT (R57, R712, R720): nothing of a job is visible before, everything is after. Commands that waited for a TICK job
take effect (R135). -/
def execJobCommit (job : Nat) (out : CommitOut) (s : State) : Host.Outcome State Fault Refusal :=
  onBoth (fun d m =>
    match d.job job with
    | none => (d, m)
    | some j =>
      if !d.commitReady job j then (d, m) else
        let x := commitJob job j out d m
        resumeAll x.1 x.2) s

end Sys2Proof.Machine
end

