-- ==== Sys2Proof/Machine/I3c.lean ====
section
/-! DEFINITION. The I3C target: hot-join, the CCCs, HDR entry and exit, the target reset pattern and the sending of
IBIs (R136 to R142, R146, R177, R837). A CCC or IBI that the bus cannot carry in the present state has no effect
(log entry 7). -/

namespace Sys2Proof.Machine

/-- The target takes CCCs: it answers and the bus is in SDR. -/
def Device.takesCcc (d : Device) : Bool := d.pkg.targetUp && decide (d.i3c.hdr = .sdr)

/-- A CCC applied to the target's own registers when it is taken. -/
def ccc (f : I3c → I3c) (s : State) : Host.Outcome State Fault Refusal :=
  onDev (fun d => if d.takesCcc then { d with i3c := f d.i3c } else d) s

/-- The bytes a direct read CCC returns. DESIGN CHOICE: log entry 7. -/
def cccRead (bytes : Device → List Byte) (s : State) : Host.Outcome State Fault Refusal :=
  onDev (fun d => if d.takesCcc then { d with i3c := { d.i3c with cccOut := bytes d } } else d) s

/-- HOT_JOIN_REQUEST (R141): once, 10 ms after release, without a dynamic address, unless disabled. -/
def execHotJoinRequest (s : State) : Host.Outcome State Fault Refusal :=
  onDev (fun d =>
    if d.pkg.targetUp && d.i3c.dyn.isNone && d.i3c.hjOn && !d.i3c.hjSent then
      let d := d.advanceTo (d.i3c.releasedAt + 10 * oneMs)
      { d with i3c := { d.i3c with hjSent := true } }
    else d) s

/-- ENEC (R177): IBIs and hot-join enabled. -/
def execEnec (s : State) : Host.Outcome State Fault Refusal := ccc (fun i => { i with ibiOn := true, hjOn := true }) s

/-- DISEC (R177): IBIs and hot-join disabled. -/
def execDisec (s : State) : Host.Outcome State Fault Refusal := ccc (fun i => { i with ibiOn := false, hjOn := false }) s

/-- RSTDAA (R142): the dynamic address is removed; pending IBIs are held. -/
def execRstdaa (s : State) : Host.Outcome State Fault Refusal := ccc (fun i => { i with dyn := none }) s

/-- ENTDAA (R47, R137): a device without a dynamic address takes the one the controller assigns. -/
def execEntdaa (addr : BitVec 7) (s : State) : Host.Outcome State Fault Refusal :=
  ccc (fun i => if i.dyn.isNone then { i with dyn := some addr } else i) s

/-- SETDASA at 0x2A (R47): reaches every device that still lacks a dynamic address. Also R45. -/
def execSetdasa (addr : BitVec 7) (s : State) : Host.Outcome State Fault Refusal :=
  ccc (fun i => if i.dyn.isNone then { i with dyn := some addr } else i) s

/-- SETNEWDA (R136): changes a dynamic address that is held. -/
def execSetnewda (addr : BitVec 7) (s : State) : Host.Outcome State Fault Refusal :=
  ccc (fun i => if i.dyn.isSome then { i with dyn := some addr } else i) s

/-- The clamp of R139. -/
def clampLen (n : Nat) : Nat := max 8 (min 4096 n)

/-- SETMWL (R139). -/
def execSetmwl (len : Nat) (s : State) : Host.Outcome State Fault Refusal :=
  ccc (fun i => { i with mwl := clampLen len }) s

/-- SETMRL (R139). -/
def execSetmrl (len : Nat) (s : State) : Host.Outcome State Fault Refusal :=
  ccc (fun i => { i with mrl := clampLen len }) s

/-- GETMWL (R139), most significant byte first as I3C sends it. -/
def execGetmwl (s : State) : Host.Outcome State Fault Refusal := cccRead (fun d => beBytes 2 d.i3c.mwl) s

/-- GETMRL (R139). -/
def execGetmrl (s : State) : Host.Outcome State Fault Refusal := cccRead (fun d => beBytes 2 d.i3c.mrl) s

/-- The provisioned ID (R137). -/
def Fuses.pid (f : Fuses) : Nat := 0x0A3E * 2 ^ 33 + 2 ^ 32 + f.serial.toNat % 2 ^ 32

/-- GETPID (R137). -/
def execGetpid (s : State) : Host.Outcome State Fault Refusal := cccRead (fun d => beBytes 6 d.fuse.pid) s

/-- GETBCR (R138). -/
def execGetbcr (s : State) : Host.Outcome State Fault Refusal := cccRead (fun _ => [0x26#8]) s

/-- GETDCR (R138). -/
def execGetdcr (s : State) : Host.Outcome State Fault Refusal := cccRead (fun _ => [0x00#8]) s

/-- The GETSTATUS word (R837). -/
def Device.statusWord (d : Device) : Nat :=
  (d.evt.ibi.headD 0) * 256 + b2n d.i3c.protoErr * 32 + min 15 d.evt.ibi.length

/-- GETSTATUS (R837): the word, most significant byte first; the protocol error bit is then cleared. -/
def execGetstatus (s : State) : Host.Outcome State Fault Refusal :=
  onDev (fun d =>
    if d.takesCcc then { d with i3c := { d.i3c with cccOut := beBytes 2 d.statusWord, protoErr := false } } else d) s

/-- GETCAPS (R136): capability bytes whose values the spec does not state (free, log entry 5). -/
def execGetcaps (s : State) : Host.Outcome State Fault Refusal :=
  cccRead (fun _ => (List.range 4).map (Config.freeByte 2 0)) s

/-- RSTACT (R140): actions 0x00 to 0x02; any other is taken as 0x00. -/
def execRstact (action : Byte) (s : State) : Host.Outcome State Fault Refusal :=
  ccc (fun i => { i with rstact := some (if action.toNat ≤ 2 then action.toNat else 0) }) s

/-- ENTHDR0 (R136): HDR-DDR mode. -/
def execEnthdr0 (s : State) : Host.Outcome State Fault Refusal := ccc (fun i => { i with hdr := .ddr }) s

/-- UNSUPPORTED_CCC (R181, code 0x09): NACK and a violation with the CCC code. -/
def execUnsupportedCcc (code : Byte) (s : State) : Host.Outcome State Fault Refusal :=
  onDev (fun d => if d.takesCcc then d.violation 0 0 0x09 code.toNat else d) s

/-- ENTHDR_UNSUPPORTED (R146, code 0x07): the bus is ignored until the HDR exit pattern. -/
def execEnthdrUnsupported (mode : Nat) (s : State) : Host.Outcome State Fault Refusal :=
  onDev (fun d =>
    if d.takesCcc && 1 ≤ mode && mode ≤ 3 then
      let d := d.violation 0 0 0x07 mode
      { d with i3c := { d.i3c with hdr := .ignoring } }
    else d) s

/-- HDR_EXIT (R146): back to SDR. -/
def execHdrExit (s : State) : Host.Outcome State Fault Refusal :=
  onDev (fun d => if d.pkg.targetUp then { d with i3c := { d.i3c with hdr := .sdr } } else d) s

/-- A reset of the I3C target logic (R140): lengths, read pointer, ENEC state and mode, and nothing else. -/
def I3c.logicReset (i : I3c) : I3c :=
  { i with mwl := 4096, mrl := 4096, readPtr := 0, ibiOn := true, hjOn := true, hdr := .sdr, rstact := none }

/-- TARGET_RESET_PATTERN (R140): by the action in force; none in force resets the target logic. -/
def execTargetResetPattern (s : State) : Host.Outcome State Fault Refusal :=
  if s.dev.pkg.targetUp then
    match s.dev.i3c.rstact with
    | some 0 => .next { s with dev := { s.dev with i3c := { s.dev.i3c with rstact := none } } }
    | some 2 => .next s.packageReset
    | _ => .next { s with dev := { s.dev with i3c := s.dev.i3c.logicReset } }
  else .next s

/-- IBI_SEND (R142, R177): with a dynamic address and IBIs enabled, the pending cause with the lowest data byte is
sent; acknowledged it is no longer pending, refused it stays. -/
def execIbiSend (acked : Bool) (s : State) : Host.Outcome State Fault Refusal :=
  onDev (fun d =>
    match d.evt.ibi with
    | [] => d
    | b :: rest =>
      if d.takesCcc && d.i3c.dyn.isSome && d.i3c.ibiOn then
        { d with i3c := { d.i3c with ibiOut := some b },
                 evt := { d.evt with ibi := if acked then rest else b :: rest } }
      else d) s

end Sys2Proof.Machine
end

