-- ==== Sys2Proof/Machine/Power.lean ====
section
/-! DEFINITION. Power, clocks and heat (R750 to R771): their commands, PART_RESET and DIE_RESET (R738, R740), the limiter,
throttling, clock failures, and the faults of routers, links and control processors (R725, R726, R736). -/

namespace Sys2Proof.Machine

/-- A mailbox command that may stay unanswered until an event ends it. -/
def commandLater (op : Nat) (ch : Fin 8) (body : Request → Device → Store → (Device × Store) × Option Reply) (s : State) :
    Host.Outcome State Fault Refusal :=
  match s.dev.awaiting ch.val op with
  | none => .next s
  | some r =>
    let x := body r s.dev s.mem
    match x.2 with
    | some a => .next { s with dev := x.1.1.answer ch.val r a, mem := x.1.2 }
    | none => .next { s with dev := x.1.1, mem := x.1.2 }

/-! ## Commands -/

/-- A current in units of 2^-64 A from VALUE in 2^-31, OFFSET in 2^-16 V and GAIN in 2^-16 A/V (R761). -/
def railCurrent (value offset : Int) (gain : Nat) : Int := (5 * value * 65536 - offset * 2 ^ 32) * gain

/-- Whether sensing is valid for a die now (R761). -/
def Device.senseValid (d : Device) (die : Nat) : Bool :=
  let x := d.sfeS (railStream die)
  d.pwr.senseOn && d.pwr.dieOn.getLsbD die && decide (x.state ≠ .fault) && x.dts != 0
    && d.time.ns16 ≤ dtsMoment x.dts + 500 * 1000 * oneNs && !d.auxCal die

/-- POWER_STATUS (R771). -/
def execPowerStatus (ch : Fin 8) (s : State) : Host.Outcome State Fault Refusal :=
  query 0x0110 ch (fun _ d =>
    let p := d.pwr
    ans stOk (leBytes 1 p.limit ++ zeros 1 ++ leBytes 1 p.sensed.toNat ++ zeros 1 ++ leBytes 4 p.est ++ leBytes 2 p.cTick
      ++ leBytes 2 p.cOther ++ leBytes 4 p.atFloor ++ (List.range 8).flatMap fun k =>
        leBytes 2 ((if p.dieOn.getLsbD k then (p.domains.getD k 0).toNat + 4096 else 0))
          ++ leBytes 2 (unsigned 16 (p.tj.getD k 0)) ++ leBytes 2 (p.cap.getD k 0) ++ zeros 2
          ++ leBytes 4 (if p.sensed.getLsbD k then p.current.getD k 0 else 0))) s

/-- POWER_CONFIG (R759, R763). -/
def powerConfig (r : Request) (d : Device) : Device × Reply :=
  if !d.boot.ready then (d, ans stBadState)
  else if d.fuse.powerW < r.u 0 1 then (d, ans stBadField)
  else ({ d with pwr := { d.pwr with limit := r.u 0 1 } }, ans stOk)

/-- POWER_CONFIG. -/
def execPowerConfig (ch : Fin 8) (s : State) : Host.Outcome State Fault Refusal := command 0x0111 ch powerConfig s

/-- Whether a domain may not be switched off (R755). -/
def Device.domainKept (d : Device) (die dom : Nat) : Bool :=
  d.profileDomain die dom || d.pwr.pendingOn.getLsbD die
    || (dom == 10 && (!d.map.objs.isEmpty || d.prs.indexes.any fun e => e.1 != 0))

/-- DOMAIN_POWER (R754, R755, R759): off at once; on, it answers when the domain has returned. DEDUCED: log entry 39. -/
def domainPower (ch : Nat) (r : Request) (d : Device) (m : Store) : (Device × Store) × Option Reply :=
  let die := r.u 0 1
  let dom := r.u 1 1
  if !d.boot.ready || !d.pwr.dieOn.getLsbD die then ((d, m), some (ans stBadState))
  else if d.domainPending die dom then ((d, m), none)
  else if r.u 2 1 = 0 then
    if d.domainKept die dom then ((d, m), some (ans stBadState))
    else if d.domainOn die dom then (domainOff die dom d m, some (ans stOk))
    else ((d, m), some (ans stOk))
  else if d.domainOn die dom then ((d, m), some (ans stOk))
  else ((d.domainReturn die dom (some ch), m), none)

/-- DOMAIN_POWER. -/
def execDomainPower (ch : Fin 8) (s : State) : Host.Outcome State Fault Refusal :=
  commandLater 0x0112 ch (domainPower ch.val) s

/-- Whether a die may not be powered off or reset: the lead, one that is off, or a split of the package (R43, R71). -/
def Device.dieKept (d : Device) (die : Nat) : Bool :=
  die == d.lead || !d.pwr.dieOn.getLsbD die || partitioned d.view (d.pwr.dieOn &&& ~~~ BitVec.twoPow 8 die)

/-- A die that is off starts to power on (R757); the handle completes with DIE_POWER_ON_DONE. -/
def Device.dieOnStart (d : Device) (die h : Nat) : Device :=
  { d with pwr := { d.pwr with
    pendingOn := d.pwr.pendingOn ||| BitVec.twoPow 8 die, dieHandles := d.pwr.dieHandles.put die h } }

/-- Whether a domain of a die is on its way back: commands on the die wait (R154). -/
def Device.dieBusy (d : Device) (die : Nat) : Bool := d.pwr.resetting.any fun r => r.1 / 16 == die

/-- DIE_POWER (R756, R757, R759). DEDUCED: log entry 39. -/
def diePower (ch : Nat) (r : Request) (d : Device) (m : Store) : (Device × Store) × Option Reply :=
  let die := r.u 0 1
  let on := r.u 1 1 = 1
  if !d.boot.ready || d.pwr.pendingOn.getLsbD die || (if on then d.pwr.dieOn.getLsbD die
      else d.dieKept die || d.profileDie die) then ((d, m), some (ans stBadState))
  else if d.dieBusy die then ((d, m), none)
  else
    match d.mbx.newHandle ch r.op with
    | none => ((d, m), some (ans stNoResource))
    | some (h, mb) =>
      let d := { d with mbx := mb }
      let a : Reply := ⟨stAccepted, false, leBytes 4 h, true, some h⟩
      if on then ((d.dieOnStart die h, m), some a)
      else
        let x := dieOff die d m
        ((x.1.finish h stOk [], x.2), some a)

/-- DIE_POWER. -/
def execDiePower (ch : Fin 8) (s : State) : Host.Outcome State Fault Refusal :=
  commandLater 0x0113 ch (diePower ch.val) s

/-- PWR_SENSE (R761): the scale and offset of every rail stream follow. -/
def pwrSense (r : Request) (d : Device) : Device × Reply :=
  let gain := r.u 4 4
  let off := r.i 8 4
  let d := { d with pwr := { d.pwr with
    senseOn := r.u 0 1 == 1, senseVcore := r.u 2 2, senseGain := gain, senseOffset := off } }
  let d := (List.range 8).foldl (fun (d : Device) k => d.updSfe (railStream k) fun x => { x with
    engScale := toFp32 ((Num.ofInt (5 * gain)).scale (-17))
    engOffset := toFp32 ((Num.ofInt (-(off * gain))).scale (-32)) }) d
  (d, ans stOk)

/-- PWR_SENSE. -/
def execPwrSense (ch : Fin 8) (s : State) : Host.Outcome State Fault Refusal := command 0x0114 ch pwrSense s

/-- PART_RESET (R738, R759): it answers when the domain is back. Also R36, R62. -/
def partReset (ch : Nat) (r : Request) (d : Device) (m : Store) : (Device × Store) × Option Reply :=
  let die := r.u 0 1
  let dom := r.u 1 1
  if d.domainPending die dom then ((d, m), none)
  else if !d.domainOn die dom then ((d, m), some (ans stBadState))
  else
    let x := domainOff die dom d m
    ((x.1.domainReturn die dom (some ch), x.2), none)

/-- PART_RESET. -/
def execPartReset (ch : Fin 8) (s : State) : Host.Outcome State Fault Refusal :=
  commandLater 0x0504 ch (partReset ch.val) s

/-- DIE_RESET (R740): off and on again, and the die's EVT_FAULTDIE bits clear. -/
def dieReset (ch : Nat) (r : Request) (d : Device) (m : Store) : (Device × Store) × Option Reply :=
  let die := r.u 0 1
  if d.dieKept die then ((d, m), some (ans stBadState))
  else if d.dieBusy die then ((d, m), none)
  else
    match d.mbx.newHandle ch r.op with
    | none => ((d, m), some (ans stNoResource))
    | some (h, mb) =>
      let x := dieOff die { d with mbx := mb } m
      let off := ~~~ BitVec.twoPow 8 die
      let d := { x.1 with evt := { x.1.evt with faultCp := x.1.evt.faultCp &&& off, faultTb := x.1.evt.faultTb &&& off } }
      ((d.dieOnStart die h, x.2), some ⟨stAccepted, false, leBytes 4 h, true, some h⟩)

/-- DIE_RESET. DEDUCED: log entry 40. -/
def execDieReset (ch : Fin 8) (s : State) : Host.Outcome State Fault Refusal :=
  commandLater 0x0505 ch (dieReset ch.val) s

/-! ## Events of power -/

/-- DOMAIN_POWER_GOOD (R754): a domain switched on or reset returns. -/
def execDomainPowerGood (die : Fin 8) (domain : Fin 12) (s : State) : Host.Outcome State Fault Refusal :=
  onDev (fun d => if d.domainPending die.val domain.val then d.domainBack die.val domain.val else d) s

/-- DIE_POWER_ON_DONE (R757), with the engines and units whose known-answer slices disagree. -/
def execDiePowerOnDone (die : Fin 8) (engines units : List Nat) (s : State) : Host.Outcome State Fault Refusal :=
  onDev (fun d => if d.pwr.pendingOn.getLsbD die.val then dieBack die.val engines units d else d) s

/-! ## The limiter (R760 to R765) -/

/-- One evaluation of the caps (R762, R764), in MHz, for an estimate and a limit in mW. -/
def Power.limiter (p : Power) (fMax est limit : Nat) : Power :=
  if limit < est then
    let p := if p.cOther ≤ 400 && p.cTick ≤ 400 then { p with atFloor := min 0xFFFFFFFF (p.atFloor + 1) } else p
    if 400 < p.cOther then { p with cOther := max 400 (p.cOther - 100), lowRun := 0 }
    else { p with cTick := max 400 (p.cTick - 100), lowRun := 0 }
  else if est * 100 ≤ 97 * limit then
    if 10 ≤ p.lowRun + 1 then
      if p.cTick < fMax then { p with cTick := p.cTick + 25, lowRun := 0 }
      else { p with cOther := min fMax (p.cOther + 25), lowRun := 0 }
    else { p with lowRun := p.lowRun + 1 }
  else p

/-- Whether a cluster's group cap holds it below the grade limit. -/
def Device.capped (d : Device) (c : Nat) : Bool :=
  (if d.jobs.profile.reserved.any (fun r => r.1 == c) then d.pwr.cTick else d.pwr.cOther) < d.fuse.clockMHz

/-- One evaluation (R760 to R765), at the next whole multiple of 10 µs, with the modelled uncore and core powers in mW.
DESIGN CHOICE: log entry 38. -/
def Device.limiterEval (d : Device) (uncore : Nat) (cores : List Nat) : Device :=
  let d := d.advanceToDev ((d.time.ns16 / (10000 * oneNs) + 1) * (10000 * oneNs))
  let dies := (List.range 8).filter fun k => d.pwr.dieOn.getLsbD k
  let valid := dies.filter d.senseValid
  let amps := fun (k : Nat) => railCurrent (d.sfeS (railStream k)).last d.pwr.senseOffset d.pwr.senseGain
  let core := fun (k : Nat) =>
    let sensed := if valid.elem k then (rne (amps k * d.pwr.senseVcore) (2 ^ 64)).toNat else 0
    max (cores.getD k 0) sensed
  let est := uncore + (dies.map core).sum
  let p := d.pwr.limiter d.fuse.clockMHz est (d.pwr.limit * 1000)
  let d' := { d with pwr := { p with
    est := min 0xFFFFFFFF est
    sensed := valid.foldl (fun b k => b ||| BitVec.twoPow 8 k) 0
    current := valid.map fun k => (k, min 0xFFFFFFFF (rne (amps k * 1000) (2 ^ 64)).toNat) } }
  let d' := dies.foldl (fun (x : Device) k =>
    if (List.range 8).any fun c => x.domainOn k c && x.capped (8 * k + c) then x.diagAdd k 0x0A0 0 32 1 else x) d'
  d'.capEvents d

/-- Whether the limiter and the thermal shutdown act: from the start of CLOCKS, and not after a shutdown (R109, R768). -/
def Device.powerRuns (d : Device) : Bool := d.boot.used.elem 4 && !d.pkg.shutdown

/-- LIMITER_EVAL (R762). DESIGN CHOICE: log entry 38. -/
def execLimiterEval (uncore : Nat) (cores : List Nat) (s : State) : Host.Outcome State Fault Refusal :=
  onDev (fun d => if d.powerRuns then d.limiterEval uncore cores else d) s

/-! ## Heat (R766, R767) -/

/-- The highest cluster clock of a die. -/
def Device.dieClock (d : Device) (die : Nat) : Nat :=
  (List.range 8).foldl (fun m c => if d.domainOn die c then max m (d.clusterClock (8 * die + c)) else m) 0

/-- DIAG_TJ_PEAK (R770): bit 16 marks that a sample came since the last read. -/
def Device.tjPeak (d : Device) (die : Nat) (tj : Int) : Device :=
  let w := d.diagWord die 0x0A8
  let peak := if bit w 16 then max tj (signed 16 (w % 65536)) else tj
  { d with diag := d.diag.put (die * 128 + 42) (65536 + unsigned 16 peak) }

/-- The cap of a throttled die after one more millisecond (R767). Also R5. -/
def capStep (tj : Int) (grade cap : Nat) : Nat :=
  if 1150 ≤ tj then max 400 (cap - 100) else if tj < 1120 then min grade (cap + 25) else cap

/-- The throttle state of a die at its new junction temperature, in 0.1 °C (R767). -/
def Device.throttleDie (d : Device) (die : Nat) (tj : Int) : Device :=
  let grade := d.fuse.clockMHz
  let b := BitVec.twoPow 8 die
  if !d.pwr.throttle.getLsbD die then
    if 1150 ≤ tj then
      ({ d with pwr := { d.pwr with
        throttle := d.pwr.throttle ||| b, cap := d.pwr.cap.put die (max 400 (d.dieClock die - 100))
        throttleAt := d.pwr.throttleAt.put die d.time.now } }).event 0x0032 8 die 1 (unsigned 32 tj)
    else d
  else
    let since := d.pwr.throttleAt.getD die 0
    let n := (d.time.now - since) / oneMs
    let d := d.diagAdd die 0x0A4 0 32 n
    let cap := (List.range (min n 100)).foldl (fun c _ => if c = grade then c else capStep tj grade c) (d.pwr.cap.getD die 0)
    if 0 < n && cap = grade then
      ({ d with pwr := { d.pwr with throttle := d.pwr.throttle &&& ~~~ b, cap := d.pwr.cap.del die } }).event
        0x0032 8 die 0 (unsigned 32 tj)
    else { d with pwr := { d.pwr with
      cap := d.pwr.cap.put die cap, throttleAt := d.pwr.throttleAt.put die (since + n * oneMs) } }

/-- One sampling of the junction sensors, at the next whole multiple of 100 µs (R766, R767); 130.0 °C on any die shuts the
package down. -/
def thermalEval (tj : List Int) (d : Device) (m : Store) : Device × Store :=
  let d := d.advanceToDev ((d.time.ns16 / (100000 * oneNs) + 1) * (100000 * oneNs))
  let dies := (List.range 8).filter fun k => d.pwr.dieOn.getLsbD k && k < tj.length
  let t := fun (k : Nat) => tj.getD k 0
  let d' := dies.foldl (fun (x : Device) k =>
    let x := { x with pwr := { x.pwr with tj := x.pwr.tj.put k (t k), tjValid := x.pwr.tjValid ||| BitVec.twoPow 8 k } }
    (x.tjPeak k (t k)).throttleDie k (t k)) d
  let d' := d'.capEvents d
  match dies.find? fun k => decide (1300 ≤ t k) with
  | some k => shutdown 1 k d' m
  | none => (d', m)

/-- THERMAL_EVAL (R767), with the highest junction temperature of each die. -/
def execThermalEval (tj : List Int) (s : State) : Host.Outcome State Fault Refusal :=
  onBoth (fun d m => if d.powerRuns then thermalEval tj d m else (d, m)) s

/-! ## Clock failures (R753) -/

/-- PLL_LOCK_LOSS (R753): islands as DETAIL of PLL_LOCK codes them (R97), 11 the SFE shell, 12 the fabric. The cause a lead
fabric failure logs is stated nowhere: a free value. DESIGN CHOICE: log entry 41. Also R59. -/
def pllLoss (die island : Nat) (d : Device) (m : Store) : Device × Store :=
  if !d.boot.pll || !d.pwr.dieOn.getLsbD die then (d, m)
  else if island < 12 then
    if !d.domainOn die island then (d, m) else
      let d := d.outsideFault 0x0B (domSource island) die 0 none 0
      let (d, m) := domainOff die island d m
      (d.domainReturn die island none, m)
  else if die = d.lead then
    let w := (d.freeWord 40).toNat
    shutdown 2 die (d.tickFree.outsideFault (w % 256) (w / 256 % 13) die 0 none 0) m
  else (d.cpFault die 10, m)

/-- PLL_LOCK_LOSS. DESIGN CHOICE: log entry 73. -/
def execPllLockLoss (die : Fin 8) (island : Fin 13) (s : State) : Host.Outcome State Fault Refusal :=
  onBoth (pllLoss die.val island.val) s

/-- REF_CLOCK_LOSS (R753): 0 the 25 MHz reference, 1 the 38.4 MHz one of a die, 2 the 156.25 MHz one. The cause and source its
log entry carries are stated nowhere: free values. DESIGN CHOICE: log entry 41. -/
def refLoss (ref die : Nat) (d : Device) (m : Store) : Device × Store :=
  if !d.boot.pll then (d, m) else
    let w := (d.freeWord 40).toNat
    let d := d.tickFree.outsideFault (w % 256) (w / 256 % 13) (if ref = 1 then die else d.lead) 0 none 0
    if ref = 0 then shutdown 2 d.lead d m
    else if ref = 1 then
      let d := { d with pwr := { d.pwr with ref38 := d.pwr.ref38 &&& ~~~ BitVec.twoPow 8 die } }
      let d := if die < 2 then d.txDown die true else d
      (d.streamsDown, m)
    else (({ d with pwr := { d.pwr with ref156 := false } }).streamsDown.select false, m)

/-- REF_CLOCK_LOSS. -/
def execRefClockLoss (ref : Fin 3) (die : Fin 8) (s : State) : Host.Outcome State Fault Refusal :=
  onBoth (refLoss ref.val die.val) s

/-! ## Routers, links and control processors -/

/-- FLIT_PARITY_ERROR (R725): a router of a die drops a flit; the requester that waits gets an error completion of cause
PARITY. `job` names the job of a requester other than a unit, 0 outside any job. -/
def execFlitParityError (die : Fin 8) (requester job : Nat) (addr : Option Nat) (s : State) :
    Host.Outcome State Fault Refusal :=
  onDev (fun d =>
    if !d.pwr.dieOn.getLsbD die.val then d else
      let d := d.diagAdd die.val 0x0F8 0 32 1
      let hit := fun (d : Device) (id : Nat) =>
        if id = 0 then d.outsideFault 0x08 8 die.val 0 addr 0 else d.jobFault id 0x08 8 die.val 0 addr 0
      if requester < 1088 then
        let u := d.unit requester
        if u.tags = 0 then d else
          let c := requester / 17
          let d := d.updUnit requester fun u => { u with tags := u.tags - 1 }
          hit (d.updCluster c fun k => { k with held := k.held - 1 }) u.job
      else hit d job) s

/-- LINK_CRC_ERROR (R726, R735): the die at one end of a link replays a flit. -/
def execLinkCrcError (link : Fin 10) (far : Bool) (s : State) : Host.Outcome State Fault Refusal :=
  onDev (fun d =>
    let e := linkEnds link.val
    let die := if far then e.2 else e.1
    if linkState d.view d.pwr.dieOn link.val < 2 then d.diagAdd die (0x0E8 + 4 * linkSite link.val die) 0 16 1 else d) s

/-- LINK_RETRAIN (R68, R726, R735, R838): the link runs at x16 (0) or x8 (1), or is disabled (2); then the jobs whose flits its
replay buffers hold get error completions of cause LINK. -/
def execLinkRetrain (link : Fin 10) (state : Fin 3) (held : List Nat) (s : State) : Host.Outcome State Fault Refusal :=
  onDev (fun d =>
    let n := link.val
    let e := linkEnds n
    let old := linkState d.view d.pwr.dieOn n
    if 2 ≤ old then d else
      let d := d.diagAdd e.1 (0x0E8 + 4 * linkSite n e.1) 16 16 1
      let d := d.diagAdd e.2 (0x0E8 + 4 * linkSite n e.2) 16 16 1
      let d := { d with view := { d.view with trained := d.view.trained.put n state.val } }
      let new := linkState d.view d.pwr.dieOn n
      let d := if new ≠ old then d.defectEvent (min e.1 e.2) n 3 else d
      if new = 2 then
        held.foldl (fun (d : Device) id => d.jobFault id 0x09 9 (min e.1 e.2) n none n) d
      else d) s

/-- CP_WATCHDOG (R736): no service within 10 ms. -/
def execCpWatchdog (die : Fin 8) (s : State) : Host.Outcome State Fault Refusal :=
  onDev (fun d => if d.boot.cpRunning.getLsbD die.val && d.pwr.dieOn.getLsbD die.val && d.boot.fwStarted then
    d.cpFault die.val 10 else d) s

/-- CP_SRAM_UE (R736): an uncorrectable error in CP SRAM (0), the tag table (1), router buffers (2) or MSC tags (3), which also
makes the die's buffers LOST. -/
def execCpSramUe (die : Fin 8) (place : Fin 4) (s : State) : Host.Outcome State Fault Refusal :=
  onDev (fun d =>
    if !d.pwr.dieOn.getLsbD die.val then d else
      let d := if place = 3 then { d with memsys := d.memsys.loseDie die.val } else d
      let d := d.cpFault die.val (if place = 3 then 12 else if place = 2 then 8 else 10)
      if place = 3 then d.faultAll 0x0D 10 die.val (d.jobsIn fun j => d.grantsLost j) else d) s

/-! ## Counters -/

/-- DIAG_LATCH (R173): the summaries are latched, and the oldest DIAG_COLLECT completes with them. -/
def execDiagLatch (s : State) : Host.Outcome State Fault Refusal :=
  onDev (fun d =>
    match d.mbx.diagHandle with
    | [] => d
    | h :: hs => ({ d with mbx := { d.mbx with diagHandle := hs } }).finish h stOk d.summary) s

end Sys2Proof.Machine
end

