-- ==== Sys2Proof/Machine/Security.lean ====
section
/-! DEFINITION. Firmware trust, identity and attestation (R796 to R818): the security commands and the operations of the boot
crypto block, which it serves one at a time in their order. -/

namespace Sys2Proof.Machine

/-! ## Security state -/

/-- DEBUG of BOOT_SEC_STATE: 0 closed, 1 open by an unlock record, 2 open because the production fuse is not blown. -/
def Device.debugState (d : Device) : Nat := if !d.fuse.production then 2 else if d.sec.scopes ≠ 0 then 1 else 0

/-- The open debug scopes (R815, R817). -/
def Device.scopes (d : Device) : BitVec 3 := if d.fuse.production then d.sec.scopes else 7

/-- The revocation bitmap (R803). -/
def Fuses.revokedMap (f : Fuses) : Nat := (List.range 4).foldl (fun n k => n + b2n (f.revoked k) * 2 ^ k) 0

/-- BOOT_SEC_STATE. -/
def Device.secState (d : Device) : Nat :=
  let prog := (List.range 4).foldl (fun n k => n + b2n (d.fuse.slot k).programmed * 2 ^ k) 0
  d.debugState * 2 ^ 24 + d.fuse.revokedMap * 2 ^ 20 + prog * 2 ^ 16
    + (if d.sec.verified then d.sec.slot * 4096 + 2048 else 0) + d.fuse.rollbackCount

/-- SEC_STATUS (R818). -/
def execSecStatus (ch : Fin 8) (s : State) : Host.Outcome State Fault Refusal :=
  query 0x1000 ch (fun _ d =>
    ans stOk (leBytes 4 d.secState ++ leBytes 1 d.sec.secVer ++ zeros 3 ++ leBytes 4 d.sec.imgVer ++ d.sec.fwDigest
      ++ d.sec.cfgDigest ++ d.sec.defectDigest)) s

/-- RSA_E as the spec's octet string: 65,537 (R798). -/
def rsaE : List Byte := [0, 1, 0, 1]

/-- ID_INFO (R810). -/
def execIdInfo (ch : Fin 8) (s : State) : Host.Outcome State Fault Refusal :=
  query 0x1001 ch (fun _ d =>
    let f := d.fuse
    ans stOk (leBytes 8 f.serial.toNat ++ f.idRsaN ++ rsaE ++ f.idSlhPk ++ sha384 (f.idRsaN ++ rsaE)
      ++ sha384 f.idSlhPk)) s

/-! ## Commands that wait for the crypto block -/

/-- The handle of a crypto operation. -/
def CryptoOp.handle (o : CryptoOp) : Nat :=
  match o with
  | .attest h _ => h
  | .update h _ _ _ => h
  | .rollback h => h
  | .revoke h _ _ => h
  | .unlock h _ _ => h

/-- Whether an operation is an attestation. -/
def CryptoOp.isAttest (o : CryptoOp) : Bool := match o with | .attest _ _ => true | _ => false

/-- An operation takes its place behind those accepted before it (R796). -/
def Device.cryptoPut (d : Device) (o : CryptoOp) : Device := { d with sec := { d.sec with ops := d.sec.ops ++ [o] } }

/-- Bytes 0 to 255 of a report (R814), as they stand now. -/
def Device.reportHead (d : Device) (nonce : List Byte) : List Byte :=
  [0x4B#8, 0x52#8, 0x41#8, 0x54#8] ++ leBytes 2 1 ++ leBytes 2 (d.debugState + 4 * b2n (!d.boot.soft.isEmpty))
    ++ leBytes 8 d.fuse.serial.toNat ++ leBytes 4 d.fuse.gradeWord.toNat ++ leBytes 1 d.sec.secVer ++ leBytes 1 d.sec.slot
    ++ leBytes 1 d.fuse.rollbackCount ++ leBytes 1 d.fuse.revokedMap ++ leBytes 16 d.stamp.toNat ++ fit 32 nonce
    ++ d.sec.fwDigest ++ d.sec.cfgDigest ++ d.sec.defectDigest ++ leBytes 4 d.sec.imgVer
    ++ leBytes 4 (d.sec.reportSeq + 1) ++ zeros 32

/-- ATTEST (R813): the report is fixed at acceptance. -/
def attestCmd (ch : Nat) (r : Request) (d : Device) : Device × Reply :=
  if !d.boot.ready then (d, ans stBadState)
  else if 4 ≤ (d.sec.ops.filter (·.isAttest)).length then (d, ans stNoResource)
  else accept r ch d fun h d =>
    let d := d.cryptoPut (.attest h (d.reportHead r.body))
    { d with sec := { d.sec with reportSeq := d.sec.reportSeq + 1 } }

/-- ATTEST. -/
def execAttest (ch : Fin 8) (s : State) : Host.Outcome State Fault Refusal := command 0x1002 ch (attestCmd ch.val) s

/-- Whether one of the operations of R806 is active. -/
def Device.trustBusy (d : Device) : Bool := d.sec.ops.any fun o => !o.isAttest

/-- FW_UPDATE (R808): the image stands in a READY host buffer. -/
def fwUpdateCmd (ch : Nat) (r : Request) (d : Device) : Device × Reply :=
  if !d.boot.ready then (d, ans stBadState)
  else if !d.hostRange (r.u 0 4) (r.u 8 8) 12 then (d, ans stBadField)
  else if d.trustBusy then (d, ans stBadState)
  else
    match d.buf (r.u 0 4) with
    | none => (d, ans stBadField)
    | some b =>
      if b.lost then (d, ans stNoResource)
      else if d.bufHeld (r.u 0 4) b then (d, ans stBadState)
      else accept r ch d fun h d => d.cryptoPut (.update h (r.u 0 4) (r.u 8 8) (r.u 16 2))

/-- FW_UPDATE. -/
def execFwUpdate (ch : Fin 8) (s : State) : Host.Outcome State Fault Refusal := command 0x1003 ch (fwUpdateCmd ch.val) s

/-- SEC_ROLLBACK (R804, R806). -/
def execSecRollback (ch : Fin 8) (s : State) : Host.Outcome State Fault Refusal :=
  command 0x1004 ch (fun r d =>
    if d.trustBusy || d.hot then (d, ans stBadState) else accept r ch.val d fun h d => d.cryptoPut (.rollback h)) s

/-- Whether a record of `n` bytes stands in a buffer at an offset. -/
def Device.recordIn (d : Device) (id off n : Nat) : Bool :=
  match d.buf id with
  | some b => !b.lost && decide (off + n ≤ b.size)
  | none => false

/-- Bytes of a revocation record and of an unlock record (R805, R817). -/
def revokeLen : Nat := 16672
def unlockLen : Nat := 17120

/-- SEC_REVOKE (R805, R806). -/
def execSecRevoke (ch : Fin 8) (s : State) : Host.Outcome State Fault Refusal :=
  command 0x1005 ch (fun r d =>
    if !d.boot.ready then (d, ans stBadState)
    else if !d.recordIn (r.u 0 4) (r.u 8 8) revokeLen then (d, ans stBadField)
    else if d.trustBusy || d.hot then (d, ans stBadState)
    else accept r ch.val d fun h d => d.cryptoPut (.revoke h (r.u 0 4) (r.u 8 8))) s

/-- DEBUG_CHALLENGE (R797, R816): 32 fresh random bytes. -/
def execDebugChallenge (ch : Fin 8) (s : State) : Host.Outcome State Fault Refusal :=
  command 0x1006 ch (fun _ d =>
    if d.sec.health then (d, ans stFailed) else
      let c := d.freeBytes 52 32
      ({ d.tickFree with sec := { d.sec with challenge := some c } }, ans stOk c)) s

/-- DEBUG_UNLOCK (R806, R817). -/
def execDebugUnlock (ch : Fin 8) (s : State) : Host.Outcome State Fault Refusal :=
  command 0x1007 ch (fun r d =>
    if !d.boot.ready then (d, ans stBadState)
    else if !d.recordIn (r.u 0 4) (r.u 8 8) unlockLen then (d, ans stBadField)
    else if d.trustBusy then (d, ans stBadState)
    else accept r ch.val d fun h d => d.cryptoPut (.unlock h (r.u 0 4) (r.u 8 8))) s

/-! ## What the block does -/

/-- An attestation ends (R797, R813): the report with both signatures over it. DESIGN CHOICE: log entry 56. -/
def Device.attestDone (d : Device) (h : Nat) (head : List Byte) : Device :=
  if d.sec.health then d.finish h stFailed []
  else d.tickFree.finish h stOk (head ++ (List.range 384).map (Config.identitySignature 0 d.free)
    ++ (List.range 16224).map (Config.identitySignature 1 d.free))

/-- The result of FW_UPDATE. -/
def updateResult (code detail len : Nat) : List Byte := leBytes 1 code ++ zeros 1 ++ leBytes 2 detail ++ leBytes 4 len

/-- Steps 2 to 4 of R808: the covered sectors erased, then programmed. With `fail`, the sector that fails, counted from the
image's first, holds free values and those after it stay erased. -/
def flashWrite (base : Nat) (img : List Byte) (fail : Option Nat) (d : Device) (m : Store) : Store :=
  let n := (img.length + 65535) / 65536
  let clean := m.flash.clear base (n * 65536)
  match fail with
  | none => { m with flash := Cells.writeAll 0xFF#8 clean base img }
  | some k => { m with flash := Cells.writeAll 0xFF#8 clean base (img.take (k * 65536) ++ d.freeBytes 53 65536) }

/-- FW_UPDATE is done (R808). With `fail` the sector of a failed erase, program or read-back, or of a cancel's stop. -/
def updateDone (h buf off ofs : Nat) (fail : Option Nat) (cancel : Bool) (d : Device) (m : Store) : Device × Store :=
  let size := ((d.buf buf).map (·.size)).getD 0
  let base := ofs * 65536
  match d.bufRead m buf off 12 with
  | .error e => ((d.logAccess 10 e).finish h stFailed (updateResult 0 0 0), m)
  | .ok head =>
    match headerCheck head with
    | .error c => (d.finish h stBadField (updateResult c 0 0), m)
    | .ok len =>
      if size < off + len then (d.finish h stBadField (updateResult 0x32 0 0), m) else
        match d.bufRead m buf off len with
        | .error e => ((d.logAccess 10 e).finish h stFailed (updateResult 0 0 len), m)
        | .ok img =>
          match verifyImage d.fuse img with
          | some (c, x) => (d.finish h stAuth (updateResult c x len), m)
          | none =>
            if m.flashSize.getD 0 < base + len then (d.finish h stNoResource (updateResult 0x30 0 len), m)
            else
              match fail with
              | none =>
                if cancel then (d.finish h stCancelled (updateResult 0 0 len), m)
                else (d.finish h stOk (updateResult 0 0 len), flashWrite base img none d m)
              | some k =>
                let k := k % ((len + 65535) / 65536)
                let m := flashWrite base img (some k) d m
                if cancel then (d.tickFree.finish h stCancelled (updateResult 0 0 len), m)
                else (d.tickFree.finish h stFailed (updateResult 0x34 (ofs + k) len), m)

/-- Three fuse copies after a blow that reads back wrong twice (R803): which of them took it is open, but no majority did. -/
def Device.badCopies (d : Device) : BitVec 3 := BitVec.ofNat 3 ([0, 1, 2, 4].getD ((d.freeWord 54).toNat % 4) 0)

/-- Rollback steps blown in ascending order, up to one that fails (R803, R804). -/
def Device.blowSteps (d : Device) (fail : Option Nat) : List Nat → Device × Bool
  | [] => (d, true)
  | i :: is =>
    let set := fun (d : Device) (v : BitVec 3) =>
      { d with fuse := { d.fuse with rollback := d.fuse.rollback.put i v } }
    if fail = some i then (set d.tickFree d.badCopies, false) else (set d 7).blowSteps fail is

/-- SEC_ROLLBACK is done (R804, R807). -/
def Device.rollbackDone (d : Device) (h : Nat) (fail : Option Nat) : Device :=
  let n := d.fuse.rollbackCount
  let (d, ok) := d.blowSteps fail ((List.range (d.sec.secVer - n)).map (n + ·))
  d.finish h (if ok then stOk else stFailed) (leBytes 1 d.fuse.rollbackCount ++ zeros 3)

/-- Both signatures of a record over its first 64 bytes (R800). DEDUCED: log entry 54. -/
def recordSigned (rsaN slhPk rec_ : List Byte) (at_ : Nat) : Bool :=
  let v := verifyPair rsaN slhPk (imgBytes rec_ 0 64) (imgBytes rec_ at_ 384) (imgBytes rec_ (at_ + 384) 16224)
  v.1 && v.2

/-- The ring status of a revocation record, none when the slot is to be marked (R805). DEDUCED: log entry 54. -/
def Device.revokeStatus (d : Device) (rec_ : List Byte) : Option Nat :=
  let f := imgField rec_
  let slot := f 6 1
  if imgBytes rec_ 0 4 ≠ [0x4B#8, 0x52#8, 0x52#8, 0x56#8] || f 4 2 ≠ 1 || 3 < slot || 3 < f 7 1 || f 16 48 ≠ 0
      || slot = f 7 1 then some stBadField
  else if f 7 1 ≠ d.sec.slot || (f 8 8 ≠ 0 && f 8 8 ≠ d.fuse.serial.toNat)
      || !recordSigned d.sec.rsaN d.sec.slhPk rec_ 64 then some stAuth
  else if d.fuse.revoked slot then some stOk
  else none

/-- SEC_REVOKE is done (R803, R805, R807). -/
def Device.revokeDone (d : Device) (m : Store) (h buf off : Nat) (fail : Option Nat) : Device :=
  match d.bufRead m buf off revokeLen with
  | .error e => (d.logAccess 10 e).finish h stFailed []
  | .ok rec_ =>
    match d.revokeStatus rec_ with
    | some st => d.finish h st []
    | none =>
      let k := imgField rec_ 6 1
      let v := if fail.isSome then d.badCopies else 7
      ({ d.tickFree with fuse := { d.fuse with slots := d.fuse.slots.put k { d.fuse.slot k with revoked := v } } }).finish h
        (if fail.isSome then stFailed else stOk) []

/-- Whether an unlock record opens its scope (R817). -/
def Device.unlockOk (d : Device) (rec_ : List Byte) : Bool :=
  let f := imgField rec_
  let k := f 6 1
  let rsaN := imgBytes rec_ 64 384
  let slhPk := imgBytes rec_ 452 48
  let slot := d.fuse.slot k
  imgBytes rec_ 0 4 == [0x4B#8, 0x52#8, 0x44#8, 0x55#8] && f 4 2 == 1 && k ≤ 3 && f 7 1 != 0 && f 7 1 ≤ 7
    && f 48 16 == 0 && f 500 12 == 0 && slot.programmed && !d.fuse.revoked k && f 8 8 == d.fuse.serial.toNat
    && d.sec.challenge == some (imgBytes rec_ 16 32) && imgBytes rec_ 448 4 == rsaE
    && sha384 (imgBytes rec_ 64 388) == slot.rsaDigest && sha384 slhPk == slot.slhDigest
    && recordSigned rsaN slhPk rec_ 512

/-- DEBUG_UNLOCK is done (R816, R817): the challenge is cleared whatever the outcome, as it is by a cancelled attempt.
DEDUCED: log entry 55. -/
def Device.unlockDone (d : Device) (m : Store) (h buf off : Nat) : Device :=
  let clear := fun (d : Device) => { d with sec := { d.sec with challenge := none } }
  match d.bufRead m buf off unlockLen with
  | .error e => (clear (d.logAccess 10 e)).finish h stFailed []
  | .ok rec_ =>
    if d.debugState = 2 then (clear d).finish h stOk []
    else if d.unlockOk rec_ then
      let c := clear d
      ({ c with sec := { c.sec with scopes := c.sec.scopes ||| BitVec.ofNat 3 (imgField rec_ 7 1) } }).finish h stOk []
    else (clear d).finish h stAuth []

/-- The operation at the front of the block ends (R796, R172). DEDUCED: log entry 55. -/
def cryptoDone (fail : Option Nat) (d : Device) (m : Store) : Device × Store :=
  match d.sec.ops with
  | [] => (d, m)
  | o :: os =>
    let d := { d with sec := { d.sec with ops := os } }
    let cancel := ((d.mbx.handles.look o.handle).map (·.cancel)).getD false
    match o with
    | .update h buf off ofs => updateDone h buf off ofs fail cancel d m
    | .attest h head => (if cancel then d.finish h stCancelled [] else d.attestDone h head, m)
    | .rollback h => (if cancel then d.finish h stCancelled (leBytes 1 d.fuse.rollbackCount ++ zeros 3)
        else d.rollbackDone h fail, m)
    | .revoke h buf off => (if cancel then d.finish h stCancelled [] else d.revokeDone m h buf off fail, m)
    | .unlock h buf off => (if cancel then
          ({ d with sec := { d.sec with challenge := none } }).finish h stCancelled []
        else d.unlockDone m h buf off, m)

/-- CRYPTO_OP_DONE (R796), with the flash sector or the fuse step that fails. -/
def execCryptoOpDone (fail : Option Nat) (s : State) : Host.Outcome State Fault Refusal := onBoth (cryptoDone fail) s

/-- HEALTH_TEST_FAILURE (R797). -/
def execHealthTestFailure (s : State) : Host.Outcome State Fault Refusal :=
  onDev (fun d => { d with sec := { d.sec with health := true } }) s

end Sys2Proof.Machine
end

