-- ==== Sys2Proof/Machine/Registers.lean ====
section
/-! DEFINITION. The control space (R18, R82, R87, R143 to R150, R181): what every register reads, what a read clears, what a
write does, and private transfers, malformed ones among them. -/

namespace Sys2Proof.Machine

/-! ## What a register reads -/

/-- The windows of R147. -/
inductive Window where
  | boot
  | defect
  | evt
  | time
  | mbx
  | diag
  | fwwin
  deriving DecidableEq, Repr

/-- The window an address lies in (R147). -/
def windowOf (a : Nat) : Option Window :=
  if a < 0x1000 then some .boot
  else if a < 0x2000 then some .defect
  else if a < 0x3000 then some .evt
  else if a < 0x4000 then some .time
  else if 0x10000 ≤ a && a < 0x20000 then some .mbx
  else if 0x30000 ≤ a && a < 0x40000 then some .diag
  else if 0x40000 ≤ a && a < 0x2040000 then some .fwwin
  else none

/-- Whether a window answers (R87, R768). -/
def Device.windowOpen (d : Device) (w : Window) : Bool :=
  match w with
  | .time => d.windowsOpen
  | .mbx => d.windowsOpen
  | .diag => d.windowsOpen
  | _ => true

/-- Codes of BOOT_STATUS.STATE. -/
def BootState.code (b : BootState) : Nat :=
  match b with
  | .idle => 0
  | .busy => 1
  | .done => 2
  | .failed => 3
  | .waitData => 4

/-- BOOT_CFG. -/
def Boot.cfgWord (b : Boot) : Nat := b2n b.ibiEn * 32 + b.lpRate * 4 + b.fwSrc * 2 + b2n b.noDefault

/-- The status of a training item (R112): an item of a powered-off die reads DISABLED. -/
def Device.trainStatus (d : Device) (i : Nat) : Nat :=
  let up := fun k => d.pwr.dieOn.getLsbD k
  let on := if i < 16 then up (i / 2)
    else if i < 26 then up (linkEnds (i - 16)).1 && up (linkEnds (i - 16)).2
    else if i < 42 then up ((i - 26) / 2)
    else if i < 44 then up (i - 42)
    else up ((i - 44) / 2)
  if on then d.boot.train.getD i 0 else 6

/-- Eight four-bit fields of a word. -/
def nibbles (f : Nat → Nat) : Nat := (List.range 8).foldl (fun n j => n + f j % 16 * 16 ^ j) 0

/-- Registers of the BOOT window; none where no register is (R82, R90, R105, R106, R111, and the tables of chapter 21). -/
def Device.bootReg (d : Device) (a : Nat) : Option Nat :=
  let b := d.boot
  if a = 0x000 then some 0
  else if a = 0x004 then some (b2n b.ready * 2 ^ 31 + b2n b.refused * 2 ^ 30 + b.state.code * 2 ^ 24 + b.step * 256 + b.lastDone)
  else if a = 0x008 then some b.fail.toNat
  else if a = 0x00C then some b.cfgWord
  else if a = 0x010 then some b.failExt.toNat
  else if a = 0x014 then some b.fwPtr
  else if a = 0x018 then some b.fwLen
  else if a = 0x01C then some (b.fwOfs * 65536)
  else if a = 0x020 then some (b.memRate * 1024 + b.memCap)
  else if a = 0x024 then some (b2n b.softOverflow * 2 ^ 31 + b.soft.length)
  else if a = 0x028 then some 0
  else if 0x040 ≤ a && a < 0x058 then some (nibbles fun j => d.trainStatus ((a - 0x040) * 2 + j))
  else if 0x100 ≤ a && a < 0x500 then some ((b.soft[(a - 0x100) / 4]?.map (·.word.toNat)).getD 0)
  else if 0x500 ≤ a && a < 0x540 then
    some ((List.range 16).foldl (fun n j =>
      n + ((b.soft[(a - 0x500) * 4 + j]?.map (·.origin)).getD 0) % 4 * 4 ^ j) 0)
  else if a = 0xE00 then some d.secState
  else if a = 0xE04 then some d.sec.secVer
  else if a = 0xE08 then some d.sec.imgVer
  else if 0xE40 ≤ a && a < 0xE70 then some (leNat ((d.sec.fwDigest.drop (a - 0xE40)).take 4))
  else if a = 0xF00 then some 0x0A3E0860
  else if a = 0xF04 then some (d.fuse.substrate.toNat * 65536 + d.fuse.major.toNat * 256 + d.fuse.minor.toNat)
  else if a = 0xF08 then some d.fuse.gradeWord.toNat
  else if a = 0xF0C then some (d.pwr.dieOn.toNat * 256 + b2n (majority3 d.fuse.lead) * 8 + d.lead)
  else if a = 0xF10 then some (d.fuse.serial.toNat % 2 ^ 32)
  else if a = 0xF14 then some (d.fuse.serial.toNat / 2 ^ 32)
  else if 0xF20 ≤ a && a < 0xF60 then
    let i := d.fuse.dies.getD ((a - 0xF20) / 8) DieId.reset
    some (if a % 8 = 0 then i.lot.toNat else i.wafer.toNat * 2 ^ 24 + i.x.toNat * 65536 + i.y.toNat * 256)
  else none

/-- DEFECT_LINK. -/
def Device.defectLink (d : Device) : Nat :=
  (List.range 10).foldl (fun n k => n + linkState d.view d.pwr.dieOn k * 4 ^ k) 0

/-- Registers of the DEFECT window. -/
def Device.defectReg (d : Device) (a : Nat) : Option Nat :=
  if a < 0x1100 then some (d.defectCluster ((a - 0x1000) / 4)).toNat
  else if a = 0x1100 then some d.defectLink
  else none

/-- EVT_TEMP_d. -/
def Device.tempWord (d : Device) (k : Nat) : Nat :=
  let p := d.pwr
  b2n (p.tjValid.getLsbD k && p.dieOn.getLsbD k) * 2 ^ 31 + b2n (p.throttle.getLsbD k) * 2 ^ 30
    + p.cap.getD k 0 % 4096 * 65536 + unsigned 16 (p.tj.getD k 0)

/-- Word `k` of an entry of the violation log. -/
def VlogEntry.word (e : VlogEntry) (k : Nat) : Word :=
  match k with
  | 0 => e.w0
  | 1 => e.w1
  | 2 => e.w2
  | _ => e.w3

/-- Registers of the EVT window (R167, R175, R178, R734 and the tables of chapter 19). -/
def Device.evtReg (d : Device) (a : Nat) : Option Nat :=
  let e := d.evt
  if a = 0x2000 then some e.cause.toNat
  else if a = 0x2004 then some e.ibiEn.toNat
  else if a = 0x2008 then some (e.faultTb.toNat * 256 + e.faultCp.toNat)
  else if a = 0x2010 then some e.ringWr
  else if a = 0x2014 then some e.ringRd
  else if a = 0x2020 then some e.vlogCount
  else if a = 0x2024 then some e.vlogIdx
  else if 0x2028 ≤ a && a < 0x2038 then some (e.vlogOut.word ((a - 0x2028) / 4)).toNat
  else if 0x2040 ≤ a && a < 0x2080 then some (e.vcnt.getD ((a - 0x2040) / 4) 0)
  else if a = 0x2100 then some e.flogCount
  else if a = 0x2104 then some e.flogIdx
  else if 0x2108 ≤ a && a < 0x2124 then some (e.flogOut.words.getD ((a - 0x2108) / 4) 0).toNat
  else if 0x2200 ≤ a && a < 0x2220 then some (d.tempWord ((a - 0x2200) / 4))
  else if a = 0x2220 then
    some (min 65535 (rne d.pwr.est 100).toNat * 65536 + d.pwr.sensed.toNat * 256 + d.pwr.limit % 256)
  else if a = 0x2224 then some (d.pwr.cTick * 65536 + d.pwr.cOther)
  else if a = 0x2228 then some d.pwr.therm.toNat
  else if 0x2800 ≤ a then some ((e.ring.getD ((a - 0x2800) / 8) 0).toNat / 2 ^ (8 * (a % 8)) % 2 ^ 32)
  else none

/-- Registers of the TIME window (R226). -/
def Device.timeReg (d : Device) (a : Nat) : Option Nat :=
  let t := d.time
  if a = 0x3000 then some 0
  else if a < 0x3014 then some (t.snap.toNat / 2 ^ (8 * (a - 0x3004)) % 2 ^ 32)
  else if a = 0x3014 then
    some (t.slavePort * 65536 + t.source * 4096 + t.quality * 256 + b2n t.snapValid * 4 + t.servo.code)
  else if a = 0x3018 then some (unsigned 32 t.offset8)
  else if a = 0x301C then some (unsigned 32 t.freq)
  else if a = 0x3020 then some t.steps
  else if a = 0x3024 then some (t.gm.toNat % 2 ^ 32)
  else if a = 0x3028 then some (t.gm.toNat / 2 ^ 32)
  else none

/-- Codes of MBX_CHSTAT.STATE. -/
def ChState.code (c : ChState) : Nat :=
  match c with
  | .idle => 0
  | .busy => 1
  | .resp => 2

/-- Registers and pages of the MBX window (R150). -/
def Device.mbxReg (d : Device) (a : Nat) : Option Nat :=
  let o := (a - 0x10000) % 0x2000
  let c := d.chan ((a - 0x10000) / 0x2000)
  if o < 0xFC0 then some (c.req.field o 4)
  else if o = 0xFC0 || o = 0xFC8 then some 0
  else if o = 0xFC4 then some (c.seq * 65536 + c.store.length * 256 + c.state.code)
  else if o < 0x1000 then none
  else some (leNat ((c.resp.drop (o - 0x1000)).take 4))

/-- Registers of the DIAG window: each die's counter summary (R149). -/
def Device.diagReg (d : Device) (a : Nat) : Option Nat :=
  let off := (a - 0x30000) % 0x2000
  if off < 512 then some (d.diagRead ((a - 0x30000) / 0x2000) off) else none

/-- What a register of an open window reads; none where no register is (R148). -/
def Device.regValue (d : Device) (w : Window) (a : Nat) : Option Nat :=
  match w with
  | .boot => d.bootReg a
  | .defect => d.defectReg a
  | .evt => d.evtReg a
  | .time => d.timeReg a
  | .mbx => d.mbxReg a
  | .diag => d.diagReg a
  | .fwwin => some 0

/-! ## What a read clears (R18) -/

/-- How many low bits of a counter word are RO, and so stay (R366, R385, R649, R692). -/
def diagKept (off : Nat) : Nat :=
  if 0x100 ≤ off && off < 0x120 then 9
  else if off = 0x120 then 10
  else if off = 0x1A8 || off = 0x1AC then 24
  else if off = 0x0C0 || off = 0x0C4 || off = 0x0E4 then 32
  else 0

/-- The RC fields of a register cleared by a read that was taken whole. -/
def Device.regClear (d : Device) (w : Window) (a : Nat) : Device :=
  match w with
  | .evt =>
    if 0x2040 ≤ a && a < 0x2080 then { d with evt := { d.evt with vcnt := d.evt.vcnt.put ((a - 0x2040) / 4) 0 } } else d
  | .time => if a = 0x3014 then { d with time := { d.time with snapValid := false } } else d
  | .diag =>
    let die := (a - 0x30000) / 0x2000
    let off := (a - 0x30000) % 0x2000
    if off < 512 && d.pwr.dieOn.getLsbD die then
      { d with diag := d.diag.put (die * 128 + off / 4) (d.diagWord die off % 2 ^ diagKept off) }
    else d
  | _ => d

/-! ## What a write does -/

/-- What a word's address is to a transfer: a register of an open window, nothing (R148), or a closed window (R87). -/
inductive Place where
  | reg (w : Window) (value : Nat)
  | outside
  | closed
  deriving DecidableEq, Repr

/-- The place of a word's address. -/
def Device.placeOf (d : Device) (a : Nat) : Place :=
  match windowOf a with
  | none => .outside
  | some w =>
    if !d.windowOpen w then .closed else
      match d.regValue w a with
      | some v => .reg w v
      | none => .outside

/-- A write to an RO or RC register (R18, R181). -/
def Device.roWrite (d : Device) (a : Nat) : Device := d.violation 0 0 0x01 a

/-- A write of BOOT_STATUS: REFUSED is W1C; ones in RO fields are logged (R11, R18). -/
def Device.statusWrite (d : Device) (v : Word) : Device :=
  let d := if v.getLsbD 30 then { d with boot := { d.boot with refused := false } } else d
  if v &&& 0x8F00FFFF ≠ 0 then d.roWrite 0x004 else d

/-- Whether FW_SRC and BOOT_FWOFS are locked: FW_LOAD has used them and no failure lets it run again (R91). -/
def Boot.sourceLocked (b : Boot) : Bool := b.used.elem 6 && !(decide (b.state = .failed) && (b.step == 6 || b.step == 7))

/-- A write of BOOT_CFG (R91, R145): ignored whole when it changes a field whose step has started. DEDUCED: log entry 57. -/
def Device.cfgWrite (d : Device) (v : Word) : Device :=
  let b := d.boot
  let n := v.toNat
  let lp := bits n 2 2
  let src := bits n 1 1
  let nd := bit n 0
  if (b.used.elem 5 && lp != b.lpRate) || (b.sourceLocked && src != b.fwSrc) || (b.used.elem 10 && nd != b.noDefault) then
    d.violation 2 0 0x02 n
  else { d with boot := { b with ibiEn := bit n 5, lpRate := lp, fwSrc := src, noDefault := nd } }

/-- A write of BOOT_FWOFS (R91). DEDUCED: log entry 57. -/
def Device.ofsWrite (d : Device) (v : Word) : Device :=
  let o := v.toNat / 65536
  if d.boot.sourceLocked && o ≠ d.boot.fwOfs then d.violation 2 0 0x02 v.toNat
  else { d with boot := { d.boot with fwOfs := o } }

/-- A ring entry is consumed (R52, R165, R749): its handle stops counting once released, and an ended job of it leaves the
table. -/
def Device.consume (d : Device) (h : Nat) : Device :=
  let mbx := match d.mbx.handles.look h with
    | none => d.mbx
    | some r => { d.mbx with handles :=
        if r.released then d.mbx.handles.del h else d.mbx.handles.put h { r with consumed := true } }
  let mine := d.jobs.unread.filter fun e => e.2 == h
  { d with
    mbx := mbx
    jobs := { d.jobs with
      unread := d.jobs.unread.filter fun e => e.2 != h
      table := d.jobs.table.filter fun e => !(mine.any (fun x => x.1 == e.1) && decide (e.2.state = .ended)) } }

/-- A write of EVT_RING_RD (R169, R181). -/
def Device.ringRdWrite (d : Device) (v : Word) : Device :=
  let rd := v.toNat % 512
  let before := (d.evt.ringWr + 512 - d.evt.ringRd) % 512
  let after := (d.evt.ringWr + 512 - rd) % 512
  if 256 < after || before < after then d.violation 1 0xF 0x11 v.toNat
  else
    let d' := (List.range (before - after)).foldl (fun (x : Device) i =>
      x.consume ((d.evt.ring.getD ((d.evt.ringRd + i) % 256) 0).toNat % 2 ^ 32)) d
    { d' with evt := { d'.evt with ringRd := rd } }

/-- A write of EVT_VLOG_IDX latches an entry (R178). -/
def Device.vlogIdxWrite (d : Device) (v : Word) : Device :=
  let i := v.toNat % 256
  { d with evt := { d.evt with vlogIdx := i, vlogOut := d.evt.vlog.getD i VlogEntry.empty } }

/-- A write of EVT_FLOG_IDX latches an entry (R734). -/
def Device.flogIdxWrite (d : Device) (v : Word) : Device :=
  let i := v.toNat % 64
  { d with evt := { d.evt with flogIdx := i, flogOut := d.evt.flog.getD i FlogEntry.empty } }

/-- A write of EVT_CAUSE clears the bits written as 1. -/
def Device.causeWrite (d : Device) (v : Word) : Device :=
  { d with evt := { d.evt with cause := d.evt.cause &&& ~~~ BitVec.ofNat 13 v.toNat } }

/-- A write of EVT_IBI_EN. -/
def Device.ibiEnWrite (d : Device) (v : Word) : Device :=
  { d with evt := { d.evt with ibiEn := BitVec.ofNat 13 v.toNat } }

/-- A word written into a channel's region (R150, R151, R181). -/
def Device.mbxWrite (d : Device) (a : Nat) (v : Word) : Device :=
  let ch := (a - 0x10000) / 0x2000
  let o := (a - 0x10000) % 0x2000
  let c := d.chan ch
  if o < 0xFC0 then
    if c.state = .busy then d.violation 1 ch 0x02 o
    else d.setChan ch { c with req := Cells.writeAll 0#8 c.req o (leBytes 4 v.toNat) }
  else if o = 0xFC0 then d.doorbell ch v
  else if o = 0xFC8 then (if v.getLsbD 0 then d.flush ch else d)
  else if o = 0xFC4 then d.roWrite a
  else d.violation 1 ch 0x03 o

/-- A word written to a register of an open window, BOOT_STEP and BOOT_RESET among them; a boot step started so finds nothing
amiss in the physical world (log entry 8). -/
def regWrite (w : Window) (a : Nat) (v : Word) (d : Device) (m : Store) : Device × Store :=
  match w with
  | .boot =>
    if a = 0x000 then bootStep (v.toNat % 256) .clean d m
    else if a = 0x004 then (d.statusWrite v, m)
    else if a = 0x00C then (d.cfgWrite v, m)
    else if a = 0x01C then (d.ofsWrite v, m)
    else if a = 0x028 then bootReset v d m
    else (d.roWrite a, m)
  | .evt =>
    if a = 0x2000 then (d.causeWrite v, m)
    else if a = 0x2004 then (d.ibiEnWrite v, m)
    else if a = 0x2014 then (d.ringRdWrite v, m)
    else if a = 0x2024 then (d.vlogIdxWrite v, m)
    else if a = 0x2104 then (d.flogIdxWrite v, m)
    else (d.roWrite a, m)
  | .time => if a = 0x3000 then (d.snapCtl v, m) else (d.roWrite a, m)
  | .mbx => (d.mbxWrite a v, m)
  | _ => (d.roWrite a, m)

/-! ## Transfers (R143 to R146) -/

/-- An access outside every register, or to a closed window: one violation of its code in a transfer (R87, R148). -/
def Device.strayOnce (d : Device) (seen : Bool) (code a : Nat) : Device := if seen then d else d.violation 0 0 code a

/-- The words of a write, each judged by its own address (R145); words of the firmware window go together (R120), and a package
reset ends the write. `out` and `shut` tell whether the transfer has its violation 0x02 and 0x0A. -/
def writeWords : Nat → Nat → List Word → Bool → Bool → Device → Store → Device × Store
  | 0, _, _, _, _, d, m => (d, m)
  | _ + 1, a, [], _, _, d, m => ({ d with i3c := { d.i3c with readPtr := BitVec.ofNat 32 a } }, m)
  | k + 1, a, w :: ws, out, shut, d, m =>
    let next := (a + 4) % 2 ^ 32
    if windowOf a = some .fwwin then
      let n := min (ws.length + 1) ((0x2040000 - a) / 4)
      let x := fwWindow (a - 0x40000) ((w :: ws).take n) d m
      writeWords k (a + 4 * n) ((w :: ws).drop n) out shut x.1 x.2
    else
      match d.placeOf a with
      | .outside => writeWords k next ws true shut (d.strayOnce out 0x02 a) m
      | .closed => writeWords k next ws out true (d.strayOnce shut 0x0A a) m
      | .reg win _ =>
        let x := regWrite win a w d m
        if a = 0x028 && w = 0x0860DEAD then x else writeWords k next ws out shut x.1 x.2

/-- A private write of whole words from an address (R143, R145, R146): at most the maximum write length. -/
def privateWrite (addr : Word) (words : List Word) (d : Device) (m : Store) : Device × Store :=
  let a := addr.toNat
  if a % 4 ≠ 0 then (d.violation 0 0 0x03 a, m)
  else
    let room := (d.i3c.mwl - 4) / 4
    let ws := words.take room
    let x := writeWords (ws.length + 1) a ws false false d m
    if room < words.length && !(a ≤ 0x28 && ws[(0x28 - a) / 4]? == some 0x0860DEAD) then (x.1.violation 0 0 0x0C ((a + 4 * room) % 2 ^ 32), x.2) else x

/-- The words of a read from the read pointer onwards (R144). -/
def readWords : Nat → Nat → List Word → Bool → Bool → Device → Device
  | 0, a, got, _, _, d => { d with i3c := { d.i3c with readPtr := BitVec.ofNat 32 a, readOut := got.reverse } }
  | k + 1, a, got, out, shut, d =>
    let next := (a + 4) % 2 ^ 32
    match d.placeOf a with
    | .outside => readWords k next (0 :: got) true shut (d.strayOnce out 0x02 a)
    | .closed => readWords k next (0 :: got) out true (d.strayOnce shut 0x0A a)
    | .reg w v => readWords k next (BitVec.ofNat 32 v :: got) out shut (d.regClear w a)

/-- A private read of `n` whole words (R144): at most the maximum read length; one of no word changes nothing. -/
def Device.privateRead (d : Device) (n : Nat) : Device :=
  if n = 0 then d else readWords (min n (d.i3c.mrl / 4)) d.i3c.readPtr.toNat [] false false d

/-- A malformed transfer (R146, R181). -/
def malformed (x : Malformed) (d : Device) (m : Store) : Device × Store :=
  let after := fun (addr : Word) (n : Nat) => (addr.toNat + 4 * n) % 2 ^ 32
  let bad := fun (d : Device) (code detail : Nat) =>
    let d := d.violation 0 0 code detail
    { d with i3c := { d.i3c with protoErr := true } }
  match x with
  | .unaligned addr => (d.violation 0 0 0x03 addr.toNat, m)
  | .trailing addr words =>
    let y := privateWrite addr words d m
    (if addr.toNat % 4 = 0 then y.1.violation 0 0 0x04 (after addr words.length) else y.1, y.2)
  | .sdrParity addr words =>
    let y := privateWrite addr words d m
    (bad y.1 0x05 (after addr words.length), y.2)
  | .hdrCrc addr words =>
    let y := privateWrite addr words d m
    (bad y.1 0x06 (after addr words.length), y.2)
  | .hdrCommand code =>
    if d.i3c.hdr = .ddr then
      let d := d.violation 0 0 0x08 code.toNat
      ({ d with i3c := { d.i3c with hdr := .ignoring } }, m)
    else (d, m)
  | .short n => (d.violation 0 0 0x0B (n % 4), m)
  | .overLength addr words => privateWrite addr words d m

/-! ## Rows -/

/-- I3C_ADDRESS_WRITE (R143). -/
def execI3cAddressWrite (addr : Word) (s : State) : Host.Outcome State Fault Refusal :=
  onBoth (fun d m => if d.takesPrivate then privateWrite addr [] d m else (d, m)) s

/-- I3C_MALFORMED_TRANSFER (R146). -/
def execI3cMalformedTransfer (x : Malformed) (s : State) : Host.Outcome State Fault Refusal :=
  onBoth (fun d m => if d.takesPrivate then malformed x d m else (d, m)) s

/-- REGISTER_WRITE (R18, R143, R145). -/
def execRegisterWrite (addr : Word) (words : List Word) (s : State) : Host.Outcome State Fault Refusal :=
  onBoth (fun d m => if d.takesPrivate then privateWrite addr words d m else (d, m)) s

/-- RC_REGISTER_READ (R18, R144): `words` words taken whole from the read pointer. -/
def execRcRegisterRead (words : Nat) (s : State) : Host.Outcome State Fault Refusal :=
  onDev (fun d => if d.takesPrivate then d.privateRead words else d) s

/-- READ_OUTSIDE_WINDOW (R87, R148): the same transfer, at an address where nothing answers. -/
def execReadOutsideWindow (words : Nat) (s : State) : Host.Outcome State Fault Refusal :=
  onDev (fun d => if d.takesPrivate then d.privateRead words else d) s

/-- BOOT_FWWIN_WRITE (R119, R120). -/
def execBootFwwinWrite (offset : Nat) (words : List Word) (s : State) : Host.Outcome State Fault Refusal :=
  onBoth (fun d m => if d.takesPrivate then privateWrite (BitVec.ofNat 32 (0x40000 + offset)) words d m else (d, m)) s

/-- EVT_RING_RD_WRITE (R169). -/
def execEvtRingRdWrite (value : Word) (s : State) : Host.Outcome State Fault Refusal :=
  onDev (fun d => if d.takesPrivate then (d.ringRdWrite value).wrote 0x2018 else d) s

/-- EVT_VLOG_IDX_WRITE (R178). -/
def execEvtVlogIdxWrite (value : Word) (s : State) : Host.Outcome State Fault Refusal :=
  onDev (fun d => if d.takesPrivate then (d.vlogIdxWrite value).wrote 0x2028 else d) s

/-- EVT_FLOG_IDX_WRITE (R734). -/
def execEvtFlogIdxWrite (value : Word) (s : State) : Host.Outcome State Fault Refusal :=
  onDev (fun d => if d.takesPrivate then (d.flogIdxWrite value).wrote 0x2108 else d) s

/-! ## The debug port (R815) -/

/-- An instruction of the debug port: IDCODE and BYPASS always, the others where their scope is open. What CP and SCAN access
reach is described nowhere. DEDUCED: log entry 58. -/
def execDebugTapInstruction (instr : TapInstr) (s : State) : Host.Outcome State Fault Refusal :=
  let put := fun (out : List Byte) => onDev (fun d => { d with sec := { d.sec with tapOut := out } }) s
  let memory := s.dev.scopes.getLsbD 1
  match instr with
  | .idcode => put (leBytes 4 0x08601A3D)
  | .bypass v n => put (leBytes ((n + 8) / 8) (2 * (v % 2 ^ n)))
  | .memRead pa n =>
    if memory && (s.dev.accessError pa n false).isNone then put (s.mem.lp.readAll 0#8 pa n) else .next s
  | .memWrite pa bytes =>
    onBoth (fun d m =>
      if memory && (d.accessError pa bytes.length true).isNone then
        ({ d with memsys := d.memsys.renew pa bytes.length }, { m with lp := Cells.writeAll 0#8 m.lp pa bytes })
      else (d, m)) s
  | .ctlRead a =>
    if !memory then .next s else
      onDev (fun d =>
        match d.placeOf a.toNat with
        | .reg w v =>
          let d := d.regClear w a.toNat
          { d with sec := { d.sec with tapOut := leBytes 4 v } }
        | _ => { d with sec := { d.sec with tapOut := zeros 4 } }) s
  | .ctlWrite a v =>
    onBoth (fun d m =>
      if !memory then (d, m) else
        match d.placeOf a.toNat with
        | .reg .fwwin _ => fwWindow (a.toNat - 0x40000) [v] d m
        | .reg w _ => regWrite w a.toNat v d m
        | _ => (d, m)) s
  | .cp => if s.dev.scopes.getLsbD 0 then .refused .debugUnitNotDescribed else .next s
  | .scan => if s.dev.scopes.getLsbD 2 then .refused .debugUnitNotDescribed else .next s

end Sys2Proof.Machine
end

