-- ==== Sys2Proof/Machine/Reset.lean ====
section
/-! DEFINITION. Resets and supplies: POWER_ON_RESET, PACKAGE_RESET_ASSERT, PACKAGE_RESET_RELEASE,
SUPPLY_UNDERVOLTAGE (R85, R86, R96, R822). -/

namespace Sys2Proof.Machine

/-- POWER_ON_RESET (R85): the power-on state; fuses, board and flash are kept. DEDUCED: log entry 74. -/
def execPowerOnReset (s : State) : Host.Outcome State Fault Refusal :=
  let s' := s.packageReset
  .next { s' with dev := { s'.dev with pkg := { s'.dev.pkg with supplies := true } } }

/-- PACKAGE_RESET_ASSERT (R85): as power-on reset, with the ball low and the target silent. -/
def execPackageResetAssert (s : State) : Host.Outcome State Fault Refusal :=
  let s' := s.packageReset
  .next { s' with dev := { s'.dev with pkg := { s'.dev.pkg with ballLow := true, targetUp := false } } }

/-- PACKAGE_RESET_RELEASE (R86): the target answers at 0x2A; the 10 ms of R141 start. -/
def execPackageResetRelease (s : State) : Host.Outcome State Fault Refusal :=
  onDev (fun d =>
    if d.pkg.ballLow then
      { d with pkg := { d.pkg with ballLow := false, targetUp := d.pkg.supplies },
               i3c := { d.i3c with releasedAt := d.time.now } }
    else d) s

/-- SUPPLY_UNDERVOLTAGE (R822): resets the package as the reset ball does. DESIGN CHOICE: log entry 73. -/
def execSupplyUndervoltage (s : State) : Host.Outcome State Fault Refusal := .next s.packageReset

end Sys2Proof.Machine
end

