-- ==== Sys2Proof/Machine/Dispatch.lean ====
section
/-! DEFINITION. The dispatch of a command to its meaning: one arm per constructor of `Instr`, in the order of the
opcode table. -/

namespace Sys2Proof.Machine

/-- The effect of one command on everything but the queue. -/
def exec (i : Instr) (s : State) : Host.Outcome State Fault Refusal :=
  match i with
  | .powerOnReset => Sys2Proof.Machine.execPowerOnReset s
  | .packageResetAssert => Sys2Proof.Machine.execPackageResetAssert s
  | .packageResetRelease => Sys2Proof.Machine.execPackageResetRelease s
  | .supplyUndervoltage => Sys2Proof.Machine.execSupplyUndervoltage s
  | .hotJoinRequest => Sys2Proof.Machine.execHotJoinRequest s
  | .enec => Sys2Proof.Machine.execEnec s
  | .disec => Sys2Proof.Machine.execDisec s
  | .rstdaa => Sys2Proof.Machine.execRstdaa s
  | .entdaa addr => Sys2Proof.Machine.execEntdaa addr s
  | .setdasa addr => Sys2Proof.Machine.execSetdasa addr s
  | .setnewda addr => Sys2Proof.Machine.execSetnewda addr s
  | .setmwl len => Sys2Proof.Machine.execSetmwl len s
  | .setmrl len => Sys2Proof.Machine.execSetmrl len s
  | .getmwl => Sys2Proof.Machine.execGetmwl s
  | .getmrl => Sys2Proof.Machine.execGetmrl s
  | .getpid => Sys2Proof.Machine.execGetpid s
  | .getbcr => Sys2Proof.Machine.execGetbcr s
  | .getdcr => Sys2Proof.Machine.execGetdcr s
  | .getstatus => Sys2Proof.Machine.execGetstatus s
  | .getcaps => Sys2Proof.Machine.execGetcaps s
  | .rstact action => Sys2Proof.Machine.execRstact action s
  | .enthdr0 => Sys2Proof.Machine.execEnthdr0 s
  | .unsupportedCcc code => Sys2Proof.Machine.execUnsupportedCcc code s
  | .enthdrUnsupported mode => Sys2Proof.Machine.execEnthdrUnsupported mode s
  | .hdrExit => Sys2Proof.Machine.execHdrExit s
  | .targetResetPattern => Sys2Proof.Machine.execTargetResetPattern s
  | .i3cAddressWrite addr => Sys2Proof.Machine.execI3cAddressWrite addr s
  | .i3cMalformedTransfer m => Sys2Proof.Machine.execI3cMalformedTransfer m s
  | .registerWrite addr words => Sys2Proof.Machine.execRegisterWrite addr words s
  | .rcRegisterRead words => Sys2Proof.Machine.execRcRegisterRead words s
  | .ibiSend acked => Sys2Proof.Machine.execIbiSend acked s
  | .ident => Sys2Proof.Machine.execIdent s
  | .fuseLoad => Sys2Proof.Machine.execFuseLoad s
  | .sweep finds => Sys2Proof.Machine.execSweep finds s
  | .clocks outcome => Sys2Proof.Machine.execClocks outcome s
  | .train => Sys2Proof.Machine.execTrain s
  | .trainItemEnd item status density => Sys2Proof.Machine.execTrainItemEnd item status density s
  | .fwLoad => Sys2Proof.Machine.execFwLoad s
  | .bootFwwinWrite offset words => Sys2Proof.Machine.execBootFwwinWrite offset words s
  | .loadIdle => Sys2Proof.Machine.execLoadIdle s
  | .fwVerify => Sys2Proof.Machine.execFwVerify s
  | .fwStart reported => Sys2Proof.Machine.execFwStart reported s
  | .kat engines units => Sys2Proof.Machine.execKat engines units s
  | .ready => Sys2Proof.Machine.execReady s
  | .bootStepEnd => Sys2Proof.Machine.execBootStepEnd s
  | .stepTimeout => Sys2Proof.Machine.execStepTimeout s
  | .bootReset key => Sys2Proof.Machine.execBootReset key s
  | .evtRingRdWrite value => Sys2Proof.Machine.execEvtRingRdWrite value s
  | .evtVlogIdxWrite value => Sys2Proof.Machine.execEvtVlogIdxWrite value s
  | .evtFlogIdxWrite value => Sys2Proof.Machine.execEvtFlogIdxWrite value s
  | .latch => Sys2Proof.Machine.execLatch s
  | .onPps => Sys2Proof.Machine.execOnPps s
  | .mbxDoorbell ch value => Sys2Proof.Machine.execMbxDoorbell ch value s
  | .flush ch => Sys2Proof.Machine.execFlush ch s
  | .mbxResponseFormed ch => Sys2Proof.Machine.execMbxResponseFormed ch s
  | .nop ch => Sys2Proof.Machine.execNop ch s
  | .handleQuery ch => Sys2Proof.Machine.execHandleQuery ch s
  | .resultGet ch => Sys2Proof.Machine.execResultGet ch s
  | .handleCancel ch => Sys2Proof.Machine.execHandleCancel ch s
  | .handleList ch => Sys2Proof.Machine.execHandleList ch s
  | .diagCollect ch => Sys2Proof.Machine.execDiagCollect ch s
  | .diagLatch => Sys2Proof.Machine.execDiagLatch s
  | .timeStatus ch => Sys2Proof.Machine.execTimeStatus ch s
  | .timeConfig ch => Sys2Proof.Machine.execTimeConfig ch s
  | .timeSet ch => Sys2Proof.Machine.execTimeSet ch s
  | .compSet ch => Sys2Proof.Machine.execCompSet ch s
  | .compGet ch => Sys2Proof.Machine.execCompGet ch s
  | .trigGroup ch => Sys2Proof.Machine.execTrigGroup ch s
  | .trigOut ch => Sys2Proof.Machine.execTrigOut ch s
  | .ptpPort ch => Sys2Proof.Machine.execPtpPort ch s
  | .ptpPortStatus ch => Sys2Proof.Machine.execPtpPortStatus ch s
  | .ppsConfig ch => Sys2Proof.Machine.execPpsConfig ch s
  | .triggerEdge group => Sys2Proof.Machine.execTriggerEdge group s
  | .pulseEnd output => Sys2Proof.Machine.execPulseEnd output s
  | .ppsInEdge at_ => Sys2Proof.Machine.execPpsInEdge at_ s
  | .ppsQualified => Sys2Proof.Machine.execPpsQualified s
  | .ppsLost => Sys2Proof.Machine.execPpsLost s
  | .ppsOutRise => Sys2Proof.Machine.execPpsOutRise s
  | .ppsOutFall => Sys2Proof.Machine.execPpsOutFall s
  | .ptpMessageRx port msg at_ => Sys2Proof.Machine.execPtpMessageRx port msg at_ s
  | .servoLock => Sys2Proof.Machine.execServoLock s
  | .servoUnlock => Sys2Proof.Machine.execServoUnlock s
  | .ptpMasterLost => Sys2Proof.Machine.execPtpMasterLost s
  | .holdMaxExpiry => Sys2Proof.Machine.execHoldMaxExpiry s
  | .ptpMessageTx port messageType at_ => Sys2Proof.Machine.execPtpMessageTx port messageType at_ s
  | .ptpEventForward port msg rx tx => Sys2Proof.Machine.execPtpEventForward port msg rx tx s
  | .residenceEntryExpiry port => Sys2Proof.Machine.execResidenceEntryExpiry port s
  | .timeStepApply => Sys2Proof.Machine.execTimeStepApply s
  | .tbSlaveFault die offset => Sys2Proof.Machine.execTbSlaveFault die offset s
  | .streamConfig ch => Sys2Proof.Machine.execStreamConfig ch s
  | .streamStatus ch => Sys2Proof.Machine.execStreamStatus ch s
  | .csiPort ch => Sys2Proof.Machine.execCsiPort ch s
  | .pairConfig ch => Sys2Proof.Machine.execPairConfig ch s
  | .ethPort ch => Sys2Proof.Machine.execEthPort ch s
  | .ethStatus ch => Sys2Proof.Machine.execEthStatus ch s
  | .lidarStream ch => Sys2Proof.Machine.execLidarStream ch s
  | .imuPort ch => Sys2Proof.Machine.execImuPort ch s
  | .encConfig ch => Sys2Proof.Machine.execEncConfig ch s
  | .canController ch => Sys2Proof.Machine.execCanController ch s
  | .canFilter ch => Sys2Proof.Machine.execCanFilter ch s
  | .bulkOpen ch => Sys2Proof.Machine.execBulkOpen ch s
  | .csiFrameStart port vc frameNum ecc at_ => Sys2Proof.Machine.execCsiFrameStart port vc frameNum ecc at_ s
  | .csiLinePacket port vc dt ecc crcOk pixels words => Sys2Proof.Machine.execCsiLinePacket port vc dt ecc crcOk pixels words s
  | .csiEmbeddedData port vc ecc bytes => Sys2Proof.Machine.execCsiEmbeddedData port vc ecc bytes s
  | .csiFrameEnd port vc ecc at_ => Sys2Proof.Machine.execCsiFrameEnd port vc ecc at_ s
  | .pairLost pair => Sys2Proof.Machine.execPairLost pair s
  | .pairRecover pair => Sys2Proof.Machine.execPairRecover pair s
  | .frameTimeout port => Sys2Proof.Machine.execFrameTimeout port s
  | .csiBulkPacket port vc dt ecc bytes => Sys2Proof.Machine.execCsiBulkPacket port vc dt ecc bytes s
  | .ethFrameRx port frame fcsOk at_ => Sys2Proof.Machine.execEthFrameRx port frame fcsOk at_ s
  | .sweepClose stream => Sys2Proof.Machine.execSweepClose stream s
  | .ethFrameTx port => Sys2Proof.Machine.execEthFrameTx port s
  | .imuDataReady port at_ => Sys2Proof.Machine.execImuDataReady port at_ s
  | .imuTransactionDone port bytes => Sys2Proof.Machine.execImuTransactionDone port bytes s
  | .encoderEdge enc a b at_ => Sys2Proof.Machine.execEncoderEdge enc a b at_ s
  | .encoderIndex enc at_ => Sys2Proof.Machine.execEncoderIndex enc at_ s
  | .encoderSample enc => Sys2Proof.Machine.execEncoderSample enc s
  | .canFrameRx ctrl fd extended remote id data at_ => Sys2Proof.Machine.execCanFrameRx ctrl fd extended remote id data at_ s
  | .canErrorState ctrl busOff tec rec => Sys2Proof.Machine.execCanErrorState ctrl busOff tec rec s
  | .streamDropout stream => Sys2Proof.Machine.execStreamDropout stream s
  | .streamRecover stream => Sys2Proof.Machine.execStreamRecover stream s
  | .sfeChannel ch => Sys2Proof.Machine.execSfeChannel ch s
  | .sfeAuxScan ch => Sys2Proof.Machine.execSfeAuxScan ch s
  | .sfeExc ch => Sys2Proof.Machine.execSfeExc ch s
  | .sfeDetect ch => Sys2Proof.Machine.execSfeDetect ch s
  | .sfeCal ch => Sys2Proof.Machine.execSfeCal ch s
  | .sfeStatus ch => Sys2Proof.Machine.execSfeStatus ch s
  | .sfeCoefGet ch => Sys2Proof.Machine.execSfeCoefGet ch s
  | .sfeChannelStart stream => Sys2Proof.Machine.execSfeChannelStart stream s
  | .sfeOutputSample stream raw raw2 => Sys2Proof.Machine.execSfeOutputSample stream raw raw2 s
  | .sfeDetectorWindow stream raw raw2 => Sys2Proof.Machine.execSfeDetectorWindow stream raw raw2 s
  | .sfeAuxScanStart die raw => Sys2Proof.Machine.execSfeAuxScanStart die raw s
  | .sfeCalDone die m0 m1 full => Sys2Proof.Machine.execSfeCalDone die m0 m1 full s
  | .iepeBiasFault stream => Sys2Proof.Machine.execIepeBiasFault stream s
  | .resolverLos stream => Sys2Proof.Machine.execResolverLos stream s
  | .sfeFaultRecover stream => Sys2Proof.Machine.execSfeFaultRecover stream s
  | .phaseAutoUpdate stream => Sys2Proof.Machine.execPhaseAutoUpdate stream s
  | .excOvercurrent die => Sys2Proof.Machine.execExcOvercurrent die s
  | .sfeInputClamp stream => Sys2Proof.Machine.execSfeInputClamp stream s
  | .jobSubmit ch => Sys2Proof.Machine.execJobSubmit ch s
  | .jobStatus ch => Sys2Proof.Machine.execJobStatus ch s
  | .jobList ch => Sys2Proof.Machine.execJobList ch s
  | .jobConfig ch => Sys2Proof.Machine.execJobConfig ch s
  | .partReset ch => Sys2Proof.Machine.execPartReset ch s
  | .dieReset ch => Sys2Proof.Machine.execDieReset ch s
  | .profileLoad ch => Sys2Proof.Machine.execProfileLoad ch s
  | .profileUnload ch => Sys2Proof.Machine.execProfileUnload ch s
  | .profileStatus ch => Sys2Proof.Machine.execProfileStatus ch s
  | .clusterStatus ch => Sys2Proof.Machine.execClusterStatus ch s
  | .unitStatus ch => Sys2Proof.Machine.execUnitStatus ch s
  | .jobPlace job => Sys2Proof.Machine.execJobPlace job s
  | .jobLoaded job => Sys2Proof.Machine.execJobLoaded job s
  | .bcastPacket job part => Sys2Proof.Machine.execBcastPacket job part s
  | .bcastAnswer cluster slot seq ack => Sys2Proof.Machine.execBcastAnswer cluster slot seq ack s
  | .bcastAckTimeout cluster slot seq => Sys2Proof.Machine.execBcastAckTimeout cluster slot seq s
  | .descriptorIssue unit => Sys2Proof.Machine.execDescriptorIssue unit s
  | .flagSignal unit => Sys2Proof.Machine.execFlagSignal unit s
  | .flagWaitMet unit => Sys2Proof.Machine.execFlagWaitMet unit s
  | .waitTimeout unit => Sys2Proof.Machine.execWaitTimeout unit s
  | .memCompletion requester error => Sys2Proof.Machine.execMemCompletion requester error s
  | .unitEnd unit => Sys2Proof.Machine.execUnitEnd unit s
  | .schedEntryCopy job => Sys2Proof.Machine.execSchedEntryCopy job s
  | .windowSlotLoad job => Sys2Proof.Machine.execWindowSlotLoad job s
  | .mscRequest pa len write policy ecc => Sys2Proof.Machine.execMscRequest pa len write policy ecc s
  | .patrolScrub channel ecc => Sys2Proof.Machine.execPatrolScrub channel ecc s
  | .memStatus ch => Sys2Proof.Machine.execMemStatus ch s
  | .bufAlloc ch => Sys2Proof.Machine.execBufAlloc ch s
  | .bufFree ch => Sys2Proof.Machine.execBufFree ch s
  | .bufInfo ch => Sys2Proof.Machine.execBufInfo ch s
  | .memRead ch => Sys2Proof.Machine.execMemRead ch s
  | .memWrite ch => Sys2Proof.Machine.execMemWrite ch s
  | .steConfig ch => Sys2Proof.Machine.execSteConfig ch s
  | .steMap ch => Sys2Proof.Machine.execSteMap ch s
  | .steMask ch => Sys2Proof.Machine.execSteMask ch s
  | .steStatus ch => Sys2Proof.Machine.execSteStatus ch s
  | .steRun ch => Sys2Proof.Machine.execSteRun ch s
  | .steBandBuild die view => Sys2Proof.Machine.execSteBandBuild die view s
  | .steBandWrite die slots => Sys2Proof.Machine.execSteBandWrite die slots s
  | .steTileBoundary die => Sys2Proof.Machine.execSteTileBoundary die s
  | .steOpDone die => Sys2Proof.Machine.execSteOpDone die s
  | .fteConfig ch => Sys2Proof.Machine.execFteConfig ch s
  | .fteMask ch => Sys2Proof.Machine.execFteMask ch s
  | .fteStatus ch => Sys2Proof.Machine.execFteStatus ch s
  | .fteTrackGet ch => Sys2Proof.Machine.execFteTrackGet ch s
  | .fteRun ch => Sys2Proof.Machine.execFteRun ch s
  | .fteBandBuild die view => Sys2Proof.Machine.execFteBandBuild die view s
  | .fteTrackOp die view h fbBuf fbOff fbCount cluster block flag => Sys2Proof.Machine.execFteTrackOp die view h fbBuf fbOff fbCount cluster block flag s
  | .fteDormantExpire stream slot => Sys2Proof.Machine.execFteDormantExpire stream slot s
  | .fteFreezeExpire stream => Sys2Proof.Machine.execFteFreezeExpire stream s
  | .gridConfig ch => Sys2Proof.Machine.execGridConfig ch s
  | .gridSource ch => Sys2Proof.Machine.execGridSource ch s
  | .calSet ch => Sys2Proof.Machine.execCalSet ch s
  | .calGet ch => Sys2Proof.Machine.execCalGet ch s
  | .calRefine ch => Sys2Proof.Machine.execCalRefine ch s
  | .checkConfig ch => Sys2Proof.Machine.execCheckConfig ch s
  | .fusionStatus ch => Sys2Proof.Machine.execFusionStatus ch s
  | .checkDecision check estimates => Sys2Proof.Machine.execCheckDecision check estimates s
  | .checkSourceClean source => Sys2Proof.Machine.execCheckSourceClean source s
  | .haloCopy die width hmax c0 c1 below above error => Sys2Proof.Machine.execHaloCopy die width hmax c0 c1 below above error s
  | .calRefineTick stream => Sys2Proof.Machine.execCalRefineTick stream s
  | .slvLoad ch => Sys2Proof.Machine.execSlvLoad ch s
  | .slvUpdate ch => Sys2Proof.Machine.execSlvUpdate ch s
  | .slvSolve ch => Sys2Proof.Machine.execSlvSolve ch s
  | .slvStatus ch => Sys2Proof.Machine.execSlvStatus ch s
  | .slvUnload ch => Sys2Proof.Machine.execSlvUnload ch s
  | .ppConfig ch => Sys2Proof.Machine.execPpConfig ch s
  | .ppStatus ch => Sys2Proof.Machine.execPpStatus ch s
  | .slvStepBoundary die cycles => Sys2Proof.Machine.execSlvStepBoundary die cycles s
  | .slvDeadline job => Sys2Proof.Machine.execSlvDeadline job s
  | .slvSolveEnd die result => Sys2Proof.Machine.execSlvSolveEnd die result s
  | .ppRecord => Sys2Proof.Machine.execPpRecord s
  | .locConfig ch => Sys2Proof.Machine.execLocConfig ch s
  | .locStatus ch => Sys2Proof.Machine.execLocStatus ch s
  | .locReset ch => Sys2Proof.Machine.execLocReset ch s
  | .wheelConfig ch => Sys2Proof.Machine.execWheelConfig ch s
  | .gnssConfig ch => Sys2Proof.Machine.execGnssConfig ch s
  | .gnssFix ch => Sys2Proof.Machine.execGnssFix ch s
  | .loopConfig ch => Sys2Proof.Machine.execLoopConfig ch s
  | .poseGet ch => Sys2Proof.Machine.execPoseGet ch s
  | .locLostTimeout => Sys2Proof.Machine.execLocLostTimeout s
  | .locReinitTimeout => Sys2Proof.Machine.execLocReinitTimeout s
  | .locInitStart => Sys2Proof.Machine.execLocInitStart s
  | .tickDeadline => Sys2Proof.Machine.execTickDeadline s
  | .loopCorrectionApply => Sys2Proof.Machine.execLoopCorrectionApply s
  | .mapStatus ch => Sys2Proof.Machine.execMapStatus ch s
  | .mapConfig ch => Sys2Proof.Machine.execMapConfig ch s
  | .mapLoad ch => Sys2Proof.Machine.execMapLoad ch s
  | .mapExport ch => Sys2Proof.Machine.execMapExport ch s
  | .mapGet ch => Sys2Proof.Machine.execMapGet ch s
  | .mapSession ch => Sys2Proof.Machine.execMapSession ch s
  | .mapClear ch => Sys2Proof.Machine.execMapClear ch s
  | .mapReclaim => Sys2Proof.Machine.execMapReclaim s
  | .prsStatus ch => Sys2Proof.Machine.execPrsStatus ch s
  | .prsIndex ch => Sys2Proof.Machine.execPrsIndex ch s
  | .prsTreeLoad ch => Sys2Proof.Machine.execPrsTreeLoad ch s
  | .prsUpdate ch => Sys2Proof.Machine.execPrsUpdate ch s
  | .prsQuery ch => Sys2Proof.Machine.execPrsQuery ch s
  | .prsCompact ch => Sys2Proof.Machine.execPrsCompact ch s
  | .prsConfig ch => Sys2Proof.Machine.execPrsConfig ch s
  | .batchWindowClose die => Sys2Proof.Machine.execBatchWindowClose die s
  | .roundMerge job n => Sys2Proof.Machine.execRoundMerge job n s
  | .shardCompaction die index leaf => Sys2Proof.Machine.execShardCompaction die index leaf s
  | .outPort ch => Sys2Proof.Machine.execOutPort ch s
  | .outRoute ch => Sys2Proof.Machine.execOutRoute ch s
  | .outStatus ch => Sys2Proof.Machine.execOutStatus ch s
  | .outBulk ch => Sys2Proof.Machine.execOutBulk ch s
  | .eventGet ch => Sys2Proof.Machine.execEventGet ch s
  | .guideConfig ch => Sys2Proof.Machine.execGuideConfig ch s
  | .guidePath ch => Sys2Proof.Machine.execGuidePath ch s
  | .guideSelect ch => Sys2Proof.Machine.execGuideSelect ch s
  | .guideStatus ch => Sys2Proof.Machine.execGuideStatus ch s
  | .txPartSend port => Sys2Proof.Machine.execTxPartSend port s
  | .eventMsgForm port => Sys2Proof.Machine.execEventMsgForm port s
  | .diagMsgForm port => Sys2Proof.Machine.execDiagMsgForm port s
  | .guideInstant => Sys2Proof.Machine.execGuideInstant s
  | .jobCommit job out => Sys2Proof.Machine.execJobCommit job out s
  | .jobFault job cause source die index addr detail => Sys2Proof.Machine.execJobFault job cause source die index addr detail s
  | .jobRestart job => Sys2Proof.Machine.execJobRestart job s
  | .flitParityError die requester job addr => Sys2Proof.Machine.execFlitParityError die requester job addr s
  | .linkCrcError link far => Sys2Proof.Machine.execLinkCrcError link far s
  | .linkRetrain link state held => Sys2Proof.Machine.execLinkRetrain link state held s
  | .cpWatchdog die => Sys2Proof.Machine.execCpWatchdog die s
  | .cpSramUe die place => Sys2Proof.Machine.execCpSramUe die place s
  | .pllLockLoss die island => Sys2Proof.Machine.execPllLockLoss die island s
  | .refClockLoss ref die => Sys2Proof.Machine.execRefClockLoss ref die s
  | .powerStatus ch => Sys2Proof.Machine.execPowerStatus ch s
  | .powerConfig ch => Sys2Proof.Machine.execPowerConfig ch s
  | .domainPower ch => Sys2Proof.Machine.execDomainPower ch s
  | .diePower ch => Sys2Proof.Machine.execDiePower ch s
  | .diePowerOnDone die engines units => Sys2Proof.Machine.execDiePowerOnDone die engines units s
  | .domainPowerGood die domain => Sys2Proof.Machine.execDomainPowerGood die domain s
  | .pwrSense ch => Sys2Proof.Machine.execPwrSense ch s
  | .limiterEval uncore cores => Sys2Proof.Machine.execLimiterEval uncore cores s
  | .thermalEval tj => Sys2Proof.Machine.execThermalEval tj s
  | .stRun ch => Sys2Proof.Machine.execStRun ch s
  | .stProgress ch => Sys2Proof.Machine.execStProgress ch s
  | .stFuse ch => Sys2Proof.Machine.execStFuse ch s
  | .stFuseStatus ch => Sys2Proof.Machine.execStFuseStatus ch s
  | .stSliceStart run => Sys2Proof.Machine.execStSliceStart run s
  | .stSliceBusy run => Sys2Proof.Machine.execStSliceBusy run s
  | .stSliceEnd run out => Sys2Proof.Machine.execStSliceEnd run out s
  | .stSliceTimeout run => Sys2Proof.Machine.execStSliceTimeout run s
  | .stWindowVoid run => Sys2Proof.Machine.execStWindowVoid run s
  | .fuseRecordBlow ok => Sys2Proof.Machine.execFuseRecordBlow ok s
  | .secStatus ch => Sys2Proof.Machine.execSecStatus ch s
  | .idInfo ch => Sys2Proof.Machine.execIdInfo ch s
  | .attest ch => Sys2Proof.Machine.execAttest ch s
  | .fwUpdate ch => Sys2Proof.Machine.execFwUpdate ch s
  | .secRollback ch => Sys2Proof.Machine.execSecRollback ch s
  | .secRevoke ch => Sys2Proof.Machine.execSecRevoke ch s
  | .debugChallenge ch => Sys2Proof.Machine.execDebugChallenge ch s
  | .debugUnlock ch => Sys2Proof.Machine.execDebugUnlock ch s
  | .cryptoOpDone fail => Sys2Proof.Machine.execCryptoOpDone fail s
  | .debugTapInstruction instr => Sys2Proof.Machine.execDebugTapInstruction instr s
  | .holdoverClassChange at_ => Sys2Proof.Machine.execHoldoverClassChange at_ s
  | .busOffRecoveryDone ctrl => Sys2Proof.Machine.execBusOffRecoveryDone ctrl s
  | .guidanceFrameTx => Sys2Proof.Machine.execGuidanceFrameTx s
  | .readOutsideWindow words => Sys2Proof.Machine.execReadOutsideWindow words s
  | .healthTestFailure => Sys2Proof.Machine.execHealthTestFailure s

end Sys2Proof.Machine
end

