-- ==== Sys2Proof/Machine/Step.lean ====
section
/-! DEFINITION. One step of the block: the command at the front of the queue takes effect; with no command waiting, one
2 ns cycle of the time clock passes (R183; log entry 15). -/

namespace Sys2Proof.Machine

/-- The block with nothing commanded: one cycle of the time clock (R183). DESIGN CHOICE: log entry 15. -/
def State.idle (s : State) : State := { s with dev := s.dev.advance (2 * oneNs) }

/-- One step: the front command with the queue's rest, or an idle cycle. DESIGN CHOICE: log entry 15.
DESIGN CHOICE: log entry 72. -/
def step (s : State) : Host.Outcome State Fault Refusal :=
  match s.pending with
  | [] => .next s.idle
  | c :: rest => exec c { s with pending := rest }

/-- The state with the command a table word spells at the front of its queue; unchanged where it spells none. -/
def State.withFetchWord (s : State) (nbits w : Nat) : State :=
  match decodeTableWord nbits w with
  | some c => { s with pending := c :: s.pending }
  | none => s

end Sys2Proof.Machine
end

