-- ==== Sys2Proof/Safety.lean ====
section
/-! DEFINITION. What counts as a sound state and a completed command, in the terms the statements use: memories in
canonical form, fields of the control interface within their widths, a command that answers, a command that is accepted. -/

namespace Sys2Proof.Machine

/-- The state with another device: memories and waiting commands as they are. -/
def State.withDev (s : State) (d : Device) : State := { s with dev := d }

/-- The state with another device and other memories: the waiting commands as they are. -/
def State.withAll (s : State) (d : Device) (m : Store) : State := { s with dev := d, mem := m }

/-- Channel `ch` is BUSY with request `r` of opcode `op`, taken and not yet answered, and the mailbox service runs
(R151, R737). -/
abbrev State.holds (s : State) (ch : Fin 8) (op : Nat) (r : Request) : Prop := s.dev.awaiting ch.val op = some r

/-- The state in which channel `ch` has formed the answer `a` to request `r`, the device being otherwise `d` with the
configuration digest extended where R812 says so. -/
def State.answered (s : State) (ch : Fin 8) (r : Request) (d : Device) (a : Reply) : State :=
  s.withDev (d.answer ch.val r a)

/-- The answer of a report: OK with a payload (R153, R174). -/
def okWith (payload : List Byte) : Reply := ⟨0x00, false, payload, true, none⟩

/-- The answer of a long command: ACCEPTED with its handle (R153). -/
def acceptedWith (h : Nat) : Reply := ⟨0x01, false, leBytes 4 h, true, some h⟩

/-- The handle the next long command takes, and the mailbox service once it has taken it (R164, R165). -/
def Mbx.taking (m : Mbx) (ch op : Nat) : Mbx :=
  { m with handles := m.handles.put m.nextHandle ⟨ch, op, none, [], false, false, false⟩
           nextHandle := if m.nextHandle + 1 < 0xFFFFFFFF then m.nextHandle + 1 else 1 }

/-- A field of `n` little-endian bytes at `off` of a byte string (R10). -/
def fieldAt (b : List Byte) (off n : Nat) : Nat := leNat ((b.drop off).take n)

/-- A command completes with an OK answer whose payload meets `P`, and changes nothing but the answer (a report). -/
def Reports (c : Instr) (s : State) (ch : Fin 8) (r : Request) (P : List Byte → Prop) : Prop :=
  ∃ p, exec c s = .next (s.answered ch r s.dev (okWith p)) ∧ P p

/-- A command completes with the answer ACCEPTED; its handle `h` was free, belongs to the channel and opcode, and the next
state meets `P`. -/
def Accepts (c : Instr) (s : State) (ch : Fin 8) (P : Nat → State → Prop) : Prop :=
  ∃ t h, exec c s = .next t ∧ (t.dev.chan ch.val).formed = some (acceptedWith h) ∧ h = s.dev.mbx.nextHandle ∧ P h t

/-- A configuring command completes with OK: the memories stay, and the next state meets `P`. -/
def Sets (c : Instr) (s : State) (ch : Fin 8) (P : State → Prop) : Prop :=
  ∃ t, exec c s = .next t ∧ (t.dev.chan ch.val).formed = some (okWith []) ∧ t.mem = s.mem ∧ t.pending = s.pending ∧ P t

/-- A command or event completes in a next state that meets `P`, the waiting commands as they were. -/
def Completes (c : Instr) (s : State) (P : State → Prop) : Prop := ∃ t, exec c s = .next t ∧ t.pending = s.pending ∧ P t

/-- An event of a job completes with the device `d` and memories `m`, which meet `P`; then the commands that waited for the
TICK job take effect (R135). -/
def Resumes (c : Instr) (s : State) (P : Device → Store → Prop) : Prop :=
  ∃ d m, exec c s = .next (s.withAll (resumeAll d m).1 (resumeAll d m).2) ∧ P d m

/-- The state of a listed job. -/
def Device.jobState (d : Device) (id : Nat) : Option JobState := (d.job id).map (·.state)

/-- The final status of a handle. -/
def Device.ended (d : Device) (h : Nat) : Option Nat := (d.mbx.handles.look h).bind (·.final)

/-- A command of an engine or of firmware completes by admitting a waiting job under its handle; the job meets `P`. -/
def Admits (c : Instr) (s : State) (ch : Fin 8) (P : Job → Prop) : Prop :=
  Accepts c s ch (fun h t => t.mem = s.mem ∧
    ∃ id j, t.dev.job id = some j ∧ j.state = .waiting ∧ j.handle = some h ∧ P j)

/-- Fewer than 256 handles count and fewer than 64 jobs are active (R53, R165). -/
abbrev State.roomy (s : State) : Prop := s.dev.mbx.handles.length < 256 ∧ s.dev.jobs.activeCount < 64

/-- A configuring command whose request the channel holds, and whose objects the active profile does not use (R746). -/
abbrev State.mayConfigure (s : State) (ch : Fin 8) (t : Setting) (r : Request) : Prop :=
  s.holds ch t.op r ∧ s.dev.profileUses (t.objs r s.dev) = false

/-- The parts of the machine that a command may leave alone: the groups of registers and engines of the device, and its
memories. -/
inductive MachinePart where
  | fuse | pkg | boot | view | i3c | evt | mbx | diag | time | tim | jobs | pwr | units | clusters
  | memsys | ing | sfe | vis | grid | slv | loc | map | prs | out | st | sec | free
  | lp | sram | flash
  deriving DecidableEq, Repr

/-- A part stands as it did. -/
def MachinePart.same (p : MachinePart) (s t : State) : Prop :=
  match p with
  | .fuse => t.dev.fuse = s.dev.fuse
  | .pkg => t.dev.pkg = s.dev.pkg
  | .boot => t.dev.boot = s.dev.boot
  | .view => t.dev.view = s.dev.view
  | .i3c => t.dev.i3c = s.dev.i3c
  | .evt => t.dev.evt = s.dev.evt
  | .mbx => t.dev.mbx = s.dev.mbx
  | .diag => t.dev.diag = s.dev.diag
  | .time => t.dev.time = s.dev.time
  | .tim => t.dev.tim = s.dev.tim
  | .jobs => t.dev.jobs = s.dev.jobs
  | .pwr => t.dev.pwr = s.dev.pwr
  | .units => t.dev.units = s.dev.units
  | .clusters => t.dev.clusters = s.dev.clusters
  | .memsys => t.dev.memsys = s.dev.memsys
  | .ing => t.dev.ing = s.dev.ing
  | .sfe => t.dev.sfe = s.dev.sfe
  | .vis => t.dev.vis = s.dev.vis
  | .grid => t.dev.grid = s.dev.grid
  | .slv => t.dev.slv = s.dev.slv
  | .loc => t.dev.loc = s.dev.loc
  | .map => t.dev.map = s.dev.map
  | .prs => t.dev.prs = s.dev.prs
  | .out => t.dev.out = s.dev.out
  | .st => t.dev.st = s.dev.st
  | .sec => t.dev.sec = s.dev.sec
  | .free => t.dev.free = s.dev.free
  | .lp => t.mem.lp = s.mem.lp
  | .sram => t.mem.sram = s.mem.sram
  | .flash => t.mem.flash = s.mem.flash ∧ t.mem.flashSize = s.mem.flashSize

/-- When a command answers a next state, every part but those named is as it was. -/
def Keeps (c : Instr) (touched : List MachinePart) : Prop := ∀ s t p, exec c s = .next t → p ∉ touched → p.same s t

/-- When a command answers a next state, the parts named are as they were. -/
def Leaves (c : Instr) (kept : List MachinePart) : Prop := ∀ s t p, exec c s = .next t → p ∈ kept → p.same s t

/-- A setting of objects outside the active profile changes, besides the answer with its logs and digest, only the parts
named. -/
def KeepsSet (c : Fin 8 → Instr) (x : Setting) (own : List MachinePart) : Prop :=
  ∀ s ch r t p, s.mayConfigure ch x r → exec (c ch) s = .next t → p ∉ own → p ∉ [.evt, .mbx, .sec] → p.same s t

/-- The canonical form of every memory: addresses strictly rising, no entry equal to what an unlisted address reads as. -/
def Store.canonical (m : Store) : Bool := Cells.wf 0#8 m.lp && Cells.wf 0#8 m.sram && Cells.wf 0xFF#8 m.flash

end Sys2Proof.Machine
end

