-- ==== Sys2Proof/Certificates/Slice0/Obligations.lean ====
section
/-! DEFINITION. The statements for the provers: what a step is, what every command does when it completes, and what no
command breaks. Each command of the table has a clause whose conclusion is the next state that `exec` answers. -/

open Sys2Proof Sys2Proof.Machine

/-! ## The machine -/

/-- A step takes the command at the front of the queue and is its meaning on the state with the queue's rest; with no
command waiting, 2 ns of the time clock pass and nothing else happens (the model's choice, log entry 15). -/
def Obligations.StepRunsTheFrontCommand : Prop :=
  (∀ (c : Instr) (rest : List Instr) (s : State),
    step { s with pending := c :: rest } = exec c { s with pending := rest }) ∧
  (∀ s : State, s.pending = [] → step s = .next (s.withDev (s.dev.advance (2 * oneNs))))

/-- No command touches the queue of waiting commands: first in, first out, whatever a command does. -/
def Obligations.CommandsKeepTheQueue : Prop :=
  ∀ (c : Instr) (s t : State), exec c s = .next t → t.pending = s.pending

/-- Every command answers a next state, whatever state and operands it meets; only a debug-port access to the CP or to the
scan chains under its open scope is turned away by name, because those units are described nowhere (R815). No state is a
fault. -/
def Obligations.OnlyTheDebugUnitRefuses : Prop :=
  ∀ (c : Instr) (s : State),
    (∃ t, exec c s = .next t) ∨
    (exec c s = .refused .debugUnitNotDescribed ∧
      ((c = .debugTapInstruction .cp ∧ s.dev.scopes.getLsbD 0 = true) ∨
       (c = .debugTapInstruction .scan ∧ s.dev.scopes.getLsbD 2 = true)))

/-- The canonical form of the memories (LPDDR6, landings and scratch, flash) is kept by every step, from any state that
has it. -/
def Obligations.MemoriesStayCanonical : Prop :=
  ∀ s t : State, s.mem.canonical = true → step s = .next t → t.mem.canonical = true

/-- The memories after reset have the canonical form. -/
def Obligations.ResetMemoriesCanonical : Prop := State.reset.mem.canonical = true

/-- What reset leaves, as the spec states it: no command waiting; BOOT_STATUS IDLE with no step done, READY 0, BOOT_FAIL 0
(R85, R89); BOOT_CFG 0x20 (R91); no window of firmware open (R87); no dynamic address, both lengths 4,096, IBIs and hot-join
enabled, read pointer 0 (R136, R139 to R143, R177); causes and counts of the EVT window zero with EVT_IBI_EN 0x001F, as its
table gives it (R175); every channel IDLE with an empty sequence store (R151); every die-common domain powered and no
other (R85); source 0 and class 0 of device time in FREE (R188, R193); LPDDR6, landings and scratch with nothing listed. -/
def Obligations.ResetLeavesTheStatedValues : Prop :=
  let s := State.reset
  s.pending = [] ∧
  s.dev.boot.state = .idle ∧ s.dev.boot.step = 0 ∧ s.dev.boot.lastDone = 0 ∧ s.dev.boot.ready = false ∧
  s.dev.boot.fail = 0 ∧ s.dev.boot.cfgWord = 0x20 ∧ s.dev.boot.soft = [] ∧ s.dev.windowsOpen = false ∧
  s.dev.i3c.dyn = none ∧ s.dev.i3c.mwl = 4096 ∧ s.dev.i3c.mrl = 4096 ∧ s.dev.i3c.readPtr = 0 ∧
  s.dev.i3c.ibiOn = true ∧ s.dev.i3c.hjOn = true ∧
  s.dev.evt.cause = 0 ∧ s.dev.evt.ibiEn = 0x001F ∧ s.dev.evt.ringWr = 0 ∧ s.dev.evt.ringRd = 0 ∧
  s.dev.evt.vlogCount = 0 ∧ s.dev.evt.flogCount = 0 ∧
  (∀ ch, (s.dev.chan ch).state = .idle ∧ (s.dev.chan ch).store = []) ∧
  s.dev.pwr.dieOn = 0xFF ∧ s.dev.pwr.domains = [] ∧
  s.dev.time.servo = .free ∧ s.dev.time.source = 0 ∧ s.dev.time.quality = 0 ∧
  s.mem.lp = [] ∧ s.mem.sram = []

/-! ## Resets and the I3C target -/

/-- Resets (R85, R86, R90, R822): every one leaves the power-on state, LPDDR6 and SRAM lost and fuses and flash kept;
the ball low silences the target, its release starts it; BOOT_RESET does so only with its key. -/
def Obligations.ResetsReturnToPowerOn : Prop :=
  ∀ s : State,
    let fresh := fun (t : State) => t.dev.boot = Boot.reset ∧ t.dev.pwr.dieOn = 0xFF ∧ t.dev.pwr.domains = [] ∧
      t.dev.mbx = ⟨[], [], 1, []⟩ ∧ t.dev.evt = Evt.reset ∧ t.dev.time = TimeBase.reset ∧ t.dev.fuse = s.dev.fuse ∧
      t.mem.lp = [] ∧ t.mem.sram = [] ∧ t.mem.flash = s.mem.flash ∧ t.pending = s.pending
    (∃ t, exec .powerOnReset s = .next t ∧ fresh t ∧ t.dev.pkg.supplies = true ∧ t.dev.i3c = I3c.reset) ∧
    (∃ t, exec .packageResetAssert s = .next t ∧ fresh t ∧ t.dev.pkg.ballLow = true ∧ t.dev.pkg.targetUp = false) ∧
    (∃ t, exec .supplyUndervoltage s = .next t ∧ fresh t ∧ t.dev.i3c = I3c.reset) ∧
    (s.dev.pkg.ballLow = true →
      exec .packageResetRelease s = .next (s.withDev { s.dev with
        pkg := { s.dev.pkg with ballLow := false, targetUp := s.dev.pkg.supplies }
        i3c := { s.dev.i3c with releasedAt := s.dev.time.now } })) ∧
    (s.dev.takesPrivate = true → ∃ t, exec (.bootReset 0x0860DEAD) s = .next t ∧ fresh t) ∧
    (∀ key, s.dev.takesPrivate = true → key ≠ 0x0860DEAD →
      exec (.bootReset key) s = .next (s.withDev ((s.dev.violation 2 0 0x04 0).wrote 0x2C)))

/-- The CCCs that set the target's own state (R47, R136, R139, R140, R142, R146, R177): each, taken in SDR, changes what it
names and nothing else. -/
def cccsSetTheTarget : Prop :=
  ∀ s : State, s.dev.takesCcc = true →
    let with_ := fun (i : I3c) => s.withDev { s.dev with i3c := i }
    exec .enec s = .next (with_ { s.dev.i3c with ibiOn := true, hjOn := true }) ∧
    exec .disec s = .next (with_ { s.dev.i3c with ibiOn := false, hjOn := false }) ∧
    exec .rstdaa s = .next (with_ { s.dev.i3c with dyn := none }) ∧
    (∀ a, exec (.entdaa a) s = .next (with_ (if s.dev.i3c.dyn = none then { s.dev.i3c with dyn := some a } else s.dev.i3c))) ∧
    (∀ a, exec (.setdasa a) s = .next (with_ (if s.dev.i3c.dyn = none then { s.dev.i3c with dyn := some a } else s.dev.i3c))) ∧
    (∀ a, exec (.setnewda a) s = .next (with_ (if s.dev.i3c.dyn = none then s.dev.i3c else { s.dev.i3c with dyn := some a }))) ∧
    (∀ n, exec (.setmwl n) s = .next (with_ { s.dev.i3c with mwl := if n < 8 then 8 else if 4096 < n then 4096 else n })) ∧
    (∀ n, exec (.setmrl n) s = .next (with_ { s.dev.i3c with mrl := if n < 8 then 8 else if 4096 < n then 4096 else n })) ∧
    (∀ a : Byte, exec (.rstact a) s = .next (with_ { s.dev.i3c with
      rstact := some (if a = 1 then 1 else if a = 2 then 2 else 0) })) ∧
    exec .enthdr0 s = .next (with_ { s.dev.i3c with hdr := .ddr })

/-- The CCCs that read (R137 to R139, R837): the bytes the target answers, most significant first, and no other change but
that GETSTATUS clears the protocol error bit. GETCAPS answers four bytes whose values the spec does not state. -/
def cccsReadTheTarget : Prop :=
  ∀ s : State, s.dev.takesCcc = true →
    let sends := fun (bs : List Byte) => s.withDev { s.dev with i3c := { s.dev.i3c with cccOut := bs } }
    exec .getmwl s = .next (sends [BitVec.ofNat 8 (s.dev.i3c.mwl / 256), BitVec.ofNat 8 s.dev.i3c.mwl]) ∧
    exec .getmrl s = .next (sends [BitVec.ofNat 8 (s.dev.i3c.mrl / 256), BitVec.ofNat 8 s.dev.i3c.mrl]) ∧
    (∃ bs, exec .getpid s = .next (sends bs) ∧ bs.length = 6 ∧
      beNat bs = 0x0A3E * 2 ^ 33 + 2 ^ 32 + s.dev.fuse.serial.toNat % 2 ^ 32) ∧
    exec .getbcr s = .next (sends [0x26]) ∧
    exec .getdcr s = .next (sends [0x00]) ∧
    (∃ bs, exec .getcaps s = .next (sends bs) ∧ bs.length = 4) ∧
    (∃ bs, exec .getstatus s = .next (s.withDev { s.dev with
        i3c := { s.dev.i3c with cccOut := bs, protoErr := false } }) ∧ bs.length = 2 ∧
      ((∀ b ∈ s.dev.evt.ibi, b < 256) → beNat bs =
        (s.dev.evt.ibi.headD 0) * 256 + (if s.dev.i3c.protoErr then 32 else 0) + min 15 s.dev.evt.ibi.length))

/-- The common command codes (R47, R136 to R142, R146, R177, R837): those that set the target and those that read it; both
lengths are 4,096 at reset, and no IBI is sent without a dynamic address. -/
def Obligations.CccsActOnTheTarget : Prop :=
  cccsSetTheTarget ∧ cccsReadTheTarget ∧ State.reset.dev.i3c.mwl = 4096 ∧ State.reset.dev.i3c.mrl = 4096 ∧
  (∀ (s : State) (acked : Bool), s.dev.i3c.dyn = none → exec (.ibiSend acked) s = .next s)

/-- What the bus does to the target (R140 to R143, R146, R177, R181): the HDR exit pattern ends HDR and any ignoring of the
bus; the target reset pattern acts as RSTACT says; a read address is kept; one hot-join request is sent; the pending IBI of
the lowest data byte is sent, and stays pending when refused; unsupported CCCs and modes are logged. -/
def Obligations.BusEventsMoveTheTarget : Prop :=
  ∀ s : State,
    (s.dev.pkg.targetUp = true → exec .hdrExit s = .next (s.withDev { s.dev with i3c := { s.dev.i3c with hdr := .sdr } })) ∧
    (s.dev.pkg.targetUp = true → s.dev.i3c.rstact ≠ some 0 → s.dev.i3c.rstact ≠ some 2 →
      exec .targetResetPattern s = .next (s.withDev { s.dev with i3c := { s.dev.i3c with
        mwl := 4096, mrl := 4096, readPtr := 0, ibiOn := true, hjOn := true, hdr := .sdr, rstact := none } })) ∧
    (s.dev.pkg.targetUp = true → s.dev.i3c.rstact = some 2 → exec .targetResetPattern s = .next s.packageReset) ∧
    (∀ a : Word, s.dev.takesPrivate = true → a.toNat % 4 = 0 →
      exec (.i3cAddressWrite a) s = .next (s.withDev { s.dev with i3c := { s.dev.i3c with readPtr := a } })) ∧
    (∀ n, s.dev.takesPrivate = true →
      exec (.i3cMalformedTransfer (.short n)) s = .next (s.withDev (s.dev.violation 0 0 0x0B (n % 4)))) ∧
    (∀ a : Word, s.dev.takesPrivate = true →
      exec (.i3cMalformedTransfer (.unaligned a)) s = .next (s.withDev (s.dev.violation 0 0 0x03 a.toNat))) ∧
    (s.dev.pkg.targetUp = true → s.dev.i3c.dyn = none → s.dev.i3c.hjOn = true → s.dev.i3c.hjSent = false →
      ∃ t, exec .hotJoinRequest s = .next t ∧ t.dev.i3c = { s.dev.i3c with hjSent := true } ∧
        s.dev.i3c.releasedAt + 10 * oneMs ≤ t.dev.time.now) ∧
    (∀ b rest acked, s.dev.evt.ibi = b :: rest → s.dev.takesCcc = true → s.dev.i3c.dyn.isSome = true →
      s.dev.i3c.ibiOn = true →
      exec (.ibiSend acked) s = .next (s.withDev { s.dev with
        i3c := { s.dev.i3c with ibiOut := some b }
        evt := { s.dev.evt with ibi := if acked then rest else b :: rest } })) ∧
    (∀ c : Byte, s.dev.takesCcc = true →
      exec (.unsupportedCcc c) s = .next (s.withDev (s.dev.violation 0 0 0x09 c.toNat))) ∧
    (∀ mode, s.dev.takesCcc = true → 1 ≤ mode → mode ≤ 3 → ∃ t, exec (.enthdrUnsupported mode) s = .next t ∧
      t.dev.i3c = { s.dev.i3c with hdr := .ignoring } ∧ t.dev.evt = (s.dev.violation 0 0 0x07 mode).evt)

/-! ## Registers and private transfers -/

/-- Register accesses in their plain form (R18, R144, R148, R169, R178, R181, R226, R734): a word written to EVT_IBI_EN is
held and one written to an RO register is logged; a read of an RC counter returns and clears it; the ring read count within
its range is taken, and out of range is logged; an index write latches its log entry; LATCH and ON_PPS latch and arm. -/
def Obligations.RegistersTakeTheirWrites : Prop :=
  ∀ s : State, s.dev.takesPrivate = true →
    (∀ v : Word, 8 ≤ s.dev.i3c.mwl → exec (.registerWrite 0x2004 [v]) s = .next (s.withDev { s.dev with
      evt := { s.dev.evt with ibiEn := v.setWidth 13 }, i3c := { s.dev.i3c with readPtr := 0x2008 } })) ∧
    (∀ v : Word, 8 ≤ s.dev.i3c.mwl → exec (.registerWrite 0x2020 [v]) s = .next (s.withDev
      ((s.dev.violation 0 0 0x01 0x2020).wrote 0x2024))) ∧
    (∀ i : Fin 16, 4 ≤ s.dev.i3c.mrl → s.dev.i3c.readPtr = BitVec.ofNat 32 (0x2040 + 4 * i.val) →
      ∃ t, exec (.rcRegisterRead 1) s = .next t ∧
        t.dev.i3c.readOut = [BitVec.ofNat 32 (s.dev.evt.vcnt.getD i.val 0)] ∧ t.dev.evt.vcnt.getD i.val 0 = 0 ∧
        (∀ j, j ≠ i.val → t.dev.evt.vcnt.getD j 0 = s.dev.evt.vcnt.getD j 0)) ∧
    (∀ v : Word, s.dev.evt.ringWr < 512 → s.dev.evt.ringRd = s.dev.evt.ringWr → v.toNat = s.dev.evt.ringRd →
      exec (.evtRingRdWrite v) s = .next (s.withDev (s.dev.wrote 0x2018))) ∧
    (∀ v : Word, s.dev.evt.ringRd = s.dev.evt.ringWr → s.dev.evt.ringWr < 512 → v.toNat % 512 ≠ s.dev.evt.ringRd →
      exec (.evtRingRdWrite v) s = .next (s.withDev ((s.dev.violation 1 0xF 0x11 v.toNat).wrote 0x2018))) ∧
    (∀ v : Word, exec (.evtVlogIdxWrite v) s = .next (s.withDev { s.dev with
      evt := { s.dev.evt with vlogIdx := v.toNat % 256, vlogOut := s.dev.evt.vlog.getD (v.toNat % 256) VlogEntry.empty }
      i3c := { s.dev.i3c with readPtr := 0x2028 } })) ∧
    (∀ v : Word, exec (.evtFlogIdxWrite v) s = .next (s.withDev { s.dev with
      evt := { s.dev.evt with flogIdx := v.toNat % 64, flogOut := s.dev.evt.flog.getD (v.toNat % 64) FlogEntry.empty }
      i3c := { s.dev.i3c with readPtr := 0x2108 } })) ∧
    (s.dev.windowsOpen = true → exec .latch s = .next (s.withDev { s.dev with
      time := { s.dev.time with snap := s.dev.stamp, snapValid := true, onPps := false }
      i3c := { s.dev.i3c with readPtr := 0x3004 } })) ∧
    (s.dev.windowsOpen = true → exec .onPps s = .next (s.withDev { s.dev with
      time := { s.dev.time with onPps := true }, i3c := { s.dev.i3c with readPtr := 0x3004 } }))

/-- A read of words that lie outside every window (R148): it returns zeros and makes one violation of code 0x02 with the
first address, however many words it reads. -/
def Obligations.ReadOutsideEveryWindowLogsOnce : Prop :=
  ∀ (s : State) (n : Nat), s.dev.takesPrivate = true → 1 ≤ n → 4 * n ≤ s.dev.i3c.mrl →
    (∀ k, k < n → windowOf ((s.dev.i3c.readPtr.toNat + 4 * k) % 2 ^ 32) = none) →
    s.dev.i3c.readPtr.toNat + 4 * n < 2 ^ 32 →
    exec (.readOutsideWindow n) s = .next (s.withDev { s.dev.violation 0 0 0x02 s.dev.i3c.readPtr.toNat with
      i3c := { s.dev.i3c with
        readPtr := BitVec.ofNat 32 (s.dev.i3c.readPtr.toNat + 4 * n), readOut := List.replicate n 0 } })

/-- The violation log (R178): a violation that merges raises the newest entry's REPEAT and makes no entry; one that does
not makes a new entry at COUNT modulo 256 with its interface, unit and code; either is counted for its interface and
sets EVT_CAUSE.VIOLATION. -/
def Obligations.ViolationsMergeOrEnter : Prop :=
  ∀ (d : Device) (iface unit code detail : Nat),
    let d' := d.violation iface unit code detail
    d'.evt.cause.getLsbD 12 = true ∧
    d'.evt.vcnt.getD iface 0 = min (d.evt.vcnt.getD iface 0 + 1) 0xFFFFFFFF ∧
    (d.vlogMerges iface unit code detail = true → d'.evt.vlogCount = d.evt.vlogCount ∧
      d'.evt.vlogNewest.w1 = d.evt.vlogNewest.w1 ∧
      d'.evt.vlogNewest.w0.toNat % 65536 = min (d.evt.vlogNewest.w0.toNat % 65536 + 1) 0xFFFF) ∧
    (d.vlogMerges iface unit code detail = false → d'.evt.vlogCount = (d.evt.vlogCount + 1) % 2 ^ 32 ∧
      (∃ e, d'.evt.vlog.look (d.evt.vlogCount % 256) = some e ∧ e.w0 = vlogW0 iface unit code 1 ∧
        e.w1 = BitVec.ofNat 32 detail ∧ e.w2 = BitVec.ofNat 32 (d.time.ns16 / oneS)) ∧
      d'.evt.vlogAt = d.time.now)

/-! ## Bring-up -/

/-- A write of BOOT_STEP that is permitted (R90, R92 to R94): its step number stands in BOOT_STATUS, STATE is BUSY, BOOT_FAIL
is cleared, the step's limit runs from now, and the read pointer is one word past. -/
def stepBegun (s t : State) (code : Nat) : Prop :=
  t.dev.boot.step = code ∧ t.dev.boot.state = .busy ∧ t.dev.boot.fail = 0 ∧ t.dev.boot.failExt = 0 ∧
  t.dev.boot.startedAt = s.dev.time.now ∧ t.dev.i3c = { s.dev.i3c with readPtr := 4 } ∧ t.dev.mbx = s.dev.mbx ∧
  t.dev.time = s.dev.time ∧ t.dev.fuse = s.dev.fuse ∧ t.pending = s.pending

/-- The boot steps (R98 to R130), each permitted where it stands in the order and finding nothing wrong: what its work
leaves, and the result BOOT_STEP_END will publish. -/
def Obligations.BootStepsDoTheirWork : Prop :=
  ∀ s : State, s.dev.takesPrivate = true → s.dev.pkg.shutdown = false →
    let runs := fun (c : Instr) (code : Nat) (P : State → Prop) => s.dev.boot.permits code = true →
      ∃ t, exec c s = .next t ∧ stepBegun s t code ∧ P t
    runs .ident 1 (fun t => t.mem = s.mem ∧ t.dev.boot.result =
      some (if (gradeLimits s.dev.fuse.gradeCode).1 then .done else .failed 0x01 0 0)) ∧
    ((∀ k, k < 8 → s.dev.fuse.records k = []) → runs .fuseLoad 2 (fun t =>
      t.mem = s.mem ∧ t.dev.view = s.dev.view ∧ t.dev.boot.result = some .done)) ∧
    runs (.sweep []) 3 (fun t => t.mem = s.mem ∧ t.dev.view = s.dev.view ∧ t.dev.boot.soft = s.dev.boot.soft ∧
      t.dev.boot.result = some .done) ∧
    runs (.clocks .ok) 4 (fun t => t.mem = s.mem ∧ (∀ k, k < 8 → t.dev.pwr.domains.look k = some 0xFFF) ∧
      t.dev.boot.pll = true ∧ t.dev.boot.result = some .done) ∧
    (s.dev.boot.train = [] → (∀ n, s.dev.view.lanes.look n = none) → runs .train 5 (fun t => t.mem = s.mem ∧
      (∀ i, i < 48 → t.dev.boot.train.getD i 0 = 1) ∧ t.dev.boot.result = none)) ∧
    (s.dev.boot.fwSrc = 0 → s.mem.flashSize.isSome = true →
      (∀ len, headerCheck (Cells.readAll 0xFF#8 s.mem.flash (s.dev.boot.fwOfs * 65536) 12) = .ok len →
        runs .fwLoad 6 (fun t => t.dev.boot.fwLen = len ∧ t.dev.boot.fwPtr = len ∧ t.dev.boot.result = some .done ∧
          t.mem.lp = Cells.writeAll 0#8 s.mem.lp s.dev.fwBase
            (Cells.readAll 0xFF#8 s.mem.flash (s.dev.boot.fwOfs * 65536) len) ∧
          t.mem.sram = s.mem.sram ∧ t.mem.flash = s.mem.flash))) ∧
    runs .fwVerify 7 (fun t => t.mem = s.mem ∧
      match verifyImage s.dev.fuse (Cells.readAll 0#8 s.mem.lp s.dev.fwBase s.dev.boot.fwLen) with
      | none => t.dev.sec.verified = true ∧ t.dev.boot.result = some .done ∧
          t.dev.sec.secVer = imgField (Cells.readAll 0#8 s.mem.lp s.dev.fwBase s.dev.boot.fwLen) 12 1
      | some e => t.dev.sec = s.dev.sec ∧ t.dev.boot.result = some (.failed e.1 e.2 0)) ∧
    (∀ up : BitVec 8, s.dev.pwr.dieOn &&& ~~~ (up ||| BitVec.twoPow 8 s.dev.lead) = 0 → runs (.fwStart up) 8 (fun t =>
      t.mem = s.mem ∧ t.dev.boot.result = some .done)) ∧
    (s.dev.boot.soft.length ≤ 256 → runs (.kat [] []) 9 (fun t => t.mem = s.mem ∧ t.dev.view = s.dev.view ∧
      t.dev.boot.result = some .done)) ∧
    runs .ready 10 (fun t => t.mem = s.mem ∧ t.dev.sec.defectDigest = s.dev.defectDigest ∧ t.dev.boot.result = some .done)

/-- Events of a step in progress (R92, R94, R97, R112, R120, R121): a result is published as DONE or FAILED; a training item
takes its status; the next words of an image in WAIT_DATA are laid in the firmware area; a step at its limit and a load left
idle fail. -/
def Obligations.BootEventsPublish : Prop :=
  ∀ s : State,
    (s.dev.boot.state = .busy → s.dev.boot.step ≠ 10 → s.dev.boot.result = some .done → ∃ t,
      exec .bootStepEnd s = .next t ∧ t.mem = s.mem ∧ t.dev.boot = { s.dev.boot with
        state := .done, lastDone := s.dev.boot.step, result := none
        fwStarted := s.dev.boot.fwStarted || s.dev.boot.step == 8 } ∧
      t.dev.evt.ibi = (if s.dev.boot.ibiEn && s.dev.i3c.dyn.isSome && s.dev.i3c.ibiOn
        then insertNat s.dev.boot.step s.dev.evt.ibi else s.dev.evt.ibi)) ∧
    (∀ code detail ext, s.dev.boot.state = .busy → s.dev.boot.result = some (.failed code detail ext) → ∃ t,
      exec .bootStepEnd s = .next t ∧ t.mem = s.mem ∧ t.dev.boot = { s.dev.boot with
        state := .failed, result := none, failExt := ext
        fail := BitVec.ofNat 32 (code * 2 ^ 24 + s.dev.boot.step * 65536 + detail % 65536) }) ∧
    (∀ item : Fin 48, 26 ≤ item.val → s.dev.boot.state = .busy → s.dev.boot.step = 5 →
      s.dev.boot.train.getD item.val 0 = 1 → (∃ j, j < 48 ∧ j ≠ item.val ∧ s.dev.boot.train.getD j 0 = 1) →
      exec (.trainItemEnd item 2 0) s = .next (s.withDev { s.dev with boot := { s.dev.boot with
        train := s.dev.boot.train.put item.val 2 } })) ∧
    (∀ (w : Word) (off : Nat), s.dev.takesPrivate = true → 8 ≤ s.dev.i3c.mwl → off % 4 = 0 → off < 33554432 →
      s.dev.boot.state = .waitData → s.dev.boot.fwPtr = off → off + 4 < s.dev.boot.fwLen →
      exec (.bootFwwinWrite off [w]) s = .next (s.withAll
        { s.dev with
          boot := { s.dev.boot with fwPtr := off + 4, lastAccept := s.dev.time.now }
          i3c := { s.dev.i3c with readPtr := BitVec.ofNat 32 (0x40000 + off + 4) } }
        { s.mem with lp := Cells.writeAll 0#8 s.mem.lp (s.dev.fwBase + off) (leBytes 4 w.toNat) })) ∧
    (s.dev.boot.state = .waitData → ∃ t, exec .loadIdle s = .next t ∧ t.mem = s.mem ∧ t.dev.boot.state = .failed ∧
      t.dev.boot.fail = BitVec.ofNat 32 (0x33 * 2 ^ 24 + s.dev.boot.step * 65536) ∧
      s.dev.boot.lastAccept + 10 * oneS ≤ t.dev.time.now) ∧
    (s.dev.boot.state = .busy → s.dev.boot.step ≠ 8 → ¬ (s.dev.boot.step = 6 ∧ s.dev.boot.fwSrc = 1) → ∃ t,
      exec .stepTimeout s = .next t ∧ t.mem = s.mem ∧ t.dev.boot.state = .failed ∧
      t.dev.boot.fail = BitVec.ofNat 32 (0xF0 * 2 ^ 24 + s.dev.boot.step * 65536) ∧
      s.dev.boot.startedAt + stepLimit s.dev.boot.step * oneMs ≤ t.dev.time.now)

/-- A write of BOOT_STEP that is refused (R93): of a code outside the step table, of a step not permitted in the present state, in
BUSY or WAIT_DATA, or after READY. REFUSED is set and a violation logged with the code; nothing else of the machine changes but
the read pointer, which every register write moves (R144). -/
def Obligations.BootStepRefused : Prop :=
  (∀ (b : Boot) (code : Nat), (code = 0 ∨ 10 < code ∨ b.state = .busy ∨ b.state = .waitData ∨ b.ready = true) →
    b.permits code = false) ∧
  ∀ s : State, s.dev.takesPrivate = true →
    let refused := fun (code : Nat) => (Host.Outcome.next (s.withDev ((({ s.dev with
      boot := { s.dev.boot with refused := true } }).violation 2 0 0x01 code).wrote 4)) :
        Host.Outcome State Fault Refusal)
    (∀ x ∈ ([(1, .ident), (2, .fuseLoad), (5, .train), (6, .fwLoad), (7, .fwVerify), (10, .ready)] : List (Nat × Instr)),
      s.dev.boot.permits x.1 = false → exec x.2 s = refused x.1) ∧
    (∀ finds, s.dev.boot.permits 3 = false → exec (.sweep finds) s = refused 3) ∧
    (∀ outcome, s.dev.boot.permits 4 = false → exec (.clocks outcome) s = refused 4) ∧
    (∀ reported, s.dev.boot.permits 8 = false → exec (.fwStart reported) s = refused 8) ∧
    (∀ engines units, s.dev.boot.permits 9 = false → exec (.kat engines units) s = refused 9) ∧
    (∀ v : Word, 8 ≤ s.dev.i3c.mwl → s.dev.boot.permits (v.toNat % 256) = false →
      exec (.registerWrite 0 [v]) s = refused (v.toNat % 256))

/-! ## Mailboxes -/

/-- A doorbell written with 1 in IDLE or RESP while the mailbox service runs (R151): the request page is taken, the channel
is BUSY with the page's SEQ and an empty response. A valid request of an opcode that is served waits for its command; a bad
CRC forms BAD_CRC at once (R157). A doorbell in BUSY, and one of another value, is only logged. -/
def Obligations.DoorbellTakesTheRequest : Prop :=
  ∀ (s : State) (ch : Fin 8), s.dev.takesPrivate = true → s.dev.windowsOpen = true →
    let c := s.dev.chan ch.val
    let r := c.request
    (c.state ≠ .busy → s.dev.evt.faultCp.getLsbD s.dev.lead = false → r.len ≤ 4016 → r.crcOk = true →
      (∀ e ∈ c.store, e.seq ≠ r.seq) → staticCheck s.dev r = none → exec (.mbxDoorbell ch 1) s = .next (s.withDev
        ((s.dev.setChan ch.val { c with state := .busy, seq := r.seq, resp := [], taken := some r, formed := none }).wrote
          (mbxAddr ch.val 0xFC4)))) ∧
    (c.state ≠ .busy → s.dev.evt.faultCp.getLsbD s.dev.lead = false → r.len ≤ 4016 → r.crcOk = false →
      ∃ t, exec (.mbxDoorbell ch 1) s = .next t ∧ (t.dev.chan ch.val).state = .busy ∧
        (t.dev.chan ch.val).formed = some ⟨0x12, false, [], false, none⟩) ∧
    (c.state = .busy → exec (.mbxDoorbell ch 1) s = .next (s.withDev
      ((s.dev.violation 1 ch.val 0x01 c.seq).wrote (mbxAddr ch.val 0xFC4)))) ∧
    (∀ v : Word, v ≠ 1 → exec (.mbxDoorbell ch v) s = .next (s.withDev
      ((s.dev.violation 1 ch.val 0x04 v.toNat).wrote (mbxAddr ch.val 0xFC4))))

/-- The other channel operations (R151, R152, R156, R158): FLUSH empties the sequence store outside BUSY; a formed answer is
published as the response page, the channel is RESP, and an answer that enters is the newest entry of the store; IBI 0x20 + c
arises when the request asks for it. -/
def Obligations.ChannelsPublishAndFlush : Prop :=
  ∀ (s : State) (ch : Fin 8),
    let c := s.dev.chan ch.val
    (s.dev.takesPrivate = true → s.dev.windowsOpen = true → c.state ≠ .busy →
      exec (.flush ch) s = .next (s.withDev ((s.dev.setChan ch.val { c with store := [] }).wrote (mbxAddr ch.val 0xFCC)))) ∧
    (∀ r a, c.state = .busy → c.taken = some r → c.formed = some a → ∃ t, exec (.mbxResponseFormed ch) s = .next t ∧
      t.mem = s.mem ∧
      t.dev.chan ch.val = { c with
        state := .resp, resp := respPage r a, taken := none, formed := none
        store := if a.enter then enterStore c.store (storeEntry s.dev r a) else c.store } ∧
      t.dev.evt = (if r.flags % 2 = 1 ∧ s.dev.i3c.ibiOn = true
        then { s.dev.evt with ibi := insertNat (0x20 + ch.val) s.dev.evt.ibi } else s.dev.evt))

/-- A sequence store (R158): an entry holds the request's SEQ, OPCODE, LEN and CRC and the whole response; it enters behind
those before it, and the oldest is dropped when it would be the 65th, so that a store never holds more than 64. -/
def Obligations.SequenceStoreKeepsTheNewest64 : Prop :=
  (∀ (d : Device) (r : Request) (a : Reply),
    let e := storeEntry d r a
    e.seq = r.seq ∧ e.op = r.op ∧ e.len = r.len ∧ e.crc = r.crc ∧ e.payload = a.payload ∧
    (a.handle = none → e.status = a.status)) ∧
  (∀ (st : List StoreEntry) (e : StoreEntry), st.length < 64 → enterStore st e = st ++ [e]) ∧
  (∀ (st : List StoreEntry) (x e : StoreEntry), st.length = 63 → enterStore (x :: st) e = st ++ [e]) ∧
  (∀ (st : List StoreEntry) (e : StoreEntry), st.length ≤ 64 → (enterStore st e).length ≤ 64)

/-- What answering does (R151, R812): the channel has its answer formed; besides that, a command of the configuration
digest answered OK or ACCEPTED after READY extends the digest, and nothing else changes. -/
def Obligations.AnswersFormAndExtend : Prop :=
  ∀ (d : Device) (ch : Nat) (r : Request) (a : Reply), a.status ≠ 0x13 →
    d.answer ch r a =
      (if d.boot.ready = true ∧ a.status ≤ 1 ∧ r.op ∈ extends_ then d.extendConfig r.op r.body else d).setChan ch
        { d.chan ch with formed := some a }

/-- The mailbox's own commands (R170 to R173): NOP echoes; HANDLE_QUERY and RESULT_GET report a handle that is held, and
releasing it ends its result; HANDLE_CANCEL asks a pending operation to stop; HANDLE_LIST lists; DIAG_COLLECT takes a handle
that DIAG_LATCH completes with a ring entry and the summaries. -/
def Obligations.MailboxServiceCommands : Prop :=
  ∀ (s : State) (ch : Fin 8) (r : Request),
    (s.holds ch 0x0100 r → exec (.nop ch) s = .next (s.answered ch r s.dev (okWith r.body))) ∧
    (∀ h, s.holds ch 0x0101 r → s.dev.handle (r.u 0 4) = some h → Reports (.handleQuery ch) s ch r (fun p =>
      p.length = 12 ∧ fieldAt p 0 4 = r.u 0 4 ∧ fieldAt p 4 1 = (if h.final.isSome then 1 else 0))) ∧
    (∀ h, s.holds ch 0x0102 r → s.dev.handle (r.u 0 4) = some h → h.final.isSome = true → r.u 4 4 ≤ h.result.length →
      r.u 10 2 = 0 → Reports (.resultGet ch) s ch r (fun p =>
        p.drop 12 = (h.result.drop (r.u 4 4)).take (min (min (r.u 8 2) 4068) (h.result.length - r.u 4 4)))) ∧
    (∀ h, s.holds ch 0x0103 r → s.dev.handle (r.u 0 4) = some h → h.final = none → ∃ t, exec (.handleCancel ch) s = .next t ∧
      (t.dev.chan ch.val).formed = some (okWith [])) ∧
    (s.holds ch 0x0104 r → Reports (.handleList ch) s ch r (fun p =>
      p.length = 4 + 4 * (s.dev.mbx.handles.filter fun e => !e.2.released).length)) ∧
    (s.holds ch 0x0108 r → s.dev.mbx.handles.length < 256 → Accepts (.diagCollect ch) s ch (fun h t =>
      t.dev.mbx.diagHandle = s.dev.mbx.diagHandle ++ [h] ∧ t.mem = s.mem)) ∧
    (∀ h hs x, s.dev.mbx.diagHandle = h :: hs → s.dev.mbx.handles.look h = some x → x.final = none →
      ∃ t, exec .diagLatch s = .next t ∧ t.mem = s.mem ∧ t.dev.mbx.diagHandle = hs ∧
        (t.dev.mbx.handles.look h).bind (·.final) = some 0x00 ∧ t.dev.evt.ringWr = (s.dev.evt.ringWr + 1) % 512 ∧
        t.dev.evt.cause.getLsbD 3 = true)

/-! ## Device time, triggers and PTP -/

/-- The time commands (R192, R199, R202, R204 to R207, R211, R217, R228): reports of device time, of a compensation record
and of a port; settings held as given; a step decided by TIME_SET; a trigger group started; an output attached or
detached; a PTP port given its role. -/
def Obligations.TimeCommandsAct : Prop :=
  ∀ (s : State) (ch : Fin 8) (r : Request),
    (s.holds ch 0x0200 r → Reports (.timeStatus ch) s ch r (fun p => p.length = 40 ∧
      fieldAt p 0 16 = s.dev.stamp.toNat ∧ fieldAt p 16 1 = s.dev.time.servo.code ∧
      fieldAt p 36 4 = s.dev.time.steps % 2 ^ 32)) ∧
    (s.mayConfigure ch setTimeConfig r → Sets (.timeConfig ch) s ch (fun t => t.dev.time.mode = r.u 0 1 ∧
      t.dev.time.domain = r.u 1 1 ∧ t.dev.time.allowStep = (r.u 2 2 % 2 == 1) ∧ t.dev.time.holdMax = r.u 4 2 ∧
      t.dev.time.stepThresh = r.u 8 4)) ∧
    (s.holds ch 0x0202 r → (s.dev.time.source = 0 ∨ s.dev.time.source = 1) → s.dev.time.step = none →
      Sets (.timeSet ch) s ch (fun t => t.dev.time = { s.dev.time with
        step := some (.mk (((r.u 0 8 * oneS + r.u 8 4 * oneNs : Nat) : Int) - s.dev.time.ns16) s.dev.time.now true) })) ∧
    (s.mayConfigure ch setCompSet r → r.u 0 1 = 1 → r.u 1 1 < 4 → s.dev.pwr.dieOn.getLsbD (r.u 1 1 / 2) = true →
      (r.i 4 8).natAbs ≤ oneS → (r.i 12 8).natAbs ≤ oneS → (r.i 20 8).natAbs ≤ oneS →
      Sets (.compSet ch) s ch (fun t => t.dev.comp 1 (r.u 1 1) = ⟨0, r.i 4 8, r.i 12 8, r.i 20 8⟩)) ∧
    (s.holds ch 0x0204 r → r.u 0 1 = 0 → r.u 1 1 < 16 → Reports (.compGet ch) s ch r (fun p => p.length = 28 ∧
      fieldAt p 1 1 = r.u 1 1 ∧ fieldAt p 4 8 = unsigned 64 (s.dev.comp 0 (r.u 1 1)).a)) ∧
    (s.mayConfigure ch setTrigGroup r → r.u 1 1 = 0 → (s.dev.group (r.u 0 1)).running = false →
      100000 * oneNs ≤ r.u 4 8 → r.u 4 8 ≤ 10 * oneS → r.u 12 12 ≠ 0 → r.u 20 4 < 1000000000 →
      s.dev.time.ns16 + 2 * oneMs ≤ r.u 12 8 * oneS + r.u 20 4 * oneNs → s.dev.periodFits (r.u 0 1) (r.u 4 8) = true →
      Sets (.trigGroup ch) s ch (fun t => t.dev.group (r.u 0 1) =
        ⟨true, true, r.u 4 8, r.u 12 8 * oneS + r.u 20 4 * oneNs, 0, none⟩)) ∧
    (s.mayConfigure ch setTrigOut r → s.dev.pwr.dieOn.getLsbD (r.u 0 1 / 2) = true → r.u 1 1 = 0xFF →
      Sets (.trigOut ch) s ch (fun t => t.dev.tout (r.u 0 1) = ⟨none, none, []⟩)) ∧
    (s.mayConfigure ch setTrigOut r → s.dev.pwr.dieOn.getLsbD (r.u 0 1 / 2) = true → r.u 1 1 < 8 → 100 ≤ r.u 12 8 →
      (s.dev.group (r.u 1 1)).hasPeriod = false → Sets (.trigOut ch) s ch (fun t => (t.dev.tout (r.u 0 1)).next =
        some ⟨r.u 1 1, r.u 2 1, r.u 3 1, r.u 4 8, r.u 12 8 * oneNs⟩)) ∧
    (s.mayConfigure ch setPtpPort r → r.u 0 1 < 4 → r.u 10 1 = 0 → r.u 1 1 < 4 →
      s.dev.pwr.dieOn.getLsbD (r.u 0 1 / 2) = true → (s.dev.ptp (partner (r.u 0 1))).role = r.u 1 1 →
      Sets (.ptpPort ch) s ch (fun t => (t.dev.ptp (r.u 0 1)).role = r.u 1 1 ∧
        (t.dev.ptp (r.u 0 1)).transport = r.u 2 1 ∧ (t.dev.ptp (r.u 0 1)).priority1 = r.u 8 1)) ∧
    (s.holds ch 0x0208 r → Reports (.ptpPortStatus ch) s ch r (fun p => p.length = 28 ∧
      fieldAt p 0 1 = (s.dev.ptp (r.u 0 1)).portState % 256 ∧ fieldAt p 24 4 = (s.dev.ptp (r.u 0 1)).violations % 2 ^ 32)) ∧
    (s.mayConfigure ch setPpsConfig r → Sets (.ppsConfig ch) s ch (fun t => t.dev.tim.pps.inEn = decide (r.u 0 1 = 1) ∧
      t.dev.tim.pps.outEn = decide (r.u 2 1 = 1) ∧ t.dev.tim.pps.inDelay = r.i 4 4 ∧ t.dev.tim.pps.outWidth = r.u 12 2))

/-- Trigger edges and pulses (R205 to R210): at the next edge of a group that runs, device time has reached it, the group's
count moves on, and every output attached to the group on a die that drives begins its pulse; the end of a pulse removes it. -/
def triggerEdgesDriveOutputs : Prop :=
  ∀ s : State, 0 < s.dev.time.addend →
    (∀ g : Fin 8, (s.dev.group g.val).running = true → (s.dev.group g.val).change = none →
      (s.dev.jobs.profile.state = .none) → Completes (.triggerEdge g) s (fun t =>
        t.dev.group g.val = { s.dev.group g.val with k := (s.dev.group g.val).k + 1 } ∧
        (s.dev.group g.val).edge (s.dev.group g.val).k ≤ t.dev.time.ns16 ∧ t.mem = s.mem ∧
        (∀ o, o < 16 → ∀ c, (s.dev.tout o).cfg = some c → c.group = g.val → (s.dev.tout o).next = none →
          s.dev.drives (o / 2) = true → (t.dev.tout o).pulses =
            (s.dev.tout o).pulses ++ [c.pulse ((s.dev.group g.val).edge (s.dev.group g.val).k)]))) ∧
    (∀ (o : Fin 16) p, (s.dev.tout o.val).pulses = [p] → Completes (.pulseEnd o) s (fun t =>
      (t.dev.tout o.val).pulses = [] ∧ p.2 ≤ t.dev.time.ns16 ∧ t.mem = s.mem))

/-- PPS (R200 to R203): the first edge of an enabled input counts as qualified and carries its stamp; three in a row
qualify the input; 2 s without one lose it; PPS out rises and falls. -/
def ppsFollowsItsEdges : Prop :=
  ∀ s : State,
    (∀ at_, s.dev.tim.pps.inEn = true → s.dev.tim.pps.lastQual = none → s.dev.time.onPps = false →
      s.dev.time.ppsSeconds = none → s.dev.time.following ≠ 4 → Completes (.ppsInEdge at_) s (fun t =>
        t.dev.tim.pps.run = min 3 (s.dev.tim.pps.run + 1) ∧ t.dev.tim.pps.lastQual = some
          (((t.dev.time.ns16 / 16384 * 16384 : Nat) : Int) - s.dev.tim.pps.inDelay * oneNs) ∧ t.mem = s.mem)) ∧
    (s.dev.tim.pps.inEn = true → 3 ≤ s.dev.tim.pps.run → s.dev.tim.pps.qualified = false →
      Completes .ppsQualified s (fun t => t.dev.tim.pps = { s.dev.tim.pps with qualified := true } ∧ t.mem = s.mem)) ∧
    (s.dev.tim.pps.inEn = true → s.dev.tim.pps.lastQual.isSome = true → Completes .ppsLost s (fun t =>
      t.dev.tim.pps.qualified = false ∧ t.dev.tim.pps.run = 0 ∧ t.dev.tim.pps.lastQual = none ∧
      s.dev.tim.pps.lastQualAt + 2 * oneS ≤ t.dev.time.now)) ∧
    (s.dev.tim.pps.outEn = true → Completes .ppsOutRise s (fun t => t.dev.tim.pps.outHigh = true ∧ t.mem = s.mem ∧
      t.dev.mbx = s.dev.mbx ∧ t.dev.jobs = s.dev.jobs)) ∧
    (s.dev.tim.pps.outHigh = true → Completes .ppsOutFall s (fun t =>
      t.dev.tim.pps = { s.dev.tim.pps with outHigh := false } ∧ t.mem = s.mem))

/-- Trigger groups and outputs (R205 to R210), PPS in and out (R200 to R203). That the first edge counts as qualified is the
model's choice (log entry 13). -/
def Obligations.TriggersAndPpsFollowTheirEdges : Prop := triggerEdgesDriveOutputs ∧ ppsFollowsItsEdges

/-- The servo (R193, R195, R196, R198): 16 good samples lock it and 8 bad ones unlock it; HOLD_MAX ends a holdover in FREE
under source 1, or 0 when no time was ever set; in HOLDOVER the class is that of the error bound of the moment; a pending step
is applied, counted, and raises TIME. -/
def Obligations.ServoChangesState : Prop :=
  ∀ s : State,
    (s.dev.time.servo = .acquire → 16 ≤ s.dev.time.goodRun → Completes .servoLock s (fun t =>
      t.dev.time.servo = .locked ∧ t.dev.time.source = s.dev.time.following ∧ t.dev.time.hold = false ∧
      t.dev.time.cls = classOf s.dev.time.estimate ∧ t.mem = s.mem)) ∧
    (s.dev.time.servo = .locked → 8 ≤ s.dev.time.badRun → Completes .servoUnlock s (fun t =>
      t.dev.time.servo = .acquire ∧ t.dev.time.samples = [] ∧ t.dev.time.following = s.dev.time.following ∧
      (s.dev.time.allowStep = true → t.dev.time.step.map (·.size) = some (-s.dev.time.lastOffset)) ∧ t.mem = s.mem)) ∧
    (s.dev.time.servo = .holdover → Completes .holdMaxExpiry s (fun t => t.dev.time.servo = .free ∧
      t.dev.time.source = (if s.dev.time.everSet then 1 else 0) ∧ t.dev.time.hold = false ∧ t.dev.time.cls = 0)) ∧
    (∀ at_, s.dev.time.servo = .holdover → 2 ≤ s.dev.time.source → Completes (.holdoverClassChange at_) s (fun t =>
      t.dev.time.cls = classOf t.dev.time.bound ∧ t.dev.time.servo = .holdover ∧ at_ ≤ t.dev.time.now ∧ t.mem = s.mem)) ∧
    (∀ p, s.dev.time.step = some p → Completes .timeStepApply s (fun t =>
      t.dev.time.step = none ∧ t.dev.time.steps = min (s.dev.time.steps + 1) 0xFFFFFFFF ∧ t.dev.time.everSet = true)) ∧
    (∀ (k : Fin 8) n, k.val ≠ s.dev.lead → s.dev.pwr.dieOn.getLsbD k.val = true → 200 < n →
      s.dev.evt.faultTb.getLsbD k.val = false → Completes (.tbSlaveFault k n) s (fun t =>
        t.dev.evt.faultTb.getLsbD k.val = true ∧ t.dev.pwr.tickWithdrawn.getLsbD k.val = true ∧
        (t.dev.tout (2 * k.val)).pulses = [] ∧ (t.dev.tout (2 * k.val + 1)).pulses = [] ∧ t.mem = s.mem))

/-- PTP (R213 to R223): a well-formed Announce on a port that takes part is kept as its master; a lost master is dropped; a
port that measures by peer delay sends a request and holds its transmit stamp; a one-step Sync crosses a transparent clock
with its residence time added; a residence value is dropped after 1 s. -/
def Obligations.PtpMessagesAct : Prop :=
  ∀ (s : State) (p : Fin 4), s.dev.boot.fwStarted = true → s.dev.pwr.dieOn.getLsbD (p.val / 2) = true →
    (∀ (m : PtpMsg) at_, (s.dev.ptp p.val).role = 1 → (s.dev.ptp p.val).foreign = none → m.messageType = 11 →
      m.version = 2 → m.udpOk = true → m.lengthOk = true → m.domain = s.dev.time.domain → m.nanos < 1000000000 →
      m.stepsRemoved < 255 → m.grandmaster ≠ s.dev.fuse.clockIdentity →
      Completes (.ptpMessageRx p m at_) s (fun t => t.mem = s.mem ∧ ∃ f, (t.dev.ptp p.val).foreign = some f ∧
        f.gm = m.grandmaster ∧ f.rank = m.rank ∧ f.announces = 1)) ∧
    (∀ f, s.dev.masterPort = some p.val → (s.dev.ptp p.val).foreign = some f → Completes .ptpMasterLost s (fun t =>
      (t.dev.ptp p.val).foreign = none ∧ t.mem = s.mem)) ∧
    (∀ at_, (s.dev.ptp p.val).peer = true → Completes (.ptpMessageTx p 2 at_) s (fun t => t.mem = s.mem ∧
      (t.dev.ptp p.val).txSeq = ((s.dev.ptp p.val).txSeq + 1) % 65536 ∧
      (t.dev.ptp p.val).ex.preq = some ((s.dev.ptp p.val).txSeq, t.dev.txWire p.val) ∧
      t.dev.tim.ptpOut.map (·.messageType) = some 2)) ∧
    (∀ (m : PtpMsg) rx tx, (s.dev.ptp p.val).role = 2 → m.messageType = 0 → m.twoStep = false → m.version = 2 →
      m.udpOk = true → m.lengthOk = true → m.domain = s.dev.time.domain → m.nanos < 1000000000 → 0 ≤ m.correction →
      Completes (.ptpEventForward p m rx tx) s (fun t => t.mem = s.mem ∧ t.dev.tim.ptpOut = some
        ⟨partner p.val, 0, m.sequenceId,
          m.correction + (((tx : Int) + (s.dev.comp 1 (partner p.val)).b) - ((rx : Int) - (s.dev.comp 1 p.val).a)),
          s.dev.time.clockClass⟩)) ∧
    (∀ x, s.dev.residences p.val = [x] → Completes (.residenceEntryExpiry p) s (fun t =>
      t.dev.residences p.val = [] ∧ t.mem = s.mem))

/-! ## Sensor ingest -/

/-- The ingest commands (R230, R232, R234, R236, R248, R249, R257, R260, R263, R264, R270, R274, R277): settings held as
given, streams and ports off or up; a stream enabled or disabled; reports; a bulk transfer opened. -/
def Obligations.IngestCommandsConfigure : Prop :=
  ∀ (s : State) (ch : Fin 8) (r : Request),
    (s.mayConfigure ch setStreamConfig r → isStream (r.u 0 1) = true → r.u 1 1 = 0 → Sets (.streamConfig ch) s ch (fun t =>
      (t.dev.stream (r.u 0 1)).state = .off ∧ (t.dev.stream (r.u 0 1)).timeout = r.u 8 4 ∧
      (t.dev.stream (r.u 0 1)).recover = r.u 12 2)) ∧
    (s.mayConfigure ch setStreamConfig r → r.u 0 1 < 24 → r.u 1 1 ≠ 0 → 3 ≤ r.u 2 1 → r.u 2 1 ≤ 16 →
      s.dev.streamUp (r.u 0 1) = true → (s.dev.stream (r.u 0 1)).state = .off →
      ((s.dev.updStream (r.u 0 1) (streamSet r)).enableStream (r.u 0 1)).isSome = true → Sets (.streamConfig ch) s ch (fun t =>
        (t.dev.stream (r.u 0 1)).state = .waitFirst ∧ (t.dev.stream (r.u 0 1)).bufs.length = r.u 2 1 ∧
        (t.dev.stream (r.u 0 1)).seq = 0)) ∧
    (s.holds ch 0x0301 r → isStream (r.u 0 1) = true → Reports (.streamStatus ch) s ch r (fun p => p.length = 52 ∧
      fieldAt p 0 1 = (s.dev.stream (r.u 0 1)).state.code ∧ fieldAt p 4 4 = (s.dev.stream (r.u 0 1)).lastSeq % 2 ^ 32)) ∧
    (s.mayConfigure ch setCsiPort r → csiFieldsOk r = true → s.dev.csiUp (r.u 0 1) = true →
      (s.dev.stream (r.u 0 1)).state = .off → Sets (.csiPort ch) s ch (fun t =>
        t.dev.csi (r.u 0 1) = csiSet r (s.dev.csi (r.u 0 1)))) ∧
    (s.mayConfigure ch setPairConfig r → r.u 1 1 = 1 → (s.dev.pair (r.u 0 1)).enabled = false →
      Sets (.pairConfig ch) s ch (fun t => t.dev.pair (r.u 0 1) = ⟨true, r.u 4 4, false, none, none, 0, 0, none⟩)) ∧
    (s.mayConfigure ch setEthPort r → s.dev.ethUp (r.u 0 1) = true → Sets (.ethPort ch) s ch (fun t =>
      (t.dev.eth (r.u 0 1)).vlanOwn = r.u 2 2 ∧ (t.dev.eth (r.u 0 1)).bulkUdp = r.u 8 2 ∧
      (t.dev.eth (r.u 0 1)).ipv4.toNat = beNat ((r.body.drop 4).take 4))) ∧
    (s.holds ch 0x0305 r → Reports (.ethStatus ch) s ch r (fun p => p.length = 48 ∧
      beNat (p.take 6) = (s.dev.macOf (r.u 0 1)).toNat ∧ fieldAt p 8 8 = (s.dev.eth (r.u 0 1)).rx % 2 ^ 64)) ∧
    (s.mayConfigure ch setLidarStream r → (s.dev.stream (r.u 0 1)).state = .off → Sets (.lidarStream ch) s ch (fun t =>
      t.dev.lidar (r.u 0 1) = lidarSet r (s.dev.lidar (r.u 0 1)))) ∧
    (s.mayConfigure ch setImuPort r → imuFieldsOk r = true → s.dev.pwr.dieOn.getLsbD (2 * r.u 0 1) = true →
      (s.dev.stream (24 + r.u 0 1)).state = .off → Sets (.imuPort ch) s ch (fun t =>
        t.dev.imu (r.u 0 1) = imuSet r (s.dev.imu (r.u 0 1)))) ∧
    (s.mayConfigure ch setEncConfig r → r.u 1 1 = 0 → s.dev.pwr.dieOn.getLsbD (r.u 0 1) = true →
      Sets (.encConfig ch) s ch (fun t => (t.dev.enc (r.u 0 1)).mode = 0 ∧ (t.dev.enc (r.u 0 1)).cpr = r.u 4 4 ∧
        (t.dev.stream (128 + r.u 0 1)).state = .off)) ∧
    (s.mayConfigure ch setCanController r → r.u 1 1 = 1 → 125000 ≤ r.u 4 4 → r.u 4 4 ≤ 1000000 → r.u 2 1 = 0 →
      r.u 12 2 ≤ 1000 → r.u 14 2 ≤ 1000 → s.dev.pwr.dieOn.getLsbD 0 = true → Sets (.canController ch) s ch (fun t =>
        (t.dev.can (r.u 0 1)).enable = true ∧ (t.dev.can (r.u 0 1)).fd = false ∧
        (t.dev.can (r.u 0 1)).nomRate = r.u 4 4)) ∧
    (s.mayConfigure ch setCanFilter r → (List.range (r.u 3 1)).all (canSignalOk r) = true → Sets (.canFilter ch) s ch (fun t =>
      ∃ f, (t.dev.can (r.u 0 1)).filters.look (r.u 1 1) = some f ∧ f.id = r.u 4 4 ∧ f.mask = r.u 8 4 ∧
        f.signals.length = r.u 3 1)) ∧
    (∀ b, s.holds ch 0x030B r → r.u 0 1 = 0 → r.u 1 1 < 16 → isHostBuf (r.u 4 4) = true → s.dev.buf (r.u 4 4) = some b →
      r.u 8 8 + r.u 16 4 ≤ b.size → s.dev.csiUp (r.u 1 1) = true → b.lost = false → s.dev.bufHeld (r.u 4 4) b = false →
      s.dev.ing.bulk.length < 4 → s.dev.mbx.handles.length < 256 → Accepts (.bulkOpen ch) s ch (fun h t =>
        t.mem = s.mem ∧ t.dev.ing.bulk = s.dev.ing.bulk ++
          [⟨h, 0, r.u 1 1, r.u 4 4, r.u 8 8, r.u 16 4, r.u 20 4, []⟩]))

/-- CSI-2 receive (R236 to R243, R275): with the port's stream on and up and clean headers on its virtual channel, a frame
starts, a whole line lands, the exposure is read, the frame ends or times out and leaves the port, and the one packet of a
bulk transfer completes it. -/
def Obligations.CsiPacketsReceived : Prop :=
  ∀ (s : State) (p : Fin 16), s.dev.csiTakes p.val = true →
    (∀ num at_, (s.dev.csi p.val).frame = none →
      Completes (.csiFrameStart p (s.dev.csi p.val).vc num 0 at_) s (fun t => t.mem = s.mem ∧
        (t.dev.stream p.val).seq = ((s.dev.stream p.val).seq + 1) % 2 ^ 32 ∧
        ∃ f, (t.dev.csi p.val).frame = some f ∧ f.frameNum = num ∧ f.pos = 0 ∧ f.seq = (s.dev.stream p.val).seq)) ∧
    (∀ f pixels words, (s.dev.csi p.val).frame = some f → f.pos < (s.dev.csi p.val).height →
      pixels.length = (s.dev.csi p.val).width →
      Completes (.csiLinePacket p (s.dev.csi p.val).vc (s.dev.csi p.val).dt 0 true pixels words) s (fun t =>
        ∃ g, (t.dev.csi p.val).frame = some g ∧ g.pos = f.pos + 1 ∧ g.linesRx = f.linesRx + 1 ∧ g.masked = f.masked ∧
          t.dev.evt = s.dev.evt)) ∧
    (∀ f bytes, (s.dev.csi p.val).frame = some f → f.pos = 0 → f.linesRx = 0 → f.expo = none →
      (s.dev.csi p.val).embOff ≠ 0xFFFF → (s.dev.csi p.val).embOff + (s.dev.csi p.val).embLen ≤ bytes.length →
      Completes (.csiEmbeddedData p (s.dev.csi p.val).vc 0 bytes) s (fun t => t.mem = s.mem ∧
        ∃ g, (t.dev.csi p.val).frame = some g ∧ g.expo.isSome = true)) ∧
    (∀ f at_, (s.dev.csi p.val).frame = some f →
      Completes (.csiFrameEnd p (s.dev.csi p.val).vc 0 at_) s (fun t => (t.dev.csi p.val).frame = none ∧
        (∀ k, f.slot = some k → (t.dev.stream p.val).lastSeq = f.seq))) ∧
    (∀ f, (s.dev.csi p.val).frame = some f → Completes (.frameTimeout p) s (fun t => (t.dev.csi p.val).frame = none ∧
      f.startAt + (s.dev.csi p.val).frameTimeout * 1000 * oneNs ≤ t.dev.time.now)) ∧
    (∀ bytes dt x hd, (s.dev.csi p.val).bulkVc ≠ 0xFF → 0x30 ≤ dt → dt ≤ 0x37 →
      s.dev.ing.bulk.find? (fun y => y.handle == fieldAt bytes 4 4 && y.path == 0 && y.port == p.val) = some x →
      x.got = [] → fieldAt bytes 0 2 = 0x4B42 → fieldAt bytes 8 8 = 0 → fieldAt bytes 2 2 = x.length → 0 < x.length →
      16 + x.length ≤ bytes.length → s.dev.mbx.handles.look x.handle = some hd → hd.final = none → hd.cancel = false →
      Completes (.csiBulkPacket p (s.dev.csi p.val).bulkVc dt 0 bytes) s (fun t =>
        (∀ y ∈ t.dev.ing.bulk, y.handle ≠ x.handle) ∧
        ((t.dev.mbx.handles.look x.handle).bind (·.final)).isSome = true ∧
        t.dev.evt.ringWr = (s.dev.evt.ringWr + 1) % 512))

/-- Pairs and streams (R230, R273): eight unpaired primary frames lose a pair, three pairs bring it back; no usable sample
for the timeout drops a stream out, enough usable ones bring it back; each change raises SENSOR. -/
def Obligations.PairsAndStreamsChangeState : Prop :=
  ∀ s : State,
    (∀ p : Fin 8, (s.dev.pair p.val).enabled = true → (s.dev.pair p.val).lost = false → 8 ≤ (s.dev.pair p.val).unpairedRun →
      Completes (.pairLost p) s (fun t => t.dev.pair p.val = { s.dev.pair p.val with lost := true, pairRun := 0 } ∧
        t.dev.evt.cause.getLsbD 6 = true ∧ t.mem = s.mem)) ∧
    (∀ p : Fin 8, (s.dev.pair p.val).enabled = true → (s.dev.pair p.val).lost = true → 3 ≤ (s.dev.pair p.val).pairRun →
      Completes (.pairRecover p) s (fun t =>
        t.dev.pair p.val = { s.dev.pair p.val with lost := false, unpairedRun := 0 } ∧
        t.dev.evt.cause.getLsbD 6 = true ∧ t.mem = s.mem)) ∧
    (∀ k, k < 30 → s.dev.streamTimeout k ≠ 0 → (s.dev.stream k).state = .active → Completes (.streamDropout k) s (fun t =>
      (t.dev.stream k).state = .dropout ∧ (t.dev.stream k).dropouts = min ((s.dev.stream k).dropouts + 1) 0xFFFFFFFF ∧
      (s.dev.stream k).timerAt + s.dev.streamTimeout k ≤ t.dev.time.now ∧ t.dev.evt.cause.getLsbD 6 = true ∧
      t.mem = s.mem)) ∧
    (∀ k, k < 30 → (s.dev.stream k).state = .dropout → s.dev.streamRecover k ≤ (s.dev.stream k).good →
      Completes (.streamRecover k) s (fun t => (t.dev.stream k).state = .active ∧ (t.dev.stream k).good = 0 ∧
        t.dev.evt.cause.getLsbD 6 = true ∧ t.mem = s.mem))

/-- Ethernet, lidar and IMU (R246, R247, R253, R257, R258): a unicast frame for another station is forwarded to the other
port of the bridge; the upper queue is sent first; a lidar sweep closes and the next opens; a data-ready edge starts a
transaction and its end takes the sample. -/
def Obligations.BridgesLidarsAndImus : Prop :=
  ∀ s : State,
    (∀ (p : Fin 4) f at_, s.dev.ethUp p.val = true → s.dev.ethUp (partner p.val) = true → 60 ≤ f.length →
      f.length ≤ 9212 → beNat (f.take 6) ≠ (s.dev.macOf p.val).toNat → beNat (f.take 1) % 2 = 0 →
      isPtp (ethInfo f) (udpOf f (ethInfo f)) = false → (s.dev.eth (partner p.val)).queued + f.length + 4 ≤ 524288 →
      Completes (.ethFrameRx p f true at_) s (fun t => t.mem = s.mem ∧ (t.dev.eth p.val).rx = (s.dev.eth p.val).rx + 1 ∧
        (t.dev.eth p.val).forwarded = (s.dev.eth p.val).forwarded + 1 ∧
        (t.dev.eth (partner p.val)).queued = (s.dev.eth (partner p.val)).queued + f.length + 4)) ∧
    (∀ (p : Fin 4) f fs, s.dev.ethUp p.val = true → (s.dev.eth p.val).upper = f :: fs →
      Completes (.ethFrameTx p) s (fun t => t.mem = s.mem ∧
        t.dev.eth p.val = { s.dev.eth p.val with upper := fs, tx := (s.dev.eth p.val).tx + 1, lastTx := f })) ∧
    (∀ k o w, 16 ≤ k → k < 24 → (s.dev.stream k).state ≠ .off → (s.dev.lidar k).origin = some o →
      (s.dev.lidar k).sweep = some w → Completes (.sweepClose k) s (fun t =>
        (t.dev.lidar k).sweep.map (·.k) = some (w.k + 1) ∧ (t.dev.lidar k).origin = some o)) ∧
    (∀ (p : Fin 4) at_, (s.dev.stream (24 + p.val)).state ≠ .off → s.dev.pwr.dieOn.getLsbD (2 * p.val) = true →
      (s.dev.imu p.val).busy = none → Completes (.imuDataReady p at_) s (fun t => t.mem = s.mem ∧
        t.dev.imu p.val = { s.dev.imu p.val with
          busy := some (((t.dev.time.ns16 / 16384 * 16384 : Nat) : Int) - (s.dev.comp 2 p.val).a - (s.dev.comp 2 p.val).b).toNat })) ∧
    (∀ (p : Fin 4) bytes m, (s.dev.imu p.val).busy = some m → ((s.dev.imu p.val).specs.take 6).any (·.present) = true →
      Completes (.imuTransactionDone p bytes) s (fun t => (t.dev.imu p.val).busy = none ∧
        (t.dev.stream (24 + p.val)).samples = min ((s.dev.stream (24 + p.val)).samples + 1) 0xFFFFFFFF))

/-- Encoders and CAN (R260 to R265): an edge moves the count by its legal transition; an index keeps the count; a sample is
taken and clears the index mark; a frame that a filter takes is a sample, one that none takes is counted; error states come
and go. -/
def Obligations.EncodersAndCanReceive : Prop :=
  ∀ s : State,
    (∀ (e : Fin 8) a b at_ n, (s.dev.enc e.val).mode ≠ 0 → s.dev.pwr.dieOn.getLsbD e.val = true →
      (s.dev.enc e.val).move a b = some n → Completes (.encoderEdge e a b at_) s (fun t => t.mem = s.mem ∧
        (t.dev.enc e.val).a = a ∧ (t.dev.enc e.val).b = b ∧ (t.dev.enc e.val).count = signed 64 (unsigned 64
          ((s.dev.enc e.val).count + (if (s.dev.enc e.val).flags % 2 = 1 then -n else n))))) ∧
    (∀ (e : Fin 8) at_, (s.dev.enc e.val).mode ≠ 0 → (s.dev.enc e.val).flags / 2 % 2 = 1 →
      s.dev.pwr.dieOn.getLsbD e.val = true → Completes (.encoderIndex e at_) s (fun t => t.mem = s.mem ∧
        (t.dev.enc e.val).indexCount = (s.dev.enc e.val).count ∧ (t.dev.enc e.val).indexed = true ∧
        (t.dev.enc e.val).seen = true)) ∧
    (∀ e : Fin 8, (s.dev.enc e.val).mode ≠ 0 → (s.dev.enc e.val).rate ≠ 0 → (s.dev.stream (128 + e.val)).state ≠ .off →
      s.dev.pwr.dieOn.getLsbD e.val = true → Completes (.encoderSample e) s (fun t => (t.dev.enc e.val).seen = false ∧
        (t.dev.stream (128 + e.val)).samples = min ((s.dev.stream (128 + e.val)).samples + 1) 0xFFFFFFFF ∧
        (t.dev.stream (128 + e.val)).seq = ((s.dev.stream (128 + e.val)).seq + 1) % 2 ^ 32)) ∧
    (∀ (k : Fin 2) ext id data at_ i f, (s.dev.can k.val).enable = true → (s.dev.can k.val).err ≠ 2 →
      s.dev.pwr.dieOn.getLsbD 0 = true → i < 32 → (∀ j, j < i → (s.dev.can k.val).filters.look j = none) →
      (s.dev.can k.val).filters.look i = some f → f.enable = true → f.extended = ext →
      Nat.land id f.mask = Nat.land f.id f.mask → (s.dev.stream (28 + k.val)).state ≠ .off →
      (∀ g ∈ f.signals, (g.raw data).isSome = true) → Completes (.canFrameRx k false ext false id data at_) s (fun t =>
        (t.dev.stream (28 + k.val)).samples = min ((s.dev.stream (28 + k.val)).samples + 1) 0xFFFFFFFF ∧
        (t.dev.stream (28 + k.val)).seq = ((s.dev.stream (28 + k.val)).seq + 1) % 2 ^ 32)) ∧
    (∀ (k : Fin 2) fd ext id data at_, (s.dev.can k.val).enable = true → (s.dev.can k.val).err ≠ 2 →
      (fd = true → (s.dev.can k.val).fd = true) → s.dev.pwr.dieOn.getLsbD 0 = true →
      (∀ i, i < 32 → (s.dev.can k.val).filters.look i = none) → Completes (.canFrameRx k fd ext false id data at_) s
        (fun t => t.mem = s.mem ∧ t.dev.can k.val = { s.dev.can k.val with
          discarded := (s.dev.can k.val).discarded + 1 })) ∧
    (∀ (k : Fin 2) tec rec, (s.dev.can k.val).enable = true → (s.dev.can k.val).err ≠ 2 →
      Completes (.canErrorState k true tec rec) s (fun t => t.mem = s.mem ∧
        t.dev.can k.val = { s.dev.can k.val with err := 2 } ∧ t.dev.evt.cause.getLsbD 12 = true)) ∧
    (∀ k : Fin 2, (s.dev.can k.val).enable = true → (s.dev.can k.val).err ≠ 0 → Completes (.busOffRecoveryDone k) s
      (fun t => t.mem = s.mem ∧ t.dev.can k.val = { s.dev.can k.val with err := 0 }))

/-! ## The sensing front end -/

/-- The SFE commands (R284, R286, R302 to R304, R306, R310, R312, R315, R320, R323): a channel off or with a start due; the
auxiliary scan, the excitation and the detectors as given; calibration values written or a calibration begun; reports. -/
def Obligations.SfeCommandsConfigure : Prop :=
  ∀ (s : State) (ch : Fin 8) (r : Request),
    (s.mayConfigure ch setSfeChannel r → r.u 1 1 = 0 → s.dev.sfeDomain (sfeDie (r.u 0 1)) = true →
      r.u 0 1 ≠ railStream (sfeDie (r.u 0 1)) → Sets (.sfeChannel ch) s ch (fun t =>
        (t.dev.sfeS (r.u 0 1)).enable = false ∧ (t.dev.sfeS (r.u 0 1)).state = .off)) ∧
    (s.mayConfigure ch setSfeChannel r → r.u 1 1 = 1 → sfeFieldsOk r = true → s.dev.sfeDomain (sfeDie (r.u 0 1)) = true →
      r.u 0 1 ≠ railStream (sfeDie (r.u 0 1)) → (s.dev.sfeS (r.u 0 1)).state ≠ .cal →
      (r.u 7 1 = 1 → (s.dev.sfeExc (sfeDie (r.u 0 1))).mode = 1 ∧
        rateOk (sfeH r) (s.dev.sfeExc (sfeDie (r.u 0 1))).freq = true) →
      (64 ≤ r.u 0 1 → (s.dev.sfeScan (sfeDie (r.u 0 1))).fits
        ((s.dev.updSfe (r.u 0 1) (sfeSet r)).auxEnabled (sfeDie (r.u 0 1))).length = true) →
      (((s.dev.updSfe (r.u 0 1) (sfeSet r)).sfeRing (r.u 0 1) false).sfeS (r.u 0 1)).buf.isSome = true →
      Sets (.sfeChannel ch) s ch (fun t => (t.dev.sfeS (r.u 0 1)).enable = true ∧
        (t.dev.sfeS (r.u 0 1)).range = r.u 2 1 ∧ (t.dev.sfeS (r.u 0 1)).ring = r.u 16 4 ∧
        (t.dev.sfeS (r.u 0 1)).start = some (startInstant s.dev.time.ns16))) ∧
    (s.mayConfigure ch setSfeAuxScan r → r.u 4 4 ≤ 1000000 → s.dev.sfeDomain (r.u 0 1) = true →
      (⟨r.u 1 1, r.u 2 1, r.u 3 1, r.u 4 4, none, 0⟩ : SfeScan).fits (s.dev.auxEnabled (r.u 0 1)).length = true →
      Sets (.sfeAuxScan ch) s ch (fun t => t.dev.sfeScan (r.u 0 1) =
        ⟨r.u 1 1, r.u 2 1, r.u 3 1, r.u 4 4, some (wholeSecondAfter s.dev.time.ns16), 0⟩)) ∧
    (s.mayConfigure ch setSfeExc r → excOk r = true → s.dev.sfeDomain (r.u 0 1) = true →
      s.dev.excServes (r.u 0 1) (r.u 1 1) (r.u 4 4) = true → Sets (.sfeExc ch) s ch (fun t =>
        t.dev.sfeExc (r.u 0 1) = ⟨r.u 1 1, bit (r.u 2 1) 0, r.u 4 4, r.u 8 2, startInstant s.dev.time.ns16⟩)) ∧
    (s.mayConfigure ch setSfeDetect r → s.dev.sfeDomain (sfeDie (r.u 0 1)) = true →
      (bit (r.u 1 1) 0 = true → r.u 2 1 ≤ (s.dev.sfeS (r.u 0 1)).h ∧ r.u 3 1 ≤ 15 ∧ r.u 4 1 ≤ 15 ∧ 1000 ≤ r.u 8 4 ∧
        r.u 8 4 ≤ 10000000) → Sets (.sfeDetect ch) s ch (fun t => (t.dev.sfeS (r.u 0 1)).detOn = bit (r.u 1 1) 0 ∧
        (t.dev.sfeS (r.u 0 1)).window = r.u 8 4 ∧ (t.dev.sfeS (r.u 0 1)).win = none)) ∧
    (s.mayConfigure ch setSfeCal r → r.u 1 1 = 1 → s.dev.sfeDomain (sfeDie (r.u 0 1)) = true →
      Sets (.sfeCal ch) s ch (fun t => (t.dev.sfeS (r.u 0 1)).written = some (r.i 4 4, r.u 8 4))) ∧
    (s.mayConfigure ch setSfeCal r → r.u 1 1 = 0 → s.dev.sfeDomain (sfeDie (r.u 0 1)) = true →
      s.dev.sfe.cal.look (sfeDie (r.u 0 1)) = none → s.dev.mbx.handles.length < 256 →
      Accepts (.sfeCal ch) s ch (fun h t => t.mem = s.mem ∧
        t.dev.sfe.cal.look (sfeDie (r.u 0 1)) = some ⟨r.u 0 1, some h, s.dev.time.now, false⟩)) ∧
    (s.holds ch 0x0405 r → s.dev.sfeDomain (sfeDie (r.u 0 1)) = true → Reports (.sfeStatus ch) s ch r (fun p =>
      p.length = 56 ∧ fieldAt p 0 1 = (s.dev.sfeS (r.u 0 1)).state.code ∧
      fieldAt p 4 4 = (s.dev.sfeS (r.u 0 1)).lastSeq % 2 ^ 32)) ∧
    (s.holds ch 0x0406 r → r.u 2 2 < hbTaps (r.u 0 1) → Reports (.sfeCoefGet ch) s ch r (fun p =>
      fieldAt p 0 2 = hbTaps (r.u 0 1) ∧ p.length = 8 + 4 * min 1000 (hbTaps (r.u 0 1) - r.u 2 2)))

/-- The SFE's own events (R286, R294, R299, R300, R302, R306 to R309, R312, R315, R319, R320, R324): a channel starts; its
outputs, detector windows and scans follow one another; a calibration ends its handle; faults come and go; PHASE_C moves. -/
def Obligations.SfeEventsRunTheChannels : Prop :=
  ∀ s : State,
    (∀ k s0, (s.dev.sfeS k).start = some s0 → Completes (.sfeChannelStart k) s (fun t => t.mem = s.mem ∧
      (t.dev.sfeS k).state = .settling ∧ (t.dev.sfeS k).s0 = s0 ∧ (t.dev.sfeS k).start = none ∧
      (t.dev.sfeS k).seq = 0)) ∧
    (∀ k raw raw2, s.dev.sfeRuns k = true →
      ((sfePushAll k raw raw2 s.dev).sfeS k).complete (s.dev.sfeS k).next = true →
      Completes (.sfeOutputSample k raw raw2) s (fun t => (t.dev.sfeS k).next = (s.dev.sfeS k).next + 1 ∧
        (t.dev.sfeS k).seq = ((s.dev.sfeS k).seq + 1) % 2 ^ 32)) ∧
    (∀ k raw raw2 w ws, s.dev.sfeRuns k = true → (s.dev.sfeS k).detOn = true →
      ((sfePushAll k raw raw2 s.dev).sfeS k).ready = w :: ws → Completes (.sfeDetectorWindow k raw raw2) s (fun t =>
        (t.dev.sfeS k).ready = ws ∧ (t.dev.sfeS k).detSeq = ((s.dev.sfeS k).detSeq + 1) % 2 ^ 32)) ∧
    (∀ (die : Fin 8) raw a0, (s.dev.sfeScan die.val).a0 = some a0 → s.dev.sfeDomain die.val = true →
      s.dev.auxCal die.val = false → Completes (.sfeAuxScanStart die raw) s (fun t =>
        (t.dev.sfeScan die.val).k = (s.dev.sfeScan die.val).k + 1)) ∧
    (∀ (die : Fin 8) m0 m1 full c h hd, s.dev.sfe.cal.look die.val = some c → c.cancel = false → c.handle = some h →
      s.dev.mbx.handles.look h = some hd → hd.final = none → Completes (.sfeCalDone die m0 m1 full) s (fun t =>
        t.mem = s.mem ∧ t.dev.sfe.cal.look die.val = none ∧ (t.dev.mbx.handles.look h).bind (·.final) = some 0)) ∧
    (∀ k, s.dev.sfeLive k = true → (s.dev.sfeS k).coupling = 2 → Completes (.iepeBiasFault k) s (fun t => t.mem = s.mem ∧
      (t.dev.sfeS k).state = .fault ∧ t.dev.evt.cause.getLsbD 6 = true ∧ t.dev.evt.cause.getLsbD 12 = true)) ∧
    (∀ k, s.dev.sfeLive k = true → (s.dev.sfeS k).res = true → 8 ≤ (s.dev.sfeS k).low →
      Completes (.resolverLos k) s (fun t => t.mem = s.mem ∧ (t.dev.sfeS k).state = .fault ∧
        t.dev.evt.cause.getLsbD 6 = true ∧ t.dev.evt.cause.getLsbD 12 = true)) ∧
    (∀ k, (s.dev.sfeS k).state = .fault → ((s.dev.sfeS k).res = true → 8 ≤ (s.dev.sfeS k).good) →
      Completes (.sfeFaultRecover k) s (fun t => t.mem = s.mem ∧ (t.dev.sfeS k).state = .active ∧
        t.dev.evt.cause.getLsbD 6 = true)) ∧
    (∀ k, s.dev.sfeRuns k = true → (s.dev.sfeS k).res = true → (s.dev.sfeExc (sfeDie k)).auto = true →
      Completes (.phaseAutoUpdate k) s (fun t => t.mem = s.mem ∧ ∃ move : Int, -16 ≤ move ∧ move ≤ 16 ∧
        t.dev.sfeS k = { s.dev.sfeS k with phaseC := unsigned 16 ((s.dev.sfeS k).phaseC + move) })) ∧
    (∀ die : Fin 8, (s.dev.sfeExc die.val).mode ≠ 0 → Completes (.excOvercurrent die) s (fun t => t.mem = s.mem ∧
      t.dev.sfeExc die.val = { s.dev.sfeExc die.val with mode := 0 } ∧ t.dev.evt.cause.getLsbD 12 = true)) ∧
    (∀ k, 32 ≤ k → k < 128 → s.dev.sfeDomain (sfeDie k) = true → Completes (.sfeInputClamp k) s (fun t => t.mem = s.mem ∧
      t.dev.sfeS k = { s.dev.sfeS k with violations := min ((s.dev.sfeS k).violations + 1) 0xFFFFFFFF } ∧
      t.dev.evt.cause.getLsbD 12 = true))

/-! ## Jobs -/

/-- JOB_SUBMIT (R712, R744): an image that passes is admitted as a waiting USER job with its handle; the first check it fails
ends the job BAD_FIELD before placement. -/
def submittedImagesAreJudged : Prop :=
  ∀ (s : State) (ch : Fin 8) (r : Request) b img,
    let bufs := (List.range (r.u 28 1)).map fun i => r.u (32 + 4 * i) 4
    s.holds ch 0x0500 r → s.dev.buf (r.u 0 4) = some b → r.u 8 8 + r.u 16 8 ≤ b.size →
    bufs.any (fun i => (s.dev.buf i).isNone) = false → b.lost = false →
    s.dev.bufRead s.mem (r.u 0 4) (r.u 8 8) (r.u 16 8) = .ok img → s.dev.mbx.handles.length < 256 →
    s.dev.jobs.activeCount < 64 →
    (∀ gs d', imageError img bufs.length (s.dev.bindOk bufs) = none → s.dev.couldPlan [] (imageParts img) = true →
      allocSnaps (imageGrants img bufs) s.dev = some (gs, d') → Accepts (.jobSubmit ch) s ch (fun h t => t.mem = s.mem ∧
        ∃ id j, t.dev.job id = some j ∧ j.cls = .user ∧ j.state = .waiting ∧ j.handle = some h ∧ j.grants = gs ∧
          j.parts = imageParts img ∧ j.restartMax = r.u 24 1)) ∧
    (∀ e, imageError img bufs.length (s.dev.bindOk bufs) = some e → Accepts (.jobSubmit ch) s ch (fun h t =>
      t.mem = s.mem ∧ t.dev.ended h = some 0x13))

/-- Reports and settings of jobs and profiles (R749). -/
def jobsAndProfilesAnswer : Prop :=
  ∀ (s : State) (ch : Fin 8) (r : Request),
    (∀ j, s.holds ch 0x0501 r → s.dev.job (r.u 0 2) = some j → Reports (.jobStatus ch) s ch r (fun p => p.length = 32 ∧
      fieldAt p 0 1 = j.cls.code ∧ fieldAt p 1 1 = j.state.code ∧ fieldAt p 8 1 = s.dev.waitReason (r.u 0 2) j)) ∧
    (s.holds ch 0x0502 r → Reports (.jobList ch) s ch r (fun p =>
      p.length = 4 + 4 * s.dev.jobs.activeCount ∧ fieldAt p 0 4 = s.dev.jobs.activeCount % 2 ^ 32)) ∧
    (s.holds ch 0x0503 r → Sets (.jobConfig ch) s ch (fun t =>
      t.dev.jobs = { s.dev.jobs with restartFw := r.u 0 1, waitFw := r.u 2 2 })) ∧
    (s.holds ch 0x0508 r → Reports (.profileStatus ch) s ch r (fun p => p.length = 64 ∧
      fieldAt p 0 1 = s.dev.jobs.profile.state.code ∧ fieldAt p 4 4 = s.dev.jobs.profile.id % 2 ^ 32)) ∧
    (s.holds ch 0x0507 r → s.dev.jobs.profile.state = .active → s.dev.mbx.handles.length < 256 →
      Accepts (.profileUnload ch) s ch (fun h t => t.mem = s.mem ∧ if s.dev.profileBusy = true
        then t.dev.jobs.profile.state = .unloading ∧ t.dev.jobs.profile.handle = some h
        else t.dev.jobs.profile.state = .none)) ∧
    (∀ x, s.holds ch 0x0506 r → s.dev.jobs.profile.state = .none → r.u 0 4 = 0 → s.dev.mbx.handles.length < 256 →
      loadZero (Device.extendConfig { s.dev with mbx := s.dev.mbx.taking ch.val 0x0506 } 0x0506 r.body) s.mem = .ok x →
      Accepts (.profileLoad ch) s ch (fun _ t => t.mem = x.2 ∧ t.dev.jobs.profile.state = .active ∧
        t.dev.jobs.profile.zero = true)) ∧
    (∀ b img y, s.holds ch 0x0506 r → s.dev.jobs.profile.state = .none → r.u 0 4 ≠ 0 → isHostBuf (r.u 0 4) = true →
      s.dev.buf (r.u 0 4) = some b → r.u 8 8 + r.u 16 8 ≤ b.size → b.lost = false → s.dev.bufReady (r.u 0 4) = true →
      s.dev.mbx.handles.length < 256 →
      (Device.extendConfig { s.dev with mbx := s.dev.mbx.taking ch.val 0x0506 } 0x0506 r.body).bufRead s.mem (r.u 0 4)
        (r.u 8 8) (r.u 16 8) = .ok img →
      loadImage img (Device.extendConfig { s.dev with mbx := s.dev.mbx.taking ch.val 0x0506 } 0x0506 r.body) s.mem = y →
      Accepts (.profileLoad ch) s ch (fun h t =>
        match y with
        | .ok x => t.mem = x.2 ∧ t.dev.jobs.profile.state = .active ∧ t.dev.jobs.profile.id = imgField img 8 4
        | .error e => t.mem = s.mem ∧ t.dev.jobs = s.dev.jobs ∧ t.dev.ended h = some e.status))

/-- Images submitted (R712, R744), reports and settings of jobs and profiles (R749). -/
def Obligations.JobsAndProfilesAnswerTheHost : Prop := submittedImagesAreJudged ∧ jobsAndProfilesAnswer

/-- The way of a job (R712, R714 to R716, R720, R727 to R731): placed, loaded, faulted, restarted or failed, and ended at its
commit. -/
def jobsMoveThroughTheirStates : Prop :=
  ∀ (s : State) (id : Nat) (j : Job), s.dev.job id = some j →
    (∀ ps, j.state = .waiting → j.cls ≠ .test → s.dev.grantsLost j = false → s.dev.enginesPlan j = true →
      (s.dev.planView j).couldPlan [] j.parts = true → s.dev.startable id j = true →
      s.dev.jobs.table.any (fun e => e.2.before j && s.dev.startable e.1 e.2) = false → s.dev.planJob j = some ps →
      Completes (.jobPlace id) s (fun t =>
        t.dev.job id = some { j with state := .loading, parts := ps, dies := j.dies ||| partDies ps })) ∧
    (j.state = .loading → s.dev.jobLoaded id j = true → Completes (.jobLoaded id) s (fun t => t.mem = s.mem ∧
      ∃ k, t.dev.job id = some k ∧ k.state = .running ∧ k.runAt = s.dev.time.now)) ∧
    (∀ cause source (die : Fin 8) index addr detail, 1 ≤ cause → cause ≤ 0x0E → source ≤ 12 →
      (j.state = .loading ∨ j.state = .running) → Completes (.jobFault id cause source die index addr detail) s (fun t =>
        t.mem = s.mem ∧ t.dev.evt.flogCount = (s.dev.evt.flogCount + 1) % 2 ^ 32 ∧
        ∃ k, t.dev.job id = some k ∧ k.state = .restarting ∧ k.cause = cause ∧
          k.restarts = (if counted cause && !(counted cause && j.restartMax ≤ j.restarts) then j.restarts + 1
            else j.restarts))) ∧
    (∀ ps, j.state = .restarting → (∀ a b c, j.work ≠ .slice a b c) → j.lost = false → s.dev.grantsLost j = false →
      j.failing = false → (snapCopy true j.grants (s.dev, s.mem)).1.domainWait j = false →
      (snapCopy true j.grants (s.dev, s.mem)).1.enginesPlan j = true →
      ((snapCopy true j.grants (s.dev, s.mem)).1.planView j).couldPlan [] j.parts = true →
      (snapCopy true j.grants (s.dev, s.mem)).1.planJob j = some ps → Resumes (.jobRestart id) s (fun d m =>
        m = (snapCopy true j.grants (s.dev, s.mem)).2 ∧
        ∃ k, d.job id = some k ∧ k.state = .loading ∧ k.total = j.total + 1 ∧ k.restarts = j.restarts)) ∧
    (j.state = .restarting → (∀ a b c, j.work ≠ .slice a b c) → j.lost = false → s.dev.grantsLost j = false →
      j.failing = true → Resumes (.jobRestart id) s (fun d m => m = (snapCopy true j.grants (s.dev, s.mem)).2 ∧
        (∀ k, d.job id = some k → k.state = .ended) ∧
        (∀ h hd, j.handle = some h → s.dev.mbx.handles.look h = some hd → hd.final = none → d.ended h = some 0x30))) ∧
    (∀ out, s.dev.commitReady id j = true → Resumes (.jobCommit id out) s (fun d _ =>
      ∀ k, d.job id = some k → k.state = .ended)) ∧
    (∀ out h hd, s.dev.commitReady id j = true → j.work = .image → j.handle = some h →
      s.dev.mbx.handles.look h = some hd → hd.final = none → Resumes (.jobCommit id out) s (fun d m => m = s.mem ∧
        d.ended h = some (if 0 < j.total then 0x25 else 0x00)))

/-- A TICK job passes its commit deadline (R64, R589). -/
def tickDeadlinesMarkThePose : Prop :=
  ∀ (s : State) (id : Nat) (j : Job),
    s.dev.ticks.find? (fun t => t.2.deadline.isSome && !t.2.late) = some (id, j) →
    Completes .tickDeadline s (fun t => t.mem = s.mem ∧ t.dev.slv.pp.extrapolated = true ∧
      t.dev.job id = some { j with late := true } ∧ j.deadline.getD 0 ≤ t.dev.time.now)

/-- The way of a job (R712 to R731) and the commit deadline of a TICK (R64, R589). -/
def Obligations.JobsRunToTheirEnd : Prop := jobsMoveThroughTheirStates ∧ tickDeadlinesMarkThePose

/-! ## Power, resets and faults of the package -/

/-- The power commands and resets (R738, R740, R754 to R757, R761, R763, R771). -/
def Obligations.PowerCommandsSwitch : Prop :=
  ∀ (s : State) (ch : Fin 8) (r : Request),
    (s.holds ch 0x0110 r → Reports (.powerStatus ch) s ch r (fun p => p.length = 112 ∧
      fieldAt p 0 1 = s.dev.pwr.limit % 256 ∧ fieldAt p 4 4 = s.dev.pwr.est % 2 ^ 32 ∧
      fieldAt p 8 2 = s.dev.pwr.cTick % 65536)) ∧
    (s.holds ch 0x0111 r → s.dev.boot.ready = true → r.u 0 1 ≤ s.dev.fuse.powerW → Sets (.powerConfig ch) s ch (fun t =>
      t.dev.pwr = { s.dev.pwr with limit := r.u 0 1 })) ∧
    (s.holds ch 0x0114 r → Sets (.pwrSense ch) s ch (fun t => t.dev.pwr = { s.dev.pwr with
      senseOn := r.u 0 1 == 1, senseVcore := r.u 2 2, senseGain := r.u 4 4, senseOffset := r.i 8 4 })) ∧
    (s.holds ch 0x0112 r → s.dev.boot.ready = true → s.dev.pwr.dieOn.getLsbD (r.u 0 1) = true → r.u 1 1 < 12 →
      s.dev.domainPending (r.u 0 1) (r.u 1 1) = false → r.u 2 1 = 0 → s.dev.domainKept (r.u 0 1) (r.u 1 1) = false →
      Completes (.domainPower ch) s (fun t => (t.dev.chan ch.val).formed = some (okWith []) ∧
        t.dev.domainOn (r.u 0 1) (r.u 1 1) = false)) ∧
    (s.holds ch 0x0112 r → s.dev.boot.ready = true → s.dev.pwr.dieOn.getLsbD (r.u 0 1) = true →
      s.dev.domainPending (r.u 0 1) (r.u 1 1) = false → r.u 2 1 ≠ 0 → s.dev.domainOn (r.u 0 1) (r.u 1 1) = false →
      exec (.domainPower ch) s = .next (s.withDev { s.dev with pwr := { s.dev.pwr with
        resetting := s.dev.pwr.resetting ++ [(domKey (r.u 0 1) (r.u 1 1), some ch.val)] } })) ∧
    (s.holds ch 0x0113 r → s.dev.boot.ready = true → s.dev.pwr.pendingOn.getLsbD (r.u 0 1) = false → r.u 1 1 = 1 →
      r.u 0 1 < 8 → s.dev.pwr.dieOn.getLsbD (r.u 0 1) = false → s.dev.dieBusy (r.u 0 1) = false →
      s.dev.mbx.handles.length < 256 → Accepts (.diePower ch) s ch (fun h t => t.mem = s.mem ∧
        t.dev.pwr.pendingOn.getLsbD (r.u 0 1) = true ∧ t.dev.pwr.dieHandles.look (r.u 0 1) = some h)) ∧
    (s.holds ch 0x0113 r → s.dev.boot.ready = true → s.dev.pwr.pendingOn.getLsbD (r.u 0 1) = false → r.u 1 1 ≠ 1 →
      s.dev.dieKept (r.u 0 1) = false → s.dev.profileDie (r.u 0 1) = false → s.dev.dieBusy (r.u 0 1) = false →
      s.dev.mbx.handles.length < 256 → Accepts (.diePower ch) s ch (fun _ t =>
        t.dev.pwr.dieOn.getLsbD (r.u 0 1) = false)) ∧
    (s.holds ch 0x0504 r → s.dev.domainPending (r.u 0 1) (r.u 1 1) = false → r.u 1 1 < 12 →
      s.dev.domainOn (r.u 0 1) (r.u 1 1) = true → Completes (.partReset ch) s (fun t =>
        t.dev.domainOn (r.u 0 1) (r.u 1 1) = false ∧
        (domKey (r.u 0 1) (r.u 1 1), some ch.val) ∈ t.dev.pwr.resetting)) ∧
    (s.holds ch 0x0505 r → s.dev.dieKept (r.u 0 1) = false → s.dev.dieBusy (r.u 0 1) = false →
      s.dev.mbx.handles.length < 256 → Accepts (.dieReset ch) s ch (fun h t =>
        t.dev.pwr.dieOn.getLsbD (r.u 0 1) = false ∧ t.dev.pwr.pendingOn.getLsbD (r.u 0 1) = true ∧
        t.dev.evt.faultCp.getLsbD (r.u 0 1) = false ∧ t.dev.evt.faultTb.getLsbD (r.u 0 1) = false ∧
        t.dev.pwr.dieHandles.look (r.u 0 1) = some h))

/-- Power events (R754, R757, R760 to R768): a domain and a die come back; the limiter moves the caps by its rule; junction
temperatures are taken, and 130.0 °C shuts the package down. -/
def Obligations.PowerEventsFollow : Prop :=
  ∀ s : State,
    (∀ (die : Fin 8) (dom : Fin 12), s.dev.domainPending die.val dom.val = true →
      Completes (.domainPowerGood die dom) s (fun t => t.mem = s.mem ∧ t.dev.domainPending die.val dom.val = false ∧
        (t.dev.pwr.domains.getD die.val 0).getLsbD dom.val = true)) ∧
    (∀ (die : Fin 8) engines units, s.dev.pwr.pendingOn.getLsbD die.val = true →
      Completes (.diePowerOnDone die engines units) s (fun t => t.mem = s.mem ∧
        t.dev.pwr.dieOn.getLsbD die.val = true ∧ t.dev.pwr.pendingOn.getLsbD die.val = false ∧
        t.dev.pwr.domains.look die.val = some 0xFFF)) ∧
    (∀ uncore cores, s.dev.powerRuns = true → Completes (.limiterEval uncore cores) s (fun t => t.mem = s.mem ∧
      ∃ est, uncore ≤ est ∧ t.dev.pwr.est = min 0xFFFFFFFF est ∧
        t.dev.pwr.cTick = (s.dev.pwr.limiter s.dev.fuse.clockMHz est (s.dev.pwr.limit * 1000)).cTick ∧
        t.dev.pwr.cOther = (s.dev.pwr.limiter s.dev.fuse.clockMHz est (s.dev.pwr.limit * 1000)).cOther)) ∧
    (∀ tj : List Int, s.dev.powerRuns = true → (∀ v ∈ tj, v < 1300) → Completes (.thermalEval tj) s (fun t =>
      t.mem = s.mem ∧ ∀ k, k < 8 → k < tj.length → s.dev.pwr.dieOn.getLsbD k = true → t.dev.pwr.tj.look k = tj[k]?)) ∧
    (∀ (tj : List Int) k, s.dev.powerRuns = true → k < 8 → k < tj.length → s.dev.pwr.dieOn.getLsbD k = true →
      1300 ≤ tj.getD k 0 → Completes (.thermalEval tj) s (fun t => t.dev.pkg.shutdown = true ∧
        t.dev.evt.cause.getLsbD 8 = true ∧ t.mem = { s.mem with lp := [], sram := [] }))

/-- Faults of routers, links, control processors and clocks (R725, R726, R736, R753). -/
def Obligations.PackageFaultsAreReported : Prop :=
  ∀ s : State,
    (∀ (die : Fin 8) requester addr, s.dev.pwr.dieOn.getLsbD die.val = true → 1088 ≤ requester →
      Completes (.flitParityError die requester 0 addr) s (fun t => t.mem = s.mem ∧
        t.dev.evt.flogCount = (s.dev.evt.flogCount + 1) % 2 ^ 32)) ∧
    (∀ (die : Fin 8) requester job addr, s.dev.pwr.dieOn.getLsbD die.val = true → requester < 1088 →
      (s.dev.unit requester).tags ≠ 0 → (s.dev.unit requester).job = 0 →
      Completes (.flitParityError die requester job addr) s (fun t => t.mem = s.mem ∧
        (t.dev.unit requester).tags = (s.dev.unit requester).tags - 1 ∧
        t.dev.evt.flogCount = (s.dev.evt.flogCount + 1) % 2 ^ 32)) ∧
    (∀ link : Fin 10, linkState s.dev.view s.dev.pwr.dieOn link.val < 2 →
      exec (.linkCrcError link false) s = .next (s.withDev (s.dev.diagAdd (linkEnds link.val).1
        (0x0E8 + 4 * linkSite link.val (linkEnds link.val).1) 0 16 1)) ∧
      exec (.linkCrcError link true) s = .next (s.withDev (s.dev.diagAdd (linkEnds link.val).2
        (0x0E8 + 4 * linkSite link.val (linkEnds link.val).2) 0 16 1))) ∧
    (∀ (link : Fin 10) (st : Fin 3) held, linkState s.dev.view s.dev.pwr.dieOn link.val < 2 →
      Completes (.linkRetrain link st held) s (fun t => t.mem = s.mem ∧
        t.dev.view = { s.dev.view with trained := s.dev.view.trained.put link.val st.val })) ∧
    (∀ die : Fin 8, s.dev.boot.cpRunning.getLsbD die.val = true → s.dev.pwr.dieOn.getLsbD die.val = true →
      s.dev.boot.fwStarted = true → Completes (.cpWatchdog die) s (fun t => t.mem = s.mem ∧
        t.dev.evt.faultCp.getLsbD die.val = true ∧ t.dev.pwr.withdrawn.getLsbD die.val = true ∧
        t.dev.evt.cause.getLsbD 0 = true)) ∧
    (∀ (die : Fin 8) place, s.dev.pwr.dieOn.getLsbD die.val = true → Completes (.cpSramUe die place) s (fun t =>
      t.mem = s.mem ∧ t.dev.evt.faultCp.getLsbD die.val = true ∧ t.dev.pwr.withdrawn.getLsbD die.val = true ∧
      t.dev.evt.cause.getLsbD 0 = true)) ∧
    (∀ (die : Fin 8) (island : Fin 13), island.val < 12 → s.dev.boot.pll = true →
      s.dev.domainOn die.val island.val = true → Completes (.pllLockLoss die island) s (fun t =>
        t.dev.domainOn die.val island.val = false ∧ (domKey die.val island.val, none) ∈ t.dev.pwr.resetting)) ∧
    (∀ die : Fin 8, s.dev.boot.pll = true → s.dev.pwr.dieOn.getLsbD die.val = true →
      Completes (.pllLockLoss die 12) s (fun t => if die.val = s.dev.lead then t.dev.pkg.shutdown = true
        else t.dev.evt.faultCp.getLsbD die.val = true)) ∧
    (∀ die : Fin 8, s.dev.boot.pll = true →
      Completes (.refClockLoss 0 die) s (fun t => t.dev.pkg.shutdown = true ∧ t.dev.evt.cause.getLsbD 8 = true) ∧
      Completes (.refClockLoss 1 die) s (fun t => t.mem = s.mem ∧ t.dev.pwr.ref38.getLsbD die.val = false) ∧
      Completes (.refClockLoss 2 die) s (fun t => t.mem = s.mem ∧ t.dev.pwr.ref156 = false))

/-! ## Units and clusters -/

/-- Reports of clusters and units (R374). -/
def clusterAndUnitReports : Prop :=
  ∀ (s : State) (ch : Fin 8) (r : Request),
    (s.holds ch 0x0520 r → s.dev.pwr.dieOn.getLsbD (r.u 0 1 / 8) = true → Reports (.clusterStatus ch) s ch r (fun p =>
      p.length = 72 ∧ fieldAt p 0 1 = r.u 0 1 % 256 ∧ fieldAt p 1 1 = s.dev.view.enabled (r.u 0 1) ∧
      fieldAt p 60 4 = (s.dev.cluster (r.u 0 1)).stalls % 2 ^ 32)) ∧
    (s.holds ch 0x0521 r → s.dev.pwr.dieOn.getLsbD (r.u 0 2 / 136) = true → Reports (.unitStatus ch) s ch r (fun p =>
      p.length = 36 ∧ fieldAt p 0 2 = r.u 0 2 % 65536 ∧
      fieldAt p 2 1 = (if s.dev.view.isBad (r.u 0 2) = true then 6 else (s.dev.unit (r.u 0 2)).state.code) ∧
      fieldAt p 12 8 = (s.dev.unit (r.u 0 2)).active % 2 ^ 64))

/-- Configuration broadcast (R367 to R371): a packet goes to the port with the cluster's SEQ; an acknowledged one lies in the
unit's scratch; a missed one is counted. -/
def broadcastLoadsTheUnits : Prop :=
  ∀ s : State,
    (∀ job part j p c r, s.dev.job job = some j → j.parts[part]? = some p → p.cluster = some c →
      (p.segRecs j.image)[p.loaded + ((s.dev.cluster c).packets.filter fun k => k.job == job && k.part == part).length]? =
        some r → (j.state = .loading ∨ j.state = .running) → (s.dev.cluster c).packets.length < 4 →
      exec (.bcastPacket job part) s = .next (s.withDev (s.dev.updCluster c fun k => { k with
        seq := (k.seq + 1) % 65536
        packets := k.packets ++
          [⟨k.seq, r.kind, slotMask p r.target, r.dest, s.dev.relocated j part p.segment r, job, part, 0, 0, []⟩] }))) ∧
    (∀ (c : Fin 64) (slot : Fin 16) seq pk u, (s.dev.cluster c.val).packet seq = some pk →
      s.dev.slotPhys c.val slot.val = some u → bit pk.target slot.val = true →
      Completes (.bcastAnswer c slot seq true) s (fun t => t.mem = s.mem.sramWrite (scratchAddr u pk.dest) pk.data ∧
        (t.dev.unit u).lastSeq = some seq)) ∧
    (∀ (c : Fin 64) (slot : Fin 16) seq pk u, (s.dev.cluster c.val).packet seq = some pk →
      s.dev.slotPhys c.val slot.val = some u → bit pk.target slot.val = true → bit pk.acks slot.val = false →
      Completes (.bcastAnswer c slot seq false) s (fun t => t.mem = s.mem ∧
        (t.dev.cluster c.val).misses = (s.dev.cluster c.val).misses + 1) ∧
      Completes (.bcastAckTimeout c slot seq) s (fun t => t.mem = s.mem ∧
        (t.dev.cluster c.val).misses = (s.dev.cluster c.val).misses + 1 ∧
        t.dev.time.now = s.dev.time.now + 2000 * oneNs))

/-- Reports of clusters and units (R374) and configuration broadcast (R367 to R371). -/
def Obligations.ClustersAreLoadedAndReported : Prop := clusterAndUnitReports ∧ broadcastLoadsTheUnits

/-- The sequencer (R347 to R351): the next descriptor of a running unit is taken; its wait stops the unit; a LOOP goes round
and is left; END finishes the segment or the unit. -/
def sequencersTakeDescriptors : Prop :=
  ∀ (s : State) (unit : Fin 1088) (j : Job),
    let u := s.dev.unit unit.val
    let c := unit.val / 17
    let x := u.advanced (unitDesc s.mem unit.val u.desc)
    s.dev.job u.job = some j → j.state = .running → u.state = .running →
    let sound := u.desc ≤ 255 ∧ x.invalid = false ∧ (x.waitFlag ≠ 0xFFFF → s.dev.holdsFlag u.job c x.waitFlag = true) ∧
      (x.sigFlag ≠ 0xFFFF → s.dev.holdsFlag u.job x.sigCluster x.sigFlag = true)
    let free := s.dev.waitMet c x.waitFlag x.waitCount = true ∧ ((x.ctrl % 4 ≠ 0 ∨ x.op = 0x62) → u.tags = 0) ∧
      u.tags + tagsOf x ≤ 32 ∧ (s.dev.cluster c).held + tagsOf x ≤ 448
    (∀ e sticky, sound → free → x.op ≠ 0x63 → x.op ≠ 0x64 → (x.op = 0x62 → x.p0 ≤ 1) →
      (Env.mk s.dev s.mem j u.job unit.val).run x = .ok (e, sticky) → Completes (.descriptorIssue unit) s (fun t =>
        t.mem = e.mem ∧ (t.dev.unit unit.val).desc = (e.dev.unit unit.val).desc + 1 ∧
        (t.dev.unit unit.val).active = (e.dev.unit unit.val).active + 1 ∧
        (t.dev.unit unit.val).tags = (e.dev.unit unit.val).tags + tagsOf x)) ∧
    (∀ v, sound → free → x.op = 0x63 → u.loop x = some v → exec (.descriptorIssue unit) s = .next (s.withDev
      (s.dev.updUnit unit.val fun _ => { v with signals := v.signals ++ x.signal? }))) ∧
    (sound → s.dev.waitMet c x.waitFlag x.waitCount = false → Completes (.descriptorIssue unit) s (fun t =>
      t.mem = s.mem ∧ (t.dev.unit unit.val).state = .waiting ∧ (t.dev.unit unit.val).waitAt = s.dev.time.now)) ∧
    (¬ sound → Completes (.descriptorIssue unit) s (fun t => t.mem = s.mem ∧ t.dev.jobState u.job = some .restarting)) ∧
    ((unitDesc s.mem unit.val u.desc).op = 0x64 → u.tags = 0 → u.signals = [] →
      s.dev.soundAt unit.val (unitDesc s.mem unit.val u.desc) = true →
      s.dev.waitMet c (unitDesc s.mem unit.val u.desc).waitFlag (unitDesc s.mem unit.val u.desc).waitCount = true →
      Completes (.unitEnd unit) s (fun t => t.mem = s.mem ∧
        if bit (unitDesc s.mem unit.val u.desc).p0 0 = true
        then (t.dev.unit unit.val).state = .loading ∧ (t.dev.unit unit.val).segment = u.segment + 1
        else (t.dev.unit unit.val).state = .done))

/-- Flags, waits and completions (R356 to R364): a signal is applied once every write of its unit is visible; a met wait
resumes the unit, an overdue one faults its job; a completion frees its tag. -/
def flagsAndCompletions : Prop :=
  ∀ s : State,
    (∀ (unit : Fin 1088) g gs, (s.dev.unit unit.val).signals = g :: gs → (s.dev.unit unit.val).tags = 0 →
      Completes (.flagSignal unit) s (fun t => t.mem = s.mem ∧ (t.dev.unit unit.val).signals = gs ∧
        t.dev.flag g.cluster g.flag =
          (if g.set then g.add else min 0xFFFF (s.dev.flag g.cluster g.flag + g.add)))) ∧
    (∀ unit : Fin 1088,
      let x := unitDesc s.mem unit.val (s.dev.unit unit.val).desc
      (s.dev.unit unit.val).state = .waiting → s.dev.waitMet (unit.val / 17) x.waitFlag x.waitCount = true →
      exec (.flagWaitMet unit) s = .next (s.withDev (s.dev.updUnit unit.val fun u => { u with state := .running }))) ∧
    (∀ (unit : Fin 1088) j,
      let x := unitDesc s.mem unit.val (s.dev.unit unit.val).desc
      (s.dev.unit unit.val).state = .waiting → s.dev.waitMet (unit.val / 17) x.waitFlag x.waitCount = false →
      s.dev.job (s.dev.unit unit.val).job = some j → (j.state = .loading ∨ j.state = .running) →
      Completes (.waitTimeout unit) s (fun t => t.mem = s.mem ∧
        (s.dev.unit unit.val).waitAt + j.waitMs * oneMs ≤ t.dev.time.now ∧
        ∃ k, t.dev.job (s.dev.unit unit.val).job = some k ∧ k.state = .restarting ∧ k.cause = 0x04)) ∧
    (∀ requester, requester < 1088 → (s.dev.unit requester).tags ≠ 0 → Completes (.memCompletion requester 0) s (fun t =>
      t.mem = s.mem ∧ (t.dev.unit requester).tags = (s.dev.unit requester).tags - 1 ∧
      (t.dev.cluster (requester / 17)).held = (s.dev.cluster (requester / 17)).held - 1)) ∧
    (∀ requester error j, requester < 1088 → (s.dev.unit requester).tags ≠ 0 →
      [0x05, 0x06, 0x08, 0x09].elem error = true → s.dev.job (s.dev.unit requester).job = some j →
      (j.state = .loading ∨ j.state = .running) → Completes (.memCompletion requester error) s (fun t => t.mem = s.mem ∧
        ∃ k, t.dev.job (s.dev.unit requester).job = some k ∧ k.state = .restarting ∧ k.cause = error)) ∧
    (∀ requester error, 1088 ≤ requester → Completes (.memCompletion requester error) s (fun t => t.mem = s.mem ∧
      t.dev.memsys.engTags.getD ((requester - 1088) % 8) 0 = s.dev.memsys.engTags.getD ((requester - 1088) % 8) 0 - 1))

/-- The sequencer of a unit (R347 to R351), its flags, waits and completions (R356 to R364). -/
def Obligations.UnitsRunTheirDescriptors : Prop := sequencersTakeDescriptors ∧ flagsAndCompletions

/-- Prefetch schedules and windows (R406 to R410): the next entry of a running job whose wait is met is copied between its
buffer and its landing, and the schedule moves on. -/
def Obligations.SchedulesCopyTheirEntries : Prop :=
  ∀ (s : State) (id : Nat) (j : Job) c lbase fbase b,
    let x := schedEntry j.sched j.schedPos
    let g := j.grants.getD x.slot ⟨0, 0, 0, 0⟩
    let land := lbase + x.dest
    let sig := resolveFlag fbase x.sigFlag
    let cmd : Instr := if bit x.flags 0 = true then .windowSlotLoad id else .schedEntryCopy id
    s.dev.job id = some j → j.state = .running → j.schedPos < j.schedLen → j.partBase x.part = some (c, lbase, fbase) →
    (resolveFlag fbase x.waitFlag ≠ 0xFFFF → s.dev.holdsFlag id c (resolveFlag fbase x.waitFlag) = true) →
    s.dev.waitMet c (resolveFlag fbase x.waitFlag) x.waitCount = true → s.dev.buf g.buf = some b →
    x.slot < j.grants.length → x.offset + x.len ≤ b.size → s.dev.holdsBlocks id c land x.len = true →
    (sig ≠ 0xFFFF → s.dev.holdsFlag id c sig = true) →
    (∀ bs, bit x.flags 1 = false → s.dev.bufRead s.mem g.buf x.offset x.len = .ok bs → Completes cmd s (fun t =>
      t.mem = s.mem.sramWrite (landAddr c land) bs ∧
      t.dev.job id = some { j with schedPos := j.schedPos + 1 } ∧
      (sig ≠ 0xFFFF → t.dev.flag c sig = min 0xFFFF (s.dev.flag c sig + 1)))) ∧
    (∀ y, bit x.flags 1 = true → g.access ≠ 0 →
      s.dev.bufStore s.mem g.buf x.offset (s.mem.sramRead (landAddr c land) x.len) = .ok y → Completes cmd s (fun t =>
      t.mem = y.2 ∧ t.dev.job id = some { j with schedPos := j.schedPos + 1 } ∧
      (sig ≠ 0xFFFF → t.dev.flag c sig = min 0xFFFF (s.dev.flag c sig + 1))))

/-! ## Memory -/

/-- Buffers (R390 to R396, R414, R415): allocated of free pitches, freed, reported, read and written. -/
def Obligations.BuffersAreServed : Prop :=
  ∀ (s : State) (ch : Fin 8) (r : Request),
    (s.holds ch 0x0600 r → Reports (.memStatus ch) s ch r (fun p => p.length = 196 ∧
      fieldAt p 0 2 = s.dev.boot.memCap % 65536 ∧ fieldAt p 2 1 = s.dev.boot.lpRate % 256)) ∧
    (∀ ps, s.holds ch 0x0601 r → targetOk (r.u 8 1) (r.u 9 1) = true → s.dev.memsys.hostCount < 4096 →
      s.dev.place (r.u 8 1) (r.u 9 1) ((r.u 0 8 + pitchSize - 1) / pitchSize) = some ps →
      ∃ id t, exec (.bufAlloc ch) s = .next t ∧ t.mem = s.mem ∧ (t.dev.chan ch.val).formed = some (okWith (leBytes 4 id ++
        leBytes 4 ((r.u 0 8 + pitchSize - 1) / pitchSize))) ∧
        t.dev.buf id = some ⟨r.u 8 1, r.u 9 1, ps, false, false⟩ ∧
        ps.length = (r.u 0 8 + pitchSize - 1) / pitchSize ∧ ∀ p ∈ ps, s.dev.memsys.taken p = false) ∧
    (∀ b, s.holds ch 0x0602 r → s.dev.buf (r.u 0 4) = some b → isHostBuf (r.u 0 4) = true →
      (b.lost = true ∨ s.dev.bufHeld (r.u 0 4) b = false) → Sets (.bufFree ch) s ch (fun t =>
        t.dev.buf (r.u 0 4) = none ∧ ∀ k, k ≠ r.u 0 4 → t.dev.buf k = s.dev.buf k)) ∧
    (∀ b, s.holds ch 0x0603 r → s.dev.buf (r.u 0 4) = some b → r.u 4 4 ≤ b.pitches.length →
      Reports (.bufInfo ch) s ch r (fun p => p.length = 24 + 8 * min 500 (b.pitches.length - r.u 4 4) ∧
        fieldAt p 0 1 = s.dev.bufState (r.u 0 4) b ∧ fieldAt p 12 4 = b.pitches.length % 2 ^ 32)) ∧
    (∀ b bs, s.holds ch 0x0604 r → s.dev.buf (r.u 0 4) = some b → r.u 8 8 + r.u 16 4 ≤ b.size → b.lost = false →
      s.dev.bufRead s.mem (r.u 0 4) (r.u 8 8) (r.u 16 4) = .ok bs → Reports (.memRead ch) s ch r (fun p =>
        p = leBytes 8 (r.u 8 8) ++ leBytes 4 (r.u 16 4) ++ zeros 4 ++ bs)) ∧
    (∀ b x, s.holds ch 0x0605 r → s.dev.buf (r.u 0 4) = some b → r.u 8 8 + r.u 16 4 ≤ b.size → b.lost = false →
      isHostBuf (r.u 0 4) = true → s.dev.bufHeld (r.u 0 4) b = false →
      s.dev.bufStore s.mem (r.u 0 4) (r.u 8 8) (r.bytes 24 (r.u 16 4)) = .ok x → Completes (.memWrite ch) s (fun t =>
        t.mem = x.2 ∧ (t.dev.chan ch.val).formed = some (okWith []) ∧ t.mem.sram = s.mem.sram ∧
        t.mem.flash = s.mem.flash ∧
        ∀ a, (∀ q ∈ b.range (r.u 8 8) (r.bytes 24 (r.u 16 4)).length, a < q.1 ∨ q.1 + q.2 ≤ a) →
          Cells.read 0#8 t.mem.lp a = Cells.read 0#8 s.mem.lp a))

/-- Requests at a home slice and the patrol scrub (R382, R383, R385, R397 to R403). -/
def Obligations.SlicesServeRequests : Prop :=
  ∀ s : State,
    (∀ pa len write (policy : Fin 3), pa / 2 ^ 34 < 16 → s.dev.channelUp (pa / 2 ^ 34) = true →
      s.dev.mscTested (pa / 2 ^ 34) = false → pa % 2 ^ 34 < s.dev.density * 2 ^ 30 → 0 < len → pa % 128 + len ≤ 128 →
      policy.val ≠ 2 → s.dev.pwr.noalloc.getLsbD (pa / 2 ^ 34) = false →
      (s.dev.memsys.msc.getD (mscKey pa) MscSet.empty).ways.length = 16 →
      Completes (.mscRequest pa len write policy .clean) s (fun t => t.mem = s.mem ∧
        t.dev.memsys.holdsSector pa = true ∧ (write = true → t.dev.memsys.isDirty pa = true))) ∧
    (∀ pa len (policy : Fin 3), pa / 2 ^ 34 < 16 → s.dev.channelUp (pa / 2 ^ 34) = true →
      s.dev.mscTested (pa / 2 ^ 34) = false → pa % 2 ^ 34 < s.dev.density * 2 ^ 30 → 0 < len → pa % 128 + len ≤ 128 →
      s.dev.memsys.holdsSector pa = false → Completes (.mscRequest pa len false policy .uncorrectable) s (fun t =>
        t.mem = s.mem ∧ pa / 64 ∈ t.dev.memsys.bad ∧ t.dev.evt.flogCount = (s.dev.evt.flogCount + 1) % 2 ^ 32)) ∧
    (∀ (channel : Fin 16) ecc, s.dev.channelUp channel.val = true → s.dev.density ≠ 0 →
      s.dev.mscTested channel.val = false → Completes (.patrolScrub channel ecc) s (fun t => t.mem = s.mem ∧
        t.dev.memsys.scrub.look channel.val =
          some ((s.dev.memsys.scrub.getD channel.val 0 % (s.dev.density * 2 ^ 24) + 1) %
            (s.dev.density * 2 ^ 24))))

/-! ## The stereo and feature tracking engines -/

/-- The commands of the stereo engine (R419, R446, R447, R450, R451). -/
def steCommandsConfigure : Prop :=
  ∀ (s : State) (ch : Fin 8) (r : Request),
    (s.mayConfigure ch setSteConfig r → steFieldsOk r = true → s.dev.visionUp (r.u 0 1) = true →
      Sets (.steConfig ch) s ch (fun t => (t.dev.stePair (r.u 0 1)).cfg = some ⟨r.u 1 1, r.u 2 1, r.u 4 2, r.u 6 2, r.u 8 2,
        r.u 10 2, r.u 12 2, r.u 14 1, r.u 15 1, r.u 16 1, r.u 17 1, r.u 18 1, r.u 19 1, r.u 20 1⟩)) ∧
    (s.mayConfigure ch setSteMap r → s.dev.visionUp (r.u 0 1) = true → r.u 2 1 % 2 = 1 →
      Sets (.steMap ch) s ch (fun t => (t.dev.stePair (r.u 0 1)).maps.look (r.u 1 1) = none)) ∧
    (∀ bs, s.mayConfigure ch setSteMap r → s.dev.visionUp (r.u 0 1) = true → r.u 2 1 % 2 = 0 →
      s.dev.hostBytes s.mem (r.u 4 4) (r.u 8 8) (mapBytes (s.dev.steCfg (r.u 0 1)).outW (s.dev.steCfg (r.u 0 1)).outH) =
        some bs → Sets (.steMap ch) s ch (fun t => (t.dev.stePair (r.u 0 1)).maps.look (r.u 1 1) = some bs)) ∧
    (s.mayConfigure ch setSteMask r → s.dev.visionUp (r.u 0 1) = true → r.u 2 1 % 2 = 1 →
      Sets (.steMask ch) s ch (fun t => (t.dev.stePair (r.u 0 1)).masks.look (r.u 1 1) = none)) ∧
    (∀ bs, s.mayConfigure ch setSteMask r → s.dev.visionUp (r.u 0 1) = true → r.u 2 1 % 2 = 0 →
      s.dev.hostBytes s.mem (r.u 4 4) (r.u 8 8) (maskBytes (s.dev.steCfg (r.u 0 1)).outW (s.dev.steCfg (r.u 0 1)).outH) =
        some bs → Sets (.steMask ch) s ch (fun t => (t.dev.stePair (r.u 0 1)).masks.look (r.u 1 1) = some bs)) ∧
    (s.holds ch 0x0703 r → s.dev.visionUp (r.u 0 1) = true → Reports (.steStatus ch) s ch r (fun p =>
      p.length = 40 + 4 * (s.dev.stePair (r.u 0 1)).lastCounts.length ∧
      fieldAt p 4 4 = (s.dev.stePair (r.u 0 1)).frames % 2 ^ 32 ∧
      fieldAt p 16 4 = (s.dev.stePair (r.u 0 1)).lastSeq % 2 ^ 32)) ∧
    (s.holds ch 0x0704 r → s.roomy → s.dev.engineUp (r.u 0 1) 0 = true →
      ([r.u 4 4, r.u 16 4, r.u 28 4, r.u 40 4].all fun id => isHostBuf id && (s.dev.buf id).isSome) = true →
      s.dev.frameInside s.mem (r.u 4 4) (r.u 8 8) = true → s.dev.frameInside s.mem (r.u 16 4) (r.u 20 8) = true →
      r.u 32 8 + 4096 + 3 * (s.dev.steCfg (r.u 0 1)).outW * (s.dev.steCfg (r.u 0 1)).outH ≤
        (s.dev.buf (r.u 28 4)).elim 0 (·.size) →
      4 * (s.dev.steCfg (r.u 0 1)).outW * (s.dev.steCfg (r.u 0 1)).outH ≤ (s.dev.buf (r.u 40 4)).elim 0 (·.size) →
      Admits (.steRun ch) s ch (fun j => j.cls = .user ∧ j.work = .ste (r.u 0 1) (r.u 4 4) (r.u 16 4) (r.u 28 4)))

/-- An operation of the stereo engine (R421, R436 to R444): a band is built, a tile ends, a disparity band goes to its slot and
raises its flag, and the finished frame is written, planes first, record last. -/
def steOperationsProceed : Prop :=
  ∀ (s : State) (die : Fin 8), s.dev.visionUp die.val = true → s.dev.engineTested die.val 0 = false →
    (∀ (view : Fin 2) o f, s.dev.pickSte die.val (fun o => !o.absent &&
        (if view.val = 0 then o.builtL else o.builtR) < o.cfg.bands && (match s.dev.steSource o view.val with
          | some f => s.dev.bandReady o view.val f
          | none => false)) = some o → s.dev.steSource o view.val = some f →
      (match s.dev.buf f.buf, f.slot with
        | some b, some (st, _) =>
          s.dev.rangeError b (f.off + 4096) ((s.dev.csi st).strideBytes * (s.dev.csi st).height) false
        | some b, none => s.dev.rangeError b f.off (s.dev.source s.mem f).size false
        | none, _ => some (.completion 0)) = none →
      Completes (.steBandBuild die view) s (fun t => t.mem = s.mem ∧ o.build view.val f ∈ t.dev.vis.ste)) ∧
    (∀ o, (((s.dev.steOps die.val).find? fun o => s.dev.vis.steOn.look die.val == some o.job && s.dev.steMatching o).orElse
        fun _ => s.dev.pickSte die.val s.dev.steMatching) = some o →
      Completes (.steTileBoundary die) s (fun t => t.mem = s.mem ∧ ∃ clip, o.nextTile clip ∈ t.dev.vis.ste)) ∧
    (∀ (slots : List (Nat × Nat × Nat × Nat)) o x, 2 ≤ slots.length → slots.length ≤ 16 →
      s.dev.pickSte die.val (·.bandDue) = some o →
      (slots.map fun x => (⟨x.1, x.2.1, x.2.2.1, x.2.2.2⟩ : BandSlot)).all (s.dev.slotOk o.job o.cfg) = true →
      x = (slots.map fun x => (⟨x.1, x.2.1, x.2.2.1, x.2.2.2⟩ : BandSlot)).getD (o.band % slots.length) ⟨0, 0, 0, 0⟩ →
      o.band / slots.length ≤ s.dev.flag x.cluster x.free → Completes (.steBandWrite die slots) s (fun t =>
        { o with band := o.band + 1, waited := false } ∈ t.dev.vis.ste ∧
        t.dev.flag x.cluster x.full = min 0xFFFF (s.dev.flag x.cluster x.full + 1) ∧
        ∃ bytes, t.mem = s.mem.sramWrite (landAddr x.cluster (x.block * 32768)) bytes)) ∧
    (∀ o a b z,
      let x := s.dev.steOutput s.mem o
      let y := s.dev.stePair die.val
      let buf := if o.tick = true then y.ring.getD (s.dev.freeSlotOf y.ring y.at_) 0 else o.outBuf
      let off := if o.tick = true then 0 else o.outOff
      let d := if o.tick = true then s.dev.takeSlot buf else s.dev
      s.dev.pickSte die.val (·.finished) = some o → d.bufStore s.mem buf (off + 4096) x.disp = .ok a →
      a.1.bufStore a.2 buf (off + 4096 + x.disp.length) x.qual = .ok b → b.1.bufStore b.2 buf off x.record = .ok z →
      Completes (.steOpDone die) s (fun t => t.mem = z.2 ∧
        (∀ q ∈ t.dev.vis.ste, ¬ (q.job = o.job ∧ q.pair = die.val)) ∧ t.dev.vis.steOn.look die.val = none))

/-- The commands of the feature tracking engine (R453, R457, R484, R487, R488). -/
def fteCommandsConfigure : Prop :=
  ∀ (s : State) (ch : Fin 8) (r : Request),
    (s.mayConfigure ch setFteConfig r → s.dev.visionUp (r.u 0 1 / 2) = true → r.u 1 1 = 0 →
      Sets (.fteConfig ch) s ch (fun t => (t.dev.fteS (r.u 0 1)).enable = false ∧
        (t.dev.fteS (r.u 0 1)).core.ctxs = [] ∧ (t.dev.fteS (r.u 0 1)).core.owed = (s.dev.fteS (r.u 0 1)).core.owed ++
          streamLost (r.u 0 1) (s.dev.fteS (r.u 0 1)).core.ctxs)) ∧
    (s.mayConfigure ch setFteConfig r → s.dev.visionUp (r.u 0 1 / 2) = true → r.u 1 1 ≠ 0 →
      (fteCfgOf r).contexts + (s.dev.fteCfg (otherStream (r.u 0 1))).contexts ≤ 8192 →
      (s.dev.csi (r.u 0 1)).width ≤ 4096 → (s.dev.csi (r.u 0 1)).height ≤ 3072 →
      4 * (fteCfgOf r).win ≤ (s.dev.csi (r.u 0 1)).width / 2 ^ ((fteCfgOf r).levels - 1) →
      4 * (fteCfgOf r).win ≤ (s.dev.csi (r.u 0 1)).height / 2 ^ ((fteCfgOf r).levels - 1) →
      s.dev.descOk (r.u 0 1) (fteCfgOf r) = true → Sets (.fteConfig ch) s ch (fun t =>
        if (s.dev.fteS (r.u 0 1)).enable = true then (t.dev.fteS (r.u 0 1)).next = some (fteCfgOf r)
        else (t.dev.fteS (r.u 0 1)).enable = true ∧ (t.dev.fteS (r.u 0 1)).cfg = some (fteCfgOf r))) ∧
    (s.mayConfigure ch setFteMask r → s.dev.visionUp (r.u 0 1 / 2) = true → r.u 1 1 % 2 = 1 →
      Sets (.fteMask ch) s ch (fun t => (t.dev.fteS (r.u 0 1)).mask = none)) ∧
    (∀ b bs, s.mayConfigure ch setFteMask r → s.dev.visionUp (r.u 0 1 / 2) = true → r.u 1 1 % 2 = 0 →
      s.dev.trackBuf (r.u 4 4) = some b →
      r.u 8 8 + maskBytes (s.dev.csi (r.u 0 1)).width (s.dev.csi (r.u 0 1)).height ≤ b.size →
      s.dev.bufRead s.mem (r.u 4 4) (r.u 8 8) (maskBytes (s.dev.csi (r.u 0 1)).width (s.dev.csi (r.u 0 1)).height) =
        .ok bs → Sets (.fteMask ch) s ch (fun t => (t.dev.fteS (r.u 0 1)).mask = some bs)) ∧
    (s.holds ch 0x0802 r → s.dev.visionUp (r.u 0 1 / 2) = true → Reports (.fteStatus ch) s ch r (fun p =>
      p.length = 40 + (s.dev.fteS (r.u 0 1)).core.summary.length ∧
      fieldAt p 4 4 = (s.dev.fteS (r.u 0 1)).ops % 2 ^ 32 ∧
      fieldAt p 8 2 = liveCount (s.dev.fteS (r.u 0 1)).core.ctxs % 65536)) ∧
    (s.holds ch 0x0803 r → s.dev.visionUp (r.u 0 4 / 2 ^ 29) = true → Reports (.fteTrackGet ch) s ch r (fun p =>
      match ((s.dev.fteS (2 * (r.u 0 4 / 2 ^ 29))).core.ctxs ++ (s.dev.fteS (2 * (r.u 0 4 / 2 ^ 29) + 1)).core.ctxs).find?
        (fun e => e.2.id == r.u 0 4) with
      | some e => p = leBytes 1 e.2.state ++ leBytes 1 e.2.dormant ++ zeros 2 ++ e.2.rec_
      | none => p = zeros 36)) ∧
    (s.holds ch 0x0804 r → s.roomy → s.dev.profileUses [(0, r.u 0 1)] = false →
      s.dev.engineUp (r.u 0 1 / 2) 1 = true →
      ([r.u 4 4, r.u 16 4, r.u 28 4, r.u 40 4].all fun id => isHostBuf id && (s.dev.buf id).isSome) = true →
      s.dev.frameInside s.mem (r.u 4 4) (r.u 8 8) = true → s.dev.frameInside s.mem (r.u 16 4) (r.u 20 8) = true →
      r.u 32 8 + 64 + 32 * (s.dev.fteCfg (r.u 0 1)).contexts ≤ (s.dev.buf (r.u 28 4)).elim 0 (·.size) →
      3 * (s.dev.source s.mem ⟨r.u 4 4, r.u 8 8, none⟩).w * (s.dev.source s.mem ⟨r.u 4 4, r.u 8 8, none⟩).h ≤
        (s.dev.buf (r.u 40 4)).elim 0 (·.size) →
      Admits (.fteRun ch) s ch (fun j => j.cls = .user ∧ j.work = .fte (r.u 0 1) (r.u 4 4) (r.u 28 4)))

/-- The commands of the stereo engine (R419 to R451) and of the feature tracking engine (R453 to R488). -/
def Obligations.VisionCommandsConfigure : Prop := steCommandsConfigure ∧ fteCommandsConfigure

/-- An operation of the tracking engine (R460, R461, R466, R473, R476, R479): a band is built, the operation of a tick ends
with its results pending, a dormant context at its age and the contexts of a frozen stream are freed. -/
def fteOperationsProceed : Prop :=
  ∀ s : State,
    (∀ (die : Fin 8) (view : Fin 2) o f, s.dev.visionUp die.val = true → s.dev.engineTested die.val 1 = false →
      s.dev.pickFte (2 * die.val + view.val) (s.dev.fteBandReady s.mem) = some o → s.dev.fteSource o = some f →
      (match s.dev.buf f.buf, f.slot with
        | some b, some (st, _) =>
          s.dev.rangeError b (f.off + 4096) ((s.dev.csi st).strideBytes * (s.dev.csi st).height) false
        | some b, none => s.dev.rangeError b f.off (s.dev.source s.mem f).size false
        | none, _ => some (.completion 0)) = none →
      Completes (.fteBandBuild die view) s (fun t => t.mem = s.mem ∧
        { o with src := some f, built := o.built + 1 } ∈ t.dev.vis.fte ∧ t.dev.vis.fteOn.look die.val = some o.job)) ∧
    (∀ (die : Fin 8) (view : Fin 2) h fbBuf fbOff fbCount cluster block flag o f, s.dev.visionUp die.val = true →
      s.dev.engineTested die.val 1 = false →
      s.dev.pickFte (2 * die.val + view.val) (fun o => !o.done && o.built == s.dev.fteBands s.mem o &&
        (match o.src.bind (·.slot) with
          | some (s', k) => (match (s.dev.stream s').frames.look k with | some f => f.closed | none => false)
          | none => true)) = some o → o.fresh = false → o.src = some f →
      (fteList o cluster block flag [] s.dev s.mem).isSome = true →
      Completes (.fteTrackOp die view h fbBuf fbOff fbCount cluster block flag) s (fun t =>
        t.dev.vis.fteOn.look die.val = none ∧ ∃ q ∈ t.dev.vis.fte, q.job = o.job ∧ q.stream = o.stream ∧
          q.done = true ∧ q.pending.isSome = true)) ∧
    (∀ (k : Fin 16) slot c, (s.dev.newestCore k.val).ctxs.look slot = some c → c.state = 3 →
      (s.dev.fteCfg k.val).reidAge ≤ c.dormant → Completes (.fteDormantExpire k slot) s (fun t => t.mem = s.mem ∧
        (t.dev.newestCore k.val).ctxs.look slot = none)) ∧
    (∀ k : Fin 16, (s.dev.fteCfg k.val).freezeMax < (s.dev.newestCore k.val).frozen →
      Completes (.fteFreezeExpire k) s (fun t => t.mem = s.mem ∧ (t.dev.newestCore k.val).ctxs = [] ∧
        (t.dev.newestCore k.val).owed = (s.dev.newestCore k.val).owed ++
          streamLost k.val (s.dev.newestCore k.val).ctxs))

/-- Operations of the stereo engine (R421 to R444) and of the tracking engine (R460 to R479). -/
def Obligations.VisionOperationsProceed : Prop := steOperationsProceed ∧ fteOperationsProceed

/-! ## Fusion -/

/-- The fusion commands (R500, R504, R514, R516 to R518, R525 to R527). -/
def Obligations.FusionCommandsConfigure : Prop :=
  ∀ (s : State) (ch : Fin 8) (r : Request),
    (s.mayConfigure ch setGridConfig r → (gridCfgOf r).gridW % 64 = 0 → (gridCfgOf r).margin ≤ (gridCfgOf r).gridW / 4 →
      (gridCfgOf r).zMin < (gridCfgOf r).zMax → channelTotal s.dev.grid.slots (gridCfgOf r) ≤ 512 →
      Sets (.gridConfig ch) s ch (fun t => t.dev.grid = { s.dev.grid with cfg := gridCfgOf r, forced := true })) ∧
    (∀ g : GridSlot, g = ⟨r.u 1 1, r.u 2 1, r.u 3 1 == 1, r.u 4 2, r.u 6 1, r.u 7 1, r.u 8 2, r.u 10 2⟩ →
      s.mayConfigure ch setGridSource r → ((g.kind == 2) = decide (16 ≤ g.stream)) →
      (if g.kind = 2 then 1 ≤ g.bins ∧ g.bins ≤ 32 else 8 ≤ g.bins ∧ g.bins ≤ 128) →
      channelTotal (s.dev.grid.slots.put (r.u 0 1) g) s.dev.grid.cfg ≤ 512 → s.dev.streamUp g.stream = true →
      Sets (.gridSource ch) s ch (fun t => t.dev.grid = { s.dev.grid with slots := s.dev.grid.slots.put (r.u 0 1) g })) ∧
    (s.mayConfigure ch setCalSet r → (if r.u 0 1 < 16 then r.u 1 1 < 2 else r.u 1 1 = 2 ∧ r.u 40 36 = 0) →
      s.dev.streamUp (r.u 0 1) = true → Sets (.calSet ch) s ch (fun t =>
        (t.dev.cal (r.u 0 1)).base = recSet (r.bytes 0 112) 2 (leBytes 1 (r.u 2 1 % 2)) ∧
        (t.dev.cal (r.u 0 1)).current = (t.dev.cal (r.u 0 1)).base)) ∧
    (s.holds ch 0x0903 r → Reports (.calGet ch) s ch r (fun p =>
      p = (s.dev.cal (r.u 0 1)).base ++ (s.dev.cal (r.u 0 1)).current ++ leBytes 4 (s.dev.cal (r.u 0 1)).refines ++
        leBytes 16 (s.dev.cal (r.u 0 1)).lastDts.toNat)) ∧
    (s.mayConfigure ch setCalRefine r → Sets (.calRefine ch) s ch (fun t =>
      (t.dev.cal (r.u 0 1)).period = r.u 2 2 ∧ (t.dev.cal (r.u 0 1)).stepRot = r.u 4 2 ∧
      (t.dev.cal (r.u 0 1)).stepTrans = r.u 6 2 ∧ (t.dev.cal (r.u 0 1)).maxRot = r.u 8 2 ∧
      (t.dev.cal (r.u 0 1)).maxTrans = r.u 10 2 ∧ (t.dev.cal (r.u 0 1)).base = (s.dev.cal (r.u 0 1)).base)) ∧
    (s.mayConfigure ch setCheckConfig r → r.u 2 2 ≤ r.u 0 2 → (r.u 7 1 = 0 ∨ r.u 7 1 = s.dev.loc.wheel.source) →
      Sets (.checkConfig ch) s ch (fun t => t.dev.grid = { s.dev.grid with
        check := ⟨r.u 0 2, r.u 2 2, r.u 4 1, r.u 5 1, r.u 6 1, r.u 7 1, r.u 8 1, r.u 9 1, r.u 10 1, r.u 11 1⟩ })) ∧
    (s.holds ch 0x0906 r → Reports (.fusionStatus ch) s ch r (fun p =>
      p.length = 36 + 8 * s.dev.grid.check.all.length ∧ fieldAt p 0 1 = s.dev.grid.frame % 256 ∧
      fieldAt p 4 4 = s.dev.grid.tickSeq % 2 ^ 32 ∧ fieldAt p 32 4 = s.dev.grid.check.all.length % 2 ^ 32))

/-- Fusion in a tick (R497 to R499, R505 to R513, R515, R517): a check is decided, once; a clean source is no longer suspect;
halos are sent; a refinement is admitted when its period is over. -/
def Obligations.FusionEventsFollow : Prop :=
  ∀ s : State,
    (∀ (check : Fin 2) es id j, s.dev.runningTick = some (id, j) → Completes (.checkDecision check es) s (fun t =>
      t.mem = s.mem ∧ t.dev.grid.checkTick = some j.order ∧ check.val ∈ t.dev.grid.decided)) ∧
    (∀ k, (s.dev.checkSrc k).suspect = true → s.dev.grid.check.clear ≤ (s.dev.checkSrc k).run →
      s.dev.grid.check.all.elem k = true → Completes (.checkSourceClean k) s (fun t => t.mem = s.mem ∧
        (t.dev.checkSrc k).suspect = false ∧ t.dev.evt.cause.getLsbD 6 = true)) ∧
    (∀ (die : Fin 8) width hmax c0 c1 below above x, s.dev.runningTick = some x →
      s.dev.grid.owners.getLsbD die.val = true → 0 < width → width ≤ hmax → hmax ≤ 32 → width ≤ s.dev.grid.cfg.strip →
      c0 < c1 → c1 ≤ s.dev.grid.cstride → (s.dev.grid.tensors.look die.val).isSome = true →
      Completes (.haloCopy die width hmax c0 c1 below above false) s (fun t =>
        t.dev.grid.haloRem.look die.val = some ((s.dev.grid.haloRem.getD die.val 0 +
          (b2n (decide (0 < die.val) && s.dev.grid.owners.getLsbD (die.val - 1)) +
            b2n (decide (die.val < 7) && s.dev.grid.owners.getLsbD (die.val + 1))) *
          width * s.dev.grid.cfg.gridW * (c1 - c0) * 2) % 65536))) ∧
    (∀ k : Fin 24, recU (s.dev.cal k.val).current 2 1 % 2 = 1 →
      s.dev.jobs.table.any (fun e => decide (e.2.work = .calRefine k.val) && e.2.active) = false →
      s.dev.calFrozen k.val = false → s.dev.jobs.activeCount < 64 → Completes (.calRefineTick k) s (fun t =>
        t.mem = s.mem ∧ (s.dev.cal k.val).lastAt + (s.dev.cal k.val).period * oneS ≤ t.dev.time.now ∧
        (t.dev.cal k.val).lastAt = t.dev.time.now ∧
        ∃ id j, t.dev.job id = some j ∧ j.work = .calRefine k.val ∧ j.cls = .map ∧ j.state = .waiting))

/-! ## The solver and the pose propagator -/

/-- The solver commands (R530, R531, R543, R550, R561 to R563, R577, R578). -/
def Obligations.SolverCommands : Prop :=
  ∀ (s : State) (ch : Fin 8) (r : Request),
    (∀ b, s.holds ch 0x0A00 r → s.dev.slvHeld (r.u 0 1) (r.u 1 1) = false → s.dev.slvEngaged (r.u 0 1) (r.u 1 1) = false →
      s.dev.slvUp (r.u 0 1) = true → isHostBuf (r.u 4 4) = true → s.dev.bufReady (r.u 4 4) = true →
      isHostBuf (r.u 20 4) = true → s.dev.bufReady (r.u 20 4) = true →
      r.u 8 8 + r.u 16 4 ≤ (s.dev.buf (r.u 4 4)).elim 0 (·.size) → s.dev.mbx.handles.length < 256 →
      s.dev.bufRead s.mem (r.u 4 4) (r.u 8 8) (r.u 16 4) = .ok b → Accepts (.slvLoad ch) s ch (fun h t => t.mem = s.mem ∧
        match slvCheck b (r.u 16 4) (s.dev.slvRoom (r.u 0 1) (r.u 1 1) b (r.u 20 4)) with
        | some e => t.dev.slv = s.dev.slv ∧ t.dev.ended h = some (if e.1 = 7 then 0x16 else 0x13)
        | none => t.dev.slvSlot (r.u 0 1) (r.u 1 1) =
            (slvLoaded (s.dev.slvSlot (r.u 0 1) (r.u 1 1)) b (slvSignature b) (r.u 20 4)).1 ∧
          t.dev.ended h = some 0)) ∧
    (∀ p, s.holds ch 0x0A01 r → s.dev.slvHeld (r.u 0 1) (r.u 1 1) = false → s.dev.slvUp (r.u 0 1) = true →
      (s.dev.slvSlot (r.u 0 1) (r.u 1 1)).desc ≠ [] →
      (if bit (r.u 2 1) 0 = true then isHostBuf (r.u 4 4) = true ∧ s.dev.bufReady (r.u 4 4) = true ∧
          s.dev.bufRead s.mem (r.u 4 4) (r.u 8 8) (r.u 16 4) = .ok p else p = r.body.drop 20) →
      packetCheck (s.dev.slvSlot (r.u 0 1) (r.u 1 1)) p = none → Sets (.slvUpdate ch) s ch (fun t =>
        t.dev.slvSlot (r.u 0 1) (r.u 1 1) = { s.dev.slvSlot (r.u 0 1) (r.u 1 1) with
          pending := (s.dev.slvSlot (r.u 0 1) (r.u 1 1)).pending ++ [p] })) ∧
    (s.holds ch 0x0A02 r → s.roomy → s.dev.slvHeld (r.u 0 1) (r.u 1 1) = false →
      (s.dev.slvSlot (r.u 0 1) (r.u 1 1)).desc ≠ [] → s.dev.slvEngaged (r.u 0 1) (r.u 1 1) = false →
      isHostBuf (r.u 20 4) = true → (s.dev.buf (r.u 20 4)).isSome = true →
      r.u 24 8 + slvResultSize (s.dev.slvSlot (r.u 0 1) (r.u 1 1)).desc ≤ (s.dev.buf (r.u 20 4)).elim 0 (·.size) →
      Admits (.slvSolve ch) s ch (fun j => j.cls = .user ∧ j.work = .slv (r.u 0 1) (r.u 1 1))) ∧
    (s.holds ch 0x0A03 r → s.dev.slvUp (r.u 0 1) = true → s.dev.slvHeld (r.u 0 1) (r.u 1 1) = false →
      Reports (.slvStatus ch) s ch r (fun p => fieldAt p 0 1 = s.dev.slvState (r.u 0 1) (r.u 1 1) ∧
        fieldAt p 1 1 = 0 ∧ ∃ body, p = body ++ (s.dev.slvSlot (r.u 0 1) (r.u 1 1)).result)) ∧
    (s.holds ch 0x0A03 r → s.dev.slvUp (r.u 0 1) = true → s.dev.slvHeld (r.u 0 1) (r.u 1 1) = true →
      ∃ p, exec (.slvStatus ch) s = .next (s.answered ch r s.dev.tickFree (okWith p)) ∧
        fieldAt p 0 1 = s.dev.slvState (r.u 0 1) (r.u 1 1) ∧ fieldAt p 1 1 = 1) ∧
    (s.holds ch 0x0A04 r → s.dev.slvHeld (r.u 0 1) (r.u 1 1) = false → s.dev.slvEngaged (r.u 0 1) (r.u 1 1) = false →
      s.dev.slvUp (r.u 0 1) = true → (s.dev.slvSlot (r.u 0 1) (r.u 1 1)).desc ≠ [] → Sets (.slvUnload ch) s ch (fun t =>
        t.dev.slvSlot (r.u 0 1) (r.u 1 1) = SlvSlot.reset))

/-- Events of a solve (R533, R556, R557, R564 to R566): a step boundary, a deadline, the end of a solve. -/
def solvesProceed : Prop :=
  ∀ s : State,
    (∀ (die : Fin 8) cycles o, s.dev.slvUp die.val = true → s.dev.engineTested die.val 2 = false →
      s.dev.slvRunning die.val = some o → Completes (.slvStepBoundary die cycles) s (fun t => t.mem = s.mem ∧
        ∃ q ∈ t.dev.slv.ops, q.job = o.job ∧ q.busy = o.busy + cycles)) ∧
    (∀ (die : Fin 8) cycles, s.dev.slvUp die.val = true → s.dev.engineTested die.val 2 = false →
      s.dev.slvRunning die.val = none →
      exec (.slvStepBoundary die cycles) s = .next (s.withDev (s.dev.slvPick die.val))) ∧
    (∀ id o when_, s.dev.slv.ops.find? (fun o => o.job == id && o.header.isEmpty) = some o → o.deadline = some when_ →
      Completes (.slvDeadline id) s (fun t => t.mem = s.mem ∧ ∃ q ∈ t.dev.slv.ops, q.job = id ∧ q.late = true)) ∧
    (∀ (die : Fin 8) x o e, s.dev.slvRunning die.val = some o → o.fw = true →
      slvOutEnded x (s.dev.slvTime o).late = some e → Completes (.slvSolveEnd die x) s (fun t => t.mem = s.mem ∧
        ∃ q ∈ t.dev.slv.ops, q.job = o.job ∧ q.ended = some e ∧ q.header ≠ [])) ∧
    (∀ (die : Fin 8) x o e y, s.dev.slvRunning die.val = some o → o.fw = false → (s.dev.slvTime o).ended = some e →
      s.dev.slvWrite s.mem (s.dev.slvTime o) (s.dev.slvHeader (s.dev.slvTime o) e
        (match s.dev.job o.job with | some j => 0 < j.total | none => false)) = .ok y →
      Completes (.slvSolveEnd die x) s (fun t => t.mem = y.2 ∧
        ∃ q ∈ t.dev.slv.ops, q.job = o.job ∧ q.header = s.dev.slvHeader (s.dev.slvTime o) e
          (match s.dev.job o.job with | some j => 0 < j.total | none => false)))

/-- The pose propagator (R570, R575, R577, R578): its settings, its newest record, and the record of the next millisecond. -/
def propagatorRecords : Prop :=
  ∀ (s : State) (ch : Fin 8) (r : Request),
    (s.mayConfigure ch setPpConfig r → Sets (.ppConfig ch) s ch (fun t => t.dev.slv = { s.dev.slv with
      pp := { s.dev.slv.pp with
        imu := r.u 0 1, gravity := r.u 4 4, qbi := ⟨r.i 8 4, r.i 12 4, r.i 16 4, r.i 20 4⟩
        tbi := ⟨r.i 24 4, r.i 28 4, r.i 32 4⟩ } })) ∧
    (s.holds ch 0x0A06 r → Reports (.ppStatus ch) s ch r (fun p =>
      p = leBytes 1 s.dev.loc.cfg.pair ++ zeros 3 ++ s.dev.slv.pp.latest)) ∧
    (s.dev.locRuns = true → Completes .ppRecord s (fun t => t.mem = s.mem ∧
      t.dev.slv.pp.seq = (s.dev.slv.pp.seq + 1) % 2 ^ 32 ∧
      t.dev.slv.pp.lastMs = some (match s.dev.slv.pp.lastMs with
        | some m => m + oneMs
        | none => (s.dev.time.ns16 + oneMs - 1) / oneMs * oneMs) ∧
      t.dev.slv.pp.stepped = false ∧ t.dev.slv.pp.anchored = false))

/-- Events of a solve (R533 to R566) and the pose propagator (R570 to R578). -/
def Obligations.SolvesAndRecordsProceed : Prop := solvesProceed ∧ propagatorRecords

/-! ## Localisation -/

/-- The localisation commands (R580, R589, R595, R598 to R600, R612, R613). -/
def localisationCommands : Prop :=
  ∀ (s : State) (ch : Fin 8) (r : Request),
    (s.mayConfigure ch setLocConfig r → s.dev.deadlinesOk (locCfgOf r) = true → Sets (.locConfig ch) s ch (fun t =>
      t.dev.loc = { s.dev.loc with cfg := locCfgOf r })) ∧
    (s.mayConfigure ch setWheelConfig r →
      (r.u 2 1 = 1 → r.u 3 1 % 2 = 0 ∧ 32 ≤ r.u 3 1 ∧ r.u 3 1 < 64 ∧ (s.dev.sfeS (r.u 3 1)).res = true) →
      (s.dev.grid.check.wheel = 0 ∨ s.dev.grid.check.wheel = r.u 0 1) → Sets (.wheelConfig ch) s ch (fun t => t.dev.loc = { s.dev.loc with
        wheel := ⟨r.u 0 1, r.u 1 1, r.u 2 1, r.u 3 1, r.u 4 2, r.u 6 2, r.u 8 2, r.u 10 2, r.u 12 1, r.u 13 1, r.u 16 4,
          r.u 20 4, r.i 24 4, r.u 28 2, r.u 30 2⟩ })) ∧
    (s.mayConfigure ch setGnssConfig r → Sets (.gnssConfig ch) s ch (fun t =>
      t.dev.loc.gnss = ⟨r.u 0 1 == 1, r.u 1 1, ⟨r.i 4 4, r.i 8 4, r.i 12 4⟩, r.u 16 4, r.u 20 2⟩ ∧
      t.dev.loc.aligned = false ∧ t.dev.loc.fixes = [])) ∧
    (s.mayConfigure ch setLoopConfig r → Sets (.loopConfig ch) s ch (fun t => t.dev.loc = { s.dev.loc with
      loop := ⟨r.u 0 1 == 1, r.u 1 1, r.u 2 1, r.u 3 1, r.u 4 2, r.u 6 2, r.u 8 1, some (r.u 9 1), r.u 10 1, r.u 12 2,
        r.u 14 4⟩ })) ∧
    (s.holds ch 0x0B01 r → Reports (.locStatus ch) s ch r (fun p => p.length = 112 ∧
      fieldAt p 0 1 = s.dev.loc.state.code ∧ fieldAt p 1 1 = s.dev.loc.conf % 256 ∧
      fieldAt p 2 1 = s.dev.loc.prev.code)) ∧
    (s.holds ch 0x0B07 r → Reports (.poseGet ch) s ch r (fun p =>
      p = s.dev.loc.published ++ s.dev.loc.committed ++ s.dev.loc.covRecord)) ∧
    (s.holds ch 0x0B02 r → s.dev.locRuns = true → Sets (.locReset ch) s ch (fun t => t.dev.loc.state = .cold ∧
      t.dev.loc.window = [] ∧ t.dev.slv.pp.anchor = none)) ∧
    (s.holds ch 0x0B05 r → (s.dev.loc.gnss.enable = false ∨ r.u 48 1 = 0 ∨ s.dev.loc.state.estimating = false) →
      Sets (.gnssFix ch) s ch (fun t => t.dev.loc = { s.dev.loc with
        gnssDropped := min 0xFFFFFFFF (s.dev.loc.gnssDropped + 1) })) ∧
    (∀ f w p, f = (⟨dtsMoment (BitVec.ofNat 128 (r.u 0 16)), ⟨r.i 16 8, r.i 24 8, r.i 32 8⟩, r.u 40 4, r.u 44 4⟩ : Fix) →
      s.holds ch 0x0B05 r → s.dev.loc.gnss.enable = true → r.u 48 1 ≠ 0 → s.dev.loc.gnss.minType ≤ r.u 48 1 →
      f.sigmaH ≤ s.dev.loc.gnss.sigmaMax → s.dev.loc.window.head? = some w → w.at_ ≤ f.at_ → f.at_ ≤ s.dev.time.ns16 →
      s.dev.loc.state.estimating = true → s.dev.ringPose f.at_ = some p → s.dev.loc.aligned = false →
      spansDist (s.dev.loc.fixes ++ [(f, antennaAt p s.dev.loc.gnss.lever)]) s.dev.loc.gnss.alignDist = false →
      Sets (.gnssFix ch) s ch (fun t => t.dev.loc = { s.dev.loc with
        fixes := s.dev.loc.fixes ++ [(f, antennaAt p s.dev.loc.gnss.lever)] }))

/-- Localisation changes state outside a commit (R580), each change under LOCALISATION; the corrections that are due are
applied (R605). -/
def localisationChangesState : Prop :=
  ∀ s : State,
    (s.dev.locRuns = true → s.dev.loc.state = .cold → s.dev.locReady = true →
      s.dev.jobs.table.any (fun e => e.2.active && decide (e.2.work = .mapLoad)) = false →
      Completes .locInitStart s (fun t => t.mem = s.mem ∧ t.dev.loc.state = .init ∧ t.dev.loc.prev = .cold ∧
        t.dev.evt.cause.getLsbD 5 = true)) ∧
    (s.dev.locRuns = true → s.dev.loc.state = .init → s.dev.locUnready = true → Completes .locInitStart s (fun t =>
      t.mem = s.mem ∧ t.dev.loc.state = .cold ∧ t.dev.loc.window = [] ∧ t.dev.evt.cause.getLsbD 5 = true)) ∧
    (s.dev.locRuns = true → s.dev.loc.state.estimating = true → Completes .locLostTimeout s (fun t => t.mem = s.mem ∧
      t.dev.loc.state = .lost ∧ t.dev.loc.window = [] ∧ t.dev.loc.aligned = false ∧
      t.dev.evt.cause.getLsbD 5 = true)) ∧
    (s.dev.locRuns = true → s.dev.loc.state = .lost → Completes .locReinitTimeout s (fun t => t.mem = s.mem ∧
      t.dev.loc.state = .cold ∧ s.dev.loc.enteredAt + s.dev.loc.cfg.reinitTime * oneS ≤ t.dev.time.now ∧
      t.dev.evt.cause.getLsbD 5 = true)) ∧
    (∀ id j, s.dev.ticks.getLast? = some (id, j) → Completes .loopCorrectionApply s (fun t => t.mem = s.mem ∧
      t.dev.loc.applying = s.dev.loc.applying ++ s.dev.loc.corrections.filter (s.dev.correctionDue j.admitAt)))

/-- The localisation commands (R580 to R613) and the changes of its state outside a commit. -/
def Obligations.LocalisationAnswersAndMoves : Prop := localisationCommands ∧ localisationChangesState

/-! ## The map -/

/-- The map commands and reclamation (R630, R632, R634, R642, R646, R649, R650): reports; loads and exports admitted as MAP
jobs; the session renamed, closed or deleted; the map emptied, or given pools; nothing a pin does not need stays. -/
def Obligations.MapCommandsAct : Prop :=
  ∀ (s : State) (ch : Fin 8) (r : Request),
    (s.holds ch 0x0C00 r → Reports (.mapStatus ch) s ch r (fun p => p.length = 112 ∧
      fieldAt p 0 4 = s.dev.map.gen % 2 ^ 32 ∧ fieldAt p 8 4 = s.dev.map.nextId % 2 ^ 32 ∧
      fieldAt p 40 4 = s.dev.map.kfDropped % 2 ^ 32 ∧ fieldAt p 44 4 = s.dev.map.tileDropped % 2 ^ 32)) ∧
    (∀ d, s.mayConfigure ch setMapConfig r → s.dev.mapIdle = true → s.dev.map.pins = [] → s.dev.map.objs = [] →
      s.dev.freePools.mapPools (r.u 0 2) = some d → Sets (.mapConfig ch) s ch (fun t =>
        t.dev.map.poolMib = r.u 0 2 ∧ t.dev.map.pools = d.map.pools ∧ t.dev.map.objs = [])) ∧
    (s.holds ch 0x0C02 r → s.roomy → s.dev.mapIdle = true → s.dev.hostRange (r.u 0 4) (r.u 8 8) (r.u 16 8) = true →
      Admits (.mapLoad ch) s ch (fun j => j.cls = .map ∧ j.work = .mapLoad ∧ j.arg = r.body)) ∧
    (s.holds ch 0x0C03 r → s.roomy → (exportList r.body).all (fun id => (s.dev.session id).isSome) = true →
      (if r.u 0 1 = 0 then s.dev.hostRange (r.u 4 4) (r.u 8 8) 64 = true
       else (s.dev.tx (r.u 0 1 - 1)).enabled = true ∧ s.dev.txUp (r.u 0 1 - 1) = true) →
      (bit (r.u 1 1) 0 = true → s.dev.jobs.profile.uses.elem (13, 0) = true) →
      (s.dev.jobs.table.filter fun e => e.2.active && e.2.work.isExport).length < 2 →
      Admits (.mapExport ch) s ch (fun j => j.cls = .map ∧ j.work = .mapExport ∧ j.arg = r.body)) ∧
    (∀ b, s.holds ch 0x0C04 r → s.dev.map.newest (r.u 0 4) = some b → r.u 4 4 % 64 = 0 → r.u 4 4 < b.length →
      Reports (.mapGet ch) s ch r (fun p => fieldAt p 0 4 = recU b 8 4 ∧ fieldAt p 8 4 = r.u 4 4 ∧
        p.drop 12 = slice (recSet b 12 (zeros 4)) (r.u 4 4) (min (r.u 8 2) 4064))) ∧
    (∀ id b, s.holds ch 0x0C05 r →
      (if r.u 0 4 = 0xFFFFFFFF then s.dev.map.opened else some (r.u 0 4)) = some id → s.dev.session id = some b →
      (r.u 4 1 = 0 → s.dev.map.poolUsed (homeDie id) + b.length ≤ s.dev.map.poolSize (homeDie id) →
        Sets (.mapSession ch) s ch (fun t => t.dev.map.newest id =
          some (stamped (s.dev.map.gen + 1) (recSet (recSet b 26 (r.bytes 6 2)) 112 (r.bytes 8 16))))) ∧
      (r.u 4 1 = 1 → s.dev.map.opened = some id → Sets (.mapSession ch) s ch (fun t => t.dev.map.opened = none)) ∧
      (r.u 4 1 = 2 → s.dev.map.opened ≠ some id → Sets (.mapSession ch) s ch (fun t => t.dev.map.newest id = none))) ∧
    (s.holds ch 0x0C06 r → s.dev.mapIdle = true → s.dev.map.pins = [] → Sets (.mapClear ch) s ch (fun t =>
      t.dev.map.objs = [] ∧ t.dev.map.gen = 0 ∧ t.dev.map.nextId = 1 ∧ t.dev.map.opened = none ∧
      t.dev.loc.session = none)) ∧
    Completes .mapReclaim s (fun t => t.mem = s.mem ∧ t.dev.map.gen = s.dev.map.gen ∧
      t.dev.map.pins = s.dev.map.pins ∧ (∀ e ∈ t.dev.map.objs, deadEntry e.2 = false) ∧
      ((s.dev.map.objs.map (·.1)).Nodup → ∀ e ∈ s.dev.map.objs, ∀ v vs, e.2 = v :: vs → v.body.isSome = true →
        ∃ vs', (e.1, v :: vs') ∈ t.dev.map.objs))

/-! ## Place search -/

/-- Place search (R651, R654, R658, R662, R670, R673, R682 to R685, R691, R692): reports and settings; loads, updates, queries
and compactions admitted as jobs; a window takes at most 1,024 rounds; a query goes on to its next round or ends; a shard is
copied without its reclaimable entries. -/
def Obligations.PlaceSearchAnswers : Prop :=
  ∀ (s : State) (ch : Fin 8) (r : Request),
    (∀ x, s.holds ch 0x0D00 r → s.dev.index (r.u 0 1) = some x → Reports (.prsStatus ch) s ch r (fun p =>
      p.length = 104 ∧ fieldAt p 4 2 = x.codeBits % 2 ^ 16 ∧ fieldAt p 12 4 = x.epoch % 2 ^ 32)) ∧
    (∀ d, s.mayConfigure ch setPrsIndex r → r.u 1 1 = 0 → 64 ≤ r.u 2 2 → r.u 2 2 ≤ 1024 → r.u 2 2 % 64 = 0 →
      64 ≤ r.u 4 4 → r.u 4 4 ≤ 24576 →
      (if r.u 0 1 = 0 then s.dev.mapIdle = true ∧ s.dev.map.pins = [] else s.dev.index (r.u 0 1) = none) →
      s.dev.newIndex (r.u 0 1) (r.u 2 2) (r.u 4 4) = some d → Sets (.prsIndex ch) s ch (fun t =>
        ∃ x, t.dev.index (r.u 0 1) = some x ∧ x.codeBits = r.u 2 2 ∧ x.poolMib = r.u 4 4 ∧ x.nodes = [] ∧
          x.shards = [] ∧ x.epoch = 0)) ∧
    (∀ x, s.mayConfigure ch setPrsIndex r → r.u 1 1 ≠ 0 → r.u 0 1 ≠ 0 → s.dev.index (r.u 0 1) = some x →
      s.dev.pinsOn (r.u 0 1) = [] → s.dev.updatesOf (r.u 0 1) = 0 → Sets (.prsIndex ch) s ch (fun t =>
        t.dev.index (r.u 0 1) = none)) ∧
    (s.mayConfigure ch setPrsConfig r → Sets (.prsConfig ch) s ch (fun t =>
      t.dev.prs = { s.dev.prs with batchUs := r.u 0 2, compactPct := r.u 2 1 })) ∧
    (∀ x, s.holds ch 0x0D02 r → s.roomy → s.dev.index (r.u 0 1) = some x → x.shards = [] →
      s.dev.updatesOf (r.u 0 1) = 0 → (r.u 0 1 = 0 → s.dev.map.ofKind 2 = []) →
      s.dev.hostRange (r.u 4 4) (r.u 8 8) (r.u 16 8) = true →
      Admits (.prsTreeLoad ch) s ch (fun j => j.cls = .map ∧ j.work = .prsTree (r.u 0 1))) ∧
    (∀ x, s.holds ch 0x0D03 r → s.roomy → s.dev.index (r.u 0 1) = some x →
      s.dev.hostRange (r.u 8 4) (r.u 16 8) (r.u 4 4 * (8 + x.codeBits / 8)) = true →
      Admits (.prsUpdate ch) s ch (fun j => j.cls = .user ∧ j.work = .prsUpdate (r.u 0 1))) ∧
    (∀ x, s.holds ch 0x0D04 r → s.roomy → s.dev.index (r.u 0 1) = some x → r.u 6 2 ≤ r.u 8 2 → r.u 8 2 ≤ 4096 →
      s.dev.hostRange (r.u 16 4) (r.u 24 8) (r.u 12 4 * (8 + x.codeBits / 8)) = true →
      s.dev.hostRange (r.u 20 4) (r.u 32 8) (r.u 12 4 * (24 + 8 * r.u 4 2)) = true →
      (r.u 2 1 ≠ 0 → r.u 56 4 ≠ 0 ∧ r.u 44 4 + r.u 56 4 ≤ 0xFFFFFFFF ∧
        s.dev.hostRange (r.u 40 4) (r.u 48 8) ((r.u 56 4 + 7) / 8) = true) →
      Admits (.prsQuery ch) s ch (fun j => j.cls = .user ∧ j.work = .prsQuery (r.u 0 1))) ∧
    (s.holds ch 0x0D05 r → s.roomy → (s.dev.index (r.u 0 1)).isSome = true →
      Admits (.prsCompact ch) s ch (fun j => j.cls = .map ∧ j.work = .prsCompact (r.u 0 1))) ∧
    (∀ (die : Fin 8) at_, s.dev.engineTested die.val 3 = false → s.dev.prs.windows.look die.val = some at_ →
      Completes (.batchWindowClose die) s (fun t => t.mem = s.mem ∧
        t.dev.prs.rounds.look die.val =
          some (((s.dev.prs.rounds.getD die.val []).mergeSort s.dev.roundBefore).drop 1024) ∧
        ((s.dev.prs.rounds.getD die.val []).length ≤ 1024 → t.dev.prs.windows.look die.val = none))) ∧
    (∀ job n run x, s.dev.prs.runs.find? (fun q => q.job == job && q.n == n) = some run → run.done = false →
      run.round.isSome = true → run.waitOn &&& s.dev.pwr.dieOn = 0 → s.dev.index run.index = some x →
      (({ run with found := run.found + run.gotFound } : PrsRun).widens = true →
        Completes (.roundMerge job n) s (fun t => t.mem = s.mem ∧ ∃ q ∈ t.dev.prs.runs, q.job = job ∧ q.n = n ∧
          q.rounds = run.rounds + 1 ∧ q.found = run.found + run.gotFound ∧ q.waitOn = s.dev.pwr.dieOn)) ∧
      (({ run with found := run.found + run.gotFound } : PrsRun).widens = false →
        (∀ i, (s.dev.job job).map (·.work) ≠ some (.prsQuery i)) →
        Completes (.roundMerge job n) s (fun t => t.mem = s.mem ∧ ∃ q ∈ t.dev.prs.runs, q.job = job ∧ q.n = n ∧
          q.done = true ∧ q.found = run.found + run.gotFound ∧ q.cands = mergeKeys run.k run.cands run.got))) ∧
    (∀ (die : Fin 8) index leaf x, s.dev.index index = some x → s.dev.prs.windows.look die.val = none →
      s.dev.domainOn die.val 10 = true → (∃ c ∈ s.dev.prs.compacts, c.2 = (die.val, index, leaf)) →
      (∃ e ∈ x.shard leaf die.val, e.reclaimable (s.dev.minPin index) = true) →
      x.blocks ((x.shard leaf die.val).filter fun e => !e.reclaimable (s.dev.minPin index)).length ≤
        x.freeBlocks die.val →
      Completes (.shardCompaction die index leaf) s (fun t => t.mem = s.mem ∧
        (t.dev.index index).map (·.shard leaf die.val) =
          some ((x.shard leaf die.val).filter fun e => !e.reclaimable (s.dev.minPin index))))

/-! ## Outputs -/

/-- The transmit ports (R694 to R698, R701, R704, R711): ports and routes set and reported; a bulk message and event records
given; the next part goes on the wire, and one that has left is counted; event and diagnostic messages formed. -/
def Obligations.OutputsSend : Prop :=
  ∀ (s : State) (ch : Fin 8) (r : Request) (port : Fin 2),
    (s.mayConfigure ch setOutPort r → s.dev.pwr.dieOn.getLsbD (r.u 0 1) = true →
      (r.u 1 1 = 0 → Sets (.outPort ch) s ch (fun t => (t.dev.tx (r.u 0 1)).enabled = false ∧
        (t.dev.tx (r.u 0 1)).queue = [])) ∧
      (r.u 1 1 ≠ 0 → [1, 2, 4].elem (r.u 2 1) = true → r.u 3 1 ≤ 1 → 80 ≤ r.u 4 2 → r.u 4 2 ≤ 4500 → 256 ≤ r.u 6 2 →
        r.u 6 2 ≤ 8192 → r.u 6 2 % 64 = 0 → 4096 ≤ r.u 8 4 → r.u 8 4 ≤ 4194304 → r.u 8 4 % 64 = 0 →
        partFits (partLines (r.u 6 2) (r.u 8 4)) (r.u 6 2) (r.u 2 1) (r.u 4 2) = true →
        (∀ q ∈ (s.dev.tx (r.u 0 1)).startedParts, partFits q.1 q.2 (r.u 2 1) (r.u 4 2) = true) →
        Sets (.outPort ch) s ch (fun t => t.dev.tx (r.u 0 1) = { s.dev.tx (r.u 0 1) with
          enabled := true, lanes := r.u 2 1, clock := r.u 3 1, rate := r.u 4 2, lineBytes := r.u 6 2
          partBytes := r.u 8 4 }))) ∧
    (s.mayConfigure ch setOutRoute r → (r.u 0 1 ≠ 0x32 → r.u 4 1 = 0) → (r.u 0 1 ≠ 0x34 → r.u 6 2 = 0) →
      (r.u 6 2 = 0 ∨ 100 ≤ r.u 6 2 ∧ r.u 6 2 ≤ 60000) →
      (r.u 2 1 = 0 → Sets (.outRoute ch) s ch (fun t => (t.dev.route_ (r.u 0 1) (r.u 1 1)).on = false)) ∧
      (r.u 2 1 ≠ 0 → s.dev.routeTight (r.u 0 1) (r.u 1 1) (r.u 4 1) = false → Sets (.outRoute ch) s ch (fun t =>
        (t.dev.route_ (r.u 0 1) (r.u 1 1)).on = true ∧ (t.dev.route_ (r.u 0 1) (r.u 1 1)).vc = r.u 3 1 ∧
        (t.dev.route_ (r.u 0 1) (r.u 1 1)).pairs = r.u 4 1 ∧ (t.dev.route_ (r.u 0 1) (r.u 1 1)).period = r.u 6 2))) ∧
    (s.holds ch 0x0E02 r → Reports (.outStatus ch) s ch r (fun p => p.length = 96 ∧
      fieldAt p 4 8 = (s.dev.tx (r.u 0 1)).bytes % 2 ^ 64)) ∧
    (∀ b, s.holds ch 0x0E03 r → isHostBuf (r.u 4 4) = true → s.dev.bufReady (r.u 4 4) = true →
      s.dev.buf (r.u 4 4) = some b → r.u 8 8 + r.u 16 8 ≤ b.size → r.u 16 8 ≠ 0 →
      (s.dev.tx (r.u 0 1)).enabled = true → s.dev.txUp (r.u 0 1) = true → s.dev.mbx.handles.length < 256 →
      Accepts (.outBulk ch) s ch (fun h t => t.mem = s.mem ∧ ∃ m ∈ (t.dev.tx (r.u 0 1)).queue, m.dt = 0x36 ∧
        m.vc = r.u 1 1 ∧ m.segs = [(r.u 4 4, r.u 8 8, r.u 16 8)] ∧ m.handle = some h)) ∧
    (s.holds ch 0x0E04 r → Reports (.eventGet ch) s ch r (fun p =>
      fieldAt p 4 2 = ((s.dev.evt.events.filter fun e => r.u 0 4 ≤ e.seq).take (r.u 4 2)).length % 2 ^ 16 ∧
      p.drop 12 = ((s.dev.evt.events.filter fun e => r.u 0 4 ≤ e.seq).take (r.u 4 2)).flatMap (·.bytes))) ∧
    (∀ y x bs, (s.dev.tx port.val).wire = none → (s.dev.tx port.val).enabled = true → s.dev.txUp port.val = true →
      (s.dev.tx port.val).pick = some y → y.cancel = false →
      x = (if y.started = true then y else { y with
        lineBytes := (s.dev.tx port.val).lineBytes, partBytes := (s.dev.tx port.val).partBytes
        dropped := (s.dev.tx port.val).marks.elem y.dt }) → x.payload s.dev s.mem = .ok bs →
      Completes (.txPartSend port) s (fun t => t.mem = s.mem ∧ ∃ w, (t.dev.tx port.val).wire = some w ∧ w.dt = y.dt ∧
        w.last = (x.part + 1 == x.parts) ∧ w.startAt = s.dev.time.now ∧
        (t.dev.tx port.val).frame = fit (w.lines * w.lineBytes) (x.header bs ++ bs))) ∧
    (∀ w, (s.dev.tx port.val).wire = some w → (s.dev.tx port.val).queue = [] →
      Completes (.txPartSend port) s (fun t => t.mem = s.mem ∧ (t.dev.tx port.val).wire = none ∧
        (t.dev.tx port.val).bytes = ((s.dev.tx port.val).bytes + w.lines * w.lineBytes) % 2 ^ 64)) ∧
    ((s.dev.route_ 0x34 port.val).on = true → (∃ e ∈ s.dev.evt.events, (s.dev.route_ 0x34 port.val).cursor ≤ e.seq) →
      Completes (.eventMsgForm port) s (fun t => t.mem = s.mem ∧
        (t.dev.route_ 0x34 port.val).cursor = t.dev.evt.evSeq)) ∧
    ((s.dev.route_ 0x34 port.val).on = true → (s.dev.route_ 0x34 port.val).period ≠ 0 →
      (s.dev.route_ 0x34 port.val).diagAt ≤ s.dev.time.ns16 + (s.dev.route_ 0x34 port.val).period * oneMs →
      Completes (.diagMsgForm port) s (fun t => t.mem = s.mem ∧
        (t.dev.route_ 0x34 port.val).diagAt =
          (s.dev.route_ 0x34 port.val).diagAt + (s.dev.route_ 0x34 port.val).period * oneMs ∧
        (t.dev.route_ 0x34 port.val).seq = ((s.dev.route_ 0x34 port.val).seq + 1) % 2 ^ 32))

/-- CAN FD guidance (R705 to R711): set and reported; a path stored or turned away with its error; an instant hands a frame to
the controller, and a frame that is sent is counted with the next counter value. -/
def Obligations.GuidanceFollowsItsPath : Prop :=
  ∀ (s : State) (ch : Fin 8) (r : Request),
    (s.mayConfigure ch setGuideConfig r →
      (r.u 1 1 % 2 = 0 → Sets (.guideConfig ch) s ch (fun t => t.dev.out.guide.enable = false ∧
        t.dev.out.guide.state = 0 ∧ t.dev.out.guide.waiting = none)) ∧
      (r.u 1 1 % 2 = 1 → [10, 20, 25, 40, 50, 100, 125, 200].elem (r.u 2 1) = true → r.u 0 1 ≤ 1 → 100 ≤ r.u 12 2 →
        r.u 12 2 ≤ 10000 → 8 ≤ r.u 16 2 → r.u 16 2 ≤ 1024 →
        r.u 4 4 < (if bit (r.u 1 1) 1 = true then 2 ^ 29 else 2 ^ 11) → s.dev.pwr.dieOn.getLsbD 0 = true →
        ((s.dev.ing.can.getD (r.u 0 1) CanCtrl.reset).enable = true →
          (s.dev.ing.can.getD (r.u 0 1) CanCtrl.reset).fd = true) →
        Sets (.guideConfig ch) s ch (fun t => t.dev.out.guide = { s.dev.out.guide with
          enable := true, ext := bit (r.u 1 1) 1, allowDegraded := bit (r.u 1 1) 2, ctrl := r.u 0 1, rate := r.u 2 1
          minConf := r.u 3 1, canId := r.u 4 4, cpX := r.i 8 2, cpY := r.i 10 2, lookahead := r.u 12 2
          maxXte := r.u 14 2, window := r.u 16 2, maxExtrap := r.u 18 1
          nextAt := s.dev.nextMultiple (1000 / r.u 2 1) }))) ∧
    (∀ b, s.holds ch 0x0E11 r → s.dev.out.guide.active ≠ some (r.u 0 1) →
      s.dev.out.guide.select ≠ some (some (r.u 0 1)) → isHostBuf (r.u 4 4) = true → s.dev.bufReady (r.u 4 4) = true →
      r.u 8 8 + 64 ≤ (s.dev.buf (r.u 4 4)).elim 0 (·.size) → s.dev.mbx.handles.length < 256 →
      s.dev.bufRead s.mem (r.u 4 4) (r.u 8 8) (min (64 + 24 * pathPts (fwRead s.dev s.mem (r.u 4 4) (r.u 8 8) 64))
        ((s.dev.buf (r.u 4 4)).elim 0 (·.size) - r.u 8 8)) = .ok b →
      Accepts (.guidePath ch) s ch (fun h t => t.mem = s.mem ∧
        match pathCheck b ((s.dev.buf (r.u 4 4)).elim 0 (·.size) - r.u 8 8) with
        | some _ => t.dev.ended h = some 0x13 ∧ t.dev.out = s.dev.out
        | none => t.dev.ended h = some 0 ∧ t.dev.out.guide.stores.look (r.u 0 1) = some b)) ∧
    (s.mayConfigure ch setGuideSelect r → (r.u 0 1 ≠ 0xFF → (s.dev.out.guide.stores.look (r.u 0 1)).isSome = true) →
      Sets (.guideSelect ch) s ch (fun t => t.dev.out.guide = { s.dev.out.guide with
        select := some (if r.u 0 1 = 0xFF then none else some (r.u 0 1)) })) ∧
    (s.holds ch 0x0E13 r → Reports (.guideStatus ch) s ch r (fun p => p.drop 24 = s.dev.out.guide.last ∧
      fieldAt p 0 1 = s.dev.out.guide.state % 256 ∧ fieldAt p 12 4 = s.dev.out.guide.sent % 2 ^ 32)) ∧
    (∀ rec_, s.dev.out.guide.enable = true → s.dev.out.guide.rate ≠ 0 →
      s.dev.out.guide.nextAt ≤ s.dev.time.ns16 + 1000 / s.dev.out.guide.rate * oneMs →
      s.dev.guideRecord s.dev.out.guide.nextAt = some rec_ → Completes .guideInstant s (fun t => t.mem = s.mem ∧
        t.dev.out.guide.nextAt = s.dev.out.guide.nextAt + 1000 / s.dev.out.guide.rate * oneMs ∧
        t.dev.out.guide.select = none ∧ t.dev.out.guide.last.length = 24 ∧
        (s.dev.canSends s.dev.out.guide.ctrl = true → t.dev.out.guide.waiting = some t.dev.out.guide.last))) ∧
    (∀ f, s.dev.out.guide.waiting = some f → Completes .guidanceFrameTx s (fun t => t.mem = s.mem ∧
      t.dev.out.guide.waiting = none ∧
      if s.dev.canSends s.dev.out.guide.ctrl = true then
        t.dev.out.guide.sent = min 0xFFFFFFFF (s.dev.out.guide.sent + 1) ∧
        t.dev.out.guide.counter = (s.dev.out.guide.counter + 1) % 16
      else t.dev.out.guide.notSent = min 0xFFFFFFFF (s.dev.out.guide.notSent + 1)))

/-! ## Self-test -/

/-- A run has moved past its present slice, which ended with `outcome`: the result is the last of the run's, or the run is
over. -/
def StRun.passed (h : Nat) (r : StRun) (outcome : Nat) (t : State) : Prop :=
  if r.results.length + 1 < r.slices.length ∧ r.cancel = false then
    ∃ q n, t.dev.st.runs.look h = some q ∧ q.results = r.results ++ [⟨outcome, r.attempts, n⟩] ∧ q.testing = false
  else t.dev.st.runs.look h = none

/-- Self-test runs (R772 to R776, R780, R781, R784 to R790, R795) and field repair (R793, R794): a run is listed with its
slices; a slice starts, and ends as OFF, BUSY, a timeout, a void window or with its outcome; a record is blown. -/
def Obligations.SelfTestRuns : Prop :=
  ∀ (s : State) (ch : Fin 8) (r : Request),
    (∀ xs save d, s.holds ch 0x0F00 r →
      xs = stSlices (r.u 0 1) (r.u 3 1) (BitVec.ofNat 8 (r.u 4 1)) (r.u 10 2) (r.u 12 2) (r.u 16 8) →
      stRunOk r s.dev xs = true → s.dev.boot.ready = true → xs.any (s.dev.stReserved (r.u 0 1)) = false →
      s.dev.st.runs.length < 2 → stSaves (r.u 0 1) xs (List.range 8) s.dev [] = some (save, d) →
      s.dev.mbx.handles.length < 256 → Accepts (.stRun ch) s ch (fun h t => t.mem = s.mem ∧
        if xs = [] then t.dev.ended h = some 0
        else ∃ q, t.dev.st.runs.look h = some q ∧ q.slices = xs ∧ q.results = [] ∧ q.save = save ∧ q.testing = false)) ∧
    (∀ x, s.holds ch 0x0F01 r → s.dev.st.runs.look (r.u 0 4) = some x → Reports (.stProgress ch) s ch r (fun p =>
      p.length = 16 ∧ fieldAt p 0 2 = x.slices.length % 2 ^ 16 ∧ fieldAt p 2 2 = x.results.length % 2 ^ 16 ∧
      fieldAt p 9 1 = if x.testing = true then 2 else 0)) ∧
    (∀ h x y job j z, s.dev.st.runs.look h = some x → x.testing = false → x.current = some y →
      s.dev.stUp x.kind y = true → x.job = some job → s.dev.job job = some j → j.state = .waiting →
      s.dev.stClockOk x.kind x.clkMin y = true → (x.voids = 0 ∨ x.heldFrom + oneMs ≤ s.dev.time.now) →
      s.dev.boot.soft.length + 16 ≤ 256 → s.dev.stFree x.kind job y = true →
      s.dev.stMoment x.kind (stBudget x.kind x.mode y.target (s.dev.stClock x.kind y)) y = true →
      s.dev.stSave x y = some z → Completes (.stSliceStart h) s (fun t =>
        ∃ q, t.dev.st.runs.look h = some q ∧ q.testing = true ∧ q.attempts = x.attempts + 1 ∧ q.results = x.results)) ∧
    (∀ h x y, s.dev.st.runs.look h = some x → x.testing = false → x.current = some y → s.dev.stUp x.kind y = false →
      Completes (.stSliceStart h) s (fun t => t.mem = s.mem ∧ StRun.passed h x 8 t)) ∧
    (∀ h x y, s.dev.st.runs.look h = some x → x.testing = false → x.current = some y → x.attempts = 0 →
      Completes (.stSliceBusy h) s (fun t => t.mem = s.mem ∧ x.dueAt + x.waitMs * oneMs ≤ t.dev.time.now ∧
        StRun.passed h x 5 t)) ∧
    (∀ h x y job out, s.dev.stTesting h = some (x, y, job) →
      (x.kind = 0 → s.dev.stClock 0 y = x.clock ∧ s.dev.stClockOk 0 x.clkMin y = true) →
      Completes (.stSliceEnd h out) s (fun t => (∃ outcome, StRun.passed h x outcome t) ∧
        ((if x.kind = 0 then out.finds.filter y.canFind = [] else out.sigExp % 2 ^ 64 = out.sigObs % 2 ^ 64) →
          StRun.passed h x 0 t))) ∧
    (∀ h x y job, s.dev.stTesting h = some (x, y, job) → Completes (.stSliceTimeout h) s (fun t => StRun.passed h x 6 t)) ∧
    (∀ h x y job, s.dev.stTesting h = some (x, y, job) → x.kind = 0 → Completes (.stWindowVoid h) s (fun t =>
      if x.voids < 2 then
        ∃ q, t.dev.st.runs.look h = some q ∧ q.testing = false ∧ q.voids = x.voids + 1 ∧ q.results = x.results
      else StRun.passed h x 4 t)) ∧
    (s.holds ch 0x0F02 r → s.dev.hot = false → s.dev.st.fusing = none → s.dev.mbx.handles.length < 256 →
      (s.dev.fuse.fieldRecords (r.u 0 1)).length + r.u 1 1 ≤ 32 → Accepts (.stFuse ch) s ch (fun h t => t.mem = s.mem ∧
        t.dev.fuse = s.dev.fuse ∧
        if ((List.range (r.u 1 1)).any fun i => (s.dev.fusable (r.u 0 1) (r.u (8 + i) 1)).isSome) = true then
          ∃ f, t.dev.st.fusing = some f ∧ f.handle = h ∧ f.die = r.u 0 1
        else t.dev.st.fusing = none ∧ t.dev.ended h = some 0)) ∧
    (s.holds ch 0x0F03 r → Reports (.stFuseStatus ch) s ch r (fun p => p.length = 32 ∧
      fieldAt p 2 1 = (32 - (s.dev.fuse.fieldRecords 0).length) % 256)) ∧
    (∀ ok f w rest, s.dev.st.fusing = some f → f.left = some w :: rest → Completes (.fuseRecordBlow ok) s (fun t =>
      t.mem = s.mem ∧ t.dev.fuse.fieldRecords f.die = s.dev.fuse.fieldRecords f.die ++ [⟨w, .good, ok⟩] ∧
      (∀ k, k ≠ f.die → t.dev.fuse.fieldRecords k = s.dev.fuse.fieldRecords k)))

/-! ## Firmware trust, identity and debug -/

/-- The security commands (R796, R797, R804 to R806, R808, R810, R813 to R818): reports; operations that take their place at
the crypto block; a fresh challenge, which
a package reset and every unlock attempt clear (R816); what the block leaves when it is done; the debug port's IDCODE and a read
of memory under its scope. -/
def Obligations.SecurityCommandsAct : Prop :=
  ∀ (s : State) (ch : Fin 8) (r : Request),
    (s.holds ch 0x1000 r → Reports (.secStatus ch) s ch r (fun p => fieldAt p 0 4 = s.dev.secState % 2 ^ 32 ∧
      fieldAt p 4 1 = s.dev.sec.secVer % 256 ∧ fieldAt p 8 4 = s.dev.sec.imgVer % 2 ^ 32 ∧
      p.drop 12 = s.dev.sec.fwDigest ++ s.dev.sec.cfgDigest ++ s.dev.sec.defectDigest)) ∧
    (s.holds ch 0x1001 r → Reports (.idInfo ch) s ch r (fun p => p = leBytes 8 s.dev.fuse.serial.toNat ++
      s.dev.fuse.idRsaN ++ rsaE ++ s.dev.fuse.idSlhPk ++ sha384 (s.dev.fuse.idRsaN ++ rsaE) ++
      sha384 s.dev.fuse.idSlhPk)) ∧
    (s.holds ch 0x1002 r → s.dev.boot.ready = true → (s.dev.sec.ops.filter (·.isAttest)).length < 4 →
      s.dev.mbx.handles.length < 256 → Accepts (.attest ch) s ch (fun h t => t.mem = s.mem ∧
        t.dev.sec = { s.dev.sec with
          ops := s.dev.sec.ops ++ [.attest h (s.dev.reportHead r.body)], reportSeq := s.dev.sec.reportSeq + 1 })) ∧
    (∀ b, s.holds ch 0x1003 r → s.dev.boot.ready = true → s.dev.hostRange (r.u 0 4) (r.u 8 8) 12 = true →
      s.dev.trustBusy = false → s.dev.buf (r.u 0 4) = some b → b.lost = false → s.dev.bufHeld (r.u 0 4) b = false →
      s.dev.mbx.handles.length < 256 → Accepts (.fwUpdate ch) s ch (fun h t => t.mem = s.mem ∧
        t.dev.sec.ops = s.dev.sec.ops ++ [.update h (r.u 0 4) (r.u 8 8) (r.u 16 2)])) ∧
    (s.holds ch 0x1004 r → s.dev.trustBusy = false → s.dev.hot = false → s.dev.mbx.handles.length < 256 →
      Accepts (.secRollback ch) s ch (fun h t => t.mem = s.mem ∧ t.dev.sec.ops = s.dev.sec.ops ++ [.rollback h])) ∧
    (s.holds ch 0x1005 r → s.dev.boot.ready = true → s.dev.recordIn (r.u 0 4) (r.u 8 8) 16672 = true →
      s.dev.trustBusy = false → s.dev.hot = false → s.dev.mbx.handles.length < 256 →
      Accepts (.secRevoke ch) s ch (fun h t => t.mem = s.mem ∧
        t.dev.sec.ops = s.dev.sec.ops ++ [.revoke h (r.u 0 4) (r.u 8 8)])) ∧
    (s.holds ch 0x1006 r → s.dev.sec.health = false → ∃ c, exec (.debugChallenge ch) s = .next (s.answered ch r
      { s.dev.tickFree with sec := { s.dev.sec with challenge := some c } } (okWith c)) ∧ c.length = 32) ∧
    (s.holds ch 0x1007 r → s.dev.boot.ready = true → s.dev.recordIn (r.u 0 4) (r.u 8 8) 17120 = true →
      s.dev.trustBusy = false → s.dev.mbx.handles.length < 256 → Accepts (.debugUnlock ch) s ch (fun h t =>
        t.mem = s.mem ∧ t.dev.sec.ops = s.dev.sec.ops ++ [.unlock h (r.u 0 4) (r.u 8 8)])) ∧
    (∀ fail o os, s.dev.sec.ops = o :: os → Completes (.cryptoOpDone fail) s (fun t => t.dev.sec.ops = os ∧
      (∀ h buf off, o = .unlock h buf off → t.dev.sec.challenge = none))) ∧
    s.packageReset.dev.sec.challenge = none ∧
    (∀ fail h head os x, s.dev.sec.ops = .attest h head :: os → s.dev.mbx.handles.look h = some x → x.final = none →
      Completes (.cryptoOpDone fail) s (fun t => t.mem = s.mem ∧
        t.dev.ended h = some (if x.cancel = true then 0x31 else if s.dev.sec.health = true then 0x30 else 0))) ∧
    (∀ h os x, s.dev.sec.ops = .rollback h :: os → s.dev.mbx.handles.look h = some x → x.final = none →
      x.cancel = false → Completes (.cryptoOpDone none) s (fun t => t.mem = s.mem ∧ t.dev.ended h = some 0 ∧
        ∀ i, s.dev.fuse.rollbackCount ≤ i → i < s.dev.sec.secVer → t.dev.fuse.rollback.look i = some 7)) ∧
    exec .healthTestFailure s = .next (s.withDev { s.dev with sec := { s.dev.sec with health := true } }) ∧
    exec (.debugTapInstruction .idcode) s =
      .next (s.withDev { s.dev with sec := { s.dev.sec with tapOut := [0x3D#8, 0x1A#8, 0x60#8, 0x08#8] } }) ∧
    (∀ pa n, s.dev.scopes.getLsbD 1 = true → s.dev.accessError pa n false = none →
      exec (.debugTapInstruction (.memRead pa n)) s =
        .next (s.withDev { s.dev with sec := { s.dev.sec with tapOut := s.mem.lp.readAll 0#8 pa n } }))

/-! ## What each command leaves alone -/

/-- Resets, the bus, registers, bring-up and the mailbox's own commands (R85, R96, R110, R136 to R158): what each may change of
the parts of the machine, everything else being as it was; no reset and no register write changes fuses or flash. -/
def Obligations.BusAndBootLeaveTheRest : Prop :=
  (∀ c ∈ ([.powerOnReset, .packageResetAssert, .supplyUndervoltage, .targetResetPattern] : List Instr), Leaves c
      [.fuse, .flash]) ∧
  (∀ addr, Leaves (.i3cAddressWrite addr) [.fuse, .flash]) ∧
  (∀ m, Leaves (.i3cMalformedTransfer m) [.fuse, .flash]) ∧
  (∀ addr words, Leaves (.registerWrite addr words) [.fuse, .flash]) ∧
  (∀ offset words, Leaves (.bootFwwinWrite offset words) [.fuse, .flash]) ∧
  (∀ key, Leaves (.bootReset key) [.fuse, .flash]) ∧
  Keeps .packageResetRelease [.pkg, .i3c] ∧
  Keeps .hotJoinRequest [.i3c, .diag, .time] ∧
  (∀ c ∈ ([.enec, .disec, .rstdaa, .getmwl, .getmrl, .getpid, .getbcr, .getdcr, .getstatus, .getcaps, .enthdr0,
      .hdrExit] : List Instr), Keeps c [.i3c]) ∧
  (∀ addr, Keeps (.entdaa addr) [.i3c]) ∧
  (∀ addr, Keeps (.setdasa addr) [.i3c]) ∧
  (∀ addr, Keeps (.setnewda addr) [.i3c]) ∧
  (∀ len, Keeps (.setmwl len) [.i3c]) ∧
  (∀ len, Keeps (.setmrl len) [.i3c]) ∧
  (∀ action, Keeps (.rstact action) [.i3c]) ∧
  (∀ code, Keeps (.unsupportedCcc code) [.evt]) ∧
  (∀ mode, Keeps (.enthdrUnsupported mode) [.i3c, .evt]) ∧
  (∀ acked, Keeps (.ibiSend acked) [.i3c, .evt]) ∧
  (∀ value, Keeps (.evtVlogIdxWrite value) [.i3c, .evt]) ∧
  (∀ value, Keeps (.evtFlogIdxWrite value) [.i3c, .evt]) ∧
  (∀ words, Keeps (.rcRegisterRead words) [.i3c, .evt, .diag, .time]) ∧
  (∀ words, Keeps (.readOutsideWindow words) [.i3c, .evt, .diag, .time]) ∧
  (∀ c ∈ ([.ident, .fuseLoad, .train, .fwLoad, .fwVerify, .ready] : List Instr), Keeps c [.boot, .view, .i3c, .evt,
      .pwr, .sec, .lp]) ∧
  (∀ finds, Keeps (.sweep finds) [.boot, .view, .i3c, .evt, .pwr, .sec, .lp]) ∧
  (∀ outcome, Keeps (.clocks outcome) [.boot, .view, .i3c, .evt, .pwr, .sec, .lp]) ∧
  (∀ reported, Keeps (.fwStart reported) [.boot, .view, .i3c, .evt, .pwr, .sec, .lp]) ∧
  (∀ engines units, Keeps (.kat engines units) [.boot, .view, .i3c, .evt, .pwr, .sec, .lp]) ∧
  (∀ item status density, Keeps (.trainItemEnd item status density) [.boot, .view, .memsys, .lp]) ∧
  (∀ c ∈ ([.loadIdle, .stepTimeout] : List Instr), Keeps c [.boot, .evt, .diag, .time]) ∧
  Leaves .bootStepEnd [.fuse, .pkg, .view, .i3c, .pwr, .units, .clusters, .sfe, .st, .lp, .sram, .flash] ∧
  (∀ value, Keeps (.evtRingRdWrite value) [.i3c, .evt, .mbx, .jobs]) ∧
  (∀ c ∈ ([.latch, .onPps] : List Instr), Keeps c [.i3c, .evt, .time]) ∧
  (∀ ch, Keeps (.flush ch) [.i3c, .evt, .mbx]) ∧
  (∀ ch value, Keeps (.mbxDoorbell ch value) [.i3c, .evt, .mbx]) ∧
  (∀ ch, Keeps (.mbxResponseFormed ch) [.evt, .mbx]) ∧
  Keeps .diagLatch [.evt, .mbx] ∧
  (∀ ch, ∀ c ∈ ([.nop ch, .handleQuery ch, .resultGet ch, .handleList ch, .diagCollect ch] : List Instr), Keeps c
      [.evt, .mbx, .sec]) ∧
  (∀ ch, Leaves (.handleCancel ch) [.fuse, .pkg, .boot, .view, .i3c, .time, .tim, .pwr, .ing, .free, .sram, .flash])

/-- Time, triggers, PTP, ingest and the sensing front ends: what each command and event may change of the parts of the machine,
everything else being as it was; a setting of an object outside the profile changes its own part alone. -/
def Obligations.TimeAndSensorsLeaveTheRest : Prop :=
  (∀ ch, ∀ c ∈ ([.timeStatus ch, .compGet ch, .ptpPortStatus ch, .streamStatus ch, .ethStatus ch, .sfeStatus ch,
      .sfeCoefGet ch] : List Instr), Keeps c [.evt, .mbx, .sec]) ∧
  KeepsSet .timeConfig setTimeConfig [.time, .tim] ∧
  KeepsSet .ptpPort setPtpPort [.time, .tim] ∧
  KeepsSet .ppsConfig setPpsConfig [.time, .tim] ∧
  (∀ ch, Keeps (.timeSet ch) [.evt, .mbx, .time, .sec]) ∧
  KeepsSet .compSet setCompSet [.tim] ∧
  KeepsSet .trigGroup setTrigGroup [.tim] ∧
  KeepsSet .trigOut setTrigOut [.tim] ∧
  (∀ group, Keeps (.triggerEdge group) [.evt, .mbx, .diag, .time, .tim, .jobs, .units, .clusters, .memsys, .vis,
      .grid, .slv, .loc, .map, .prs]) ∧
  (∀ c ∈ ([.ppsOutRise, .ppsOutFall] : List Instr), Keeps c [.diag, .time, .tim]) ∧
  (∀ output, Keeps (.pulseEnd output) [.diag, .time, .tim]) ∧
  (∀ port messageType at_, Keeps (.ptpMessageTx port messageType at_) [.diag, .time, .tim]) ∧
  (∀ port, Keeps (.residenceEntryExpiry port) [.diag, .time, .tim]) ∧
  (∀ at_, Keeps (.ppsInEdge at_) [.evt, .diag, .time, .tim, .free]) ∧
  (∀ port msg at_, Keeps (.ptpMessageRx port msg at_) [.evt, .diag, .time, .tim, .free]) ∧
  (∀ c ∈ ([.ppsQualified, .servoLock] : List Instr), Keeps c [.evt, .time, .tim]) ∧
  (∀ c ∈ ([.ppsLost, .ptpMasterLost] : List Instr), Keeps c [.evt, .diag, .time, .tim]) ∧
  Keeps .servoUnlock [.evt, .time] ∧
  Keeps .holdMaxExpiry [.evt, .diag, .time] ∧
  (∀ at_, Keeps (.holdoverClassChange at_) [.evt, .diag, .time]) ∧
  (∀ port msg rx tx, Keeps (.ptpEventForward port msg rx tx) [.evt, .tim]) ∧
  Leaves .timeStepApply [.fuse, .pkg, .boot, .view, .i3c, .mbx, .pwr, .map, .out, .st, .sec, .free, .sram, .flash] ∧
  (∀ die offset, Keeps (.tbSlaveFault die offset) [.evt, .diag, .tim, .pwr]) ∧
  KeepsSet .streamConfig setStreamConfig [.memsys, .ing, .vis, .grid] ∧
  KeepsSet .csiPort setCsiPort [.memsys, .ing, .vis, .grid] ∧
  KeepsSet .imuPort setImuPort [.memsys, .ing, .grid] ∧
  KeepsSet .encConfig setEncConfig [.memsys, .ing, .grid] ∧
  KeepsSet .pairConfig setPairConfig [.ing] ∧
  KeepsSet .ethPort setEthPort [.ing] ∧
  KeepsSet .lidarStream setLidarStream [.ing] ∧
  KeepsSet .canController setCanController [.ing] ∧
  KeepsSet .canFilter setCanFilter [.ing] ∧
  (∀ ch, Keeps (.bulkOpen ch) [.evt, .mbx, .memsys, .ing, .sec]) ∧
  (∀ port vc frameNum ecc at_, Keeps (.csiFrameStart port vc frameNum ecc at_) [.evt, .diag, .time, .memsys, .ing,
      .lp]) ∧
  (∀ port vc ecc at_, Keeps (.csiFrameEnd port vc ecc at_) [.evt, .diag, .time, .memsys, .ing, .lp]) ∧
  (∀ port, Keeps (.frameTimeout port) [.evt, .diag, .time, .memsys, .ing, .lp]) ∧
  (∀ stream, Keeps (.sweepClose stream) [.evt, .diag, .time, .memsys, .ing, .lp]) ∧
  (∀ ctrl fd extended remote id data at_, Keeps (.canFrameRx ctrl fd extended remote id data at_) [.evt, .diag,
      .time, .memsys, .ing, .lp]) ∧
  (∀ port vc dt ecc crcOk pixels words, Keeps (.csiLinePacket port vc dt ecc crcOk pixels words) [.evt, .memsys,
      .ing, .lp]) ∧
  (∀ port vc ecc bytes, Keeps (.csiEmbeddedData port vc ecc bytes) [.evt, .ing]) ∧
  (∀ pair, Keeps (.pairLost pair) [.evt, .ing]) ∧
  (∀ pair, Keeps (.pairRecover pair) [.evt, .ing]) ∧
  (∀ ctrl busOff tec rec, Keeps (.canErrorState ctrl busOff tec rec) [.evt, .ing]) ∧
  (∀ stream, Keeps (.streamRecover stream) [.evt, .ing]) ∧
  (∀ port vc dt ecc bytes, Keeps (.csiBulkPacket port vc dt ecc bytes) [.evt, .mbx, .memsys, .ing, .lp]) ∧
  (∀ port frame fcsOk at_, Keeps (.ethFrameRx port frame fcsOk at_) [.evt, .mbx, .diag, .time, .memsys, .ing, .lp])
      ∧
  (∀ port, Keeps (.ethFrameTx port) [.ing]) ∧
  (∀ ctrl, Keeps (.busOffRecoveryDone ctrl) [.ing]) ∧
  (∀ port at_, Keeps (.imuDataReady port at_) [.evt, .diag, .time, .ing]) ∧
  (∀ enc a b at_, Keeps (.encoderEdge enc a b at_) [.evt, .diag, .time, .ing]) ∧
  (∀ enc at_, Keeps (.encoderIndex enc at_) [.evt, .diag, .time, .ing]) ∧
  (∀ stream, Keeps (.streamDropout stream) [.evt, .diag, .time, .ing]) ∧
  (∀ port bytes, Keeps (.imuTransactionDone port bytes) [.evt, .memsys, .ing, .slv, .loc, .lp]) ∧
  (∀ enc, Keeps (.encoderSample enc) [.diag, .time, .memsys, .ing, .lp]) ∧
  KeepsSet .sfeChannel setSfeChannel [.memsys, .sfe] ∧
  KeepsSet .sfeAuxScan setSfeAuxScan [.sfe] ∧
  KeepsSet .sfeExc setSfeExc [.sfe] ∧
  KeepsSet .sfeDetect setSfeDetect [.sfe] ∧
  KeepsSet .sfeCal setSfeCal [.sfe] ∧
  (∀ stream, Keeps (.sfeChannelStart stream) [.diag, .time, .sfe]) ∧
  (∀ stream raw raw2, Keeps (.sfeOutputSample stream raw raw2) [.diag, .time, .memsys, .sfe, .free, .lp]) ∧
  (∀ stream raw raw2, Keeps (.sfeDetectorWindow stream raw raw2) [.diag, .time, .memsys, .sfe, .lp]) ∧
  (∀ die raw, Keeps (.sfeAuxScanStart die raw) [.diag, .time, .memsys, .sfe, .lp]) ∧
  (∀ die m0 m1 full, Keeps (.sfeCalDone die m0 m1 full) [.evt, .mbx, .diag, .time, .sfe]) ∧
  (∀ stream, Keeps (.iepeBiasFault stream) [.evt, .diag, .sfe]) ∧
  (∀ stream, Keeps (.resolverLos stream) [.evt, .diag, .sfe]) ∧
  (∀ stream, Keeps (.sfeFaultRecover stream) [.evt, .sfe]) ∧
  (∀ die, Keeps (.excOvercurrent die) [.evt, .sfe]) ∧
  (∀ stream, Keeps (.sfeInputClamp stream) [.evt, .sfe]) ∧
  (∀ stream, Keeps (.phaseAutoUpdate stream) [.sfe, .free])

/-- Jobs, profiles, units, memory, links and power: what each command and event may change of the parts of the machine,
everything else being as it was. -/
def Obligations.JobsAndPowerLeaveTheRest : Prop :=
  (∀ ch, Keeps (.jobSubmit ch) [.evt, .mbx, .diag, .jobs, .units, .clusters, .memsys, .vis, .grid, .slv, .loc, .map,
      .prs, .sec]) ∧
  (∀ ch, ∀ c ∈ ([.jobStatus ch, .jobList ch, .profileStatus ch, .clusterStatus ch, .unitStatus ch, .memStatus ch,
      .bufInfo ch, .powerStatus ch] : List Instr), Keeps c [.evt, .mbx, .sec]) ∧
  (∀ ch, Keeps (.jobConfig ch) [.evt, .mbx, .jobs, .sec]) ∧
  (∀ ch, ∀ c ∈ ([.partReset ch, .domainPower ch] : List Instr), Keeps c [.evt, .mbx, .diag, .jobs, .pwr, .units,
      .clusters, .sfe, .vis, .slv, .prs, .sec, .sram]) ∧
  (∀ ch, ∀ c ∈ ([.dieReset ch, .diePower ch] : List Instr), Leaves c [.fuse, .pkg, .boot, .view, .i3c, .loc, .st,
      .free, .flash]) ∧
  (∀ ch, Leaves (.profileLoad ch) [.fuse, .pkg, .boot, .view, .i3c, .pwr, .units, .clusters, .st, .sram, .flash]) ∧
  (∀ ch, Keeps (.profileUnload ch) [.evt, .mbx, .diag, .jobs, .memsys, .vis, .grid, .loc, .map, .sec]) ∧
  (∀ job, Keeps (.jobPlace job) [.evt, .mbx, .diag, .jobs, .pwr, .units, .clusters, .memsys, .vis, .grid, .slv,
      .loc, .map, .prs, .lp]) ∧
  (∀ job, Keeps (.jobLoaded job) [.evt, .mbx, .jobs, .units, .vis, .slv, .map, .prs, .out]) ∧
  (∀ job part, Keeps (.bcastPacket job part) [.clusters]) ∧
  (∀ cluster slot seq ack, Keeps (.bcastAnswer cluster slot seq ack) [.boot, .view, .evt, .diag, .jobs, .units,
      .clusters, .vis, .slv, .prs, .sec, .sram]) ∧
  (∀ cluster slot seq, Keeps (.bcastAckTimeout cluster slot seq) [.boot, .view, .evt, .diag, .time, .jobs, .units,
      .clusters, .vis, .slv, .prs, .sec]) ∧
  (∀ unit, Keeps (.descriptorIssue unit) [.evt, .diag, .jobs, .units, .clusters, .memsys, .vis, .slv, .prs, .free,
      .lp, .sram]) ∧
  (∀ unit, Keeps (.flagSignal unit) [.units, .clusters]) ∧
  (∀ unit, Keeps (.flagWaitMet unit) [.units]) ∧
  (∀ unit, Keeps (.waitTimeout unit) [.evt, .diag, .time, .jobs, .units, .clusters, .vis, .slv, .prs]) ∧
  (∀ requester error, Keeps (.memCompletion requester error) [.evt, .diag, .jobs, .units, .clusters, .memsys, .vis,
      .slv, .prs]) ∧
  (∀ pa len write policy ecc, Keeps (.mscRequest pa len write policy ecc) [.evt, .diag, .jobs, .units, .clusters,
      .memsys, .vis, .slv, .prs]) ∧
  (∀ unit, Keeps (.unitEnd unit) [.jobs, .units, .clusters]) ∧
  (∀ job, Keeps (.schedEntryCopy job) [.evt, .diag, .jobs, .units, .clusters, .memsys, .vis, .slv, .prs, .lp,
      .sram]) ∧
  (∀ job, Keeps (.windowSlotLoad job) [.evt, .diag, .jobs, .units, .clusters, .memsys, .vis, .slv, .prs, .lp,
      .sram]) ∧
  (∀ channel ecc, Keeps (.patrolScrub channel ecc) [.evt, .diag, .memsys]) ∧
  (∀ ch, ∀ c ∈ ([.bufAlloc ch, .bufFree ch] : List Instr), Keeps c [.evt, .mbx, .memsys, .sec]) ∧
  (∀ ch, Keeps (.memRead ch) [.evt, .mbx, .diag, .memsys, .sec]) ∧
  (∀ ch, Keeps (.memWrite ch) [.evt, .mbx, .diag, .memsys, .sec, .lp]) ∧
  (∀ job out, Leaves (.jobCommit job out) [.fuse, .pkg, .boot, .view, .i3c, .pwr, .st, .free, .sram, .flash]) ∧
  (∀ job cause source die index addr detail, Keeps (.jobFault job cause source die index addr detail) [.evt, .diag,
      .jobs, .units, .clusters, .vis, .slv, .prs]) ∧
  (∀ die requester job addr, Keeps (.flitParityError die requester job addr) [.evt, .diag, .jobs, .units, .clusters,
      .vis, .slv, .prs]) ∧
  (∀ job, Leaves (.jobRestart job) [.fuse, .pkg, .boot, .view, .i3c, .free, .flash]) ∧
  (∀ link far, Keeps (.linkCrcError link far) [.diag]) ∧
  (∀ link state held, Keeps (.linkRetrain link state held) [.view, .evt, .diag, .jobs, .units, .clusters, .vis,
      .slv, .prs, .sec]) ∧
  (∀ die, Keeps (.cpWatchdog die) [.evt, .diag, .jobs, .pwr, .units, .clusters, .vis, .slv, .prs]) ∧
  (∀ die place, Keeps (.cpSramUe die place) [.evt, .diag, .jobs, .pwr, .units, .clusters, .memsys, .vis, .slv,
      .prs]) ∧
  (∀ die island, Leaves (.pllLockLoss die island) [.fuse, .flash]) ∧
  (∀ ref die, Leaves (.refClockLoss ref die) [.fuse, .flash]) ∧
  (∀ tj, Leaves (.thermalEval tj) [.fuse, .flash]) ∧
  (∀ ch, Keeps (.powerConfig ch) [.evt, .mbx, .pwr, .sec]) ∧
  (∀ die engines units, Keeps (.diePowerOnDone die engines units) [.boot, .view, .evt, .mbx, .diag, .pwr, .units,
      .memsys, .sfe, .map, .prs, .sec]) ∧
  (∀ ch, Keeps (.pwrSense ch) [.evt, .mbx, .pwr, .sfe, .sec]) ∧
  (∀ die domain, Keeps (.domainPowerGood die domain) [.evt, .mbx, .pwr, .sfe, .sec]) ∧
  (∀ uncore cores, Keeps (.limiterEval uncore cores) [.evt, .diag, .time, .pwr])

/-- The engines, localisation, the map, place search, outputs, self-test and security: what each command and event may change of
the parts of the machine, everything else being as it was; a setting of an object outside the profile changes its own part
alone. -/
def Obligations.EnginesLeaveTheRest : Prop :=
  KeepsSet .steConfig setSteConfig [.vis] ∧
  KeepsSet .steMap setSteMap [.vis] ∧
  KeepsSet .steMask setSteMask [.vis] ∧
  KeepsSet .fteConfig setFteConfig [.vis] ∧
  KeepsSet .fteMask setFteMask [.vis] ∧
  (∀ ch, ∀ c ∈ ([.steStatus ch, .fteStatus ch, .fteTrackGet ch, .calGet ch, .fusionStatus ch, .ppStatus ch,
      .locStatus ch, .poseGet ch, .mapStatus ch, .mapGet ch, .prsStatus ch, .outStatus ch, .eventGet ch,
      .guideStatus ch, .stProgress ch, .stFuseStatus ch, .secStatus ch, .idInfo ch, .attest ch, .fwUpdate ch,
      .secRollback ch, .secRevoke ch, .debugUnlock ch] : List Instr), Keeps c [.evt, .mbx, .sec]) ∧
  (∀ ch, ∀ c ∈ ([.steRun ch, .fteRun ch, .slvSolve ch, .prsTreeLoad ch, .prsUpdate ch, .prsCompact ch] : List
      Instr), Keeps c [.evt, .mbx, .jobs, .sec]) ∧
  (∀ die view, Keeps (.steBandBuild die view) [.evt, .diag, .jobs, .units, .clusters, .vis, .slv, .prs]) ∧
  (∀ die view, Keeps (.fteBandBuild die view) [.evt, .diag, .jobs, .units, .clusters, .vis, .slv, .prs]) ∧
  (∀ die slots, Keeps (.steBandWrite die slots) [.evt, .diag, .jobs, .units, .clusters, .vis, .slv, .prs, .sram]) ∧
  (∀ die, Keeps (.steTileBoundary die) [.diag, .vis]) ∧
  (∀ die, Keeps (.steOpDone die) [.evt, .diag, .jobs, .units, .clusters, .memsys, .vis, .slv, .prs, .out, .lp]) ∧
  (∀ die view h fbBuf fbOff fbCount cluster block flag, Keeps (.fteTrackOp die view h fbBuf fbOff fbCount cluster
      block flag) [.evt, .diag, .jobs, .units, .clusters, .memsys, .vis, .slv, .prs, .lp, .sram]) ∧
  (∀ stream slot, Keeps (.fteDormantExpire stream slot) [.vis]) ∧
  (∀ stream, Keeps (.fteFreezeExpire stream) [.vis]) ∧
  KeepsSet .gridConfig setGridConfig [.grid] ∧
  KeepsSet .gridSource setGridSource [.grid] ∧
  KeepsSet .calSet setCalSet [.grid] ∧
  KeepsSet .calRefine setCalRefine [.grid] ∧
  KeepsSet .checkConfig setCheckConfig [.grid] ∧
  (∀ check estimates, Keeps (.checkDecision check estimates) [.evt, .diag, .grid, .free]) ∧
  (∀ source, Keeps (.checkSourceClean source) [.evt, .grid]) ∧
  (∀ die width hmax c0 c1 below above error, Keeps (.haloCopy die width hmax c0 c1 below above error) [.evt, .diag,
      .jobs, .units, .clusters, .memsys, .vis, .grid, .slv, .prs, .lp]) ∧
  (∀ stream, Keeps (.calRefineTick stream) [.diag, .time, .jobs, .grid]) ∧
  (∀ ch, Keeps (.slvLoad ch) [.evt, .mbx, .diag, .memsys, .slv, .sec]) ∧
  (∀ ch, ∀ c ∈ ([.slvUpdate ch, .slvUnload ch] : List Instr), Keeps c [.evt, .mbx, .slv, .sec]) ∧
  (∀ ch, ∀ c ∈ ([.slvStatus ch, .debugChallenge ch] : List Instr), Keeps c [.evt, .mbx, .sec, .free]) ∧
  KeepsSet .ppConfig setPpConfig [.slv] ∧
  (∀ die cycles, Keeps (.slvStepBoundary die cycles) [.slv]) ∧
  (∀ job, Keeps (.slvDeadline job) [.diag, .time, .slv]) ∧
  (∀ die result, Keeps (.slvSolveEnd die result) [.evt, .diag, .jobs, .units, .clusters, .memsys, .vis, .slv, .prs,
      .lp]) ∧
  (∀ job n, Keeps (.roundMerge job n) [.evt, .diag, .jobs, .units, .clusters, .memsys, .vis, .slv, .prs, .lp]) ∧
  Keeps .ppRecord [.evt, .mbx, .diag, .time, .slv, .loc, .out] ∧
  KeepsSet .locConfig setLocConfig [.loc] ∧
  KeepsSet .wheelConfig setWheelConfig [.loc] ∧
  KeepsSet .gnssConfig setGnssConfig [.loc] ∧
  KeepsSet .loopConfig setLoopConfig [.loc] ∧
  (∀ ch, Keeps (.locReset ch) [.evt, .mbx, .diag, .slv, .loc, .map, .sec]) ∧
  (∀ ch, Keeps (.gnssFix ch) [.evt, .mbx, .diag, .loc, .map, .sec]) ∧
  Keeps .locLostTimeout [.evt, .diag, .time, .loc] ∧
  Keeps .locReinitTimeout [.evt, .diag, .time, .slv, .loc, .map] ∧
  Keeps .locInitStart [.evt, .diag, .slv, .loc, .map] ∧
  Keeps .tickDeadline [.diag, .time, .jobs, .slv] ∧
  Keeps .loopCorrectionApply [.slv, .loc] ∧
  KeepsSet .mapConfig setMapConfig [.diag, .memsys, .map] ∧
  (∀ ch, ∀ c ∈ ([.mapLoad ch, .mapExport ch] : List Instr), Keeps c [.evt, .mbx, .jobs, .map, .sec]) ∧
  (∀ ch, ∀ c ∈ ([.mapSession ch, .mapClear ch] : List Instr), Keeps c [.evt, .mbx, .diag, .loc, .map, .prs, .sec]) ∧
  Keeps .mapReclaim [.evt, .diag, .map] ∧
  KeepsSet .prsIndex setPrsIndex [.diag, .memsys, .prs] ∧
  (∀ ch, Keeps (.prsQuery ch) [.evt, .mbx, .jobs, .prs, .sec]) ∧
  KeepsSet .prsConfig setPrsConfig [.prs] ∧
  (∀ die, Keeps (.batchWindowClose die) [.diag, .time, .prs]) ∧
  (∀ die index leaf, Keeps (.shardCompaction die index leaf) [.diag, .prs]) ∧
  KeepsSet .outPort setOutPort [.out] ∧
  KeepsSet .outRoute setOutRoute [.out] ∧
  KeepsSet .guideConfig setGuideConfig [.out] ∧
  KeepsSet .guideSelect setGuideSelect [.out] ∧
  (∀ ch, Keeps (.outBulk ch) [.evt, .mbx, .out, .sec]) ∧
  (∀ ch, Keeps (.guidePath ch) [.evt, .mbx, .diag, .memsys, .out, .sec]) ∧
  (∀ port, Keeps (.txPartSend port) [.evt, .mbx, .diag, .time, .memsys, .out]) ∧
  (∀ port, Keeps (.eventMsgForm port) [.evt, .mbx, .diag, .time, .out]) ∧
  (∀ port, Keeps (.diagMsgForm port) [.evt, .mbx, .diag, .time, .out]) ∧
  Keeps .guideInstant [.evt, .diag, .time, .out, .free] ∧
  (∀ ch, Keeps (.stRun ch) [.evt, .mbx, .jobs, .memsys, .st, .sec]) ∧
  (∀ ch, Keeps (.stFuse ch) [.evt, .mbx, .st, .sec]) ∧
  (∀ run, Leaves (.stSliceStart run) [.fuse, .pkg, .boot, .view, .i3c, .time, .tim, .pwr, .ing, .sfe, .out, .sec,
      .sram, .flash]) ∧
  (∀ run, Keeps (.stSliceBusy run) [.evt, .mbx, .diag, .time, .jobs, .units, .clusters, .memsys, .vis, .grid, .slv,
      .loc, .map, .prs, .st]) ∧
  (∀ run out, Leaves (.stSliceEnd run out) [.fuse, .pkg, .i3c, .time, .tim, .ing, .out, .lp, .flash]) ∧
  (∀ run, Leaves (.stSliceTimeout run) [.fuse, .pkg, .i3c, .tim, .ing, .out, .free, .lp, .flash]) ∧
  (∀ run, Leaves (.stWindowVoid run) [.fuse, .pkg, .boot, .view, .i3c, .time, .tim, .pwr, .ing, .out, .sec, .free,
      .lp, .flash]) ∧
  (∀ ok, Keeps (.fuseRecordBlow ok) [.fuse, .evt, .mbx, .st, .sec]) ∧
  (∀ fail, Keeps (.cryptoOpDone fail) [.fuse, .evt, .mbx, .diag, .memsys, .sec, .free, .flash]) ∧
  (∀ instr, Leaves (.debugTapInstruction instr) [.fuse, .flash]) ∧
  Keeps .guidanceFrameTx [.out] ∧
  Keeps .healthTestFailure [.sec]

/-! ## Settings and stored bytes -/

/-- A setting that names an object the active profile uses is turned away (R746): under a profile other than Profile 0 it
answers BAD_STATE and changes nothing but that answer. -/
def Obligations.ProfileObjectsAreNotChanged : Prop :=
  ∀ (s : State) (ch : Fin 8) (r : Request), s.dev.jobs.profile.zero = false →
    ∀ x ∈ ([
      (.compSet ch, setCompSet), (.trigGroup ch, setTrigGroup), (.trigOut ch, setTrigOut), (.ptpPort ch, setPtpPort),
      (.streamConfig ch, setStreamConfig), (.csiPort ch, setCsiPort), (.pairConfig ch, setPairConfig),
      (.lidarStream ch, setLidarStream), (.imuPort ch, setImuPort), (.encConfig ch, setEncConfig),
      (.canController ch, setCanController), (.canFilter ch, setCanFilter), (.sfeChannel ch, setSfeChannel),
      (.sfeDetect ch, setSfeDetect), (.sfeCal ch, setSfeCal), (.steConfig ch, setSteConfig),
      (.fteConfig ch, setFteConfig), (.gridConfig ch, setGridConfig), (.gridSource ch, setGridSource),
      (.checkConfig ch, setCheckConfig), (.ppConfig ch, setPpConfig), (.locConfig ch, setLocConfig),
      (.wheelConfig ch, setWheelConfig), (.outPort ch, setOutPort), (.outRoute ch, setOutRoute),
      (.guideConfig ch, setGuideConfig)] : List (Instr × Setting)),
      s.holds ch x.2.op r → s.dev.profileUses (x.2.objs r s.dev) = true →
        exec x.1 s = .next (s.answered ch r s.dev (ans 0x14))

/-- What is stored is read (R392): a range of a buffer of distinct pitches, written without an error into memories of
canonical form, reads as the bytes written; every byte of LPDDR6 outside the range, SRAM and flash are as they were. -/
def Obligations.StoredBytesAreRead : Prop :=
  ∀ (d : Device) (m : Store) (id o : Nat) (bs : List Byte) (b : Buffer) (x : Device × Store),
    d.buf id = some b → d.bufStore m id o bs = .ok x →
      x.2.sram = m.sram ∧ x.2.flash = m.flash ∧ x.2.flashSize = m.flashSize ∧
      (∀ a, (∀ g ∈ b.range o bs.length, a < g.1 ∨ g.1 + g.2 ≤ a) → Cells.read 0#8 x.2.lp a = Cells.read 0#8 m.lp a) ∧
      (Cells.wf 0#8 m.lp = true → b.pitches.Nodup → o + bs.length ≤ b.size → x.1.bufRead x.2 id o bs.length = .ok bs)
end

