-- ==== Sys2Proof/Laws/Cells.lean ====
section
/-! SUPPORT. Laws of byte stores: reading after writing, and that every operation of a memory keeps its canonical form. -/

namespace Sys2Proof.Machine

theorem Cells.wfFrom_mono (d : Byte) (m : Cells) (lo hi : Nat) (h : lo ≤ hi) (w : Cells.wfFrom d hi m = true) :
    Cells.wfFrom d lo m = true := by
  cases m with
  | nil => rfl
  | cons e t =>
    obtain ⟨x, y⟩ := e
    simp only [Cells.wfFrom, Bool.and_eq_true, decide_eq_true_eq] at w ⊢
    exact ⟨⟨by omega, w.1.2⟩, w.2⟩

theorem Cells.wfFrom_write (d : Byte) (m : Cells) (lo a : Nat) (b : Byte) (h : lo ≤ a)
    (w : Cells.wfFrom d lo m = true) : Cells.wfFrom d lo (Cells.write d m a b) = true := by
  induction m generalizing lo with
  | nil =>
    simp only [Cells.write]
    split
    · rfl
    · next hb => simp [Cells.wfFrom, h, hb]
  | cons e t ih =>
    obtain ⟨x, y⟩ := e
    simp only [Cells.wfFrom, Bool.and_eq_true, decide_eq_true_eq] at w
    obtain ⟨⟨hx, hy⟩, ht⟩ := w
    simp only [Cells.write]
    split
    · split
      · simp only [Cells.wfFrom, Bool.and_eq_true, decide_eq_true_eq]; exact ⟨⟨hx, hy⟩, ht⟩
      · next hb =>
        simp only [Cells.wfFrom, Bool.and_eq_true, decide_eq_true_eq]
        exact ⟨⟨h, hb⟩, ⟨by omega, hy⟩, ht⟩
    · split
      · next hax =>
        subst hax
        split
        · exact Cells.wfFrom_mono d t lo (a + 1) (by omega) ht
        · next hb =>
          simp only [Cells.wfFrom, Bool.and_eq_true, decide_eq_true_eq]
          exact ⟨⟨h, hb⟩, ht⟩
      · simp only [Cells.wfFrom, Bool.and_eq_true, decide_eq_true_eq]
        exact ⟨⟨hx, hy⟩, ih (x + 1) (by omega) ht⟩

/-- A write keeps the canonical form. -/
theorem Cells.wf_write (d : Byte) (m : Cells) (a : Nat) (b : Byte) (w : Cells.wf d m = true) :
    Cells.wf d (Cells.write d m a b) = true :=
  Cells.wfFrom_write d m 0 a b (Nat.zero_le a) w

/-- A write of many bytes keeps the canonical form. -/
theorem Cells.wf_writeAll (d : Byte) (bs : List Byte) (m : Cells) (a : Nat) (w : Cells.wf d m = true) :
    Cells.wf d (Cells.writeAll d m a bs) = true := by
  induction bs generalizing m a with
  | nil => exact w
  | cons b bs ih => exact ih _ _ (Cells.wf_write d m a b w)

theorem Cells.wfFrom_filter (d : Byte) (p : Host.Cell → Bool) (m : Cells) (lo : Nat) (w : Cells.wfFrom d lo m = true) :
    Cells.wfFrom d lo (m.filter p) = true := by
  induction m generalizing lo with
  | nil => rfl
  | cons e t ih =>
    obtain ⟨x, y⟩ := e
    simp only [Cells.wfFrom, Bool.and_eq_true, decide_eq_true_eq] at w
    simp only [List.filter]
    split
    · simp only [Cells.wfFrom, Bool.and_eq_true, decide_eq_true_eq]
      exact ⟨w.1, ih _ w.2⟩
    · exact Cells.wfFrom_mono d _ lo (x + 1) (by omega) (ih _ w.2)

/-- Clearing a range keeps the canonical form. -/
theorem Cells.wf_clear (d : Byte) (m : Cells) (a n : Nat) (w : Cells.wf d m = true) :
    Cells.wf d (m.clear a n) = true :=
  Cells.wfFrom_filter d _ m 0 w

/-- Bytes laid over the pieces of a range keep the canonical form. -/
theorem layBytes_wf (ps : List (Nat × Nat)) (bs : List Byte) (m : Cells) (w : Cells.wf 0#8 m = true) :
    Cells.wf 0#8 (layBytes ps bs m) = true := by
  induction ps generalizing bs m with
  | nil => exact w
  | cons p ps ih => exact ih _ _ (Cells.wf_writeAll 0#8 _ _ _ w)

/-- A store to a buffer range keeps LPDDR6 canonical. -/
theorem Store.bufWrite_wf (m : Store) (b : Buffer) (o : Nat) (bs : List Byte) (w : Cells.wf 0#8 m.lp = true) :
    Cells.wf 0#8 (m.bufWrite b o bs).lp = true :=
  layBytes_wf _ _ _ w

/-- A store to a landing or a scratch keeps SRAM canonical. -/
theorem Store.sramWrite_wf (m : Store) (a : Nat) (bs : List Byte) (w : Cells.wf 0#8 m.sram = true) :
    Cells.wf 0#8 (m.sramWrite a bs).sram = true :=
  Cells.wf_writeAll 0#8 _ _ _ w

/-- The loss of a cluster's SRAM keeps it canonical. -/
theorem Store.loseCluster_wf (m : Store) (c : Nat) (w : Cells.wf 0#8 m.sram = true) :
    Cells.wf 0#8 (m.loseCluster c).sram = true :=
  Cells.wf_clear _ _ _ _ (Cells.wf_clear _ _ _ _ w)

/-- The zero-fill of a channel keeps LPDDR6 canonical. -/
theorem Store.zeroChannel_wf (m : Store) (c : Nat) (w : Cells.wf 0#8 m.lp = true) :
    Cells.wf 0#8 (m.zeroChannel c).lp = true :=
  Cells.wf_clear _ _ _ _ w

theorem Cells.read_cons (d : Byte) (x : Nat) (y : Byte) (t : Cells) (a : Nat) :
    Cells.read d ((x, y) :: t) a = if x = a then y else Cells.read d t a := by
  by_cases h : x = a
  · simp [Cells.read, List.find?, h]
  · have : (x == a) = false := by simp [h]
    simp [Cells.read, List.find?, this, h]

/-- Below the lowest address listed, a canonical store reads as its default. -/
theorem Cells.read_below (d : Byte) (m : Cells) (lo a : Nat) (h : a < lo) (w : Cells.wfFrom d lo m = true) :
    Cells.read d m a = d := by
  induction m generalizing lo with
  | nil => rfl
  | cons e t ih =>
    obtain ⟨x, y⟩ := e
    simp only [Cells.wfFrom, Bool.and_eq_true, decide_eq_true_eq] at w
    rw [Cells.read_cons, if_neg (by omega)]
    exact ih (x + 1) (by omega) w.2

/-- A byte written is read back from a canonical store. -/
theorem Cells.read_write_same (d : Byte) (m : Cells) (lo a : Nat) (b : Byte) (w : Cells.wfFrom d lo m = true) :
    Cells.read d (Cells.write d m a b) a = b := by
  induction m generalizing lo with
  | nil =>
    simp only [Cells.write]
    split
    · next h => simp [Cells.read, h]
    · simp [Cells.read_cons]
  | cons e t ih =>
    obtain ⟨x, y⟩ := e
    simp only [Cells.wfFrom, Bool.and_eq_true, decide_eq_true_eq] at w
    simp only [Cells.write]
    split
    · split
      · next hb =>
        rw [Cells.read_cons, if_neg (by omega), hb]
        exact Cells.read_below d t (x + 1) a (by omega) w.2
      · simp [Cells.read_cons]
    · split
      · next hax =>
        split
        · next hb => rw [hb]; exact Cells.read_below d t (x + 1) a (by omega) w.2
        · simp [Cells.read_cons]
      · rw [Cells.read_cons, if_neg (by omega)]
        exact ih (x + 1) w.2

/-- A write leaves every other byte alone, whatever the store. -/
theorem Cells.read_write_other (d : Byte) (m : Cells) (a c : Nat) (b : Byte) (h : c ≠ a) :
    Cells.read d (Cells.write d m a b) c = Cells.read d m c := by
  induction m with
  | nil =>
    simp only [Cells.write]
    split
    · rfl
    · rw [Cells.read_cons, if_neg (Ne.symm h)]
  | cons e t ih =>
    obtain ⟨x, y⟩ := e
    simp only [Cells.write]
    split
    · split
      · rfl
      · rw [Cells.read_cons, if_neg (Ne.symm h)]
    · split
      · next hax =>
        subst hax
        split
        · rw [Cells.read_cons, if_neg (Ne.symm h)]
        · simp [Cells.read_cons, Ne.symm h]
      · simp [Cells.read_cons, ih]

/-- A write of many bytes leaves every byte outside them alone. -/
theorem Cells.read_writeAll_other (d : Byte) (bs : List Byte) (m : Cells) (a c : Nat) (h : c < a ∨ a + bs.length ≤ c) :
    Cells.read d (Cells.writeAll d m a bs) c = Cells.read d m c := by
  induction bs generalizing m a with
  | nil => rfl
  | cons b bs ih =>
    simp only [List.length_cons] at h
    rw [Cells.writeAll, ih _ _ (by omega), Cells.read_write_other d m a c b (by omega)]

end Sys2Proof.Machine
end

