-- ==== Sys2Proof/Laws/State.lean ====
section
/-! SUPPORT. What each plain update of the state leaves alone: one lemma per update and field, each true by its definition. -/

namespace Sys2Proof.Machine

@[simp] theorem Device.tickFree_fuse (d : Device) : (d.tickFree).fuse = d.fuse := rfl
@[simp] theorem Device.tickFree_pkg (d : Device) : (d.tickFree).pkg = d.pkg := rfl
@[simp] theorem Device.tickFree_boot (d : Device) : (d.tickFree).boot = d.boot := rfl
@[simp] theorem Device.tickFree_view (d : Device) : (d.tickFree).view = d.view := rfl
@[simp] theorem Device.tickFree_i3c (d : Device) : (d.tickFree).i3c = d.i3c := rfl
@[simp] theorem Device.tickFree_evt (d : Device) : (d.tickFree).evt = d.evt := rfl
@[simp] theorem Device.tickFree_mbx (d : Device) : (d.tickFree).mbx = d.mbx := rfl
@[simp] theorem Device.tickFree_diag (d : Device) : (d.tickFree).diag = d.diag := rfl
@[simp] theorem Device.tickFree_time (d : Device) : (d.tickFree).time = d.time := rfl
@[simp] theorem Device.tickFree_tim (d : Device) : (d.tickFree).tim = d.tim := rfl
@[simp] theorem Device.tickFree_jobs (d : Device) : (d.tickFree).jobs = d.jobs := rfl
@[simp] theorem Device.tickFree_pwr (d : Device) : (d.tickFree).pwr = d.pwr := rfl
@[simp] theorem Device.tickFree_units (d : Device) : (d.tickFree).units = d.units := rfl
@[simp] theorem Device.tickFree_clusters (d : Device) : (d.tickFree).clusters = d.clusters := rfl
@[simp] theorem Device.tickFree_memsys (d : Device) : (d.tickFree).memsys = d.memsys := rfl
@[simp] theorem Device.tickFree_ing (d : Device) : (d.tickFree).ing = d.ing := rfl
@[simp] theorem Device.tickFree_sfe (d : Device) : (d.tickFree).sfe = d.sfe := rfl
@[simp] theorem Device.tickFree_vis (d : Device) : (d.tickFree).vis = d.vis := rfl
@[simp] theorem Device.tickFree_grid (d : Device) : (d.tickFree).grid = d.grid := rfl
@[simp] theorem Device.tickFree_slv (d : Device) : (d.tickFree).slv = d.slv := rfl
@[simp] theorem Device.tickFree_loc (d : Device) : (d.tickFree).loc = d.loc := rfl
@[simp] theorem Device.tickFree_map (d : Device) : (d.tickFree).map = d.map := rfl
@[simp] theorem Device.tickFree_prs (d : Device) : (d.tickFree).prs = d.prs := rfl
@[simp] theorem Device.tickFree_out (d : Device) : (d.tickFree).out = d.out := rfl
@[simp] theorem Device.tickFree_st (d : Device) : (d.tickFree).st = d.st := rfl
@[simp] theorem Device.tickFree_sec (d : Device) : (d.tickFree).sec = d.sec := rfl

@[simp] theorem Device.setChan_fuse (d : Device) (ch : Nat) (c : Channel) : (d.setChan ch c).fuse = d.fuse := rfl
@[simp] theorem Device.setChan_pkg (d : Device) (ch : Nat) (c : Channel) : (d.setChan ch c).pkg = d.pkg := rfl
@[simp] theorem Device.setChan_boot (d : Device) (ch : Nat) (c : Channel) : (d.setChan ch c).boot = d.boot := rfl
@[simp] theorem Device.setChan_view (d : Device) (ch : Nat) (c : Channel) : (d.setChan ch c).view = d.view := rfl
@[simp] theorem Device.setChan_i3c (d : Device) (ch : Nat) (c : Channel) : (d.setChan ch c).i3c = d.i3c := rfl
@[simp] theorem Device.setChan_evt (d : Device) (ch : Nat) (c : Channel) : (d.setChan ch c).evt = d.evt := rfl
@[simp] theorem Device.setChan_diag (d : Device) (ch : Nat) (c : Channel) : (d.setChan ch c).diag = d.diag := rfl
@[simp] theorem Device.setChan_time (d : Device) (ch : Nat) (c : Channel) : (d.setChan ch c).time = d.time := rfl
@[simp] theorem Device.setChan_tim (d : Device) (ch : Nat) (c : Channel) : (d.setChan ch c).tim = d.tim := rfl
@[simp] theorem Device.setChan_jobs (d : Device) (ch : Nat) (c : Channel) : (d.setChan ch c).jobs = d.jobs := rfl
@[simp] theorem Device.setChan_pwr (d : Device) (ch : Nat) (c : Channel) : (d.setChan ch c).pwr = d.pwr := rfl
@[simp] theorem Device.setChan_units (d : Device) (ch : Nat) (c : Channel) : (d.setChan ch c).units = d.units := rfl
@[simp] theorem Device.setChan_clusters (d : Device) (ch : Nat) (c : Channel) : (d.setChan ch c).clusters = d.clusters := rfl
@[simp] theorem Device.setChan_memsys (d : Device) (ch : Nat) (c : Channel) : (d.setChan ch c).memsys = d.memsys := rfl
@[simp] theorem Device.setChan_ing (d : Device) (ch : Nat) (c : Channel) : (d.setChan ch c).ing = d.ing := rfl
@[simp] theorem Device.setChan_sfe (d : Device) (ch : Nat) (c : Channel) : (d.setChan ch c).sfe = d.sfe := rfl
@[simp] theorem Device.setChan_vis (d : Device) (ch : Nat) (c : Channel) : (d.setChan ch c).vis = d.vis := rfl
@[simp] theorem Device.setChan_grid (d : Device) (ch : Nat) (c : Channel) : (d.setChan ch c).grid = d.grid := rfl
@[simp] theorem Device.setChan_slv (d : Device) (ch : Nat) (c : Channel) : (d.setChan ch c).slv = d.slv := rfl
@[simp] theorem Device.setChan_loc (d : Device) (ch : Nat) (c : Channel) : (d.setChan ch c).loc = d.loc := rfl
@[simp] theorem Device.setChan_map (d : Device) (ch : Nat) (c : Channel) : (d.setChan ch c).map = d.map := rfl
@[simp] theorem Device.setChan_prs (d : Device) (ch : Nat) (c : Channel) : (d.setChan ch c).prs = d.prs := rfl
@[simp] theorem Device.setChan_out (d : Device) (ch : Nat) (c : Channel) : (d.setChan ch c).out = d.out := rfl
@[simp] theorem Device.setChan_st (d : Device) (ch : Nat) (c : Channel) : (d.setChan ch c).st = d.st := rfl
@[simp] theorem Device.setChan_sec (d : Device) (ch : Nat) (c : Channel) : (d.setChan ch c).sec = d.sec := rfl
@[simp] theorem Device.setChan_free (d : Device) (ch : Nat) (c : Channel) : (d.setChan ch c).free = d.free := rfl

@[simp] theorem Device.wrote_fuse (d : Device) (n : Nat) : (d.wrote n).fuse = d.fuse := rfl
@[simp] theorem Device.wrote_pkg (d : Device) (n : Nat) : (d.wrote n).pkg = d.pkg := rfl
@[simp] theorem Device.wrote_boot (d : Device) (n : Nat) : (d.wrote n).boot = d.boot := rfl
@[simp] theorem Device.wrote_view (d : Device) (n : Nat) : (d.wrote n).view = d.view := rfl
@[simp] theorem Device.wrote_evt (d : Device) (n : Nat) : (d.wrote n).evt = d.evt := rfl
@[simp] theorem Device.wrote_mbx (d : Device) (n : Nat) : (d.wrote n).mbx = d.mbx := rfl
@[simp] theorem Device.wrote_diag (d : Device) (n : Nat) : (d.wrote n).diag = d.diag := rfl
@[simp] theorem Device.wrote_time (d : Device) (n : Nat) : (d.wrote n).time = d.time := rfl
@[simp] theorem Device.wrote_tim (d : Device) (n : Nat) : (d.wrote n).tim = d.tim := rfl
@[simp] theorem Device.wrote_jobs (d : Device) (n : Nat) : (d.wrote n).jobs = d.jobs := rfl
@[simp] theorem Device.wrote_pwr (d : Device) (n : Nat) : (d.wrote n).pwr = d.pwr := rfl
@[simp] theorem Device.wrote_units (d : Device) (n : Nat) : (d.wrote n).units = d.units := rfl
@[simp] theorem Device.wrote_clusters (d : Device) (n : Nat) : (d.wrote n).clusters = d.clusters := rfl
@[simp] theorem Device.wrote_memsys (d : Device) (n : Nat) : (d.wrote n).memsys = d.memsys := rfl
@[simp] theorem Device.wrote_ing (d : Device) (n : Nat) : (d.wrote n).ing = d.ing := rfl
@[simp] theorem Device.wrote_sfe (d : Device) (n : Nat) : (d.wrote n).sfe = d.sfe := rfl
@[simp] theorem Device.wrote_vis (d : Device) (n : Nat) : (d.wrote n).vis = d.vis := rfl
@[simp] theorem Device.wrote_grid (d : Device) (n : Nat) : (d.wrote n).grid = d.grid := rfl
@[simp] theorem Device.wrote_slv (d : Device) (n : Nat) : (d.wrote n).slv = d.slv := rfl
@[simp] theorem Device.wrote_loc (d : Device) (n : Nat) : (d.wrote n).loc = d.loc := rfl
@[simp] theorem Device.wrote_map (d : Device) (n : Nat) : (d.wrote n).map = d.map := rfl
@[simp] theorem Device.wrote_prs (d : Device) (n : Nat) : (d.wrote n).prs = d.prs := rfl
@[simp] theorem Device.wrote_out (d : Device) (n : Nat) : (d.wrote n).out = d.out := rfl
@[simp] theorem Device.wrote_st (d : Device) (n : Nat) : (d.wrote n).st = d.st := rfl
@[simp] theorem Device.wrote_sec (d : Device) (n : Nat) : (d.wrote n).sec = d.sec := rfl
@[simp] theorem Device.wrote_free (d : Device) (n : Nat) : (d.wrote n).free = d.free := rfl

@[simp] theorem Device.setJob_fuse (d : Device) (id : Nat) (j : Job) : (d.setJob id j).fuse = d.fuse := rfl
@[simp] theorem Device.setJob_pkg (d : Device) (id : Nat) (j : Job) : (d.setJob id j).pkg = d.pkg := rfl
@[simp] theorem Device.setJob_boot (d : Device) (id : Nat) (j : Job) : (d.setJob id j).boot = d.boot := rfl
@[simp] theorem Device.setJob_view (d : Device) (id : Nat) (j : Job) : (d.setJob id j).view = d.view := rfl
@[simp] theorem Device.setJob_i3c (d : Device) (id : Nat) (j : Job) : (d.setJob id j).i3c = d.i3c := rfl
@[simp] theorem Device.setJob_evt (d : Device) (id : Nat) (j : Job) : (d.setJob id j).evt = d.evt := rfl
@[simp] theorem Device.setJob_mbx (d : Device) (id : Nat) (j : Job) : (d.setJob id j).mbx = d.mbx := rfl
@[simp] theorem Device.setJob_diag (d : Device) (id : Nat) (j : Job) : (d.setJob id j).diag = d.diag := rfl
@[simp] theorem Device.setJob_time (d : Device) (id : Nat) (j : Job) : (d.setJob id j).time = d.time := rfl
@[simp] theorem Device.setJob_tim (d : Device) (id : Nat) (j : Job) : (d.setJob id j).tim = d.tim := rfl
@[simp] theorem Device.setJob_pwr (d : Device) (id : Nat) (j : Job) : (d.setJob id j).pwr = d.pwr := rfl
@[simp] theorem Device.setJob_units (d : Device) (id : Nat) (j : Job) : (d.setJob id j).units = d.units := rfl
@[simp] theorem Device.setJob_clusters (d : Device) (id : Nat) (j : Job) : (d.setJob id j).clusters = d.clusters := rfl
@[simp] theorem Device.setJob_memsys (d : Device) (id : Nat) (j : Job) : (d.setJob id j).memsys = d.memsys := rfl
@[simp] theorem Device.setJob_ing (d : Device) (id : Nat) (j : Job) : (d.setJob id j).ing = d.ing := rfl
@[simp] theorem Device.setJob_sfe (d : Device) (id : Nat) (j : Job) : (d.setJob id j).sfe = d.sfe := rfl
@[simp] theorem Device.setJob_vis (d : Device) (id : Nat) (j : Job) : (d.setJob id j).vis = d.vis := rfl
@[simp] theorem Device.setJob_grid (d : Device) (id : Nat) (j : Job) : (d.setJob id j).grid = d.grid := rfl
@[simp] theorem Device.setJob_slv (d : Device) (id : Nat) (j : Job) : (d.setJob id j).slv = d.slv := rfl
@[simp] theorem Device.setJob_loc (d : Device) (id : Nat) (j : Job) : (d.setJob id j).loc = d.loc := rfl
@[simp] theorem Device.setJob_map (d : Device) (id : Nat) (j : Job) : (d.setJob id j).map = d.map := rfl
@[simp] theorem Device.setJob_prs (d : Device) (id : Nat) (j : Job) : (d.setJob id j).prs = d.prs := rfl
@[simp] theorem Device.setJob_out (d : Device) (id : Nat) (j : Job) : (d.setJob id j).out = d.out := rfl
@[simp] theorem Device.setJob_st (d : Device) (id : Nat) (j : Job) : (d.setJob id j).st = d.st := rfl
@[simp] theorem Device.setJob_sec (d : Device) (id : Nat) (j : Job) : (d.setJob id j).sec = d.sec := rfl
@[simp] theorem Device.setJob_free (d : Device) (id : Nat) (j : Job) : (d.setJob id j).free = d.free := rfl

@[simp] theorem Device.updCluster_fuse (d : Device) (c : Nat) (f : Cluster → Cluster) : (d.updCluster c f).fuse = d.fuse := rfl
@[simp] theorem Device.updCluster_pkg (d : Device) (c : Nat) (f : Cluster → Cluster) : (d.updCluster c f).pkg = d.pkg := rfl
@[simp] theorem Device.updCluster_boot (d : Device) (c : Nat) (f : Cluster → Cluster) : (d.updCluster c f).boot = d.boot := rfl
@[simp] theorem Device.updCluster_view (d : Device) (c : Nat) (f : Cluster → Cluster) : (d.updCluster c f).view = d.view := rfl
@[simp] theorem Device.updCluster_i3c (d : Device) (c : Nat) (f : Cluster → Cluster) : (d.updCluster c f).i3c = d.i3c := rfl
@[simp] theorem Device.updCluster_evt (d : Device) (c : Nat) (f : Cluster → Cluster) : (d.updCluster c f).evt = d.evt := rfl
@[simp] theorem Device.updCluster_mbx (d : Device) (c : Nat) (f : Cluster → Cluster) : (d.updCluster c f).mbx = d.mbx := rfl
@[simp] theorem Device.updCluster_diag (d : Device) (c : Nat) (f : Cluster → Cluster) : (d.updCluster c f).diag = d.diag := rfl
@[simp] theorem Device.updCluster_time (d : Device) (c : Nat) (f : Cluster → Cluster) : (d.updCluster c f).time = d.time := rfl
@[simp] theorem Device.updCluster_tim (d : Device) (c : Nat) (f : Cluster → Cluster) : (d.updCluster c f).tim = d.tim := rfl
@[simp] theorem Device.updCluster_jobs (d : Device) (c : Nat) (f : Cluster → Cluster) : (d.updCluster c f).jobs = d.jobs := rfl
@[simp] theorem Device.updCluster_pwr (d : Device) (c : Nat) (f : Cluster → Cluster) : (d.updCluster c f).pwr = d.pwr := rfl
@[simp] theorem Device.updCluster_units (d : Device) (c : Nat) (f : Cluster → Cluster) : (d.updCluster c f).units = d.units := rfl
@[simp] theorem Device.updCluster_memsys (d : Device) (c : Nat) (f : Cluster → Cluster) : (d.updCluster c f).memsys = d.memsys := rfl
@[simp] theorem Device.updCluster_ing (d : Device) (c : Nat) (f : Cluster → Cluster) : (d.updCluster c f).ing = d.ing := rfl
@[simp] theorem Device.updCluster_sfe (d : Device) (c : Nat) (f : Cluster → Cluster) : (d.updCluster c f).sfe = d.sfe := rfl
@[simp] theorem Device.updCluster_vis (d : Device) (c : Nat) (f : Cluster → Cluster) : (d.updCluster c f).vis = d.vis := rfl
@[simp] theorem Device.updCluster_grid (d : Device) (c : Nat) (f : Cluster → Cluster) : (d.updCluster c f).grid = d.grid := rfl
@[simp] theorem Device.updCluster_slv (d : Device) (c : Nat) (f : Cluster → Cluster) : (d.updCluster c f).slv = d.slv := rfl
@[simp] theorem Device.updCluster_loc (d : Device) (c : Nat) (f : Cluster → Cluster) : (d.updCluster c f).loc = d.loc := rfl
@[simp] theorem Device.updCluster_map (d : Device) (c : Nat) (f : Cluster → Cluster) : (d.updCluster c f).map = d.map := rfl
@[simp] theorem Device.updCluster_prs (d : Device) (c : Nat) (f : Cluster → Cluster) : (d.updCluster c f).prs = d.prs := rfl
@[simp] theorem Device.updCluster_out (d : Device) (c : Nat) (f : Cluster → Cluster) : (d.updCluster c f).out = d.out := rfl
@[simp] theorem Device.updCluster_st (d : Device) (c : Nat) (f : Cluster → Cluster) : (d.updCluster c f).st = d.st := rfl
@[simp] theorem Device.updCluster_sec (d : Device) (c : Nat) (f : Cluster → Cluster) : (d.updCluster c f).sec = d.sec := rfl
@[simp] theorem Device.updCluster_free (d : Device) (c : Nat) (f : Cluster → Cluster) : (d.updCluster c f).free = d.free := rfl

@[simp] theorem Device.updUnit_fuse (d : Device) (p : Nat) (f : CUnit → CUnit) : (d.updUnit p f).fuse = d.fuse := rfl
@[simp] theorem Device.updUnit_pkg (d : Device) (p : Nat) (f : CUnit → CUnit) : (d.updUnit p f).pkg = d.pkg := rfl
@[simp] theorem Device.updUnit_boot (d : Device) (p : Nat) (f : CUnit → CUnit) : (d.updUnit p f).boot = d.boot := rfl
@[simp] theorem Device.updUnit_view (d : Device) (p : Nat) (f : CUnit → CUnit) : (d.updUnit p f).view = d.view := rfl
@[simp] theorem Device.updUnit_i3c (d : Device) (p : Nat) (f : CUnit → CUnit) : (d.updUnit p f).i3c = d.i3c := rfl
@[simp] theorem Device.updUnit_evt (d : Device) (p : Nat) (f : CUnit → CUnit) : (d.updUnit p f).evt = d.evt := rfl
@[simp] theorem Device.updUnit_mbx (d : Device) (p : Nat) (f : CUnit → CUnit) : (d.updUnit p f).mbx = d.mbx := rfl
@[simp] theorem Device.updUnit_diag (d : Device) (p : Nat) (f : CUnit → CUnit) : (d.updUnit p f).diag = d.diag := rfl
@[simp] theorem Device.updUnit_time (d : Device) (p : Nat) (f : CUnit → CUnit) : (d.updUnit p f).time = d.time := rfl
@[simp] theorem Device.updUnit_tim (d : Device) (p : Nat) (f : CUnit → CUnit) : (d.updUnit p f).tim = d.tim := rfl
@[simp] theorem Device.updUnit_jobs (d : Device) (p : Nat) (f : CUnit → CUnit) : (d.updUnit p f).jobs = d.jobs := rfl
@[simp] theorem Device.updUnit_pwr (d : Device) (p : Nat) (f : CUnit → CUnit) : (d.updUnit p f).pwr = d.pwr := rfl
@[simp] theorem Device.updUnit_clusters (d : Device) (p : Nat) (f : CUnit → CUnit) : (d.updUnit p f).clusters = d.clusters := rfl
@[simp] theorem Device.updUnit_memsys (d : Device) (p : Nat) (f : CUnit → CUnit) : (d.updUnit p f).memsys = d.memsys := rfl
@[simp] theorem Device.updUnit_ing (d : Device) (p : Nat) (f : CUnit → CUnit) : (d.updUnit p f).ing = d.ing := rfl
@[simp] theorem Device.updUnit_sfe (d : Device) (p : Nat) (f : CUnit → CUnit) : (d.updUnit p f).sfe = d.sfe := rfl
@[simp] theorem Device.updUnit_vis (d : Device) (p : Nat) (f : CUnit → CUnit) : (d.updUnit p f).vis = d.vis := rfl
@[simp] theorem Device.updUnit_grid (d : Device) (p : Nat) (f : CUnit → CUnit) : (d.updUnit p f).grid = d.grid := rfl
@[simp] theorem Device.updUnit_slv (d : Device) (p : Nat) (f : CUnit → CUnit) : (d.updUnit p f).slv = d.slv := rfl
@[simp] theorem Device.updUnit_loc (d : Device) (p : Nat) (f : CUnit → CUnit) : (d.updUnit p f).loc = d.loc := rfl
@[simp] theorem Device.updUnit_map (d : Device) (p : Nat) (f : CUnit → CUnit) : (d.updUnit p f).map = d.map := rfl
@[simp] theorem Device.updUnit_prs (d : Device) (p : Nat) (f : CUnit → CUnit) : (d.updUnit p f).prs = d.prs := rfl
@[simp] theorem Device.updUnit_out (d : Device) (p : Nat) (f : CUnit → CUnit) : (d.updUnit p f).out = d.out := rfl
@[simp] theorem Device.updUnit_st (d : Device) (p : Nat) (f : CUnit → CUnit) : (d.updUnit p f).st = d.st := rfl
@[simp] theorem Device.updUnit_sec (d : Device) (p : Nat) (f : CUnit → CUnit) : (d.updUnit p f).sec = d.sec := rfl
@[simp] theorem Device.updUnit_free (d : Device) (p : Nat) (f : CUnit → CUnit) : (d.updUnit p f).free = d.free := rfl

@[simp] theorem Device.updStream_fuse (d : Device) (k : Nat) (f : Stream → Stream) : (d.updStream k f).fuse = d.fuse := rfl
@[simp] theorem Device.updStream_pkg (d : Device) (k : Nat) (f : Stream → Stream) : (d.updStream k f).pkg = d.pkg := rfl
@[simp] theorem Device.updStream_boot (d : Device) (k : Nat) (f : Stream → Stream) : (d.updStream k f).boot = d.boot := rfl
@[simp] theorem Device.updStream_view (d : Device) (k : Nat) (f : Stream → Stream) : (d.updStream k f).view = d.view := rfl
@[simp] theorem Device.updStream_i3c (d : Device) (k : Nat) (f : Stream → Stream) : (d.updStream k f).i3c = d.i3c := rfl
@[simp] theorem Device.updStream_evt (d : Device) (k : Nat) (f : Stream → Stream) : (d.updStream k f).evt = d.evt := rfl
@[simp] theorem Device.updStream_mbx (d : Device) (k : Nat) (f : Stream → Stream) : (d.updStream k f).mbx = d.mbx := rfl
@[simp] theorem Device.updStream_diag (d : Device) (k : Nat) (f : Stream → Stream) : (d.updStream k f).diag = d.diag := rfl
@[simp] theorem Device.updStream_time (d : Device) (k : Nat) (f : Stream → Stream) : (d.updStream k f).time = d.time := rfl
@[simp] theorem Device.updStream_tim (d : Device) (k : Nat) (f : Stream → Stream) : (d.updStream k f).tim = d.tim := rfl
@[simp] theorem Device.updStream_jobs (d : Device) (k : Nat) (f : Stream → Stream) : (d.updStream k f).jobs = d.jobs := rfl
@[simp] theorem Device.updStream_pwr (d : Device) (k : Nat) (f : Stream → Stream) : (d.updStream k f).pwr = d.pwr := rfl
@[simp] theorem Device.updStream_units (d : Device) (k : Nat) (f : Stream → Stream) : (d.updStream k f).units = d.units := rfl
@[simp] theorem Device.updStream_clusters (d : Device) (k : Nat) (f : Stream → Stream) : (d.updStream k f).clusters = d.clusters := rfl
@[simp] theorem Device.updStream_memsys (d : Device) (k : Nat) (f : Stream → Stream) : (d.updStream k f).memsys = d.memsys := rfl
@[simp] theorem Device.updStream_sfe (d : Device) (k : Nat) (f : Stream → Stream) : (d.updStream k f).sfe = d.sfe := rfl
@[simp] theorem Device.updStream_vis (d : Device) (k : Nat) (f : Stream → Stream) : (d.updStream k f).vis = d.vis := rfl
@[simp] theorem Device.updStream_grid (d : Device) (k : Nat) (f : Stream → Stream) : (d.updStream k f).grid = d.grid := rfl
@[simp] theorem Device.updStream_slv (d : Device) (k : Nat) (f : Stream → Stream) : (d.updStream k f).slv = d.slv := rfl
@[simp] theorem Device.updStream_loc (d : Device) (k : Nat) (f : Stream → Stream) : (d.updStream k f).loc = d.loc := rfl
@[simp] theorem Device.updStream_map (d : Device) (k : Nat) (f : Stream → Stream) : (d.updStream k f).map = d.map := rfl
@[simp] theorem Device.updStream_prs (d : Device) (k : Nat) (f : Stream → Stream) : (d.updStream k f).prs = d.prs := rfl
@[simp] theorem Device.updStream_out (d : Device) (k : Nat) (f : Stream → Stream) : (d.updStream k f).out = d.out := rfl
@[simp] theorem Device.updStream_st (d : Device) (k : Nat) (f : Stream → Stream) : (d.updStream k f).st = d.st := rfl
@[simp] theorem Device.updStream_sec (d : Device) (k : Nat) (f : Stream → Stream) : (d.updStream k f).sec = d.sec := rfl
@[simp] theorem Device.updStream_free (d : Device) (k : Nat) (f : Stream → Stream) : (d.updStream k f).free = d.free := rfl

@[simp] theorem Device.updSfe_fuse (d : Device) (k : Nat) (f : SfeStream → SfeStream) : (d.updSfe k f).fuse = d.fuse := rfl
@[simp] theorem Device.updSfe_pkg (d : Device) (k : Nat) (f : SfeStream → SfeStream) : (d.updSfe k f).pkg = d.pkg := rfl
@[simp] theorem Device.updSfe_boot (d : Device) (k : Nat) (f : SfeStream → SfeStream) : (d.updSfe k f).boot = d.boot := rfl
@[simp] theorem Device.updSfe_view (d : Device) (k : Nat) (f : SfeStream → SfeStream) : (d.updSfe k f).view = d.view := rfl
@[simp] theorem Device.updSfe_i3c (d : Device) (k : Nat) (f : SfeStream → SfeStream) : (d.updSfe k f).i3c = d.i3c := rfl
@[simp] theorem Device.updSfe_evt (d : Device) (k : Nat) (f : SfeStream → SfeStream) : (d.updSfe k f).evt = d.evt := rfl
@[simp] theorem Device.updSfe_mbx (d : Device) (k : Nat) (f : SfeStream → SfeStream) : (d.updSfe k f).mbx = d.mbx := rfl
@[simp] theorem Device.updSfe_diag (d : Device) (k : Nat) (f : SfeStream → SfeStream) : (d.updSfe k f).diag = d.diag := rfl
@[simp] theorem Device.updSfe_time (d : Device) (k : Nat) (f : SfeStream → SfeStream) : (d.updSfe k f).time = d.time := rfl
@[simp] theorem Device.updSfe_tim (d : Device) (k : Nat) (f : SfeStream → SfeStream) : (d.updSfe k f).tim = d.tim := rfl
@[simp] theorem Device.updSfe_jobs (d : Device) (k : Nat) (f : SfeStream → SfeStream) : (d.updSfe k f).jobs = d.jobs := rfl
@[simp] theorem Device.updSfe_pwr (d : Device) (k : Nat) (f : SfeStream → SfeStream) : (d.updSfe k f).pwr = d.pwr := rfl
@[simp] theorem Device.updSfe_units (d : Device) (k : Nat) (f : SfeStream → SfeStream) : (d.updSfe k f).units = d.units := rfl
@[simp] theorem Device.updSfe_clusters (d : Device) (k : Nat) (f : SfeStream → SfeStream) : (d.updSfe k f).clusters = d.clusters := rfl
@[simp] theorem Device.updSfe_memsys (d : Device) (k : Nat) (f : SfeStream → SfeStream) : (d.updSfe k f).memsys = d.memsys := rfl
@[simp] theorem Device.updSfe_ing (d : Device) (k : Nat) (f : SfeStream → SfeStream) : (d.updSfe k f).ing = d.ing := rfl
@[simp] theorem Device.updSfe_vis (d : Device) (k : Nat) (f : SfeStream → SfeStream) : (d.updSfe k f).vis = d.vis := rfl
@[simp] theorem Device.updSfe_grid (d : Device) (k : Nat) (f : SfeStream → SfeStream) : (d.updSfe k f).grid = d.grid := rfl
@[simp] theorem Device.updSfe_slv (d : Device) (k : Nat) (f : SfeStream → SfeStream) : (d.updSfe k f).slv = d.slv := rfl
@[simp] theorem Device.updSfe_loc (d : Device) (k : Nat) (f : SfeStream → SfeStream) : (d.updSfe k f).loc = d.loc := rfl
@[simp] theorem Device.updSfe_map (d : Device) (k : Nat) (f : SfeStream → SfeStream) : (d.updSfe k f).map = d.map := rfl
@[simp] theorem Device.updSfe_prs (d : Device) (k : Nat) (f : SfeStream → SfeStream) : (d.updSfe k f).prs = d.prs := rfl
@[simp] theorem Device.updSfe_out (d : Device) (k : Nat) (f : SfeStream → SfeStream) : (d.updSfe k f).out = d.out := rfl
@[simp] theorem Device.updSfe_st (d : Device) (k : Nat) (f : SfeStream → SfeStream) : (d.updSfe k f).st = d.st := rfl
@[simp] theorem Device.updSfe_sec (d : Device) (k : Nat) (f : SfeStream → SfeStream) : (d.updSfe k f).sec = d.sec := rfl
@[simp] theorem Device.updSfe_free (d : Device) (k : Nat) (f : SfeStream → SfeStream) : (d.updSfe k f).free = d.free := rfl

@[simp] theorem Device.updSlv_fuse (d : Device) (k l : Nat) (f : SlvSlot → SlvSlot) : (d.updSlv k l f).fuse = d.fuse := rfl
@[simp] theorem Device.updSlv_pkg (d : Device) (k l : Nat) (f : SlvSlot → SlvSlot) : (d.updSlv k l f).pkg = d.pkg := rfl
@[simp] theorem Device.updSlv_boot (d : Device) (k l : Nat) (f : SlvSlot → SlvSlot) : (d.updSlv k l f).boot = d.boot := rfl
@[simp] theorem Device.updSlv_view (d : Device) (k l : Nat) (f : SlvSlot → SlvSlot) : (d.updSlv k l f).view = d.view := rfl
@[simp] theorem Device.updSlv_i3c (d : Device) (k l : Nat) (f : SlvSlot → SlvSlot) : (d.updSlv k l f).i3c = d.i3c := rfl
@[simp] theorem Device.updSlv_evt (d : Device) (k l : Nat) (f : SlvSlot → SlvSlot) : (d.updSlv k l f).evt = d.evt := rfl
@[simp] theorem Device.updSlv_mbx (d : Device) (k l : Nat) (f : SlvSlot → SlvSlot) : (d.updSlv k l f).mbx = d.mbx := rfl
@[simp] theorem Device.updSlv_diag (d : Device) (k l : Nat) (f : SlvSlot → SlvSlot) : (d.updSlv k l f).diag = d.diag := rfl
@[simp] theorem Device.updSlv_time (d : Device) (k l : Nat) (f : SlvSlot → SlvSlot) : (d.updSlv k l f).time = d.time := rfl
@[simp] theorem Device.updSlv_tim (d : Device) (k l : Nat) (f : SlvSlot → SlvSlot) : (d.updSlv k l f).tim = d.tim := rfl
@[simp] theorem Device.updSlv_jobs (d : Device) (k l : Nat) (f : SlvSlot → SlvSlot) : (d.updSlv k l f).jobs = d.jobs := rfl
@[simp] theorem Device.updSlv_pwr (d : Device) (k l : Nat) (f : SlvSlot → SlvSlot) : (d.updSlv k l f).pwr = d.pwr := rfl
@[simp] theorem Device.updSlv_units (d : Device) (k l : Nat) (f : SlvSlot → SlvSlot) : (d.updSlv k l f).units = d.units := rfl
@[simp] theorem Device.updSlv_clusters (d : Device) (k l : Nat) (f : SlvSlot → SlvSlot) : (d.updSlv k l f).clusters = d.clusters := rfl
@[simp] theorem Device.updSlv_memsys (d : Device) (k l : Nat) (f : SlvSlot → SlvSlot) : (d.updSlv k l f).memsys = d.memsys := rfl
@[simp] theorem Device.updSlv_ing (d : Device) (k l : Nat) (f : SlvSlot → SlvSlot) : (d.updSlv k l f).ing = d.ing := rfl
@[simp] theorem Device.updSlv_sfe (d : Device) (k l : Nat) (f : SlvSlot → SlvSlot) : (d.updSlv k l f).sfe = d.sfe := rfl
@[simp] theorem Device.updSlv_vis (d : Device) (k l : Nat) (f : SlvSlot → SlvSlot) : (d.updSlv k l f).vis = d.vis := rfl
@[simp] theorem Device.updSlv_grid (d : Device) (k l : Nat) (f : SlvSlot → SlvSlot) : (d.updSlv k l f).grid = d.grid := rfl
@[simp] theorem Device.updSlv_loc (d : Device) (k l : Nat) (f : SlvSlot → SlvSlot) : (d.updSlv k l f).loc = d.loc := rfl
@[simp] theorem Device.updSlv_map (d : Device) (k l : Nat) (f : SlvSlot → SlvSlot) : (d.updSlv k l f).map = d.map := rfl
@[simp] theorem Device.updSlv_prs (d : Device) (k l : Nat) (f : SlvSlot → SlvSlot) : (d.updSlv k l f).prs = d.prs := rfl
@[simp] theorem Device.updSlv_out (d : Device) (k l : Nat) (f : SlvSlot → SlvSlot) : (d.updSlv k l f).out = d.out := rfl
@[simp] theorem Device.updSlv_st (d : Device) (k l : Nat) (f : SlvSlot → SlvSlot) : (d.updSlv k l f).st = d.st := rfl
@[simp] theorem Device.updSlv_sec (d : Device) (k l : Nat) (f : SlvSlot → SlvSlot) : (d.updSlv k l f).sec = d.sec := rfl
@[simp] theorem Device.updSlv_free (d : Device) (k l : Nat) (f : SlvSlot → SlvSlot) : (d.updSlv k l f).free = d.free := rfl

@[simp] theorem Device.setTx_fuse (d : Device) (p : Nat) (x : TxPort) : (d.setTx p x).fuse = d.fuse := rfl
@[simp] theorem Device.setTx_pkg (d : Device) (p : Nat) (x : TxPort) : (d.setTx p x).pkg = d.pkg := rfl
@[simp] theorem Device.setTx_boot (d : Device) (p : Nat) (x : TxPort) : (d.setTx p x).boot = d.boot := rfl
@[simp] theorem Device.setTx_view (d : Device) (p : Nat) (x : TxPort) : (d.setTx p x).view = d.view := rfl
@[simp] theorem Device.setTx_i3c (d : Device) (p : Nat) (x : TxPort) : (d.setTx p x).i3c = d.i3c := rfl
@[simp] theorem Device.setTx_evt (d : Device) (p : Nat) (x : TxPort) : (d.setTx p x).evt = d.evt := rfl
@[simp] theorem Device.setTx_mbx (d : Device) (p : Nat) (x : TxPort) : (d.setTx p x).mbx = d.mbx := rfl
@[simp] theorem Device.setTx_diag (d : Device) (p : Nat) (x : TxPort) : (d.setTx p x).diag = d.diag := rfl
@[simp] theorem Device.setTx_time (d : Device) (p : Nat) (x : TxPort) : (d.setTx p x).time = d.time := rfl
@[simp] theorem Device.setTx_tim (d : Device) (p : Nat) (x : TxPort) : (d.setTx p x).tim = d.tim := rfl
@[simp] theorem Device.setTx_jobs (d : Device) (p : Nat) (x : TxPort) : (d.setTx p x).jobs = d.jobs := rfl
@[simp] theorem Device.setTx_pwr (d : Device) (p : Nat) (x : TxPort) : (d.setTx p x).pwr = d.pwr := rfl
@[simp] theorem Device.setTx_units (d : Device) (p : Nat) (x : TxPort) : (d.setTx p x).units = d.units := rfl
@[simp] theorem Device.setTx_clusters (d : Device) (p : Nat) (x : TxPort) : (d.setTx p x).clusters = d.clusters := rfl
@[simp] theorem Device.setTx_memsys (d : Device) (p : Nat) (x : TxPort) : (d.setTx p x).memsys = d.memsys := rfl
@[simp] theorem Device.setTx_ing (d : Device) (p : Nat) (x : TxPort) : (d.setTx p x).ing = d.ing := rfl
@[simp] theorem Device.setTx_sfe (d : Device) (p : Nat) (x : TxPort) : (d.setTx p x).sfe = d.sfe := rfl
@[simp] theorem Device.setTx_vis (d : Device) (p : Nat) (x : TxPort) : (d.setTx p x).vis = d.vis := rfl
@[simp] theorem Device.setTx_grid (d : Device) (p : Nat) (x : TxPort) : (d.setTx p x).grid = d.grid := rfl
@[simp] theorem Device.setTx_slv (d : Device) (p : Nat) (x : TxPort) : (d.setTx p x).slv = d.slv := rfl
@[simp] theorem Device.setTx_loc (d : Device) (p : Nat) (x : TxPort) : (d.setTx p x).loc = d.loc := rfl
@[simp] theorem Device.setTx_map (d : Device) (p : Nat) (x : TxPort) : (d.setTx p x).map = d.map := rfl
@[simp] theorem Device.setTx_prs (d : Device) (p : Nat) (x : TxPort) : (d.setTx p x).prs = d.prs := rfl
@[simp] theorem Device.setTx_st (d : Device) (p : Nat) (x : TxPort) : (d.setTx p x).st = d.st := rfl
@[simp] theorem Device.setTx_sec (d : Device) (p : Nat) (x : TxPort) : (d.setTx p x).sec = d.sec := rfl
@[simp] theorem Device.setTx_free (d : Device) (p : Nat) (x : TxPort) : (d.setTx p x).free = d.free := rfl

@[simp] theorem Device.setRoute_fuse (d : Device) (dt p : Nat) (x : Route) : (d.setRoute dt p x).fuse = d.fuse := rfl
@[simp] theorem Device.setRoute_pkg (d : Device) (dt p : Nat) (x : Route) : (d.setRoute dt p x).pkg = d.pkg := rfl
@[simp] theorem Device.setRoute_boot (d : Device) (dt p : Nat) (x : Route) : (d.setRoute dt p x).boot = d.boot := rfl
@[simp] theorem Device.setRoute_view (d : Device) (dt p : Nat) (x : Route) : (d.setRoute dt p x).view = d.view := rfl
@[simp] theorem Device.setRoute_i3c (d : Device) (dt p : Nat) (x : Route) : (d.setRoute dt p x).i3c = d.i3c := rfl
@[simp] theorem Device.setRoute_evt (d : Device) (dt p : Nat) (x : Route) : (d.setRoute dt p x).evt = d.evt := rfl
@[simp] theorem Device.setRoute_mbx (d : Device) (dt p : Nat) (x : Route) : (d.setRoute dt p x).mbx = d.mbx := rfl
@[simp] theorem Device.setRoute_diag (d : Device) (dt p : Nat) (x : Route) : (d.setRoute dt p x).diag = d.diag := rfl
@[simp] theorem Device.setRoute_time (d : Device) (dt p : Nat) (x : Route) : (d.setRoute dt p x).time = d.time := rfl
@[simp] theorem Device.setRoute_tim (d : Device) (dt p : Nat) (x : Route) : (d.setRoute dt p x).tim = d.tim := rfl
@[simp] theorem Device.setRoute_jobs (d : Device) (dt p : Nat) (x : Route) : (d.setRoute dt p x).jobs = d.jobs := rfl
@[simp] theorem Device.setRoute_pwr (d : Device) (dt p : Nat) (x : Route) : (d.setRoute dt p x).pwr = d.pwr := rfl
@[simp] theorem Device.setRoute_units (d : Device) (dt p : Nat) (x : Route) : (d.setRoute dt p x).units = d.units := rfl
@[simp] theorem Device.setRoute_clusters (d : Device) (dt p : Nat) (x : Route) : (d.setRoute dt p x).clusters = d.clusters := rfl
@[simp] theorem Device.setRoute_memsys (d : Device) (dt p : Nat) (x : Route) : (d.setRoute dt p x).memsys = d.memsys := rfl
@[simp] theorem Device.setRoute_ing (d : Device) (dt p : Nat) (x : Route) : (d.setRoute dt p x).ing = d.ing := rfl
@[simp] theorem Device.setRoute_sfe (d : Device) (dt p : Nat) (x : Route) : (d.setRoute dt p x).sfe = d.sfe := rfl
@[simp] theorem Device.setRoute_vis (d : Device) (dt p : Nat) (x : Route) : (d.setRoute dt p x).vis = d.vis := rfl
@[simp] theorem Device.setRoute_grid (d : Device) (dt p : Nat) (x : Route) : (d.setRoute dt p x).grid = d.grid := rfl
@[simp] theorem Device.setRoute_slv (d : Device) (dt p : Nat) (x : Route) : (d.setRoute dt p x).slv = d.slv := rfl
@[simp] theorem Device.setRoute_loc (d : Device) (dt p : Nat) (x : Route) : (d.setRoute dt p x).loc = d.loc := rfl
@[simp] theorem Device.setRoute_map (d : Device) (dt p : Nat) (x : Route) : (d.setRoute dt p x).map = d.map := rfl
@[simp] theorem Device.setRoute_prs (d : Device) (dt p : Nat) (x : Route) : (d.setRoute dt p x).prs = d.prs := rfl
@[simp] theorem Device.setRoute_st (d : Device) (dt p : Nat) (x : Route) : (d.setRoute dt p x).st = d.st := rfl
@[simp] theorem Device.setRoute_sec (d : Device) (dt p : Nat) (x : Route) : (d.setRoute dt p x).sec = d.sec := rfl
@[simp] theorem Device.setRoute_free (d : Device) (dt p : Nat) (x : Route) : (d.setRoute dt p x).free = d.free := rfl

@[simp] theorem Device.setGuide_fuse (d : Device) (g : Guide) : (d.setGuide g).fuse = d.fuse := rfl
@[simp] theorem Device.setGuide_pkg (d : Device) (g : Guide) : (d.setGuide g).pkg = d.pkg := rfl
@[simp] theorem Device.setGuide_boot (d : Device) (g : Guide) : (d.setGuide g).boot = d.boot := rfl
@[simp] theorem Device.setGuide_view (d : Device) (g : Guide) : (d.setGuide g).view = d.view := rfl
@[simp] theorem Device.setGuide_i3c (d : Device) (g : Guide) : (d.setGuide g).i3c = d.i3c := rfl
@[simp] theorem Device.setGuide_evt (d : Device) (g : Guide) : (d.setGuide g).evt = d.evt := rfl
@[simp] theorem Device.setGuide_mbx (d : Device) (g : Guide) : (d.setGuide g).mbx = d.mbx := rfl
@[simp] theorem Device.setGuide_diag (d : Device) (g : Guide) : (d.setGuide g).diag = d.diag := rfl
@[simp] theorem Device.setGuide_time (d : Device) (g : Guide) : (d.setGuide g).time = d.time := rfl
@[simp] theorem Device.setGuide_tim (d : Device) (g : Guide) : (d.setGuide g).tim = d.tim := rfl
@[simp] theorem Device.setGuide_jobs (d : Device) (g : Guide) : (d.setGuide g).jobs = d.jobs := rfl
@[simp] theorem Device.setGuide_pwr (d : Device) (g : Guide) : (d.setGuide g).pwr = d.pwr := rfl
@[simp] theorem Device.setGuide_units (d : Device) (g : Guide) : (d.setGuide g).units = d.units := rfl
@[simp] theorem Device.setGuide_clusters (d : Device) (g : Guide) : (d.setGuide g).clusters = d.clusters := rfl
@[simp] theorem Device.setGuide_memsys (d : Device) (g : Guide) : (d.setGuide g).memsys = d.memsys := rfl
@[simp] theorem Device.setGuide_ing (d : Device) (g : Guide) : (d.setGuide g).ing = d.ing := rfl
@[simp] theorem Device.setGuide_sfe (d : Device) (g : Guide) : (d.setGuide g).sfe = d.sfe := rfl
@[simp] theorem Device.setGuide_vis (d : Device) (g : Guide) : (d.setGuide g).vis = d.vis := rfl
@[simp] theorem Device.setGuide_grid (d : Device) (g : Guide) : (d.setGuide g).grid = d.grid := rfl
@[simp] theorem Device.setGuide_slv (d : Device) (g : Guide) : (d.setGuide g).slv = d.slv := rfl
@[simp] theorem Device.setGuide_loc (d : Device) (g : Guide) : (d.setGuide g).loc = d.loc := rfl
@[simp] theorem Device.setGuide_map (d : Device) (g : Guide) : (d.setGuide g).map = d.map := rfl
@[simp] theorem Device.setGuide_prs (d : Device) (g : Guide) : (d.setGuide g).prs = d.prs := rfl
@[simp] theorem Device.setGuide_st (d : Device) (g : Guide) : (d.setGuide g).st = d.st := rfl
@[simp] theorem Device.setGuide_sec (d : Device) (g : Guide) : (d.setGuide g).sec = d.sec := rfl
@[simp] theorem Device.setGuide_free (d : Device) (g : Guide) : (d.setGuide g).free = d.free := rfl

@[simp] theorem Device.setIndex_fuse (d : Device) (i : Nat) (x : PrsIndex) : (d.setIndex i x).fuse = d.fuse := rfl
@[simp] theorem Device.setIndex_pkg (d : Device) (i : Nat) (x : PrsIndex) : (d.setIndex i x).pkg = d.pkg := rfl
@[simp] theorem Device.setIndex_boot (d : Device) (i : Nat) (x : PrsIndex) : (d.setIndex i x).boot = d.boot := rfl
@[simp] theorem Device.setIndex_view (d : Device) (i : Nat) (x : PrsIndex) : (d.setIndex i x).view = d.view := rfl
@[simp] theorem Device.setIndex_i3c (d : Device) (i : Nat) (x : PrsIndex) : (d.setIndex i x).i3c = d.i3c := rfl
@[simp] theorem Device.setIndex_evt (d : Device) (i : Nat) (x : PrsIndex) : (d.setIndex i x).evt = d.evt := rfl
@[simp] theorem Device.setIndex_mbx (d : Device) (i : Nat) (x : PrsIndex) : (d.setIndex i x).mbx = d.mbx := rfl
@[simp] theorem Device.setIndex_diag (d : Device) (i : Nat) (x : PrsIndex) : (d.setIndex i x).diag = d.diag := rfl
@[simp] theorem Device.setIndex_time (d : Device) (i : Nat) (x : PrsIndex) : (d.setIndex i x).time = d.time := rfl
@[simp] theorem Device.setIndex_tim (d : Device) (i : Nat) (x : PrsIndex) : (d.setIndex i x).tim = d.tim := rfl
@[simp] theorem Device.setIndex_jobs (d : Device) (i : Nat) (x : PrsIndex) : (d.setIndex i x).jobs = d.jobs := rfl
@[simp] theorem Device.setIndex_pwr (d : Device) (i : Nat) (x : PrsIndex) : (d.setIndex i x).pwr = d.pwr := rfl
@[simp] theorem Device.setIndex_units (d : Device) (i : Nat) (x : PrsIndex) : (d.setIndex i x).units = d.units := rfl
@[simp] theorem Device.setIndex_clusters (d : Device) (i : Nat) (x : PrsIndex) : (d.setIndex i x).clusters = d.clusters := rfl
@[simp] theorem Device.setIndex_memsys (d : Device) (i : Nat) (x : PrsIndex) : (d.setIndex i x).memsys = d.memsys := rfl
@[simp] theorem Device.setIndex_ing (d : Device) (i : Nat) (x : PrsIndex) : (d.setIndex i x).ing = d.ing := rfl
@[simp] theorem Device.setIndex_sfe (d : Device) (i : Nat) (x : PrsIndex) : (d.setIndex i x).sfe = d.sfe := rfl
@[simp] theorem Device.setIndex_vis (d : Device) (i : Nat) (x : PrsIndex) : (d.setIndex i x).vis = d.vis := rfl
@[simp] theorem Device.setIndex_grid (d : Device) (i : Nat) (x : PrsIndex) : (d.setIndex i x).grid = d.grid := rfl
@[simp] theorem Device.setIndex_slv (d : Device) (i : Nat) (x : PrsIndex) : (d.setIndex i x).slv = d.slv := rfl
@[simp] theorem Device.setIndex_loc (d : Device) (i : Nat) (x : PrsIndex) : (d.setIndex i x).loc = d.loc := rfl
@[simp] theorem Device.setIndex_map (d : Device) (i : Nat) (x : PrsIndex) : (d.setIndex i x).map = d.map := rfl
@[simp] theorem Device.setIndex_out (d : Device) (i : Nat) (x : PrsIndex) : (d.setIndex i x).out = d.out := rfl
@[simp] theorem Device.setIndex_st (d : Device) (i : Nat) (x : PrsIndex) : (d.setIndex i x).st = d.st := rfl
@[simp] theorem Device.setIndex_sec (d : Device) (i : Nat) (x : PrsIndex) : (d.setIndex i x).sec = d.sec := rfl
@[simp] theorem Device.setIndex_free (d : Device) (i : Nat) (x : PrsIndex) : (d.setIndex i x).free = d.free := rfl

@[simp] theorem Device.setStRun_fuse (d : Device) (h : Nat) (x : StRun) : (d.setStRun h x).fuse = d.fuse := rfl
@[simp] theorem Device.setStRun_pkg (d : Device) (h : Nat) (x : StRun) : (d.setStRun h x).pkg = d.pkg := rfl
@[simp] theorem Device.setStRun_boot (d : Device) (h : Nat) (x : StRun) : (d.setStRun h x).boot = d.boot := rfl
@[simp] theorem Device.setStRun_view (d : Device) (h : Nat) (x : StRun) : (d.setStRun h x).view = d.view := rfl
@[simp] theorem Device.setStRun_i3c (d : Device) (h : Nat) (x : StRun) : (d.setStRun h x).i3c = d.i3c := rfl
@[simp] theorem Device.setStRun_evt (d : Device) (h : Nat) (x : StRun) : (d.setStRun h x).evt = d.evt := rfl
@[simp] theorem Device.setStRun_mbx (d : Device) (h : Nat) (x : StRun) : (d.setStRun h x).mbx = d.mbx := rfl
@[simp] theorem Device.setStRun_diag (d : Device) (h : Nat) (x : StRun) : (d.setStRun h x).diag = d.diag := rfl
@[simp] theorem Device.setStRun_time (d : Device) (h : Nat) (x : StRun) : (d.setStRun h x).time = d.time := rfl
@[simp] theorem Device.setStRun_tim (d : Device) (h : Nat) (x : StRun) : (d.setStRun h x).tim = d.tim := rfl
@[simp] theorem Device.setStRun_jobs (d : Device) (h : Nat) (x : StRun) : (d.setStRun h x).jobs = d.jobs := rfl
@[simp] theorem Device.setStRun_pwr (d : Device) (h : Nat) (x : StRun) : (d.setStRun h x).pwr = d.pwr := rfl
@[simp] theorem Device.setStRun_units (d : Device) (h : Nat) (x : StRun) : (d.setStRun h x).units = d.units := rfl
@[simp] theorem Device.setStRun_clusters (d : Device) (h : Nat) (x : StRun) : (d.setStRun h x).clusters = d.clusters := rfl
@[simp] theorem Device.setStRun_memsys (d : Device) (h : Nat) (x : StRun) : (d.setStRun h x).memsys = d.memsys := rfl
@[simp] theorem Device.setStRun_ing (d : Device) (h : Nat) (x : StRun) : (d.setStRun h x).ing = d.ing := rfl
@[simp] theorem Device.setStRun_sfe (d : Device) (h : Nat) (x : StRun) : (d.setStRun h x).sfe = d.sfe := rfl
@[simp] theorem Device.setStRun_vis (d : Device) (h : Nat) (x : StRun) : (d.setStRun h x).vis = d.vis := rfl
@[simp] theorem Device.setStRun_grid (d : Device) (h : Nat) (x : StRun) : (d.setStRun h x).grid = d.grid := rfl
@[simp] theorem Device.setStRun_slv (d : Device) (h : Nat) (x : StRun) : (d.setStRun h x).slv = d.slv := rfl
@[simp] theorem Device.setStRun_loc (d : Device) (h : Nat) (x : StRun) : (d.setStRun h x).loc = d.loc := rfl
@[simp] theorem Device.setStRun_map (d : Device) (h : Nat) (x : StRun) : (d.setStRun h x).map = d.map := rfl
@[simp] theorem Device.setStRun_prs (d : Device) (h : Nat) (x : StRun) : (d.setStRun h x).prs = d.prs := rfl
@[simp] theorem Device.setStRun_out (d : Device) (h : Nat) (x : StRun) : (d.setStRun h x).out = d.out := rfl
@[simp] theorem Device.setStRun_sec (d : Device) (h : Nat) (x : StRun) : (d.setStRun h x).sec = d.sec := rfl
@[simp] theorem Device.setStRun_free (d : Device) (h : Nat) (x : StRun) : (d.setStRun h x).free = d.free := rfl

@[simp] theorem State.withDev_dev (s : State) (d : Device) : (s.withDev d).dev = d := rfl
@[simp] theorem State.withDev_mem (s : State) (d : Device) : (s.withDev d).mem = s.mem := rfl
@[simp] theorem State.withDev_pending (s : State) (d : Device) : (s.withDev d).pending = s.pending := rfl
@[simp] theorem State.withAll_dev (s : State) (d : Device) (m : Store) : (s.withAll d m).dev = d := rfl
@[simp] theorem State.withAll_mem (s : State) (d : Device) (m : Store) : (s.withAll d m).mem = m := rfl
@[simp] theorem State.withAll_pending (s : State) (d : Device) (m : Store) : (s.withAll d m).pending = s.pending := rfl
@[simp] theorem State.answered_mem (s : State) (ch : Fin 8) (r : Request) (d : Device) (a : Reply) :
    (s.answered ch r d a).mem = s.mem := rfl
@[simp] theorem State.answered_pending (s : State) (ch : Fin 8) (r : Request) (d : Device) (a : Reply) :
    (s.answered ch r d a).pending = s.pending := rfl

end Sys2Proof.Machine
end

