-- ==== Sys2Proof/Laws/Tables.lean ====
section
/-! SUPPORT. Laws of sparse tables: what is put is looked up, other keys keep their entries. They hold of any table. -/

namespace Sys2Proof.Machine

theorem Tbl.look_nil {α : Type} (k : Nat) : Tbl.look ([] : Tbl α) k = none := rfl

theorem Tbl.look_cons {α : Type} (j : Nat) (w : α) (t : Tbl α) (k : Nat) :
    Tbl.look ((j, w) :: t) k = if j = k then some w else Tbl.look t k := by
  by_cases h : j = k
  · simp [Tbl.look, List.find?, h]
  · have : (j == k) = false := by simp [h]
    simp [Tbl.look, List.find?, this, h]

@[simp] theorem Tbl.look_put_same {α : Type} (t : Tbl α) (k : Nat) (v : α) : (t.put k v).look k = some v := by
  induction t with
  | nil => simp [Tbl.put, Tbl.look_cons]
  | cons e t ih =>
    obtain ⟨j, w⟩ := e
    simp only [Tbl.put]
    split
    · simp [Tbl.look_cons]
    · split
      · simp [Tbl.look_cons]
      · rw [Tbl.look_cons, if_neg (by omega), ih]

theorem Tbl.look_put_other {α : Type} (t : Tbl α) (k j : Nat) (v : α) (h : j ≠ k) : (t.put k v).look j = t.look j := by
  induction t with
  | nil => simp [Tbl.put, Tbl.look_cons, Tbl.look_nil, Ne.symm h]
  | cons e t ih =>
    obtain ⟨i, w⟩ := e
    simp only [Tbl.put]
    split
    · rw [Tbl.look_cons, if_neg (Ne.symm h)]
    · split
      · next hk => subst hk; simp [Tbl.look_cons, Ne.symm h]
      · simp [Tbl.look_cons, ih]

@[simp] theorem Tbl.getD_put_same {α : Type} (t : Tbl α) (k : Nat) (v d : α) : (t.put k v).getD k d = v := by
  simp [Tbl.getD]

theorem Tbl.getD_put_other {α : Type} (t : Tbl α) (k j : Nat) (v d : α) (h : j ≠ k) :
    (t.put k v).getD j d = t.getD j d := by
  simp [Tbl.getD, Tbl.look_put_other t k j v h]

@[simp] theorem Tbl.getD_upd_same {α : Type} (t : Tbl α) (k : Nat) (d : α) (f : α → α) :
    (t.upd k d f).getD k d = f (t.getD k d) := by
  simp [Tbl.upd]

@[simp] theorem Tbl.look_del_same {α : Type} (t : Tbl α) (k : Nat) : (t.del k).look k = none := by
  induction t with
  | nil => rfl
  | cons e t ih =>
    by_cases h : e.1 = k
    · simpa [Tbl.del, h] using ih
    · have : (e.1 == k) = false := by simp [h]
      simp only [Tbl.del, Tbl.look, List.filter, bne, this, Bool.not_false, List.find?] at ih ⊢
      exact ih

theorem Tbl.look_del_other {α : Type} (t : Tbl α) (k j : Nat) (h : j ≠ k) : (t.del k).look j = t.look j := by
  induction t with
  | nil => rfl
  | cons e t ih =>
    obtain ⟨i, w⟩ := e
    by_cases hi : i = k
    · subst hi
      have : Tbl.del ((i, w) :: t) i = Tbl.del t i := by simp [Tbl.del]
      rw [this, ih, Tbl.look_cons, if_neg (Ne.symm h)]
    · have : Tbl.del ((i, w) :: t) k = (i, w) :: Tbl.del t k := by simp [Tbl.del, hi]
      rw [this, Tbl.look_cons, Tbl.look_cons, ih]

end Sys2Proof.Machine
end

