-- ==== Sys2Proof/Laws/Ops.lean ====
section
/-! SUPPORT. What the shared operations can do, said once: which parts of the device they leave alone, what a command comes to
when its channel holds its request and when it does not, and what an answer leaves in its channel. -/

namespace Sys2Proof.Machine

@[simp] theorem Device.raiseIbi_fuse (d : Device) (b : Nat) : (d.raiseIbi b).fuse = d.fuse := by
  unfold Device.raiseIbi; split <;> rfl
@[simp] theorem Device.raiseIbi_pkg (d : Device) (b : Nat) : (d.raiseIbi b).pkg = d.pkg := by
  unfold Device.raiseIbi; split <;> rfl
@[simp] theorem Device.raiseIbi_boot (d : Device) (b : Nat) : (d.raiseIbi b).boot = d.boot := by
  unfold Device.raiseIbi; split <;> rfl
@[simp] theorem Device.raiseIbi_view (d : Device) (b : Nat) : (d.raiseIbi b).view = d.view := by
  unfold Device.raiseIbi; split <;> rfl
@[simp] theorem Device.raiseIbi_i3c (d : Device) (b : Nat) : (d.raiseIbi b).i3c = d.i3c := by
  unfold Device.raiseIbi; split <;> rfl
@[simp] theorem Device.raiseIbi_mbx (d : Device) (b : Nat) : (d.raiseIbi b).mbx = d.mbx := by
  unfold Device.raiseIbi; split <;> rfl
@[simp] theorem Device.raiseIbi_diag (d : Device) (b : Nat) : (d.raiseIbi b).diag = d.diag := by
  unfold Device.raiseIbi; split <;> rfl
@[simp] theorem Device.raiseIbi_time (d : Device) (b : Nat) : (d.raiseIbi b).time = d.time := by
  unfold Device.raiseIbi; split <;> rfl
@[simp] theorem Device.raiseIbi_tim (d : Device) (b : Nat) : (d.raiseIbi b).tim = d.tim := by
  unfold Device.raiseIbi; split <;> rfl
@[simp] theorem Device.raiseIbi_jobs (d : Device) (b : Nat) : (d.raiseIbi b).jobs = d.jobs := by
  unfold Device.raiseIbi; split <;> rfl
@[simp] theorem Device.raiseIbi_pwr (d : Device) (b : Nat) : (d.raiseIbi b).pwr = d.pwr := by
  unfold Device.raiseIbi; split <;> rfl
@[simp] theorem Device.raiseIbi_units (d : Device) (b : Nat) : (d.raiseIbi b).units = d.units := by
  unfold Device.raiseIbi; split <;> rfl
@[simp] theorem Device.raiseIbi_clusters (d : Device) (b : Nat) : (d.raiseIbi b).clusters = d.clusters := by
  unfold Device.raiseIbi; split <;> rfl
@[simp] theorem Device.raiseIbi_memsys (d : Device) (b : Nat) : (d.raiseIbi b).memsys = d.memsys := by
  unfold Device.raiseIbi; split <;> rfl
@[simp] theorem Device.raiseIbi_ing (d : Device) (b : Nat) : (d.raiseIbi b).ing = d.ing := by
  unfold Device.raiseIbi; split <;> rfl
@[simp] theorem Device.raiseIbi_sfe (d : Device) (b : Nat) : (d.raiseIbi b).sfe = d.sfe := by
  unfold Device.raiseIbi; split <;> rfl
@[simp] theorem Device.raiseIbi_vis (d : Device) (b : Nat) : (d.raiseIbi b).vis = d.vis := by
  unfold Device.raiseIbi; split <;> rfl
@[simp] theorem Device.raiseIbi_grid (d : Device) (b : Nat) : (d.raiseIbi b).grid = d.grid := by
  unfold Device.raiseIbi; split <;> rfl
@[simp] theorem Device.raiseIbi_slv (d : Device) (b : Nat) : (d.raiseIbi b).slv = d.slv := by
  unfold Device.raiseIbi; split <;> rfl
@[simp] theorem Device.raiseIbi_loc (d : Device) (b : Nat) : (d.raiseIbi b).loc = d.loc := by
  unfold Device.raiseIbi; split <;> rfl
@[simp] theorem Device.raiseIbi_map (d : Device) (b : Nat) : (d.raiseIbi b).map = d.map := by
  unfold Device.raiseIbi; split <;> rfl
@[simp] theorem Device.raiseIbi_prs (d : Device) (b : Nat) : (d.raiseIbi b).prs = d.prs := by
  unfold Device.raiseIbi; split <;> rfl
@[simp] theorem Device.raiseIbi_out (d : Device) (b : Nat) : (d.raiseIbi b).out = d.out := by
  unfold Device.raiseIbi; split <;> rfl
@[simp] theorem Device.raiseIbi_st (d : Device) (b : Nat) : (d.raiseIbi b).st = d.st := by
  unfold Device.raiseIbi; split <;> rfl
@[simp] theorem Device.raiseIbi_sec (d : Device) (b : Nat) : (d.raiseIbi b).sec = d.sec := by
  unfold Device.raiseIbi; split <;> rfl
@[simp] theorem Device.raiseIbi_free (d : Device) (b : Nat) : (d.raiseIbi b).free = d.free := by
  unfold Device.raiseIbi; split <;> rfl

@[simp] theorem Device.setCause_fuse (d : Device) (b : Nat) : (d.setCause b).fuse = d.fuse := by
  simp only [Device.setCause]; split <;> (try split) <;> simp
@[simp] theorem Device.setCause_pkg (d : Device) (b : Nat) : (d.setCause b).pkg = d.pkg := by
  simp only [Device.setCause]; split <;> (try split) <;> simp
@[simp] theorem Device.setCause_boot (d : Device) (b : Nat) : (d.setCause b).boot = d.boot := by
  simp only [Device.setCause]; split <;> (try split) <;> simp
@[simp] theorem Device.setCause_view (d : Device) (b : Nat) : (d.setCause b).view = d.view := by
  simp only [Device.setCause]; split <;> (try split) <;> simp
@[simp] theorem Device.setCause_i3c (d : Device) (b : Nat) : (d.setCause b).i3c = d.i3c := by
  simp only [Device.setCause]; split <;> (try split) <;> simp
@[simp] theorem Device.setCause_mbx (d : Device) (b : Nat) : (d.setCause b).mbx = d.mbx := by
  simp only [Device.setCause]; split <;> (try split) <;> simp
@[simp] theorem Device.setCause_diag (d : Device) (b : Nat) : (d.setCause b).diag = d.diag := by
  simp only [Device.setCause]; split <;> (try split) <;> simp
@[simp] theorem Device.setCause_time (d : Device) (b : Nat) : (d.setCause b).time = d.time := by
  simp only [Device.setCause]; split <;> (try split) <;> simp
@[simp] theorem Device.setCause_tim (d : Device) (b : Nat) : (d.setCause b).tim = d.tim := by
  simp only [Device.setCause]; split <;> (try split) <;> simp
@[simp] theorem Device.setCause_jobs (d : Device) (b : Nat) : (d.setCause b).jobs = d.jobs := by
  simp only [Device.setCause]; split <;> (try split) <;> simp
@[simp] theorem Device.setCause_pwr (d : Device) (b : Nat) : (d.setCause b).pwr = d.pwr := by
  simp only [Device.setCause]; split <;> (try split) <;> simp
@[simp] theorem Device.setCause_units (d : Device) (b : Nat) : (d.setCause b).units = d.units := by
  simp only [Device.setCause]; split <;> (try split) <;> simp
@[simp] theorem Device.setCause_clusters (d : Device) (b : Nat) : (d.setCause b).clusters = d.clusters := by
  simp only [Device.setCause]; split <;> (try split) <;> simp
@[simp] theorem Device.setCause_memsys (d : Device) (b : Nat) : (d.setCause b).memsys = d.memsys := by
  simp only [Device.setCause]; split <;> (try split) <;> simp
@[simp] theorem Device.setCause_ing (d : Device) (b : Nat) : (d.setCause b).ing = d.ing := by
  simp only [Device.setCause]; split <;> (try split) <;> simp
@[simp] theorem Device.setCause_sfe (d : Device) (b : Nat) : (d.setCause b).sfe = d.sfe := by
  simp only [Device.setCause]; split <;> (try split) <;> simp
@[simp] theorem Device.setCause_vis (d : Device) (b : Nat) : (d.setCause b).vis = d.vis := by
  simp only [Device.setCause]; split <;> (try split) <;> simp
@[simp] theorem Device.setCause_grid (d : Device) (b : Nat) : (d.setCause b).grid = d.grid := by
  simp only [Device.setCause]; split <;> (try split) <;> simp
@[simp] theorem Device.setCause_slv (d : Device) (b : Nat) : (d.setCause b).slv = d.slv := by
  simp only [Device.setCause]; split <;> (try split) <;> simp
@[simp] theorem Device.setCause_loc (d : Device) (b : Nat) : (d.setCause b).loc = d.loc := by
  simp only [Device.setCause]; split <;> (try split) <;> simp
@[simp] theorem Device.setCause_map (d : Device) (b : Nat) : (d.setCause b).map = d.map := by
  simp only [Device.setCause]; split <;> (try split) <;> simp
@[simp] theorem Device.setCause_prs (d : Device) (b : Nat) : (d.setCause b).prs = d.prs := by
  simp only [Device.setCause]; split <;> (try split) <;> simp
@[simp] theorem Device.setCause_out (d : Device) (b : Nat) : (d.setCause b).out = d.out := by
  simp only [Device.setCause]; split <;> (try split) <;> simp
@[simp] theorem Device.setCause_st (d : Device) (b : Nat) : (d.setCause b).st = d.st := by
  simp only [Device.setCause]; split <;> (try split) <;> simp
@[simp] theorem Device.setCause_sec (d : Device) (b : Nat) : (d.setCause b).sec = d.sec := by
  simp only [Device.setCause]; split <;> (try split) <;> simp
@[simp] theorem Device.setCause_free (d : Device) (b : Nat) : (d.setCause b).free = d.free := by
  simp only [Device.setCause]; split <;> (try split) <;> simp

@[simp] theorem Device.record_fuse (d : Device) (code cause unit p0 p1 : Nat) : (d.record code cause unit p0 p1).fuse = d.fuse := by
  unfold Device.record; split <;> rfl
@[simp] theorem Device.record_pkg (d : Device) (code cause unit p0 p1 : Nat) : (d.record code cause unit p0 p1).pkg = d.pkg := by
  unfold Device.record; split <;> rfl
@[simp] theorem Device.record_boot (d : Device) (code cause unit p0 p1 : Nat) : (d.record code cause unit p0 p1).boot = d.boot := by
  unfold Device.record; split <;> rfl
@[simp] theorem Device.record_view (d : Device) (code cause unit p0 p1 : Nat) : (d.record code cause unit p0 p1).view = d.view := by
  unfold Device.record; split <;> rfl
@[simp] theorem Device.record_i3c (d : Device) (code cause unit p0 p1 : Nat) : (d.record code cause unit p0 p1).i3c = d.i3c := by
  unfold Device.record; split <;> rfl
@[simp] theorem Device.record_mbx (d : Device) (code cause unit p0 p1 : Nat) : (d.record code cause unit p0 p1).mbx = d.mbx := by
  unfold Device.record; split <;> rfl
@[simp] theorem Device.record_diag (d : Device) (code cause unit p0 p1 : Nat) : (d.record code cause unit p0 p1).diag = d.diag := by
  unfold Device.record; split <;> rfl
@[simp] theorem Device.record_time (d : Device) (code cause unit p0 p1 : Nat) : (d.record code cause unit p0 p1).time = d.time := by
  unfold Device.record; split <;> rfl
@[simp] theorem Device.record_tim (d : Device) (code cause unit p0 p1 : Nat) : (d.record code cause unit p0 p1).tim = d.tim := by
  unfold Device.record; split <;> rfl
@[simp] theorem Device.record_jobs (d : Device) (code cause unit p0 p1 : Nat) : (d.record code cause unit p0 p1).jobs = d.jobs := by
  unfold Device.record; split <;> rfl
@[simp] theorem Device.record_pwr (d : Device) (code cause unit p0 p1 : Nat) : (d.record code cause unit p0 p1).pwr = d.pwr := by
  unfold Device.record; split <;> rfl
@[simp] theorem Device.record_units (d : Device) (code cause unit p0 p1 : Nat) : (d.record code cause unit p0 p1).units = d.units := by
  unfold Device.record; split <;> rfl
@[simp] theorem Device.record_clusters (d : Device) (code cause unit p0 p1 : Nat) : (d.record code cause unit p0 p1).clusters = d.clusters := by
  unfold Device.record; split <;> rfl
@[simp] theorem Device.record_memsys (d : Device) (code cause unit p0 p1 : Nat) : (d.record code cause unit p0 p1).memsys = d.memsys := by
  unfold Device.record; split <;> rfl
@[simp] theorem Device.record_ing (d : Device) (code cause unit p0 p1 : Nat) : (d.record code cause unit p0 p1).ing = d.ing := by
  unfold Device.record; split <;> rfl
@[simp] theorem Device.record_sfe (d : Device) (code cause unit p0 p1 : Nat) : (d.record code cause unit p0 p1).sfe = d.sfe := by
  unfold Device.record; split <;> rfl
@[simp] theorem Device.record_vis (d : Device) (code cause unit p0 p1 : Nat) : (d.record code cause unit p0 p1).vis = d.vis := by
  unfold Device.record; split <;> rfl
@[simp] theorem Device.record_grid (d : Device) (code cause unit p0 p1 : Nat) : (d.record code cause unit p0 p1).grid = d.grid := by
  unfold Device.record; split <;> rfl
@[simp] theorem Device.record_slv (d : Device) (code cause unit p0 p1 : Nat) : (d.record code cause unit p0 p1).slv = d.slv := by
  unfold Device.record; split <;> rfl
@[simp] theorem Device.record_loc (d : Device) (code cause unit p0 p1 : Nat) : (d.record code cause unit p0 p1).loc = d.loc := by
  unfold Device.record; split <;> rfl
@[simp] theorem Device.record_map (d : Device) (code cause unit p0 p1 : Nat) : (d.record code cause unit p0 p1).map = d.map := by
  unfold Device.record; split <;> rfl
@[simp] theorem Device.record_prs (d : Device) (code cause unit p0 p1 : Nat) : (d.record code cause unit p0 p1).prs = d.prs := by
  unfold Device.record; split <;> rfl
@[simp] theorem Device.record_out (d : Device) (code cause unit p0 p1 : Nat) : (d.record code cause unit p0 p1).out = d.out := by
  unfold Device.record; split <;> rfl
@[simp] theorem Device.record_st (d : Device) (code cause unit p0 p1 : Nat) : (d.record code cause unit p0 p1).st = d.st := by
  unfold Device.record; split <;> rfl
@[simp] theorem Device.record_sec (d : Device) (code cause unit p0 p1 : Nat) : (d.record code cause unit p0 p1).sec = d.sec := by
  unfold Device.record; split <;> rfl
@[simp] theorem Device.record_free (d : Device) (code cause unit p0 p1 : Nat) : (d.record code cause unit p0 p1).free = d.free := by
  unfold Device.record; split <;> rfl

@[simp] theorem Device.event_fuse (d : Device) (code cause unit p0 p1 : Nat) : (d.event code cause unit p0 p1).fuse = d.fuse := by
  unfold Device.event; split <;> simp
@[simp] theorem Device.event_pkg (d : Device) (code cause unit p0 p1 : Nat) : (d.event code cause unit p0 p1).pkg = d.pkg := by
  unfold Device.event; split <;> simp
@[simp] theorem Device.event_boot (d : Device) (code cause unit p0 p1 : Nat) : (d.event code cause unit p0 p1).boot = d.boot := by
  unfold Device.event; split <;> simp
@[simp] theorem Device.event_view (d : Device) (code cause unit p0 p1 : Nat) : (d.event code cause unit p0 p1).view = d.view := by
  unfold Device.event; split <;> simp
@[simp] theorem Device.event_i3c (d : Device) (code cause unit p0 p1 : Nat) : (d.event code cause unit p0 p1).i3c = d.i3c := by
  unfold Device.event; split <;> simp
@[simp] theorem Device.event_mbx (d : Device) (code cause unit p0 p1 : Nat) : (d.event code cause unit p0 p1).mbx = d.mbx := by
  unfold Device.event; split <;> simp
@[simp] theorem Device.event_diag (d : Device) (code cause unit p0 p1 : Nat) : (d.event code cause unit p0 p1).diag = d.diag := by
  unfold Device.event; split <;> simp
@[simp] theorem Device.event_time (d : Device) (code cause unit p0 p1 : Nat) : (d.event code cause unit p0 p1).time = d.time := by
  unfold Device.event; split <;> simp
@[simp] theorem Device.event_tim (d : Device) (code cause unit p0 p1 : Nat) : (d.event code cause unit p0 p1).tim = d.tim := by
  unfold Device.event; split <;> simp
@[simp] theorem Device.event_jobs (d : Device) (code cause unit p0 p1 : Nat) : (d.event code cause unit p0 p1).jobs = d.jobs := by
  unfold Device.event; split <;> simp
@[simp] theorem Device.event_pwr (d : Device) (code cause unit p0 p1 : Nat) : (d.event code cause unit p0 p1).pwr = d.pwr := by
  unfold Device.event; split <;> simp
@[simp] theorem Device.event_units (d : Device) (code cause unit p0 p1 : Nat) : (d.event code cause unit p0 p1).units = d.units := by
  unfold Device.event; split <;> simp
@[simp] theorem Device.event_clusters (d : Device) (code cause unit p0 p1 : Nat) : (d.event code cause unit p0 p1).clusters = d.clusters := by
  unfold Device.event; split <;> simp
@[simp] theorem Device.event_memsys (d : Device) (code cause unit p0 p1 : Nat) : (d.event code cause unit p0 p1).memsys = d.memsys := by
  unfold Device.event; split <;> simp
@[simp] theorem Device.event_ing (d : Device) (code cause unit p0 p1 : Nat) : (d.event code cause unit p0 p1).ing = d.ing := by
  unfold Device.event; split <;> simp
@[simp] theorem Device.event_sfe (d : Device) (code cause unit p0 p1 : Nat) : (d.event code cause unit p0 p1).sfe = d.sfe := by
  unfold Device.event; split <;> simp
@[simp] theorem Device.event_vis (d : Device) (code cause unit p0 p1 : Nat) : (d.event code cause unit p0 p1).vis = d.vis := by
  unfold Device.event; split <;> simp
@[simp] theorem Device.event_grid (d : Device) (code cause unit p0 p1 : Nat) : (d.event code cause unit p0 p1).grid = d.grid := by
  unfold Device.event; split <;> simp
@[simp] theorem Device.event_slv (d : Device) (code cause unit p0 p1 : Nat) : (d.event code cause unit p0 p1).slv = d.slv := by
  unfold Device.event; split <;> simp
@[simp] theorem Device.event_loc (d : Device) (code cause unit p0 p1 : Nat) : (d.event code cause unit p0 p1).loc = d.loc := by
  unfold Device.event; split <;> simp
@[simp] theorem Device.event_map (d : Device) (code cause unit p0 p1 : Nat) : (d.event code cause unit p0 p1).map = d.map := by
  unfold Device.event; split <;> simp
@[simp] theorem Device.event_prs (d : Device) (code cause unit p0 p1 : Nat) : (d.event code cause unit p0 p1).prs = d.prs := by
  unfold Device.event; split <;> simp
@[simp] theorem Device.event_out (d : Device) (code cause unit p0 p1 : Nat) : (d.event code cause unit p0 p1).out = d.out := by
  unfold Device.event; split <;> simp
@[simp] theorem Device.event_st (d : Device) (code cause unit p0 p1 : Nat) : (d.event code cause unit p0 p1).st = d.st := by
  unfold Device.event; split <;> simp
@[simp] theorem Device.event_sec (d : Device) (code cause unit p0 p1 : Nat) : (d.event code cause unit p0 p1).sec = d.sec := by
  unfold Device.event; split <;> simp
@[simp] theorem Device.event_free (d : Device) (code cause unit p0 p1 : Nat) : (d.event code cause unit p0 p1).free = d.free := by
  unfold Device.event; split <;> simp

@[simp] theorem Device.violation_fuse (d : Device) (iface unit code detail : Nat) : (d.violation iface unit code detail).fuse = d.fuse := by
  unfold Device.violation; simp only []; split <;> simp
@[simp] theorem Device.violation_pkg (d : Device) (iface unit code detail : Nat) : (d.violation iface unit code detail).pkg = d.pkg := by
  unfold Device.violation; simp only []; split <;> simp
@[simp] theorem Device.violation_boot (d : Device) (iface unit code detail : Nat) : (d.violation iface unit code detail).boot = d.boot := by
  unfold Device.violation; simp only []; split <;> simp
@[simp] theorem Device.violation_view (d : Device) (iface unit code detail : Nat) : (d.violation iface unit code detail).view = d.view := by
  unfold Device.violation; simp only []; split <;> simp
@[simp] theorem Device.violation_i3c (d : Device) (iface unit code detail : Nat) : (d.violation iface unit code detail).i3c = d.i3c := by
  unfold Device.violation; simp only []; split <;> simp
@[simp] theorem Device.violation_mbx (d : Device) (iface unit code detail : Nat) : (d.violation iface unit code detail).mbx = d.mbx := by
  unfold Device.violation; simp only []; split <;> simp
@[simp] theorem Device.violation_diag (d : Device) (iface unit code detail : Nat) : (d.violation iface unit code detail).diag = d.diag := by
  unfold Device.violation; simp only []; split <;> simp
@[simp] theorem Device.violation_time (d : Device) (iface unit code detail : Nat) : (d.violation iface unit code detail).time = d.time := by
  unfold Device.violation; simp only []; split <;> simp
@[simp] theorem Device.violation_tim (d : Device) (iface unit code detail : Nat) : (d.violation iface unit code detail).tim = d.tim := by
  unfold Device.violation; simp only []; split <;> simp
@[simp] theorem Device.violation_jobs (d : Device) (iface unit code detail : Nat) : (d.violation iface unit code detail).jobs = d.jobs := by
  unfold Device.violation; simp only []; split <;> simp
@[simp] theorem Device.violation_pwr (d : Device) (iface unit code detail : Nat) : (d.violation iface unit code detail).pwr = d.pwr := by
  unfold Device.violation; simp only []; split <;> simp
@[simp] theorem Device.violation_units (d : Device) (iface unit code detail : Nat) : (d.violation iface unit code detail).units = d.units := by
  unfold Device.violation; simp only []; split <;> simp
@[simp] theorem Device.violation_clusters (d : Device) (iface unit code detail : Nat) : (d.violation iface unit code detail).clusters = d.clusters := by
  unfold Device.violation; simp only []; split <;> simp
@[simp] theorem Device.violation_memsys (d : Device) (iface unit code detail : Nat) : (d.violation iface unit code detail).memsys = d.memsys := by
  unfold Device.violation; simp only []; split <;> simp
@[simp] theorem Device.violation_ing (d : Device) (iface unit code detail : Nat) : (d.violation iface unit code detail).ing = d.ing := by
  unfold Device.violation; simp only []; split <;> simp
@[simp] theorem Device.violation_sfe (d : Device) (iface unit code detail : Nat) : (d.violation iface unit code detail).sfe = d.sfe := by
  unfold Device.violation; simp only []; split <;> simp
@[simp] theorem Device.violation_vis (d : Device) (iface unit code detail : Nat) : (d.violation iface unit code detail).vis = d.vis := by
  unfold Device.violation; simp only []; split <;> simp
@[simp] theorem Device.violation_grid (d : Device) (iface unit code detail : Nat) : (d.violation iface unit code detail).grid = d.grid := by
  unfold Device.violation; simp only []; split <;> simp
@[simp] theorem Device.violation_slv (d : Device) (iface unit code detail : Nat) : (d.violation iface unit code detail).slv = d.slv := by
  unfold Device.violation; simp only []; split <;> simp
@[simp] theorem Device.violation_loc (d : Device) (iface unit code detail : Nat) : (d.violation iface unit code detail).loc = d.loc := by
  unfold Device.violation; simp only []; split <;> simp
@[simp] theorem Device.violation_map (d : Device) (iface unit code detail : Nat) : (d.violation iface unit code detail).map = d.map := by
  unfold Device.violation; simp only []; split <;> simp
@[simp] theorem Device.violation_prs (d : Device) (iface unit code detail : Nat) : (d.violation iface unit code detail).prs = d.prs := by
  unfold Device.violation; simp only []; split <;> simp
@[simp] theorem Device.violation_out (d : Device) (iface unit code detail : Nat) : (d.violation iface unit code detail).out = d.out := by
  unfold Device.violation; simp only []; split <;> simp
@[simp] theorem Device.violation_st (d : Device) (iface unit code detail : Nat) : (d.violation iface unit code detail).st = d.st := by
  unfold Device.violation; simp only []; split <;> simp
@[simp] theorem Device.violation_sec (d : Device) (iface unit code detail : Nat) : (d.violation iface unit code detail).sec = d.sec := by
  unfold Device.violation; simp only []; split <;> simp
@[simp] theorem Device.violation_free (d : Device) (iface unit code detail : Nat) : (d.violation iface unit code detail).free = d.free := by
  unfold Device.violation; simp only []; split <;> simp

@[simp] theorem Device.extendConfig_fuse (d : Device) (op : Nat) (b : List Byte) : (d.extendConfig op b).fuse = d.fuse := by
  rfl
@[simp] theorem Device.extendConfig_pkg (d : Device) (op : Nat) (b : List Byte) : (d.extendConfig op b).pkg = d.pkg := by
  rfl
@[simp] theorem Device.extendConfig_boot (d : Device) (op : Nat) (b : List Byte) : (d.extendConfig op b).boot = d.boot := by
  rfl
@[simp] theorem Device.extendConfig_view (d : Device) (op : Nat) (b : List Byte) : (d.extendConfig op b).view = d.view := by
  rfl
@[simp] theorem Device.extendConfig_i3c (d : Device) (op : Nat) (b : List Byte) : (d.extendConfig op b).i3c = d.i3c := by
  rfl
@[simp] theorem Device.extendConfig_evt (d : Device) (op : Nat) (b : List Byte) : (d.extendConfig op b).evt = d.evt := by
  rfl
@[simp] theorem Device.extendConfig_mbx (d : Device) (op : Nat) (b : List Byte) : (d.extendConfig op b).mbx = d.mbx := by
  rfl
@[simp] theorem Device.extendConfig_diag (d : Device) (op : Nat) (b : List Byte) : (d.extendConfig op b).diag = d.diag := by
  rfl
@[simp] theorem Device.extendConfig_time (d : Device) (op : Nat) (b : List Byte) : (d.extendConfig op b).time = d.time := by
  rfl
@[simp] theorem Device.extendConfig_tim (d : Device) (op : Nat) (b : List Byte) : (d.extendConfig op b).tim = d.tim := by
  rfl
@[simp] theorem Device.extendConfig_jobs (d : Device) (op : Nat) (b : List Byte) : (d.extendConfig op b).jobs = d.jobs := by
  rfl
@[simp] theorem Device.extendConfig_pwr (d : Device) (op : Nat) (b : List Byte) : (d.extendConfig op b).pwr = d.pwr := by
  rfl
@[simp] theorem Device.extendConfig_units (d : Device) (op : Nat) (b : List Byte) : (d.extendConfig op b).units = d.units := by
  rfl
@[simp] theorem Device.extendConfig_clusters (d : Device) (op : Nat) (b : List Byte) : (d.extendConfig op b).clusters = d.clusters := by
  rfl
@[simp] theorem Device.extendConfig_memsys (d : Device) (op : Nat) (b : List Byte) : (d.extendConfig op b).memsys = d.memsys := by
  rfl
@[simp] theorem Device.extendConfig_ing (d : Device) (op : Nat) (b : List Byte) : (d.extendConfig op b).ing = d.ing := by
  rfl
@[simp] theorem Device.extendConfig_sfe (d : Device) (op : Nat) (b : List Byte) : (d.extendConfig op b).sfe = d.sfe := by
  rfl
@[simp] theorem Device.extendConfig_vis (d : Device) (op : Nat) (b : List Byte) : (d.extendConfig op b).vis = d.vis := by
  rfl
@[simp] theorem Device.extendConfig_grid (d : Device) (op : Nat) (b : List Byte) : (d.extendConfig op b).grid = d.grid := by
  rfl
@[simp] theorem Device.extendConfig_slv (d : Device) (op : Nat) (b : List Byte) : (d.extendConfig op b).slv = d.slv := by
  rfl
@[simp] theorem Device.extendConfig_loc (d : Device) (op : Nat) (b : List Byte) : (d.extendConfig op b).loc = d.loc := by
  rfl
@[simp] theorem Device.extendConfig_map (d : Device) (op : Nat) (b : List Byte) : (d.extendConfig op b).map = d.map := by
  rfl
@[simp] theorem Device.extendConfig_prs (d : Device) (op : Nat) (b : List Byte) : (d.extendConfig op b).prs = d.prs := by
  rfl
@[simp] theorem Device.extendConfig_out (d : Device) (op : Nat) (b : List Byte) : (d.extendConfig op b).out = d.out := by
  rfl
@[simp] theorem Device.extendConfig_st (d : Device) (op : Nat) (b : List Byte) : (d.extendConfig op b).st = d.st := by
  rfl
@[simp] theorem Device.extendConfig_free (d : Device) (op : Nat) (b : List Byte) : (d.extendConfig op b).free = d.free := by
  rfl

@[simp] theorem Device.answer_fuse (d : Device) (ch : Nat) (r : Request) (a : Reply) : (d.answer ch r a).fuse = d.fuse := by
  simp only [Device.answer]; split <;> split <;> simp
@[simp] theorem Device.answer_pkg (d : Device) (ch : Nat) (r : Request) (a : Reply) : (d.answer ch r a).pkg = d.pkg := by
  simp only [Device.answer]; split <;> split <;> simp
@[simp] theorem Device.answer_boot (d : Device) (ch : Nat) (r : Request) (a : Reply) : (d.answer ch r a).boot = d.boot := by
  simp only [Device.answer]; split <;> split <;> simp
@[simp] theorem Device.answer_view (d : Device) (ch : Nat) (r : Request) (a : Reply) : (d.answer ch r a).view = d.view := by
  simp only [Device.answer]; split <;> split <;> simp
@[simp] theorem Device.answer_i3c (d : Device) (ch : Nat) (r : Request) (a : Reply) : (d.answer ch r a).i3c = d.i3c := by
  simp only [Device.answer]; split <;> split <;> simp
@[simp] theorem Device.answer_diag (d : Device) (ch : Nat) (r : Request) (a : Reply) : (d.answer ch r a).diag = d.diag := by
  simp only [Device.answer]; split <;> split <;> simp
@[simp] theorem Device.answer_time (d : Device) (ch : Nat) (r : Request) (a : Reply) : (d.answer ch r a).time = d.time := by
  simp only [Device.answer]; split <;> split <;> simp
@[simp] theorem Device.answer_tim (d : Device) (ch : Nat) (r : Request) (a : Reply) : (d.answer ch r a).tim = d.tim := by
  simp only [Device.answer]; split <;> split <;> simp
@[simp] theorem Device.answer_jobs (d : Device) (ch : Nat) (r : Request) (a : Reply) : (d.answer ch r a).jobs = d.jobs := by
  simp only [Device.answer]; split <;> split <;> simp
@[simp] theorem Device.answer_pwr (d : Device) (ch : Nat) (r : Request) (a : Reply) : (d.answer ch r a).pwr = d.pwr := by
  simp only [Device.answer]; split <;> split <;> simp
@[simp] theorem Device.answer_units (d : Device) (ch : Nat) (r : Request) (a : Reply) : (d.answer ch r a).units = d.units := by
  simp only [Device.answer]; split <;> split <;> simp
@[simp] theorem Device.answer_clusters (d : Device) (ch : Nat) (r : Request) (a : Reply) : (d.answer ch r a).clusters = d.clusters := by
  simp only [Device.answer]; split <;> split <;> simp
@[simp] theorem Device.answer_memsys (d : Device) (ch : Nat) (r : Request) (a : Reply) : (d.answer ch r a).memsys = d.memsys := by
  simp only [Device.answer]; split <;> split <;> simp
@[simp] theorem Device.answer_ing (d : Device) (ch : Nat) (r : Request) (a : Reply) : (d.answer ch r a).ing = d.ing := by
  simp only [Device.answer]; split <;> split <;> simp
@[simp] theorem Device.answer_sfe (d : Device) (ch : Nat) (r : Request) (a : Reply) : (d.answer ch r a).sfe = d.sfe := by
  simp only [Device.answer]; split <;> split <;> simp
@[simp] theorem Device.answer_vis (d : Device) (ch : Nat) (r : Request) (a : Reply) : (d.answer ch r a).vis = d.vis := by
  simp only [Device.answer]; split <;> split <;> simp
@[simp] theorem Device.answer_grid (d : Device) (ch : Nat) (r : Request) (a : Reply) : (d.answer ch r a).grid = d.grid := by
  simp only [Device.answer]; split <;> split <;> simp
@[simp] theorem Device.answer_slv (d : Device) (ch : Nat) (r : Request) (a : Reply) : (d.answer ch r a).slv = d.slv := by
  simp only [Device.answer]; split <;> split <;> simp
@[simp] theorem Device.answer_loc (d : Device) (ch : Nat) (r : Request) (a : Reply) : (d.answer ch r a).loc = d.loc := by
  simp only [Device.answer]; split <;> split <;> simp
@[simp] theorem Device.answer_map (d : Device) (ch : Nat) (r : Request) (a : Reply) : (d.answer ch r a).map = d.map := by
  simp only [Device.answer]; split <;> split <;> simp
@[simp] theorem Device.answer_prs (d : Device) (ch : Nat) (r : Request) (a : Reply) : (d.answer ch r a).prs = d.prs := by
  simp only [Device.answer]; split <;> split <;> simp
@[simp] theorem Device.answer_out (d : Device) (ch : Nat) (r : Request) (a : Reply) : (d.answer ch r a).out = d.out := by
  simp only [Device.answer]; split <;> split <;> simp
@[simp] theorem Device.answer_st (d : Device) (ch : Nat) (r : Request) (a : Reply) : (d.answer ch r a).st = d.st := by
  simp only [Device.answer]; split <;> split <;> simp
@[simp] theorem Device.answer_free (d : Device) (ch : Nat) (r : Request) (a : Reply) : (d.answer ch r a).free = d.free := by
  simp only [Device.answer]; split <;> split <;> simp

@[simp] theorem Device.finish_fuse (d : Device) (h st : Nat) (b : List Byte) : (d.finish h st b).fuse = d.fuse := by
  simp only [Device.finish]; split <;> (try split) <;> simp
@[simp] theorem Device.finish_pkg (d : Device) (h st : Nat) (b : List Byte) : (d.finish h st b).pkg = d.pkg := by
  simp only [Device.finish]; split <;> (try split) <;> simp
@[simp] theorem Device.finish_boot (d : Device) (h st : Nat) (b : List Byte) : (d.finish h st b).boot = d.boot := by
  simp only [Device.finish]; split <;> (try split) <;> simp
@[simp] theorem Device.finish_view (d : Device) (h st : Nat) (b : List Byte) : (d.finish h st b).view = d.view := by
  simp only [Device.finish]; split <;> (try split) <;> simp
@[simp] theorem Device.finish_i3c (d : Device) (h st : Nat) (b : List Byte) : (d.finish h st b).i3c = d.i3c := by
  simp only [Device.finish]; split <;> (try split) <;> simp
@[simp] theorem Device.finish_diag (d : Device) (h st : Nat) (b : List Byte) : (d.finish h st b).diag = d.diag := by
  simp only [Device.finish]; split <;> (try split) <;> simp
@[simp] theorem Device.finish_time (d : Device) (h st : Nat) (b : List Byte) : (d.finish h st b).time = d.time := by
  simp only [Device.finish]; split <;> (try split) <;> simp
@[simp] theorem Device.finish_tim (d : Device) (h st : Nat) (b : List Byte) : (d.finish h st b).tim = d.tim := by
  simp only [Device.finish]; split <;> (try split) <;> simp
@[simp] theorem Device.finish_jobs (d : Device) (h st : Nat) (b : List Byte) : (d.finish h st b).jobs = d.jobs := by
  simp only [Device.finish]; split <;> (try split) <;> simp
@[simp] theorem Device.finish_pwr (d : Device) (h st : Nat) (b : List Byte) : (d.finish h st b).pwr = d.pwr := by
  simp only [Device.finish]; split <;> (try split) <;> simp
@[simp] theorem Device.finish_units (d : Device) (h st : Nat) (b : List Byte) : (d.finish h st b).units = d.units := by
  simp only [Device.finish]; split <;> (try split) <;> simp
@[simp] theorem Device.finish_clusters (d : Device) (h st : Nat) (b : List Byte) : (d.finish h st b).clusters = d.clusters := by
  simp only [Device.finish]; split <;> (try split) <;> simp
@[simp] theorem Device.finish_memsys (d : Device) (h st : Nat) (b : List Byte) : (d.finish h st b).memsys = d.memsys := by
  simp only [Device.finish]; split <;> (try split) <;> simp
@[simp] theorem Device.finish_ing (d : Device) (h st : Nat) (b : List Byte) : (d.finish h st b).ing = d.ing := by
  simp only [Device.finish]; split <;> (try split) <;> simp
@[simp] theorem Device.finish_sfe (d : Device) (h st : Nat) (b : List Byte) : (d.finish h st b).sfe = d.sfe := by
  simp only [Device.finish]; split <;> (try split) <;> simp
@[simp] theorem Device.finish_vis (d : Device) (h st : Nat) (b : List Byte) : (d.finish h st b).vis = d.vis := by
  simp only [Device.finish]; split <;> (try split) <;> simp
@[simp] theorem Device.finish_grid (d : Device) (h st : Nat) (b : List Byte) : (d.finish h st b).grid = d.grid := by
  simp only [Device.finish]; split <;> (try split) <;> simp
@[simp] theorem Device.finish_slv (d : Device) (h st : Nat) (b : List Byte) : (d.finish h st b).slv = d.slv := by
  simp only [Device.finish]; split <;> (try split) <;> simp
@[simp] theorem Device.finish_loc (d : Device) (h st : Nat) (b : List Byte) : (d.finish h st b).loc = d.loc := by
  simp only [Device.finish]; split <;> (try split) <;> simp
@[simp] theorem Device.finish_map (d : Device) (h st : Nat) (b : List Byte) : (d.finish h st b).map = d.map := by
  simp only [Device.finish]; split <;> (try split) <;> simp
@[simp] theorem Device.finish_prs (d : Device) (h st : Nat) (b : List Byte) : (d.finish h st b).prs = d.prs := by
  simp only [Device.finish]; split <;> (try split) <;> simp
@[simp] theorem Device.finish_out (d : Device) (h st : Nat) (b : List Byte) : (d.finish h st b).out = d.out := by
  simp only [Device.finish]; split <;> (try split) <;> simp
@[simp] theorem Device.finish_st (d : Device) (h st : Nat) (b : List Byte) : (d.finish h st b).st = d.st := by
  simp only [Device.finish]; split <;> (try split) <;> simp
@[simp] theorem Device.finish_sec (d : Device) (h st : Nat) (b : List Byte) : (d.finish h st b).sec = d.sec := by
  simp only [Device.finish]; split <;> (try split) <;> simp
@[simp] theorem Device.finish_free (d : Device) (h st : Nat) (b : List Byte) : (d.finish h st b).free = d.free := by
  simp only [Device.finish]; split <;> (try split) <;> simp

/-- A command without its request does nothing. -/
theorem command_idle (op : Nat) (ch : Fin 8) (f : Request → Device → Device × Reply) (s : State)
    (h : s.dev.awaiting ch.val op = none) : command op ch f s = .next s := by
  simp [command, h]

/-- A command with its request does its work and answers. -/
theorem command_next (op : Nat) (ch : Fin 8) (f : Request → Device → Device × Reply) (s : State) (r : Request)
    (h : s.holds ch op r) : command op ch f s = .next (s.answered ch r (f r s.dev).1 (f r s.dev).2) := by
  unfold State.holds at h
  simp [command, h, State.answered, State.withDev]

/-- A report with its request answers, and changes nothing else. -/
theorem query_next (op : Nat) (ch : Fin 8) (f : Request → Device → Reply) (s : State) (r : Request)
    (h : s.holds ch op r) : query op ch f s = .next (s.answered ch r s.dev (f r s.dev)) :=
  command_next op ch _ s r h

/-- A command that reads the memories does its work and answers. -/
theorem commandRead_next (op : Nat) (ch : Fin 8) (f : Request → Device → Store → Device × Reply) (s : State) (r : Request)
    (h : s.holds ch op r) :
    commandRead op ch f s = .next (s.answered ch r (f r s.dev s.mem).1 (f r s.dev s.mem).2) := by
  unfold State.holds at h
  simp [commandRead, h, State.answered, State.withDev]

/-- A command that changes the memories does its work and answers. -/
theorem commandMem_next (op : Nat) (ch : Fin 8) (f : Request → Device → Store → (Device × Store) × Reply) (s : State)
    (r : Request) (h : s.holds ch op r) :
    commandMem op ch f s = .next (s.withAll ((f r s.dev s.mem).1.1.answer ch.val r (f r s.dev s.mem).2)
      (f r s.dev s.mem).1.2) := by
  unfold State.holds at h
  simp [commandMem, h, State.withAll]

/-- A setting of objects the profile does not use does its work and answers. -/
theorem configure_next (t : Setting) (ch : Fin 8) (s : State) (r : Request) (h : s.mayConfigure ch t r) :
    configure t ch s = .next (s.withAll ((t.body r s.dev s.mem).1.1.answer ch.val r (t.body r s.dev s.mem).2)
      (t.body r s.dev s.mem).1.2) := by
  obtain ⟨h1, h2⟩ := h
  unfold State.holds at h1
  simp [configure, h1, Setting.outcome, h2, State.withAll]

/-- The answer stands in its channel, to be published. -/
@[simp] theorem Device.answer_formed (d : Device) (ch : Nat) (r : Request) (a : Reply) :
    ((d.answer ch r a).chan ch).formed = some a := by
  simp only [Device.answer, Device.setChan, Device.chan, Tbl.getD_put_same]

/-- An event of the device alone answers a next state. -/
theorem onDev_next (f : Device → Device) (s : State) : onDev f s = .next (s.withDev (f s.dev)) := rfl

/-- An event of device and memories answers a next state. -/
theorem onBoth_next (f : Device → Store → Device × Store) (s : State) :
    onBoth f s = .next (s.withAll (f s.dev s.mem).1 (f s.dev s.mem).2) := rfl

/-- A handle that is pending ends with the status it is given. -/
theorem Device.finish_ended (d : Device) (h st : Nat) (b : List Byte) (x : Handle)
    (hx : d.mbx.handles.look h = some x) (hf : x.final = none) : (d.finish h st b).ended h = some st := by
  simp only [Device.finish, hx, hf, Option.isSome_none, Bool.false_eq_true, if_false, Device.ended, Device.setCause]
  split
  · simp
  · split <;> simp

/-- While fewer than 256 count, a handle is taken; it is the next one. -/
theorem Mbx.newHandle_some (m : Mbx) (ch op : Nat) (h : m.handles.length < 256) :
    m.newHandle ch op = some (m.nextHandle, m.taking ch op) := by
  have : ¬ 256 ≤ m.handles.length := by omega
  simp [Mbx.newHandle, Mbx.taking, this]

/-- The clock is the only thing that time itself moves, beside the holdover count of the lead die. -/
theorem Device.advance_mbx (d : Device) (n : Nat) : (d.advance n).mbx = d.mbx := by
  simp only [Device.advance]; split <;> simp [Device.diagAdd]

end Sys2Proof.Machine
end

