-- ==== Sys2Proof/WellFormed.lean ====
section
/-! DEFINITION. Well-formed commands: what the operands of a command or event may be, by the widths and ranges the spec gives
them. A command carries no encoded field, so this is all there is to check before it acts; a request page is checked by
MBX_DOORBELL (R157). -/

namespace Sys2Proof

/-- A failed lock or power-good names a die of 8 and an island of 13 or a domain of 12 (R107, R108). -/
def ClockOutcome.wellFormed (o : ClockOutcome) : Bool :=
  match o with
  | .ok => true
  | .pllLock die island => decide (die < 8) && decide (island < 13)
  | .powerGood die domain => decide (die < 8) && decide (domain < 12)

/-- A malformed transfer is malformed in the way it says (R146): an unaligned address is not a multiple of 4, a short transfer
has less than its address. -/
def Malformed.wellFormed (m : Malformed) : Bool :=
  match m with
  | .unaligned addr => addr.toNat % 4 != 0
  | .trailing addr _ => addr.toNat % 4 == 0
  | .sdrParity addr _ => addr.toNat % 4 == 0
  | .hdrCrc addr _ => addr.toNat % 4 == 0
  | .hdrCommand _ => true
  | .short bytes => decide (bytes < 4)
  | .overLength addr words => addr.toNat % 4 == 0 && !words.isEmpty

/-- The fields of a PTP message are within their widths (R225). -/
def PtpMsg.wellFormed (m : PtpMsg) : Bool :=
  decide (m.domain < 256) && decide (m.version < 16) && decide (m.messageLength < 65536) && decide (m.messageType < 16)
    && decide (m.sequenceId < 65536) && decide (m.seconds < 2 ^ 48) && decide (m.nanos < 1000000000)
    && decide (m.stepsRemoved < 65536) && decide (m.udpPort < 65536)

/-- A CSI-2 header: a virtual channel of 16, and an ECC that found nothing (0), corrected (1) or failed (2) (R238). -/
def csiHeader (vc ecc : Nat) : Bool := decide (vc < 16) && decide (ecc ≤ 2)

/-- A failing bit lies in a word of 72 bits of 8 words a row, in a row of 258, found by an element of 6 (R777, R791). -/
def StFind.wellFormed (f : StFind) : Bool :=
  decide (f.row < 258) && decide (f.word < 8) && decide (f.bit < 72) && decide (f.element ≤ 5)

/-- What a slice comes to: finds that are possible, signatures of 64 bits (R782, R791). -/
def SliceOut.wellFormed (o : SliceOut) : Bool :=
  o.finds.all (·.wellFormed) && decide (o.sigExp < 2 ^ 64) && decide (o.sigObs < 2 ^ 64)

/-- A debug-port access names whole words where it names words (R815). -/
def TapInstr.wellFormed (i : TapInstr) : Bool :=
  match i with
  | .idcode => true
  | .bypass value n => decide (value < 2 ^ n)
  | .memRead pa n => decide (pa + n ≤ 2 ^ 38)
  | .memWrite pa bytes => decide (pa + bytes.length ≤ 2 ^ 38)
  | .ctlRead addr => addr.toNat % 4 == 0
  | .ctlWrite addr _ => addr.toNat % 4 == 0
  | .cp => true
  | .scan => true

/-- Whether the operands of a command are within their ranges. -/
def Instr.wellFormed (i : Instr) : Bool :=
  match i with
  | .powerOnReset => true
  | .packageResetAssert => true
  | .packageResetRelease => true
  | .supplyUndervoltage => true
  | .hotJoinRequest => true
  | .enec => true
  | .disec => true
  | .rstdaa => true
  | .entdaa _ => true
  | .setdasa _ => true
  | .setnewda _ => true
  | .setmwl len => decide (len < 65536)
  | .setmrl len => decide (len < 65536)
  | .getmwl => true
  | .getmrl => true
  | .getpid => true
  | .getbcr => true
  | .getdcr => true
  | .getstatus => true
  | .getcaps => true
  | .rstact _ => true
  | .enthdr0 => true
  | .unsupportedCcc _ => true
  | .enthdrUnsupported mode => decide (1 ≤ mode) && decide (mode ≤ 3)
  | .hdrExit => true
  | .targetResetPattern => true
  | .i3cAddressWrite _ => true
  | .i3cMalformedTransfer m => m.wellFormed
  | .registerWrite _ words => !words.isEmpty
  | .rcRegisterRead words => decide (0 < words)
  | .ibiSend _ => true
  | .ident => true
  | .fuseLoad => true
  | .sweep finds => decide (finds.length ≤ 256)
  | .clocks outcome => outcome.wellFormed
  | .train => true
  | .trainItemEnd _ status density => decide (2 ≤ status) && decide (status ≤ 6) && decide (density < 256)
  | .fwLoad => true
  | .bootFwwinWrite offset words => offset % 4 == 0 && !words.isEmpty
  | .loadIdle => true
  | .fwVerify => true
  | .fwStart _ => true
  | .kat engines units => engines.all (fun e => decide (e.1 < 8)) && units.all (fun u => decide (u < 1088))
  | .ready => true
  | .bootStepEnd => true
  | .stepTimeout => true
  | .bootReset _ => true
  | .evtRingRdWrite _ => true
  | .evtVlogIdxWrite _ => true
  | .evtFlogIdxWrite _ => true
  | .latch => true
  | .onPps => true
  | .mbxDoorbell _ _ => true
  | .flush _ => true
  | .mbxResponseFormed _ => true
  | .nop _ => true
  | .handleQuery _ => true
  | .resultGet _ => true
  | .handleCancel _ => true
  | .handleList _ => true
  | .diagCollect _ => true
  | .diagLatch => true
  | .timeStatus _ => true
  | .timeConfig _ => true
  | .timeSet _ => true
  | .compSet _ => true
  | .compGet _ => true
  | .trigGroup _ => true
  | .trigOut _ => true
  | .ptpPort _ => true
  | .ptpPortStatus _ => true
  | .ppsConfig _ => true
  | .triggerEdge _ => true
  | .pulseEnd _ => true
  | .ppsInEdge _ => true
  | .ppsQualified => true
  | .ppsLost => true
  | .ppsOutRise => true
  | .ppsOutFall => true
  | .ptpMessageRx _ msg _ => msg.wellFormed
  | .servoLock => true
  | .servoUnlock => true
  | .ptpMasterLost => true
  | .holdMaxExpiry => true
  | .ptpMessageTx _ t _ => decide (t < 16)
  | .ptpEventForward _ msg rx tx => msg.wellFormed && decide (rx ≤ tx)
  | .residenceEntryExpiry _ => true
  | .timeStepApply => true
  | .tbSlaveFault _ _ => true
  | .streamConfig _ => true
  | .streamStatus _ => true
  | .csiPort _ => true
  | .pairConfig _ => true
  | .ethPort _ => true
  | .ethStatus _ => true
  | .lidarStream _ => true
  | .imuPort _ => true
  | .encConfig _ => true
  | .canController _ => true
  | .canFilter _ => true
  | .bulkOpen _ => true
  | .csiFrameStart _ vc n ecc _ => csiHeader vc ecc && decide (n < 65536)
  | .csiLinePacket _ vc dt ecc _ _ words => csiHeader vc ecc && decide (dt < 64) && decide (words < 65536)
  | .csiEmbeddedData _ vc ecc bytes => csiHeader vc ecc && decide (bytes.length < 65536)
  | .csiFrameEnd _ vc ecc _ => csiHeader vc ecc
  | .pairLost _ => true
  | .pairRecover _ => true
  | .frameTimeout _ => true
  | .csiBulkPacket _ vc dt ecc bytes => csiHeader vc ecc && decide (dt < 64) && decide (bytes.length < 65536)
  | .ethFrameRx _ _ _ _ => true
  | .sweepClose stream => decide (16 ≤ stream) && decide (stream < 24)
  | .ethFrameTx _ => true
  | .imuDataReady _ _ => true
  | .imuTransactionDone _ _ => true
  | .encoderEdge _ _ _ _ => true
  | .encoderIndex _ _ => true
  | .encoderSample _ => true
  | .canFrameRx _ fd ext _ id data _ => decide (id < if ext then 2 ^ 29 else 2 ^ 11) && decide (data.length ≤ if fd then 64 else 8)
  | .canErrorState _ _ tec rec_ => decide (tec < 65536) && decide (rec_ < 65536)
  | .streamDropout stream => decide (stream < 30)
  | .streamRecover stream => decide (stream < 30)
  | .sfeChannel _ => true
  | .sfeAuxScan _ => true
  | .sfeExc _ => true
  | .sfeDetect _ => true
  | .sfeCal _ => true
  | .sfeStatus _ => true
  | .sfeCoefGet _ => true
  | .sfeChannelStart stream => decide (32 ≤ stream) && decide (stream < 64)
  | .sfeOutputSample stream _ _ => decide (32 ≤ stream) && decide (stream < 64)
  | .sfeDetectorWindow stream _ _ => decide (32 ≤ stream) && decide (stream < 64)
  | .sfeAuxScanStart _ _ => true
  | .sfeCalDone _ _ _ _ => true
  | .iepeBiasFault stream => decide (32 ≤ stream) && decide (stream < 64)
  | .resolverLos stream => decide (32 ≤ stream) && decide (stream < 64)
  | .sfeFaultRecover stream => decide (32 ≤ stream) && decide (stream < 64)
  | .phaseAutoUpdate stream => decide (32 ≤ stream) && decide (stream < 64)
  | .excOvercurrent _ => true
  | .sfeInputClamp stream => decide (32 ≤ stream) && decide (stream < 64)
  | .jobSubmit _ => true
  | .jobStatus _ => true
  | .jobList _ => true
  | .jobConfig _ => true
  | .partReset _ => true
  | .dieReset _ => true
  | .profileLoad _ => true
  | .profileUnload _ => true
  | .profileStatus _ => true
  | .clusterStatus _ => true
  | .unitStatus _ => true
  | .jobPlace _ => true
  | .jobLoaded _ => true
  | .bcastPacket _ _ => true
  | .bcastAnswer _ _ _ _ => true
  | .bcastAckTimeout _ _ _ => true
  | .descriptorIssue _ => true
  | .flagSignal _ => true
  | .flagWaitMet _ => true
  | .waitTimeout _ => true
  | .memCompletion requester _ => decide (requester < 1096)
  | .unitEnd _ => true
  | .schedEntryCopy _ => true
  | .windowSlotLoad _ => true
  | .mscRequest pa len _ _ _ => decide (pa < 2 ^ 38) && decide (0 < len) && decide (pa % 128 + len ≤ 128)
  | .patrolScrub _ _ => true
  | .memStatus _ => true
  | .bufAlloc _ => true
  | .bufFree _ => true
  | .bufInfo _ => true
  | .memRead _ => true
  | .memWrite _ => true
  | .steConfig _ => true
  | .steMap _ => true
  | .steMask _ => true
  | .steStatus _ => true
  | .steRun _ => true
  | .steBandBuild _ _ => true
  | .steBandWrite _ slots => decide (2 ≤ slots.length) && decide (slots.length ≤ 16)
  | .steTileBoundary _ => true
  | .steOpDone _ => true
  | .fteConfig _ => true
  | .fteMask _ => true
  | .fteStatus _ => true
  | .fteTrackGet _ => true
  | .fteRun _ => true
  | .fteBandBuild _ _ => true
  | .fteTrackOp _ _ _ _ _ _ _ _ _ => true
  | .fteDormantExpire _ _ => true
  | .fteFreezeExpire _ => true
  | .gridConfig _ => true
  | .gridSource _ => true
  | .calSet _ => true
  | .calGet _ => true
  | .calRefine _ => true
  | .checkConfig _ => true
  | .fusionStatus _ => true
  | .checkDecision _ _ => true
  | .checkSourceClean source => decide (source < 64)
  | .haloCopy _ width hmax c0 c1 _ _ _ => decide (0 < width) && decide (width ≤ hmax) && decide (hmax ≤ 32) && decide (c0 < c1)
  | .calRefineTick _ => true
  | .slvLoad _ => true
  | .slvUpdate _ => true
  | .slvSolve _ => true
  | .slvStatus _ => true
  | .slvUnload _ => true
  | .ppConfig _ => true
  | .ppStatus _ => true
  | .slvStepBoundary _ _ => true
  | .slvDeadline _ => true
  | .slvSolveEnd _ _ => true
  | .ppRecord => true
  | .locConfig _ => true
  | .locStatus _ => true
  | .locReset _ => true
  | .wheelConfig _ => true
  | .gnssConfig _ => true
  | .gnssFix _ => true
  | .loopConfig _ => true
  | .poseGet _ => true
  | .locLostTimeout => true
  | .locReinitTimeout => true
  | .locInitStart => true
  | .tickDeadline => true
  | .loopCorrectionApply => true
  | .mapStatus _ => true
  | .mapConfig _ => true
  | .mapLoad _ => true
  | .mapExport _ => true
  | .mapGet _ => true
  | .mapSession _ => true
  | .mapClear _ => true
  | .mapReclaim => true
  | .prsStatus _ => true
  | .prsIndex _ => true
  | .prsTreeLoad _ => true
  | .prsUpdate _ => true
  | .prsQuery _ => true
  | .prsCompact _ => true
  | .prsConfig _ => true
  | .batchWindowClose _ => true
  | .roundMerge _ _ => true
  | .shardCompaction _ _ _ => true
  | .outPort _ => true
  | .outRoute _ => true
  | .outStatus _ => true
  | .outBulk _ => true
  | .eventGet _ => true
  | .guideConfig _ => true
  | .guidePath _ => true
  | .guideSelect _ => true
  | .guideStatus _ => true
  | .txPartSend _ => true
  | .eventMsgForm _ => true
  | .diagMsgForm _ => true
  | .guideInstant => true
  | .jobCommit _ _ => true
  | .jobFault _ cause source _ _ _ _ => decide (cause < 256) && decide (source ≤ 12)
  | .jobRestart _ => true
  | .flitParityError _ _ _ _ => true
  | .linkCrcError _ _ => true
  | .linkRetrain _ _ _ => true
  | .cpWatchdog _ => true
  | .cpSramUe _ _ => true
  | .pllLockLoss _ _ => true
  | .refClockLoss _ _ => true
  | .powerStatus _ => true
  | .powerConfig _ => true
  | .domainPower _ => true
  | .diePower _ => true
  | .diePowerOnDone _ _ units => units.all (fun u => decide (u < 1088))
  | .domainPowerGood _ _ => true
  | .pwrSense _ => true
  | .limiterEval _ cores => decide (cores.length = 8)
  | .thermalEval tj => decide (tj.length = 8)
  | .stRun _ => true
  | .stProgress _ => true
  | .stFuse _ => true
  | .stFuseStatus _ => true
  | .stSliceStart _ => true
  | .stSliceBusy _ => true
  | .stSliceEnd _ out => out.wellFormed
  | .stSliceTimeout _ => true
  | .stWindowVoid _ => true
  | .fuseRecordBlow _ => true
  | .secStatus _ => true
  | .idInfo _ => true
  | .attest _ => true
  | .fwUpdate _ => true
  | .secRollback _ => true
  | .secRevoke _ => true
  | .debugChallenge _ => true
  | .debugUnlock _ => true
  | .cryptoOpDone _ => true
  | .debugTapInstruction instr => instr.wellFormed
  | .holdoverClassChange _ => true
  | .busOffRecoveryDone _ => true
  | .guidanceFrameTx => true
  | .readOutsideWindow words => decide (0 < words)
  | .healthTestFailure => true

end Sys2Proof
end

