-- ==== Sys2Proof/Tests/Slice0.lean ====
section
/-! SUPPORT. The model's own tests: operands that well-formedness refuses, and for each statement states and operands that meet
its hypotheses together, with one step each where the spec gives a number to check. -/

namespace Sys2Proof.Tests

open Sys2Proof.Machine

-- One theorem after another, so that the package as one text holds few threads at a time.
set_option Elab.async false

/-! ## Small states -/

/-- A device that has been brought up: firmware runs, every domain is on, 8 GiB on each channel. -/
def up : Device := { Device.reset with
  boot := { Boot.reset with
    state := .done, step := 10, lastDone := 10, ready := true, fwStarted := true, memCap := 128
    used := [1, 2, 4, 5, 6, 7, 8, 9, 10], pll := true }
  pwr := { Power.reset with domains := (List.range 8).map fun k => (k, 0xFFF) } }

/-- A request of an opcode with its payload. -/
def rq (op : Nat) (body : List Byte) : Request := ⟨op, 1, body.length, 0, 0, 0, body⟩

/-- A device whose channel 0 has taken a request. -/
def asked (d : Device) (r : Request) : Device := d.setChan 0 { Channel.reset with state := .busy, taken := some r }

/-- A state of a device, with the memories of reset. -/
def st (d : Device) : State := ⟨d, Store.reset, []⟩

/-- A state in which channel 0 has taken a request. -/
def asks (d : Device) (r : Request) : State := st (asked d r)

/-- A boot sequencer that has done a step. -/
def stepped (n : Nat) : Device := { Device.reset with
  boot := { Boot.reset with state := .done, step := n, lastDone := n, soft := [] } }

/-! ## Well-formedness -/

theorem test_ill_formed : ([.setmwl 65536, .setmrl 65536, .enthdrUnsupported 4, .i3cMalformedTransfer (.unaligned 8),
    .registerWrite 0 [], .rcRegisterRead 0, .clocks (.pllLock 8 0), .trainItemEnd 0 1 0, .bootFwwinWrite 2 [0],
    .kat [] [1088], .ptpMessageTx 0 16 0, .csiFrameStart 0 16 0 0 0, .csiLinePacket 0 0 64 0 true [] 0,
    .csiEmbeddedData 0 0 3 [], .csiFrameEnd 0 16 0 0, .csiBulkPacket 0 0 64 0 [], .sweepClose 24,
    .canFrameRx 0 true false false 2048 [] 0, .canErrorState 0 false 65536 0, .streamDropout 30, .streamRecover 30,
    .sfeChannelStart 64, .sfeOutputSample 31 [] [], .sfeDetectorWindow 64 [] [], .iepeBiasFault 64, .resolverLos 64,
    .sfeFaultRecover 64, .phaseAutoUpdate 64, .sfeInputClamp 64] : List Instr).all (fun c => !c.wellFormed) = true := by
  decide +kernel

theorem test_ill_formed_more : ([.sweep (List.replicate 257 0), .memCompletion 1096 0, .mscRequest 1 128 false 0 .clean,
    .steBandWrite 0 [], .haloCopy 0 0 1 0 1 (0, 0) (0, 0) false, .checkSourceClean 64, .jobFault 0 256 0 0 0 none 0,
    .limiterEval 0 [], .thermalEval [], .diePowerOnDone 0 [] [1088], .stSliceEnd 0 ⟨[⟨0, 258, 0, 0, 0, false⟩], [], 0, 0⟩,
    .debugTapInstruction (.bypass 2 1), .readOutsideWindow 0,
    .ptpMessageRx 0 ⟨0, 16, true, 0, 0, 0, false, 0, 0, 0, 0, 0, 0, true, 0, false⟩ 0,
    .ptpEventForward 0 ⟨0, 2, true, 0, 0, 0, false, 0, 0, 0, 0, 0, 0, true, 0, false⟩ 2 1] : List Instr).all
      (fun c => !c.wellFormed) = true := by
  decide +kernel

theorem test_well_formed : ([.setmwl 65535, .enthdrUnsupported 3, .trainItemEnd 0 2 255, .csiFrameStart 15 15 65535 2 0,
    .mscRequest 0 128 true 2 .clean, .streamDropout 29, .sfeChannelStart 63, .readOutsideWindow 1] : List Instr).all
      (fun c => c.wellFormed) = true := by
  decide +kernel

/-! ## The machine, resets, the bus, registers -/

/-- A second command waits behind the first. -/
theorem witness_step : ((⟨Device.reset, Store.reset, [.enec, .disec]⟩ : State).pending = [.enec, .disec]) ∧
    step ⟨Device.reset, Store.reset, [.enec, .disec]⟩ = exec .enec ⟨Device.reset, Store.reset, [.disec]⟩ :=
  ⟨rfl, rfl⟩

theorem witness_idle : State.reset.pending = [] := rfl

theorem witness_next : ∃ t, exec .enec State.reset = .next t := ⟨_, rfl⟩

theorem witness_debug_refused :
    exec (.debugTapInstruction .cp) (st { up with sec := { up.sec with scopes := 1 } }) = .refused .debugUnitNotDescribed :=
  rfl

theorem witness_canonical : State.reset.mem.canonical = true ∧ ∃ t, step State.reset = .next t := ⟨by decide +kernel, ⟨_, rfl⟩⟩

theorem witness_resets :
    ({ Device.reset with pkg := { Device.reset.pkg with ballLow := true } } : Device).pkg.ballLow = true ∧
    State.reset.dev.takesPrivate = true ∧ (0 : Word) ≠ 0x0860DEAD := by decide +kernel

theorem witness_cccs : State.reset.dev.takesCcc = true ∧ ∀ b ∈ State.reset.dev.evt.ibi, b < 256 := by decide +kernel

theorem witness_bus :
    (State.reset.dev.pkg.targetUp = true ∧ State.reset.dev.i3c.rstact ≠ some 0 ∧ State.reset.dev.i3c.rstact ≠ some 2) ∧
    (let d : Device := { up with i3c := { I3c.reset with rstact := some 2 } };
      d.pkg.targetUp = true ∧ d.i3c.rstact = some 2) ∧
    (State.reset.dev.takesPrivate = true ∧ (0xFFFFFFFC : Word).toNat % 4 = 0) ∧
    (State.reset.dev.i3c.dyn = none ∧ State.reset.dev.i3c.hjOn = true ∧ State.reset.dev.i3c.hjSent = false) ∧
    (let d : Device := { up with i3c := { I3c.reset with dyn := some 9 }, evt := { Evt.reset with ibi := [0x43] } };
      d.evt.ibi = 0x43 :: [] ∧ d.takesCcc = true ∧ d.i3c.dyn.isSome = true ∧ d.i3c.ibiOn = true) ∧
    (State.reset.dev.takesCcc = true ∧ 1 ≤ 3 ∧ 3 ≤ 3) := by decide +kernel

theorem witness_registers :
    (up.takesPrivate = true ∧ 8 ≤ up.i3c.mwl) ∧
    (let d : Device := { up with i3c := { I3c.reset with readPtr := 0x207C } };
      4 ≤ d.i3c.mrl ∧ d.i3c.readPtr = BitVec.ofNat 32 (0x2040 + 4 * (15 : Fin 16).val)) ∧
    (up.evt.ringWr < 512 ∧ up.evt.ringRd = up.evt.ringWr ∧ (0 : Word).toNat = up.evt.ringRd) ∧
    (up.evt.ringRd = up.evt.ringWr ∧ (511 : Word).toNat % 512 ≠ up.evt.ringRd) ∧ up.windowsOpen = true := by decide +kernel

theorem witness_read_outside :
    let d : Device := { up with i3c := { I3c.reset with readPtr := 0xFFFFF000 } };
    d.takesPrivate = true ∧ 4 * 2 ≤ d.i3c.mrl ∧
      (∀ k, k < 2 → windowOf ((d.i3c.readPtr.toNat + 4 * k) % 2 ^ 32) = none) ∧ d.i3c.readPtr.toNat + 4 * 2 < 2 ^ 32 := by
  decide +kernel

theorem witness_violations :
    up.vlogMerges 0 0 2 16 = false ∧ (up.violation 0 0 2 16).vlogMerges 0 0 2 16 = true := by decide +kernel

/-! ## Bring-up -/

theorem witness_boot_steps :
    (State.reset.dev.takesPrivate = true ∧ State.reset.dev.pkg.shutdown = false ∧
      State.reset.dev.boot.permits 1 = true) ∧
    ((∀ k, k < 8 → (stepped 1).fuse.records k = []) ∧ (stepped 1).boot.permits 2 = true) ∧
    (stepped 2).boot.permits 3 = true ∧ (stepped 3).boot.permits 4 = true ∧
    ((stepped 4).boot.train = [] ∧ (stepped 4).view.lanes = [] ∧ (stepped 4).boot.permits 5 = true) ∧
    (stepped 6).boot.permits 7 = true ∧
    ((stepped 7).pwr.dieOn &&& ~~~ ((0xFE : BitVec 8) ||| BitVec.twoPow 8 (stepped 7).lead) = 0 ∧
      (stepped 7).boot.permits 8 = true) ∧
    ((stepped 8).boot.soft.length ≤ 256 ∧ (stepped 8).boot.permits 9 = true) ∧ (stepped 9).boot.permits 10 = true := by
  decide +kernel

/-- A flash that holds the header of an image of 64 bytes. -/
def headed : Cells := Cells.writeAll 0xFF#8 [] 0 ([0x4B, 0x52, 0x46, 0x57] ++ leBytes 2 1 ++ leBytes 2 64 ++ leBytes 4 64)

theorem witness_fw_load : (stepped 5).boot.permits 6 = true ∧ (stepped 5).boot.fwSrc = 0 ∧
    headerCheck (Cells.readAll 0xFF#8 headed ((stepped 5).boot.fwOfs * 65536) 12) = .ok 64 := ⟨by decide +kernel, rfl, rfl⟩

/-- A sequencer with a step in progress. -/
def busy (n : Nat) (r : Option StepResult) : Device := { Device.reset with
  boot := { Boot.reset with state := .busy, step := n, result := r, train := (List.range 48).map (·, 1) } }

theorem witness_boot_events :
    ((busy 2 (some .done)).boot.state = .busy ∧ (busy 2 (some .done)).boot.step ≠ 10 ∧
      (busy 2 (some .done)).boot.result = some .done) ∧
    (busy 10 (some (.failed 0x60 0 0))).boot.result = some (.failed 0x60 0 0) ∧
    (26 ≤ (47 : Fin 48).val ∧ (busy 5 none).boot.step = 5 ∧ (busy 5 none).boot.train.getD 47 0 = 1 ∧
      (busy 5 none).boot.train.getD 0 0 = 1) ∧
    (let d : Device := { Device.reset with
        boot := { Boot.reset with state := .waitData, fwPtr := 33554428, fwLen := 33554433 } };
      d.takesPrivate = true ∧ 8 ≤ d.i3c.mwl ∧ 33554428 % 4 = 0 ∧ 33554428 < 33554432 ∧ d.boot.state = .waitData ∧
        d.boot.fwPtr = 33554428 ∧ 33554428 + 4 < d.boot.fwLen) ∧
    ((busy 6 none).boot.step ≠ 8 ∧ ¬ ((busy 6 none).boot.step = 6 ∧ (busy 6 none).boot.fwSrc = 1)) ∧
    (State.reset.dev.takesPrivate = true ∧ State.reset.dev.boot.permits 2 = false ∧
      State.reset.dev.boot.permits 10 = false ∧ State.reset.dev.boot.permits ((256 : Word).toNat % 256) = false ∧
      State.reset.dev.boot.permits ((11 : Word).toNat % 256) = false ∧ 8 ≤ State.reset.dev.i3c.mwl) ∧
    ((stepped 1).boot.permits 1 = false ∧ (busy 5 none).boot.permits 5 = false ∧ up.boot.permits 10 = false) := by
  decide +kernel

/-! ## Mailboxes -/

/-- A channel whose request page holds a NOP without payload, with another CRC word where `crc` is not 0. -/
def paged (crc : Nat) : Device := up.setChan 0 { Channel.reset with
  req := Cells.writeAll 0#8 [] 0 (leBytes 2 0x0100 ++ leBytes 2 7 ++ leBytes 8 0 ++ leBytes 4 crc) }

theorem witness_doorbell :
    ((paged 0).takesPrivate = true ∧ (paged 0).windowsOpen = true ∧ ((paged 0).chan 0).state ≠ .busy ∧
      (paged 0).evt.faultCp.getLsbD (paged 0).lead = false ∧ ((paged 0).chan 0).request.len ≤ 4016 ∧
      ((paged 0).chan 0).request.crcOk = true ∧
      (∀ e ∈ ((paged 0).chan 0).store, e.seq ≠ ((paged 0).chan 0).request.seq) ∧
      staticCheck (paged 0) ((paged 0).chan 0).request = none) ∧
    (((paged 1).chan 0).request.crcOk = false ∧ ((paged 1).chan 0).state ≠ .busy) ∧
    ((asked up (rq 0x0100 [])).chan 0).state = .busy ∧ (0 : Word) ≠ 1 := by decide +kernel

theorem witness_publish :
    (up.takesPrivate = true ∧ up.windowsOpen = true ∧ (up.chan 0).state ≠ .busy) ∧
    (let d := up.setChan 0 { Channel.reset with state := .busy, taken := some (rq 0x0100 []), formed := some (okWith []) };
      (d.chan 0).state = .busy ∧ (d.chan 0).taken = some (rq 0x0100 []) ∧ (d.chan 0).formed = some (okWith [])) ∧
    ([] : List StoreEntry).length ≤ 64 ∧ (okWith []).status ≠ 0x13 := by decide +kernel

/-- A device on which handle 1 is pending, or complete with three bytes. -/
def held (final : Option Nat) : Device := { up with
  mbx := ⟨[], [(1, ⟨0, 0x0108, final, [1, 2, 3], false, false, false⟩)], 2, [1]⟩ }

theorem witness_mailbox :
    (asks up (rq 0x0100 [1])).holds 0 0x0100 (rq 0x0100 [1]) ∧
    (let r := rq 0x0101 (leBytes 4 1);
      (asks (held none) r).holds 0 0x0101 r ∧ ((asks (held none) r).dev.handle (r.u 0 4)).isSome = true) ∧
    (let r := rq 0x0102 (leBytes 4 1 ++ leBytes 4 3 ++ leBytes 2 10 ++ leBytes 2 0);
      (asks (held (some 0)) r).holds 0 0x0102 r ∧
        (((asks (held (some 0)) r).dev.handle (r.u 0 4)).map fun h => (h.final.isSome, h.result.length)) = some (true, 3) ∧
        r.u 4 4 ≤ 3 ∧ r.u 10 2 = 0) ∧
    (let r := rq 0x0103 (leBytes 4 1);
      (asks (held none) r).holds 0 0x0103 r ∧ (((asks (held none) r).dev.handle (r.u 0 4)).map (·.final)) = some none) ∧
    (let r := rq 0x0108 [];
      (asks up r).holds 0 0x0108 r ∧ (asks up r).dev.mbx.handles.length < 256) ∧
    ((held none).mbx.diagHandle = 1 :: [] ∧ ((held none).mbx.handles.look 1).map (·.final) = some none) := by decide +kernel

/-! ## Device time, triggers and PTP -/

/-- 100 ms after reset, in device time too. -/
def later (d : Device) : Device := d.advance (100 * oneMs)

theorem witness_time :
    (asks up (rq 0x0200 [])).holds 0 0x0200 (rq 0x0200 []) ∧
    (let r := rq 0x0201 (leBytes 12 0);
      (asks up r).mayConfigure 0 setTimeConfig r) ∧
    (let r := rq 0x0202 (leBytes 16 0);
      (asks up r).holds 0 0x0202 r ∧ (asks up r).dev.time.source = 0 ∧ (asks up r).dev.time.step = none) ∧
    (let r := rq 0x0203 ([1, 3, 0, 0] ++ leBytes 24 (oneS - 1));
      (asks up r).mayConfigure 0 setCompSet r ∧ r.u 0 1 = 1 ∧ r.u 1 1 < 4 ∧
        (asks up r).dev.pwr.dieOn.getLsbD (r.u 1 1 / 2) = true ∧ (r.i 4 8).natAbs ≤ oneS ∧ (r.i 12 8).natAbs ≤ oneS ∧
        (r.i 20 8).natAbs ≤ oneS) ∧
    (let r := rq 0x0204 [0, 15];
      (asks up r).holds 0 0x0204 r ∧ r.u 0 1 = 0 ∧ r.u 1 1 < 16) ∧
    (let r := rq 0x0205 ([7, 0, 0, 0] ++ leBytes 8 (100000 * oneNs) ++ leBytes 8 0 ++ leBytes 4 2000000);
      (asks up r).mayConfigure 0 setTrigGroup r ∧ r.u 1 1 = 0 ∧ ((asks up r).dev.group (r.u 0 1)).running = false ∧
        100000 * oneNs ≤ r.u 4 8 ∧ r.u 4 8 ≤ 10 * oneS ∧ r.u 12 12 ≠ 0 ∧ r.u 20 4 < 1000000000 ∧
        (asks up r).dev.time.ns16 + 2 * oneMs ≤ r.u 12 8 * oneS + r.u 20 4 * oneNs ∧
        (asks up r).dev.periodFits (r.u 0 1) (r.u 4 8) = true) ∧
    (let r := rq 0x0206 [15, 0xFF];
      (asks up r).mayConfigure 0 setTrigOut r ∧ (asks up r).dev.pwr.dieOn.getLsbD (r.u 0 1 / 2) = true ∧ r.u 1 1 = 0xFF) ∧
    (let r := rq 0x0206 ([15, 7, 0, 0] ++ leBytes 8 0 ++ leBytes 8 100);
      (asks up r).mayConfigure 0 setTrigOut r ∧ (asks up r).dev.pwr.dieOn.getLsbD (r.u 0 1 / 2) = true ∧ r.u 1 1 < 8 ∧
        100 ≤ r.u 12 8 ∧ ((asks up r).dev.group (r.u 1 1)).hasPeriod = false) ∧
    (let r := rq 0x0207 ([3, 2, 0, 0, 0, 0, 0, 0, 128, 128, 0, 0]);
      (asks up r).mayConfigure 0 setPtpPort r ∧ r.u 0 1 < 4 ∧ r.u 10 1 = 0 ∧ r.u 1 1 < 4 ∧
        (asks up r).dev.pwr.dieOn.getLsbD (r.u 0 1 / 2) = true ∧
        ((asks up r).dev.ptp (partner (r.u 0 1))).role = r.u 1 1) ∧
    (asks up (rq 0x0208 [3])).holds 0 0x0208 (rq 0x0208 [3]) ∧
    (let r := rq 0x0209 (leBytes 16 0);
      (asks up r).mayConfigure 0 setPpsConfig r) := by decide +kernel

/-- Output 15 in group 7, which runs; no profile. -/
def triggered : Device := { up with tim := { Timing.reset with
  groups := [(7, ⟨true, true, oneMs, oneMs, 0, none⟩)], outs := [(15, ⟨some ⟨7, 0, 0, 0, 100 * oneNs⟩, none, []⟩)] } }

theorem witness_triggers :
    (0 < triggered.time.addend ∧ (triggered.group 7).running = true ∧ (triggered.group 7).change = none ∧
      triggered.jobs.profile.state = .none ∧ ((triggered.tout 15).cfg.map (·.group)) = some 7 ∧
      (triggered.tout 15).next = none ∧ triggered.drives (15 / 2) = true) ∧
    (let d : Device := { up with tim := { Timing.reset with outs := [(0, ⟨none, none, [(5, 9)]⟩)] } };
      (d.tout 0).pulses = [(5, 9)]) := by decide +kernel

/-- PPS in and out switched on. -/
def pps (run : Nat) (last : Option Int) : Device := { up with tim := { Timing.reset with
  pps := { Pps.reset with inEn := true, outEn := true, outHigh := true, run := run, lastQual := last } } }

theorem witness_pps :
    ((pps 0 none).tim.pps.inEn = true ∧ (pps 0 none).tim.pps.lastQual = none ∧ (pps 0 none).time.onPps = false ∧
      (pps 0 none).time.ppsSeconds = none ∧ (pps 0 none).time.following ≠ 4) ∧
    (3 ≤ (pps 3 (some 0)).tim.pps.run ∧ (pps 3 (some 0)).tim.pps.qualified = false) ∧
    (pps 3 (some 0)).tim.pps.lastQual.isSome = true ∧ (pps 0 none).tim.pps.outEn = true ∧
    (pps 0 none).tim.pps.outHigh = true := by decide +kernel

/-- A servo in a state, following source 2. -/
def servo (v : Servo) : Device := { up with time := { TimeBase.reset with
  servo := v, source := 2, following := 2, goodRun := 16, badRun := 8, allowStep := true
  step := some ⟨5, 0, true⟩ } }

theorem witness_servo :
    ((servo .acquire).time.servo = .acquire ∧ 16 ≤ (servo .acquire).time.goodRun) ∧
    ((servo .locked).time.servo = .locked ∧ 8 ≤ (servo .locked).time.badRun ∧ (servo .locked).time.allowStep = true) ∧
    ((servo .holdover).time.servo = .holdover ∧ 2 ≤ (servo .holdover).time.source) ∧
    (servo .free).time.step.isSome = true ∧
    ((7 : Fin 8).val ≠ up.lead ∧ up.pwr.dieOn.getLsbD 7 = true ∧ 200 < 201 ∧ up.evt.faultTb.getLsbD 7 = false) := by
  decide +kernel

/-- A device whose port 3 has a role, a master heard when `heard`, and a residence value held. -/
def ptpDevice (role : Nat) (heard : Bool) : Device := { up with tim := { Timing.reset with
  ptp := [(3, { PtpPort.reset with role := role, foreign := if heard then some ⟨7, 0, false, 2, 0, 0⟩ else none })]
  residence := [(3, [⟨1, 5, 0⟩])] } }

/-- A PTP message of a type. -/
def ptpMsg (type : Nat) : PtpMsg := ⟨0, 2, true, 64, type, 9, false, 0, 0, 0, 254, 7, 3, true, 0, false⟩

theorem witness_ptp :
    ((ptpDevice 1 false).boot.fwStarted = true ∧ (ptpDevice 1 false).pwr.dieOn.getLsbD (3 / 2) = true ∧
      ((ptpDevice 1 false).ptp 3).role = 1 ∧ ((ptpDevice 1 false).ptp 3).foreign = none ∧
      (ptpMsg 11).domain = (ptpDevice 1 false).time.domain ∧ (ptpMsg 11).nanos < 1000000000 ∧
      (ptpMsg 11).stepsRemoved < 255 ∧ (ptpMsg 11).grandmaster ≠ (ptpDevice 1 false).fuse.clockIdentity) ∧
    ((ptpDevice 1 true).masterPort = some 3 ∧ ((ptpDevice 1 true).ptp 3).foreign.isSome = true) ∧
    (((ptpDevice 3 false).ptp 3).peer = true ∧ ((ptpDevice 2 false).ptp 3).role = 2 ∧ 0 ≤ (ptpMsg 0).correction ∧
      (ptpMsg 0).twoStep = false) ∧
    (ptpDevice 2 false).residences 3 = [⟨1, 5, 0⟩] := by decide +kernel

/-! ## Sensor ingest -/

/-- A request of opcode `op` whose payload is `n` zero bytes but for little-endian fields (offset, width, value). -/
def body (n : Nat) (fs : List (Nat × Nat × Nat)) : List Byte :=
  fs.foldl (fun (b : List Byte) (x : Nat × Nat × Nat) => b.take x.1 ++ leBytes x.2.1 x.2.2 ++ b.drop (x.1 + x.2.1)) (zeros n)

/-- A request with such a payload. -/
def rqf (op n : Nat) (fs : List (Nat × Nat × Nat)) : Request := rq op (body n fs)

/-- Host buffer 1, interleaved, of one stripe row on every pitch of the package. -/
def withBuf (d : Device) : Device :=
  { d with memsys := { d.memsys with bufs := d.memsys.bufs.put 1 ⟨0, 0, (List.range 48).map fun k => 1024 * k, false, false⟩ } }

/-- A device whose ingest differs. -/
def ingest (f : Ingest → Ingest) : Device := { up with ing := f up.ing }

theorem witness_ingest_commands :
    (let r := rqf 0x0300 16 [(0, 1, 135)]; (asks up r).mayConfigure 0 setStreamConfig r ∧ isStream (r.u 0 1) = true ∧ 
      r.u 1 1 = 0) ∧
    (let r := rqf 0x0300 16 [(0, 1, 15), (1, 1, 1), (2, 1, 16)]; (asks up r).mayConfigure 0 setStreamConfig r ∧ 
      r.u 0 1 < 24 ∧ r.u 1 1 ≠ 0 ∧ 3 ≤ r.u 2 1 ∧ r.u 2 1 ≤ 16 ∧ (asks up r).dev.streamUp (r.u 0 1) = true ∧
      ((asks up r).dev.stream (r.u 0 1)).state = .off ∧
      (((asks up r).dev.updStream (r.u 0 1) (streamSet r)).enableStream (r.u 0 1)).isSome = true) := by decide +kernel

theorem witness_ingest_reports :
    (let r := rqf 0x0301 4 [(0, 1, 29)]; (asks up r).holds 0 0x0301 r ∧ isStream (r.u 0 1) = true) ∧ 
    (let r := rqf 0x0302 24 [(0, 1, 15), (2, 1, 4), (16, 2, 0xFFFF)]; (asks up r).mayConfigure 0 setCsiPort r ∧ 
      csiFieldsOk r = true ∧ (asks up r).dev.csiUp (r.u 0 1) = true ∧ ((asks up r).dev.stream (r.u 0 1)).state = .off) ∧
    (let r := rqf 0x0303 8 [(0, 1, 7), (1, 1, 1), (4, 4, 33333)]; (asks up r).mayConfigure 0 setPairConfig r ∧ 
      r.u 1 1 = 1 ∧ ((asks up r).dev.pair (r.u 0 1)).enabled = false) ∧
    (let r := rqf 0x0304 28 [(0, 1, 3)]; (asks up r).mayConfigure 0 setEthPort r ∧ 
      (asks up r).dev.ethUp (r.u 0 1) = true) ∧
    (let r := rqf 0x0305 4 [(0, 1, 3)]; (asks up r).holds 0 0x0305 r) ∧ 
    (let r := rqf 0x0306 100 [(0, 1, 23), (1, 1, 3)]; (asks up r).mayConfigure 0 setLidarStream r ∧ 
      ((asks up r).dev.stream (r.u 0 1)).state = .off) ∧
    (let r := rqf 0x0307 88 [(0, 1, 3), (3, 1, 1), (4, 4, 10000), (8, 4, 400), (28, 1, 1), (29, 1, 0xFF), (32, 2, 0xFFFF),
        (40, 2, 0xFFFF), (48, 2, 0xFFFF), (56, 2, 0xFFFF), (64, 2, 0xFFFF), (72, 2, 0xFFFF), (80, 2, 0xFFFF)];
      (asks up r).mayConfigure 0 setImuPort r ∧ imuFieldsOk r = true ∧
      (asks up r).dev.pwr.dieOn.getLsbD (2 * r.u 0 1) = true ∧
      ((asks up r).dev.stream (24 + r.u 0 1)).state = .off) := by decide +kernel

theorem witness_encoder_can_commands :
    (let r := rqf 0x0308 12 [(0, 1, 7), (4, 4, 1000)]; (asks up r).mayConfigure 0 setEncConfig r ∧ r.u 1 1 = 0 ∧ 
      (asks up r).dev.pwr.dieOn.getLsbD (r.u 0 1) = true) ∧
    (let r := rqf 0x0309 16 [(0, 1, 1), (1, 1, 1), (4, 4, 125000), (12, 2, 1000)];
      (asks up r).mayConfigure 0 setCanController r ∧ r.u 1 1 = 1 ∧ 125000 ≤ r.u 4 4 ∧ r.u 4 4 ≤ 1000000 ∧
      r.u 2 1 = 0 ∧ r.u 12 2 ≤ 1000 ∧ r.u 14 2 ≤ 1000 ∧ (asks up r).dev.pwr.dieOn.getLsbD 0 = true) ∧
    (let r := rqf 0x030A 28 [(0, 1, 1), (1, 1, 31), (2, 1, 1), (3, 1, 1), (12, 1, 7), (14, 2, 511), (16, 1, 32)];
      (asks up r).mayConfigure 0 setCanFilter r ∧ (List.range (r.u 3 1)).all (canSignalOk r) = true) ∧
    (let r := rqf 0x030B 24 [(1, 1, 15), (4, 4, 1), (8, 8, 0), (16, 4, 16)]; let s := asks (withBuf up) r;
      s.holds 0 0x030B r ∧ r.u 0 1 = 0 ∧ r.u 1 1 < 16 ∧ isHostBuf (r.u 4 4) = true ∧
      ((s.dev.buf (r.u 4 4)).map fun b => decide (r.u 8 8 + r.u 16 4 ≤ b.size) && !b.lost && !s.dev.bufHeld (r.u 4 4) b) =
        some true ∧ s.dev.csiUp (r.u 1 1) = true ∧ s.dev.ing.bulk.length < 4 ∧ s.dev.mbx.handles.length < 256) := by
  decide +kernel

/-- A port with its stream on, a small frame and a bulk channel; perhaps with a frame open. -/
def camera (f : Option OpenFrame) (bulk : List Bulk) : Device :=
  let d := ingest fun i => { i with
    streams := [(15, { Stream.reset with state := .active })]
    csi := [(15, { CsiPort.reset with width := 2, height := 2, embOff := 0, frame := f, bulkVc := 3 })], bulk := bulk };
  { d with mbx := { d.mbx with handles := [(1, ⟨0, 0x030B, none, [], false, false, false⟩)] } }

theorem witness_csi_packets :
    ((camera none []).csiTakes 15 = true ∧ ((camera none []).csi 15).frame = none) ∧
    (let d := camera (some ⟨none, 0, 0, 0, none, 7, 0x2C, 0, 0, [], none⟩) [];
      d.csiTakes 15 = true ∧ (d.csi 15).frame.isSome = true ∧ 0 < (d.csi 15).height ∧
      ([1, 2] : List Nat).length = (d.csi 15).width ∧ (d.csi 15).embOff ≠ 0xFFFF ∧
      (d.csi 15).embOff + (d.csi 15).embLen ≤ ([1, 2] : List Byte).length) ∧
    (let bytes : List Byte := leBytes 2 0x4B42 ++ leBytes 2 1 ++ leBytes 4 1 ++ leBytes 8 0 ++ [9];
      let d := camera none [⟨1, 0, 15, 1, 0, 1, 0, []⟩];
      d.csiTakes 15 = true ∧ (d.csi 15).bulkVc ≠ 0xFF ∧ (d.ing.bulk.find? (fun y => y.handle == fieldAt bytes 4 4 && y.path == 0 && y.port == 15)) =
        some ⟨1, 0, 15, 1, 0, 1, 0, []⟩ ∧ fieldAt bytes 0 2 = 0x4B42 ∧ fieldAt bytes 8 8 = 0 ∧ fieldAt bytes 2 2 = 1 ∧
      16 + 1 ≤ bytes.length ∧ (d.mbx.handles.look 1).map (fun h => (h.final, h.cancel)) = some (none, false)) := by
  decide +kernel

/-- A pair of a run of frames, and a stream of a state. -/
def paired (p : Pair) (x : StreamState) : Device := ingest fun i => { i with
  pairs := [(7, p)], streams := [(29, { Stream.reset with state := x, timeout := 100, recover := 3, good := 3 })] }

theorem witness_pairs_streams :
    (let d := paired ⟨true, 33333, false, none, none, 8, 0, none⟩ .active;
      (d.pair 7).enabled = true ∧ (d.pair 7).lost = false ∧ 8 ≤ (d.pair 7).unpairedRun ∧ d.streamTimeout 29 ≠ 0 ∧
      (d.stream 29).state = .active) ∧
    (let d := paired ⟨true, 33333, true, none, none, 0, 3, none⟩ .dropout;
      (d.pair 7).enabled = true ∧ (d.pair 7).lost = true ∧ 3 ≤ (d.pair 7).pairRun ∧ (d.stream 29).state = .dropout ∧
      d.streamRecover 29 ≤ (d.stream 29).good) := by decide +kernel

/-- A unicast frame of 60 bytes for another station. -/
def foreignFrame : List Byte := [0x02, 0x11] ++ zeros 58

/-- Ethernet port 3 with a frame to send, lidar 23 with a sweep, an IMU. -/
def sensed (busy : Option Nat) : Device := ingest fun i => { i with
  eth := [(3, { EthPort.reset with upper := [[1, 2, 3]] })]
  streams := [(23, { Stream.reset with state := .active }), (27, { Stream.reset with state := .active })]
  lidar := [(23, { Lidar.reset with origin := some 0, sweep := some ⟨0, 0, 0, 0, 0, false, false, none⟩ })]
  imu := [(3, { ImuPort.reset with busy := busy, specs := ⟨0, 0, 0⟩ :: List.replicate 6 .absent })] }

theorem witness_bridges_lidars_imus :
    (let d := sensed none;
      d.ethUp 3 = true ∧ d.ethUp (partner 3) = true ∧ 60 ≤ foreignFrame.length ∧ foreignFrame.length ≤ 9212 ∧
      beNat (foreignFrame.take 6) ≠ (d.macOf 3).toNat ∧ beNat (foreignFrame.take 1) % 2 = 0 ∧
      isPtp (ethInfo foreignFrame) (udpOf foreignFrame (ethInfo foreignFrame)) = false ∧
      (d.eth (partner 3)).queued + foreignFrame.length + 4 ≤ 524288 ∧ (d.eth 3).upper = [[1, 2, 3]] ∧
      (d.stream 23).state ≠ .off ∧ (d.lidar 23).origin.isSome = true ∧ (d.lidar 23).sweep.isSome = true ∧
      (d.stream 27).state ≠ .off ∧ d.pwr.dieOn.getLsbD 6 = true ∧ (d.imu 3).busy = none) ∧
    ((sensed (some 5)).imu 3).busy = some 5 ∧ (((sensed (some 5)).imu 3).specs.take 6).any (·.present) = true := by
  decide +kernel

/-- Encoder 7 in quadrature, and the two CAN controllers, one with a filter. -/
def wheels (err : Nat) : Device := ingest fun i => { i with
  enc := [(7, { Encoder.reset with mode := 1, flags := 2, rate := 100 })]
  streams := [(29, { Stream.reset with state := .active }), (135, { Stream.reset with state := .active })]
  can := [(0, { CanCtrl.reset with enable := true, err := err }),
    (1, { CanCtrl.reset with enable := true, filters := [(31, ⟨true, false, 0x100, 0x7F0, [⟨1, 0, 0, 8, 0, false, 0, 0⟩]⟩)] })] }

theorem witness_encoders_can :
    (let d := wheels 1;
      (d.enc 7).mode ≠ 0 ∧ (d.enc 7).flags / 2 % 2 = 1 ∧ (d.enc 7).rate ≠ 0 ∧ d.pwr.dieOn.getLsbD 7 = true ∧
      ((d.enc 7).move true false).isSome = true ∧ (d.stream 135).state ≠ .off ∧ (d.stream 29).state ≠ .off ∧
      (d.can 1).enable = true ∧ (d.can 1).err ≠ 2 ∧ d.pwr.dieOn.getLsbD 0 = true ∧
      ((List.range 31).all fun j => (d.can 1).filters.look j == none) = true ∧
      (((d.can 1).filters.look 31).map fun f => f.enable && !f.extended &&
        Nat.land 0x10F f.mask == Nat.land f.id f.mask && f.signals.all fun g => (g.raw [5]).isSome) = some true ∧
      (d.can 0).enable = true ∧ (d.can 0).err ≠ 2 ∧ (d.can 0).err ≠ 0 ∧
      ((List.range 32).all fun i => (d.can 0).filters.look i == none) = true) := by decide +kernel

/-! ## The sensing front end -/

/-- A device whose sensing front ends differ. -/
def sensing (f : Sfe → Sfe) : Device := { up with sfe := f up.sfe }

/-- Stream 63, running at the full rate, or as given. -/
def sfeOne (k : Nat) (x : SfeStream) : Device := sensing fun f => { f with streams := [(k, x)] }

/-- A running stream: path 1, M 1. -/
def sfeRun : SfeStream := { SfeStream.reset with state := .active, enable := true, path := 1, m := 1, detOn := true }

theorem witness_sfe_channel :
    (let r := rqf 0x0400 28 [(0, 1, 32)];
      (asks up r).mayConfigure 0 setSfeChannel r ∧ r.u 1 1 = 0 ∧ (asks up r).dev.sfeDomain (sfeDie (r.u 0 1)) = true ∧
        r.u 0 1 ≠ railStream (sfeDie (r.u 0 1))) ∧
    (let r := rqf 0x0400 28 [(0, 1, 63), (1, 1, 1), (4, 1, 1), (5, 1, 12), (6, 1, 64), (16, 4, 1024)];
      let s := asks up r;
      s.mayConfigure 0 setSfeChannel r ∧ r.u 1 1 = 1 ∧ sfeFieldsOk r = true ∧
        s.dev.sfeDomain (sfeDie (r.u 0 1)) = true ∧ r.u 0 1 ≠ railStream (sfeDie (r.u 0 1)) ∧
        (s.dev.sfeS (r.u 0 1)).state ≠ .cal ∧ r.u 7 1 ≠ 1 ∧ r.u 0 1 < 64 ∧
        (((s.dev.updSfe (r.u 0 1) (sfeSet r)).sfeRing (r.u 0 1) false).sfeS (r.u 0 1)).buf.isSome = true) ∧
    (let r := rqf 0x0400 28 [(0, 1, 64), (1, 1, 1), (16, 4, 1024)]; let s := asks up r;
      s.mayConfigure 0 setSfeChannel r ∧ r.u 1 1 = 1 ∧ sfeFieldsOk r = true ∧
        s.dev.sfeDomain (sfeDie (r.u 0 1)) = true ∧ r.u 0 1 ≠ railStream (sfeDie (r.u 0 1)) ∧
        (s.dev.sfeS (r.u 0 1)).state ≠ .cal ∧ r.u 7 1 ≠ 1 ∧
        (s.dev.sfeScan (sfeDie (r.u 0 1))).fits
          ((s.dev.updSfe (r.u 0 1) (sfeSet r)).auxEnabled (sfeDie (r.u 0 1))).length = true ∧
        (((s.dev.updSfe (r.u 0 1) (sfeSet r)).sfeRing (r.u 0 1) false).sfeS (r.u 0 1)).buf.isSome = true) := by
  decide +kernel

theorem witness_sfe_settings :
    (let r := rqf 0x0401 8 [(0, 1, 7), (2, 1, 8), (3, 1, 4), (4, 4, 1000000)]; let s := asks up r;
      s.mayConfigure 0 setSfeAuxScan r ∧ r.u 4 4 ≤ 1000000 ∧ s.dev.sfeDomain (r.u 0 1) = true ∧
        (⟨r.u 1 1, r.u 2 1, r.u 3 1, r.u 4 4, none, 0⟩ : SfeScan).fits (s.dev.auxEnabled (r.u 0 1)).length = true) ∧
    (let r := rqf 0x0402 12 [(0, 1, 7), (1, 1, 1), (4, 4, 65536000), (8, 2, 7000)]; let s := asks up r;
      s.mayConfigure 0 setSfeExc r ∧ excOk r = true ∧ s.dev.sfeDomain (r.u 0 1) = true ∧
        s.dev.excServes (r.u 0 1) (r.u 1 1) (r.u 4 4) = true) ∧
    (let r := rqf 0x0403 12 [(0, 1, 63), (1, 1, 1), (3, 1, 15), (4, 1, 15), (8, 4, 10000000)]; let s := asks up r;
      s.mayConfigure 0 setSfeDetect r ∧ s.dev.sfeDomain (sfeDie (r.u 0 1)) = true ∧ bit (r.u 1 1) 0 = true ∧
        r.u 2 1 ≤ (s.dev.sfeS (r.u 0 1)).h ∧ r.u 3 1 ≤ 15 ∧ r.u 4 1 ≤ 15 ∧ 1000 ≤ r.u 8 4 ∧ r.u 8 4 ≤ 10000000) ∧
    (let r := rqf 0x0404 12 [(0, 1, 127), (1, 1, 1)]; let s := asks up r;
      s.mayConfigure 0 setSfeCal r ∧ r.u 1 1 = 1 ∧ s.dev.sfeDomain (sfeDie (r.u 0 1)) = true) ∧
    (let r := rqf 0x0404 12 [(0, 1, 32)]; let s := asks up r;
      s.mayConfigure 0 setSfeCal r ∧ r.u 1 1 = 0 ∧ s.dev.sfeDomain (sfeDie (r.u 0 1)) = true ∧
        s.dev.sfe.cal.look (sfeDie (r.u 0 1)) = none ∧ s.dev.mbx.handles.length < 256) ∧
    (let r := rqf 0x0405 4 [(0, 1, 127)]; (asks up r).holds 0 0x0405 r ∧
      (asks up r).dev.sfeDomain (sfeDie (r.u 0 1)) = true) ∧
    (let r := rqf 0x0406 4 [(0, 1, 2)]; (asks up r).holds 0 0x0406 r ∧ r.u 2 2 < hbTaps (r.u 0 1)) := by decide +kernel

/-- A detector window. -/
def aWindow : SfeWin := ⟨0, 4, 5, -5, 0, 40, 5, 5, false, false, false⟩

/-- Die 0 calibrates under handle 1. -/
def calibrating : Device :=
  let d := sensing fun f => { f with cal := [(0, ⟨32, some 1, 0, false⟩)], scan := [(7, { SfeScan.reset with a0 := some 0 })] };
  { d with mbx := { d.mbx with handles := [(1, ⟨0, 0x0404, none, [], false, false, false⟩)] } }

theorem witness_sfe_events :
    ((sfeOne 63 { sfeRun with start := some 20000 }).sfeS 63).start = some 20000 ∧
    (let d := sfeOne 63 sfeRun;
      d.sfeRuns 63 = true ∧ ((sfePushAll 63 [5] [] d).sfeS 63).complete (d.sfeS 63).next = true) ∧
    (let d := sfeOne 32 { sfeRun with ready := [aWindow] };
      d.sfeRuns 32 = true ∧ (d.sfeS 32).detOn = true ∧ ((sfePushAll 32 [] [] d).sfeS 32).ready = aWindow :: []) ∧
    ((calibrating.sfeScan 7).a0 = some 0 ∧ calibrating.sfeDomain 7 = true ∧ calibrating.auxCal 7 = false) ∧
    (calibrating.sfe.cal.look 0 = some ⟨32, some 1, 0, false⟩ ∧
      (calibrating.mbx.handles.look 1).map (·.final) = some none) ∧
    (let d := sfeOne 63 { sfeRun with coupling := 2 };
      d.sfeLive 63 = true ∧ (d.sfeS 63).coupling = 2) ∧
    (let d := sfeOne 62 { sfeRun with res := true, low := 8 };
      d.sfeLive 62 = true ∧ (d.sfeS 62).res = true ∧ 8 ≤ (d.sfeS 62).low) ∧
    (let d := sfeOne 62 { sfeRun with res := true, good := 8, state := .fault };
      (d.sfeS 62).state = .fault ∧ (d.sfeS 62).res = true ∧ 8 ≤ (d.sfeS 62).good) ∧
    (let d := sensing fun f => { f with streams := [(62, { sfeRun with res := true })], exc := [(7, ⟨1, true, 65536000, 7000, 0⟩)] };
      d.sfeRuns 62 = true ∧ (d.sfeS 62).res = true ∧ (d.sfeExc (sfeDie 62)).auto = true ∧ (d.sfeExc 7).mode ≠ 0) ∧
    up.sfeDomain (sfeDie 127) = true := by decide +kernel

/-! ## Jobs, profiles, power -/

/-- Host buffer 1, one pitch of channel 0. -/
def oneBuf (d : Device) : Device :=
  { d with memsys := { d.memsys with bufs := d.memsys.bufs.put 1 ⟨2, 0, [0], false, false⟩ } }

/-- A job image of one buffer slot and one part of one unit. -/
def jobImage : List Byte :=
  let tail := zeros 8 ++ [0, 1, 1, 1] ++ zeros 28;
  body 64 [(0, 4, 0x424F4A4B), (4, 2, 1), (6, 1, 1), (7, 1, 1), (16, 8, 104), (24, 8, 72), (32, 8, 104), (40, 8, 104),
    (48, 4, crc32c tail)] ++ tail

/-- JOB_SUBMIT of the image in buffer 1 bound to buffer 1. -/
def submit : Request := rqf 0x0500 36 [(0, 4, 1), (16, 8, 104), (28, 1, 1), (32, 4, 1)]

/-- A state in which buffer 1 holds bytes and channel 0 has taken a request. -/
def asksBuf (d : Device) (bs : List Byte) (r : Request) : State :=
  ⟨asked (oneBuf d) r, Store.reset.bufWrite ⟨2, 0, [0], false, false⟩ 0 bs, []⟩

/-- The request of the state fits its buffers (the part all images share). -/
def fits (s : State) (r : Request) (bufs : List Nat) : Bool :=
  (match s.dev.buf (r.u 0 4) with | some b => decide (r.u 8 8 + r.u 16 8 ≤ b.size) && !b.lost | none => false)
    && !bufs.any (fun i => (s.dev.buf i).isNone)

theorem witness_job_images :
    (let s := asksBuf up jobImage submit;
      s.holds 0 0x0500 submit ∧ fits s submit [1] = true ∧
      (s.dev.bufRead s.mem 1 0 104).toOption = some jobImage ∧ s.roomy ∧
      imageError jobImage 1 (s.dev.bindOk [1]) = none ∧ s.dev.couldPlan [] (imageParts jobImage) = true ∧
      (allocSnaps (imageGrants jobImage [1]) s.dev).isSome = true) ∧
    (let bad := jobImage.take 103 ++ [7]; let s := asksBuf up bad submit;
      s.holds 0 0x0500 submit ∧ fits s submit [1] = true ∧ (s.dev.bufRead s.mem 1 0 104).toOption = some bad ∧ s.roomy ∧
      imageError bad 1 (s.dev.bindOk [1]) = some (2, 0)) := by decide +kernel

/-- Job 1 of the device, under handle 1. -/
def jobDev (j : Job) : Device :=
  { up with
    jobs := { Jobs.reset with table := [(1, j)] }
    mbx := { up.mbx with handles := [(1, ⟨0, 0x0500, none, [], false, false, false⟩)] } }

/-- A job of an image under handle 1. -/
def aJob (st : JobState) : Job :=
  { Job.blank .user .image with handle := some 1, state := st, image := jobImage, parts := imageParts jobImage, admitted := 1 }

/-- An image of a profile without buffers, networks or records. -/
def profileImage : List Byte :=
  body 64 [(0, 4, 0x4652504B), (4, 2, 1), (8, 4, 77), (16, 8, 64), (32, 8, 64), (40, 8, 64), (48, 8, 64), (56, 4, crc32c [])]

/-- A device with an active profile. -/
def profiled : Device :=
  { up with jobs := { Jobs.reset with profile := { Profile.reset with state := .active } } }

theorem witness_job_answers :
    (let s := asks (jobDev (aJob .waiting)) (rqf 0x0501 4 [(0, 2, 1)]);
      s.holds 0 0x0501 (rqf 0x0501 4 [(0, 2, 1)]) ∧ s.dev.job 1 = some (aJob .waiting)) ∧
    (asks up (rq 0x0502 [])).holds 0 0x0502 (rq 0x0502 []) ∧
    (let r := rqf 0x0503 4 [(0, 1, 255), (2, 2, 65535)]; (asks up r).holds 0 0x0503 r) ∧
    (asks up (rq 0x0508 [])).holds 0 0x0508 (rq 0x0508 []) ∧
    (let s := asks profiled (rq 0x0507 []); s.holds 0 0x0507 (rq 0x0507 []) ∧ s.dev.jobs.profile.state = .active ∧
      s.dev.mbx.handles.length < 256) := by decide +kernel

theorem witness_profile_loads :
    (let r := rqf 0x0506 24 [(0, 4, 1), (16, 8, 64)]; let s := asksBuf up profileImage r;
      s.holds 0 0x0506 r ∧ s.dev.jobs.profile.state = .none ∧ r.u 0 4 ≠ 0 ∧ isHostBuf (r.u 0 4) = true ∧
      fits s r [] = true ∧ s.dev.bufReady (r.u 0 4) = true ∧ s.dev.mbx.handles.length < 256 ∧
      ((Device.extendConfig { s.dev with mbx := s.dev.mbx.taking 0 0x0506 } 0x0506 r.body).bufRead s.mem (r.u 0 4)
        (r.u 8 8) (r.u 16 8)).toOption = some profileImage ∧
      (loadImage profileImage (Device.extendConfig { s.dev with mbx := s.dev.mbx.taking 0 0x0506 } 0x0506 r.body)
        s.mem).toBool = true) := by decide +kernel

theorem witness_profile_zero :
    (let r := rqf 0x0506 24 []; let s := asks up r;
      s.holds 0 0x0506 r ∧ s.dev.jobs.profile.state = .none ∧ r.u 0 4 = 0 ∧ s.dev.mbx.handles.length < 256 ∧
      (loadZero (Device.extendConfig { s.dev with mbx := s.dev.mbx.taking 0 0x0506 } 0x0506 r.body) s.mem).toBool =
        true) := by decide +kernel

theorem witness_jobs_placed :
    (let d := jobDev (aJob .waiting); let j := aJob .waiting;
      d.job 1 = some j ∧ j.state = .waiting ∧ j.cls ≠ .test ∧ d.grantsLost j = false ∧ d.enginesPlan j = true ∧
      (d.planView j).couldPlan [] j.parts = true ∧ d.startable 1 j = true ∧
      d.jobs.table.any (fun e => e.2.before j && d.startable e.1 e.2) = false ∧ (d.planJob j).isSome = true) ∧
    (let d := jobDev (aJob .loading); d.job 1 = some (aJob .loading) ∧ (aJob .loading).state = .loading ∧
      d.jobLoaded 1 (aJob .loading) = true) := by decide +kernel

theorem witness_jobs_restarted :
    (let d := jobDev (aJob .restarting); let j := aJob .restarting; let x := (snapCopy true j.grants (d, Store.reset)).1;
      d.job 1 = some j ∧ j.state = .restarting ∧ j.work = .image ∧ j.lost = false ∧ d.grantsLost j = false ∧
      j.failing = false ∧ x.domainWait j = false ∧ x.enginesPlan j = true ∧ (x.planView j).couldPlan [] j.parts = true ∧
      (x.planJob j).isSome = true) ∧
    (let j := { aJob .restarting with failing := true }; let d := jobDev j;
      d.job 1 = some j ∧ j.state = .restarting ∧ j.work = .image ∧ j.lost = false ∧ d.grantsLost j = false ∧
      j.failing = true ∧ j.handle = some 1 ∧ (d.mbx.handles.look 1).map (·.final) = some none) := by decide +kernel

theorem witness_jobs_commit :
    (let j := aJob .running; let d := jobDev j;
      d.job 1 = some j ∧ d.commitReady 1 j = true ∧ j.work = .image ∧ j.handle = some 1 ∧
      (d.mbx.handles.look 1).map (·.final) = some none) ∧
    (let j := { Job.blank .tick .tick with deadline := some 5, state := .running }; let d := jobDev j;
      d.job 1 = some j ∧ d.ticks.find? (fun t => t.2.deadline.isSome && !t.2.late) = some (1, j)) := by decide +kernel

/-- A domain of die 7 is off, or on its way back; die 6 is off, or on its way back. -/
def power (pending : Bool) : Device :=
  { up with pwr := { up.pwr with
    dieOn := 0xBF, domains := (List.range 7).map (·, 0xFFF) ++ [(7, 0x7FF)], pendingOn := if pending then 0x40 else 0
    resetting := if pending then [(domKey 7 11, none)] else [] } }

theorem witness_power_commands :
    (asks up (rq 0x0110 [])).holds 0 0x0110 (rq 0x0110 []) ∧
    (let r := rqf 0x0111 4 [(0, 1, up.fuse.powerW)]; let s := asks up r;
      s.holds 0 0x0111 r ∧ s.dev.boot.ready = true ∧ r.u 0 1 ≤ s.dev.fuse.powerW) ∧
    (let r := rqf 0x0114 12 [(0, 1, 1)]; (asks up r).holds 0 0x0114 r) ∧
    (let r := rqf 0x0112 4 [(0, 1, 7), (1, 1, 11)]; let s := asks up r;
      s.holds 0 0x0112 r ∧ s.dev.boot.ready = true ∧ s.dev.pwr.dieOn.getLsbD (r.u 0 1) = true ∧ r.u 1 1 < 12 ∧
      s.dev.domainPending (r.u 0 1) (r.u 1 1) = false ∧ r.u 2 1 = 0 ∧ s.dev.domainKept (r.u 0 1) (r.u 1 1) = false) ∧
    (let r := rqf 0x0112 4 [(0, 1, 7), (1, 1, 11), (2, 1, 1)]; let s := asks (power false) r;
      s.holds 0 0x0112 r ∧ s.dev.boot.ready = true ∧ s.dev.pwr.dieOn.getLsbD (r.u 0 1) = true ∧
      s.dev.domainPending (r.u 0 1) (r.u 1 1) = false ∧ r.u 2 1 ≠ 0 ∧ s.dev.domainOn (r.u 0 1) (r.u 1 1) = false) := by
  decide +kernel

theorem witness_die_commands :
    (let r := rqf 0x0113 4 [(0, 1, 6), (1, 1, 1)]; let s := asks (power false) r;
      s.holds 0 0x0113 r ∧ s.dev.boot.ready = true ∧ s.dev.pwr.pendingOn.getLsbD (r.u 0 1) = false ∧ r.u 1 1 = 1 ∧
      r.u 0 1 < 8 ∧ s.dev.pwr.dieOn.getLsbD (r.u 0 1) = false ∧ s.dev.dieBusy (r.u 0 1) = false ∧
      s.dev.mbx.handles.length < 256) ∧
    (let r := rqf 0x0113 4 [(0, 1, 7)]; let s := asks up r;
      s.holds 0 0x0113 r ∧ s.dev.boot.ready = true ∧ s.dev.pwr.pendingOn.getLsbD (r.u 0 1) = false ∧ r.u 1 1 ≠ 1 ∧
      s.dev.dieKept (r.u 0 1) = false ∧ s.dev.profileDie (r.u 0 1) = false ∧ s.dev.dieBusy (r.u 0 1) = false ∧
      s.dev.mbx.handles.length < 256) ∧
    (let r := rqf 0x0504 4 [(0, 1, 7), (1, 1, 11)]; let s := asks up r;
      s.holds 0 0x0504 r ∧ s.dev.domainPending (r.u 0 1) (r.u 1 1) = false ∧ r.u 1 1 < 12 ∧
      s.dev.domainOn (r.u 0 1) (r.u 1 1) = true) ∧
    (let r := rqf 0x0505 4 [(0, 1, 7)]; let s := asks up r;
      s.holds 0 0x0505 r ∧ s.dev.dieKept (r.u 0 1) = false ∧ s.dev.dieBusy (r.u 0 1) = false ∧
      s.dev.mbx.handles.length < 256) := by decide +kernel

theorem witness_power_events :
    (power true).domainPending 7 11 = true ∧ (power true).pwr.pendingOn.getLsbD 6 = true ∧ up.powerRuns = true ∧
    (∀ v ∈ ([1299, -400] : List Int), v < 1300) ∧
    (7 < 8 ∧ 7 < (List.replicate 8 (1300 : Int)).length ∧ up.pwr.dieOn.getLsbD 7 = true ∧
      1300 ≤ (List.replicate 8 (1300 : Int)).getD 7 0) := by decide +kernel

theorem witness_package_faults :
    (up.pwr.dieOn.getLsbD 7 = true ∧ 1088 ≤ 1088) ∧
    (let d : Device := { up with units := [(1087, { CUnit.reset with tags := 1 })] };
      1087 < 1088 ∧ (d.unit 1087).tags ≠ 0 ∧ (d.unit 1087).job = 0) ∧
    linkState up.view up.pwr.dieOn 9 < 2 ∧
    (let d : Device := { up with boot := { up.boot with cpRunning := 0x80 } };
      d.boot.cpRunning.getLsbD 7 = true ∧ d.pwr.dieOn.getLsbD 7 = true ∧ d.boot.fwStarted = true) ∧
    (up.boot.pll = true ∧ up.domainOn 7 11 = true) := by decide +kernel

/-! ## Units, clusters, memory -/

/-- One load record of kind 1 for slot 0: 64 bytes to scratch 0x4000. -/
def loadList : List Byte := [0, 1, 1, 0] ++ leBytes 4 0x4000 ++ leBytes 2 64 ++ zeros 6 ++ zeros 64

/-- A part of one unit on cluster 63. -/
def aPart : Part := ⟨0, 1, 1, 1, some 63, [0], [63 * 17], [0], [0], 0, 1, 0, 0⟩

/-- A job of that part: its schedule's entry moves 64 bytes between buffer 1 and the landing. -/
def partJob (st : JobState) (flags : Nat) : Job :=
  { Job.blank .user .image with
    state := st, image := loadList, parts := [aPart], grants := [⟨1, 2, 0, 0⟩], admitted := 1
    sched := body 32 [(2, 2, 0xFFFF), (7, 1, flags), (24, 2, 1), (28, 2, 0)] }

/-- That job, with unit 1071, and with a packet on the cluster's port. -/
def unitDev (st : JobState) (flags : Nat) (u : CUnit) : Device :=
  oneBuf { up with
    jobs := { Jobs.reset with table := [(1, partJob st flags)] }
    units := [(1071, { u with job := 1 })]
    clusters := [(63, { Cluster.reset with
      slots := [(0, 1)], blocks := [(0, 1)], groups := [(0, 1)]
      packets := [⟨9, 1, 1, 0x4000, zeros 64, 1, 0, 0, 0, []⟩] })] }

/-- A running unit. -/
def runningUnit : CUnit := { CUnit.reset with state := .running }

/-- A state with a descriptor at index 0 of unit 1071, whose flags are 0xFFFF but for fields given. -/
def atDesc (d : Device) (fs : List (Nat × Nat × Nat)) : State :=
  ⟨d, Store.reset.sramWrite (scratchAddr 1071 0) (body 64 ([(4, 2, 0xFFFF), (8, 2, 0xFFFF)] ++ fs)), []⟩

theorem witness_cluster_reports :
    (let r := rqf 0x0520 4 [(0, 1, 63)]; (asks up r).holds 0 0x0520 r ∧
      (asks up r).dev.pwr.dieOn.getLsbD (r.u 0 1 / 8) = true) ∧
    (let r := rqf 0x0521 4 [(0, 2, 1087)]; (asks up r).holds 0 0x0521 r ∧
      (asks up r).dev.pwr.dieOn.getLsbD (r.u 0 2 / 136) = true) := by decide +kernel

theorem witness_broadcast :
    (let d := unitDev .loading 0 CUnit.reset; let c := { d.cluster 63 with packets := [] };
      d.job 1 = some (partJob .loading 0) ∧ (partJob .loading 0).parts[0]? = some aPart ∧ aPart.cluster = some 63 ∧
      ((aPart.segRecs loadList)[aPart.loaded + (c.packets.filter fun k => k.job == 1 && k.part == 0).length]?).isSome =
        true ∧ c.packets.length < 4) ∧
    (let d := unitDev .loading 0 CUnit.reset;
      ((d.cluster 63).packet 9).map (fun pk => (bit pk.target 0, bit pk.acks 0)) = some (true, false) ∧
      d.slotPhys 63 0 = some 1071) := by decide +kernel

theorem witness_sequencer :
    (let d := unitDev .running 0 runningUnit; let s := atDesc d [(0, 1, 0x62)];
      let x := (d.unit 1071).advanced (unitDesc s.mem 1071 0);
      d.job 1 = some (partJob .running 0) ∧ (d.unit 1071).state = .running ∧ x.invalid = false ∧ x.waitFlag = 0xFFFF ∧
      x.sigFlag = 0xFFFF ∧ d.waitMet 63 x.waitFlag x.waitCount = true ∧ (d.unit 1071).tags = 0 ∧ tagsOf x ≤ 32 ∧
      (d.cluster 63).held + tagsOf x ≤ 448 ∧ x.op ≠ 0x63 ∧ x.op ≠ 0x64 ∧ x.p0 ≤ 1 ∧
      ((Env.mk d s.mem (partJob .running 0) 1 1071).run x).toBool = true) ∧
    (let d := unitDev .running 0 runningUnit; let s := atDesc d [(0, 1, 0x63)];
      let x := (d.unit 1071).advanced (unitDesc s.mem 1071 0);
      x.invalid = false ∧ x.waitFlag = 0xFFFF ∧ x.sigFlag = 0xFFFF ∧ x.op = 0x63 ∧
      ((d.unit 1071).loop x).isSome = true) ∧
    (let d := unitDev .running 0 runningUnit; let s := atDesc d [(0, 1, 0x60), (4, 2, 31), (6, 2, 1), (8, 2, 31), (10, 1, 63), (11, 1, 1)];
      let x := (d.unit 1071).advanced (unitDesc s.mem 1071 0);
      x.invalid = false ∧ d.holdsFlag 1 63 x.waitFlag = true ∧ d.holdsFlag 1 x.sigCluster x.sigFlag = true ∧
      d.waitMet 63 x.waitFlag x.waitCount = false) ∧
    (let d := unitDev .running 0 runningUnit; let s := atDesc d [];
      ((d.unit 1071).advanced (unitDesc s.mem 1071 0)).invalid = true) ∧
    (let d := unitDev .running 0 runningUnit; let s := atDesc d [(0, 1, 0x64), (40, 4, 1)];
      (unitDesc s.mem 1071 0).op = 0x64 ∧ (d.unit 1071).tags = 0 ∧ (d.unit 1071).signals = [] ∧
      bit (unitDesc s.mem 1071 0).p0 0 = true) := by decide +kernel

theorem witness_flags_completions :
    (let d := unitDev .running 0 { runningUnit with signals := [⟨63, 31, 2, false⟩], tags := 0 };
      (d.unit 1071).signals = [⟨63, 31, 2, false⟩] ∧ (d.unit 1071).tags = 0) ∧
    (let d := unitDev .running 0 { runningUnit with state := .waiting }; let s := atDesc d [];
      (d.unit 1071).state = .waiting ∧ d.waitMet 63 (unitDesc s.mem 1071 0).waitFlag (unitDesc s.mem 1071 0).waitCount = true) ∧
    (let d := unitDev .running 0 { runningUnit with state := .waiting }; let s := atDesc d [(4, 2, 31), (6, 2, 1)];
      (d.unit 1071).state = .waiting ∧
      d.waitMet 63 (unitDesc s.mem 1071 0).waitFlag (unitDesc s.mem 1071 0).waitCount = false ∧
      d.job (d.unit 1071).job = some (partJob .running 0)) ∧
    (let d := unitDev .running 0 { runningUnit with tags := 32 };
      1071 < 1088 ∧ (d.unit 1071).tags ≠ 0 ∧ [0x05, 0x06, 0x08, 0x09].elem 0x09 = true ∧
      d.job (d.unit 1071).job = some (partJob .running 0)) ∧ 1088 ≤ 1095 := by decide +kernel

theorem witness_schedules :
    (let d := unitDev .running 1 runningUnit; let j := partJob .running 1; let x := schedEntry j.sched j.schedPos;
      d.job 1 = some j ∧ j.state = .running ∧ j.schedPos < j.schedLen ∧ j.partBase x.part = some (63, 0, 0) ∧
      resolveFlag 0 x.waitFlag = 0xFFFF ∧ d.waitMet 63 0xFFFF x.waitCount = true ∧ (d.buf 1).isSome = true ∧
      j.grants.getD x.slot ⟨0, 0, 0, 0⟩ = ⟨1, 2, 0, 0⟩ ∧ x.slot < j.grants.length ∧ x.offset + x.len ≤ 2097152 ∧
      d.holdsBlocks 1 63 x.dest x.len = true ∧ d.holdsFlag 1 63 (resolveFlag 0 x.sigFlag) = true ∧
      bit x.flags 0 = true ∧ bit x.flags 1 = false ∧ (d.bufRead Store.reset 1 x.offset x.len).toBool = true) ∧
    (let d := unitDev .running 2 runningUnit; let j := partJob .running 2; let x := schedEntry j.sched j.schedPos;
      d.job 1 = some j ∧ j.partBase x.part = some (63, 0, 0) ∧ bit x.flags 0 = false ∧ bit x.flags 1 = true ∧
      (d.bufStore Store.reset 1 x.offset (Store.reset.sramRead (landAddr 63 x.dest) x.len)).toBool = true) := by
  decide +kernel

theorem witness_buffers :
    (asks up (rq 0x0600 [])).holds 0 0x0600 (rq 0x0600 []) ∧
    (let r := rqf 0x0601 12 [(0, 8, 2097153), (8, 1, 2)]; let s := asks up r;
      s.holds 0 0x0601 r ∧ targetOk (r.u 8 1) (r.u 9 1) = true ∧ s.dev.memsys.hostCount < 4096 ∧
      (s.dev.place (r.u 8 1) (r.u 9 1) ((r.u 0 8 + pitchSize - 1) / pitchSize)).isSome = true) ∧
    (let r := rqf 0x0602 4 [(0, 4, 1)]; let s := asks (oneBuf up) r;
      s.holds 0 0x0602 r ∧ isHostBuf (r.u 0 4) = true ∧
      ((s.dev.buf (r.u 0 4)).map fun b => b.lost || !s.dev.bufHeld (r.u 0 4) b) = some true) ∧
    (let r := rqf 0x0603 8 [(0, 4, 1), (4, 4, 1)]; let s := asks (oneBuf up) r;
      s.holds 0 0x0603 r ∧ ((s.dev.buf (r.u 0 4)).map fun b => decide (r.u 4 4 ≤ b.pitches.length)) = some true) ∧
    (let r := rqf 0x0604 20 [(0, 4, 1), (8, 8, 2097151), (16, 4, 1)]; let s := asks (oneBuf up) r;
      s.holds 0 0x0604 r ∧ ((s.dev.buf (r.u 0 4)).map fun b => decide (r.u 8 8 + r.u 16 4 ≤ b.size) && !b.lost) = some true ∧
      (s.dev.bufRead s.mem (r.u 0 4) (r.u 8 8) (r.u 16 4)).toBool = true) ∧
    (let r := rqf 0x0605 25 [(0, 4, 1), (8, 8, 2097151), (16, 4, 1), (24, 1, 7)]; let s := asks (oneBuf up) r;
      s.holds 0 0x0605 r ∧ isHostBuf (r.u 0 4) = true ∧
      ((s.dev.buf (r.u 0 4)).map fun b => decide (r.u 8 8 + r.u 16 4 ≤ b.size) && !b.lost && !s.dev.bufHeld (r.u 0 4) b) =
        some true ∧ (s.dev.bufStore s.mem (r.u 0 4) (r.u 8 8) (r.bytes 24 (r.u 16 4))).toBool = true) := by decide +kernel

theorem witness_slices :
    (let pa := 15 * 2 ^ 34 + 8 * 2 ^ 30 - 1;
      pa / 2 ^ 34 < 16 ∧ up.channelUp (pa / 2 ^ 34) = true ∧ up.mscTested (pa / 2 ^ 34) = false ∧
      pa % 2 ^ 34 < up.density * 2 ^ 30 ∧ 0 < 1 ∧ pa % 128 + 1 ≤ 128 ∧ (1 : Fin 3).val ≠ 2 ∧
      up.pwr.noalloc.getLsbD (pa / 2 ^ 34) = false ∧ (up.memsys.msc.getD (mscKey pa) MscSet.empty).ways.length = 16 ∧
      up.memsys.holdsSector pa = false) ∧
    (up.channelUp 15 = true ∧ up.density ≠ 0 ∧ up.mscTested 15 = false) := by decide +kernel

/-! ## Vision -/

/-- Settings of a small stereo image. -/
def smallSte : SteCfg := ⟨0, 0, 255, 64, 64, 0, 64, 10, 120, 2, 4, 1, 2, 3⟩

/-- Settings of a small tracked image. -/
def smallFte : FteCfg := ⟨0, 0, 255, 8, 1, 1, 8, 4, 0, true, 64, 4, 2, 8, 30, 0, 400, 100, 128, 6144, 128, 0, 0, 0⟩

/-- A DORMANT track at its age. -/
def dormantTrack : FteCtx := ⟨5, 3, 0, 0, 0, 0, 1, 0, 30, zeros 32⟩

/-- Die 7 with small images, buffer 1, engine operations, and landing blocks and flags of job 1. -/
def vision (ste : List SteOp) (fte : List FteOp) : Device :=
  oneBuf { up with
    ing := { up.ing with csi := [(15, { CsiPort.reset with width := 64, height := 64 })] }
    vis := { up.vis with
      pairs := [(7, { StePair.reset with cfg := some smallSte })]
      streams := [(15, { FteStream.reset with cfg := some smallFte, enable := true, core := { FteCore.reset with ctxs := [(2, dormantTrack)], frozen := 1 } })]
      ste := ste, fte := fte }
    clusters := [(63, { Cluster.reset with blocks := [(0, 1), (1, 1)], groups := [(31, 1)] })] }

/-- A stereo operation of job 1. -/
def aSte : SteOp := ⟨1, 7, false, smallSte, [], [], some ⟨1, 0, none⟩, some ⟨1, 0, none⟩, 0, 0, 3, 0, 0, 0, false, false, 1, 0⟩

/-- A tracking operation of job 1. -/
def aFte : FteOp := ⟨1, 15, true, smallFte, false, none, some ⟨1, 0, none⟩, none, 0, false, none, 1, 0⟩

theorem witness_ste_commands :
    (let r := rqf 0x0700 24 [(0, 1, 7), (6, 2, 64), (8, 2, 64), (15, 1, 1)]; let s := asks up r;
      s.mayConfigure 0 setSteConfig r ∧ steFieldsOk r = true ∧ s.dev.visionUp (r.u 0 1) = true) ∧
    (let r := rqf 0x0701 16 [(0, 1, 7), (1, 1, 1), (2, 1, 1)]; let s := asks up r;
      s.mayConfigure 0 setSteMap r ∧ s.dev.visionUp (r.u 0 1) = true ∧ r.u 2 1 % 2 = 1) ∧
    (let r := rqf 0x0701 16 [(0, 1, 7), (1, 1, 1), (4, 4, 1)]; let s := asks (vision [] []) r;
      s.mayConfigure 0 setSteMap r ∧ s.dev.visionUp (r.u 0 1) = true ∧ r.u 2 1 % 2 = 0 ∧
      (s.dev.hostBytes s.mem (r.u 4 4) (r.u 8 8) (mapBytes (s.dev.steCfg (r.u 0 1)).outW (s.dev.steCfg (r.u 0 1)).outH)).isSome =
        true) ∧
    (let r := rqf 0x0702 16 [(0, 1, 7), (1, 1, 1), (2, 1, 1)]; let s := asks up r;
      s.mayConfigure 0 setSteMask r ∧ s.dev.visionUp (r.u 0 1) = true ∧ r.u 2 1 % 2 = 1) ∧
    (let r := rqf 0x0702 16 [(0, 1, 7), (1, 1, 1), (4, 4, 1)]; let s := asks (vision [] []) r;
      s.mayConfigure 0 setSteMask r ∧ s.dev.visionUp (r.u 0 1) = true ∧ r.u 2 1 % 2 = 0 ∧
      (s.dev.hostBytes s.mem (r.u 4 4) (r.u 8 8)
        (maskBytes (s.dev.steCfg (r.u 0 1)).outW (s.dev.steCfg (r.u 0 1)).outH)).isSome = true) ∧
    (let r := rqf 0x0703 4 [(0, 1, 7)]; (asks up r).holds 0 0x0703 r ∧ (asks up r).dev.visionUp (r.u 0 1) = true) := by
  decide +kernel

theorem witness_ste_run :
    (let r := rqf 0x0704 48 [(0, 1, 7), (4, 4, 1), (16, 4, 1), (28, 4, 1), (40, 4, 1)]; let s := asks (vision [] []) r;
      s.holds 0 0x0704 r ∧ s.roomy ∧ s.dev.engineUp (r.u 0 1) 0 = true ∧
      ([r.u 4 4, r.u 16 4, r.u 28 4, r.u 40 4].all fun id => isHostBuf id && (s.dev.buf id).isSome) = true ∧
      s.dev.frameInside s.mem (r.u 4 4) (r.u 8 8) = true ∧ s.dev.frameInside s.mem (r.u 16 4) (r.u 20 8) = true ∧
      r.u 32 8 + 4096 + 3 * (s.dev.steCfg (r.u 0 1)).outW * (s.dev.steCfg (r.u 0 1)).outH ≤
        (s.dev.buf (r.u 28 4)).elim 0 (·.size) ∧
      4 * (s.dev.steCfg (r.u 0 1)).outW * (s.dev.steCfg (r.u 0 1)).outH ≤ (s.dev.buf (r.u 40 4)).elim 0 (·.size)) := by
  decide +kernel

theorem witness_ste_operations :
    (let d := vision [aSte] []; let f : FrameSrc := ⟨1, 0, none⟩;
      d.visionUp 7 = true ∧ d.engineTested 7 0 = false ∧
      d.pickSte 7 (fun o => !o.absent && o.builtL < o.cfg.bands && (match d.steSource o 0 with
          | some f => d.bandReady o 0 f
          | none => false)) = some aSte ∧ d.steSource aSte 0 = some f ∧
      ((d.buf 1).map fun b => d.rangeError b f.off (d.source Store.reset f).size false) = some none) ∧
    (let o := { aSte with builtL := 1, builtR := 1 }; let d := vision [o] [];
      (((d.steOps 7).find? fun o => d.vis.steOn.look 7 == some o.job && d.steMatching o).orElse
        fun _ => d.pickSte 7 d.steMatching) = some o) ∧
    (let o := { aSte with tick := true, absent := true }; let d := vision [o] [];
      let slots : List (Nat × Nat × Nat × Nat) := [(63, 0, 992, 993), (63, 1, 994, 995)];
      2 ≤ slots.length ∧ slots.length ≤ 16 ∧ d.pickSte 7 (·.bandDue) = some o ∧
      (slots.map fun x => (⟨x.1, x.2.1, x.2.2.1, x.2.2.2⟩ : BandSlot)).all (d.slotOk o.job o.cfg) = true ∧
      o.band / slots.length ≤ d.flag 63 993) ∧
    (let o := { aSte with absent := true }; let d := vision [o] []; let x := d.steOutput Store.reset o;
      d.pickSte 7 (·.finished) = some o ∧
      (((d.bufStore Store.reset 1 4096 x.disp).toOption.bind fun a =>
        (a.1.bufStore a.2 1 (4096 + x.disp.length) x.qual).toOption).bind fun b =>
        (b.1.bufStore b.2 1 0 x.record).toOption).isSome = true) := by decide +kernel

theorem witness_fte_commands :
    (let r := rqf 0x0800 46 [(0, 1, 15)]; let s := asks (vision [] []) r;
      s.mayConfigure 0 setFteConfig r ∧ s.dev.visionUp (r.u 0 1 / 2) = true ∧ r.u 1 1 = 0) ∧
    (let r := rqf 0x0800 46 [(0, 1, 15), (1, 1, 1), (6, 2, 4096), (8, 1, 1), (9, 1, 16)]; let s := asks (vision [] []) r;
      s.mayConfigure 0 setFteConfig r ∧ s.dev.visionUp (r.u 0 1 / 2) = true ∧ r.u 1 1 ≠ 0 ∧
      (fteCfgOf r).contexts + (s.dev.fteCfg (otherStream (r.u 0 1))).contexts ≤ 8192 ∧
      (s.dev.csi (r.u 0 1)).width ≤ 4096 ∧ (s.dev.csi (r.u 0 1)).height ≤ 3072 ∧
      4 * (fteCfgOf r).win ≤ (s.dev.csi (r.u 0 1)).width / 2 ^ ((fteCfgOf r).levels - 1) ∧
      4 * (fteCfgOf r).win ≤ (s.dev.csi (r.u 0 1)).height / 2 ^ ((fteCfgOf r).levels - 1) ∧
      s.dev.descOk (r.u 0 1) (fteCfgOf r) = true) ∧
    (let r := rqf 0x0801 16 [(0, 1, 15), (1, 1, 1)]; let s := asks up r;
      s.mayConfigure 0 setFteMask r ∧ s.dev.visionUp (r.u 0 1 / 2) = true ∧ r.u 1 1 % 2 = 1) ∧
    (let r := rqf 0x0801 16 [(0, 1, 15), (4, 4, 1)]; let s := asks (vision [] []) r;
      let n := maskBytes (s.dev.csi (r.u 0 1)).width (s.dev.csi (r.u 0 1)).height;
      s.mayConfigure 0 setFteMask r ∧ s.dev.visionUp (r.u 0 1 / 2) = true ∧ r.u 1 1 % 2 = 0 ∧
      ((s.dev.trackBuf (r.u 4 4)).map fun b => decide (r.u 8 8 + n ≤ b.size)) = some true ∧
      (s.dev.bufRead s.mem (r.u 4 4) (r.u 8 8) n).toBool = true) ∧
    (let r := rqf 0x0802 4 [(0, 1, 15)]; (asks up r).holds 0 0x0802 r ∧ (asks up r).dev.visionUp (r.u 0 1 / 2) = true) ∧
    (let r := rqf 0x0803 4 [(0, 4, 0xFFFFFFFF)]; (asks up r).holds 0 0x0803 r ∧
      (asks up r).dev.visionUp (r.u 0 4 / 2 ^ 29) = true) := by decide +kernel

theorem witness_fte_run :
    (let r := rqf 0x0804 48 [(0, 1, 15), (4, 4, 1), (16, 4, 1), (28, 4, 1), (40, 4, 1)]; let s := asks (vision [] []) r;
      s.holds 0 0x0804 r ∧ s.roomy ∧ s.dev.profileUses [(0, r.u 0 1)] = false ∧ s.dev.engineUp (r.u 0 1 / 2) 1 = true ∧
      ([r.u 4 4, r.u 16 4, r.u 28 4, r.u 40 4].all fun id => isHostBuf id && (s.dev.buf id).isSome) = true ∧
      s.dev.frameInside s.mem (r.u 4 4) (r.u 8 8) = true ∧ s.dev.frameInside s.mem (r.u 16 4) (r.u 20 8) = true ∧
      r.u 32 8 + 64 + 32 * (s.dev.fteCfg (r.u 0 1)).contexts ≤ (s.dev.buf (r.u 28 4)).elim 0 (·.size) ∧
      3 * (s.dev.source s.mem ⟨r.u 4 4, r.u 8 8, none⟩).w * (s.dev.source s.mem ⟨r.u 4 4, r.u 8 8, none⟩).h ≤
        (s.dev.buf (r.u 40 4)).elim 0 (·.size)) := by decide +kernel

theorem witness_fte_operations :
    (let d := vision [] [aFte]; let f : FrameSrc := ⟨1, 0, none⟩;
      d.visionUp 7 = true ∧ d.engineTested 7 1 = false ∧ d.pickFte 15 (d.fteBandReady Store.reset) = some aFte ∧
      d.fteSource aFte = some f ∧
      ((d.buf 1).map fun b => d.rangeError b f.off (d.source Store.reset f).size false) = some none) ∧
    (let o := { aFte with built := 1 }; let d := vision [] [o];
      d.pickFte 15 (fun o => !o.done && o.built == d.fteBands Store.reset o &&
        (match o.src.bind (·.slot) with
          | some (s', k) => (match (d.stream s').frames.look k with | some f => f.closed | none => false)
          | none => true)) = some o ∧ o.fresh = false ∧ o.src = some ⟨1, 0, none⟩ ∧
      (fteList o 63 1 992 [] d Store.reset).isSome = true) ∧
    (let d := vision [] [];
      (d.newestCore 15).ctxs.look 2 = some dormantTrack ∧ dormantTrack.state = 3 ∧
      (d.fteCfg 15).reidAge ≤ dormantTrack.dormant ∧ (d.fteCfg 15).freezeMax < (d.newestCore 15).frozen) := by
  decide +kernel

/-! ## Fusion, the solver, localisation -/

/-- A device with an active profile that uses localisation; localisation, fusion and solver as given. -/
def located (f : Localisation → Localisation) : Device :=
  { up with
    jobs := { Jobs.reset with profile := { Profile.reset with state := .active, uses := [(11, 0)] } }
    loc := f up.loc }

theorem witness_fusion_commands :
    (let r := rqf 0x0900 16 [(2, 2, 4096), (6, 2, 1024), (8, 2, 0), (10, 2, 1)]; let s := asks up r;
      s.mayConfigure 0 setGridConfig r ∧ (gridCfgOf r).gridW % 64 = 0 ∧ (gridCfgOf r).margin ≤ (gridCfgOf r).gridW / 4 ∧
      (gridCfgOf r).zMin < (gridCfgOf r).zMax ∧ channelTotal s.dev.grid.slots (gridCfgOf r) ≤ 512) ∧
    (let r := rqf 0x0901 12 [(0, 1, 15), (1, 1, 16), (2, 1, 2), (3, 1, 1), (4, 2, 64), (6, 1, 32)];
      let s := asks (ingest fun i => { i with lidar := [(16, { Lidar.reset with ports := 1 })] }) r;
      let g : GridSlot := ⟨r.u 1 1, r.u 2 1, r.u 3 1 == 1, r.u 4 2, r.u 6 1, r.u 7 1, r.u 8 2, r.u 10 2⟩;
      s.mayConfigure 0 setGridSource r ∧ ((g.kind == 2) = decide (16 ≤ g.stream)) ∧ g.kind = 2 ∧ 1 ≤ g.bins ∧
      g.bins ≤ 32 ∧ channelTotal (s.dev.grid.slots.put (r.u 0 1) g) s.dev.grid.cfg ≤ 512 ∧ s.dev.streamUp g.stream = true) ∧
    (let r := rqf 0x0902 112 [(0, 1, 15), (1, 1, 1), (2, 1, 3)]; let s := asks up r;
      s.mayConfigure 0 setCalSet r ∧ r.u 0 1 < 16 ∧ r.u 1 1 < 2 ∧ s.dev.streamUp (r.u 0 1) = true) ∧
    (let r := rqf 0x0903 4 [(0, 1, 23)]; (asks up r).holds 0 0x0903 r) ∧
    (let r := rqf 0x0904 12 [(0, 1, 23), (2, 2, 1)]; (asks up r).mayConfigure 0 setCalRefine r) ∧
    (let r := rqf 0x0905 12 [(0, 2, 1), (2, 2, 1)]; let s := asks up r;
      s.mayConfigure 0 setCheckConfig r ∧ r.u 2 2 ≤ r.u 0 2 ∧ r.u 7 1 = 0) ∧
    (asks up (rq 0x0906 [])).holds 0 0x0906 (rq 0x0906 []) := by decide +kernel

/-- A device in a TICK, with a suspect source, a tensor on die 7, and a stream that may be refined. -/
def fusing : Device :=
  { jobDev { Job.blank .tick .tick with state := .running } with
    loc := { up.loc with state := .tracking }
    slv := { up.slv with pp := { up.slv.pp with speedSum := 32768, speedCount := 1 } }
    grid := { up.grid with
      check := { up.grid.check with motionPairs := 0x80 }
      sources := [(7, { CheckSource.reset with suspect := true, run := 10 })]
      tensors := [(7, 1)], slots := [(0, ⟨0, 0, true, 64, 64, 8, 100, 5000⟩)]
      cals := [(23, { Calib.reset 23 with current := recSet (calBlank 23) 2 [1], speed0 := 0 })] } }

theorem witness_fusion_events :
    (fusing.runningTick.map fun x => (x.1, x.2.order)) = some (1, 0) ∧
    ((fusing.checkSrc 7).suspect = true ∧ fusing.grid.check.clear ≤ (fusing.checkSrc 7).run ∧
      fusing.grid.check.all.elem 7 = true) ∧
    (fusing.grid.owners.getLsbD 7 = true ∧ 0 < 32 ∧ 32 ≤ 32 ∧ 32 ≤ fusing.grid.cfg.strip ∧ 31 < 32 ∧
      32 ≤ fusing.grid.cstride ∧ (fusing.grid.tensors.look 7).isSome = true) ∧
    (recU (fusing.cal 23).current 2 1 % 2 = 1 ∧
      fusing.jobs.table.any (fun e => decide (e.2.work = .calRefine 23) && e.2.active) = false ∧
      fusing.calFrozen 23 = false ∧ fusing.jobs.activeCount < 64) := by decide +kernel

/-- A problem of one variable, one prior factor, one supernode and one scale block. -/
def problem : List Byte :=
  body 328 [(0, 4, 0x564C534B), (4, 2, 1), (8, 4, 1), (12, 4, 1), (16, 4, 1), (20, 4, 1), (26, 2, 1), (41, 1, 1),
    (42, 1, 1), (44, 2, 1), (52, 4, 328), (68, 1, 4), (69, 1, 1), (129, 1, 1), (131, 1, 1), (136, 4, 256),
    (148, 4, 0xFFFFFFFF), (152, 8, 0xFFFFFFFFFFFFFFFF), (160, 8, 0xFFFFFFFFFFFFFFFF), (180, 2, 1), (182, 2, 1),
    (184, 4, 0xFFFFFFFF)]

/-- A problem with room passes every check of a load; without room, check 7 stops it. -/
theorem test_slv_check : slvCheck problem 328 true = none ∧ slvCheck problem 328 false = some (7, 0) ∧
    slvCheck problem 329 true = some (1, 0) := by decide +kernel

/-- An update packet without entries. -/
def packet : List Byte := leBytes 2 0x5355 ++ [1, 0] ++ zeros 12

/-- Slot 3 of die 7 holds a problem; buffers 1 and 2; perhaps a profile holds the slot. -/
def solving (used : Bool) : Device :=
  let d := oneBuf up;
  { d with
    memsys := { d.memsys with bufs := d.memsys.bufs.put 2 ⟨2, 0, [1], false, false⟩ }
    slv := { up.slv with slots := [(31, { SlvSlot.reset with desc := [1] })] }
    jobs := { up.jobs with profile := { Profile.reset with
      state := if used then .active else .none, uses := if used then [(9, 31)] else [] } } }

theorem witness_solver_commands :
    (let r := rqf 0x0A00 28 [(0, 1, 7), (1, 1, 3), (4, 4, 1), (16, 4, 328), (20, 4, 2)]; let s := asks (solving false) r;
      s.holds 0 0x0A00 r ∧ s.dev.slvHeld (r.u 0 1) (r.u 1 1) = false ∧ s.dev.slvEngaged (r.u 0 1) (r.u 1 1) = false ∧
      s.dev.slvUp (r.u 0 1) = true ∧ isHostBuf (r.u 4 4) = true ∧ s.dev.bufReady (r.u 4 4) = true ∧
      isHostBuf (r.u 20 4) = true ∧ s.dev.bufReady (r.u 20 4) = true ∧
      r.u 8 8 + r.u 16 4 ≤ (s.dev.buf (r.u 4 4)).elim 0 (·.size) ∧ s.dev.mbx.handles.length < 256 ∧
      (s.dev.bufRead s.mem (r.u 4 4) (r.u 8 8) (r.u 16 4)).toBool = true) ∧
    (let r := rq 0x0A01 ([7, 3] ++ zeros 18 ++ packet); let s := asks (solving false) r;
      s.holds 0 0x0A01 r ∧ s.dev.slvHeld (r.u 0 1) (r.u 1 1) = false ∧ s.dev.slvUp (r.u 0 1) = true ∧
      (s.dev.slvSlot (r.u 0 1) (r.u 1 1)).desc ≠ [] ∧ bit (r.u 2 1) 0 = false ∧ packet = r.body.drop 20 ∧
      packetCheck (s.dev.slvSlot (r.u 0 1) (r.u 1 1)) packet = none) ∧
    (let r := rqf 0x0A02 32 [(0, 1, 7), (1, 1, 3), (20, 4, 1)]; let s := asks (solving false) r;
      s.holds 0 0x0A02 r ∧ s.roomy ∧ s.dev.slvHeld (r.u 0 1) (r.u 1 1) = false ∧
      (s.dev.slvSlot (r.u 0 1) (r.u 1 1)).desc ≠ [] ∧ s.dev.slvEngaged (r.u 0 1) (r.u 1 1) = false ∧
      isHostBuf (r.u 20 4) = true ∧ (s.dev.buf (r.u 20 4)).isSome = true ∧
      r.u 24 8 + slvResultSize (s.dev.slvSlot (r.u 0 1) (r.u 1 1)).desc ≤ (s.dev.buf (r.u 20 4)).elim 0 (·.size)) ∧
    (let r := rqf 0x0A03 4 [(0, 1, 7), (1, 1, 3)]; (asks (solving false) r).holds 0 0x0A03 r ∧
      (asks (solving false) r).dev.slvUp (r.u 0 1) = true ∧
      (asks (solving false) r).dev.slvHeld (r.u 0 1) (r.u 1 1) = false ∧
      (asks (solving true) r).dev.slvHeld (r.u 0 1) (r.u 1 1) = true) ∧
    (let r := rqf 0x0A04 4 [(0, 1, 7), (1, 1, 3)]; let s := asks (solving false) r;
      s.holds 0 0x0A04 r ∧ s.dev.slvHeld (r.u 0 1) (r.u 1 1) = false ∧ s.dev.slvEngaged (r.u 0 1) (r.u 1 1) = false ∧
      s.dev.slvUp (r.u 0 1) = true ∧ (s.dev.slvSlot (r.u 0 1) (r.u 1 1)).desc ≠ []) := by decide +kernel

/-- A running solve of job 1. -/
def aSolve (fw : Bool) : SlvOp := { SlvOp.blank 1 7 3 with fw := fw, begun := true, deadline := some 9, outBuf := 1, ended := some 1 }

/-- A device with solves. -/
def solves (os : List SlvOp) : Device := { oneBuf up with slv := { up.slv with ops := os } }

/-- A result of a solve of firmware that converged. -/
def converged : SlvOut := ⟨true, false, false, false, false, false, false, 1, 0, 0, 0, 0, 0, 0, 0⟩

theorem witness_solves :
    ((solves []).slvUp 7 = true ∧ (solves []).engineTested 7 2 = false ∧ (solves []).slvRunning 7 = none) ∧
    (let d := solves [aSolve true];
      d.slvRunning 7 = some (aSolve true) ∧ d.slv.ops.find? (fun o => o.job == 1 && o.header.isEmpty) = some (aSolve true) ∧
      (aSolve true).deadline = some 9 ∧ (aSolve true).fw = true ∧
      slvOutEnded converged (d.slvTime (aSolve true)).late = some 0) ∧
    (let d := solves [aSolve false];
      d.slvRunning 7 = some (aSolve false) ∧ (aSolve false).fw = false ∧ (d.slvTime (aSolve false)).ended = some 1) ∧
    (∃ y, (solves [aSolve false]).slvWrite Store.reset ((solves [aSolve false]).slvTime (aSolve false))
      ((solves [aSolve false]).slvHeader ((solves [aSolve false]).slvTime (aSolve false)) 1 false) = .ok y) :=
  ⟨by decide +kernel, by decide +kernel, by decide +kernel, ⟨_, rfl⟩⟩

theorem witness_propagator :
    (let r := rqf 0x0A05 36 [(0, 1, 27)]; (asks up r).mayConfigure 0 setPpConfig r) ∧
    (asks up (rq 0x0A06 [])).holds 0 0x0A06 (rq 0x0A06 []) ∧ (located id).locRuns = true := by decide +kernel

/-- A ring of poses with one record at the start of device time. -/
def tracked : Device :=
  let d := located fun l => { l with
    state := .tracking, gnss := { l.gnss with enable := true }, window := [⟨0, Pose.id, Vec3.zero, Vec3.zero, Vec3.zero⟩] };
  { d with slv := { d.slv with pp := { d.slv.pp with ring := [(0, zeros 128)] } } }

theorem witness_localisation_commands :
    (let r := rqf 0x0B00 36 [(28, 4, 5000), (32, 4, 4000)]; let s := asks up r;
      s.mayConfigure 0 setLocConfig r ∧ s.dev.deadlinesOk (locCfgOf r) = true) ∧
    (let r := rqf 0x0B03 32 [(2, 1, 1), (3, 1, 62)]; let s := asks (sfeOne 62 { sfeRun with res := true }) r;
      s.mayConfigure 0 setWheelConfig r ∧ r.u 2 1 = 1 ∧ r.u 3 1 % 2 = 0 ∧ 32 ≤ r.u 3 1 ∧ r.u 3 1 < 64 ∧
      (s.dev.sfeS (r.u 3 1)).res = true ∧ s.dev.grid.check.wheel = 0) ∧
    (let r := rqf 0x0B04 24 [(0, 1, 1)]; (asks up r).mayConfigure 0 setGnssConfig r) ∧
    (let r := rqf 0x0B06 20 [(0, 1, 1)]; (asks up r).mayConfigure 0 setLoopConfig r) ∧
    (asks up (rq 0x0B01 [])).holds 0 0x0B01 (rq 0x0B01 []) ∧ (asks up (rq 0x0B07 [])).holds 0 0x0B07 (rq 0x0B07 []) ∧
    ((asks (located id) (rq 0x0B02 [])).holds 0 0x0B02 (rq 0x0B02 []) ∧
      (asks (located id) (rq 0x0B02 [])).dev.locRuns = true) ∧
    (let r := rqf 0x0B05 52 []; (asks up r).holds 0 0x0B05 r ∧ (asks up r).dev.loc.gnss.enable = false) := by
  decide +kernel

theorem witness_gnss_fix :
    (let r := rqf 0x0B05 52 [(48, 1, 4)]; let s := asks tracked r;
      let f : Fix := ⟨dtsMoment (BitVec.ofNat 128 (r.u 0 16)), ⟨r.i 16 8, r.i 24 8, r.i 32 8⟩, r.u 40 4, r.u 44 4⟩;
      s.holds 0 0x0B05 r ∧ s.dev.loc.gnss.enable = true ∧ r.u 48 1 ≠ 0 ∧ s.dev.loc.gnss.minType ≤ r.u 48 1 ∧
      f.sigmaH ≤ s.dev.loc.gnss.sigmaMax ∧ (s.dev.loc.window.head?.map fun w => decide (w.at_ ≤ f.at_)) = some true ∧
      f.at_ ≤ s.dev.time.ns16 ∧ s.dev.loc.state.estimating = true ∧ s.dev.loc.aligned = false ∧
      ((s.dev.ringPose f.at_).map fun p =>
        spansDist (s.dev.loc.fixes ++ [(f, antennaAt p s.dev.loc.gnss.lever)]) s.dev.loc.gnss.alignDist) = some false) := by
  decide +kernel

theorem witness_localisation_states :
    (let d : Device := { located id with ing := { up.ing with
        streams := [(24, { Stream.reset with state := .active })]
        pairs := [(0, ⟨true, 33333, false, none, none, 0, 0, some (1, 1)⟩)] } };
      d.locRuns = true ∧ d.loc.state = .cold ∧ d.locReady = true ∧
      d.jobs.table.any (fun e => e.2.active && decide (e.2.work = .mapLoad)) = false) ∧
    (let d := located fun l => { l with state := .init }; d.locRuns = true ∧ d.loc.state = .init ∧ d.locUnready = true) ∧
    (tracked.locRuns = true ∧ tracked.loc.state.estimating = true) ∧
    (let d := located fun l => { l with state := .lost }; d.locRuns = true ∧ d.loc.state = .lost) ∧
    (fusing.ticks.getLast?.map (·.1)) = some 1 := by decide +kernel

/-! ## The map, place search, outputs, guidance -/

/-- A session's record. -/
def sessionRec (id : Nat) : List Byte := mapRecord id 1 (zeros 112)

/-- A map that holds session 5, open, in a pool of its die. -/
def mapped (opened : Option Nat) : Device :=
  oneBuf { up with map := { up.map with
    objs := [(5, [⟨1, some (sessionRec 5)⟩]), (6, [⟨1, none⟩])], gen := 1, nextId := 7, opened := opened
    pools := (List.range 8).map (·, 1) } }

theorem witness_map_commands :
    (asks up (rq 0x0C00 [])).holds 0 0x0C00 (rq 0x0C00 []) ∧
    (let r := rqf 0x0C01 4 [(0, 2, 2)]; let s := asks up r;
      s.mayConfigure 0 setMapConfig r ∧ s.dev.mapIdle = true ∧ s.dev.map.pins = [] ∧ s.dev.map.objs = [] ∧
      (s.dev.freePools.mapPools (r.u 0 2)).isSome = true) ∧
    (let r := rqf 0x0C02 24 [(0, 4, 1), (16, 8, 2097152)]; let s := asks (mapped none) r;
      s.holds 0 0x0C02 r ∧ s.roomy ∧ s.dev.mapIdle = true ∧ s.dev.hostRange (r.u 0 4) (r.u 8 8) (r.u 16 8) = true) ∧
    (let r := rqf 0x0C03 20 [(2, 1, 1), (4, 4, 1), (8, 8, 2097088), (16, 4, 5)]; let s := asks (mapped none) r;
      s.holds 0 0x0C03 r ∧ s.roomy ∧ (exportList r.body).all (fun id => (s.dev.session id).isSome) = true ∧
      r.u 0 1 = 0 ∧ s.dev.hostRange (r.u 4 4) (r.u 8 8) 64 = true ∧ bit (r.u 1 1) 0 = false ∧
      (s.dev.jobs.table.filter fun e => e.2.active && e.2.work.isExport).length < 2) ∧
    (let r := rqf 0x0C04 12 [(0, 4, 5), (4, 4, 64), (8, 2, 4064)]; let s := asks (mapped none) r;
      s.holds 0 0x0C04 r ∧ ((s.dev.map.newest (r.u 0 4)).map fun b => decide (r.u 4 4 < b.length)) = some true ∧
      r.u 4 4 % 64 = 0) ∧
    ((asks up (rq 0x0C06 [])).holds 0 0x0C06 (rq 0x0C06 []) ∧ up.mapIdle = true ∧ up.map.pins = []) := by
  decide +kernel

theorem witness_map_sessions :
    (let r := rqf 0x0C05 24 [(0, 4, 0xFFFFFFFF)]; let s := asks (mapped (some 5)) r;
      s.holds 0 0x0C05 r ∧ (if r.u 0 4 = 0xFFFFFFFF then s.dev.map.opened else some (r.u 0 4)) = some 5 ∧
      s.dev.session 5 = some (sessionRec 5) ∧ r.u 4 1 = 0 ∧
      s.dev.map.poolUsed (homeDie 5) + (sessionRec 5).length ≤ s.dev.map.poolSize (homeDie 5)) ∧
    (let r := rqf 0x0C05 24 [(0, 4, 5), (4, 1, 1)]; let s := asks (mapped (some 5)) r;
      s.holds 0 0x0C05 r ∧ r.u 4 1 = 1 ∧ s.dev.map.opened = some 5) ∧
    (let r := rqf 0x0C05 24 [(0, 4, 5), (4, 1, 2)]; let s := asks (mapped none) r;
      s.holds 0 0x0C05 r ∧ r.u 4 1 = 2 ∧ s.dev.map.opened ≠ some 5 ∧ s.dev.session 5 = some (sessionRec 5)) ∧
    (((mapped none).map.objs.map (·.1)).Nodup ∧
      (5, [(⟨1, some (sessionRec 5)⟩ : MapVer)]) ∈ (mapped none).map.objs) := by decide +kernel

/-- An index of 64-bit codes with a shard of two entries, one deleted, on die 7. -/
def anIndex : PrsIndex := ⟨64, 0, 0, [], [(7, [⟨1, 1, 0xFFFFFFFF, zeros 8⟩, ⟨2, 1, 2, zeros 8⟩])], 64, [(7, 1)], [], 2, false⟩

/-- A query in its first round. -/
def aRun (widen : Bool) : PrsRun :=
  ⟨1, 3, 0, 9, zeros 8, 2, 4, 1, widen, 2, 0, 0, 0, [], 0, [(0, 0)], 1, 0, false, 0, 0, [], some [0], 0, [(3, 1)], 1, 2, false⟩

/-- Index 3, with queries, a window of die 7, and a compaction asked for. -/
def searching (x : PrsIndex) (runs : List PrsRun) (win : Bool) : Device :=
  oneBuf { up with prs := { up.prs with
    indexes := [(3, x)], runs := runs, windows := if win then [(7, 0)] else []
    compacts := [(1, 7, 3, 0)] } }

theorem witness_place_search_commands :
    (let r := rqf 0x0D00 4 [(0, 1, 3)]; (asks (searching anIndex [] false) r).holds 0 0x0D00 r ∧
      (asks (searching anIndex [] false) r).dev.index (r.u 0 1) = some anIndex) ∧
    (let r := rqf 0x0D01 8 [(0, 1, 7), (2, 2, 1024), (4, 4, 64)]; let s := asks up r;
      s.mayConfigure 0 setPrsIndex r ∧ r.u 1 1 = 0 ∧ 64 ≤ r.u 2 2 ∧ r.u 2 2 ≤ 1024 ∧ r.u 2 2 % 64 = 0 ∧ 64 ≤ r.u 4 4 ∧
      r.u 4 4 ≤ 24576 ∧ r.u 0 1 ≠ 0 ∧ s.dev.index (r.u 0 1) = none ∧
      (s.dev.newIndex (r.u 0 1) (r.u 2 2) (r.u 4 4)).isSome = true) ∧
    (let r := rqf 0x0D01 8 [(2, 2, 64), (4, 4, 64)]; let s := asks up r;
      s.mayConfigure 0 setPrsIndex r ∧ r.u 0 1 = 0 ∧ s.dev.mapIdle = true ∧ s.dev.map.pins = [] ∧
      (s.dev.newIndex (r.u 0 1) (r.u 2 2) (r.u 4 4)).isSome = true) ∧
    (let r := rqf 0x0D01 8 [(0, 1, 3), (1, 1, 1)]; let s := asks (searching anIndex [] false) r;
      s.mayConfigure 0 setPrsIndex r ∧ r.u 1 1 ≠ 0 ∧ r.u 0 1 ≠ 0 ∧ s.dev.index (r.u 0 1) = some anIndex ∧
      s.dev.pinsOn (r.u 0 1) = [] ∧ s.dev.updatesOf (r.u 0 1) = 0) ∧
    (let r := rqf 0x0D06 4 [(0, 2, 100)]; (asks up r).mayConfigure 0 setPrsConfig r) ∧
    (let x := { anIndex with shards := [] };
      let r := rqf 0x0D02 24 [(0, 1, 3), (4, 4, 1), (16, 8, 2097152)]; let s := asks (searching x [] false) r;
      s.holds 0 0x0D02 r ∧ s.roomy ∧ s.dev.index (r.u 0 1) = some x ∧ x.shards = [] ∧ s.dev.updatesOf (r.u 0 1) = 0 ∧
      r.u 0 1 ≠ 0 ∧ s.dev.hostRange (r.u 4 4) (r.u 8 8) (r.u 16 8) = true) ∧
    (let r := rqf 0x0D03 24 [(0, 1, 3), (4, 4, 131072), (8, 4, 1)]; let s := asks (searching anIndex [] false) r;
      s.holds 0 0x0D03 r ∧ s.roomy ∧ s.dev.index (r.u 0 1) = some anIndex ∧
      s.dev.hostRange (r.u 8 4) (r.u 16 8) (r.u 4 4 * (8 + anIndex.codeBits / 8)) = true) := by decide +kernel

theorem witness_place_search_jobs :
    (let r := rqf 0x0D04 60 [(0, 1, 3), (2, 1, 1), (6, 2, 4096), (8, 2, 4096), (12, 4, 1), (16, 4, 1), (20, 4, 1), (40, 4, 1), (56, 4, 1)];
      let s := asks (searching anIndex [] false) r;
      s.holds 0 0x0D04 r ∧ s.roomy ∧ s.dev.index (r.u 0 1) = some anIndex ∧ r.u 6 2 ≤ r.u 8 2 ∧ r.u 8 2 ≤ 4096 ∧
      s.dev.hostRange (r.u 16 4) (r.u 24 8) (r.u 12 4 * (8 + anIndex.codeBits / 8)) = true ∧
      s.dev.hostRange (r.u 20 4) (r.u 32 8) (r.u 12 4 * (24 + 8 * r.u 4 2)) = true ∧ r.u 2 1 ≠ 0 ∧ r.u 56 4 ≠ 0 ∧
      r.u 44 4 + r.u 56 4 ≤ 0xFFFFFFFF ∧ s.dev.hostRange (r.u 40 4) (r.u 48 8) ((r.u 56 4 + 7) / 8) = true) ∧
    (let r := rqf 0x0D05 4 [(0, 1, 3)]; let s := asks (searching anIndex [] false) r;
      s.holds 0 0x0D05 r ∧ s.roomy ∧ (s.dev.index (r.u 0 1)).isSome = true) ∧
    ((searching anIndex [] true).engineTested 7 3 = false ∧ (searching anIndex [] true).prs.windows.look 7 = some 0 ∧
      ((searching anIndex [] true).prs.rounds.getD 7 []).length ≤ 1024) ∧
    (let d := searching anIndex [aRun true] false;
      d.prs.runs.find? (fun q => q.job == 1 && q.n == 0) = some (aRun true) ∧ (aRun true).done = false ∧
      (aRun true).round.isSome = true ∧ (aRun true).waitOn &&& d.pwr.dieOn = 0 ∧ d.index (aRun true).index = some anIndex ∧
      ({ aRun true with found := (aRun true).found + (aRun true).gotFound } : PrsRun).widens = true) ∧
    (let d := searching anIndex [aRun false] false;
      ({ aRun false with found := (aRun false).found + (aRun false).gotFound } : PrsRun).widens = false ∧
      (d.job 1).isNone = true) ∧
    (let d := searching anIndex [] false;
      d.index 3 = some anIndex ∧ d.prs.windows.look 7 = none ∧ d.domainOn 7 10 = true ∧
      (∃ c ∈ d.prs.compacts, c.2 = (7, 3, 0)) ∧ (∃ e ∈ anIndex.shard 0 7, e.reclaimable (d.minPin 3) = true) ∧
      anIndex.blocks ((anIndex.shard 0 7).filter fun e => !e.reclaimable (d.minPin 3)).length ≤ anIndex.freeBlocks 7) := by
  decide +kernel

/-- A message of one part. -/
def aMsg : OutMsg := ⟨0x36, 2, 0, 0, [1, 2, 3], [], none, 256, 4096, false, 0, false⟩

/-- A port with a queue and perhaps a part on the wire; routes of events and diagnostics. -/
def sending (queue : List OutMsg) (wire : Option Wire) : Device :=
  oneBuf { up with
    out := { up.out with
      ports := [(1, { TxPort.reset with enabled := true, queue := queue, wire := wire })]
      routes := [(routeKey 0x34 1, { Route.reset with on := true, period := 100, diagAt := 100 * oneMs })] }
    evt := { up.evt with events := [⟨1, 0, 0, 0, 0, 0, 0⟩], evSeq := 1 } }

theorem witness_out_commands :
    (let r := rqf 0x0E00 12 [(0, 1, 1)]; let s := asks up r;
      s.mayConfigure 0 setOutPort r ∧ s.dev.pwr.dieOn.getLsbD (r.u 0 1) = true ∧ r.u 1 1 = 0) ∧
    (let r := rqf 0x0E00 12 [(0, 1, 1), (1, 1, 1), (2, 1, 4), (4, 2, 4500), (6, 2, 8192), (8, 4, 262144)]; let s := asks up r;
      s.mayConfigure 0 setOutPort r ∧ s.dev.pwr.dieOn.getLsbD (r.u 0 1) = true ∧ r.u 1 1 ≠ 0 ∧
      [1, 2, 4].elem (r.u 2 1) = true ∧ r.u 3 1 ≤ 1 ∧ 80 ≤ r.u 4 2 ∧ r.u 4 2 ≤ 4500 ∧ 256 ≤ r.u 6 2 ∧ r.u 6 2 ≤ 8192 ∧
      r.u 6 2 % 64 = 0 ∧ 4096 ≤ r.u 8 4 ∧ r.u 8 4 ≤ 4194304 ∧ r.u 8 4 % 64 = 0 ∧
      partFits (partLines (r.u 6 2) (r.u 8 4)) (r.u 6 2) (r.u 2 1) (r.u 4 2) = true ∧
      (s.dev.tx (r.u 0 1)).startedParts = []) ∧
    (let r := rqf 0x0E01 8 [(0, 1, 0x34), (1, 1, 1), (2, 1, 1), (6, 2, 60000)]; let s := asks up r;
      s.mayConfigure 0 setOutRoute r ∧ r.u 0 1 ≠ 0x32 ∧ r.u 4 1 = 0 ∧ r.u 0 1 = 0x34 ∧ 100 ≤ r.u 6 2 ∧ r.u 6 2 ≤ 60000 ∧
      r.u 2 1 ≠ 0 ∧ s.dev.routeTight (r.u 0 1) (r.u 1 1) (r.u 4 1) = false) ∧
    (let r := rqf 0x0E01 8 [(0, 1, 0x32), (1, 1, 1)]; let s := asks up r;
      s.mayConfigure 0 setOutRoute r ∧ r.u 0 1 ≠ 0x34 ∧ r.u 6 2 = 0 ∧ r.u 2 1 = 0) ∧
    (let r := rqf 0x0E02 4 [(0, 1, 1)]; (asks up r).holds 0 0x0E02 r) ∧
    (let r := rqf 0x0E03 24 [(0, 1, 1), (4, 4, 1), (16, 8, 2097152)]; let s := asks (sending [] none) r;
      s.holds 0 0x0E03 r ∧ isHostBuf (r.u 4 4) = true ∧ s.dev.bufReady (r.u 4 4) = true ∧
      ((s.dev.buf (r.u 4 4)).map fun b => decide (r.u 8 8 + r.u 16 8 ≤ b.size)) = some true ∧ r.u 16 8 ≠ 0 ∧
      (s.dev.tx (r.u 0 1)).enabled = true ∧ s.dev.txUp (r.u 0 1) = true ∧ s.dev.mbx.handles.length < 256) ∧
    (let r := rqf 0x0E04 8 [(4, 2, 1)]; (asks up r).holds 0 0x0E04 r) := by decide +kernel

theorem witness_out_events :
    (let d := sending [aMsg] none;
      (d.tx 1).wire = none ∧ (d.tx 1).enabled = true ∧ d.txUp 1 = true ∧ (d.tx 1).pick = some aMsg ∧ aMsg.cancel = false ∧
      (({ aMsg with lineBytes := (d.tx 1).lineBytes, partBytes := (d.tx 1).partBytes } : OutMsg).payload d
        Store.reset).toBool = true) ∧
    (let d := sending [] (some ⟨0x36, true, none, 1, 256, 0, 9⟩);
      (d.tx 1).wire = some ⟨0x36, true, none, 1, 256, 0, 9⟩ ∧ (d.tx 1).queue = []) ∧
    (let d := sending [] none;
      (d.route_ 0x34 1).on = true ∧ (∃ e ∈ d.evt.events, (d.route_ 0x34 1).cursor ≤ e.seq) ∧
      (d.route_ 0x34 1).period ≠ 0 ∧ (d.route_ 0x34 1).diagAt ≤ d.time.ns16 + (d.route_ 0x34 1).period * oneMs) := by
  decide +kernel

/-- A path of two points 1 m apart. -/
def pathImage : List Byte := body 112 [(0, 4, 0x5450474B), (4, 2, 1), (8, 4, 2), (88, 8, 4294967296)]

/-- Guidance at 50 Hz on CAN 0, with a store, and perhaps a frame that waits. -/
def guiding (waiting : Option (List Byte)) : Device :=
  oneBuf { up with
    ing := { up.ing with can := [(0, { CanCtrl.reset with enable := true, fd := true })] }
    out := { up.out with guide := { up.out.guide with
      enable := true, nextAt := 20 * oneMs, stores := [(3, pathImage)], waiting := waiting } } }

theorem witness_guidance :
    (let r := rqf 0x0E10 20 []; (asks up r).mayConfigure 0 setGuideConfig r ∧ r.u 1 1 % 2 = 0) ∧
    (let r := rqf 0x0E10 20 [(0, 1, 1), (1, 1, 3), (2, 1, 200), (4, 4, 0x1FFFFFFF), (12, 2, 10000), (16, 2, 1024)];
      let s := asks up r;
      s.mayConfigure 0 setGuideConfig r ∧ r.u 1 1 % 2 = 1 ∧ [10, 20, 25, 40, 50, 100, 125, 200].elem (r.u 2 1) = true ∧
      r.u 0 1 ≤ 1 ∧ 100 ≤ r.u 12 2 ∧ r.u 12 2 ≤ 10000 ∧ 8 ≤ r.u 16 2 ∧ r.u 16 2 ≤ 1024 ∧ bit (r.u 1 1) 1 = true ∧
      r.u 4 4 < 2 ^ 29 ∧ s.dev.pwr.dieOn.getLsbD 0 = true ∧
      (s.dev.ing.can.getD (r.u 0 1) CanCtrl.reset).enable = false) ∧
    (let r := rqf 0x0E11 16 [(0, 1, 3), (4, 4, 1), (8, 8, 2097040)]; let s := asks (guiding none) r;
      s.holds 0 0x0E11 r ∧ s.dev.out.guide.active ≠ some (r.u 0 1) ∧ s.dev.out.guide.select ≠ some (some (r.u 0 1)) ∧
      isHostBuf (r.u 4 4) = true ∧ s.dev.bufReady (r.u 4 4) = true ∧
      r.u 8 8 + 64 ≤ (s.dev.buf (r.u 4 4)).elim 0 (·.size) ∧ s.dev.mbx.handles.length < 256 ∧
      (s.dev.bufRead s.mem (r.u 4 4) (r.u 8 8) (min (64 + 24 * pathPts (fwRead s.dev s.mem (r.u 4 4) (r.u 8 8) 64))
        ((s.dev.buf (r.u 4 4)).elim 0 (·.size) - r.u 8 8))).toBool = true) ∧
    pathCheck pathImage 112 = none ∧ pathCheck pathImage 111 = some (1, 0) ∧
    (let r := rqf 0x0E12 4 [(0, 1, 3)]; let s := asks (guiding none) r;
      s.mayConfigure 0 setGuideSelect r ∧ r.u 0 1 ≠ 0xFF ∧ (s.dev.out.guide.stores.look (r.u 0 1)).isSome = true) ∧
    (asks up (rq 0x0E13 [])).holds 0 0x0E13 (rq 0x0E13 []) ∧
    (let g := (guiding none).out.guide; g.enable = true ∧ g.rate ≠ 0 ∧
      g.nextAt ≤ (guiding none).time.ns16 + 1000 / g.rate * oneMs ∧
      ((guiding none).guideRecord g.nextAt).isSome = true ∧ (guiding none).canSends g.ctrl = true) ∧
    (guiding (some [1])).out.guide.waiting = some [1] := by decide +kernel

/-! ## Self-test and security -/

/-- The first unit of cluster 0. -/
def aSlice : StSlice := ⟨0, 0, 0⟩

/-- A run of one slice under handle 1, with job 1. -/
def aTestRun (kind : Nat) (testing : Bool) (voids : Nat) : StRun where
  handle := 1
  kind := kind
  mode := 0
  noRepair := false
  clkMin := 0
  waitMs := 5
  slices := [aSlice, aSlice]
  results := []
  save := []
  job := some 1
  dueAt := 0
  attempts := b2n testing
  voids := voids
  testing := testing
  startedAt := 0
  clock := up.stClock kind aSlice
  heldFrom := 0
  records := []
  truncated := false
  startDts := 0
  endDts := 0
  cancel := false

/-- A device with that run. -/
def selfTest (kind : Nat) (testing : Bool) (voids : Nat) : Device :=
  let d := jobDev { Job.blank .test (.slice 0 (kind * 8) 0) with state := if testing then .running else .waiting };
  { d with st := { d.st with runs := [(1, aTestRun kind testing voids)] } }

theorem witness_st_run :
    (let r := rqf 0x0F00 24 [(3, 1, 1), (4, 1, 1), (16, 8, 1)]; let s := asks up r;
      let xs := stSlices (r.u 0 1) (r.u 3 1) (BitVec.ofNat 8 (r.u 4 1)) (r.u 10 2) (r.u 12 2) (r.u 16 8);
      s.holds 0 0x0F00 r ∧ stRunOk r s.dev xs = true ∧ s.dev.boot.ready = true ∧
      xs.any (s.dev.stReserved (r.u 0 1)) = false ∧ s.dev.st.runs.length < 2 ∧ xs.length = 1 ∧
      ((stSaves (r.u 0 1) xs (List.range 8) s.dev []).map fun p => p.1.length) = some 1 ∧
      s.dev.mbx.handles.length < 256) ∧
    (let r := rqf 0x0F00 24 []; let s := asks up r;
      let xs := stSlices (r.u 0 1) (r.u 3 1) (BitVec.ofNat 8 (r.u 4 1)) (r.u 10 2) (r.u 12 2) (r.u 16 8);
      s.holds 0 0x0F00 r ∧ stRunOk r s.dev xs = true ∧ xs = [] ∧
      (stSaves (r.u 0 1) xs (List.range 8) s.dev []).isSome = true) ∧
    (let r := rqf 0x0F01 4 [(0, 4, 1)]; let s := asks (selfTest 0 true 0) r;
      s.holds 0 0x0F01 r ∧ s.dev.st.runs.look (r.u 0 4) = some (aTestRun 0 true 0)) := by decide +kernel

theorem witness_st_slice :
    (let d := selfTest 0 false 0; let x := aTestRun 0 false 0;
      d.st.runs.look 1 = some x ∧ x.testing = false ∧ x.current = some aSlice ∧ d.stUp x.kind aSlice = true ∧
      x.job = some 1 ∧ (d.job 1).map (·.state) = some .waiting ∧ d.stClockOk x.kind x.clkMin aSlice = true ∧
      x.voids = 0 ∧ x.attempts = 0 ∧ d.boot.soft.length + 16 ≤ 256 ∧ d.stFree x.kind 1 aSlice = true ∧
      d.stMoment x.kind (stBudget x.kind x.mode aSlice.target (d.stClock x.kind aSlice)) aSlice = true ∧
      (d.stSave x aSlice).isSome = true) ∧
    (let d := { selfTest 0 false 0 with pwr := Power.reset };
      d.st.runs.look 1 = some (aTestRun 0 false 0) ∧ d.stUp 0 aSlice = false) ∧
    (let d := selfTest 0 true 0; let x := aTestRun 0 true 0;
      d.stTesting 1 = some (x, aSlice, 1) ∧ d.stClock 0 aSlice = x.clock ∧ d.stClockOk 0 x.clkMin aSlice = true ∧
      x.kind = 0 ∧ x.voids < 2) ∧
    (selfTest 1 true 0).stTesting 1 = some (aTestRun 1 true 0, aSlice, 1) ∧
    (selfTest 0 true 2).stTesting 1 = some (aTestRun 0 true 2, aSlice, 1) ∧
    ([(⟨8, 0, 0, 0, 0, false⟩ : StFind)].filter aSlice.canFind = []) := by decide +kernel

/-- A word of unit 5 that a failure record of this session named. -/
def unitWord : Word := defectWord 1 0 0 5

/-- A device whose soft list names it, perhaps with its record about to be blown. -/
def fusing_ (blow : Bool) : Device :=
  { up with
    boot := { up.boot with soft := [⟨defectWord 1 0 1 5, 2⟩] }
    st := { up.st with
      confirmed := [unitWord], fusing := if blow then some ⟨1, 0, [some unitWord], [], false⟩ else none } }

theorem witness_st_fuse :
    (let r := rqf 0x0F02 40 [(1, 1, 1)]; let s := asks (fusing_ false) r;
      s.holds 0 0x0F02 r ∧ s.dev.hot = false ∧ s.dev.st.fusing = none ∧ s.dev.mbx.handles.length < 256 ∧
      (s.dev.fuse.fieldRecords (r.u 0 1)).length + r.u 1 1 ≤ 32 ∧
      ((List.range (r.u 1 1)).any fun i => (s.dev.fusable (r.u 0 1) (r.u (8 + i) 1)).isSome) = true) ∧
    (let r := rqf 0x0F02 40 [(1, 1, 32)]; let s := asks up r;
      s.holds 0 0x0F02 r ∧ s.dev.hot = false ∧ s.dev.st.fusing = none ∧
      (s.dev.fuse.fieldRecords (r.u 0 1)).length + r.u 1 1 ≤ 32 ∧
      ((List.range (r.u 1 1)).any fun i => (s.dev.fusable (r.u 0 1) (r.u (8 + i) 1)).isSome) = false) ∧
    (asks up (rq 0x0F03 [])).holds 0 0x0F03 (rq 0x0F03 []) ∧
    ((fusing_ true).st.fusing.map (·.left)) = some [some unitWord] := by decide +kernel

/-- A device with operations at the crypto block, under handle 1, whose image has security version 2. -/
def securing (ops : List CryptoOp) : Device :=
  oneBuf { up with
    sec := { up.sec with ops := ops, secVer := 2 }
    mbx := { up.mbx with handles := [(1, ⟨0, 0x1004, none, [], false, false, false⟩)] } }

theorem witness_security_commands :
    (asks up (rq 0x1000 [])).holds 0 0x1000 (rq 0x1000 []) ∧
    (asks up (rq 0x1001 [])).holds 0 0x1001 (rq 0x1001 []) ∧
    (let r := rqf 0x1002 32 []; let s := asks (securing [.attest 1 [], .attest 1 [], .attest 1 []]) r;
      s.holds 0 0x1002 r ∧ s.dev.boot.ready = true ∧ (s.dev.sec.ops.filter (·.isAttest)).length < 4 ∧
      s.dev.mbx.handles.length < 256) ∧
    (let r := rqf 0x1003 20 [(0, 4, 1), (8, 8, 1048576)]; let s := asks (securing []) r;
      s.holds 0 0x1003 r ∧ s.dev.boot.ready = true ∧ s.dev.hostRange (r.u 0 4) (r.u 8 8) 12 = true ∧
      s.dev.trustBusy = false ∧
      ((s.dev.buf (r.u 0 4)).map fun b => (b.lost, s.dev.bufHeld (r.u 0 4) b)) = some (false, false)) ∧
    (let r := rq 0x1004 []; let s := asks (securing []) r;
      s.holds 0 0x1004 r ∧ s.dev.trustBusy = false ∧ s.dev.hot = false) ∧
    (let r := rqf 0x1005 16 [(0, 4, 1), (8, 8, 2080480)]; let s := asks (securing []) r;
      s.holds 0 0x1005 r ∧ s.dev.boot.ready = true ∧ s.dev.recordIn (r.u 0 4) (r.u 8 8) 16672 = true ∧
      s.dev.trustBusy = false ∧ s.dev.hot = false) ∧
    ((asks up (rq 0x1006 [])).holds 0 0x1006 (rq 0x1006 []) ∧ up.sec.health = false) ∧
    (let r := rqf 0x1007 16 [(0, 4, 1), (8, 8, 2080032)]; let s := asks (securing []) r;
      s.holds 0 0x1007 r ∧ s.dev.boot.ready = true ∧ s.dev.recordIn (r.u 0 4) (r.u 8 8) 17120 = true ∧
      s.dev.trustBusy = false) := by decide +kernel

theorem witness_crypto_block :
    (securing [.unlock 1 1 0]).sec.ops = .unlock 1 1 0 :: [] ∧ (securing [.attest 1 [7]]).sec.ops = .attest 1 [7] :: [] ∧
    (let d := securing [.rollback 1]; d.sec.ops = .rollback 1 :: [] ∧
      (d.mbx.handles.look 1).map (fun x => (x.final, x.cancel)) = some (none, false) ∧ d.fuse.rollbackCount ≤ 0 ∧
      0 < d.sec.secVer) ∧
    (let d := { up with sec := { up.sec with scopes := 2 } };
      d.scopes.getLsbD 1 = true ∧ d.accessError 0 64 false = none) := by decide +kernel

/-! ## Frames, profile objects, stored bytes -/

/-- Whether exec answers a next state. -/
def goesOn (c : Instr) (s : State) : Bool := match exec c s with | .next _ => true | _ => false

/-- A check of every setting with its command. -/
def EachSetting (f : Instr × Setting → Bool) : Prop := List.all [
  (.timeConfig 0, setTimeConfig), (.compSet 0, setCompSet), (.trigGroup 0, setTrigGroup), (.trigOut 0, setTrigOut),
  (.ptpPort 0, setPtpPort), (.ppsConfig 0, setPpsConfig), (.streamConfig 0, setStreamConfig), (.csiPort 0, setCsiPort),
  (.pairConfig 0, setPairConfig), (.ethPort 0, setEthPort), (.lidarStream 0, setLidarStream), (.imuPort 0, setImuPort),
  (.encConfig 0, setEncConfig), (.canController 0, setCanController), (.canFilter 0, setCanFilter),
  (.sfeChannel 0, setSfeChannel), (.sfeAuxScan 0, setSfeAuxScan), (.sfeExc 0, setSfeExc), (.sfeDetect 0, setSfeDetect),
  (.sfeCal 0, setSfeCal), (.steConfig 0, setSteConfig), (.steMap 0, setSteMap), (.steMask 0, setSteMask),
  (.fteConfig 0, setFteConfig), (.fteMask 0, setFteMask), (.gridConfig 0, setGridConfig), (.gridSource 0, setGridSource),
  (.calSet 0, setCalSet), (.calRefine 0, setCalRefine), (.checkConfig 0, setCheckConfig), (.ppConfig 0, setPpConfig),
  (.locConfig 0, setLocConfig), (.wheelConfig 0, setWheelConfig), (.gnssConfig 0, setGnssConfig),
  (.loopConfig 0, setLoopConfig), (.mapConfig 0, setMapConfig), (.prsIndex 0, setPrsIndex), (.prsConfig 0, setPrsConfig),
  (.outPort 0, setOutPort), (.outRoute 0, setOutRoute), (.guideConfig 0, setGuideConfig),
  (.guideSelect 0, setGuideSelect)] f = true

/-- The same of the settings that name objects. -/
def EachObjectSetting (f : Instr × Setting → Bool) : Prop := List.all [
  (.compSet 0, setCompSet), (.trigGroup 0, setTrigGroup), (.trigOut 0, setTrigOut), (.ptpPort 0, setPtpPort),
  (.streamConfig 0, setStreamConfig), (.csiPort 0, setCsiPort), (.pairConfig 0, setPairConfig),
  (.lidarStream 0, setLidarStream), (.imuPort 0, setImuPort), (.encConfig 0, setEncConfig),
  (.canController 0, setCanController), (.canFilter 0, setCanFilter), (.sfeChannel 0, setSfeChannel),
  (.sfeDetect 0, setSfeDetect), (.sfeCal 0, setSfeCal), (.steConfig 0, setSteConfig), (.fteConfig 0, setFteConfig),
  (.gridConfig 0, setGridConfig), (.gridSource 0, setGridSource), (.checkConfig 0, setCheckConfig),
  (.ppConfig 0, setPpConfig), (.locConfig 0, setLocConfig), (.wheelConfig 0, setWheelConfig),
  (.outPort 0, setOutPort), (.outRoute 0, setOutRoute), (.guideConfig 0, setGuideConfig)] f = true

/-- A device whose profile uses every object number below 256 of every class. -/
def usingAll : Device := { profiled with jobs := { profiled.jobs with profile := { profiled.jobs.profile with
  zero := false, uses := (List.range 14).flatMap fun c => (List.range 132).map (c, ·) } } }

theorem witness_settings :
    EachSetting (fun x => let s := asks up (rq x.2.op (zeros 64));
      decide (s.mayConfigure 0 x.2 (rq x.2.op (zeros 64))) && goesOn x.1 s) := by
  unfold EachSetting; decide +kernel

theorem witness_profile_objects :
    usingAll.jobs.profile.zero = false ∧
    EachObjectSetting (fun x => let r := rq x.2.op (zeros 64); let s := asks usingAll r;
      decide (s.holds 0 x.2.op r) && s.dev.profileUses (x.2.objs r s.dev)) := by
  unfold EachObjectSetting; decide +kernel

theorem witness_frames :
    goesOn .powerOnReset (st up) = true ∧ goesOn .hotJoinRequest (st Device.reset) = true ∧
    goesOn .ppsOutRise (st up) = true ∧ goesOn .mapReclaim (st up) = true ∧
    goesOn (.jobRestart 1) (st (jobDev (aJob .restarting))) = true ∧ goesOn (.secStatus 0) (asks up (rq 0x1000 [])) = true ∧
    goesOn (.stSliceStart 1) (st (selfTest 0 false 0)) = true := by decide +kernel

theorem witness_stored_bytes :
    (let d := oneBuf up; let m := Store.reset;
      (d.buf 1).map (fun b => (decide b.pitches.Nodup, decide (2097150 + [7#8, 9].length ≤ b.size))) = some (true, true) ∧
      (d.bufStore m 1 2097150 [7, 9]).toBool = true ∧ Cells.wf 0#8 m.lp = true) := by decide +kernel

end Sys2Proof.Tests
end

section
/-! SUPPORT. Refused writes of BOOT_STEP (R93): when a step code is not permitted, what the sequencer does with it, and that a
private write of one word to BOOT_STEP is the boot command of its code. -/

namespace Sys2Proof.Machine

/-! ## When no step is permitted -/

/-- After READY no step is permitted (R93). -/
theorem Boot.permits_of_ready {b : Boot} (h : b.ready = true) (code : Nat) : b.permits code = false := by
  simp [Boot.permits, h]

/-- Every permitted step starts from IDLE, DONE or FAILED: none is permitted in BUSY or WAIT_DATA (R92, R93). -/
theorem Boot.permits_of_inProgress {b : Boot} (h : b.state = .busy ∨ b.state = .waitData) (code : Nat) :
    b.permits code = false := by
  have hstate : b.state ≠ .idle ∧ b.state ≠ .done ∧ b.state ≠ .failed := by
    rcases h with h | h <;> simp [h]
  obtain ⟨hidle, hdone, hfailed⟩ := hstate
  unfold Boot.permits
  split <;> simp [hidle, hdone, hfailed]

/-- A code outside the step table is never permitted (R92, R93). -/
theorem Boot.permits_of_noStep {code : Nat} (h : code = 0 ∨ 10 < code) (b : Boot) : b.permits code = false := by
  unfold Boot.permits
  split
  case h_11 => exact Bool.and_false _
  all_goals omega

/-! ## A refused step -/

/-- The sequencer answers a step that is not permitted with a refusal and leaves the memories alone (R93). -/
theorem bootStep_refused {code : Nat} {d : Device} (h : d.boot.permits code = false) (i : BootInput) (m : Store) :
    bootStep code i d m = (d.bootRefuse code, m) := by
  simp [bootStep, h]

/-- A boot command whose step is not permitted only refuses it, and moves the read pointer past BOOT_STEP (R93, R144). -/
theorem bootCmd_refused {code : Nat} {s : State} (hp : s.dev.takesPrivate = true)
    (h : s.dev.boot.permits code = false) (i : BootInput) :
    bootCmd code i s = .next (s.withDev ((s.dev.bootRefuse code).wrote 4)) := by
  simp [bootCmd, onBoth_next, hp, bootStep_refused h, State.withAll, State.withDev]

/-! ## BOOT_STEP as a register -/

/-- BOOT_STEP is a register of a window that is always open, and reads 0. -/
theorem Device.placeOf_bootStep (d : Device) : d.placeOf 0 = .reg .boot 0 := rfl

/-- A private write of one word to BOOT_STEP is the step of its low byte, the read pointer one word past (R143, R144). -/
theorem privateWrite_bootStep {d : Device} (h : 8 ≤ d.i3c.mwl) (v : Word) (m : Store) :
    privateWrite 0 [v] d m =
      let x := bootStep (v.toNat % 256) .clean d m
      (x.1.wrote 4, x.2) := by
  obtain ⟨k, hk⟩ : ∃ k, (d.i3c.mwl - 4) / 4 = k + 1 := Nat.exists_eq_add_of_le' (by omega)
  simp [privateWrite, hk, writeWords, windowOf, Device.placeOf_bootStep, regWrite, Device.wrote]

/-- Writing one word to BOOT_STEP is the boot command of its low byte, finding nothing amiss (R90). -/
theorem execRegisterWrite_bootStep {s : State} (h : 8 ≤ s.dev.i3c.mwl) (v : Word) :
    execRegisterWrite 0 [v] s = bootCmd (v.toNat % 256) .clean s := by
  simp only [execRegisterWrite, bootCmd, onBoth_next, privateWrite_bootStep h]

/-! ## The statement -/

/-- Settles O15: no step is permitted outside the order, and each way of writing BOOT_STEP is a boot command, which a step
that is not permitted only refuses. -/
theorem bootStepRefused : Obligations.BootStepRefused := by
  unfold Obligations.BootStepRefused
  refine ⟨fun b code h => ?_, fun s hp => ⟨fun x hx h => ?_, fun finds h => ?_, fun outcome h => ?_, fun reported h => ?_,
    fun engines units h => ?_, fun v hmwl h => ?_⟩⟩
  · rcases h with h | h | h | h | h
    · exact Boot.permits_of_noStep (.inl h) b
    · exact Boot.permits_of_noStep (.inr h) b
    · exact Boot.permits_of_inProgress (.inl h) code
    · exact Boot.permits_of_inProgress (.inr h) code
    · exact Boot.permits_of_ready h code
  · have hcmd : exec x.2 s = bootCmd x.1 .clean s := by
      simp only [List.mem_cons, List.not_mem_nil, or_false] at hx
      rcases hx with rfl | rfl | rfl | rfl | rfl | rfl <;> rfl
    exact hcmd.trans (bootCmd_refused hp h .clean)
  · exact bootCmd_refused hp h { BootInput.clean with finds := finds }
  · exact bootCmd_refused hp h { BootInput.clean with clocks := outcome }
  · exact bootCmd_refused hp h { BootInput.clean with reported := reported }
  · exact bootCmd_refused hp h { BootInput.clean with engines := engines, units := units }
  · exact (execRegisterWrite_bootStep hmwl v).trans (bootCmd_refused hp h .clean)

end Sys2Proof.Machine
end

section
/-! SUPPORT. The I3C target's common command codes (R136 to R142, R177, R837): byte strings spell the numbers they were made
from, what a CCC comes to when the target takes it, and the values the codes set and read. -/

namespace Sys2Proof.Machine

/-! ## Byte strings -/

@[simp] theorem length_leBytes (n v : Nat) : (leBytes n v).length = n := by
  induction n generalizing v with
  | zero => rfl
  | succ n ih => simp [leBytes, ih]

@[simp] theorem length_beBytes (n v : Nat) : (beBytes n v).length = n := by simp [beBytes]

/-- The `n` low bytes of a number spell its remainder modulo 256 to the `n`. -/
theorem leNat_leBytes (n v : Nat) : leNat (leBytes n v) = v % 256 ^ n := by
  induction n generalizing v with
  | zero => simp [leBytes, leNat, Nat.mod_one]
  | succ n ih =>
    calc leNat (leBytes (n + 1) v) = v % 256 + 256 * (v / 256 % 256 ^ n) := by simp [leBytes, leNat, ih]
      _ = v % 256 ^ (n + 1) := by rw [Nat.pow_succ', Nat.mod_mul]

/-- A number that fits into `n` bytes is what its big-endian bytes spell. -/
theorem beNat_beBytes {n v : Nat} (h : v < 256 ^ n) : beNat (beBytes n v) = v := by
  rw [beNat, beBytes, List.reverse_reverse, leNat_leBytes, Nat.mod_eq_of_lt h]

/-- Two big-endian bytes are the quotient and the remainder by 256. -/
theorem beBytes_two (v : Nat) : beBytes 2 v = [BitVec.ofNat 8 (v / 256), BitVec.ofNat 8 v] := rfl

/-! ## A CCC that is taken -/

/-- A CCC the target takes does its effect on the target's own registers and on nothing else. -/
theorem ccc_taken {s : State} (h : s.dev.takesCcc = true) {f : I3c → I3c} {i : I3c} (hi : f s.dev.i3c = i) :
    ccc f s = .next (s.withDev { s.dev with i3c := i }) := by
  rw [ccc, onDev_next, if_pos h, hi]

/-- A direct read CCC the target takes answers its bytes and changes nothing else. -/
theorem cccRead_taken {s : State} (h : s.dev.takesCcc = true) {bytes : Device → List Byte} {bs : List Byte}
    (hbs : bytes s.dev = bs) :
    cccRead bytes s = .next (s.withDev { s.dev with i3c := { s.dev.i3c with cccOut := bs } }) := by
  rw [cccRead, onDev_next, if_pos h, hbs]

/-- A GETSTATUS the target takes answers the status word and clears the protocol error (R837). -/
theorem execGetstatus_taken {s : State} (h : s.dev.takesCcc = true) :
    execGetstatus s = .next (s.withDev { s.dev with
      i3c := { s.dev.i3c with cccOut := beBytes 2 s.dev.statusWord, protoErr := false } }) := by
  rw [execGetstatus, onDev_next, if_pos h]

/-- Without a dynamic address no IBI is sent, and the pending ones stay (R142). -/
theorem execIbiSend_noAddress {s : State} (h : s.dev.i3c.dyn = none) (acked : Bool) : execIbiSend acked s = .next s := by
  rw [execIbiSend, onDev_next]
  split <;> simp [h, State.withDev]

/-! ## The values of the codes -/

/-- A length outside 8 to 4,096 becomes the nearer limit (R139). -/
theorem clampLen_eq (n : Nat) : clampLen n = if n < 8 then 8 else if 4096 < n then 4096 else n := by
  unfold clampLen
  split
  · omega
  · split <;> omega

/-- RSTACT keeps the actions 1 and 2, and any other is action 0 (R140). -/
theorem rstact_kept (a : Byte) : (if a.toNat ≤ 2 then a.toNat else 0) = if a = 1 then 1 else if a = 2 then 2 else 0 := by
  by_cases h1 : a = 1
  · simp [h1]
  by_cases h2 : a = 2
  · simp [h2]
  have ha1 : a.toNat ≠ 1 := fun h => h1 (BitVec.eq_of_toNat_eq h)
  have ha2 : a.toNat ≠ 2 := fun h => h2 (BitVec.eq_of_toNat_eq h)
  rw [if_neg h1, if_neg h2]
  split <;> omega

/-- The provisioned ID has 48 bits (R137). -/
theorem Fuses.pid_lt (f : Fuses) : f.pid < 256 ^ 6 := by unfold Fuses.pid; omega

/-- The status word: the lowest pending IBI, the protocol error in bit 5, and the count of pending IBIs up to 15 (R837). -/
theorem Device.statusWord_eq (d : Device) : d.statusWord =
    d.evt.ibi.headD 0 * 256 + (if d.i3c.protoErr then 32 else 0) + min 15 d.evt.ibi.length := by
  unfold Device.statusWord b2n
  split <;> rfl

/-- The status word has 16 bits while every pending IBI is a byte. -/
theorem Device.statusWord_lt {d : Device} (h : ∀ b ∈ d.evt.ibi, b < 256) : d.statusWord < 256 ^ 2 := by
  have hhead : d.evt.ibi.headD 0 < 256 := by
    cases hibi : d.evt.ibi with
    | nil => decide
    | cons b rest => exact h b (by simp [hibi])
  rw [d.statusWord_eq]
  split <;> omega

/-! ## The statement -/

/-- The CCCs that set the target: each is a change of its registers, and this is the change the statement names. -/
theorem cccsSetTheTarget_holds : cccsSetTheTarget := by
  intro s h
  refine ⟨(ccc_taken h rfl : execEnec s = _), (ccc_taken h rfl : execDisec s = _), (ccc_taken h rfl : execRstdaa s = _),
    fun a => (ccc_taken h ?entdaa : execEntdaa a s = _), fun a => (ccc_taken h ?setdasa : execSetdasa a s = _),
    fun a => (ccc_taken h ?setnewda : execSetnewda a s = _), fun n => (ccc_taken h ?setmwl : execSetmwl n s = _),
    fun n => (ccc_taken h ?setmrl : execSetmrl n s = _), fun a => (ccc_taken h ?rstact : execRstact a s = _),
    (ccc_taken h rfl : execEnthdr0 s = _)⟩
  case entdaa => simp only [Option.isNone_iff_eq_none]
  case setdasa => simp only [Option.isNone_iff_eq_none]
  case setnewda => cases s.dev.i3c.dyn <;> rfl
  case setmwl => rw [clampLen_eq]
  case setmrl => rw [clampLen_eq]
  case rstact => rw [rstact_kept]

/-- The CCCs that read the target: each answers its bytes, which spell the value they were made from. -/
theorem cccsReadTheTarget_holds : cccsReadTheTarget := by
  intro s h
  refine ⟨(cccRead_taken h (beBytes_two _) : execGetmwl s = _), (cccRead_taken h (beBytes_two _) : execGetmrl s = _),
    ⟨_, (cccRead_taken h rfl : execGetpid s = _), length_beBytes 6 _, beNat_beBytes s.dev.fuse.pid_lt⟩,
    (cccRead_taken h rfl : execGetbcr s = _), (cccRead_taken h rfl : execGetdcr s = _),
    ⟨_, (cccRead_taken h rfl : execGetcaps s = _), ?getcaps⟩,
    ⟨_, execGetstatus_taken h, length_beBytes 2 _, fun hibi => ?getstatus⟩⟩
  case getcaps => rw [List.length_map, List.length_range]
  case getstatus => rw [beNat_beBytes (Device.statusWord_lt hibi), Device.statusWord_eq]

/-- Settles O8: the codes that set the target, those that read it, the lengths at reset, and no IBI without an address. -/
theorem cccsActOnTheTarget : Obligations.CccsActOnTheTarget :=
  ⟨cccsSetTheTarget_holds, cccsReadTheTarget_holds, rfl, rfl, fun _ acked hdyn => execIbiSend_noAddress hdyn acked⟩

end Sys2Proof.Machine
end

section
/-! SUPPORT. The sequence store (R158): what an entry holds, and which entries are left when one more enters. -/

namespace Sys2Proof.Machine

/-- An answer without a handle is stored with its own status. -/
theorem storeEntry_status {a : Reply} (h : a.handle = none) (d : Device) (r : Request) :
    (storeEntry d r a).status = a.status := by
  simp [storeEntry, h]

/-- While the store has room, the entry enters behind those before it. -/
theorem enterStore_room {st : List StoreEntry} (h : st.length < 64) (e : StoreEntry) : enterStore st e = st ++ [e] := by
  have hdrop : st.length + 1 - 64 = 0 := by omega
  rw [enterStore, hdrop, List.drop_zero]

/-- The 65th entry drops the oldest. -/
theorem enterStore_full {st : List StoreEntry} (h : st.length = 63) (x e : StoreEntry) :
    enterStore (x :: st) e = st ++ [e] := by
  simp [enterStore, h]

/-- After an entry the store holds one more, and never more than 64. -/
theorem length_enterStore (st : List StoreEntry) (e : StoreEntry) :
    (enterStore st e).length = min (st.length + 1) 64 := by
  simp only [enterStore, List.length_drop, List.length_append, List.length_singleton]
  omega

/-- Settles O18: the entry's fields, the store with room, the full store, and its largest length. -/
theorem sequenceStoreKeepsTheNewest64 : Obligations.SequenceStoreKeepsTheNewest64 :=
  ⟨fun d r _ => ⟨rfl, rfl, rfl, rfl, rfl, fun h => storeEntry_status h d r⟩, fun _ e h => enterStore_room h e,
    fun _ x e h => enterStore_full h x e, fun st e _ => length_enterStore st e ▸ Nat.min_le_right _ _⟩

end Sys2Proof.Machine
end

section
/-! SUPPORT. Firmware trust, identity and debug (R796, R797, R804 to R808, R813 to R818): when an answer leaves the security
state alone, what a command that takes its place at the crypto block comes to, and what each operation leaves when it ends. -/

namespace Sys2Proof.Machine

/-! ## Fields of a payload -/

/-- A field written at its offset reads as its value modulo its width. -/
theorem fieldAt_leBytes {pre : List Byte} {off : Nat} (h : pre.length = off) (suf : List Byte) (n v : Nat) :
    fieldAt (pre ++ leBytes n v ++ suf) off n = v % 256 ^ n := by
  rw [fieldAt, ← h, List.append_assoc, List.drop_left, List.take_left' (length_leBytes n v), leNat_leBytes]

/-! ## Commands of the mailbox -/

/-- The request a channel holds for an opcode is of that opcode. -/
theorem State.op_of_holds {s : State} {ch : Fin 8} {op : Nat} {r : Request} (h : s.holds ch op r) : r.op = op := by
  simp only [State.holds, Device.awaiting] at h
  split at h
  · split at h
    · next hif =>
      obtain rfl := Option.some.inj h
      simp only [Bool.and_eq_true, decide_eq_true_eq] at hif
      obtain ⟨⟨-, hop⟩, -⟩ := hif
      exact hop
    · cases h
  · cases h

/-- The answer of a command that does not extend the configuration digest leaves the security state alone (R812). -/
theorem Device.answer_sec {r : Request} (h : r.op ∉ extends_) (d : Device) (ch : Nat) (a : Reply) :
    (d.answer ch r a).sec = d.sec := by
  have hext : extends_.elem r.op = false := by simpa using h
  simp only [Device.answer, hext, Bool.and_false, Bool.false_eq_true, if_false]
  split <;> simp

/-- While handles are free, a long command takes the next one and does its work with it (R153, R165). -/
theorem accept_room {r : Request} {d : Device} (h : d.mbx.handles.length < 256) (ch : Nat) (k : Nat → Device → Device) :
    accept r ch d k =
      (k d.mbx.nextHandle { d with mbx := d.mbx.taking ch r.op }, acceptedWith d.mbx.nextHandle) := by
  simp only [accept, Mbx.newHandle_some _ ch r.op h]
  rfl

/-- A long command that gets as far as `accept` is accepted; it leaves the memories alone, and the security state is the one
its work `k` leaves. -/
theorem command_accepts {c : Instr} {op : Nat} {ch : Fin 8} {s : State} {r : Request}
    {body : Request → Device → Device × Reply} {k : Nat → Device → Device} (hexec : exec c s = command op ch body s)
    (hr : s.holds ch op r) (hop : op ∉ extends_) (hroom : s.dev.mbx.handles.length < 256)
    (hbody : body r s.dev = accept r ch.val s.dev k) :
    Accepts c s ch fun h t => t.mem = s.mem ∧ t.dev.sec = (k h { s.dev with mbx := s.dev.mbx.taking ch.val op }).sec := by
  obtain rfl := State.op_of_holds hr
  refine ⟨_, _, hexec.trans (command_next _ ch body s r hr), ?_, rfl, rfl, ?_⟩
  · rw [hbody, accept_room hroom]
    exact Device.answer_formed _ _ _ _
  · rw [hbody, accept_room hroom]
    exact Device.answer_sec hop _ _ _

/-- A command whose work is to put one operation behind those accepted before it (R796). -/
theorem command_puts {c : Instr} {op : Nat} {ch : Fin 8} {s : State} {r : Request}
    {body : Request → Device → Device × Reply} {o : Nat → CryptoOp} (hexec : exec c s = command op ch body s)
    (hr : s.holds ch op r) (hop : op ∉ extends_) (hroom : s.dev.mbx.handles.length < 256)
    (hbody : body r s.dev = accept r ch.val s.dev fun h d => d.cryptoPut (o h)) :
    Accepts c s ch fun h t => t.mem = s.mem ∧ t.dev.sec.ops = s.dev.sec.ops ++ [o h] := by
  obtain ⟨t, h, hnext, hformed, hh, hmem, hsec⟩ := command_accepts hexec hr hop hroom hbody
  exact ⟨t, h, hnext, hformed, hh, hmem, by rw [hsec]; rfl⟩

/-! ## The commands -/

/-- SEC_STATUS reports the state word, both versions and the three digests (R818). -/
theorem secStatus_reports {s : State} {ch : Fin 8} {r : Request} (h : s.holds ch 0x1000 r) :
    Reports (.secStatus ch) s ch r fun p => fieldAt p 0 4 = s.dev.secState % 2 ^ 32 ∧
      fieldAt p 4 1 = s.dev.sec.secVer % 256 ∧ fieldAt p 8 4 = s.dev.sec.imgVer % 2 ^ 32 ∧
      p.drop 12 = s.dev.sec.fwDigest ++ s.dev.sec.cfgDigest ++ s.dev.sec.defectDigest := by
  refine ⟨_, (query_next 0x1000 ch _ s r h : execSecStatus ch s = _), ?state, ?secVer, ?imgVer, ?digests⟩
  case state =>
    simpa only [List.append_assoc, List.nil_append, Nat.reducePow] using
      fieldAt_leBytes (pre := []) (off := 0) rfl _ 4 s.dev.secState
  case secVer =>
    simpa only [List.append_assoc, Nat.reducePow] using
      fieldAt_leBytes (length_leBytes 4 s.dev.secState) _ 1 s.dev.sec.secVer
  case imgVer =>
    have hpre : (leBytes 4 s.dev.secState ++ leBytes 1 s.dev.sec.secVer ++ zeros 3).length = 8 := rfl
    simpa only [List.append_assoc, Nat.reducePow] using fieldAt_leBytes hpre _ 4 s.dev.sec.imgVer
  case digests => rfl

/-- ATTEST fixes the report at acceptance and counts it (R813). -/
theorem attest_accepts {s : State} {ch : Fin 8} {r : Request} (h : s.holds ch 0x1002 r) (hready : s.dev.boot.ready = true)
    (hfew : (s.dev.sec.ops.filter (·.isAttest)).length < 4) (hroom : s.dev.mbx.handles.length < 256) :
    Accepts (.attest ch) s ch fun h t => t.mem = s.mem ∧ t.dev.sec = { s.dev.sec with
      ops := s.dev.sec.ops ++ [.attest h (s.dev.reportHead r.body)], reportSeq := s.dev.sec.reportSeq + 1 } :=
  command_accepts (body := attestCmd ch.val) rfl h (by decide) hroom
    ((if_neg (by simp [hready])).trans (if_neg (Nat.not_le.mpr hfew)))

/-- FW_UPDATE takes its place with the buffer range and the flash sector it names (R808). -/
theorem fwUpdate_accepts {s : State} {ch : Fin 8} {r : Request} {b : Buffer} (h : s.holds ch 0x1003 r)
    (hready : s.dev.boot.ready = true) (hrange : s.dev.hostRange (r.u 0 4) (r.u 8 8) 12 = true)
    (hfree : s.dev.trustBusy = false) (hbuf : s.dev.buf (r.u 0 4) = some b) (hlost : b.lost = false)
    (hheld : s.dev.bufHeld (r.u 0 4) b = false) (hroom : s.dev.mbx.handles.length < 256) :
    Accepts (.fwUpdate ch) s ch fun h t => t.mem = s.mem ∧
      t.dev.sec.ops = s.dev.sec.ops ++ [.update h (r.u 0 4) (r.u 8 8) (r.u 16 2)] :=
  command_puts (o := fun h => .update h (r.u 0 4) (r.u 8 8) (r.u 16 2)) (show execFwUpdate ch s = _ from rfl)
    h (by decide) hroom (by simp [fwUpdateCmd, hready, hrange, hfree, hbuf, hlost, hheld])

/-- SEC_ROLLBACK takes its place (R804, R806). -/
theorem secRollback_accepts {s : State} {ch : Fin 8} {r : Request} (h : s.holds ch 0x1004 r)
    (hfree : s.dev.trustBusy = false) (hhot : s.dev.hot = false) (hroom : s.dev.mbx.handles.length < 256) :
    Accepts (.secRollback ch) s ch fun h t => t.mem = s.mem ∧ t.dev.sec.ops = s.dev.sec.ops ++ [.rollback h] :=
  command_puts (o := .rollback) (show execSecRollback ch s = _ from rfl) h (by decide) hroom (by simp [hfree, hhot])

/-- SEC_REVOKE takes its place with the record it names (R805, R806). -/
theorem secRevoke_accepts {s : State} {ch : Fin 8} {r : Request} (h : s.holds ch 0x1005 r)
    (hready : s.dev.boot.ready = true) (hrec : s.dev.recordIn (r.u 0 4) (r.u 8 8) revokeLen = true)
    (hfree : s.dev.trustBusy = false) (hhot : s.dev.hot = false) (hroom : s.dev.mbx.handles.length < 256) :
    Accepts (.secRevoke ch) s ch fun h t => t.mem = s.mem ∧
      t.dev.sec.ops = s.dev.sec.ops ++ [.revoke h (r.u 0 4) (r.u 8 8)] :=
  command_puts (o := fun h => .revoke h (r.u 0 4) (r.u 8 8)) (show execSecRevoke ch s = _ from rfl) h (by decide)
    hroom (by simp [hready, hrec, hfree, hhot])

/-- DEBUG_UNLOCK takes its place with the record it names (R806, R817). -/
theorem debugUnlock_accepts {s : State} {ch : Fin 8} {r : Request} (h : s.holds ch 0x1007 r)
    (hready : s.dev.boot.ready = true) (hrec : s.dev.recordIn (r.u 0 4) (r.u 8 8) unlockLen = true)
    (hfree : s.dev.trustBusy = false) (hroom : s.dev.mbx.handles.length < 256) :
    Accepts (.debugUnlock ch) s ch fun h t => t.mem = s.mem ∧
      t.dev.sec.ops = s.dev.sec.ops ++ [.unlock h (r.u 0 4) (r.u 8 8)] :=
  command_puts (o := fun h => .unlock h (r.u 0 4) (r.u 8 8)) (show execDebugUnlock ch s = _ from rfl) h (by decide)
    hroom (by simp [hready, hrec, hfree])

/-- While the random source is sound, DEBUG_CHALLENGE answers the 32 random bytes it keeps (R797, R816). -/
theorem debugChallenge_next {s : State} {ch : Fin 8} {r : Request} (h : s.holds ch 0x1006 r)
    (hhealth : s.dev.sec.health = false) :
    exec (.debugChallenge ch) s = .next (s.answered ch r
      { s.dev.tickFree with sec := { s.dev.sec with challenge := some (s.dev.freeBytes 52 32) } }
      (okWith (s.dev.freeBytes 52 32))) := by
  refine (command_next 0x1006 ch _ s r h : execDebugChallenge ch s = _).trans ?_
  simp only [hhealth]
  rfl

/-! ## The operations of the crypto block -/

@[simp] theorem Device.logAccess_sec (d : Device) (source : Nat) (e : AccessError) :
    (d.logAccess source e).sec = d.sec := by
  cases e <;> rfl

/-- An attestation changes no security state. -/
@[simp] theorem Device.attestDone_sec (d : Device) (h : Nat) (head : List Byte) : (d.attestDone h head).sec = d.sec := by
  unfold Device.attestDone
  split <;> simp

/-- An attestation of a pending handle ends FAILED after a health test failure and OK without one (R797, R813). -/
theorem Device.attestDone_ended {d : Device} {h : Nat} {x : Handle} (hx : d.mbx.handles.look h = some x)
    (hf : x.final = none) (head : List Byte) :
    (d.attestDone h head).ended h = some (if d.sec.health then stFailed else stOk) := by
  unfold Device.attestDone
  split <;> exact Device.finish_ended _ h _ _ x hx hf

/-- A firmware update writes the flash, and changes no security state (R808). -/
@[simp] theorem updateDone_sec (h buf off ofs : Nat) (fail : Option Nat) (cancel : Bool) (d : Device) (m : Store) :
    (updateDone h buf off ofs fail cancel d m).1.sec = d.sec := by
  simp only [updateDone]
  repeat' split
  all_goals simp

@[simp] theorem Device.blowSteps_sec (fail : Option Nat) (steps : List Nat) (d : Device) :
    (d.blowSteps fail steps).1.sec = d.sec := by
  induction steps generalizing d with
  | nil => rfl
  | cons i is ih =>
    simp only [Device.blowSteps]
    split
    · rfl
    · exact ih _

@[simp] theorem Device.rollbackDone_sec (d : Device) (h : Nat) (fail : Option Nat) :
    (d.rollbackDone h fail).sec = d.sec := by
  simp [Device.rollbackDone]

/-- Blowing fuse steps touches no handle. -/
@[simp] theorem Device.blowSteps_mbx (fail : Option Nat) (steps : List Nat) (d : Device) :
    (d.blowSteps fail steps).1.mbx = d.mbx := by
  induction steps generalizing d with
  | nil => rfl
  | cons i is ih =>
    simp only [Device.blowSteps]
    split
    · rfl
    · exact ih _

/-- With no step failing, the blow succeeds. -/
theorem Device.blowSteps_ok (steps : List Nat) (d : Device) : (d.blowSteps none steps).2 = true := by
  induction steps generalizing d with
  | nil => rfl
  | cons i is ih => exact ih _

/-- With no step failing, every step to be blown, and every one blown before, stands in all three copies (R803). -/
theorem Device.blowSteps_look {i : Nat} (steps : List Nat) (d : Device)
    (h : i ∈ steps ∨ d.fuse.rollback.look i = some 7) :
    (d.blowSteps none steps).1.fuse.rollback.look i = some 7 := by
  induction steps generalizing d with
  | nil => simpa [Device.blowSteps] using h
  | cons j js ih =>
    refine ih _ ?_
    by_cases hij : i = j
    · exact .inr (hij ▸ Tbl.look_put_same _ _ _)
    · refine h.imp (fun hmem => (List.mem_cons.mp hmem).resolve_left hij) fun hlook => ?_
      exact (Tbl.look_put_other _ _ _ _ hij).trans hlook

/-- A rollback with no step failing ends OK (R804). -/
theorem Device.rollbackDone_ended {d : Device} {h : Nat} {x : Handle} (hx : d.mbx.handles.look h = some x)
    (hf : x.final = none) : (d.rollbackDone h none).ended h = some stOk := by
  simp only [Device.rollbackDone, Device.blowSteps_ok, if_true]
  exact Device.finish_ended _ h _ _ x (by rwa [Device.blowSteps_mbx]) hf

/-- A rollback with no step failing blows the steps from the rollback count up to the image's security version (R804). -/
theorem Device.rollbackDone_look {d : Device} {i : Nat} (hlo : d.fuse.rollbackCount ≤ i) (hhi : i < d.sec.secVer)
    (h : Nat) : (d.rollbackDone h none).fuse.rollback.look i = some 7 := by
  simp only [Device.rollbackDone, Device.finish_fuse]
  refine Device.blowSteps_look _ d (.inl (List.mem_map.mpr ⟨i - d.fuse.rollbackCount, List.mem_range.mpr ?_, ?_⟩)) <;> omega

/-- A revocation changes fuses, not the security state. -/
@[simp] theorem Device.revokeDone_sec (d : Device) (m : Store) (h buf off : Nat) (fail : Option Nat) :
    (d.revokeDone m h buf off fail).sec = d.sec := by
  simp only [Device.revokeDone]
  repeat' split
  all_goals simp

/-- An unlock attempt leaves the other operations in the block. -/
@[simp] theorem Device.unlockDone_ops (d : Device) (m : Store) (h buf off : Nat) :
    (d.unlockDone m h buf off).sec.ops = d.sec.ops := by
  simp only [Device.unlockDone]
  repeat' split
  all_goals simp

/-- An unlock attempt of any outcome clears the challenge (R816). -/
theorem Device.unlockDone_challenge (d : Device) (m : Store) (h buf off : Nat) :
    (d.unlockDone m h buf off).sec.challenge = none := by
  simp only [Device.unlockDone]
  repeat' split
  all_goals simp

/-! ## The operation at the front ends -/

/-- Whatever it is and however it ends, the operation at the front leaves the block to those behind it (R796). -/
theorem cryptoDone_ops {d : Device} {o : CryptoOp} {os : List CryptoOp} (h : d.sec.ops = o :: os) (fail : Option Nat)
    (m : Store) : (cryptoDone fail d m).1.sec.ops = os := by
  simp only [cryptoDone, h]
  cases o with
  | update => simp
  | attest => dsimp only; split <;> simp
  | rollback => dsimp only; split <;> simp
  | revoke => dsimp only; split <;> simp
  | unlock => dsimp only; split <;> simp

/-- The end of an unlock attempt clears the challenge, and so does its cancel (R816). -/
theorem cryptoDone_unlock_challenge {d : Device} {h buf off : Nat} {os : List CryptoOp}
    (hops : d.sec.ops = .unlock h buf off :: os) (fail : Option Nat) (m : Store) :
    (cryptoDone fail d m).1.sec.challenge = none := by
  simp only [cryptoDone, hops]
  split
  · simp
  · exact Device.unlockDone_challenge _ m h buf off

/-- An attestation at the front leaves the memories alone and ends CANCELLED, FAILED or OK (R172, R797, R813). -/
theorem cryptoDone_attest {d : Device} {h : Nat} {head : List Byte} {os : List CryptoOp} {x : Handle}
    (hops : d.sec.ops = .attest h head :: os) (hx : d.mbx.handles.look h = some x) (hf : x.final = none)
    (fail : Option Nat) (m : Store) :
    (cryptoDone fail d m).2 = m ∧ (cryptoDone fail d m).1.ended h =
      some (if x.cancel then stCancelled else if d.sec.health then stFailed else stOk) := by
  simp only [cryptoDone, hops, CryptoOp.handle, hx, Option.map_some, Option.getD_some]
  refine ⟨trivial, ?_⟩
  cases x.cancel with
  | true => exact Device.finish_ended _ h _ _ x hx hf
  | false => exact Device.attestDone_ended (d := { d with sec := { d.sec with ops := os } }) hx hf head

/-- A rollback at the front that is not cancelled, with no step failing, is `rollbackDone` of the block's rest. -/
theorem cryptoDone_rollback {d : Device} {h : Nat} {os : List CryptoOp} {x : Handle}
    (hops : d.sec.ops = .rollback h :: os) (hx : d.mbx.handles.look h = some x) (hc : x.cancel = false)
    (fail : Option Nat) (m : Store) :
    cryptoDone fail d m = ({ d with sec := { d.sec with ops := os } }.rollbackDone h fail, m) := by
  simp only [cryptoDone, hops, CryptoOp.handle, hx, Option.map_some, Option.getD_some, hc, Bool.false_eq_true, if_false]

/-! ## The debug port -/

/-- Under the memory scope, a read the memory answers puts the bytes out at the port (R815). -/
theorem execDebugTapInstruction_memRead {s : State} {pa n : Nat} (hscope : s.dev.scopes.getLsbD 1 = true)
    (hok : s.dev.accessError pa n false = none) :
    execDebugTapInstruction (.memRead pa n) s =
      .next (s.withDev { s.dev with sec := { s.dev.sec with tapOut := s.mem.lp.readAll 0#8 pa n } }) := by
  simp only [execDebugTapInstruction, hscope, hok, onDev_next, Option.isNone_none, Bool.and_self, if_true]

/-! ## The statement -/

/-- Settles O54: the reports, the five operations that take their place, the challenge and what clears it, what an operation
leaves when it ends, and the debug port. -/
theorem securityCommandsAct : Obligations.SecurityCommandsAct := by
  intro s ch r
  refine ⟨secStatus_reports, fun h => ⟨_, (query_next 0x1001 ch _ s r h : execIdInfo ch s = _), rfl⟩, attest_accepts,
    fun _ => fwUpdate_accepts, secRollback_accepts, secRevoke_accepts,
    fun h hhealth => ⟨_, debugChallenge_next h hhealth, ?length⟩, debugUnlock_accepts,
    fun fail o os hops => ⟨_, onBoth_next _ s, rfl, cryptoDone_ops hops fail s.mem, ?cleared⟩, rfl,
    fun fail h head os x hops hx hf => ⟨_, onBoth_next _ s, rfl, cryptoDone_attest hops hx hf fail s.mem⟩,
    fun h os x hops hx hf hc => ⟨_, onBoth_next _ s, rfl, ?rollback⟩, rfl, rfl,
    fun pa n => execDebugTapInstruction_memRead⟩
  case length => rw [Device.freeBytes, List.length_map, List.length_range]
  case cleared =>
    rintro h buf off rfl
    exact cryptoDone_unlock_challenge hops fail s.mem
  case rollback =>
    rw [cryptoDone_rollback hops hx hc]
    refine ⟨rfl, Device.rollbackDone_ended hx hf, fun i hlo hhi => ?_⟩
    exact Device.rollbackDone_look (d := { s.dev with sec := { s.dev.sec with ops := os } }) hlo hhi h

end Sys2Proof.Machine
end

section
/-! SUPPORT. What a step comes to (R815; log entries 15, 74): each frame a command runs in answers a next state and leaves the
waiting commands alone; the debug port alone turns an access away. -/

namespace Sys2Proof.Machine

/-! ## Answers -/

/-- An outcome is a next state with another device, other memories, and the waiting commands as they were. -/
def Answers (s : State) (o : Host.Outcome State Fault Refusal) : Prop := ∃ d m, o = .next (s.withAll d m)

theorem answers_same (s : State) : Answers s (.next s) := ⟨s.dev, s.mem, rfl⟩

theorem answers_command (op : Nat) (ch : Fin 8) (f : Request → Device → Device × Reply) (s : State) :
    Answers s (command op ch f s) := by
  unfold command
  split
  · exact answers_same s
  · exact ⟨_, s.mem, rfl⟩

theorem answers_query (op : Nat) (ch : Fin 8) (f : Request → Device → Reply) (s : State) : Answers s (query op ch f s) :=
  answers_command op ch _ s

theorem answers_commandMem (op : Nat) (ch : Fin 8) (f : Request → Device → Store → (Device × Store) × Reply) (s : State) :
    Answers s (commandMem op ch f s) := by
  unfold commandMem
  split
  · exact answers_same s
  · exact ⟨_, _, rfl⟩

theorem answers_commandRead (op : Nat) (ch : Fin 8) (f : Request → Device → Store → Device × Reply) (s : State) :
    Answers s (commandRead op ch f s) := by
  unfold commandRead
  split
  · exact answers_same s
  · exact ⟨_, s.mem, rfl⟩

theorem answers_commandLater (op : Nat) (ch : Fin 8)
    (f : Request → Device → Store → (Device × Store) × Option Reply) (s : State) :
    Answers s (commandLater op ch f s) := by
  unfold commandLater
  split
  · exact answers_same s
  · next r _ => cases ha : (f r s.dev s.mem).2 <;> exact ⟨_, _, by simp only [ha]; rfl⟩

/-- A setting answers at once, or waits in the profile for the TICK job (R135). -/
theorem answers_configure (t : Setting) (ch : Fin 8) (s : State) : Answers s (configure t ch s) := by
  unfold configure
  split
  · exact answers_same s
  · split
    · exact ⟨_, _, rfl⟩
    · exact ⟨_, s.mem, rfl⟩

/-- The target reset pattern does nothing, or what RSTACT asks for (R140). -/
theorem answers_targetResetPattern (s : State) : Answers s (execTargetResetPattern s) := by
  unfold execTargetResetPattern
  split
  · split <;> exact ⟨_, _, rfl⟩
  · exact answers_same s

/-- The debug port answers every access but one to the CP or to the scan chains under its open scope (R815). -/
theorem execDebugTapInstruction_answers (i : TapInstr) (s : State) :
    Answers s (execDebugTapInstruction i s) ∨ execDebugTapInstruction i s = .refused .debugUnitNotDescribed ∧
      (i = .cp ∧ s.dev.scopes.getLsbD 0 = true ∨ i = .scan ∧ s.dev.scopes.getLsbD 2 = true) := by
  cases i with
  | idcode | bypass | memWrite | ctlWrite => exact .inl ⟨_, _, rfl⟩
  | memRead | ctlRead =>
    refine .inl ?_
    simp only [execDebugTapInstruction]
    split <;> exact ⟨_, _, rfl⟩
  | cp | scan =>
    simp only [execDebugTapInstruction]
    split
    next h => exact .inr ⟨rfl, by simp [h]⟩
    next => exact .inl (answers_same s)

/-- Every command answers a next state with the queue as it was; only the debug port refuses, by name (R815). The commands
stand by the frame they run in. -/
theorem exec_answers (c : Instr) (s : State) :
    Answers s (exec c s) ∨ exec c s = .refused .debugUnitNotDescribed ∧
      (c = .debugTapInstruction .cp ∧ s.dev.scopes.getLsbD 0 = true ∨
       c = .debugTapInstruction .scan ∧ s.dev.scopes.getLsbD 2 = true) := by
  cases c with
  | debugTapInstruction i => simpa [exec] using execDebugTapInstruction_answers i s
  | targetResetPattern => exact .inl (answers_targetResetPattern s)
  | powerOnReset | packageResetAssert | supplyUndervoltage => exact .inl ⟨_, s.mem.packageReset, rfl⟩
  | packageResetRelease | hotJoinRequest | getstatus | unsupportedCcc | enthdrUnsupported | hdrExit | rcRegisterRead
  | ibiSend | loadIdle | stepTimeout | evtRingRdWrite | evtVlogIdxWrite | evtFlogIdxWrite | latch | onPps
  | mbxDoorbell | flush | mbxResponseFormed | diagLatch | triggerEdge | pulseEnd | ppsInEdge | ppsQualified | ppsLost
  | ppsOutRise | ppsOutFall | ptpMessageRx | servoLock | servoUnlock | ptpMasterLost | holdMaxExpiry | ptpMessageTx
  | ptpEventForward | residenceEntryExpiry | tbSlaveFault | csiEmbeddedData | pairLost | pairRecover | ethFrameTx
  | imuDataReady | encoderEdge | encoderIndex | canErrorState | streamDropout | streamRecover | sfeChannelStart
  | sfeCalDone | iepeBiasFault | resolverLos | sfeFaultRecover | phaseAutoUpdate | excOvercurrent | sfeInputClamp
  | bcastPacket | bcastAckTimeout | flagSignal | memCompletion | mscRequest | patrolScrub | fteDormantExpire
  | fteFreezeExpire | checkDecision | checkSourceClean | calRefineTick | slvStepBoundary | slvDeadline | ppRecord
  | locLostTimeout | locReinitTimeout | locInitStart | tickDeadline | loopCorrectionApply | mapReclaim
  | batchWindowClose | shardCompaction | eventMsgForm | diagMsgForm | guideInstant | jobFault | flitParityError
  | linkCrcError | linkRetrain | cpWatchdog | cpSramUe | diePowerOnDone | domainPowerGood | limiterEval | stSliceBusy
  | fuseRecordBlow | holdoverClassChange | busOffRecoveryDone | guidanceFrameTx | readOutsideWindow
  | healthTestFailure | enec | disec | rstdaa | entdaa | setdasa | setnewda | setmwl | setmrl | rstact | enthdr0
  | getmwl | getmrl | getpid | getbcr | getdcr | getcaps => exact .inl ⟨_, _, rfl⟩
  | i3cAddressWrite | i3cMalformedTransfer | registerWrite | trainItemEnd | bootFwwinWrite | bootStepEnd | bootReset
  | timeStepApply | csiFrameStart | csiLinePacket | csiFrameEnd | frameTimeout | csiBulkPacket | ethFrameRx
  | sweepClose | imuTransactionDone | encoderSample | canFrameRx | sfeOutputSample | sfeDetectorWindow
  | sfeAuxScanStart | jobPlace | jobLoaded | bcastAnswer | descriptorIssue | flagWaitMet | waitTimeout | unitEnd
  | schedEntryCopy | windowSlotLoad | steBandBuild | steBandWrite | steTileBoundary | steOpDone | fteBandBuild
  | fteTrackOp | haloCopy | slvSolveEnd | roundMerge | txPartSend | jobCommit | jobRestart | pllLockLoss
  | refClockLoss | thermalEval | stSliceStart | stSliceEnd | stSliceTimeout | stWindowVoid | cryptoOpDone | ident
  | fuseLoad | sweep | clocks | train | fwLoad | fwVerify | fwStart | kat | ready => exact .inl ⟨_, _, rfl⟩
  | nop | handleQuery | handleList | timeStatus | compGet | ptpPortStatus | streamStatus | ethStatus | sfeStatus
  | sfeCoefGet | jobStatus | jobList | profileStatus | clusterStatus | unitStatus | memStatus | bufInfo | steStatus
  | fteStatus | fteTrackGet | calGet | fusionStatus | ppStatus | locStatus | poseGet | mapStatus | mapGet | prsStatus
  | outStatus | eventGet | guideStatus | powerStatus | stProgress | stFuseStatus | secStatus | idInfo =>
    simp only [exec]
    exact .inl (answers_query _ _ _ s)
  | resultGet | diagCollect | timeSet | bulkOpen | jobConfig | profileUnload | bufAlloc | bufFree | slvSolve
  | slvStatus | slvUnload | locReset | gnssFix | mapExport | mapSession | mapClear | prsTreeLoad | prsUpdate
  | prsQuery | prsCompact | outBulk | powerConfig | pwrSense | stRun | stFuse | attest | fwUpdate | secRollback
  | secRevoke | debugChallenge | debugUnlock =>
    simp only [exec]
    exact .inl (answers_command _ _ _ s)
  | handleCancel | profileLoad | memWrite =>
    simp only [exec]
    exact .inl (answers_commandMem _ _ _ s)
  | jobSubmit | memRead | steRun | fteRun | slvLoad | slvUpdate | mapLoad | guidePath =>
    simp only [exec]
    exact .inl (answers_commandRead _ _ _ s)
  | partReset | dieReset | domainPower | diePower =>
    simp only [exec]
    exact .inl (answers_commandLater _ _ _ s)
  | timeConfig | compSet | trigGroup | trigOut | ptpPort | ppsConfig | streamConfig | csiPort | pairConfig | ethPort
  | lidarStream | imuPort | encConfig | canController | canFilter | sfeChannel | sfeAuxScan | sfeExc | sfeDetect
  | sfeCal | steConfig | steMap | steMask | fteConfig | fteMask | gridConfig | gridSource | calSet | calRefine
  | checkConfig | ppConfig | locConfig | wheelConfig | gnssConfig | loopConfig | mapConfig | prsIndex | prsConfig
  | outPort | outRoute | guideConfig | guideSelect =>
    simp only [exec]
    exact .inl (answers_configure _ _ s)

/-! ## The statements -/

/-- Settles O1: a step is the meaning of the front command, and an idle one is 2 ns of the time clock. -/
theorem stepRunsTheFrontCommand : Obligations.StepRunsTheFrontCommand :=
  ⟨fun _ _ _ => rfl, fun s h => by simp only [step, h, State.idle, State.withDev]⟩

/-- Settles O2: every answer keeps the queue, and a refusal is no next state. -/
theorem commandsKeepTheQueue : Obligations.CommandsKeepTheQueue := by
  intro c s t h
  rcases exec_answers c s with ⟨d, m, hn⟩ | ⟨hr, -⟩
  · rw [hn] at h
    cases h
    rfl
  · rw [hr] at h
    cases h

/-- Settles O3: every command answers, but for the two accesses of the debug port. -/
theorem onlyTheDebugUnitRefuses : Obligations.OnlyTheDebugUnitRefuses := fun c s =>
  (exec_answers c s).imp_left fun ⟨_, _, h⟩ => ⟨_, h⟩

/-- Settles O5: nothing is listed after reset. -/
theorem resetMemoriesCanonical : Obligations.ResetMemoriesCanonical := by
  unfold Obligations.ResetMemoriesCanonical
  rfl

/-- Settles O6: every value is the field of the reset state, and no channel has an entry. -/
theorem resetLeavesTheStatedValues : Obligations.ResetLeavesTheStatedValues := by
  refine ⟨rfl, rfl, rfl, rfl, rfl, rfl, ?_, rfl, rfl, rfl, rfl, rfl, rfl, rfl, rfl, rfl, rfl, rfl, rfl, rfl, rfl,
    fun _ => ⟨rfl, rfl⟩, rfl, rfl, rfl, rfl, ?_, rfl, rfl⟩ <;> decide

/-- Settles O19: the answer is no BAD_FIELD, so it makes no violation. -/
theorem answersFormAndExtend : Obligations.AnswersFormAndExtend := by
  intro d ch r a h
  have hfield : a.status ≠ stBadField := h
  simp only [Device.answer, if_neg hfield, Bool.and_eq_true, decide_eq_true_eq, List.elem_eq_mem, and_assoc]
  split <;> rfl

end Sys2Proof.Machine
end

section
/-! SUPPORT. Frames: a device that agrees with another on every part but those listed. Each operation of the model has one frame
law below, an equivalence, so that a chain of operations is followed back to the device it starts from by rewriting. -/

namespace Sys2Proof.Machine

/-- Two devices agree on every part but those listed. -/
def Device.agrees (ps : List MachinePart) (d e : Device) : Prop := ∀ p m, p ∉ ps → p.same ⟨d, m, []⟩ ⟨e, m, []⟩

/-- Two memories agree on every part but those listed. -/
def Store.agrees (ps : List MachinePart) (m n : Store) : Prop := ∀ p d, p ∉ ps → p.same ⟨d, m, []⟩ ⟨d, n, []⟩

/-- A frame is read as it stands: rewriting does not enter the device it holds of. -/
@[congr] theorem Device.agrees_congr (ps : List MachinePart) (d e : Device) : d.agrees ps e = d.agrees ps e := rfl

@[congr] theorem Store.agrees_congr (ps : List MachinePart) (m n : Store) : m.agrees ps n = m.agrees ps n := rfl

/-- Within a list's length the default does not show. -/
theorem getD_of_lt_length {α : Type} (l : List α) (d : α) {n : Nat} (h : n < l.length) : l.getD n d = l[n] := by
  rw [List.getD_eq_getElem?_getD, List.getElem?_eq_getElem h, Option.getD_some]

/-! ## Parts -/

/-- Every part of the device but its fuses, which no reset touches. -/
def MachinePart.butFuse : List MachinePart :=
  [.pkg, .boot, .view, .i3c, .evt, .mbx, .diag, .time, .tim, .jobs, .pwr, .units, .clusters, .memsys, .ing, .sfe, .vis, .grid,
    .slv, .loc, .map, .prs, .out, .st, .sec, .free]

theorem MachinePart.same_refl (p : MachinePart) (s : State) : p.same s s := by cases p <;> simp [MachinePart.same]

theorem MachinePart.same.trans {p : MachinePart} {s t u : State} (h : p.same s t) (k : p.same t u) : p.same s u := by
  cases p with
  | flash => exact ⟨k.1.trans h.1, k.2.trans h.2⟩
  | _ => exact Eq.trans k h

theorem MachinePart.same.symm {p : MachinePart} {s t : State} (h : p.same s t) : p.same t s := by
  cases p with
  | flash => exact ⟨h.1.symm, h.2.symm⟩
  | _ => exact Eq.symm h

/-- Where the devices and the memories agree, the states have the same parts. -/
theorem MachinePart.same_of_agrees {ps : List MachinePart} {p : MachinePart} {s t : State} (hp : p ∉ ps)
    (hd : s.dev.agrees ps t.dev) (hm : s.mem.agrees ps t.mem) : p.same s t := by
  have h := hd p s.mem hp
  have k := hm p s.dev hp
  cases p with
  | lp | sram | flash => exact k
  | _ => exact h

/-! ## Devices -/

@[simp] theorem Device.agrees_refl (ps : List MachinePart) (d : Device) : d.agrees ps d := fun p _ _ => p.same_refl _

theorem Device.agrees.trans {ps : List MachinePart} {a b c : Device} (h : a.agrees ps b) (k : b.agrees ps c) :
    a.agrees ps c := fun p m hp => (h p m hp).trans (k p m hp)

theorem Device.agrees.symm {ps : List MachinePart} {a b : Device} (h : a.agrees ps b) : b.agrees ps a :=
  fun p m hp => (h p m hp).symm

theorem Device.agrees.mono {ps qs : List MachinePart} {a b : Device} (h : a.agrees ps b) (hs : ps ⊆ qs) :
    a.agrees qs b := fun p m hp => h p m fun hq => hp (hs hq)

/-- What agrees with a device is what agrees with one that agrees with it. -/
theorem Device.agrees.iff {ps : List MachinePart} {d e : Device} (h : d.agrees ps e) (base : Device) :
    base.agrees ps e ↔ base.agrees ps d := ⟨fun k => k.trans h.symm, fun k => k.trans h⟩

@[simp] theorem Device.agrees_ite {ps : List MachinePart} (base d e : Device) (c : Prop) [Decidable c] :
    base.agrees ps (if c then d else e) ↔ if c then base.agrees ps d else base.agrees ps e := by split <;> rfl

@[simp] theorem Device.agrees_ite_fst {ps : List MachinePart} {α : Type} (base : Device) (x y : Device × α) (c : Prop)
    [Decidable c] : base.agrees ps (if c then x else y).1 ↔ if c then base.agrees ps x.1 else base.agrees ps y.1 := by
  split <;> rfl

@[simp] theorem Device.agrees_ite_fst_fst {ps : List MachinePart} {α β : Type} (base : Device) (x y : (Device × α) × β)
    (c : Prop) [Decidable c] :
    base.agrees ps (if c then x else y).1.1 ↔ if c then base.agrees ps x.1.1 else base.agrees ps y.1.1 := by
  split <;> rfl

/-- A device written out agrees with the one its fuses are taken from where each other part is taken from it too, or is
listed. -/
@[simp] theorem Device.agrees_mk {ps : List MachinePart} {base d : Device} {pkg boot view i3c evt mbx diag time tim jobs
    pwr units clusters memsys ing sfe vis grid slv loc map prs out st sec free}
    (h : (.pkg ∈ ps ∨ pkg = d.pkg) ∧ (.boot ∈ ps ∨ boot = d.boot) ∧ (.view ∈ ps ∨ view = d.view) ∧
      (.i3c ∈ ps ∨ i3c = d.i3c) ∧ (.evt ∈ ps ∨ evt = d.evt) ∧ (.mbx ∈ ps ∨ mbx = d.mbx) ∧ (.diag ∈ ps ∨ diag = d.diag) ∧
      (.time ∈ ps ∨ time = d.time) ∧ (.tim ∈ ps ∨ tim = d.tim) ∧ (.jobs ∈ ps ∨ jobs = d.jobs) ∧
      (.pwr ∈ ps ∨ pwr = d.pwr) ∧ (.units ∈ ps ∨ units = d.units) ∧ (.clusters ∈ ps ∨ clusters = d.clusters) ∧
      (.memsys ∈ ps ∨ memsys = d.memsys) ∧ (.ing ∈ ps ∨ ing = d.ing) ∧ (.sfe ∈ ps ∨ sfe = d.sfe) ∧
      (.vis ∈ ps ∨ vis = d.vis) ∧ (.grid ∈ ps ∨ grid = d.grid) ∧ (.slv ∈ ps ∨ slv = d.slv) ∧ (.loc ∈ ps ∨ loc = d.loc) ∧
      (.map ∈ ps ∨ map = d.map) ∧ (.prs ∈ ps ∨ prs = d.prs) ∧ (.out ∈ ps ∨ out = d.out) ∧ (.st ∈ ps ∨ st = d.st) ∧
      (.sec ∈ ps ∨ sec = d.sec) ∧ (.free ∈ ps ∨ free = d.free)) :
    base.agrees ps ⟨d.fuse, pkg, boot, view, i3c, evt, mbx, diag, time, tim, jobs, pwr, units, clusters, memsys, ing,
      sfe, vis, grid, slv, loc, map, prs, out, st, sec, free⟩ ↔ base.agrees ps d := by
  refine Device.agrees.iff (fun p m hp => ?_) base
  cases p <;> simp_all [MachinePart.same]

/-- What every step of a fold keeps, the fold keeps. -/
@[simp] theorem Device.agrees_foldl {ps : List MachinePart} {α : Type} {f : Device → α → Device}
    (h : ∀ (d : Device) x, d.agrees ps (f d x)) (l : List α) (base d : Device) :
    base.agrees ps (l.foldl f d) ↔ base.agrees ps d := by
  induction l generalizing d with
  | nil => rfl
  | cons x l ih => exact (ih _).trans ((h d x).iff base)

/-- A fold that carries more than the device keeps what each of its steps keeps of the device. -/
theorem Device.agrees_foldl_of {ps : List MachinePart} {α β : Type} {f : β → α → β} {g : β → Device}
    (h : ∀ b x, (g b).agrees ps (g (f b x))) (l : List α) (base : Device) (b : β) :
    base.agrees ps (g (l.foldl f b)) ↔ base.agrees ps (g b) := by
  induction l generalizing b with
  | nil => rfl
  | cons x l ih => exact (ih _).trans ((h b x).iff base)

/-- A fold of steps that may fail, each of which keeps what is not listed, keeps it where none fails. -/
theorem Device.agrees_of_foldl_bind {ps : List MachinePart} {α β : Type} {f : α → β → Option β} {g : β → Device}
    (h : ∀ x b c, f x b = some c → (g b).agrees ps (g c)) {l : List α} {b c : β}
    (hc : l.foldl (fun acc x => acc.bind (f x)) (some b) = some c) : (g b).agrees ps (g c) := by
  induction l generalizing b with
  | nil =>
    cases hc
    exact Device.agrees_refl _ _
  | cons x l ih =>
    have none (l : List α) : l.foldl (fun acc x => acc.bind (f x)) none = none := by
      induction l with
      | nil => rfl
      | cons _ _ ih => exact ih
    rw [List.foldl_cons, Option.bind_some] at hc
    cases hx : f x b with
    | none => simp [hx, none] at hc
    | some y => exact (h x b y hx).trans (ih (hx ▸ hc))

/-! ## Memories -/

@[simp] theorem Store.agrees_refl (ps : List MachinePart) (m : Store) : m.agrees ps m := fun p _ _ => p.same_refl _

theorem Store.agrees.trans {ps : List MachinePart} {a b c : Store} (h : a.agrees ps b) (k : b.agrees ps c) :
    a.agrees ps c := fun p d hp => (h p d hp).trans (k p d hp)

theorem Store.agrees.symm {ps : List MachinePart} {a b : Store} (h : a.agrees ps b) : b.agrees ps a :=
  fun p d hp => (h p d hp).symm

theorem Store.agrees.iff {ps : List MachinePart} {m n : Store} (h : m.agrees ps n) (base : Store) :
    base.agrees ps n ↔ base.agrees ps m := ⟨fun k => k.trans h.symm, fun k => k.trans h⟩

@[simp] theorem Store.agrees_ite {ps : List MachinePart} (base m n : Store) (c : Prop) [Decidable c] :
    base.agrees ps (if c then m else n) ↔ if c then base.agrees ps m else base.agrees ps n := by split <;> rfl

@[simp] theorem Store.agrees_ite_snd {ps : List MachinePart} {α : Type} (base : Store) (x y : α × Store) (c : Prop)
    [Decidable c] : base.agrees ps (if c then x else y).2 ↔ if c then base.agrees ps x.2 else base.agrees ps y.2 := by
  split <;> rfl

@[simp] theorem Store.agrees_ite_fst_snd {ps : List MachinePart} {α β : Type} (base : Store) (x y : (α × Store) × β)
    (c : Prop) [Decidable c] :
    base.agrees ps (if c then x else y).1.2 ↔ if c then base.agrees ps x.1.2 else base.agrees ps y.1.2 := by
  split <;> rfl

/-- Memories written out agree with the ones their flash size is taken from where each part is taken from them, or is
listed. -/
@[simp] theorem Store.agrees_mk {ps : List MachinePart} {base m : Store} {lp sram flash : Cells}
    (h : (.lp ∈ ps ∨ lp = m.lp) ∧ (.sram ∈ ps ∨ sram = m.sram) ∧ (.flash ∈ ps ∨ flash = m.flash)) :
    base.agrees ps ⟨lp, sram, flash, m.flashSize⟩ ↔ base.agrees ps m := by
  refine Store.agrees.iff (fun p d hp => ?_) base
  cases p <;> simp_all [MachinePart.same]

theorem Store.agrees_foldl_of {ps : List MachinePart} {α β : Type} {f : β → α → β} {g : β → Store}
    (h : ∀ b x, (g b).agrees ps (g (f b x))) (l : List α) (base : Store) (b : β) :
    base.agrees ps (g (l.foldl f b)) ↔ base.agrees ps (g b) := by
  induction l generalizing b with
  | nil => rfl
  | cons x l ih => exact (ih _).trans ((h b x).iff base)

end Sys2Proof.Machine
end

section
/-! SUPPORT. Frames of the shared operations. -/

namespace Sys2Proof.Machine

variable {parts : List MachinePart}

/-! ## Flags -/

@[simp] theorem Device.agrees_tickFree (base : Device) (d : Device) (hps : [.free] ⊆ parts) : base.agrees parts
    d.tickFree ↔ base.agrees parts d := by
  simp at hps
  simp [Device.tickFree, hps]

@[simp] theorem Device.agrees_diagAdd (base : Device) (d : Device) (die off lo width n : Nat) (hps : [.diag] ⊆
    parts) : base.agrees parts (d.diagAdd die off lo width n) ↔ base.agrees parts d := by
  simp at hps
  simp [Device.diagAdd, hps]

@[simp] theorem Device.agrees_diagPeak (base : Device) (d : Device) (die off lo width v : Nat) (hps : [.diag] ⊆
    parts) : base.agrees parts (d.diagPeak die off lo width v) ↔ base.agrees parts d := by
  simp at hps
  simp [Device.diagPeak, hps]

@[simp] theorem Device.agrees_diagSet (base : Device) (d : Device) (die off lo width v : Nat) (hps : [.diag] ⊆
    parts) : base.agrees parts (d.diagSet die off lo width v) ↔ base.agrees parts d := by
  simp at hps
  simp [Device.diagSet, hps]

@[simp] theorem Device.agrees_advance (base : Device) (d : Device) (delta : Nat) (hps : [.diag, .time] ⊆ parts) :
    base.agrees parts (d.advance delta) ↔ base.agrees parts d := by
  simp at hps
  simp [Device.advance, hps]

@[simp] theorem Device.agrees_advanceTo (base : Device) (d : Device) (moment : Nat) (hps : [.diag, .time] ⊆ parts) :
    base.agrees parts (d.advanceTo moment) ↔ base.agrees parts d := by
  simp at hps
  simp [Device.advanceTo, hps]

@[simp] theorem Device.agrees_advanceToDev (base : Device) (d : Device) (moment : Nat) (hps : [.diag, .time] ⊆
    parts) : base.agrees parts (d.advanceToDev moment) ↔ base.agrees parts d := by
  simp at hps
  simp [Device.advanceToDev, hps]

@[simp] theorem Device.agrees_raiseIbi (base : Device) (d : Device) (byte : Nat) (hps : [.evt] ⊆ parts) :
    base.agrees parts (d.raiseIbi byte) ↔ base.agrees parts d := by
  simp at hps
  simp [Device.raiseIbi, hps]

@[simp] theorem Device.agrees_setCause (base : Device) (d : Device) (b : Nat) (hps : [.evt] ⊆ parts) : base.agrees
    parts (d.setCause b) ↔ base.agrees parts d := by
  simp at hps
  simp [Device.setCause, hps]

@[simp] theorem Device.agrees_record (base : Device) (d : Device) (code cause unit p0 p1 : Nat) (hps : [.evt] ⊆
    parts) : base.agrees parts (d.record code cause unit p0 p1) ↔ base.agrees parts d := by
  simp at hps
  simp [Device.record, hps]

@[simp] theorem Device.agrees_event (base : Device) (d : Device) (code cause unit p0 p1 : Nat) (hps : [.evt] ⊆
    parts) : base.agrees parts (d.event code cause unit p0 p1) ↔ base.agrees parts d := by
  simp at hps
  simp [Device.event, hps]

@[simp] theorem Device.agrees_violation (base : Device) (d : Device) (iface unit code detail : Nat) (hps : [.evt] ⊆
    parts) : base.agrees parts (d.violation iface unit code detail) ↔ base.agrees parts d := by
  simp at hps
  simp [Device.violation, hps]

@[simp] theorem Device.agrees_faultEntry (base : Device) (d : Device) (job cause restart outcome source die index :
    Nat) (addr : Option Nat) (detail : Nat) (hps : [.evt] ⊆ parts) : base.agrees parts (d.faultEntry job cause
    restart outcome source die index addr detail) ↔ base.agrees parts d := by
  simp at hps
  simp [Device.faultEntry, hps]

@[simp] theorem Device.agrees_outsideFault (base : Device) (d : Device) (cause source die index : Nat) (addr :
    Option Nat) (detail : Nat) (hps : [.evt, .diag] ⊆ parts) : base.agrees parts (d.outsideFault cause source die
    index addr detail) ↔ base.agrees parts d := by
  simp at hps
  simp [Device.outsideFault, hps]

@[simp] theorem Device.agrees_finish (base : Device) (d : Device) (h status : Nat) (result : List Byte) (hps :
    [.evt, .mbx] ⊆ parts) : base.agrees parts (d.finish h status result) ↔ base.agrees parts d := by
  simp at hps
  unfold Device.finish
  split <;> simp [hps]

@[simp] theorem Device.agrees_finishOpt (base : Device) (d : Device) (h : Option Nat) (status : Nat) (result : List
    Byte) (hps : [.evt, .mbx] ⊆ parts) : base.agrees parts (d.finishOpt h status result) ↔ base.agrees parts d := by
  simp at hps
  unfold Device.finishOpt
  split <;> simp [hps]

/-! ## Ops -/

@[simp] theorem Device.agrees_defectEvent (base : Device) (d : Device) (die p0 kind : Nat) (hps : [.evt, .sec] ⊆
    parts) : base.agrees parts (d.defectEvent die p0 kind) ↔ base.agrees parts d := by
  simp at hps
  simp [Device.defectEvent, hps]

@[simp] theorem Device.agrees_extendConfig (base : Device) (d : Device) (op : Nat) (payload : List Byte) (hps :
    [.sec] ⊆ parts) : base.agrees parts (d.extendConfig op payload) ↔ base.agrees parts d := by
  simp at hps
  simp [Device.extendConfig, hps]

@[simp] theorem Device.agrees_setDomain (base : Device) (d : Device) (die dom : Nat) (on : Bool) (hps : [.pwr] ⊆
    parts) : base.agrees parts (d.setDomain die dom on) ↔ base.agrees parts d := by
  simp at hps
  simp [Device.setDomain, hps]

@[simp] theorem Device.agrees_packageReset (base : Device) (d : Device) (hps : MachinePart.butFuse ⊆ parts) :
    base.agrees parts d.packageReset ↔ base.agrees parts d := by
  simp [MachinePart.butFuse] at hps
  simp [Device.packageReset, hps]

@[simp] theorem Store.agrees_packageReset (base : Store) (m : Store) (hps : [.lp, .sram] ⊆ parts) : base.agrees
    parts m.packageReset ↔ base.agrees parts m := by
  simp at hps
  simp [Store.packageReset, hps]

@[simp] theorem Device.agrees_wrote (base : Device) (d : Device) (next : Nat) (hps : [.i3c] ⊆ parts) : base.agrees
    parts (d.wrote next) ↔ base.agrees parts d := by
  simp at hps
  simp [Device.wrote, hps]

/-! ## Boot -/

@[simp] theorem Device.agrees_bootRefuse (base : Device) (d : Device) (code : Nat) (hps : [.boot, .evt] ⊆ parts) :
    base.agrees parts (d.bootRefuse code) ↔ base.agrees parts d := by
  simp at hps
  simp [Device.bootRefuse, hps]

@[simp] theorem Device.agrees_bootResult (base : Device) (d : Device) (r : StepResult) (hps : [.boot] ⊆ parts) :
    base.agrees parts (d.bootResult r) ↔ base.agrees parts d := by
  simp at hps
  simp [Device.bootResult, hps]

@[simp] theorem Device.agrees_bootIdent (base : Device) (d : Device) (hps : [.boot] ⊆ parts) : base.agrees parts
    (bootIdent d) ↔ base.agrees parts d := by
  simp at hps
  simp [bootIdent, hps]

@[simp] theorem Device.agrees_bootFuseLoad (base : Device) (d : Device) (hps : [.boot, .view] ⊆ parts) : base.agrees
    parts (bootFuseLoad d) ↔ base.agrees parts d := by
  simp at hps
  unfold bootFuseLoad
  split <;> simp [hps]

/-- The finds of a sweep change the defect view and the sequencer, whatever their number (R103). -/
@[simp] theorem Device.agrees_sweepFinds (base : Device) (ws : List Word) (d : Device) (hps : [.boot, .view] ⊆ parts) :
    base.agrees parts (sweepFinds ws d) ↔ base.agrees parts d := by
  induction ws generalizing d with
  | nil =>
    simp at hps
    simp [sweepFinds, hps]
  | cons w ws ih =>
    simp at hps
    simp only [sweepFinds]
    split
    · exact ih d
    · split
      · simp [hps]
      · split <;> simp [hps, ih]

@[simp] theorem Device.agrees_bootClocks (base : Device) (o : ClockOutcome) (d : Device) (hps : [.boot, .pwr] ⊆
    parts) : base.agrees parts (bootClocks o d) ↔ base.agrees parts d := by
  simp at hps
  unfold bootClocks
  split <;> simp [hps]

@[simp] theorem Device.agrees_trainClose (base : Device) (d : Device) (hps : [.boot] ⊆ parts) : base.agrees parts
    (trainClose d) ↔ base.agrees parts d := by
  simp at hps
  simp [trainClose, hps]

@[simp] theorem Device.agrees_bootTrain (base : Device) (d : Device) (hps : [.boot] ⊆ parts) : base.agrees parts
    (bootTrain d) ↔ base.agrees parts d := by
  simp at hps
  simp [bootTrain, hps]

@[simp] theorem Device.agrees_bootFwLoad (base : Device) (d : Device) (m : Store) (hps : [.boot] ⊆ parts) :
    base.agrees parts (bootFwLoad d m).1 ↔ base.agrees parts d := by
  simp at hps
  simp only [bootFwLoad]
  split
  · simp [hps]
  · split
    · simp [hps]
    · split <;> simp [hps]

@[simp] theorem Store.agrees_bootFwLoad (base : Store) (d : Device) (m : Store) (hps : [.lp] ⊆ parts) : base.agrees
    parts (bootFwLoad d m).2 ↔ base.agrees parts m := by
  simp at hps
  simp only [bootFwLoad]
  split
  · simp
  · split
    · simp
    · split <;> simp [hps]

@[simp] theorem Device.agrees_bootFwVerify (base : Device) (d : Device) (m : Store) (hps : [.boot, .sec] ⊆ parts) :
    base.agrees parts (bootFwVerify d m) ↔ base.agrees parts d := by
  simp at hps
  simp only [bootFwVerify]
  split <;> simp [hps]

@[simp] theorem Device.agrees_bootFwStart (base : Device) (reported : BitVec 8) (d : Device) (hps : [.boot] ⊆ parts)
    : base.agrees parts (bootFwStart reported d) ↔ base.agrees parts d := by
  simp at hps
  simp [bootFwStart, hps]

@[simp] theorem Device.agrees_katMark (base : Device) (d : Device) (phys : Nat) (hps : [.boot, .view] ⊆ parts) :
    base.agrees parts (katMark d phys) ↔ base.agrees parts d := by
  simp at hps
  simp [katMark, hps]

@[simp] theorem Device.agrees_bootKat (base : Device) (engines : List (Nat × Nat)) (units : List Nat) (d : Device)
    (hps : [.boot, .view] ⊆ parts) : base.agrees parts (bootKat engines units d) ↔ base.agrees parts d := by
  simp at hps
  simp [bootKat, hps]

@[simp] theorem Device.agrees_bootReady (base : Device) (d : Device) (hps : [.boot, .sec] ⊆ parts) : base.agrees
    parts (bootReady d) ↔ base.agrees parts d := by
  simp at hps
  simp [bootReady, hps]

@[simp] theorem Device.agrees_bootStep (base : Device) (code : Nat) (i : BootInput) (d : Device) (m : Store) (hps :
    [.boot, .view, .evt, .pwr, .sec] ⊆ parts) : base.agrees parts (bootStep code i d m).1 ↔ base.agrees parts d := by
  simp at hps
  unfold bootStep
  split
  · simp [hps]
  · split <;> simp [hps]

@[simp] theorem Store.agrees_bootStep (base : Store) (code : Nat) (i : BootInput) (d : Device) (m : Store) (hps :
    [.lp] ⊆ parts) : base.agrees parts (bootStep code i d m).2 ↔ base.agrees parts m := by
  simp at hps
  unfold bootStep
  repeat' split
  all_goals simp [hps]

@[simp] theorem Device.agrees_trainItem (base : Device) (item status density : Nat) (d : Device) (m : Store) (hps :
    [.boot, .view, .memsys] ⊆ parts) : base.agrees parts (trainItem item status density d m).1 ↔ base.agrees parts d
    := by
  simp at hps
  simp [trainItem, hps]

@[simp] theorem Store.agrees_trainItem (base : Store) (item status density : Nat) (d : Device) (m : Store) (hps :
    [.lp] ⊆ parts) : base.agrees parts (trainItem item status density d m).2 ↔ base.agrees parts m := by
  simp at hps
  simp [trainItem, hps]

@[simp] theorem Device.agrees_bootFail (base : Device) (d : Device) (code detail : Nat) (ext : Word) (hps : [.boot,
    .evt] ⊆ parts) : base.agrees parts (d.bootFail code detail ext) ↔ base.agrees parts d := by
  simp at hps
  simp [Device.bootFail, hps]

@[simp] theorem Device.agrees_fwWindow (base : Device) (offset : Nat) (words : List Word) (d : Device) (m : Store)
    (hps : [.boot, .evt] ⊆ parts) : base.agrees parts (fwWindow offset words d m).1 ↔ base.agrees parts d := by
  simp at hps
  simp only [fwWindow]
  repeat' split
  all_goals simp [hps]

@[simp] theorem Store.agrees_fwWindow (base : Store) (offset : Nat) (words : List Word) (d : Device) (m : Store)
    (hps : [.lp] ⊆ parts) : base.agrees parts (fwWindow offset words d m).2 ↔ base.agrees parts m := by
  simp at hps
  simp only [fwWindow]
  repeat' split
  all_goals simp [hps]

@[simp] theorem Device.agrees_bootReset (base : Device) (key : Word) (d : Device) (m : Store) (hps :
    MachinePart.butFuse ⊆ parts) : base.agrees parts (bootReset key d m).1 ↔ base.agrees parts d := by
  unfold bootReset
  split
  · exact Device.agrees_packageReset base d hps
  · simp [MachinePart.butFuse] at hps
    simp [hps]

@[simp] theorem Store.agrees_bootReset (base : Store) (key : Word) (d : Device) (m : Store) (hps : [.lp, .sram] ⊆
    parts) : base.agrees parts (bootReset key d m).2 ↔ base.agrees parts m := by
  simp at hps
  simp [bootReset, hps]

/-! ## Operands -/

/-- A command that takes a handle keeps what its work keeps, the mailbox service apart (R153). -/
@[simp] theorem Device.agrees_accept (base : Device) (r : Request) (ch : Nat) (d : Device) (k : Nat → Device → Device)
    (hps : [.mbx] ⊆ parts) (hk : ∀ h (e : Device), e.agrees parts (k h e)) :
    base.agrees parts (accept r ch d k).1 ↔ base.agrees parts d := by
  simp at hps
  unfold accept
  split
  · rfl
  · exact ((hk _ _).iff base).trans (by simp [hps])

@[simp] theorem Device.agrees_setChan (base : Device) (d : Device) (ch : Nat) (c : Channel) (hps : [.mbx] ⊆ parts) :
    base.agrees parts (d.setChan ch c) ↔ base.agrees parts d := by
  simp at hps
  simp [Device.setChan, hps]

@[simp] theorem Device.agrees_answer (base : Device) (d : Device) (ch : Nat) (r : Request) (a : Reply) (hps : [.evt,
    .mbx, .sec] ⊆ parts) : base.agrees parts (d.answer ch r a) ↔ base.agrees parts d := by
  simp at hps
  simp [Device.answer, hps]

/-! ## MemOps -/

theorem Device.agrees_of_allocHost {d e : Device} {placement target n id : Nat}
    (he : d.allocHost placement target n = some (id, e)) (base : Device) (hps : [.memsys] ⊆ parts) :
    base.agrees parts e ↔ base.agrees parts d := by
  simp at hps
  unfold Device.allocHost at he
  split at he
  · cases he
  · split at he <;> cases he
    simp [hps]

theorem Device.agrees_of_allocFw {d e : Device} {placement target n id : Nat}
    (he : d.allocFw placement target n = some (id, e)) (base : Device) (hps : [.memsys] ⊆ parts) :
    base.agrees parts e ↔ base.agrees parts d := by
  simp at hps
  unfold Device.allocFw at he
  split at he <;> cases he
  simp [hps]

@[simp] theorem Device.agrees_freeBuf (base : Device) (d : Device) (id : Nat) (hps : [.memsys] ⊆ parts) :
    base.agrees parts (d.freeBuf id) ↔ base.agrees parts d := by
  simp at hps
  simp [Device.freeBuf, hps]

@[simp] theorem Store.agrees_bufWrite (base : Store) (m : Store) (b : Buffer) (o : Nat) (bs : List Byte) (hps :
    [.lp] ⊆ parts) : base.agrees parts (m.bufWrite b o bs) ↔ base.agrees parts m := by
  simp at hps
  simp [Store.bufWrite, hps]

@[simp] theorem Device.agrees_logAccess (base : Device) (d : Device) (source : Nat) (e : AccessError) (hps : [.evt,
    .diag, .memsys] ⊆ parts) : base.agrees parts (d.logAccess source e) ↔ base.agrees parts d := by
  simp at hps
  unfold Device.logAccess
  split <;> simp [hps]

theorem Device.agrees_of_bufStore {d : Device} {m : Store} {id o : Nat} {bs : List Byte} {x : Device × Store}
    (hx : d.bufStore m id o bs = .ok x) (base : Device) (hps : [.memsys] ⊆ parts) :
    base.agrees parts x.1 ↔ base.agrees parts d := by
  simp at hps
  unfold Device.bufStore at hx
  split at hx
  · cases hx
  · split at hx <;> cases hx
    simp [hps]

theorem Store.agrees_of_bufStore {d : Device} {m : Store} {id o : Nat} {bs : List Byte} {x : Device × Store}
    (hx : d.bufStore m id o bs = .ok x) (base : Store) (hps : [.lp] ⊆ parts) :
    base.agrees parts x.2 ↔ base.agrees parts m := by
  simp at hps
  unfold Device.bufStore at hx
  split at hx
  · cases hx
  · split at hx <;> cases hx
    simp [hps]

@[simp] theorem Device.agrees_fwWrite (base : Device) (id o : Nat) (bs : List Byte) (d : Device) (m : Store) (hps :
    [.memsys] ⊆ parts) : base.agrees parts (fwWrite id o bs d m).1 ↔ base.agrees parts d := by
  simp at hps
  unfold fwWrite
  split
  next r hr => exact Device.agrees_of_bufStore hr base (by simp [hps])
  · rfl

@[simp] theorem Store.agrees_fwWrite (base : Store) (id o : Nat) (bs : List Byte) (d : Device) (m : Store) (hps :
    [.lp] ⊆ parts) : base.agrees parts (fwWrite id o bs d m).2 ↔ base.agrees parts m := by
  simp at hps
  unfold fwWrite
  split
  next r hr => exact Store.agrees_of_bufStore hr base (by simp [hps])
  · rfl

@[simp] theorem Store.agrees_sramWrite (base : Store) (m : Store) (a : Nat) (bs : List Byte) (hps : [.sram] ⊆ parts)
    : base.agrees parts (m.sramWrite a bs) ↔ base.agrees parts m := by
  simp at hps
  simp [Store.sramWrite, hps]

@[simp] theorem Store.agrees_loseCluster (base : Store) (m : Store) (c : Nat) (hps : [.sram] ⊆ parts) : base.agrees
    parts (m.loseCluster c) ↔ base.agrees parts m := by
  simp at hps
  simp [Store.loseCluster, hps]

@[simp] theorem Store.agrees_zeroChannel (base : Store) (m : Store) (c : Nat) (hps : [.lp] ⊆ parts) : base.agrees
    parts (m.zeroChannel c) ↔ base.agrees parts m := by
  simp at hps
  simp [Store.zeroChannel, hps]

@[simp] theorem Device.agrees_countPayload (base : Device) (d : Device) (c : Nat) (write : Bool) (n : Nat) (hps :
    [.diag, .memsys] ⊆ parts) : base.agrees parts (d.countPayload c write n) ↔ base.agrees parts d := by
  simp at hps
  simp [Device.countPayload, hps]

@[simp] theorem Device.agrees_evict (base : Device) (d : Device) (c : Nat) (w : Way) (hps : [.diag, .memsys] ⊆
    parts) : base.agrees parts (d.evict c w) ↔ base.agrees parts d := by
  simp at hps
  simp [Device.evict, hps]

@[simp] theorem Device.agrees_mscAccess (base : Device) (d : Device) (pa n policy : Nat) (write : Bool) (hps :
    [.diag, .memsys] ⊆ parts) : base.agrees parts (d.mscAccess pa n policy write) ↔ base.agrees parts d := by
  simp at hps
  simp only [Device.mscAccess]
  split <;> simp [hps]

@[simp] theorem Device.agrees_countCorrected (base : Device) (d : Device) (c : Nat) (hps : [.diag, .memsys] ⊆ parts)
    : base.agrees parts (d.countCorrected c) ↔ base.agrees parts d := by
  simp at hps
  simp [Device.countCorrected, hps]

/-! ## PrsOps -/

@[simp] theorem Device.agrees_setIndex (base : Device) (d : Device) (i : Nat) (x : PrsIndex) (hps : [.prs] ⊆ parts)
    : base.agrees parts (d.setIndex i x) ↔ base.agrees parts d := by
  simp at hps
  simp [Device.setIndex, hps]

@[simp] theorem Device.agrees_prsDiag (base : Device) (d : Device) (hps : [.diag] ⊆ parts) : base.agrees parts
    d.prsDiag ↔ base.agrees parts d := by
  simp at hps
  unfold Device.prsDiag
  split <;> simp [hps]

@[simp] theorem Device.agrees_sendRound (base : Device) (d : Device) (r : PrsRun) (hps : [.prs] ⊆ parts) :
    base.agrees parts (d.sendRound r) ↔ base.agrees parts d := by
  simp at hps
  simp [Device.sendRound, hps]

@[simp] theorem Device.agrees_setRun (base : Device) (d : Device) (r : PrsRun) (hps : [.prs] ⊆ parts) : base.agrees
    parts (d.setRun r) ↔ base.agrees parts d := by
  simp at hps
  simp [Device.setRun, hps]

@[simp] theorem Device.agrees_dropRuns (base : Device) (d : Device) (job : Nat) (hps : [.prs] ⊆ parts) : base.agrees
    parts (d.dropRuns job) ↔ base.agrees parts d := by
  simp at hps
  simp [Device.dropRuns, hps]

@[simp] theorem Device.agrees_unpinPrs (base : Device) (d : Device) (job : Nat) (hps : [.prs] ⊆ parts) : base.agrees
    parts (d.unpinPrs job) ↔ base.agrees parts d := by
  simp at hps
  simp [Device.unpinPrs, hps]

/-! ## MapOps -/

@[simp] theorem Device.agrees_mapDiag (base : Device) (d : Device) (hps : [.diag] ⊆ parts) : base.agrees parts
    d.mapDiag ↔ base.agrees parts d := by
  simp at hps
  simp [Device.mapDiag, hps]

@[simp] theorem Device.agrees_mapStale (base : Device) (d : Device) (id : Nat) (hps : [.diag] ⊆ parts) : base.agrees
    parts (d.mapStale id) ↔ base.agrees parts d := by
  simp at hps
  simp [Device.mapStale, hps]

theorem Device.agrees_of_mapCreate {d e : Device} {id : Nat} {b : List Byte} (he : d.mapCreate id b = some e)
    (base : Device) (hps : [.map] ⊆ parts) : base.agrees parts e ↔ base.agrees parts d := by
  simp at hps
  simp only [Device.mapCreate] at he
  split at he
  · cases he
  · split at he <;> cases he
    simp [hps]

@[simp] theorem Device.agrees_countOverflow (base : Device) (d : Device) (id : Nat) (hps : [.diag] ⊆ parts) :
    base.agrees parts (d.countOverflow id) ↔ base.agrees parts d := by
  simp at hps
  simp [Device.countOverflow, hps]

@[simp] theorem Device.agrees_mapUpdate (base : Device) (d : Device) (id : Nat) (f : List Byte → List Byte) (hps :
    [.diag, .map] ⊆ parts) : base.agrees parts (d.mapUpdate id f) ↔ base.agrees parts d := by
  simp at hps
  simp only [Device.mapUpdate]
  split <;> simp [hps]

@[simp] theorem Device.agrees_mapDelete (base : Device) (d : Device) (id : Nat) (hps : [.map] ⊆ parts) : base.agrees
    parts (d.mapDelete id) ↔ base.agrees parts d := by
  simp at hps
  simp [Device.mapDelete, hps]

@[simp] theorem Device.agrees_mapJudge (base : Device) (d : Device) (hps : [.evt, .diag, .map] ⊆ parts) :
    base.agrees parts d.mapJudge ↔ base.agrees parts d := by
  simp at hps
  simp [Device.mapJudge, hps]

@[simp] theorem Device.agrees_mapCommit (base : Device) (d : Device) (hps : [.evt, .diag, .map] ⊆ parts) :
    base.agrees parts d.mapCommit ↔ base.agrees parts d := by
  simp at hps
  simp [Device.mapCommit, hps]

@[simp] theorem Device.agrees_issueId (base d : Device) (hps : [.map] ⊆ parts) :
    base.agrees parts d.issueId.2 ↔ base.agrees parts d := by
  simp at hps
  simp [Device.issueId, hps]

@[simp] theorem Device.agrees_closeOpen (base : Device) (d : Device) (hps : [.diag, .loc, .map] ⊆ parts) :
    base.agrees parts d.closeOpen ↔ base.agrees parts d := by
  simp at hps
  unfold Device.closeOpen
  split <;> simp [hps]

@[simp] theorem Device.agrees_openSession (base : Device) (d : Device) (parent : Option Nat) (dts : Nat) (hps :
    [.diag, .loc, .map] ⊆ parts) : base.agrees parts (d.openSession parent dts) ↔ base.agrees parts d := by
  simp at hps
  simp only [Device.openSession]
  split
  · simp [hps]
  next e he => simp [hps, Device.agrees_of_mapCreate he]

@[simp] theorem Device.agrees_unindex (base : Device) (d : Device) (kfs : List (List Byte)) (hps : [.diag, .prs] ⊆
    parts) : base.agrees parts (d.unindex kfs) ↔ base.agrees parts d := by
  simp at hps
  unfold Device.unindex
  split <;> simp [hps]

@[simp] theorem Device.agrees_deleteSession (base : Device) (d : Device) (id : Nat) (hps : [.diag, .map, .prs] ⊆
    parts) : base.agrees parts (d.deleteSession id) ↔ base.agrees parts d := by
  simp at hps
  simp only [Device.deleteSession]
  repeat' split
  all_goals simp [hps]

@[simp] theorem Device.agrees_tileDrop (base : Device) (d : Device) (hps : [.map] ⊆ parts) : base.agrees parts
    d.tileDrop ↔ base.agrees parts d := by
  simp at hps
  simp [Device.tileDrop, hps]

@[simp] theorem Device.agrees_tileWrite (base : Device) (d : Device) (root session cell : Nat) (dts : Nat) (z : Int)
    (i j : Int) (c : List Byte) (hps : [.diag, .map] ⊆ parts) : base.agrees parts (d.tileWrite root session cell dts
    z i j c) ↔ base.agrees parts d := by
  simp at hps
  simp only [Device.tileWrite]
  split
  · rfl
  · split
    · simp [hps]
    · split
      · simp [hps]
      · split
        · simp [hps]
        next e he =>
          split at he
          · cases he
            simp [hps]
          · simp [hps, Device.agrees_of_mapCreate he]

@[simp] theorem Device.agrees_pinMap (base : Device) (d : Device) (job : Nat) (hps : [.map] ⊆ parts) : base.agrees
    parts (d.pinMap job) ↔ base.agrees parts d := by
  simp at hps
  simp [Device.pinMap, hps]

@[simp] theorem Device.agrees_unpinMap (base : Device) (d : Device) (job : Nat) (hps : [.map] ⊆ parts) : base.agrees
    parts (d.unpinMap job) ↔ base.agrees parts d := by
  simp at hps
  simp [Device.unpinMap, hps]

@[simp] theorem Device.agrees_mapReclaim (base : Device) (d : Device) (hps : [.evt, .diag, .map] ⊆ parts) :
    base.agrees parts d.mapReclaim ↔ base.agrees parts d := by
  simp at hps
  simp [Device.mapReclaim, hps]

theorem Device.agrees_of_mapPools {d e : Device} {mib : Nat} (he : d.mapPools mib = some e) (base : Device)
    (hps : [.memsys, .map] ⊆ parts) : base.agrees parts e ↔ base.agrees parts d := by
  simp at hps
  refine ((Device.agrees_of_foldl_bind (g := id) (fun k b c hc => ?_) he).iff base).trans (by simp [hps])
  obtain ⟨x, hx, rfl⟩ := Option.map_eq_some_iff.mp hc
  simp [hps, Device.agrees_of_allocFw hx]

@[simp] theorem Device.agrees_freePools (base : Device) (d : Device) (hps : [.memsys, .map] ⊆ parts) : base.agrees
    parts d.freePools ↔ base.agrees parts d := by
  simp at hps
  simp [Device.freePools, hps]

@[simp] theorem Device.agrees_mapDieDown (base : Device) (d : Device) (die : Nat) (hps : [.evt, .diag, .map, .prs] ⊆
    parts) : base.agrees parts (d.mapDieDown die) ↔ base.agrees parts d := by
  simp at hps
  simp [Device.mapDieDown, hps]

/-! ## OutOps -/

@[simp] theorem Device.agrees_setTx (base : Device) (d : Device) (p : Nat) (x : TxPort) (hps : [.out] ⊆ parts) :
    base.agrees parts (d.setTx p x) ↔ base.agrees parts d := by
  simp at hps
  simp [Device.setTx, hps]

@[simp] theorem Device.agrees_setRoute (base : Device) (d : Device) (dt p : Nat) (r : Route) (hps : [.out] ⊆ parts)
    : base.agrees parts (d.setRoute dt p r) ↔ base.agrees parts d := by
  simp at hps
  simp [Device.setRoute, hps]

@[simp] theorem Device.agrees_dropMsg (base : Device) (d : Device) (p : Nat) (m : OutMsg) (hps : [.evt, .mbx, .out]
    ⊆ parts) : base.agrees parts (d.dropMsg p m) ↔ base.agrees parts d := by
  simp at hps
  simp [Device.dropMsg, hps]

@[simp] theorem Device.agrees_txDown (base : Device) (d : Device) (p : Nat) (cut : Bool) (hps : [.evt, .mbx, .out] ⊆
    parts) : base.agrees parts (d.txDown p cut) ↔ base.agrees parts d := by
  simp at hps
  simp only [Device.txDown]
  split <;> simp [hps]

@[simp] theorem Device.agrees_enqueueMsg (base : Device) (d : Device) (p : Nat) (m : OutMsg) (hps : [.evt, .mbx,
    .out] ⊆ parts) : base.agrees parts (d.enqueueMsg p m) ↔ base.agrees parts d := by
  simp at hps
  simp only [Device.enqueueMsg]
  repeat' split
  all_goals simp [hps]

@[simp] theorem Device.agrees_formOn (base : Device) (d : Device) (p dt : Nat) (dts : BitVec 128) (body : List Byte)
    (segs : List (Nat × Nat × Nat)) (hps : [.evt, .mbx, .out] ⊆ parts) : base.agrees parts (d.formOn p dt dts body
    segs) ↔ base.agrees parts d := by
  simp at hps
  simp [Device.formOn, hps]

@[simp] theorem Device.agrees_form (base : Device) (d : Device) (dt : Nat) (dts : BitVec 128) (body : List Byte)
    (segs : List (Nat × Nat × Nat)) (hps : [.evt, .mbx, .out] ⊆ parts) : base.agrees parts (d.form dt dts body segs)
    ↔ base.agrees parts d := by
  simp at hps
  simp [Device.form, hps]

@[simp] theorem Device.agrees_takeSlot (base : Device) (d : Device) (buf : Nat) (hps : [.out] ⊆ parts) : base.agrees
    parts (d.takeSlot buf) ↔ base.agrees parts d := by
  simp at hps
  simp [Device.takeSlot, hps]

end Sys2Proof.Machine
end

section
/-! SUPPORT. Frames of jobs. -/

namespace Sys2Proof.Machine

variable {parts : List MachinePart}

/-! ## JobOps -/

theorem Device.agrees_of_admitJob {d e : Device} {j : Job} {id : Nat} (he : d.admitJob j = some (id, e))
    (base : Device) (hps : [.jobs] ⊆ parts) : base.agrees parts e ↔ base.agrees parts d := by
  simp at hps
  unfold Device.admitJob at he
  split at he <;> cases he
  simp [hps]

@[simp] theorem Device.agrees_setJob (base : Device) (d : Device) (id : Nat) (j : Job) (hps : [.jobs] ⊆ parts) :
    base.agrees parts (d.setJob id j) ↔ base.agrees parts d := by
  simp at hps
  simp [Device.setJob, hps]

@[simp] theorem Device.agrees_updCluster (base : Device) (d : Device) (c : Nat) (f : Cluster → Cluster) (hps :
    [.clusters] ⊆ parts) : base.agrees parts (d.updCluster c f) ↔ base.agrees parts d := by
  simp at hps
  simp [Device.updCluster, hps]

@[simp] theorem Device.agrees_updUnit (base : Device) (d : Device) (p : Nat) (f : CUnit → CUnit) (hps : [.units] ⊆
    parts) : base.agrees parts (d.updUnit p f) ↔ base.agrees parts d := by
  simp at hps
  simp [Device.updUnit, hps]

@[simp] theorem Device.agrees_dropTags (base : Device) (d : Device) (p : Nat) (hps : [.units, .clusters] ⊆ parts) :
    base.agrees parts (d.dropTags p) ↔ base.agrees parts d := by
  simp at hps
  simp [Device.dropTags, hps]

@[simp] theorem Device.agrees_assignPart (base : Device) (d : Device) (job : Nat) (p : Part) (hps : [.units,
    .clusters] ⊆ parts) : base.agrees parts (d.assignPart job p) ↔ base.agrees parts d := by
  simp at hps
  unfold Device.assignPart
  split <;> simp [hps]

@[simp] theorem Device.agrees_releasePart (base : Device) (d : Device) (p : Part) (hps : [.units, .clusters] ⊆
    parts) : base.agrees parts (d.releasePart p) ↔ base.agrees parts d := by
  simp at hps
  unfold Device.releasePart
  split <;> simp [hps]

@[simp] theorem Device.agrees_reserve (base : Device) (d : Device) (j : Job) (ps : List Part) (hps : [.jobs] ⊆
    parts) : base.agrees parts (d.reserve j ps) ↔ base.agrees parts d := by
  simp at hps
  simp only [Device.reserve]
  split <;> simp [hps]

/-- A copy of snapshots writes buffers only, whatever the grants (R721). -/
@[simp] theorem Device.agrees_snapCopy (base : Device) (back : Bool) (gs : List Grant) (x : Device × Store)
    (hps : [.memsys] ⊆ parts) : base.agrees parts (snapCopy back gs x).1 ↔ base.agrees parts x.1 := by
  induction gs generalizing x with
  | nil => rfl
  | cons g gs ih =>
    simp at hps
    simp only [snapCopy]
    split
    · split
      · rw [ih]
        simp [hps]
      · rw [ih]
    · rw [ih]

@[simp] theorem Store.agrees_snapCopy (base : Store) (back : Bool) (gs : List Grant) (x : Device × Store)
    (hps : [.lp] ⊆ parts) : base.agrees parts (snapCopy back gs x).2 ↔ base.agrees parts x.2 := by
  induction gs generalizing x with
  | nil => rfl
  | cons g gs ih =>
    simp at hps
    simp only [snapCopy]
    split
    · split
      · rw [ih]
        simp [hps]
      · rw [ih]
    · rw [ih]

theorem Device.agrees_of_allocSnaps {gs hs : List Grant} {d e : Device} (he : allocSnaps gs d = some (hs, e))
    (base : Device) (hps : [.memsys] ⊆ parts) : base.agrees parts e ↔ base.agrees parts d := by
  induction gs generalizing d hs with
  | nil =>
    cases he
    rfl
  | cons g gs ih =>
    simp only [allocSnaps] at he
    split at he
    · split at he
      · cases he
      · split at he
        · cases he
        next hf =>
          obtain ⟨y, hy, hz⟩ := Option.map_eq_some_iff.mp he
          cases hz
          exact (ih hy).trans (Device.agrees_of_allocFw hf base hps)
    · obtain ⟨y, hy, hz⟩ := Option.map_eq_some_iff.mp he
      cases hz
      exact ih hy

@[simp] theorem Device.agrees_dropOps (base : Device) (d : Device) (id : Nat) (hps : [.vis, .slv, .prs] ⊆ parts) :
    base.agrees parts (d.dropOps id) ↔ base.agrees parts d := by
  simp at hps
  simp [Device.dropOps, hps]

@[simp] theorem Device.agrees_freeProfile (base : Device) (d : Device) (hps : [.memsys, .vis, .grid] ⊆ parts) :
    base.agrees parts d.freeProfile ↔ base.agrees parts d := by
  simp at hps
  refine (Device.agrees_mk (d := List.foldl _ d _) (by simp [hps])).trans (Device.agrees_foldl (fun e b => ?_) _ base d)
  simp [hps]

@[simp] theorem Device.agrees_unloadDone (base : Device) (d : Device) (hps : [.evt, .mbx, .diag, .jobs, .memsys,
    .vis, .grid, .loc, .map] ⊆ parts) : base.agrees parts d.unloadDone ↔ base.agrees parts d := by
  simp at hps
  simp [Device.unloadDone, hps]

@[simp] theorem Device.agrees_endJob (base : Device) (d : Device) (id status : Nat) (result : List Byte) (hps :
    [.evt, .mbx, .diag, .jobs, .units, .clusters, .memsys, .vis, .grid, .slv, .loc, .map, .prs] ⊆ parts) :
    base.agrees parts (d.endJob id status result) ↔ base.agrees parts d := by
  simp at hps
  unfold Device.endJob
  repeat' split
  all_goals simp [hps]

@[simp] theorem Device.agrees_stopUnits (base : Device) (d : Device) (j : Job) (hps : [.units, .clusters] ⊆ parts) :
    base.agrees parts (d.stopUnits j) ↔ base.agrees parts d := by
  simp at hps
  refine Device.agrees_foldl (fun e p => (Device.agrees_foldl (fun e u => ?_) _ e e).mpr (Device.agrees_refl _ e)) _ base d
  simp [hps]

@[simp] theorem Device.agrees_dropPackets (base : Device) (d : Device) (id : Nat) (hps : [.clusters] ⊆ parts) :
    base.agrees parts (d.dropPackets id) ↔ base.agrees parts d := by
  simp at hps
  simp [Device.dropPackets, hps]

@[simp] theorem Device.agrees_jobFault (base : Device) (d : Device) (id cause source die index : Nat) (addr : Option
    Nat) (detail : Nat) (hps : [.evt, .diag, .jobs, .units, .clusters, .vis, .slv, .prs] ⊆ parts) : base.agrees
    parts (d.jobFault id cause source die index addr detail) ↔ base.agrees parts d := by
  simp at hps
  unfold Device.jobFault
  repeat' split
  all_goals simp [hps]

@[simp] theorem Device.agrees_reload (base : Device) (d : Device) (id : Nat) (j : Job) (ps : List Part)
    (hps : [.evt, .jobs, .units, .clusters] ⊆ parts) :
    base.agrees parts (d.reload id j ps) ↔ base.agrees parts d := by
  simp at hps
  simp [Device.reload, hps]

@[simp] theorem Device.agrees_failJob (base : Device) (d : Device) (id status : Nat) (j : Job) (hps : [.evt, .mbx,
    .diag, .jobs, .units, .clusters, .memsys, .vis, .grid, .slv, .loc, .map, .prs] ⊆ parts) : base.agrees parts
    (d.failJob id status j) ↔ base.agrees parts d := by
  simp at hps
  simp [Device.failJob, hps]

@[simp] theorem Device.agrees_restartJob (base : Device) (id : Nat) (d : Device) (m : Store) (hps : [.evt, .mbx,
    .diag, .jobs, .units, .clusters, .memsys, .vis, .grid, .slv, .loc, .map, .prs] ⊆ parts) : base.agrees parts
    (restartJob id d m).1 ↔ base.agrees parts d := by
  simp at hps
  simp only [restartJob]
  repeat' split
  all_goals simp [hps]

@[simp] theorem Store.agrees_restartJob (base : Store) (id : Nat) (d : Device) (m : Store) (hps : [.lp] ⊆ parts) :
    base.agrees parts (restartJob id d m).2 ↔ base.agrees parts m := by
  simp at hps
  simp only [restartJob]
  repeat' split
  all_goals simp [hps]

@[simp] theorem Device.agrees_cancelJob (base : Device) (id : Nat) (d : Device) (m : Store) (hps : [.evt, .mbx,
    .diag, .jobs, .units, .clusters, .memsys, .vis, .grid, .slv, .loc, .map, .prs] ⊆ parts) : base.agrees parts
    (cancelJob id d m).1 ↔ base.agrees parts d := by
  simp at hps
  simp only [cancelJob]
  split
  · rfl
  · split <;> simp [hps]

@[simp] theorem Store.agrees_cancelJob (base : Store) (id : Nat) (d : Device) (m : Store) (hps : [.lp] ⊆ parts) :
    base.agrees parts (cancelJob id d m).2 ↔ base.agrees parts m := by
  simp at hps
  simp only [cancelJob]
  split
  · rfl
  · split <;> simp [hps]

@[simp] theorem Device.agrees_placeJob (base : Device) (id : Nat) (d : Device) (m : Store) (hps : [.evt, .mbx,
    .diag, .jobs, .units, .clusters, .memsys, .vis, .grid, .slv, .loc, .map, .prs] ⊆ parts) : base.agrees parts
    (placeJob id d m).1 ↔ base.agrees parts d := by
  simp at hps
  simp only [placeJob]
  repeat' split
  all_goals simp [hps]

@[simp] theorem Store.agrees_placeJob (base : Store) (id : Nat) (d : Device) (m : Store) (hps : [.lp] ⊆ parts) :
    base.agrees parts (placeJob id d m).2 ↔ base.agrees parts m := by
  simp at hps
  simp only [placeJob]
  repeat' split
  all_goals simp [hps]

@[simp] theorem Device.agrees_admitCmd (base : Device) (r : Request) (ch : Nat) (d : Device) (j : Job) (hps : [.mbx,
    .jobs] ⊆ parts) : base.agrees parts (admitCmd r ch d j).1 ↔ base.agrees parts d := by
  simp at hps
  unfold admitCmd
  split
  · rfl
  · split
    · rfl
    next he => exact (Device.agrees_of_admitJob he base (by simp [hps])).trans (by simp [hps])

/-! ## LocOps -/

@[simp] theorem Device.agrees_locTo (base : Device) (d : Device) (s : LocState) (hps : [.evt, .loc] ⊆ parts) :
    base.agrees parts (d.locTo s) ↔ base.agrees parts d := by
  simp at hps
  simp [Device.locTo, hps]

@[simp] theorem Device.agrees_locClear (base : Device) (d : Device) (hps : [.slv, .loc] ⊆ parts) : base.agrees parts
    d.locClear ↔ base.agrees parts d := by
  simp at hps
  simp [Device.locClear, hps]

@[simp] theorem Device.agrees_locCold (base : Device) (d : Device) (hps : [.evt, .diag, .slv, .loc, .map] ⊆ parts) :
    base.agrees parts d.locCold ↔ base.agrees parts d := by
  simp at hps
  simp [Device.locCold, hps]

@[simp] theorem Device.agrees_locLost (base : Device) (d : Device) (hps : [.evt, .loc] ⊆ parts) : base.agrees parts
    d.locLost ↔ base.agrees parts d := by
  simp at hps
  simp [Device.locLost, hps]

@[simp] theorem Device.agrees_ppStart (base : Device) (d : Device) (hps : [.slv] ⊆ parts) : base.agrees parts
    d.ppStart ↔ base.agrees parts d := by
  simp at hps
  simp [Device.ppStart, hps]

@[simp] theorem Device.agrees_ppStep (base : Device) (d : Device) (size : Int) (hps : [.slv] ⊆ parts) : base.agrees
    parts (d.ppStep size) ↔ base.agrees parts d := by
  simp at hps
  simp [Device.ppStep, hps]

@[simp] theorem Device.agrees_imuSample (base : Device) (d : Device) (stream : Nat) (at_ : Nat) (g a : Vec3) (hps :
    [.slv, .loc] ⊆ parts) : base.agrees parts (d.imuSample stream at_ g a) ↔ base.agrees parts d := by
  simp at hps
  simp [Device.imuSample, hps]

/-! ## Settings -/

@[simp] theorem Store.agrees_devBody (base : Store) (f : Request → Device → Device × Reply) (r : Request) (d :
    Device) (m : Store) : base.agrees parts (devBody f r d m).1.2 ↔ base.agrees parts m := by
  simp [devBody]

/-! ## TimeOps -/

@[simp] theorem Device.agrees_timeEvent (base : Device) (d : Device) (hps : [.evt] ⊆ parts) : base.agrees parts
    d.timeEvent ↔ base.agrees parts d := by
  simp at hps
  simp [Device.timeEvent, hps]

@[simp] theorem Device.agrees_retime (base : Device) (d : Device) (raise : Bool) (f : TimeBase → TimeBase) (hps :
    [.evt, .time] ⊆ parts) : base.agrees parts (d.retime raise f) ↔ base.agrees parts d := by
  simp at hps
  simp [Device.retime, hps]

@[simp] theorem Device.agrees_updPtp (base : Device) (d : Device) (p : Nat) (f : PtpPort → PtpPort) (hps : [.tim] ⊆
    parts) : base.agrees parts (d.updPtp p f) ↔ base.agrees parts d := by
  simp at hps
  simp [Device.updPtp, hps]

@[simp] theorem Device.agrees_follow (base : Device) (d : Device) (raise : Bool) (s : Nat × Nat) (hps : [.evt,
    .time, .tim] ⊆ parts) : base.agrees parts (d.follow raise s) ↔ base.agrees parts d := by
  simp at hps
  simp [Device.follow, hps]

@[simp] theorem Device.agrees_select (base : Device) (d : Device) (config : Bool) (hps : [.evt, .time, .tim] ⊆
    parts) : base.agrees parts (d.select config) ↔ base.agrees parts d := by
  simp at hps
  unfold Device.select
  split <;> simp [hps]

@[simp] theorem Device.agrees_slew (base : Device) (d : Device) (hps : [.time, .free] ⊆ parts) : base.agrees parts
    d.slew ↔ base.agrees parts d := by
  simp at hps
  simp [Device.slew, hps]

@[simp] theorem Device.agrees_sample (base : Device) (d : Device) (off : Int) (hps : [.evt, .time, .free] ⊆ parts) :
    base.agrees parts (d.sample off) ↔ base.agrees parts d := by
  simp at hps
  simp only [Device.sample]
  split <;> simp [hps]

@[simp] theorem Device.agrees_stepTime (base : Device) (d : Device) (p : PendingStep) (hps : [.evt, .time, .tim] ⊆
    parts) : base.agrees parts (d.stepTime p) ↔ base.agrees parts d := by
  simp at hps
  simp [Device.stepTime, hps]

@[simp] theorem Device.agrees_setOut (base : Device) (d : Device) (o : Nat) (t : TimingOut) (hps : [.tim] ⊆ parts) :
    base.agrees parts (d.setOut o t) ↔ base.agrees parts d := by
  simp at hps
  simp [Device.setOut, hps]

theorem Device.agrees_of_nextEdge {d e : Device} {g : Nat} {due : Option Nat} (he : d.nextEdge g = some (e, due))
    (base : Device) (hps : [.diag, .time, .tim] ⊆ parts) : base.agrees parts e ↔ base.agrees parts d := by
  simp at hps
  simp only [Device.nextEdge] at he
  split at he
  · cases he
  · split at he
    · split at he <;> cases he <;> simp [hps]
    · split at he <;> cases he <;> simp [hps]
    · cases he
      simp [hps]

@[simp] theorem Device.agrees_drive (base : Device) (d : Device) (g e : Nat) (hps : [.tim] ⊆ parts) : base.agrees
    parts (d.drive g e) ↔ base.agrees parts d := by
  simp at hps
  refine Device.agrees_foldl (fun e o => ?_) _ base d
  dsimp only
  repeat' split
  all_goals simp [hps]

/-! ## IngestOps -/

@[simp] theorem Device.agrees_updStream (base : Device) (d : Device) (s : Nat) (f : Stream → Stream) (hps : [.ing] ⊆
    parts) : base.agrees parts (d.updStream s f) ↔ base.agrees parts d := by
  simp at hps
  simp [Device.updStream, hps]

@[simp] theorem Device.agrees_setCsi (base : Device) (d : Device) (p : Nat) (c : CsiPort) (hps : [.ing] ⊆ parts) :
    base.agrees parts (d.setCsi p c) ↔ base.agrees parts d := by
  simp at hps
  simp [Device.setCsi, hps]

@[simp] theorem Device.agrees_setPair (base : Device) (d : Device) (p : Nat) (x : Pair) (hps : [.ing] ⊆ parts) :
    base.agrees parts (d.setPair p x) ↔ base.agrees parts d := by
  simp at hps
  simp [Device.setPair, hps]

@[simp] theorem Device.agrees_updEth (base : Device) (d : Device) (p : Nat) (f : EthPort → EthPort) (hps : [.ing] ⊆
    parts) : base.agrees parts (d.updEth p f) ↔ base.agrees parts d := by
  simp at hps
  simp [Device.updEth, hps]

@[simp] theorem Device.agrees_setLidar (base : Device) (d : Device) (s : Nat) (l : Lidar) (hps : [.ing] ⊆ parts) :
    base.agrees parts (d.setLidar s l) ↔ base.agrees parts d := by
  simp at hps
  simp [Device.setLidar, hps]

@[simp] theorem Device.agrees_setImu (base : Device) (d : Device) (p : Nat) (x : ImuPort) (hps : [.ing] ⊆ parts) :
    base.agrees parts (d.setImu p x) ↔ base.agrees parts d := by
  simp at hps
  simp [Device.setImu, hps]

@[simp] theorem Device.agrees_setEnc (base : Device) (d : Device) (p : Nat) (x : Encoder) (hps : [.ing] ⊆ parts) :
    base.agrees parts (d.setEnc p x) ↔ base.agrees parts d := by
  simp at hps
  simp [Device.setEnc, hps]

@[simp] theorem Device.agrees_setCan (base : Device) (d : Device) (p : Nat) (x : CanCtrl) (hps : [.ing] ⊆ parts) :
    base.agrees parts (d.setCan p x) ↔ base.agrees parts d := by
  simp at hps
  simp [Device.setCan, hps]

@[simp] theorem Device.agrees_streamTo (base : Device) (d : Device) (s : Nat) (st : StreamState) (hps : [.evt, .ing]
    ⊆ parts) : base.agrees parts (d.streamTo s st) ↔ base.agrees parts d := by
  simp at hps
  simp [Device.streamTo, hps]

@[simp] theorem Device.agrees_judge (base : Device) (d : Device) (s : Nat) (usable : Bool) (hps : [.evt, .ing] ⊆
    parts) : base.agrees parts (d.judge s usable) ↔ base.agrees parts d := by
  simp at hps
  simp only [Device.judge]
  split <;> simp [hps]

@[simp] theorem Device.agrees_streamLog (base : Device) (d : Device) (s iface unit code detail : Nat) (hps : [.evt,
    .ing] ⊆ parts) : base.agrees parts (d.streamLog s iface unit code detail) ↔ base.agrees parts d := by
  simp at hps
  simp [Device.streamLog, hps]

theorem allocMany_zero (die size : Nat) (d : Device) : allocMany die size 0 d = some ([], d) := rfl

/-- One buffer more is the first taken, and the rest of what that left. `Device.allocFw` is held as a variable, so that
the kernel compares the two sides without evaluating it. -/
theorem allocMany_succ (die size k : Nat) (d : Device) :
    allocMany die size (k + 1) d = (d.allocFw 1 die ((size + pitchSize - 1) / pitchSize)).bind fun x =>
      (allocMany die size k x.2).map fun y => (x.1 :: y.1, y.2) := by
  obtain ⟨alloc, halloc⟩ : ∃ a, a = Device.allocFw := ⟨_, rfl⟩
  obtain ⟨many, hmany⟩ : ∃ f, f = allocMany := ⟨_, rfl⟩
  rw [← halloc, ← hmany]
  delta allocMany allocMany._f at hmany
  rw [← halloc] at hmany
  have h : many die size (k + 1) d = match alloc d 1 die ((size + pitchSize - 1) / pitchSize) with
      | none => none
      | some (id, d) => (many die size k d).map fun x => (id :: x.1, x.2) := by
    rw [hmany] <;> rfl
  rw [h]
  cases alloc d 1 die ((size + pitchSize - 1) / pitchSize) <;> rfl

theorem Device.agrees_of_allocMany {die size n : Nat} {d e : Device} {ids : List Nat}
    (he : allocMany die size n d = some (ids, e)) (base : Device) (hps : [.memsys] ⊆ parts) :
    base.agrees parts e ↔ base.agrees parts d := by
  induction n generalizing d ids with
  | zero =>
    cases he
    rfl
  | succ n ih =>
    rw [allocMany_succ] at he
    obtain ⟨⟨id, d'⟩, hf, he⟩ := Option.bind_eq_some_iff.mp he
    obtain ⟨y, hy, hz⟩ := Option.map_eq_some_iff.mp he
    cases hz
    exact (ih hy).trans (Device.agrees_of_allocFw hf base hps)

@[simp] theorem Device.agrees_freeStream (base : Device) (d : Device) (s : Nat) (hps : [.memsys, .ing] ⊆ parts) :
    base.agrees parts (d.freeStream s) ↔ base.agrees parts d := by
  simp at hps
  simp [Device.freeStream, hps]

theorem Device.agrees_of_startStream {d e : Device} {s : Nat} (he : d.startStream s = some e) (base : Device)
    (hps : [.memsys, .ing] ⊆ parts) : base.agrees parts e ↔ base.agrees parts d := by
  simp at hps
  simp only [Device.startStream] at he
  split at he
  · cases he
  next hm =>
    cases he
    simp [hps, Device.agrees_of_allocMany hm]

@[simp] theorem Device.agrees_endTracks (base : Device) (d : Device) (s : Nat) (hps : [.vis] ⊆ parts) : base.agrees
    parts (d.endTracks s) ↔ base.agrees parts d := by
  simp at hps
  unfold Device.endTracks
  split <;> simp [hps]

@[simp] theorem Device.agrees_stopStream (base : Device) (d : Device) (s : Nat) (hps : [.ing, .vis] ⊆ parts) :
    base.agrees parts (d.stopStream s) ↔ base.agrees parts d := by
  simp at hps
  simp [Device.stopStream, hps]

@[simp] theorem Device.agrees_ringWrite (base : Device) (s : Nat) (rec_ : List Byte) (dts : BitVec 128) (d : Device)
    (m : Store) (hps : [.memsys, .ing] ⊆ parts) : base.agrees parts (ringWrite s rec_ dts d m).1.1 ↔ base.agrees
    parts d := by
  simp at hps
  simp [ringWrite, hps]

@[simp] theorem Store.agrees_ringWrite (base : Store) (s : Nat) (rec_ : List Byte) (dts : BitVec 128) (d : Device)
    (m : Store) (hps : [.lp] ⊆ parts) : base.agrees parts (ringWrite s rec_ dts d m).1.2 ↔ base.agrees parts m := by
  simp at hps
  simp [ringWrite, hps]

@[simp] theorem Device.agrees_updSrc (base : Device) (d : Device) (k : Nat) (f : CheckSource → CheckSource) (hps :
    [.grid] ⊆ parts) : base.agrees parts (d.updSrc k f) ↔ base.agrees parts d := by
  simp at hps
  simp [Device.updSrc, hps]

@[simp] theorem Device.agrees_scoreFresh (base : Device) (d : Device) (s : Nat) (hps : [.grid] ⊆ parts) :
    base.agrees parts (d.scoreFresh s) ↔ base.agrees parts d := by
  simp at hps
  simp [Device.scoreFresh, hps]

/-! ## VisionOps -/

@[simp] theorem Device.agrees_engineFault (base : Device) (d : Device) (job source die : Nat) (e : AccessError) (hps
    : [.evt, .diag, .jobs, .units, .clusters, .vis, .slv, .prs] ⊆ parts) : base.agrees parts (d.engineFault job
    source die e) ↔ base.agrees parts d := by
  simp at hps
  unfold Device.engineFault
  split <;> simp [hps]

@[simp] theorem Device.agrees_holdSlot (base : Device) (d : Device) (job s slot : Nat) (hps : [.jobs] ⊆ parts) :
    base.agrees parts (d.holdSlot job s slot) ↔ base.agrees parts d := by
  simp at hps
  unfold Device.holdSlot
  split <;> simp [hps]

/-! ## Ste -/

@[simp] theorem Device.agrees_updSte (base : Device) (d : Device) (p : Nat) (f : StePair → StePair) (hps : [.vis] ⊆
    parts) : base.agrees parts (d.updSte p f) ↔ base.agrees parts d := by
  simp at hps
  simp [Device.updSte, hps]

@[simp] theorem Device.agrees_steConfig (base : Device) (r : Request) (d : Device) (hps : [.vis] ⊆ parts) :
    base.agrees parts (steConfig r d).1 ↔ base.agrees parts d := by
  simp at hps
  simp [steConfig, hps]

@[simp] theorem Device.agrees_steMap (base : Device) (r : Request) (d : Device) (m : Store) (hps : [.vis] ⊆ parts) :
    base.agrees parts (steMap r d m).1.1 ↔ base.agrees parts d := by
  simp at hps
  simp only [steMap]
  repeat' split
  all_goals simp [hps]

@[simp] theorem Store.agrees_steMap (base : Store) (r : Request) (d : Device) (m : Store) : base.agrees parts
    (steMap r d m).1.2 ↔ base.agrees parts m := by
  simp only [steMap]
  repeat' split
  all_goals simp

@[simp] theorem Device.agrees_steMask (base : Device) (r : Request) (d : Device) (m : Store) (hps : [.vis] ⊆ parts)
    : base.agrees parts (steMask r d m).1.1 ↔ base.agrees parts d := by
  simp at hps
  simp only [steMask]
  repeat' split
  all_goals simp [hps]

@[simp] theorem Store.agrees_steMask (base : Store) (r : Request) (d : Device) (m : Store) : base.agrees parts
    (steMask r d m).1.2 ↔ base.agrees parts m := by
  simp only [steMask]
  repeat' split
  all_goals simp

@[simp] theorem Device.agrees_putSte (base : Device) (d : Device) (o : SteOp) (hps : [.vis] ⊆ parts) : base.agrees
    parts (d.putSte o) ↔ base.agrees parts d := by
  simp at hps
  simp [Device.putSte, hps]

@[simp] theorem Device.agrees_setSteOn (base : Device) (d : Device) (p : Nat) (j : Option Nat) (hps : [.vis] ⊆
    parts) : base.agrees parts (d.setSteOn p j) ↔ base.agrees parts d := by
  simp at hps
  simp [Device.setSteOn, hps]

@[simp] theorem Device.agrees_steCount (base : Device) (d : Device) (o : SteOp) (x : SteOut) (hps : [.diag, .vis] ⊆
    parts) : base.agrees parts (d.steCount o x) ↔ base.agrees parts d := by
  simp at hps
  simp [Device.steCount, hps]

@[simp] theorem Device.agrees_steLoad (base : Device) (d : Device) (id : Nat) (j : Job) (hps : [.vis] ⊆ parts) :
    base.agrees parts (d.steLoad id j) ↔ base.agrees parts d := by
  simp at hps
  simp [Device.steLoad, hps]

/-! ## Fte -/

@[simp] theorem Device.agrees_updFte (base : Device) (d : Device) (s : Nat) (f : FteStream → FteStream) (hps :
    [.vis] ⊆ parts) : base.agrees parts (d.updFte s f) ↔ base.agrees parts d := by
  simp at hps
  simp [Device.updFte, hps]

@[simp] theorem Device.agrees_fteConfig (base : Device) (r : Request) (d : Device) (hps : [.vis] ⊆ parts) :
    base.agrees parts (fteConfig r d).1 ↔ base.agrees parts d := by
  simp at hps
  simp [fteConfig, hps]

@[simp] theorem Device.agrees_fteMask (base : Device) (r : Request) (d : Device) (m : Store) (hps : [.vis] ⊆ parts)
    : base.agrees parts (fteMask r d m).1.1 ↔ base.agrees parts d := by
  simp at hps
  simp only [fteMask]
  repeat' split
  all_goals simp [hps]

@[simp] theorem Store.agrees_fteMask (base : Store) (r : Request) (d : Device) (m : Store) : base.agrees parts
    (fteMask r d m).1.2 ↔ base.agrees parts m := by
  simp only [fteMask]
  repeat' split
  all_goals simp

@[simp] theorem Device.agrees_putFte (base : Device) (d : Device) (o : FteOp) (hps : [.vis] ⊆ parts) : base.agrees
    parts (d.putFte o) ↔ base.agrees parts d := by
  simp at hps
  simp [Device.putFte, hps]

@[simp] theorem Device.agrees_descWrites (base : Device) (c : FteCfg) (w : Work) (d : Device) (m : Store) (hps :
    [.memsys] ⊆ parts) : base.agrees parts (descWrites c w d m).1 ↔ base.agrees parts d := by
  simp at hps
  unfold descWrites
  split
  · rfl
  · refine (Device.agrees_foldl_of (g := Prod.fst) (fun x k => ?_) _ _ _).trans
      (Device.agrees_foldl_of (g := Prod.fst) (fun x e => ?_) _ _ _) <;> simp [hps]

@[simp] theorem Store.agrees_descWrites (base : Store) (c : FteCfg) (w : Work) (d : Device) (m : Store) (hps : [.lp]
    ⊆ parts) : base.agrees parts (descWrites c w d m).2 ↔ base.agrees parts m := by
  simp at hps
  unfold descWrites
  split
  · rfl
  · refine (Store.agrees_foldl_of (g := Prod.snd) (fun x k => ?_) _ _ _).trans
      (Store.agrees_foldl_of (g := Prod.snd) (fun x e => ?_) _ _ _) <;> simp [hps]

@[simp] theorem Device.agrees_fteCount (base : Device) (d : Device) (s : Nat) (x : FteOut) (frozen : Bool) (hps :
    [.diag, .vis] ⊆ parts) : base.agrees parts (d.fteCount s x frozen) ↔ base.agrees parts d := by
  simp at hps
  simp [Device.fteCount, hps]

theorem Device.agrees_of_fteList {o : FteOp} {cluster block flag : Nat} {list : List Byte} {d : Device} {m : Store}
    {x : Device × Store} (hx : fteList o cluster block flag list d m = some x) (base : Device)
    (hps : [.clusters] ⊆ parts) : base.agrees parts x.1 ↔ base.agrees parts d := by
  simp at hps
  simp only [fteList] at hx
  split at hx <;> cases hx
  simp [hps]

theorem Store.agrees_of_fteList {o : FteOp} {cluster block flag : Nat} {list : List Byte} {d : Device} {m : Store}
    {x : Device × Store} (hx : fteList o cluster block flag list d m = some x) (base : Store)
    (hps : [.sram] ⊆ parts) : base.agrees parts x.2 ↔ base.agrees parts m := by
  simp at hps
  simp only [fteList] at hx
  split at hx <;> cases hx
  simp [hps]

@[simp] theorem Device.agrees_fteRunOp (base : Device) (o : FteOp) (a b : FrameSrc) (d : Device) (m : Store) (hps :
    [.evt, .diag, .jobs, .units, .clusters, .memsys, .vis, .slv, .prs] ⊆ parts) : base.agrees parts (fteRunOp o a b
    d m).1 ↔ base.agrees parts d := by
  simp at hps
  simp only [fteRunOp]
  split
  · simp [hps]
  next x hx => split <;> simp [hps, Device.agrees_of_bufStore hx]

@[simp] theorem Store.agrees_fteRunOp (base : Store) (o : FteOp) (a b : FrameSrc) (d : Device) (m : Store) (hps :
    [.lp] ⊆ parts) : base.agrees parts (fteRunOp o a b d m).2 ↔ base.agrees parts m := by
  simp at hps
  simp only [fteRunOp]
  split
  · rfl
  next x hx => exact Store.agrees_of_bufStore hx base (by simp [hps])

@[simp] theorem Device.agrees_fteTickOp (base : Device) (o : FteOp) (f : FrameSrc) (h : List Nat) (entries : List
    (List Byte)) (cluster block flag : Nat) (d : Device) (m : Store) (hps : [.evt, .diag, .jobs, .units, .clusters,
    .memsys, .vis, .slv, .prs] ⊆ parts) : base.agrees parts (fteTickOp o f h entries cluster block flag d m).1 ↔
    base.agrees parts d := by
  simp at hps
  simp only [fteTickOp]
  split
  · simp [hps]
  next x hx => simp [hps, Device.agrees_of_fteList hx]

@[simp] theorem Store.agrees_fteTickOp (base : Store) (o : FteOp) (f : FrameSrc) (h : List Nat) (entries : List
    (List Byte)) (cluster block flag : Nat) (d : Device) (m : Store) (hps : [.lp, .sram] ⊆ parts) : base.agrees
    parts (fteTickOp o f h entries cluster block flag d m).2 ↔ base.agrees parts m := by
  simp at hps
  simp only [fteTickOp]
  split
  · rfl
  next x hx => simp [hps, Store.agrees_of_fteList hx]

@[simp] theorem Device.agrees_updCore (base : Device) (d : Device) (s : Nat) (f : FteCore → FteCore) (hps : [.vis] ⊆
    parts) : base.agrees parts (d.updCore s f) ↔ base.agrees parts d := by
  simp at hps
  simp [Device.updCore, hps]

@[simp] theorem Device.agrees_fteLoad (base : Device) (d : Device) (id : Nat) (j : Job) (hps : [.vis] ⊆ parts) :
    base.agrees parts (d.fteLoad id j) ↔ base.agrees parts d := by
  simp at hps
  simp [Device.fteLoad, hps]

@[simp] theorem Device.agrees_fteCommit (base : Device) (d : Device) (id : Nat) (hps : [.vis] ⊆ parts) : base.agrees
    parts (d.fteCommit id) ↔ base.agrees parts d := by
  simp at hps
  refine (Device.agrees_mk (d := List.foldl _ d _) (by simp [hps])).trans (Device.agrees_foldl (fun e o => ?_) _ base d)
  dsimp only
  repeat' split
  all_goals simp [hps]

@[simp] theorem Device.agrees_visionDown (base : Device) (d : Device) (die : Nat) (hps : [.vis] ⊆ parts) :
    base.agrees parts (d.visionDown die) ↔ base.agrees parts d := by
  simp at hps
  simp [Device.visionDown, hps]

/-! ## SfeBase -/

@[simp] theorem Device.agrees_updSfe (base : Device) (d : Device) (s : Nat) (f : SfeStream → SfeStream) (hps :
    [.sfe] ⊆ parts) : base.agrees parts (d.updSfe s f) ↔ base.agrees parts d := by
  simp at hps
  simp [Device.updSfe, hps]

@[simp] theorem Device.agrees_setExc (base : Device) (d : Device) (die : Nat) (x : SfeExc) (hps : [.sfe] ⊆ parts) :
    base.agrees parts (d.setExc die x) ↔ base.agrees parts d := by
  simp at hps
  simp [Device.setExc, hps]

@[simp] theorem Device.agrees_setScan (base : Device) (d : Device) (die : Nat) (x : SfeScan) (hps : [.sfe] ⊆ parts)
    : base.agrees parts (d.setScan die x) ↔ base.agrees parts d := by
  simp at hps
  simp [Device.setScan, hps]

@[simp] theorem Device.agrees_sfeStart (base : Device) (d : Device) (s : Nat) (hps : [.sfe] ⊆ parts) : base.agrees
    parts (d.sfeStart s) ↔ base.agrees parts d := by
  simp at hps
  simp [Device.sfeStart, hps]

@[simp] theorem Device.agrees_sfeUp (base : Device) (d : Device) (die : Nat) (hps : [.sfe] ⊆ parts) : base.agrees
    parts (d.sfeUp die) ↔ base.agrees parts d := by
  simp at hps
  simp [Device.sfeUp, hps]

@[simp] theorem Device.agrees_sfeDown (base : Device) (d : Device) (die : Nat) (hps : [.evt, .mbx, .sfe] ⊆ parts) :
    base.agrees parts (d.sfeDown die) ↔ base.agrees parts d := by
  simp at hps
  simp only [Device.sfeDown]
  split <;> simp [hps]

@[simp] theorem Device.agrees_sfeStep (base : Device) (d : Device) (s : Int) (hps : [.sfe] ⊆ parts) : base.agrees
    parts (d.sfeStep s) ↔ base.agrees parts d := by
  simp at hps
  simp [Device.sfeStep, hps]

/-! ## GridOps -/

@[simp] theorem Device.agrees_updCal (base : Device) (d : Device) (s : Nat) (f : Calib → Calib) (hps : [.grid] ⊆
    parts) : base.agrees parts (d.updCal s f) ↔ base.agrees parts d := by
  simp at hps
  simp [Device.updCal, hps]

@[simp] theorem Device.agrees_handOver (base : Device) (d : Device) (dts : Nat) (leaving : List (Int × Int × List
    Byte)) (hps : [.diag, .map] ⊆ parts) : base.agrees parts (d.handOver dts leaving) ↔ base.agrees parts d := by
  simp at hps
  unfold Device.handOver
  split <;> simp [hps]

@[simp] theorem Device.agrees_priors (base : Device) (d : Device) (pin : Nat) (di dj : Int) (hps : [.grid] ⊆ parts)
    : base.agrees parts (d.priors pin di dj) ↔ base.agrees parts d := by
  simp at hps
  unfold Device.priors
  split <;> simp [hps]

@[simp] theorem Device.agrees_gridMove (base : Device) (d : Device) (at_ : GridAt) (pin dts : Nat) (hps : [.diag,
    .grid, .map] ⊆ parts) : base.agrees parts (d.gridMove at_ pin dts).1 ↔ base.agrees parts d := by
  simp at hps
  simp [Device.gridMove, hps]

end Sys2Proof.Machine
end

section
/-! SUPPORT. . -/

namespace Sys2Proof.Machine

variable {parts : List MachinePart}

/-! ## Descriptors -/

/-- The writes of an effect change the memories, and renew what LPDDR6 keeps of its errors (R346). -/
theorem Env.agrees_of_write {ws : List (Nat × List Byte)} {e f : Env} (hf : e.write ws = .ok f) (base : Device)
    (hps : [.memsys] ⊆ parts) : base.agrees parts f.dev ↔ base.agrees parts e.dev := by
  simp at hps
  induction ws generalizing e with
  | nil =>
    cases hf
    rfl
  | cons w ws ih =>
    obtain ⟨a, bs⟩ := w
    rw [Env.write] at hf
    cases hl : locOf a with
    | error x => simp [hl, bind, Except.bind] at hf
    | ok l =>
      cases hc : e.check l bs.length true with
      | error x => simp [hl, hc, bind, Except.bind] at hf
      | ok u =>
        cases l <;> (simp only [hl, hc, bind, Except.bind] at hf; exact (ih hf).trans (by simp [hps]))

theorem Env.store_agrees_of_write {ws : List (Nat × List Byte)} {e f : Env} (hf : e.write ws = .ok f) (base : Store)
    (hps : [.lp, .sram] ⊆ parts) : base.agrees parts f.mem ↔ base.agrees parts e.mem := by
  simp at hps
  induction ws generalizing e with
  | nil =>
    cases hf
    rfl
  | cons w ws ih =>
    obtain ⟨a, bs⟩ := w
    rw [Env.write] at hf
    cases hl : locOf a with
    | error x => simp [hl, bind, Except.bind] at hf
    | ok l =>
      cases hc : e.check l bs.length true with
      | error x => simp [hl, hc, bind, Except.bind] at hf
      | ok u =>
        cases l <;> (simp only [hl, hc, bind, Except.bind] at hf; exact (ih hf).trans (by simp [hps]))

/-- A descriptor that runs has made the writes of some effect. -/
theorem Env.write_of_run {e f : Env} {x : Desc} {n : Nat} (hf : e.run x = .ok (f, n)) : ∃ ws, e.write ws = .ok f := by
  unfold Env.run at hf
  split at hf
  · split at hf
    · cases hf
    next fx hfx =>
      split at hf <;> cases hf
      exact ⟨fx.writes, ‹_›⟩
  · cases hf

theorem Env.agrees_of_run {e f : Env} {x : Desc} {n : Nat} (hf : e.run x = .ok (f, n)) (base : Device)
    (hps : [.memsys] ⊆ parts) : base.agrees parts f.dev ↔ base.agrees parts e.dev := by
  obtain ⟨ws, hw⟩ := Env.write_of_run hf
  exact Env.agrees_of_write hw base hps

theorem Env.store_agrees_of_run {e f : Env} {x : Desc} {n : Nat} (hf : e.run x = .ok (f, n)) (base : Store)
    (hps : [.lp, .sram] ⊆ parts) : base.agrees parts f.mem ↔ base.agrees parts e.mem := by
  obtain ⟨ws, hw⟩ := Env.write_of_run hf
  exact Env.store_agrees_of_write hw base hps

/-- Of two answers, each of which follows back to the same device, so does the one a condition chooses. -/
theorem Device.agrees_of_ite {α : Type} {base : Device} {x y : Device × α} {c q : Prop} [Decidable c]
    (hx : base.agrees parts x.1 ↔ q) (hy : base.agrees parts y.1 ↔ q) :
    base.agrees parts (if c then x else y).1 ↔ q := by
  split
  · exact hx
  · exact hy

theorem Store.agrees_of_ite {α : Type} {base : Store} {x y : α × Store} {c q : Prop} [Decidable c]
    (hx : base.agrees parts x.2 ↔ q) (hy : base.agrees parts y.2 ↔ q) :
    base.agrees parts (if c then x else y).2 ↔ q := by
  split
  · exact hx
  · exact hy

/-! ## Units -/

@[simp] theorem Device.agrees_countMiss (base : Device) (d : Device) (c phys : Nat) (resend : Bool) (hps : [.diag,
    .units, .clusters] ⊆ parts) : base.agrees parts (d.countMiss c phys resend) ↔ base.agrees parts d := by
  simp at hps
  simp [Device.countMiss, hps]

@[simp] theorem Device.agrees_markBroadcast (base : Device) (d : Device) (phys job : Nat) (hps : [.boot, .view,
    .evt, .diag, .jobs, .units, .clusters, .vis, .slv, .prs, .sec] ⊆ parts) : base.agrees parts (d.markBroadcast
    phys job) ↔ base.agrees parts d := by
  simp at hps
  simp [Device.markBroadcast, hps]

@[simp] theorem Device.agrees_bcastMiss (base : Device) (d : Device) (c slot : Nat) (pk : Packet) (hps : [.boot,
    .view, .evt, .diag, .jobs, .units, .clusters, .vis, .slv, .prs, .sec] ⊆ parts) : base.agrees parts (d.bcastMiss
    c slot pk) ↔ base.agrees parts d := by
  simp at hps
  unfold Device.bcastMiss
  split <;> simp [hps]

@[simp] theorem Device.agrees_packetDone (base : Device) (d : Device) (c : Nat) (pk : Packet) (hps : [.jobs, .units,
    .clusters] ⊆ parts) : base.agrees parts (d.packetDone c pk) ↔ base.agrees parts d := by
  simp at hps
  simp only [Device.packetDone]
  repeat' split
  all_goals simp [hps]

@[simp] theorem Device.agrees_signal (base : Device) (d : Device) (g : Signal) (hps : [.clusters] ⊆ parts) :
    base.agrees parts (d.signal g) ↔ base.agrees parts d := by
  simp at hps
  simp [Device.signal, hps]

@[simp] theorem Device.agrees_descFault (base : Device) (d : Device) (phys : Nat) (x : DFault) (hps : [.evt, .diag,
    .jobs, .units, .clusters, .vis, .slv, .prs] ⊆ parts) : base.agrees parts (d.descFault phys x) ↔ base.agrees
    parts d := by
  simp at hps
  unfold Device.descFault
  split <;> simp [hps]

@[simp] theorem Device.agrees_holdTags (base : Device) (d : Device) (c phys n : Nat) (hps : [.diag, .units,
    .clusters] ⊆ parts) : base.agrees parts (d.holdTags c phys n) ↔ base.agrees parts d := by
  simp at hps
  simp [Device.holdTags, hps]

@[simp] theorem Device.agrees_issue (base : Device) (phys : Nat) (d : Device) (m : Store) (hps : [.evt, .diag,
    .jobs, .units, .clusters, .memsys, .vis, .slv, .prs, .free] ⊆ parts) : base.agrees parts (issue phys d m).1 ↔
    base.agrees parts d := by
  simp at hps
  unfold issue
  extract_lets u c x stalled
  split
  · rfl
  next j hj =>
    refine Device.agrees_of_ite Iff.rfl ?_
    extract_lets waited
    have hw : base.agrees parts waited ↔ base.agrees parts d := by
      simp only [waited]
      split <;> simp [hps]
    have hs : base.agrees parts stalled ↔ base.agrees parts d := by simp [stalled, hps]
    clear_value waited stalled x
    refine Device.agrees_of_ite (by simp [hps]) (Device.agrees_of_ite (by simp [hps]) (Device.agrees_of_ite
      (by simp [hps]) (Device.agrees_of_ite (by simp [hps, hw]) (Device.agrees_of_ite Iff.rfl (Device.agrees_of_ite
      (by simp [hps, hs]) (Device.agrees_of_ite Iff.rfl (Device.agrees_of_ite ?_ (Device.agrees_of_ite
      (by simp [hps]) ?_))))))))
    · split <;> simp [hps]
    · split
      · simp [hps]
      next he => simp [hps, Env.agrees_of_run he]

@[simp] theorem Store.agrees_issue (base : Store) (phys : Nat) (d : Device) (m : Store) (hps : [.lp, .sram] ⊆ parts)
    : base.agrees parts (issue phys d m).2 ↔ base.agrees parts m := by
  simp at hps
  unfold issue
  extract_lets u c x stalled
  split
  · rfl
  next j hj =>
    refine Store.agrees_of_ite Iff.rfl ?_
    extract_lets waited
    clear_value waited stalled x
    refine Store.agrees_of_ite Iff.rfl (Store.agrees_of_ite Iff.rfl (Store.agrees_of_ite Iff.rfl (Store.agrees_of_ite
      Iff.rfl (Store.agrees_of_ite Iff.rfl (Store.agrees_of_ite Iff.rfl (Store.agrees_of_ite Iff.rfl
      (Store.agrees_of_ite ?_ (Store.agrees_of_ite Iff.rfl ?_))))))))
    · split <;> rfl
    · split
      · rfl
      next he => simp [hps, Env.store_agrees_of_run he]

@[simp] theorem Device.agrees_reportDie (base : Device) (d : Device) (id : Nat) (die : Nat) (hps : [.jobs] ⊆ parts)
    : base.agrees parts (d.reportDie id die) ↔ base.agrees parts d := by
  simp at hps
  unfold Device.reportDie
  split <;> simp [hps]

/-! ## Grid -/

@[simp] theorem Device.agrees_gridConfig (base : Device) (r : Request) (d : Device) (hps : [.grid] ⊆ parts) :
    base.agrees parts (gridConfig r d).1 ↔ base.agrees parts d := by
  simp at hps
  simp [gridConfig, hps]

@[simp] theorem Device.agrees_gridSource (base : Device) (r : Request) (d : Device) (hps : [.grid] ⊆ parts) :
    base.agrees parts (gridSource r d).1 ↔ base.agrees parts d := by
  simp at hps
  simp [gridSource, hps]

@[simp] theorem Device.agrees_calSet (base : Device) (r : Request) (d : Device) (hps : [.grid] ⊆ parts) :
    base.agrees parts (calSet r d).1 ↔ base.agrees parts d := by
  simp at hps
  simp [calSet, hps]

@[simp] theorem Device.agrees_calRefineSet (base : Device) (r : Request) (d : Device) (hps : [.grid] ⊆ parts) :
    base.agrees parts (calRefineSet r d).1 ↔ base.agrees parts d := by
  simp at hps
  simp [calRefineSet, hps]

@[simp] theorem Device.agrees_checkConfig (base : Device) (r : Request) (d : Device) (hps : [.grid] ⊆ parts) :
    base.agrees parts (checkConfig r d).1 ↔ base.agrees parts d := by
  simp at hps
  simp [checkConfig, hps]

@[simp] theorem Device.agrees_sourceEvents (base : Device) (d : Device) (check k : Nat) (old : CheckSource) (hps :
    [.evt] ⊆ parts) : base.agrees parts (d.sourceEvents check k old) ↔ base.agrees parts d := by
  simp at hps
  simp [Device.sourceEvents, hps]

@[simp] theorem Device.agrees_checksBegin (base : Device) (d : Device) (tick : Nat) (hps : [.grid] ⊆ parts) :
    base.agrees parts (d.checksBegin tick) ↔ base.agrees parts d := by
  simp at hps
  simp [Device.checksBegin, hps]

@[simp] theorem Device.agrees_contradict (base : Device) (d : Device) (check : Nat) (held : List Nat) (hps : [.evt,
    .grid] ⊆ parts) : base.agrees parts (d.contradict check held) ↔ base.agrees parts d := by
  simp at hps
  simp only [Device.contradict]
  split <;> simp [hps]

@[simp] theorem Device.agrees_copyRows (base : Device) (g : Grid) (src dst : Option Nat) (from_ to_ n c0 c1 : Nat)
    (d : Device) (m : Store) (hps : [.memsys] ⊆ parts) : base.agrees parts (copyRows g src dst from_ to_ n c0 c1 d
    m).1 ↔ base.agrees parts d := by
  simp at hps
  unfold copyRows
  split
  · rfl
  · exact Device.agrees_foldl_of (g := Prod.fst) (fun x i => by simp [hps]) _ base (d, m)

@[simp] theorem Store.agrees_copyRows (base : Store) (g : Grid) (src dst : Option Nat) (from_ to_ n c0 c1 : Nat) (d
    : Device) (m : Store) (hps : [.lp] ⊆ parts) : base.agrees parts (copyRows g src dst from_ to_ n c0 c1 d m).2 ↔
    base.agrees parts m := by
  simp at hps
  unfold copyRows
  split
  · rfl
  · exact Store.agrees_foldl_of (g := Prod.snd) (fun x i => by simp [hps]) _ base (d, m)

/-! ## SlvOps -/

@[simp] theorem Device.agrees_updSlv (base : Device) (d : Device) (die slot : Nat) (f : SlvSlot → SlvSlot) (hps :
    [.slv] ⊆ parts) : base.agrees parts (d.updSlv die slot f) ↔ base.agrees parts d := by
  simp at hps
  simp [Device.updSlv, hps]

@[simp] theorem Device.agrees_putSlv (base : Device) (d : Device) (o : SlvOp) (hps : [.slv] ⊆ parts) : base.agrees
    parts (d.putSlv o) ↔ base.agrees parts d := by
  simp at hps
  simp [Device.putSlv, hps]

@[simp] theorem Device.agrees_slvBegin (base : Device) (d : Device) (o : SlvOp) (hps : [.slv] ⊆ parts) : base.agrees
    parts (d.slvBegin o) ↔ base.agrees parts d := by
  simp at hps
  simp [Device.slvBegin, hps]

@[simp] theorem Device.agrees_slvPick (base : Device) (d : Device) (die : Nat) (hps : [.slv] ⊆ parts) : base.agrees
    parts (d.slvPick die) ↔ base.agrees parts d := by
  simp at hps
  simp only [Device.slvPick]
  repeat' split
  all_goals simp [hps]

@[simp] theorem Device.agrees_slvCount (base : Device) (d : Device) (die ended cycles : Nat) (retried : Bool) (hps :
    [.diag, .slv] ⊆ parts) : base.agrees parts (d.slvCount die ended cycles retried) ↔ base.agrees parts d := by
  simp at hps
  simp only [Device.slvCount]
  split <;> simp [hps]

theorem Device.agrees_of_slvWrite {d : Device} {m : Store} {o : SlvOp} {h : List Byte} {x : Device × Store}
    (hx : d.slvWrite m o h = .ok x) (base : Device) (hps : [.memsys] ⊆ parts) :
    base.agrees parts x.1 ↔ base.agrees parts d := by
  unfold Device.slvWrite at hx
  dsimp only at hx
  split at hx
  · cases hx
  next y hy =>
    split at hx
    · cases hx
    next z hz =>
      exact ((Device.agrees_of_bufStore hx base hps).trans (Device.agrees_of_bufStore hz base hps)).trans
        (Device.agrees_of_bufStore hy base hps)

theorem Store.agrees_of_slvWrite {d : Device} {m : Store} {o : SlvOp} {h : List Byte} {x : Device × Store}
    (hx : d.slvWrite m o h = .ok x) (base : Store) (hps : [.lp] ⊆ parts) :
    base.agrees parts x.2 ↔ base.agrees parts m := by
  unfold Device.slvWrite at hx
  dsimp only at hx
  split at hx
  · cases hx
  next y hy =>
    split at hx
    · cases hx
    next z hz =>
      exact ((Store.agrees_of_bufStore hx base hps).trans (Store.agrees_of_bufStore hz base hps)).trans
        (Store.agrees_of_bufStore hy base hps)

@[simp] theorem Device.agrees_solverDown (base : Device) (d : Device) (die : Nat) (hps : [.slv] ⊆ parts) :
    base.agrees parts (d.solverDown die) ↔ base.agrees parts d := by
  simp at hps
  simp [Device.solverDown, hps]

/-! ## Slv -/

@[simp] theorem Device.agrees_slvBoundary (base : Device) (d : Device) (die cycles : Nat) (hps : [.slv] ⊆ parts) :
    base.agrees parts (d.slvBoundary die cycles) ↔ base.agrees parts d := by
  simp at hps
  unfold Device.slvBoundary
  split <;> simp [hps]

@[simp] theorem Device.agrees_slvEnd (base : Device) (die : Nat) (x : SlvOut) (d : Device) (m : Store) (hps : [.evt,
    .diag, .jobs, .units, .clusters, .memsys, .vis, .slv, .prs] ⊆ parts) : base.agrees parts (slvEnd die x d m).1 ↔
    base.agrees parts d := by
  simp at hps
  unfold slvEnd
  dsimp only
  split
  · rfl
  · split
    · split <;> simp [hps]
    · split
      · rfl
      · split
        · simp [hps]
        next hx => simpa [hps] using Device.agrees_of_slvWrite hx base (by simp [hps])

@[simp] theorem Store.agrees_slvEnd (base : Store) (die : Nat) (x : SlvOut) (d : Device) (m : Store) (hps : [.lp] ⊆
    parts) : base.agrees parts (slvEnd die x d m).2 ↔ base.agrees parts m := by
  simp at hps
  unfold slvEnd
  dsimp only
  split
  · rfl
  · split
    · split <;> simp [hps]
    · split
      · rfl
      · split
        · simp [hps]
        next hx => simpa [hps] using Store.agrees_of_slvWrite hx base (by simp [hps])

@[simp] theorem Device.agrees_slvLoad (base : Device) (d : Device) (id : Nat) (j : Job) (hps : [.slv] ⊆ parts) :
    base.agrees parts (d.slvLoad id j) ↔ base.agrees parts d := by
  simp at hps
  simp [Device.slvLoad, hps]

@[simp] theorem Device.agrees_slvTimeStep (base : Device) (d : Device) (size : Int) (hps : [.slv] ⊆ parts) :
    base.agrees parts (d.slvTimeStep size) ↔ base.agrees parts d := by
  simp at hps
  simp [Device.slvTimeStep, hps]

@[simp] theorem Device.agrees_slvCommit (base : Device) (d : Device) (id : Nat) (hps : [.slv] ⊆ parts) : base.agrees
    parts (d.slvCommit id) ↔ base.agrees parts d := by
  simp at hps
  simp [Device.slvCommit, hps]

/-! ## Pp -/

@[simp] theorem Device.agrees_ppConfig (base : Device) (r : Request) (d : Device) (hps : [.slv] ⊆ parts) :
    base.agrees parts (ppConfig r d).1 ↔ base.agrees parts d := by
  simp at hps
  simp [ppConfig, hps]

@[simp] theorem Device.agrees_publishPose (base : Device) (d : Device) (dts : BitVec 128) (body : List Byte) (hps :
    [.evt, .mbx, .loc, .out] ⊆ parts) : base.agrees parts (d.publishPose dts body) ↔ base.agrees parts d := by
  simp at hps
  simp [Device.publishPose, hps]

@[simp] theorem Device.agrees_ppRecord (base : Device) (d : Device) (at_ : Nat) (hps : [.evt, .mbx, .slv, .loc,
    .out] ⊆ parts) : base.agrees parts (d.ppRecord at_) ↔ base.agrees parts d := by
  simp at hps
  simp [Device.ppRecord, hps]

/-! ## Outputs -/

@[simp] theorem Device.agrees_outPort (base : Device) (r : Request) (d : Device) (hps : [.evt, .mbx, .out] ⊆ parts)
    : base.agrees parts (outPort r d).1 ↔ base.agrees parts d := by
  simp at hps
  simp [outPort, hps]

@[simp] theorem Device.agrees_outRoute (base : Device) (r : Request) (d : Device) (hps : [.out] ⊆ parts) :
    base.agrees parts (outRoute r d).1 ↔ base.agrees parts d := by
  simp at hps
  simp [outRoute, hps]

@[simp] theorem Device.agrees_sendOn (base : Device) (d : Device) (p dt vc : Nat) (dts : BitVec 128) (body : List
    Byte) (segs : List (Nat × Nat × Nat)) (handle : Option Nat) (hps : [.evt, .mbx, .out] ⊆ parts) : base.agrees
    parts (d.sendOn p dt vc dts body segs handle) ↔ base.agrees parts d := by
  simp at hps
  simp [Device.sendOn, hps]

@[simp] theorem Device.agrees_wireDone (base : Device) (d : Device) (p : Nat) (hps : [.evt, .mbx, .diag, .time,
    .out] ⊆ parts) : base.agrees parts (d.wireDone p) ↔ base.agrees parts d := by
  simp at hps
  unfold Device.wireDone
  split <;> simp [hps]

@[simp] theorem Device.agrees_partFails (base : Device) (d : Device) (p : Nat) (x : OutMsg) (e : AccessError) (hps :
    [.evt, .mbx, .diag, .memsys, .out] ⊆ parts) : base.agrees parts (d.partFails p x e) ↔ base.agrees parts d := by
  simp at hps
  unfold Device.partFails
  split <;> simp [hps]

@[simp] theorem Device.agrees_putPart (base : Device) (d : Device) (p : Nat) (old x : OutMsg) (payload : List Byte)
    (hps : [.out] ⊆ parts) : base.agrees parts (d.putPart p old x payload) ↔ base.agrees parts d := by
  simp at hps
  simp [Device.putPart, hps]

/-! ## Guide -/

@[simp] theorem Device.agrees_setGuide (base : Device) (d : Device) (g : Guide) (hps : [.out] ⊆ parts) : base.agrees
    parts (d.setGuide g) ↔ base.agrees parts d := by
  simp at hps
  simp [Device.setGuide, hps]

@[simp] theorem Device.agrees_guideTo (base : Device) (d : Device) (state reason : Nat) (hps : [.evt, .out] ⊆ parts)
    : base.agrees parts (d.guideTo state reason) ↔ base.agrees parts d := by
  simp at hps
  simp [Device.guideTo, hps]

@[simp] theorem Device.agrees_guideConfig (base : Device) (r : Request) (d : Device) (hps : [.evt, .out] ⊆ parts) :
    base.agrees parts (guideConfig r d).1 ↔ base.agrees parts d := by
  simp at hps
  simp [guideConfig, hps]

@[simp] theorem Device.agrees_guideSelect (base : Device) (r : Request) (d : Device) (hps : [.out] ⊆ parts) :
    base.agrees parts (guideSelect r d).1 ↔ base.agrees parts d := by
  simp at hps
  simp [guideSelect, hps]

@[simp] theorem Device.agrees_handFrame (base : Device) (d : Device) (frame : List Byte) (hps : [.out] ⊆ parts) :
    base.agrees parts (d.handFrame frame) ↔ base.agrees parts d := by
  simp at hps
  simp [Device.handFrame, hps]

@[simp] theorem Device.agrees_guideAt (base : Device) (d : Device) (at_ : Nat) (rec_ : List Byte) (hps : [.evt,
    .out, .free] ⊆ parts) : base.agrees parts (d.guideAt at_ rec_) ↔ base.agrees parts d := by
  simp at hps
  simp only [Device.guideAt]
  split <;> simp [hps]

/-! ## Mailbox -/

@[simp] theorem Device.agrees_reject (base : Device) (d : Device) (ch : Nat) (r : Request) (status : Nat) (enter :
    Bool) (hps : [.evt, .mbx] ⊆ parts) : base.agrees parts (d.reject ch r status enter) ↔ base.agrees parts d := by
  simp at hps
  simp [Device.reject, hps]

@[simp] theorem Device.agrees_replay (base : Device) (d : Device) (ch : Nat) (e : StoreEntry) (hps : [.mbx] ⊆ parts)
    : base.agrees parts (d.replay ch e) ↔ base.agrees parts d := by
  simp at hps
  simp [Device.replay, hps]

@[simp] theorem Device.agrees_checkRequest (base : Device) (d : Device) (ch : Nat) (r : Request) (hps : [.evt, .mbx]
    ⊆ parts) : base.agrees parts (d.checkRequest ch r) ↔ base.agrees parts d := by
  simp at hps
  unfold Device.checkRequest
  repeat' split
  all_goals simp [hps]

@[simp] theorem Device.agrees_doorbell (base : Device) (d : Device) (ch : Nat) (value : Word) (hps : [.evt, .mbx] ⊆
    parts) : base.agrees parts (d.doorbell ch value) ↔ base.agrees parts d := by
  simp at hps
  simp [Device.doorbell, hps]

@[simp] theorem Device.agrees_flush (base : Device) (d : Device) (ch : Nat) (hps : [.evt, .mbx] ⊆ parts) :
    base.agrees parts (d.flush ch) ↔ base.agrees parts d := by
  simp at hps
  simp [Device.flush, hps]

@[simp] theorem Device.agrees_publish (base : Device) (d : Device) (ch : Nat) (hps : [.evt, .mbx] ⊆ parts) :
    base.agrees parts (d.publish ch) ↔ base.agrees parts d := by
  simp at hps
  simp only [Device.publish]
  split <;> simp [hps]

/-! ## Ingest -/

theorem Device.agrees_of_enableStream {d e : Device} {s : Nat} (he : d.enableStream s = some e) (base : Device)
    (hps : [.memsys, .ing, .grid] ⊆ parts) : base.agrees parts e ↔ base.agrees parts d := by
  simp at hps
  obtain ⟨y, hy, hz⟩ := Option.map_eq_some_iff.mp he
  cases hz
  refine Iff.trans ?_ (Device.agrees_of_startStream hy base (by simp [hps]))
  split <;> split <;> simp [hps]

@[simp] theorem Device.agrees_streamConfig (base : Device) (r : Request) (d : Device) (hps : [.memsys, .ing, .vis,
    .grid] ⊆ parts) : base.agrees parts (streamConfig r d).1 ↔ base.agrees parts d := by
  simp at hps
  unfold streamConfig
  dsimp only
  repeat' split
  all_goals simp [hps]
  next he => simp [hps, Device.agrees_of_enableStream he]
  next he => simp [hps, Device.agrees_of_enableStream he]

@[simp] theorem Device.agrees_csiPort (base : Device) (r : Request) (d : Device) (hps : [.memsys, .ing, .vis, .grid]
    ⊆ parts) : base.agrees parts (csiPort r d).1 ↔ base.agrees parts d := by
  simp at hps
  unfold csiPort
  dsimp only
  repeat' split
  all_goals simp [hps]
  next he => simp [hps, Device.agrees_of_enableStream he]

@[simp] theorem Device.agrees_pairConfig (base : Device) (r : Request) (d : Device) (hps : [.ing] ⊆ parts) :
    base.agrees parts (pairConfig r d).1 ↔ base.agrees parts d := by
  simp at hps
  simp [pairConfig, hps]

@[simp] theorem Device.agrees_ethPort (base : Device) (r : Request) (d : Device) (hps : [.ing] ⊆ parts) :
    base.agrees parts (ethPort r d).1 ↔ base.agrees parts d := by
  simp at hps
  simp [ethPort, hps]

@[simp] theorem Device.agrees_lidarStream (base : Device) (r : Request) (d : Device) (hps : [.ing] ⊆ parts) :
    base.agrees parts (lidarStream r d).1 ↔ base.agrees parts d := by
  simp at hps
  simp [lidarStream, hps]

@[simp] theorem Device.agrees_imuPort (base : Device) (r : Request) (d : Device) (hps : [.memsys, .ing, .vis, .grid]
    ⊆ parts) : base.agrees parts (imuPort r d).1 ↔ base.agrees parts d := by
  simp at hps
  unfold imuPort
  dsimp only
  repeat' split
  all_goals simp [hps]
  next he => simp [hps, Device.agrees_of_enableStream he]

@[simp] theorem Device.agrees_encConfig (base : Device) (r : Request) (d : Device) (hps : [.memsys, .ing, .vis,
    .grid] ⊆ parts) : base.agrees parts (encConfig r d).1 ↔ base.agrees parts d := by
  simp at hps
  unfold encConfig
  dsimp only
  repeat' split
  all_goals simp [hps]
  next he => simp [hps, Device.agrees_of_enableStream he]

@[simp] theorem Device.agrees_canController (base : Device) (r : Request) (d : Device) (hps : [.ing] ⊆ parts) :
    base.agrees parts (canController r d).1 ↔ base.agrees parts d := by
  simp at hps
  simp [canController, hps]

@[simp] theorem Device.agrees_canFilter (base : Device) (r : Request) (d : Device) (hps : [.ing] ⊆ parts) :
    base.agrees parts (canFilter r d).1 ↔ base.agrees parts d := by
  simp at hps
  simp [canFilter, hps]

@[simp] theorem Device.agrees_markBulk (base : Device) (d : Device) (id : Nat) (on : Bool) (hps : [.memsys] ⊆ parts)
    : base.agrees parts (d.markBulk id on) ↔ base.agrees parts d := by
  simp at hps
  unfold Device.markBulk
  split <;> simp [hps]

@[simp] theorem Device.agrees_bulkEnd (base : Device) (d : Device) (x : Bulk) (status : Nat) (hps : [.evt, .mbx,
    .memsys, .ing] ⊆ parts) : base.agrees parts (d.bulkEnd x status) ↔ base.agrees parts d := by
  simp at hps
  simp [Device.bulkEnd, hps]

theorem Device.agrees_of_bulkPacket {path port : Nat} {bs : List Byte} {d : Device} {m : Store} {r : Device × Store}
    (hr : bulkPacket path port bs d m = some r) (base : Device) (hps : [.evt, .mbx, .memsys, .ing] ⊆ parts) :
    base.agrees parts r.1 ↔ base.agrees parts d := by
  simp at hps
  unfold bulkPacket at hr
  dsimp only at hr
  repeat' split at hr
  all_goals cases hr
  all_goals simp [hps]

theorem Store.agrees_of_bulkPacket {path port : Nat} {bs : List Byte} {d : Device} {m : Store} {r : Device × Store}
    (hr : bulkPacket path port bs d m = some r) (base : Store) (hps : [.lp] ⊆ parts) :
    base.agrees parts r.2 ↔ base.agrees parts m := by
  simp at hps
  unfold bulkPacket at hr
  dsimp only at hr
  repeat' split at hr
  all_goals cases hr
  all_goals simp [hps]

@[simp] theorem Device.agrees_csiLog (base : Device) (d : Device) (p code detail : Nat) (hps : [.evt, .ing] ⊆ parts)
    : base.agrees parts (d.csiLog p code detail) ↔ base.agrees parts d := by
  simp at hps
  simp [Device.csiLog, hps]

@[simp] theorem Device.agrees_setPartner (base : Device) (s slot seq ps pseq : Nat) (d : Device) (m : Store) (hps :
    [.memsys, .ing] ⊆ parts) : base.agrees parts (setPartner s slot seq ps pseq d m).1 ↔ base.agrees parts d := by
  simp at hps
  unfold setPartner
  dsimp only
  split
  · split <;> simp [hps]
  · rfl

@[simp] theorem Store.agrees_setPartner (base : Store) (s slot seq ps pseq : Nat) (d : Device) (m : Store) (hps :
    [.lp] ⊆ parts) : base.agrees parts (setPartner s slot seq ps pseq d m).2 ↔ base.agrees parts m := by
  simp at hps
  unfold setPartner
  dsimp only
  split
  · split <;> simp [hps]
  · rfl

@[simp] theorem Device.agrees_releaseUnpaired (base : Device) (d : Device) (h : HeldFrame) (hps : [.ing] ⊆ parts) :
    base.agrees parts (d.releaseUnpaired h) ↔ base.agrees parts d := by
  simp at hps
  simp [Device.releaseUnpaired, hps]

@[simp] theorem Device.agrees_joinPair (base : Device) (f g : HeldFrame) (d : Device) (m : Store) (hps : [.evt,
    .memsys, .ing] ⊆ parts) : base.agrees parts (joinPair f g d m).1 ↔ base.agrees parts d := by
  simp at hps
  simp only [joinPair]
  split <;> simp [hps]

@[simp] theorem Store.agrees_joinPair (base : Store) (f g : HeldFrame) (d : Device) (m : Store) (hps : [.lp] ⊆
    parts) : base.agrees parts (joinPair f g d m).2 ↔ base.agrees parts m := by
  simp at hps
  simp [joinPair, hps]

@[simp] theorem Device.agrees_offerPair (base : Device) (f : HeldFrame) (d : Device) (m : Store) (hps : [.evt,
    .memsys, .ing] ⊆ parts) : base.agrees parts (offerPair f d m).1 ↔ base.agrees parts d := by
  simp at hps
  simp only [offerPair]
  repeat' split
  all_goals simp [hps]

@[simp] theorem Store.agrees_offerPair (base : Store) (f : HeldFrame) (d : Device) (m : Store) (hps : [.lp] ⊆ parts)
    : base.agrees parts (offerPair f d m).2 ↔ base.agrees parts m := by
  simp at hps
  simp only [offerPair]
  repeat' split
  all_goals simp [hps]

@[simp] theorem Device.agrees_closeFrame (base : Device) (p : Nat) (incomplete : Bool) (d : Device) (m : Store) (hps
    : [.evt, .memsys, .ing] ⊆ parts) : base.agrees parts (closeFrame p incomplete d m).1 ↔ base.agrees parts d := by
  simp at hps
  simp only [closeFrame]
  repeat' split
  all_goals simp [hps]

@[simp] theorem Store.agrees_closeFrame (base : Store) (p : Nat) (incomplete : Bool) (d : Device) (m : Store) (hps :
    [.lp] ⊆ parts) : base.agrees parts (closeFrame p incomplete d m).2 ↔ base.agrees parts m := by
  simp at hps
  simp only [closeFrame]
  repeat' split
  all_goals simp [hps]

@[simp] theorem Device.agrees_csiHeader (base : Device) (d : Device) (p ecc vc dt : Nat) (hps : [.evt, .ing] ⊆
    parts) : base.agrees parts (d.csiHeader p ecc vc dt) ↔ base.agrees parts d := by
  simp at hps
  simp [Device.csiHeader, hps]

@[simp] theorem Device.agrees_openFrame (base : Device) (d : Device) (p num : Nat) (hps : [.ing] ⊆ parts) :
    base.agrees parts (d.openFrame p num) ↔ base.agrees parts d := by
  simp at hps
  simp [Device.openFrame, hps]

@[simp] theorem Device.agrees_landLine (base : Device) (p : Nat) (crcOk : Bool) (pixels : List Nat) (words : Nat) (d
    : Device) (m : Store) (hps : [.evt, .memsys, .ing] ⊆ parts) : base.agrees parts (landLine p crcOk pixels words d
    m).1 ↔ base.agrees parts d := by
  simp at hps
  simp only [landLine]
  repeat' split
  all_goals simp [hps]

@[simp] theorem Store.agrees_landLine (base : Store) (p : Nat) (crcOk : Bool) (pixels : List Nat) (words : Nat) (d :
    Device) (m : Store) (hps : [.lp] ⊆ parts) : base.agrees parts (landLine p crcOk pixels words d m).2 ↔
    base.agrees parts m := by
  simp at hps
  simp only [landLine]
  repeat' split
  all_goals simp [hps]

@[simp] theorem Device.agrees_streamsDown (base : Device) (d : Device) (hps : [.ing, .vis] ⊆ parts) : base.agrees
    parts d.streamsDown ↔ base.agrees parts d := by
  simp at hps
  simp [Device.streamsDown, hps]

/-! ## Memory -/

@[simp] theorem Device.agrees_dmaFault (base : Device) (d : Device) (job cause die : Nat) (addr : Option Nat) (hps :
    [.evt, .diag, .jobs, .units, .clusters, .vis, .slv, .prs] ⊆ parts) : base.agrees parts (d.dmaFault job cause die
    addr) ↔ base.agrees parts d := by
  simp at hps
  simp [Device.dmaFault, hps]

@[simp] theorem Device.agrees_dmaError (base : Device) (d : Device) (job die : Nat) (e : AccessError) (hps : [.evt,
    .diag, .jobs, .units, .clusters, .memsys, .vis, .slv, .prs] ⊆ parts) : base.agrees parts (d.dmaError job die e)
    ↔ base.agrees parts d := by
  simp at hps
  unfold Device.dmaError
  split <;> simp [hps]

@[simp] theorem Device.agrees_schedCopy (base : Device) (job : Nat) (j : Job) (x : SchedEntry) (c lbase fbase : Nat)
    (d : Device) (m : Store) (hps : [.evt, .diag, .jobs, .units, .clusters, .memsys, .vis, .slv, .prs] ⊆ parts) :
    base.agrees parts (schedCopy job j x c lbase fbase d m).1 ↔ base.agrees parts d := by
  simp at hps
  unfold schedCopy
  dsimp only
  split
  · simp [hps]
  · split
    · simp [hps]
    · split
      · split
        · simp [hps]
        next hx =>
          refine Iff.trans ?_ (Device.agrees_of_bufStore hx base (by simp [hps]))
          split <;> split <;> simp [hps]
      · split
        · simp [hps]
        · split <;> split <;> simp [hps]

@[simp] theorem Store.agrees_schedCopy (base : Store) (job : Nat) (j : Job) (x : SchedEntry) (c lbase fbase : Nat)
    (d : Device) (m : Store) (hps : [.lp, .sram] ⊆ parts) : base.agrees parts (schedCopy job j x c lbase fbase d
    m).2 ↔ base.agrees parts m := by
  simp at hps
  unfold schedCopy
  dsimp only
  split
  · simp [hps]
  · split
    · simp [hps]
    · split
      · split
        · simp [hps]
        next hx =>
          refine Iff.trans ?_ (Store.agrees_of_bufStore hx base (by simp [hps]))
          split <;> split <;> simp [hps]
      · split
        · simp [hps]
        · split <;> split <;> simp [hps]

@[simp] theorem Device.agrees_schedNext (base : Device) (job : Nat) (window : Bool) (d : Device) (m : Store) (hps :
    [.evt, .diag, .jobs, .units, .clusters, .memsys, .vis, .slv, .prs] ⊆ parts) : base.agrees parts (schedNext job
    window d m).1 ↔ base.agrees parts d := by
  simp at hps
  simp only [schedNext]
  repeat' split
  all_goals simp [hps]

@[simp] theorem Store.agrees_schedNext (base : Store) (job : Nat) (window : Bool) (d : Device) (m : Store) (hps :
    [.lp, .sram] ⊆ parts) : base.agrees parts (schedNext job window d m).2 ↔ base.agrees parts m := by
  simp at hps
  simp only [schedNext]
  repeat' split
  all_goals simp [hps]

@[simp] theorem Device.agrees_markBad (base : Device) (d : Device) (pa : Nat) (hps : [.memsys] ⊆ parts) :
    base.agrees parts (d.markBad pa) ↔ base.agrees parts d := by
  simp at hps
  simp [Device.markBad, hps]

@[simp] theorem Device.agrees_dropSector (base : Device) (d : Device) (pa : Nat) (hps : [.memsys] ⊆ parts) :
    base.agrees parts (d.dropSector pa) ↔ base.agrees parts d := by
  simp at hps
  simp [Device.dropSector, hps]

@[simp] theorem Device.agrees_evictBad (base : Device) (d : Device) (pa : Nat) (hps : [.evt, .diag, .jobs, .units,
    .clusters, .memsys, .vis, .slv, .prs] ⊆ parts) : base.agrees parts (d.evictBad pa) ↔ base.agrees parts d := by
  simp at hps
  simp only [Device.evictBad]
  split <;> simp [hps]

@[simp] theorem Device.agrees_mscEcc (base : Device) (d : Device) (pa : Nat) (e : EccHit) (held dirty : Bool) (hps :
    [.evt, .diag, .jobs, .units, .clusters, .memsys, .vis, .slv, .prs] ⊆ parts) : base.agrees parts (d.mscEcc pa e
    held dirty) ↔ base.agrees parts d := by
  simp at hps
  unfold Device.mscEcc
  split <;> simp [hps]

/-! ## Jobs -/

@[simp] theorem Device.agrees_submitBad (base : Device) (r : Request) (ch error index : Nat) (d : Device) (hps :
    [.evt, .mbx, .diag, .jobs, .units, .clusters, .memsys, .vis, .grid, .slv, .loc, .map, .prs] ⊆ parts) :
    base.agrees parts (submitBad r ch error index d).1 ↔ base.agrees parts d := by
  simp at hps
  unfold submitBad
  split
  · rfl
  · dsimp only
    split
    · rfl
    next he => simp [hps, Device.agrees_of_admitJob he]

@[simp] theorem Device.agrees_submitGood (base : Device) (r : Request) (ch : Nat) (img : List Byte) (bufs : List
    Nat) (d : Device) (hps : [.mbx, .jobs, .memsys] ⊆ parts) : base.agrees parts (submitGood r ch img bufs d).1 ↔
    base.agrees parts d := by
  simp at hps
  simp only [submitGood]
  split
  · rfl
  · split
    · rfl
    next he =>
      split <;> split <;> simp [hps, Device.agrees_of_allocSnaps he]

@[simp] theorem Device.agrees_jobConfig (base : Device) (r : Request) (d : Device) (hps : [.jobs] ⊆ parts) :
    base.agrees parts (jobConfig r d).1 ↔ base.agrees parts d := by
  simp at hps
  simp [jobConfig, hps]

/-! ## Loc -/

@[simp] theorem Device.agrees_locConfig (base : Device) (r : Request) (d : Device) (hps : [.loc] ⊆ parts) :
    base.agrees parts (locConfig r d).1 ↔ base.agrees parts d := by
  simp at hps
  simp [locConfig, hps]

@[simp] theorem Device.agrees_wheelConfig (base : Device) (r : Request) (d : Device) (hps : [.loc] ⊆ parts) :
    base.agrees parts (wheelConfig r d).1 ↔ base.agrees parts d := by
  simp at hps
  simp [wheelConfig, hps]

@[simp] theorem Device.agrees_gnssConfig (base : Device) (r : Request) (d : Device) (hps : [.loc] ⊆ parts) :
    base.agrees parts (gnssConfig r d).1 ↔ base.agrees parts d := by
  simp at hps
  simp [gnssConfig, hps]

@[simp] theorem Device.agrees_loopConfig (base : Device) (r : Request) (d : Device) (hps : [.loc] ⊆ parts) :
    base.agrees parts (loopConfig r d).1 ↔ base.agrees parts d := by
  simp at hps
  simp [loopConfig, hps]

@[simp] theorem Device.agrees_pairFix (base : Device) (d : Device) (f : Fix) (at_ : Vec3) (hps : [.evt, .diag, .loc,
    .map] ⊆ parts) : base.agrees parts (d.pairFix f at_) ↔ base.agrees parts d := by
  simp at hps
  simp only [Device.pairFix]
  repeat' split
  all_goals simp [hps]

@[simp] theorem Device.agrees_dropFix (base : Device) (d : Device) (hps : [.loc] ⊆ parts) : base.agrees parts
    d.dropFix ↔ base.agrees parts d := by
  simp at hps
  simp [Device.dropFix, hps]

@[simp] theorem Device.agrees_useFix (base : Device) (d : Device) (f : Fix) (p : Pose) (hps : [.loc] ⊆ parts) :
    base.agrees parts (d.useFix f p) ↔ base.agrees parts d := by
  simp at hps
  unfold Device.useFix
  split <;> simp [hps]

end Sys2Proof.Machine
end

section
/-! SUPPORT. . -/

namespace Sys2Proof.Machine

variable {parts : List MachinePart}

/-! ## MapImage -/

@[simp] theorem Device.agrees_remapIds (base : Device) (rs : List (List Byte)) (d : Device) (hps : [.map] ⊆ parts) :
    base.agrees parts (remapIds rs d).2 ↔ base.agrees parts d := by
  simp at hps
  induction rs generalizing d with
  | nil => rfl
  | cons r rs ih =>
    simp only [remapIds]
    split <;> simp [hps, ih]

theorem Device.agrees_of_loadRecords {d e : Device} {rs : List (List Byte)} (he : d.loadRecords rs = some e)
    (base : Device) (hps : [.diag, .map, .prs] ⊆ parts) : base.agrees parts e ↔ base.agrees parts d := by
  simp at hps
  obtain ⟨f, hf, he⟩ := Option.bind_eq_some_iff.mp he
  have h : d.agrees parts f := Device.agrees_of_foldl_bind (g := id) (fun r b c hc =>
    (Device.agrees_of_mapCreate hc b (by simp [hps])).mpr (Device.agrees_refl _ _)) hf
  refine Iff.trans ?_ (h.iff base)
  split at he
  · cases he
  · split at he
    · cases he
      rfl
    · dsimp only at he
      split at he <;> cases he
      simp [hps]

@[simp] theorem Device.agrees_mapImage (base : Device) (d : Device) (img : MapImage) (counts : List Nat) (remap : Bool)
    (hps : [.evt, .diag, .map, .prs] ⊆ parts) : base.agrees parts (d.loadImage img counts remap).1 ↔
    base.agrees parts d := by
  simp at hps
  have h : base.agrees parts (if remap then remapIds img.recs d else ([], d)).2 ↔ base.agrees parts d := by
    split <;> simp [hps]
  unfold Device.loadImage
  generalize (if remap then remapIds img.recs d else ([], d)) = p at h ⊢
  dsimp only
  split
  · rfl
  · split
    · rfl
    · split
      · rfl
      · split
        · rfl
        next e he =>
          refine Iff.trans ?_ ((Device.agrees_of_loadRecords he base (by simp [hps])).trans h)
          simp [hps]

@[simp] theorem Device.agrees_mapLoad (base : Device) (arg : List Byte) (d : Device) (m : Store) (hps : [.evt,
    .diag, .memsys, .map, .prs] ⊆ parts) : base.agrees parts (mapLoad arg d m).1 ↔ base.agrees parts d := by
  simp at hps
  unfold mapLoad
  repeat' split
  all_goals simp [hps]

@[simp] theorem Device.agrees_mergeOne (other base : Device) (root : Nat) (c : Pose) (old : List Byte) (dts : Nat)
    (d : Device) (k : Nat) (hps : [.diag, .map] ⊆ parts) :
    other.agrees parts (mergeOne base root c old dts d k) ↔ other.agrees parts d := by
  simp at hps
  unfold mergeOne
  dsimp only
  split
  · rfl
  · generalize (match base.map.newest _ with | none => true | some t => _ : Bool) = b
    split <;> simp [hps]

@[simp] theorem Device.agrees_mapMerge (base : Device) (slot root : Nat) (c : Pose) (d : Device) (hps : [.evt,
    .diag, .map] ⊆ parts) : base.agrees parts (mapMerge slot root c d) ↔ base.agrees parts d := by
  simp at hps
  have h (l : List (Nat × List Byte)) : base.agrees parts (l.foldl (fun (x : Device) (o : Nat × List Byte) =>
      (List.range 4096).foldl (mergeOne d root c o.2 (recU o.2 32 16)) x) d) ↔ base.agrees parts d :=
    Device.agrees_foldl (fun e o => (Device.agrees_foldl (fun f k => by simp [hps]) _ e e).mpr (Device.agrees_refl _ e))
      l base d
  simp [mapMerge, hps, h]

/-! ## Map -/

@[simp] theorem Device.agrees_mapConfig (base : Device) (r : Request) (d : Device) (hps : [.diag, .memsys, .map] ⊆
    parts) : base.agrees parts (mapConfig r d).1 ↔ base.agrees parts d := by
  simp at hps
  unfold mapConfig
  split
  · rfl
  · split
    · rfl
    next he => simp [hps, Device.agrees_of_mapPools he]

@[simp] theorem Device.agrees_raiseIds (base : Device) (d : Device) (hi : Nat) (hps : [.map] ⊆ parts) : base.agrees
    parts (d.raiseIds hi) ↔ base.agrees parts d := by
  simp at hps
  simp [Device.raiseIds, hps]

@[simp] theorem Device.agrees_emptyIndex (base : Device) (d : Device) (hps : [.diag, .prs] ⊆ parts) : base.agrees
    parts d.emptyIndex ↔ base.agrees parts d := by
  simp at hps
  unfold Device.emptyIndex
  split <;> simp [hps]

/-! ## Prs -/

@[simp] theorem Device.agrees_freeBufs (base : Device) (d : Device) (t : Tbl Nat) (hps : [.memsys] ⊆ parts) :
    base.agrees parts (d.freeBufs t) ↔ base.agrees parts d := by
  simp at hps
  simp [Device.freeBufs, hps]

theorem Device.agrees_of_dieBuffers {d e : Device} {mib : Nat} {t : Tbl Nat} (he : d.dieBuffers mib = some (t, e))
    (base : Device) (hps : [.memsys] ⊆ parts) : base.agrees parts e ↔ base.agrees parts d := by
  refine Device.agrees.iff (Device.agrees_of_foldl_bind (g := Prod.snd) (fun k b c hc => ?_) he) base
  obtain ⟨x, hx, rfl⟩ := Option.map_eq_some_iff.mp hc
  exact (Device.agrees_of_allocFw hx b.2 hps).mpr (Device.agrees_refl _ _)

theorem Device.agrees_of_newIndex {d e : Device} {i bits_ mib : Nat} (he : d.newIndex i bits_ mib = some e)
    (base : Device) (hps : [.diag, .memsys, .prs] ⊆ parts) : base.agrees parts e ↔ base.agrees parts d := by
  simp at hps
  unfold Device.newIndex at he
  obtain ⟨⟨t, f⟩, hx, rfl⟩ := Option.map_eq_some_iff.mp he
  refine Iff.trans (b := base.agrees parts f) (by simp [hps]) ((Device.agrees_of_dieBuffers hx base (by simp [hps])).trans ?_)
  split <;> simp [hps]

@[simp] theorem Device.agrees_prsIndex (base : Device) (r : Request) (d : Device) (hps : [.diag, .memsys, .prs] ⊆
    parts) : base.agrees parts (prsIndex r d).1 ↔ base.agrees parts d := by
  simp at hps
  unfold prsIndex
  dsimp only
  repeat' split
  all_goals simp [hps]
  all_goals next he => simp [hps, Device.agrees_of_newIndex he]

@[simp] theorem Device.agrees_prsConfig (base : Device) (r : Request) (d : Device) (hps : [.prs] ⊆ parts) :
    base.agrees parts (prsConfig r d).1 ↔ base.agrees parts d := by
  simp at hps
  simp [prsConfig, hps]

@[simp] theorem Device.agrees_prsTreeLoad (base : Device) (i : Nat) (arg : List Byte) (d : Device) (m : Store) (hps
    : [.evt, .diag, .memsys, .prs] ⊆ parts) : base.agrees parts (prsTreeLoad i arg d m).1 ↔ base.agrees parts d := by
  simp at hps
  unfold prsTreeLoad
  split
  · rfl
  · simp [hps]
  · split
    · rfl
    · split
      · rfl
      next he => simp [hps, Device.agrees_of_dieBuffers he]

@[simp] theorem Device.agrees_prsUpdate (base : Device) (i : Nat) (arg : List Byte) (d : Device) (m : Store) (hps :
    [.evt, .diag, .memsys, .prs] ⊆ parts) : base.agrees parts (prsUpdate i arg d m).1 ↔ base.agrees parts d := by
  simp at hps
  simp only [prsUpdate]
  repeat' split
  all_goals simp [hps]

@[simp] theorem Device.agrees_startRun (base : Device) (d : Device) (r : PrsRun) (hps : [.prs] ⊆ parts) :
    base.agrees parts (d.startRun r) ↔ base.agrees parts d := by
  simp at hps
  unfold Device.startRun
  split <;> simp [hps]

@[simp] theorem Device.agrees_queryLoad (base : Device) (d : Device) (m : Store) (id i : Nat) (a : List Byte) (hps :
    [.prs] ⊆ parts) : base.agrees parts (d.queryLoad m id i a) ↔ base.agrees parts d := by
  simp at hps
  unfold Device.queryLoad
  split <;> simp [hps]

@[simp] theorem Device.agrees_loopLoad (base : Device) (d : Device) (id : Nat) (j : Job) (hps : [.map, .prs] ⊆
    parts) : base.agrees parts (d.loopLoad id j) ↔ base.agrees parts d := by
  simp at hps
  unfold Device.loopLoad
  repeat' split
  all_goals simp [hps]

@[simp] theorem Device.agrees_prsLoad (base : Device) (d : Device) (m : Store) (id : Nat) (j : Job) (hps : [.map,
    .prs] ⊆ parts) : base.agrees parts (d.prsLoad m id j) ↔ base.agrees parts d := by
  simp at hps
  unfold Device.prsLoad
  repeat' split
  all_goals simp [hps]

@[simp] theorem Device.agrees_scanWindow (base : Device) (d : Device) (die : Nat) (rs : List (Nat × Nat)) (hps :
    [.diag, .prs] ⊆ parts) : base.agrees parts (d.scanWindow die rs) ↔ base.agrees parts d := by
  simp at hps
  have h (rs : List PrsRun) := Device.agrees_foldl (ps := parts) (f := fun (d : Device) r => match d.index r.index with
    | none => d
    | some x =>
      let g := r.scan x die (r.round.getD [])
      d.setRun { r with
        got := mergeKeys r.k r.got g.1, gotFound := r.gotFound + g.2.1, gotScanned := r.gotScanned + g.2.2
        waitOn := r.waitOn &&& ~~~ BitVec.twoPow 8 die }) (fun e r => by split <;> simp [hps]) rs base d
  simp only [Device.scanWindow]
  simp [hps]
  exact h _

@[simp] theorem Device.agrees_prsDone (base : Device) (r : PrsRun) (d : Device) (m : Store) (hps : [.evt, .diag,
    .jobs, .units, .clusters, .memsys, .vis, .slv, .prs] ⊆ parts) : base.agrees parts (prsDone r d m).1 ↔
    base.agrees parts d := by
  simp at hps
  simp only [prsDone]
  split
  · split <;> simp [hps]
  · split
    · split
      · simp [hps]
      next hx => exact (Device.agrees_of_bufStore hx base (by simp [hps])).trans (by simp [hps])
    · split <;> simp [hps]

@[simp] theorem Store.agrees_prsDone (base : Store) (r : PrsRun) (d : Device) (m : Store) (hps : [.lp] ⊆ parts) :
    base.agrees parts (prsDone r d m).2 ↔ base.agrees parts m := by
  simp at hps
  simp only [prsDone]
  split
  · rfl
  · split
    · split
      · simp
      next hx => exact (Store.agrees_of_bufStore hx base (by simp [hps])).trans (by simp)
    · rfl

/-! ## SfeOps -/

@[simp] theorem Device.agrees_sfePush (base : Device) (d : Device) (s : Nat) (raw raw2 : Int) (hps : [.sfe] ⊆ parts)
    : base.agrees parts (d.sfePush s raw raw2) ↔ base.agrees parts d := by
  simp at hps
  simp [Device.sfePush, hps]

@[simp] theorem Device.agrees_sfeRing (base : Device) (d : Device) (s : Nat) (det : Bool) (hps : [.memsys, .sfe] ⊆
    parts) : base.agrees parts (d.sfeRing s det) ↔ base.agrees parts d := by
  simp at hps
  unfold Device.sfeRing
  dsimp only
  generalize (if det then (d.sfeS s).detBuf else (d.sfeS s).buf) = b
  split
  · rfl
  · split
    · rfl
    next he => simp [hps, Device.agrees_of_allocFw he]

@[simp] theorem Device.agrees_sfeRecord (base : Device) (s kind flags : Nat) (dts : BitVec 128) (a b : Nat) (d :
    Device) (m : Store) (hps : [.diag, .memsys, .sfe] ⊆ parts) : base.agrees parts (sfeRecord s kind flags dts a b d
    m).1 ↔ base.agrees parts d := by
  simp at hps
  simp [sfeRecord, hps]

@[simp] theorem Store.agrees_sfeRecord (base : Store) (s kind flags : Nat) (dts : BitVec 128) (a b : Nat) (d :
    Device) (m : Store) (hps : [.lp] ⊆ parts) : base.agrees parts (sfeRecord s kind flags dts a b d m).2 ↔
    base.agrees parts m := by
  simp at hps
  simp [sfeRecord, hps]

@[simp] theorem Device.agrees_sfeEmit (base : Device) (s : Nat) (d : Device) (m : Store) (hps : [.diag, .time,
    .memsys, .sfe, .free] ⊆ parts) : base.agrees parts (sfeEmit s d m).1 ↔ base.agrees parts d := by
  simp at hps
  simp [sfeEmit, hps]

@[simp] theorem Store.agrees_sfeEmit (base : Store) (s : Nat) (d : Device) (m : Store) (hps : [.lp] ⊆ parts) :
    base.agrees parts (sfeEmit s d m).2 ↔ base.agrees parts m := by
  simp at hps
  simp [sfeEmit, hps]

@[simp] theorem Device.agrees_sfeWindow (base : Device) (s : Nat) (w : SfeWin) (d : Device) (m : Store) (hps :
    [.diag, .time, .memsys, .sfe] ⊆ parts) : base.agrees parts (sfeWindow s w d m).1 ↔ base.agrees parts d := by
  simp at hps
  simp [sfeWindow, hps]

@[simp] theorem Store.agrees_sfeWindow (base : Store) (s : Nat) (w : SfeWin) (d : Device) (m : Store) (hps : [.lp] ⊆
    parts) : base.agrees parts (sfeWindow s w d m).2 ↔ base.agrees parts m := by
  simp at hps
  simp [sfeWindow, hps]

@[simp] theorem Device.agrees_auxRecord (base : Device) (s instant : Nat) (raw : Int) (d : Device) (m : Store) (hps
    : [.diag, .memsys, .sfe] ⊆ parts) : base.agrees parts (auxRecord s instant raw d m).1 ↔ base.agrees parts d := by
  simp at hps
  simp [auxRecord, hps]

@[simp] theorem Store.agrees_auxRecord (base : Store) (s instant : Nat) (raw : Int) (d : Device) (m : Store) (hps :
    [.lp] ⊆ parts) : base.agrees parts (auxRecord s instant raw d m).2 ↔ base.agrees parts m := by
  simp at hps
  simp [auxRecord, hps]

/-! ## Sfe -/

@[simp] theorem Device.agrees_sfeChannel (base : Device) (r : Request) (d : Device) (hps : [.memsys, .sfe] ⊆ parts)
    : base.agrees parts (sfeChannel r d).1 ↔ base.agrees parts d := by
  simp at hps
  simp only [sfeChannel]
  repeat' split
  all_goals simp [hps]

@[simp] theorem Device.agrees_sfeAuxScan (base : Device) (r : Request) (d : Device) (hps : [.sfe] ⊆ parts) :
    base.agrees parts (sfeAuxScan r d).1 ↔ base.agrees parts d := by
  simp at hps
  simp [sfeAuxScan, hps]

@[simp] theorem Device.agrees_sfeExcite (base : Device) (r : Request) (d : Device) (hps : [.sfe] ⊆ parts) :
    base.agrees parts (sfeExcite r d).1 ↔ base.agrees parts d := by
  simp at hps
  simp [sfeExcite, hps]

@[simp] theorem Device.agrees_sfeDetect (base : Device) (r : Request) (d : Device) (hps : [.sfe] ⊆ parts) :
    base.agrees parts (sfeDetect r d).1 ↔ base.agrees parts d := by
  simp at hps
  simp [sfeDetect, hps]

@[simp] theorem Device.agrees_calBegin (base : Device) (d : Device) (s : Nat) (h : Option Nat) (hps : [.sfe] ⊆
    parts) : base.agrees parts (d.calBegin s h) ↔ base.agrees parts d := by
  simp at hps
  simp [Device.calBegin, hps]

@[simp] theorem Device.agrees_sfeCalWrite (base : Device) (r : Request) (d : Device) (hps : [.sfe] ⊆ parts) :
    base.agrees parts (sfeCalWrite r d).1 ↔ base.agrees parts d := by
  simp at hps
  simp [sfeCalWrite, hps]

@[simp] theorem Device.agrees_sfeCal (base : Device) (r : Request) (d : Device) (hps : [.sfe] ⊆ parts) : base.agrees
    parts (sfeCal r d).1 ↔ base.agrees parts d := by
  simp at hps
  simp [sfeCal, hps]

@[simp] theorem Device.agrees_sfeCalOn (base : Device) (ch : Nat) (r : Request) (d : Device) (hps : [.mbx, .sfe] ⊆
    parts) : base.agrees parts (sfeCalOn ch r d).1 ↔ base.agrees parts d := by
  simp at hps
  simp [sfeCalOn, hps]

@[simp] theorem Device.agrees_calEnd (base : Device) (d : Device) (s : Nat) (hps : [.sfe] ⊆ parts) : base.agrees
    parts (d.calEnd s) ↔ base.agrees parts d := by
  simp at hps
  simp [Device.calEnd, hps]

@[simp] theorem Device.agrees_calApply (base : Device) (d : Device) (k : Nat) (v : Int × Nat) (hps : [.sfe] ⊆ parts)
    : base.agrees parts (d.calApply k v) ↔ base.agrees parts d := by
  simp at hps
  simp [Device.calApply, hps]

@[simp] theorem Device.agrees_sfeLog (base : Device) (d : Device) (s code : Nat) (hps : [.evt, .sfe] ⊆ parts) :
    base.agrees parts (d.sfeLog s code) ↔ base.agrees parts d := by
  simp at hps
  simp [Device.sfeLog, hps]

@[simp] theorem Device.agrees_sfeFault (base : Device) (d : Device) (s code : Nat) (hps : [.evt, .diag, .sfe] ⊆
    parts) : base.agrees parts (d.sfeFault s code) ↔ base.agrees parts d := by
  simp at hps
  simp [Device.sfeFault, hps]

/-! ## Time -/

@[simp] theorem Device.agrees_holdEnd (base : Device) (d : Device) (hps : [.evt, .time] ⊆ parts) : base.agrees parts
    d.holdEnd ↔ base.agrees parts d := by
  simp at hps
  simp [Device.holdEnd, hps]

@[simp] theorem Device.agrees_timeConfigured (base : Device) (d : Device) (hps : [.evt, .time, .tim] ⊆ parts) :
    base.agrees parts d.timeConfigured ↔ base.agrees parts d := by
  simp at hps
  simp [Device.timeConfigured, hps]

@[simp] theorem Device.agrees_timeConfig (base : Device) (r : Request) (d : Device) (hps : [.evt, .time, .tim] ⊆
    parts) : base.agrees parts (timeConfig r d).1 ↔ base.agrees parts d := by
  simp at hps
  simp [timeConfig, hps]

@[simp] theorem Device.agrees_compSet (base : Device) (r : Request) (d : Device) (hps : [.tim] ⊆ parts) :
    base.agrees parts (compSet r d).1 ↔ base.agrees parts d := by
  simp at hps
  simp [compSet, hps]

@[simp] theorem Device.agrees_trigGroup (base : Device) (r : Request) (d : Device) (hps : [.tim] ⊆ parts) :
    base.agrees parts (trigGroup r d).1 ↔ base.agrees parts d := by
  simp at hps
  simp [trigGroup, hps]

@[simp] theorem Device.agrees_trigOut (base : Device) (r : Request) (d : Device) (hps : [.tim] ⊆ parts) :
    base.agrees parts (trigOut r d).1 ↔ base.agrees parts d := by
  simp at hps
  simp [trigOut, hps]

@[simp] theorem Device.agrees_ptpPort (base : Device) (r : Request) (d : Device) (hps : [.evt, .time, .tim] ⊆ parts)
    : base.agrees parts (ptpPort r d).1 ↔ base.agrees parts d := by
  simp at hps
  simp [ptpPort, hps]

@[simp] theorem Device.agrees_ppsLost (base : Device) (d : Device) (hps : [.evt, .time, .tim] ⊆ parts) : base.agrees
    parts d.ppsLost ↔ base.agrees parts d := by
  simp at hps
  simp [Device.ppsLost, hps]

@[simp] theorem Device.agrees_ppsConfig (base : Device) (r : Request) (d : Device) (hps : [.evt, .time, .tim] ⊆
    parts) : base.agrees parts (ppsConfig r d).1 ↔ base.agrees parts d := by
  simp at hps
  simp [ppsConfig, hps]

@[simp] theorem Device.agrees_latch (base : Device) (d : Device) (hps : [.time] ⊆ parts) : base.agrees parts d.latch
    ↔ base.agrees parts d := by
  simp at hps
  simp [Device.latch, hps]

@[simp] theorem Device.agrees_snapCtl (base : Device) (d : Device) (value : Word) (hps : [.evt, .time] ⊆ parts) :
    base.agrees parts (d.snapCtl value) ↔ base.agrees parts d := by
  simp at hps
  simp [Device.snapCtl, hps]

@[simp] theorem Device.agrees_ppsEdge (base : Device) (d : Device) (hps : [.evt, .diag, .time, .tim, .free] ⊆ parts)
    : base.agrees parts d.ppsEdge ↔ base.agrees parts d := by
  simp at hps
  simp only [Device.ppsEdge]
  repeat' split
  all_goals simp [hps]

@[simp] theorem Device.agrees_ptpLog (base : Device) (d : Device) (p code detail : Nat) (hps : [.evt, .tim] ⊆ parts)
    : base.agrees parts (d.ptpLog p code detail) ↔ base.agrees parts d := by
  simp at hps
  simp [Device.ptpLog, hps]

@[simp] theorem Device.agrees_ptpSample (base : Device) (d : Device) (p : Nat) (hps : [.evt, .time, .free] ⊆ parts)
    : base.agrees parts (d.ptpSample p) ↔ base.agrees parts d := by
  simp at hps
  simp only [Device.ptpSample]
  split <;> simp [hps]

@[simp] theorem Device.agrees_announce (base : Device) (d : Device) (p : Nat) (m : PtpMsg) (hps : [.evt, .diag,
    .time, .tim] ⊆ parts) : base.agrees parts (d.announce p m) ↔ base.agrees parts d := by
  simp at hps
  simp [Device.announce, hps]

@[simp] theorem Device.agrees_syncRx (base : Device) (d : Device) (p : Nat) (m : PtpMsg) (hps : [.evt, .diag, .time,
    .tim, .free] ⊆ parts) : base.agrees parts (d.syncRx p m) ↔ base.agrees parts d := by
  simp at hps
  simp [Device.syncRx, hps]

@[simp] theorem Device.agrees_ptpTake (base : Device) (d : Device) (p : Nat) (m : PtpMsg) (hps : [.evt, .diag,
    .time, .tim, .free] ⊆ parts) : base.agrees parts (d.ptpTake p m) ↔ base.agrees parts d := by
  simp at hps
  simp only [Device.ptpTake]
  repeat' split
  all_goals simp [hps]

/-! ## Profile -/

@[simp] theorem Device.agrees_zeroBuf (base : Device) (id : Nat) (d : Device) (m : Store) (hps : [.memsys] ⊆ parts)
    : base.agrees parts (zeroBuf id d m).1 ↔ base.agrees parts d := by
  simp at hps
  unfold zeroBuf
  split <;> simp [hps]

@[simp] theorem Store.agrees_zeroBuf (base : Store) (id : Nat) (d : Device) (m : Store) (hps : [.lp] ⊆ parts) :
    base.agrees parts (zeroBuf id d m).2 ↔ base.agrees parts m := by
  simp at hps
  unfold zeroBuf
  split <;> simp [hps]

theorem Device.agrees_of_makeBufs {img : List Byte} {i : Nat} {es : List BufEntry} {d : Device} {m : Store}
    {x : Device × Store} (hx : makeBufs img i es d m = .ok x) (base : Device) (hps : [.jobs, .memsys] ⊆ parts) :
    base.agrees parts x.1 ↔ base.agrees parts d := by
  simp at hps
  induction es generalizing i d m with
  | nil =>
    cases hx
    rfl
  | cons e es ih =>
    simp only [makeBufs] at hx
    split at hx
    · cases hx
    next he =>
      refine (ih hx).trans (Iff.trans ?_ (Device.agrees_of_allocFw he base (by simp [hps])))
      simp [hps]

theorem Store.agrees_of_makeBufs {img : List Byte} {i : Nat} {es : List BufEntry} {d : Device} {m : Store}
    {x : Device × Store} (hx : makeBufs img i es d m = .ok x) (base : Store) (hps : [.lp] ⊆ parts) :
    base.agrees parts x.2 ↔ base.agrees parts m := by
  simp at hps
  induction es generalizing i d m with
  | nil =>
    cases hx
    rfl
  | cons e es ih =>
    simp only [makeBufs] at hx
    split at hx
    · cases hx
    next he =>
      exact (ih hx).trans (by simp [hps])

/-- The parts of the device that some setting changes. -/
def MachinePart.settingParts : List MachinePart :=
  [.evt, .mbx, .diag, .time, .tim, .memsys, .ing, .sfe, .vis, .grid, .slv, .loc, .map, .prs, .out]

/-- What a setting changes, whichever it is. -/
theorem Setting.agrees_body {t : Setting} (ht : t ∈ settings) (r : Request) (base d : Device) (m : Store)
    (hps : MachinePart.settingParts ⊆ parts) : base.agrees parts (t.body r d m).1.1 ↔ base.agrees parts d := by
  simp [MachinePart.settingParts] at hps
  revert t
  simp only [settings, settingsTime, settingsIngest, settingsSfe, settingsSte, settingsFte, settingsGrid, settingsLoc,
    settingsMap, settingsPrs, settingsOut, settingsGuide, List.forall_mem_append, List.forall_mem_cons,
    List.forall_mem_nil, and_true]
  simp [setTimeConfig, setCompSet, setTrigGroup, setTrigOut, setPtpPort, setPpsConfig, setStreamConfig, setCsiPort,
    setPairConfig, setEthPort, setLidarStream, setImuPort, setEncConfig, setCanController, setCanFilter, setSfeChannel,
    setSfeAuxScan, setSfeExc, setSfeDetect, setSfeCal, setSteConfig, setSteMap, setSteMask, setFteConfig, setFteMask,
    setGridConfig, setGridSource, setCalSet, setCalRefine, setCheckConfig, setPpConfig, setLocConfig, setWheelConfig,
    setGnssConfig, setLoopConfig, setMapConfig, setPrsIndex, setPrsConfig, setOutPort, setOutRoute, setGuideConfig,
    setGuideSelect, devBody, hps]

/-- No setting changes a memory. -/
theorem Setting.store_agrees_body {t : Setting} (ht : t ∈ settings) (r : Request) (base : Store) (d : Device) (m : Store) :
    base.agrees parts (t.body r d m).1.2 ↔ base.agrees parts m := by
  revert t
  simp only [settings, settingsTime, settingsIngest, settingsSfe, settingsSte, settingsFte, settingsGrid, settingsLoc,
    settingsMap, settingsPrs, settingsOut, settingsGuide, List.forall_mem_append, List.forall_mem_cons,
    List.forall_mem_nil, and_true]
  simp [setTimeConfig, setCompSet, setTrigGroup, setTrigOut, setPtpPort, setPpsConfig, setStreamConfig, setCsiPort,
    setPairConfig, setEthPort, setLidarStream, setImuPort, setEncConfig, setCanController, setCanFilter, setSfeChannel,
    setSfeAuxScan, setSfeExc, setSfeDetect, setSfeCal, setSteConfig, setSteMap, setSteMask, setFteConfig, setFteMask,
    setGridConfig, setGridSource, setCalSet, setCalRefine, setCheckConfig, setPpConfig, setLocConfig, setWheelConfig,
    setGnssConfig, setLoopConfig, setMapConfig, setPrsIndex, setPrsConfig, setOutPort, setOutRoute, setGuideConfig,
    setGuideSelect, devBody]

/-- The parts of the device that the load of a profile may change (R748). -/
def MachinePart.loadParts : List MachinePart :=
  [.evt, .mbx, .diag, .time, .tim, .jobs, .memsys, .ing, .sfe, .vis, .grid, .slv, .loc, .map, .prs, .out, .free]

theorem Device.agrees_of_applyRecord {i op reserved : Nat} {payload : List Byte} {d : Device} {m : Store}
    {x : Device × Store} (hx : applyRecord i op reserved payload d m = .ok x) (base : Device)
    (hps : MachinePart.loadParts ⊆ parts) : base.agrees parts x.1 ↔ base.agrees parts d := by
  have hs : MachinePart.settingParts ⊆ parts := fun p hp => hps (by revert p; decide)
  simp [MachinePart.loadParts] at hps
  unfold applyRecord at hx
  dsimp only at hx
  split at hx
  · cases hx
  · split at hx
    · cases hx
    next t ht =>
      split at hx
      · cases hx
      · split at hx <;> cases hx
        have h := Setting.agrees_body (List.mem_of_find?_eq_some ht)
          ⟨op, 0, (recordPayload d op payload).length, 0, 0, 0, recordPayload d op payload⟩ base d m hs
        simpa [hps] using h

theorem Store.agrees_of_applyRecord {i op reserved : Nat} {payload : List Byte} {d : Device} {m : Store}
    {x : Device × Store} (hx : applyRecord i op reserved payload d m = .ok x) (base : Store) :
    base.agrees parts x.2 ↔ base.agrees parts m := by
  unfold applyRecord at hx
  dsimp only at hx
  split at hx
  · cases hx
  · split at hx
    · cases hx
    next t ht =>
      split at hx
      · cases hx
      · split at hx <;> cases hx
        exact Setting.store_agrees_body (List.mem_of_find?_eq_some ht) _ base d m

theorem Device.agrees_of_applyRecords {i : Nat} {rs : List (Option (Nat × Nat × List Byte))} {d : Device} {m : Store}
    {x : Device × Store} (hx : applyRecords i rs d m = .ok x) (base : Device)
    (hps : MachinePart.loadParts ⊆ parts) : base.agrees parts x.1 ↔ base.agrees parts d := by
  induction rs generalizing i d m with
  | nil =>
    cases hx
    rfl
  | cons r rs ih =>
    cases r with
    | none => cases hx
    | some r =>
      obtain ⟨op, reserved, b⟩ := r
      rw [applyRecords] at hx
      split at hx
      · cases hx
      next y hy => exact (ih hx).trans (Device.agrees_of_applyRecord hy base hps)

theorem Store.agrees_of_applyRecords {i : Nat} {rs : List (Option (Nat × Nat × List Byte))} {d : Device} {m : Store}
    {x : Device × Store} (hx : applyRecords i rs d m = .ok x) (base : Store) :
    base.agrees parts x.2 ↔ base.agrees parts m := by
  induction rs generalizing i d m with
  | nil =>
    cases hx
    rfl
  | cons r rs ih =>
    cases r with
    | none => cases hx
    | some r =>
      obtain ⟨op, reserved, b⟩ := r
      rw [applyRecords] at hx
      split at hx
      · cases hx
      next y hy => exact (ih hx).trans (Store.agrees_of_applyRecord hy base)

theorem Device.agrees_of_pairRing {d e : Device} {p : Nat} (he : d.pairRing p = some e) (base : Device)
    (hps : [.memsys, .vis] ⊆ parts) : base.agrees parts e ↔ base.agrees parts d := by
  simp at hps
  obtain ⟨⟨ids, f⟩, hf, rfl⟩ := Option.map_eq_some_iff.mp he
  simp [hps, Device.agrees_of_allocMany hf]

theorem Device.agrees_of_gridBuffers {d e : Device} {dies : List Nat} (he : d.gridBuffers dies = some e) (base : Device)
    (hps : [.memsys, .grid] ⊆ parts) : base.agrees parts e ↔ base.agrees parts d := by
  simp at hps
  obtain ⟨⟨ids, f⟩, hf, he⟩ := Option.bind_eq_some_iff.mp he
  refine Iff.trans ((Device.agrees_of_foldl_bind (g := id) (fun k b c hc => ?_) he).iff base) ?_
  · obtain ⟨⟨t, x⟩, hx, rfl⟩ := Option.map_eq_some_iff.mp hc
    simp [hps, Device.agrees_of_allocMany hx]
  · simp [hps, Device.agrees_of_allocMany hf]

/-- What the end of a load changes: neither the settings nor a memory (R747). -/
theorem Device.agrees_of_startProfile {d : Device} {m : Store} {flags group id : Nat} {zero : Bool} {nets : List Net}
    {units : List (Nat × Nat)} {x : Device × Store} (hx : d.startProfile m flags group id zero nets units = .ok x)
    (base : Device) (hps : [.evt, .diag, .jobs, .memsys, .vis, .grid, .slv, .loc, .map] ⊆ parts) :
    base.agrees parts x.1 ↔ base.agrees parts d := by
  simp at hps
  unfold Device.startProfile at hx
  dsimp only at hx
  split at hx
  · cases hx
  · split at hx
    · cases hx
    · split at hx
      · cases hx
      · split at hx
        · cases hx
        next e he =>
          have h1 : base.agrees parts e ↔ base.agrees parts d := by
            refine (Device.agrees_of_foldl_bind (g := fun e => e) (fun k b c hc => ?_) he).iff base
            exact (Device.agrees_of_pairRing hc b (by simp [hps])).mpr (Device.agrees_refl _ _)
          split at hx
          · cases hx
          next f hf =>
            have h2 : base.agrees parts f ↔ base.agrees parts e := by
              split at hf
              · exact Device.agrees_of_gridBuffers hf base (by simp [hps])
              · cases hf
                rfl
            split at hx
            · cases hx
            next code g hg =>
              have h3 : base.agrees parts g ↔ base.agrees parts f := by
                split at hg
                · obtain ⟨y, hy, hz⟩ := Option.map_eq_some_iff.mp hg
                  cases hz
                  exact Device.agrees_of_allocFw hy base (by simp [hps])
                · cases hg
                  rfl
              cases hx
              exact (show _ ↔ _ by simp [hps]).trans (h3.trans (h2.trans h1))

theorem Device.startProfile_mem {d : Device} {m : Store} {flags group id : Nat} {zero : Bool} {nets : List Net}
    {units : List (Nat × Nat)} {x : Device × Store} (hx : d.startProfile m flags group id zero nets units = .ok x) :
    x.2 = m := by
  unfold Device.startProfile at hx
  dsimp only at hx
  repeat' split at hx
  all_goals cases hx
  rfl

theorem Device.agrees_of_restartStream {d e : Device} {s : Nat} {f : Stream → Stream} (he : d.restartStream s f = some e)
    (base : Device) (hps : [.memsys, .ing, .vis, .grid] ⊆ parts) : base.agrees parts e ↔ base.agrees parts d := by
  simp at hps
  exact (Device.agrees_of_enableStream he base (by simp [hps])).trans (by simp [hps])

theorem Device.agrees_of_zeroStreams {d e : Device} (he : zeroStreams d = some e) (base : Device)
    (hps : [.tim, .memsys, .ing, .vis, .grid] ⊆ parts) : base.agrees parts e ↔ base.agrees parts d := by
  simp at hps
  unfold zeroStreams at he
  dsimp only at he
  split at he
  · cases he
  · obtain ⟨f, hf, he⟩ := Option.bind_eq_some_iff.mp he
    obtain ⟨g, hg, hf⟩ := Option.bind_eq_some_iff.mp hf
    refine (Device.agrees_of_restartStream he base (by simp [hps])).trans
      ((Device.agrees_of_restartStream hf base (by simp [hps])).trans
        ((Device.agrees_of_restartStream hg base (by simp [hps])).trans (by simp [hps])))

theorem Device.agrees_of_zeroVision {d e : Device} (he : zeroVision d = some e) (base : Device)
    (hps : [.jobs, .memsys, .ing, .vis] ⊆ parts) : base.agrees parts e ↔ base.agrees parts d := by
  simp at hps
  obtain ⟨⟨ids, f⟩, hf, rfl⟩ := Option.map_eq_some_iff.mp he
  simp [hps, Device.agrees_of_allocMany hf]

@[simp] theorem Device.agrees_zeroRest (base : Device) (d : Device) (hps : [.evt, .mbx, .time, .tim, .ing, .grid,
    .slv, .loc, .out, .free] ⊆ parts) : base.agrees parts (zeroRest d) ↔ base.agrees parts d := by
  simp at hps
  simp [zeroRest, hps]

theorem Device.agrees_of_loadZero {d : Device} {m : Store} {x : Device × Store} (hx : loadZero d m = .ok x)
    (base : Device) (hps : [.evt, .mbx, .diag, .time, .tim, .jobs, .memsys, .ing, .vis, .grid, .slv, .loc, .map, .out, .free] ⊆
    parts) : base.agrees parts x.1 ↔ base.agrees parts d := by
  simp at hps
  simp only [loadZero] at hx
  split at hx
  · cases hx
  next e he =>
    split at hx
    · cases hx
    next f hf =>
      exact (Device.agrees_of_startProfile hx base (by simp [hps])).trans (Iff.trans (b := base.agrees parts f)
        (by simp [hps]) ((Device.agrees_of_zeroVision hf base (by simp [hps])).trans
          (Device.agrees_of_zeroStreams he base (by simp [hps]))))

theorem loadZero_mem {d : Device} {m : Store} {x : Device × Store} (hx : loadZero d m = .ok x) : x.2 = m := by
  simp only [loadZero] at hx
  split at hx
  · cases hx
  · split at hx
    · cases hx
    · exact Device.startProfile_mem hx

theorem Device.agrees_of_loadImage {b : List Byte} {d : Device} {m : Store} {x : Device × Store}
    (hx : Machine.loadImage b d m = .ok x) (base : Device) (hps : MachinePart.loadParts ⊆ parts) :
    base.agrees parts x.1 ↔ base.agrees parts d := by
  have hl := hps
  simp [MachinePart.loadParts] at hps
  simp only [Machine.loadImage] at hx
  split at hx
  · cases hx
  · split at hx
    · cases hx
    · split at hx
      · cases hx
      · split at hx
        · cases hx
        next y hy =>
          split at hx
          · cases hx
          next z hz =>
            exact (Device.agrees_of_startProfile hx base (by simp [hps])).trans
              ((Device.agrees_of_applyRecords hz base hl).trans (Device.agrees_of_makeBufs hy base (by simp [hps])))

theorem Store.agrees_of_loadImage {b : List Byte} {d : Device} {m : Store} {x : Device × Store}
    (hx : loadImage b d m = .ok x) (base : Store) (hps : [.lp] ⊆ parts) :
    base.agrees parts x.2 ↔ base.agrees parts m := by
  simp only [Machine.loadImage] at hx
  split at hx
  · cases hx
  · split at hx
    · cases hx
    · split at hx
      · cases hx
      · split at hx
        · cases hx
        next y hy =>
          split at hx
          · cases hx
          next z hz =>
            rw [Device.startProfile_mem hx]
            exact (Store.agrees_of_applyRecords hz base).trans (Store.agrees_of_makeBufs hy base hps)

/-- A load under its handle keeps what the load itself keeps where it succeeds (R748). -/
theorem Device.agrees_loadUnder (base : Device) (h id : Nat) (d : Device) (m : Store)
    {x : Except LoadFail (Device × Store)} (hx : ∀ y, x = .ok y → d.agrees parts y.1) (hps : [.evt, .mbx] ⊆ parts) :
    base.agrees parts (loadUnder h id d m x).1 ↔ base.agrees parts d := by
  simp at hps
  unfold loadUnder
  split
  · simp [hps]
  · exact (show _ ↔ _ by simp [hps]).trans ((hx _ rfl).iff base)

theorem Store.agrees_loadUnder (base : Store) (h id : Nat) (d : Device) (m : Store)
    {x : Except LoadFail (Device × Store)} (hx : ∀ y, x = .ok y → m.agrees parts y.2) :
    base.agrees parts (loadUnder h id d m x).2 ↔ base.agrees parts m := by
  unfold loadUnder
  split
  · rfl
  · exact (hx _ rfl).iff base

@[simp] theorem Device.agrees_atReady (base : Device) (d : Device) (m : Store) (hps : [.boot, .evt, .mbx, .diag,
    .time, .tim, .jobs, .memsys, .ing, .vis, .grid, .slv, .loc, .map, .prs, .out, .sec, .free] ⊆ parts) :
    base.agrees parts (atReady d m).1 ↔ base.agrees parts d := by
  simp at hps
  have hm (d : Device) : base.agrees parts ((d.mapPools 512).getD d) ↔ base.agrees parts d := by
    cases h : d.mapPools 512 with
    | none => rfl
    | some e => exact Device.agrees_of_mapPools h base (by simp [hps])
  have hi (d : Device) : base.agrees parts ((d.newIndex 0 256 256).getD d) ↔ base.agrees parts d := by
    cases h : d.newIndex 0 256 256 with
    | none => rfl
    | some e => exact Device.agrees_of_newIndex h base (by simp [hps])
  unfold atReady
  extract_lets b d1 d2 d3 x y z d0
  have h3 : base.agrees parts d3 ↔ base.agrees parts d := by simp [d3, hi, d2, hm, d1, hps]
  have hx : base.agrees parts x.1 ↔ base.agrees parts d3 := by
    simp only [x]
    split
    · rfl
    · split
      next he => exact Device.agrees_of_loadZero he base (by simp [hps])
      · rfl
  exact (show _ ↔ _ by simp [d0, y, hps]).trans (hx.trans h3)

@[simp] theorem Store.agrees_atReady (base : Store) (d : Device) (m : Store) : base.agrees parts (atReady d m).2 ↔
    base.agrees parts m := by
  unfold atReady
  extract_lets b d1 d2 d3 x y z d0
  simp only [x]
  split
  · rfl
  · split
    next he => rw [loadZero_mem he]
    · rfl

@[simp] theorem Device.agrees_stepDone (base : Device) (d : Device) (m : Store) (hps : [.boot, .evt, .mbx, .diag,
    .time, .tim, .jobs, .memsys, .ing, .vis, .grid, .slv, .loc, .map, .prs, .out, .sec, .free] ⊆ parts) :
    base.agrees parts (stepDone d m).1 ↔ base.agrees parts d := by
  simp at hps
  simp [stepDone, hps]

@[simp] theorem Store.agrees_stepDone (base : Store) (d : Device) (m : Store) : base.agrees parts (stepDone d m).2 ↔
    base.agrees parts m := by
  simp [stepDone]

/-! ## PowerOps -/

@[simp] theorem Device.agrees_faultAll (base : Device) (d : Device) (cause source die : Nat) (ids : List Nat) (hps :
    [.evt, .diag, .jobs, .units, .clusters, .vis, .slv, .prs] ⊆ parts) : base.agrees parts (d.faultAll cause source
    die ids) ↔ base.agrees parts d := by
  simp at hps
  simp [Device.faultAll, hps]

@[simp] theorem Device.agrees_clusterLost (base : Device) (d : Device) (c : Nat) (hps : [.units, .clusters] ⊆ parts)
    : base.agrees parts (d.clusterLost c) ↔ base.agrees parts d := by
  simp at hps
  simp [Device.clusterLost, hps]

@[simp] theorem Device.agrees_searchReset (base : Device) (d : Device) (die : Nat) (hps : [.prs] ⊆ parts) :
    base.agrees parts (d.searchReset die) ↔ base.agrees parts d := by
  simp at hps
  simp [Device.searchReset, hps]

@[simp] theorem Device.agrees_domainContents (base : Device) (die dom : Nat) (d : Device) (m : Store) (hps : [.evt,
    .mbx, .units, .clusters, .sfe, .vis, .slv, .prs] ⊆ parts) : base.agrees parts (domainContents die dom d m).1 ↔
    base.agrees parts d := by
  simp at hps
  simp [domainContents, hps]

@[simp] theorem Store.agrees_domainContents (base : Store) (die dom : Nat) (d : Device) (m : Store) (hps : [.sram] ⊆
    parts) : base.agrees parts (domainContents die dom d m).2 ↔ base.agrees parts m := by
  simp at hps
  simp [domainContents, hps]

@[simp] theorem Device.agrees_domainOff (base : Device) (die dom : Nat) (d : Device) (m : Store) (hps : [.evt, .mbx,
    .diag, .jobs, .pwr, .units, .clusters, .sfe, .vis, .slv, .prs] ⊆ parts) : base.agrees parts (domainOff die dom d
    m).1 ↔ base.agrees parts d := by
  simp at hps
  simp [domainOff, hps]

@[simp] theorem Store.agrees_domainOff (base : Store) (die dom : Nat) (d : Device) (m : Store) (hps : [.sram] ⊆
    parts) : base.agrees parts (domainOff die dom d m).2 ↔ base.agrees parts m := by
  simp at hps
  simp [domainOff, hps]

@[simp] theorem Device.agrees_domainBack (base : Device) (d : Device) (die dom : Nat) (hps : [.evt, .mbx, .pwr,
    .sfe, .sec] ⊆ parts) : base.agrees parts (d.domainBack die dom) ↔ base.agrees parts d := by
  simp at hps
  simp only [Device.domainBack]
  refine (Device.agrees_foldl (fun e r => ?_) _ base _).trans ?_
  · split
    · split <;> simp [hps]
    · simp
  · split <;> simp [hps]

@[simp] theorem Device.agrees_domainReturn (base : Device) (d : Device) (die dom : Nat) (ch : Option Nat) (hps :
    [.pwr] ⊆ parts) : base.agrees parts (d.domainReturn die dom ch) ↔ base.agrees parts d := by
  simp at hps
  simp [Device.domainReturn, hps]

@[simp] theorem Device.agrees_storesDown (base : Device) (d : Device) (die : Nat) (hps : [.evt, .diag, .memsys,
    .map, .prs] ⊆ parts) : base.agrees parts (d.storesDown die) ↔ base.agrees parts d := by
  simp at hps
  cases h : d.map.pools.look die <;> simp [Device.storesDown, hps, h]

@[simp] theorem Device.agrees_interfacesDown (base : Device) (d : Device) (die : Nat) (hps : [.evt, .mbx, .time,
    .tim, .ing, .vis, .out] ⊆ parts) : base.agrees parts (d.interfacesDown die) ↔ base.agrees parts d := by
  simp at hps
  simp [Device.interfacesDown, hps]

@[simp] theorem Device.agrees_dieOff (base : Device) (die : Nat) (d : Device) (m : Store) (hps : [.evt, .mbx, .diag,
    .time, .tim, .jobs, .pwr, .units, .clusters, .memsys, .ing, .sfe, .vis, .grid, .slv, .map, .prs, .out] ⊆ parts)
    : base.agrees parts (dieOff die d m).1 ↔ base.agrees parts d := by
  simp at hps
  have h (b : Device) (x : Device × Store) : b.agrees parts ((List.range 12).foldl (fun (x : Device × Store) dom =>
      domainContents die dom x.1 x.2) x).1 ↔ b.agrees parts x.1 :=
    Device.agrees_foldl_of (g := Prod.fst) (fun x i => by simp [hps]) _ b x
  simp only [dieOff]
  simp [hps, h]

@[simp] theorem Store.agrees_dieOff (base : Store) (die : Nat) (d : Device) (m : Store) (hps : [.lp, .sram] ⊆ parts)
    : base.agrees parts (dieOff die d m).2 ↔ base.agrees parts m := by
  simp at hps
  have h (b : Store) (x : Device × Store) : b.agrees parts ((List.range 12).foldl (fun (x : Device × Store) dom =>
      domainContents die dom x.1 x.2) x).2 ↔ b.agrees parts x.2 :=
    Store.agrees_foldl_of (g := Prod.snd) (fun x i => by simp [hps]) _ b x
  simp only [dieOff]
  simp [hps, h]

@[simp] theorem Device.agrees_refreshBufs (base : Device) (d : Device) (hps : [.memsys] ⊆ parts) : base.agrees parts
    d.refreshBufs ↔ base.agrees parts d := by
  simp at hps
  simp [Device.refreshBufs, hps]

@[simp] theorem Device.agrees_storesUp (base : Device) (d : Device) (die : Nat) (hps : [.memsys, .map, .prs] ⊆
    parts) : base.agrees parts (d.storesUp die) ↔ base.agrees parts d := by
  simp at hps
  unfold Device.storesUp
  refine (Device.agrees_foldl (fun e x => ?_) _ base _).trans ?_
  · have h : e.agrees parts (match e.allocFw 1 die ((x.2.poolMib + 1) / 2) with
        | some (id, d) => { d with prs := { d.prs with indexes := d.prs.indexes.map fun y =>
            if y.1 = x.1 then (y.1, { y.2 with pools := y.2.pools.put die id }) else y } }
        | none => e) := by
      split
      next he => simp [hps, Device.agrees_of_allocFw he]
      · simp
    dsimp only
    split
    · exact h
    · split
      · exact h
      · split
        next he =>
          exact (Device.agrees_mk (by simp [hps])).mpr ((Device.agrees_of_allocFw he e (by simp [hps])).mpr h)
        · exact h
  · dsimp only
    split
    next he => simp [hps, Device.agrees_of_allocFw he]
    · rfl

@[simp] theorem Device.agrees_katUnit (base : Device) (d : Device) (phys : Nat) (hps : [.boot, .view, .evt, .units,
    .sec] ⊆ parts) : base.agrees parts (d.katUnit phys) ↔ base.agrees parts d := by
  simp at hps
  simp [Device.katUnit, hps]

@[simp] theorem Device.agrees_dieBack (base : Device) (die : Nat) (engines units : List Nat) (d : Device) (hps :
    [.boot, .view, .evt, .mbx, .diag, .pwr, .units, .memsys, .sfe, .map, .prs, .sec] ⊆ parts) : base.agrees parts
    (dieBack die engines units d) ↔ base.agrees parts d := by
  simp at hps
  simp only [dieBack]
  split <;> simp [hps]

@[simp] theorem Device.agrees_cpFault (base : Device) (d : Device) (die source : Nat) (hps : [.evt, .diag, .jobs,
    .pwr, .units, .clusters, .vis, .slv, .prs] ⊆ parts) : base.agrees parts (d.cpFault die source) ↔ base.agrees
    parts d := by
  simp at hps
  simp [Device.cpFault, hps]

@[simp] theorem Device.agrees_capEvents (base : Device) (d : Device) (old : Device) (hps : [.evt, .pwr] ⊆ parts) :
    base.agrees parts (d.capEvents old) ↔ base.agrees parts d := by
  simp at hps
  simp [Device.capEvents, hps]

@[simp] theorem Device.agrees_shutdown (base : Device) (cause die : Nat) (d : Device) (m : Store) (hps :
    MachinePart.butFuse ⊆ parts) : base.agrees parts (shutdown cause die d m).1 ↔ base.agrees parts d := by
  have h := hps
  simp [MachinePart.butFuse] at h
  simp [shutdown, h, Device.agrees_packageReset base d hps]

@[simp] theorem Store.agrees_shutdown (base : Store) (cause die : Nat) (d : Device) (m : Store) (hps : [.lp, .sram]
    ⊆ parts) : base.agrees parts (shutdown cause die d m).2 ↔ base.agrees parts m := by
  simp at hps
  simp [shutdown, hps]

/-! ## SelfTestOps -/

@[simp] theorem Device.agrees_stHold (base : Device) (d : Device) (kind job : Nat) (x : StSlice) (hps : [.clusters]
    ⊆ parts) : base.agrees parts (d.stHold kind job x) ↔ base.agrees parts d := by
  simp at hps
  unfold Device.stHold
  repeat' split
  all_goals simp [hps]

@[simp] theorem Device.agrees_stRelease (base : Device) (d : Device) (job : Nat) (hps : [.clusters] ⊆ parts) :
    base.agrees parts (d.stRelease job) ↔ base.agrees parts d := by
  simp at hps
  simp [Device.stRelease, hps]

@[simp] theorem Device.agrees_stFlush (base : Device) (d : Device) (region : Nat) (hps : [.diag, .memsys] ⊆ parts) :
    base.agrees parts (d.stFlush region) ↔ base.agrees parts d := by
  simp at hps
  simp [Device.stFlush, hps]

theorem Device.agrees_of_stSave {d e : Device} {r q : StRun} {x : StSlice} {b : Option Nat}
    (he : d.stSave r x = some (b, q, e)) (base : Device) (hps : [.memsys] ⊆ parts) :
    base.agrees parts e ↔ base.agrees parts d := by
  simp only [Device.stSave] at he
  split at he
  · cases he
    rfl
  · split at he
    · cases he
      rfl
    · obtain ⟨y, hy, hz⟩ := Option.map_eq_some_iff.mp he
      cases hz
      exact Device.agrees_of_allocFw hy base hps

@[simp] theorem Device.agrees_stRestore (base : Device) (r : StRun) (x : StSlice) (job : Nat) (d : Device) (m :
    Store) (hps : [.evt, .mbx, .diag, .jobs, .units, .clusters, .sfe, .vis, .slv, .prs] ⊆ parts) : base.agrees parts
    (stRestore r x job d m).1 ↔ base.agrees parts d := by
  simp at hps
  simp only [stRestore]
  repeat' split
  all_goals simp [hps]

@[simp] theorem Store.agrees_stRestore (base : Store) (r : StRun) (x : StSlice) (job : Nat) (d : Device) (m : Store)
    (hps : [.sram] ⊆ parts) : base.agrees parts (stRestore r x job d m).2 ↔ base.agrees parts m := by
  simp at hps
  simp only [stRestore]
  repeat' split
  all_goals simp [hps]

@[simp] theorem Device.agrees_setStRun (base : Device) (d : Device) (h : Nat) (r : StRun) (hps : [.st] ⊆ parts) :
    base.agrees parts (d.setStRun h r) ↔ base.agrees parts d := by
  simp at hps
  simp [Device.setStRun, hps]

@[simp] theorem Device.agrees_stMark (base : Device) (d : Device) (phys : Nat) (hps : [.boot, .view, .evt, .units,
    .sec] ⊆ parts) : base.agrees parts (d.stMark phys) ↔ base.agrees parts d := by
  simp at hps
  simp [Device.stMark, hps]

@[simp] theorem Device.agrees_stWithdraw (base : Device) (d : Device) (die code : Nat) (hps : [.evt, .diag, .pwr] ⊆
    parts) : base.agrees parts (d.stWithdraw die code) ↔ base.agrees parts d := by
  simp at hps
  simp [Device.stWithdraw, hps]

@[simp] theorem Device.agrees_stExcess (base : Device) (d : Device) (kind : Nat) (x : StSlice) (hps : [.boot, .view,
    .evt, .diag, .pwr, .units, .sec] ⊆ parts) : base.agrees parts (d.stExcess kind x) ↔ base.agrees parts d := by
  simp at hps
  simp [Device.stExcess, hps]

@[simp] theorem Device.agrees_stRow (base : Device) (d : Device) (die : Nat) (again : List Nat) (n bank row : Nat)
    (hps : [.boot, .view, .evt, .sec] ⊆ parts) : base.agrees parts (d.stRow die again n bank row).1 ↔ base.agrees
    parts d := by
  simp at hps
  simp [Device.stRow, hps]

@[simp] theorem Device.agrees_stRows (base : Device) (die : Nat) (again : List Nat) (ps : List (Nat × Nat)) (d : Device)
    (done : List (Nat × Nat)) (hps : [.boot, .view, .evt, .sec] ⊆ parts) :
    base.agrees parts (stRows die again ps d done).1 ↔ base.agrees parts d := by
  induction ps generalizing d done with
  | nil => rfl
  | cons p ps ih =>
    have h := Device.agrees_stRow base d die again done.length p.1 p.2 hps
    rw [stRows]
    split
    next hx =>
      rw [hx] at h
      exact (ih ..).trans h
    next hx =>
      rw [hx] at h
      exact (ih ..).trans h

@[simp] theorem Device.agrees_stMemory (base : Device) (d : Device) (r : StRun) (x : StSlice) (out : SliceOut) (hps
    : [.boot, .view, .evt, .diag, .pwr, .units, .sec, .free] ⊆ parts) : base.agrees parts (d.stMemory r x out).1 ↔
    base.agrees parts d := by
  simp at hps
  have hf (b e : Device) (g : Device → StFind → List Byte) (fs : List StFind) :
      b.agrees parts (fs.foldl (fun (a : Device × List (List Byte)) f => (a.1.tickFree, a.2 ++ [g a.1 f])) (e, [])).1 ↔
        b.agrees parts e :=
    Device.agrees_foldl_of (g := Prod.fst) (fun x i => by simp [hps]) _ b (e, [])
  have plain := hf base d (fun e f => e.stRecord x f false false) (out.finds.filter x.canFind)
  simp only [Device.stMemory]
  split
  · rfl
  · split
    · exact plain
    · split
      · exact plain
      · refine (Device.agrees_foldl_of (g := Prod.fst) (fun x i => by simp [hps]) _ base _).trans ?_
        split <;> simp [hps]

@[simp] theorem Device.agrees_stLogic (base : Device) (d : Device) (r : StRun) (x : StSlice) (out : SliceOut) (hps :
    [.boot, .view, .evt, .diag, .pwr, .units, .sec] ⊆ parts) : base.agrees parts (d.stLogic r x out).1 ↔ base.agrees
    parts d := by
  simp at hps
  simp [Device.stLogic, hps]

@[simp] theorem Device.agrees_stDue (base : Device) (d : Device) (h : Nat) (r : StRun) (hps : [.jobs, .st] ⊆ parts)
    : base.agrees parts (d.stDue h r) ↔ base.agrees parts d := by
  simp at hps
  simp only [Device.stDue]
  split
  · simp [hps]
  · split
    next he => simp [hps, Device.agrees_of_admitJob he]
    · simp [hps]

@[simp] theorem Device.agrees_stFinish (base : Device) (d : Device) (h : Nat) (r : StRun) (hps : [.evt, .mbx,
    .memsys, .st] ⊆ parts) : base.agrees parts (d.stFinish h r) ↔ base.agrees parts d := by
  simp at hps
  simp [Device.stFinish, hps]

@[simp] theorem Device.agrees_stEnd (base : Device) (d : Device) (h : Nat) (r : StRun) (outcome nfail : Nat) (hps :
    [.evt, .mbx, .diag, .jobs, .units, .clusters, .memsys, .vis, .grid, .slv, .loc, .map, .prs, .st] ⊆ parts) :
    base.agrees parts (d.stEnd h r outcome nfail) ↔ base.agrees parts d := by
  simp at hps
  unfold Device.stEnd
  split <;> simp [hps]

@[simp] theorem Device.agrees_stCancel (base : Device) (d : Device) (h : Nat) (hps : [.evt, .mbx, .diag, .jobs,
    .units, .clusters, .memsys, .vis, .grid, .slv, .loc, .map, .prs, .st] ⊆ parts) : base.agrees parts (d.stCancel
    h) ↔ base.agrees parts d := by
  simp at hps
  unfold Device.stCancel
  split <;> simp [hps]

/-! ## SelfTest -/

theorem Device.agrees_of_stSaves {kind : Nat} {xs : List StSlice} {ks : List Nat} {d e : Device} {t u : Tbl Nat}
    (he : stSaves kind xs ks d t = some (u, e)) (base : Device) (hps : [.memsys] ⊆ parts) :
    base.agrees parts e ↔ base.agrees parts d := by
  induction ks generalizing d t with
  | nil =>
    cases he
    rfl
  | cons k ks ih =>
    simp only [stSaves] at he
    split at he
    · exact ih he
    · split at he
      next hf => exact (ih he).trans (Device.agrees_of_allocFw hf base hps)
      · cases he

@[simp] theorem Device.agrees_stRunCmd (base : Device) (ch : Nat) (r : Request) (d : Device) (hps : [.evt, .mbx,
    .jobs, .memsys, .st] ⊆ parts) : base.agrees parts (stRunCmd ch r d).1 ↔ base.agrees parts d := by
  simp at hps
  unfold stRunCmd
  dsimp only
  repeat' split
  all_goals simp [hps]
  all_goals simp [hps, Device.agrees_of_stSaves ‹stSaves .. = some _›]

@[simp] theorem Device.agrees_stBegin (base : Device) (h job : Nat) (r : StRun) (x : StSlice) (d : Device) (m :
    Store) (hps : [.diag, .jobs, .clusters, .memsys, .st, .free] ⊆ parts) : base.agrees parts (stBegin h job r x d
    m).1 ↔ base.agrees parts d := by
  simp at hps
  unfold stBegin
  split
  · rfl
  next he =>
    refine Iff.trans ?_ (Device.agrees_of_stSave he base (by simp [hps]))
    dsimp only
    split <;> split <;> split <;> simp [hps]

@[simp] theorem Store.agrees_stBegin (base : Store) (h job : Nat) (r : StRun) (x : StSlice) (d : Device) (m : Store)
    (hps : [.lp] ⊆ parts) : base.agrees parts (stBegin h job r x d m).2 ↔ base.agrees parts m := by
  simp at hps
  unfold stBegin
  split
  · rfl
  · dsimp only
    split <;> simp [hps]

@[simp] theorem Device.agrees_stStart (base : Device) (h : Nat) (d : Device) (m : Store) (hps : [.evt, .mbx, .diag,
    .jobs, .units, .clusters, .memsys, .vis, .grid, .slv, .loc, .map, .prs, .st, .free] ⊆ parts) : base.agrees parts
    (stStart h d m).1 ↔ base.agrees parts d := by
  simp at hps
  unfold stStart
  repeat' split
  all_goals simp [hps]

@[simp] theorem Store.agrees_stStart (base : Store) (h : Nat) (d : Device) (m : Store) (hps : [.lp] ⊆ parts) :
    base.agrees parts (stStart h d m).2 ↔ base.agrees parts m := by
  simp at hps
  unfold stStart
  repeat' split
  all_goals simp [hps]

@[simp] theorem Device.agrees_stVoid (base : Device) (h job : Nat) (r : StRun) (x : StSlice) (d : Device) (m :
    Store) (hps : [.evt, .mbx, .diag, .jobs, .units, .clusters, .memsys, .sfe, .vis, .grid, .slv, .loc, .map, .prs,
    .st] ⊆ parts) : base.agrees parts (stVoid h job r x d m).1 ↔ base.agrees parts d := by
  simp at hps
  unfold stVoid
  dsimp only
  split
  · simp [hps]
  · split <;> simp [hps]

@[simp] theorem Store.agrees_stVoid (base : Store) (h job : Nat) (r : StRun) (x : StSlice) (d : Device) (m : Store)
    (hps : [.sram] ⊆ parts) : base.agrees parts (stVoid h job r x d m).2 ↔ base.agrees parts m := by
  simp at hps
  simp [stVoid, hps]

@[simp] theorem Device.agrees_stSliceEnd (base : Device) (h : Nat) (out : SliceOut) (d : Device) (m : Store) (hps :
    [.boot, .view, .evt, .mbx, .diag, .jobs, .pwr, .units, .clusters, .memsys, .sfe, .vis, .grid, .slv, .loc, .map,
    .prs, .st, .sec, .free] ⊆ parts) : base.agrees parts (stSliceEnd h out d m).1 ↔ base.agrees parts d := by
  simp at hps
  unfold stSliceEnd
  split <;> simp [hps]

@[simp] theorem Store.agrees_stSliceEnd (base : Store) (h : Nat) (out : SliceOut) (d : Device) (m : Store) (hps :
    [.sram] ⊆ parts) : base.agrees parts (stSliceEnd h out d m).2 ↔ base.agrees parts m := by
  simp at hps
  unfold stSliceEnd
  split <;> simp [hps]

@[simp] theorem Device.agrees_stTimeout (base : Device) (h : Nat) (d : Device) (m : Store) (hps : [.boot, .view,
    .evt, .mbx, .diag, .time, .jobs, .pwr, .units, .clusters, .memsys, .sfe, .vis, .grid, .slv, .loc, .map, .prs,
    .st, .sec] ⊆ parts) : base.agrees parts (stTimeout h d m).1 ↔ base.agrees parts d := by
  simp at hps
  unfold stTimeout
  split <;> simp [hps]

@[simp] theorem Store.agrees_stTimeout (base : Store) (h : Nat) (d : Device) (m : Store) (hps : [.sram] ⊆ parts) :
    base.agrees parts (stTimeout h d m).2 ↔ base.agrees parts m := by
  simp at hps
  unfold stTimeout
  split <;> simp [hps]

@[simp] theorem Device.agrees_stRestart (base : Device) (id : Nat) (j : Job) (d : Device) (m : Store) (hps : [.evt,
    .mbx, .diag, .jobs, .units, .clusters, .memsys, .sfe, .vis, .grid, .slv, .loc, .map, .prs, .st] ⊆ parts) :
    base.agrees parts (stRestart id j d m).1 ↔ base.agrees parts d := by
  simp at hps
  simp only [stRestart]
  repeat' split
  all_goals simp [hps]

@[simp] theorem Store.agrees_stRestart (base : Store) (id : Nat) (j : Job) (d : Device) (m : Store) (hps : [.sram] ⊆
    parts) : base.agrees parts (stRestart id j d m).2 ↔ base.agrees parts m := by
  simp at hps
  simp only [stRestart]
  repeat' split
  all_goals simp [hps]

@[simp] theorem Device.agrees_fuseNext (base : Device) (d : Device) (f : Fusing) (hps : [.evt, .mbx, .st] ⊆ parts) :
    base.agrees parts (d.fuseNext f) ↔ base.agrees parts d := by
  simp at hps
  simp [Device.fuseNext, hps]

@[simp] theorem Device.agrees_stFuseCmd (base : Device) (ch : Nat) (r : Request) (d : Device) (hps : [.evt, .mbx,
    .st] ⊆ parts) : base.agrees parts (stFuseCmd ch r d).1 ↔ base.agrees parts d := by
  simp at hps
  simp [stFuseCmd, hps]

end Sys2Proof.Machine
end

section
/-! SUPPORT. . -/

namespace Sys2Proof.Machine

variable {parts : List MachinePart}

/-! ## Cancel -/

theorem Setting.agrees_of_outcome {t : Setting} (ht : t ∈ settings) {r : Request} {d : Device} {m : Store}
    {x : (Device × Store) × Reply} (hx : t.outcome r d m = some x) (base : Device)
    (hps : MachinePart.settingParts ⊆ parts) : base.agrees parts x.1.1 ↔ base.agrees parts d := by
  have hb := Setting.agrees_body ht r base d m hps
  simp [MachinePart.settingParts] at hps
  unfold Setting.outcome at hx
  split at hx
  · split at hx
    · cases hx
      rfl
    · split at hx
      · cases hx
        exact hb
      · split at hx
        · cases hx
        · cases hx
          split
          · exact (Device.agrees_locCold base _ (by simp [hps])).trans hb
          · exact hb
  · cases hx
    exact hb

theorem Setting.store_agrees_of_outcome {t : Setting} (ht : t ∈ settings) {r : Request} {d : Device} {m : Store}
    {x : (Device × Store) × Reply} (hx : t.outcome r d m = some x) (base : Store) :
    base.agrees parts x.1.2 ↔ base.agrees parts m := by
  have hb := Setting.store_agrees_body (parts := parts) ht r base d m
  unfold Setting.outcome at hx
  split at hx
  · split at hx
    · cases hx
      rfl
    · split at hx
      · cases hx
        exact hb
      · split at hx
        · cases hx
        · cases hx
          split <;> exact hb
  · cases hx
    exact hb

/-- The parts of the device that a resumed setting changes, with its answer (R748). -/
def MachinePart.resumeParts : List MachinePart := .jobs :: .sec :: MachinePart.settingParts

theorem Device.agrees_resumeOne (base : Device) (ch : Nat) (d : Device) (m : Store)
    (hps : MachinePart.resumeParts ⊆ parts) : base.agrees parts (resumeOne ch d m).1 ↔ base.agrees parts d := by
  have hs : MachinePart.settingParts ⊆ parts := fun p hp => hps (by simp [MachinePart.resumeParts, hp])
  simp [MachinePart.resumeParts, MachinePart.settingParts] at hps
  unfold resumeOne
  split
  · rfl
  · split
    next ht =>
      split
      next hx =>
        have h := Setting.agrees_of_outcome (List.mem_of_find?_eq_some ht) hx base hs
        simpa [hps] using h
      · rfl
    · rfl

@[simp] theorem Store.agrees_resumeOne (base : Store) (ch : Nat) (d : Device) (m : Store) :
    base.agrees parts (resumeOne ch d m).2 ↔ base.agrees parts m := by
  unfold resumeOne
  split
  · rfl
  · split
    next ht =>
      split
      next hx => exact Setting.store_agrees_of_outcome (List.mem_of_find?_eq_some ht) hx base
      · rfl
    · rfl

theorem Device.agrees_resumeAll (base : Device) (d : Device) (m : Store)
    (hps : MachinePart.resumeParts ⊆ parts) : base.agrees parts (resumeAll d m).1 ↔ base.agrees parts d := by
  have h := hps
  simp [MachinePart.resumeParts, MachinePart.settingParts] at h
  unfold resumeAll
  split
  · rfl
  · refine (Device.agrees_foldl_of (g := Prod.fst) (fun x i => ?_) _ base _).trans (by simp [h])
    exact (Device.agrees_resumeOne _ i x.1 x.2 hps).mpr (Device.agrees_refl _ _)

@[simp] theorem Store.agrees_resumeAll (base : Store) (d : Device) (m : Store) : base.agrees parts (resumeAll d m).2
    ↔ base.agrees parts m := by
  unfold resumeAll
  split
  · rfl
  · exact Store.agrees_foldl_of (g := Prod.snd) (fun x i => by simp) _ base _

@[simp] theorem Device.agrees_markCancel (base : Device) (d : Device) (h : Nat) (hps : [.sfe, .out, .st] ⊆ parts) :
    base.agrees parts (d.markCancel h) ↔ base.agrees parts d := by
  simp at hps
  simp [Device.markCancel, hps]

@[simp] theorem Device.agrees_cancelHandle (base : Device) (h : Nat) (d : Device) (m : Store) (hps : [.evt, .mbx,
    .diag, .jobs, .units, .clusters, .memsys, .sfe, .vis, .grid, .slv, .loc, .map, .prs, .out, .st] ⊆ parts) :
    base.agrees parts (cancelHandle h d m).1 ↔ base.agrees parts d := by
  simp at hps
  simp only [cancelHandle]
  repeat' split
  all_goals simp [hps]

@[simp] theorem Store.agrees_cancelHandle (base : Store) (h : Nat) (d : Device) (m : Store) (hps : [.lp] ⊆ parts) :
    base.agrees parts (cancelHandle h d m).2 ↔ base.agrees parts m := by
  simp at hps
  simp only [cancelHandle]
  repeat' split
  all_goals simp [hps]

/-! ## Sensors -/

@[simp] theorem Device.agrees_enqueue (base : Device) (d : Device) (p : Nat) (upper : Bool) (f : List Byte) (hps :
    [.ing] ⊆ parts) : base.agrees parts (d.enqueue p upper f) ↔ base.agrees parts d := by
  simp at hps
  simp [Device.enqueue, hps]

@[simp] theorem Device.agrees_openSweep (base : Device) (d : Device) (s k : Nat) (hps : [.ing] ⊆ parts) :
    base.agrees parts (d.openSweep s k) ↔ base.agrees parts d := by
  simp at hps
  simp [Device.openSweep, hps]

@[simp] theorem Device.agrees_closeSweep (base : Device) (s : Nat) (d : Device) (m : Store) (hps : [.evt, .memsys,
    .ing] ⊆ parts) : base.agrees parts (closeSweep s d m).1 ↔ base.agrees parts d := by
  simp at hps
  unfold closeSweep
  extract_lets l d0 y
  have h0 : base.agrees parts d0 ↔ base.agrees parts d := by
    simp only [d0]
    simp [hps]
  clear_value d0
  split
  next w o _ _ =>
    extract_lets d1 start dts flags x seq h
    have h1 : base.agrees parts d1 ↔ base.agrees parts d := by
      simp only [d1]
      simp [hps, h0]
    clear_value h seq dts d1
    split
    · simp [hps, h0]
    · simp [hps, h1]
  · rfl

@[simp] theorem Store.agrees_closeSweep (base : Store) (s : Nat) (d : Device) (m : Store) (hps : [.lp] ⊆ parts) :
    base.agrees parts (closeSweep s d m).2 ↔ base.agrees parts m := by
  simp at hps
  unfold closeSweep
  extract_lets
  split
  · extract_lets
    split <;> simp [hps]
  · rfl

@[simp] theorem Device.agrees_reachSweep (base : Device) (s k n : Nat) (d : Device) (m : Store)
    (hps : [.evt, .memsys, .ing] ⊆ parts) : base.agrees parts (reachSweep s k n d m).1 ↔ base.agrees parts d := by
  simp at hps
  induction n generalizing d m with
  | zero => rfl
  | succ n ih =>
    simp only [reachSweep]
    split
    · simp [hps]
    · split
      · simp [hps, ih]
      · rfl

@[simp] theorem Store.agrees_reachSweep (base : Store) (s k n : Nat) (d : Device) (m : Store) (hps : [.lp] ⊆ parts) :
    base.agrees parts (reachSweep s k n d m).2 ↔ base.agrees parts m := by
  simp at hps
  induction n generalizing d m with
  | zero => rfl
  | succ n ih =>
    simp only [reachSweep]
    split
    · rfl
    · split
      · simp [hps, ih]
      · rfl

@[simp] theorem Device.agrees_lidarTake (base : Device) (d : Device) (die : Nat) (hps : [.ing] ⊆ parts) :
    base.agrees parts (d.lidarTake die) ↔ base.agrees parts d := by
  simp at hps
  simp [Device.lidarTake, hps]

@[simp] theorem Device.agrees_placePoint (base : Device) (die s i time : Nat) (bs : List Byte) (d : Device) (m :
    Store) (hps : [.evt, .memsys, .ing] ⊆ parts) : base.agrees parts (placePoint die s i time bs d m).1 ↔
    base.agrees parts d := by
  simp at hps
  unfold placePoint
  dsimp only
  split
  · simp [hps]
  · split
    · simp [hps]
    · split
      · simp [hps]
      · split
        · simp [hps]
        · split
          · simp [hps]
          · split
            · simp [hps]
            · split <;> simp [hps]

@[simp] theorem Store.agrees_placePoint (base : Store) (die s i time : Nat) (bs : List Byte) (d : Device) (m :
    Store) (hps : [.lp] ⊆ parts) : base.agrees parts (placePoint die s i time bs d m).2 ↔ base.agrees parts m := by
  simp at hps
  unfold placePoint
  dsimp only
  split
  · simp
  · split
    · simp [hps]
    · split
      · simp [hps]
      · split
        · simp [hps]
        · split
          · simp [hps]
          · split
            · simp [hps]
            · split <;> simp [hps]

@[simp] theorem Device.agrees_placePoints (base : Device) (die s pt : Nat) (l : Lidar) (payload : List Byte) (n i : Nat)
    (d : Device) (m : Store) (hps : [.evt, .memsys, .ing] ⊆ parts) :
    base.agrees parts (placePoints die s pt l payload n i d m).1 ↔ base.agrees parts d := by
  induction n generalizing i d m with
  | zero => rfl
  | succ n ih =>
    rw [placePoints]
    exact (ih ..).trans (Device.agrees_placePoint _ _ _ _ _ _ _ _ hps)

@[simp] theorem Store.agrees_placePoints (base : Store) (die s pt : Nat) (l : Lidar) (payload : List Byte) (n i : Nat)
    (d : Device) (m : Store) (hps : [.lp] ⊆ parts) :
    base.agrees parts (placePoints die s pt l payload n i d m).2 ↔ base.agrees parts m := by
  induction n generalizing i d m with
  | zero => rfl
  | succ n ih =>
    rw [placePoints]
    exact (ih ..).trans (Store.agrees_placePoint _ _ _ _ _ _ _ _ hps)

@[simp] theorem Device.agrees_lidarDatagram (base : Device) (p s : Nat) (payload : List Byte) (d : Device) (m :
    Store) (hps : [.evt, .memsys, .ing] ⊆ parts) : base.agrees parts (lidarDatagram p s payload d m).1 ↔ base.agrees
    parts d := by
  simp at hps
  simp only [lidarDatagram]
  split
  · simp [hps]
  · split <;> simp [hps]

@[simp] theorem Store.agrees_lidarDatagram (base : Store) (p s : Nat) (payload : List Byte) (d : Device) (m : Store)
    (hps : [.lp] ⊆ parts) : base.agrees parts (lidarDatagram p s payload d m).2 ↔ base.agrees parts m := by
  simp at hps
  simp only [lidarDatagram]
  split
  · rfl
  · split <;> simp [hps]

@[simp] theorem Device.agrees_stepSweeps (base : Device) (d : Device) (m : Store) (hps : [.evt, .memsys, .ing] ⊆
    parts) : base.agrees parts (stepSweeps d m).1 ↔ base.agrees parts d := by
  simp at hps
  refine Device.agrees_foldl_of (g := Prod.fst) (fun x i => ?_) _ base (d, m)
  dsimp only
  split <;> simp [hps]

@[simp] theorem Store.agrees_stepSweeps (base : Store) (d : Device) (m : Store) (hps : [.lp] ⊆ parts) : base.agrees
    parts (stepSweeps d m).2 ↔ base.agrees parts m := by
  simp at hps
  refine Store.agrees_foldl_of (g := Prod.snd) (fun x i => ?_) _ base (d, m)
  dsimp only
  split <;> simp [hps]

@[simp] theorem Device.agrees_offerFrame (base : Device) (p : Nat) (own : Bool) (f : List Byte) (x : EthInfo) (u :
    Option Udp) (d : Device) (m : Store) (hps : [.evt, .mbx, .memsys, .ing] ⊆ parts) : base.agrees parts (offerFrame
    p own f x u d m).1.1 ↔ base.agrees parts d := by
  simp at hps
  unfold offerFrame
  dsimp only
  split
  · simp [hps]
  · split
    · simp [hps]
    · split
      · simp [hps]
      · split
        · rfl
        · split
          · split
            next hr => exact Device.agrees_of_bulkPacket hr base (by simp [hps])
            · simp [hps]
          · split
            · simp [hps]
            · rfl

@[simp] theorem Store.agrees_offerFrame (base : Store) (p : Nat) (own : Bool) (f : List Byte) (x : EthInfo) (u :
    Option Udp) (d : Device) (m : Store) (hps : [.lp] ⊆ parts) : base.agrees parts (offerFrame p own f x u d m).1.2
    ↔ base.agrees parts m := by
  simp at hps
  unfold offerFrame
  dsimp only
  split
  · rfl
  · split
    · rfl
    · split
      · rfl
      · split
        · rfl
        · split
          · split
            next hr => exact Store.agrees_of_bulkPacket hr base (by simp [hps])
            · rfl
          · split
            · simp [hps]
            · rfl

/-! ## TimeStep -/

@[simp] theorem Device.agrees_stepPairs (base : Device) (d : Device) (hps : [.ing] ⊆ parts) : base.agrees parts
    d.stepPairs ↔ base.agrees parts d := by
  simp at hps
  refine Device.agrees_foldl (fun e p => ?_) _ base d
  dsimp only
  split <;> split <;> simp [hps]

@[simp] theorem Device.agrees_stepEstimates (base : Device) (d : Device) (size : Int) (hps : [.vis, .grid, .loc] ⊆
    parts) : base.agrees parts (d.stepEstimates size) ↔ base.agrees parts d := by
  simp at hps
  simp [Device.stepEstimates, hps]

@[simp] theorem Device.agrees_stepAll (base : Device) (p : PendingStep) (d : Device) (m : Store) (hps : [.evt,
    .diag, .time, .tim, .jobs, .units, .clusters, .memsys, .ing, .sfe, .vis, .grid, .slv, .loc, .prs] ⊆ parts) :
    base.agrees parts (stepAll p d m).1 ↔ base.agrees parts d := by
  simp at hps
  simp [stepAll, hps]

@[simp] theorem Store.agrees_stepAll (base : Store) (p : PendingStep) (d : Device) (m : Store) (hps : [.lp] ⊆ parts)
    : base.agrees parts (stepAll p d m).2 ↔ base.agrees parts m := by
  simp at hps
  simp [stepAll, hps]

/-! ## Tick -/

@[simp] theorem Device.agrees_discardTick (base : Device) (d : Device) (id : Nat) (hps : [.evt, .mbx, .diag, .jobs,
    .units, .clusters, .memsys, .vis, .grid, .slv, .loc, .map, .prs] ⊆ parts) : base.agrees parts (d.discardTick id)
    ↔ base.agrees parts d := by
  simp at hps
  unfold Device.discardTick
  split <;> simp [hps]

@[simp] theorem Device.agrees_admitTick (base : Device) (d : Device) (e : Nat) (hps : [.jobs, .memsys, .grid, .map]
    ⊆ parts) : base.agrees parts (d.admitTick e) ↔ base.agrees parts d := by
  simp at hps
  unfold Device.admitTick
  dsimp only
  split
  · rfl
  next hg =>
    split
    · rfl
    next hj => simp [hps, Device.agrees_of_admitJob hj, Device.agrees_of_allocSnaps hg]

@[simp] theorem Device.agrees_tickEdge (base : Device) (d : Device) (e : Nat) (hps : [.evt, .mbx, .diag, .jobs,
    .units, .clusters, .memsys, .vis, .grid, .slv, .loc, .map, .prs] ⊆ parts) : base.agrees parts (d.tickEdge e) ↔
    base.agrees parts d := by
  simp at hps
  simp only [Device.tickEdge]
  repeat' split
  all_goals simp [hps]

/-! ## LocTick -/

@[simp] theorem Device.agrees_admitLoop (base : Device) (d : Device) (w : JobWork) (arg : List Byte) (hps : [.evt,
    .mbx, .diag, .jobs, .units, .clusters, .memsys, .vis, .grid, .slv, .loc, .map, .prs] ⊆ parts) : base.agrees
    parts (d.admitLoop w arg) ↔ base.agrees parts d := by
  simp at hps
  unfold Device.admitLoop
  extract_lets old d1 l d2 b j
  have h2 : base.agrees parts d2 ↔ base.agrees parts d := by simp [d2, d1, hps]
  cases h : d2.admitJob j with
  | none => simpa [h] using h2
  | some x => simpa [h] using (Device.agrees_of_admitJob h base (by simp [hps])).trans h2

@[simp] theorem Device.agrees_admitReloc (base : Device) (d : Device) (stamp : BitVec 128) (code : List Byte) (hps :
    [.evt, .mbx, .diag, .jobs, .units, .clusters, .memsys, .vis, .grid, .slv, .loc, .map, .prs] ⊆ parts) :
    base.agrees parts (d.admitReloc stamp code) ↔ base.agrees parts d := by
  simp at hps
  simp [Device.admitReloc, hps]

theorem Device.agrees_of_makeObject {d e : Device} {kind id : Nat} {body : List Byte}
    (he : d.makeObject kind body = some (id, e)) (base : Device) (hps : [.map] ⊆ parts) :
    base.agrees parts e ↔ base.agrees parts d := by
  obtain ⟨f, hf, hz⟩ := Option.map_eq_some_iff.mp he
  cases hz
  exact (Device.agrees_of_mapCreate hf base hps).trans (Device.agrees_issueId base d hps)

theorem Device.agrees_of_landmarkOf {d e : Device} {session kf id : Nat} {x : InlierOut}
    (he : d.landmarkOf session kf x = some (id, e)) (base : Device) (hps : [.diag, .loc, .map] ⊆ parts) :
    base.agrees parts e ↔ base.agrees parts d := by
  simp at hps
  unfold Device.landmarkOf at he
  split at he
  · cases he
    simp [hps]
  · obtain ⟨⟨i, f⟩, hf, hz⟩ := Option.map_eq_some_iff.mp he
    cases hz
    simp [hps, Device.agrees_of_makeObject hf]

theorem Device.agrees_of_observe {d e : Device} {session kf : Nat} {xs : List InlierOut} {b : List Byte}
    (he : d.observe session kf xs = some (b, e)) (base : Device) (hps : [.diag, .loc, .map] ⊆ parts) :
    base.agrees parts e ↔ base.agrees parts d := by
  induction xs generalizing d b with
  | nil =>
    cases he
    rfl
  | cons x xs ih =>
    obtain ⟨⟨id, f⟩, hf, hz⟩ := Option.bind_eq_some_iff.mp he
    obtain ⟨⟨b', g⟩, hg, hz⟩ := Option.map_eq_some_iff.mp hz
    cases hz
    exact (ih hg).trans (Device.agrees_of_landmarkOf hf base hps)

theorem Device.agrees_of_indexKf {d e : Device} {kf : Nat} {code : List Byte} (he : d.indexKf kf code = some e)
    (base : Device) (hps : [.diag, .prs] ⊆ parts) : base.agrees parts e ↔ base.agrees parts d := by
  simp at hps
  unfold Device.indexKf at he
  dsimp only at he
  repeat' split at he
  all_goals cases he
  simp [hps]

theorem Device.agrees_of_makeKeyframe {d e : Device} {session kf : Nat} {stamp : BitVec 128} {w : WinState} {x : TickOut}
    (he : d.makeKeyframe session stamp w x = some (kf, e)) (base : Device) (hps : [.diag, .loc, .map, .prs] ⊆ parts) :
    base.agrees parts e ↔ base.agrees parts d := by
  simp at hps
  obtain ⟨⟨obs, f⟩, hf, he⟩ := Option.bind_eq_some_iff.mp he
  obtain ⟨g, hg, he⟩ := Option.bind_eq_some_iff.mp he
  obtain ⟨k, hk, he⟩ := Option.bind_eq_some_iff.mp he
  obtain ⟨l, hl, hz⟩ := Option.map_eq_some_iff.mp he
  cases hz
  have hk : base.agrees parts k ↔ base.agrees parts g := by
    split at hk
    · cases hk
      rfl
    · split at hk
      · cases hk
        rfl
      · obtain ⟨y, hy, hz⟩ := Option.map_eq_some_iff.mp hk
        cases hz
        exact Device.agrees_of_makeObject hy base (by simp [hps])
  refine (Device.agrees_of_indexKf hl base (by simp [hps])).trans (hk.trans
    ((Device.agrees_of_mapCreate hg base (by simp [hps])).trans
      ((Device.agrees_of_observe hf base (by simp [hps])).trans (by simp [hps]))))

@[simp] theorem Device.agrees_keyframe (base : Device) (d : Device) (stamp : BitVec 128) (w : WinState) (x :
    TickOut) (hps : [.diag, .loc, .map, .prs] ⊆ parts) : base.agrees parts (d.keyframe stamp w x).1 ↔ base.agrees
    parts d := by
  simp at hps
  unfold Device.keyframe
  split
  · rfl
  · split
    · simp [hps]
    next hk => simp [hps, Device.agrees_of_makeKeyframe hk]

@[simp] theorem Device.agrees_moveLater (base : Device) (d : Device) (c : Correction) (hps : [.diag, .map] ⊆ parts)
    : base.agrees parts (d.moveLater c) ↔ base.agrees parts d := by
  simp at hps
  unfold Device.moveLater
  split <;> simp [hps]

@[simp] theorem Device.agrees_applyCorrection (base : Device) (d : Device) (c : Correction) (hps : [.slv, .loc] ⊆
    parts) : base.agrees parts (d.applyCorrection c) ↔ base.agrees parts d := by
  simp at hps
  simp [Device.applyCorrection, hps]

@[simp] theorem Device.agrees_takeCov (base : Device) (d : Device) (x : TickOut) (iter : Nat) (q : Quat) (hps :
    [.loc] ⊆ parts) : base.agrees parts (d.takeCov x iter q) ↔ base.agrees parts d := by
  simp at hps
  simp [Device.takeCov, hps]

@[simp] theorem Device.agrees_anchor (base : Device) (d : Device) (w : WinState) (hps : [.slv] ⊆ parts) :
    base.agrees parts (d.anchor w) ↔ base.agrees parts d := by
  simp at hps
  simp [Device.anchor, hps]

@[simp] theorem Device.agrees_tickKeyframe (base : Device) (d : Device) (stamp : BitVec 128) (w : WinState) (x :
    TickOut) (hps : [.diag, .loc, .map, .prs] ⊆ parts) : base.agrees parts (d.tickKeyframe stamp w x).1 ↔
    base.agrees parts d := by
  simp at hps
  simp [Device.tickKeyframe, hps]

@[simp] theorem Device.agrees_firstCommit (base : Device) (d : Device) (stamp : BitVec 128) (hps : [.diag, .map] ⊆
    parts) : base.agrees parts (d.firstCommit stamp).1 ↔ base.agrees parts d := by
  simp at hps
  unfold Device.firstCommit
  split <;> simp [hps]

@[simp] theorem Device.agrees_trackCommit (base : Device) (d : Device) (order : Nat) (stamp : BitVec 128) (x :
    TickOut) (solve : Option (Nat × Nat)) (hps : [.evt, .diag, .slv, .loc, .map, .prs] ⊆ parts) : base.agrees parts
    (d.trackCommit order stamp x solve).1 ↔ base.agrees parts d := by
  simp at hps
  simp [Device.trackCommit, hps]

@[simp] theorem Device.agrees_openTracking (base : Device) (d : Device) (stamp : BitVec 128) (x : TickOut) (iter :
    Nat) (hps : [.evt, .diag, .slv, .loc, .map, .prs] ⊆ parts) : base.agrees parts (d.openTracking stamp x iter).1 ↔
    base.agrees parts d := by
  simp at hps
  simp [Device.openTracking, hps]

@[simp] theorem Device.agrees_initCommit (base : Device) (d : Device) (stamp : BitVec 128) (x : TickOut) (solve :
    Option (Nat × Nat)) (hps : [.evt, .mbx, .diag, .jobs, .units, .clusters, .memsys, .vis, .grid, .slv, .loc, .map,
    .prs] ⊆ parts) : base.agrees parts (d.initCommit stamp x solve).1 ↔ base.agrees parts d := by
  simp at hps
  simp only [Device.initCommit]
  split <;> simp [hps]

@[simp] theorem Device.agrees_lostCommit (base : Device) (d : Device) (stamp : BitVec 128) (x : TickOut) (hps :
    [.evt, .mbx, .diag, .jobs, .units, .clusters, .memsys, .vis, .grid, .slv, .loc, .map, .prs] ⊆ parts) :
    base.agrees parts (d.lostCommit stamp x).1 ↔ base.agrees parts d := by
  simp at hps
  simp [Device.lostCommit, hps]

@[simp] theorem Device.agrees_publishCommit (base : Device) (d : Device) (stamp : BitVec 128) (w : WinState) (flags
    : Nat) (hps : [.evt, .mbx, .loc, .out] ⊆ parts) : base.agrees parts (d.publishCommit stamp w flags) ↔
    base.agrees parts d := by
  simp at hps
  simp [Device.publishCommit, hps]

@[simp] theorem Device.agrees_locCommit (base : Device) (d : Device) (id : Nat) (j : Job) (stamp : BitVec 128)
    (solve : Option (Nat × Nat)) (x : TickOut) (hps : [.evt, .mbx, .diag, .jobs, .units, .clusters, .memsys, .vis,
    .grid, .slv, .loc, .map, .prs, .out] ⊆ parts) : base.agrees parts (d.locCommit id j stamp solve x) ↔ base.agrees
    parts d := by
  simp at hps
  simp only [Device.locCommit]
  repeat' split
  all_goals simp [hps]

/-! ## GridTick -/

@[simp] theorem Device.agrees_countLifted (base : Device) (d : Device) (xs : List (Nat × Nat)) (hps : [.diag, .grid]
    ⊆ parts) : base.agrees parts (d.countLifted xs) ↔ base.agrees parts d := by
  simp at hps
  simp [Device.countLifted, hps]

@[simp] theorem Device.agrees_writeLayer (base : Device) (stamp : BitVec 128) (flags : Nat) (mv : Moved) (d :
    Device) (m : Store) (hps : [.evt, .mbx, .memsys, .grid, .out] ⊆ parts) : base.agrees parts (writeLayer stamp
    flags mv d m).1 ↔ base.agrees parts d := by
  simp at hps
  simp [writeLayer, hps]

@[simp] theorem Store.agrees_writeLayer (base : Store) (stamp : BitVec 128) (flags : Nat) (mv : Moved) (d : Device)
    (m : Store) (hps : [.lp] ⊆ parts) : base.agrees parts (writeLayer stamp flags mv d m).2 ↔ base.agrees parts m := by
  simp at hps
  simp [writeLayer, hps]

@[simp] theorem Device.agrees_gridCommit (base : Device) (id : Nat) (j : Job) (stamp : BitVec 128) (x : TickOut) (d
    : Device) (m : Store) (hps : [.evt, .mbx, .diag, .memsys, .grid, .map, .out] ⊆ parts) : base.agrees parts
    (gridCommit id j stamp x d m).1 ↔ base.agrees parts d := by
  simp at hps
  simp [gridCommit, hps]

@[simp] theorem Store.agrees_gridCommit (base : Store) (id : Nat) (j : Job) (stamp : BitVec 128) (x : TickOut) (d :
    Device) (m : Store) (hps : [.lp] ⊆ parts) : base.agrees parts (gridCommit id j stamp x d m).2 ↔ base.agrees
    parts m := by
  simp at hps
  simp [gridCommit, hps]

@[simp] theorem Device.agrees_flushCells (base : Device) (d : Device) (hps : [.diag, .map] ⊆ parts) : base.agrees
    parts d.flushCells ↔ base.agrees parts d := by
  simp at hps
  simp [Device.flushCells, hps]

@[simp] theorem Device.agrees_formDisparity (base : Device) (d : Device) (hps : [.evt, .mbx, .out] ⊆ parts) :
    base.agrees parts d.formDisparity ↔ base.agrees parts d := by
  simp at hps
  refine Device.agrees_foldl (fun e p => ?_) _ base d
  dsimp only
  split
  · simp
  · simp [hps]

@[simp] theorem Device.agrees_formTracks (base : Device) (d : Device) (stamp : BitVec 128) (streams : List Nat) (hps
    : [.evt, .mbx, .out] ⊆ parts) : base.agrees parts (d.formTracks stamp streams) ↔ base.agrees parts d := by
  simp at hps
  simp [Device.formTracks, hps]

/-! ## Commit -/

@[simp] theorem Device.agrees_sendExport (base : Device) (d : Device) (id : Nat) (j : Job) (hps : [.evt, .mbx, .out]
    ⊆ parts) : base.agrees parts (d.sendExport id j) ↔ base.agrees parts d := by
  simp at hps
  unfold Device.sendExport
  split <;> simp [hps]

@[simp] theorem Device.agrees_commitAs (base : Device) (d : Device) (id : Nat) (j : Job) (status : Nat) (result :
    List Byte) (hps : [.evt, .mbx, .diag, .jobs, .units, .clusters, .memsys, .vis, .grid, .slv, .loc, .map, .prs] ⊆
    parts) : base.agrees parts (d.commitAs id j status result) ↔ base.agrees parts d := by
  simp at hps
  simp [Device.commitAs, hps]

@[simp] theorem Device.agrees_tickCommit (base : Device) (id : Nat) (j : Job) (x : TickOut) (d : Device) (m : Store)
    (hps : [.evt, .mbx, .diag, .jobs, .units, .clusters, .memsys, .vis, .grid, .slv, .loc, .map, .prs, .out] ⊆
    parts) : base.agrees parts (tickCommit id j x d m).1 ↔ base.agrees parts d := by
  simp at hps
  simp [tickCommit, hps]

@[simp] theorem Store.agrees_tickCommit (base : Store) (id : Nat) (j : Job) (x : TickOut) (d : Device) (m : Store)
    (hps : [.lp] ⊆ parts) : base.agrees parts (tickCommit id j x d m).2 ↔ base.agrees parts m := by
  simp at hps
  simp [tickCommit, hps]

@[simp] theorem Device.agrees_commitPoses (base : Device) (d : Device) (session : Nat) (ps : List (Nat × List Int ×
    List Int)) (hps : [.diag, .map] ⊆ parts) : base.agrees parts (d.commitPoses session ps) ↔ base.agrees parts d := by
  simp at hps
  refine Device.agrees_foldl (fun e p => ?_) _ base d
  split
  · split <;> simp [hps]
  · simp

@[simp] theorem Device.agrees_mergeInto (base : Device) (d : Device) (open_ other : Nat) (c : Pose) (hps : [.diag,
    .jobs, .map] ⊆ parts) : base.agrees parts (d.mergeInto open_ other c) ↔ base.agrees parts d := by
  simp at hps
  unfold Device.mergeInto
  dsimp only
  split
  · simp [hps]
  · split
    · simp [hps]
    next hj => simp [hps, Device.agrees_of_admitJob hj]

@[simp] theorem Device.agrees_loopCommit (base : Device) (d : Device) (id kf : Nat) (out : CommitOut) (hps : [.evt,
    .diag, .jobs, .loc, .map] ⊆ parts) : base.agrees parts (d.loopCommit id kf out) ↔ base.agrees parts d := by
  simp at hps
  unfold Device.loopCommit
  extract_lets l d0
  have h0 : base.agrees parts d0 ↔ base.agrees parts d := by simp [d0, hps]
  clear_value d0
  split
  next x b _ =>
    extract_lets session z
    split
    · exact h0
    next f _ =>
      extract_lets other across d1 y d2 d3
      have h1 : base.agrees parts d1 ↔ base.agrees parts d := by
        simp only [d1]
        split
        · exact h0
        · split
          next ho => exact (Device.agrees_of_makeObject ho base (by simp [hps])).trans h0
          · exact (Device.agrees_countOverflow base d0 _ (by simp [hps])).trans h0
      have h2 : base.agrees parts d2 ↔ base.agrees parts d := by simp [d2, h1, hps]
      have h3 : base.agrees parts d3 ↔ base.agrees parts d := by simp [d3, h2, hps]
      have hc : base.agrees parts d2.mapCommit ↔ base.agrees parts d := by simp [h2, hps]
      clear_value d1 d2 d3
      split
      · exact hc
      · split
        · exact hc
        · split
          · exact hc
          · dsimp only
            split <;> split <;> simp [h3, hps]
  · exact h0

@[simp] theorem Device.agrees_relocCommit (base : Device) (d : Device) (id : Nat) (j : Job) (out : CommitOut) (hps :
    [.evt, .diag, .loc, .map] ⊆ parts) : base.agrees parts (d.relocCommit id j out) ↔ base.agrees parts d := by
  simp at hps
  unfold Device.relocCommit
  repeat' split
  all_goals simp [hps]

@[simp] theorem Device.agrees_refineCommit (base : Device) (d : Device) (stream id : Nat) (out : CommitOut) (hps :
    [.evt, .diag, .grid] ⊆ parts) : base.agrees parts (d.refineCommit stream id out) ↔ base.agrees parts d := by
  simp at hps
  unfold Device.refineCommit
  split <;> simp [hps]

@[simp] theorem Device.agrees_exportCommit (base : Device) (id : Nat) (j : Job) (d : Device) (m : Store) (hps :
    [.evt, .mbx, .diag, .jobs, .units, .clusters, .memsys, .vis, .grid, .slv, .loc, .map, .prs] ⊆ parts) :
    base.agrees parts (exportCommit id j d m).1 ↔ base.agrees parts d := by
  simp at hps
  unfold exportCommit
  dsimp only
  split
  · simp [hps]
  · split
    · simp [hps]
    · split
      · simp [hps]
      next hx => simp [hps, Device.agrees_of_bufStore hx]

@[simp] theorem Store.agrees_exportCommit (base : Store) (id : Nat) (j : Job) (d : Device) (m : Store) (hps : [.lp]
    ⊆ parts) : base.agrees parts (exportCommit id j d m).2 ↔ base.agrees parts m := by
  simp at hps
  unfold exportCommit
  dsimp only
  split
  · rfl
  · split
    · rfl
    · split
      · rfl
      next hx => simp [hps, Store.agrees_of_bufStore hx]

@[simp] theorem Device.agrees_commitJob (base : Device) (id : Nat) (j : Job) (out : CommitOut) (d : Device) (m :
    Store) (hps : [.evt, .mbx, .diag, .jobs, .units, .clusters, .memsys, .vis, .grid, .slv, .loc, .map, .prs, .out]
    ⊆ parts) : base.agrees parts (commitJob id j out d m).1 ↔ base.agrees parts d := by
  simp at hps
  unfold commitJob
  split <;> simp [hps]

@[simp] theorem Store.agrees_commitJob (base : Store) (id : Nat) (j : Job) (out : CommitOut) (d : Device) (m :
    Store) (hps : [.lp] ⊆ parts) : base.agrees parts (commitJob id j out d m).2 ↔ base.agrees parts m := by
  simp at hps
  unfold commitJob
  split <;> simp [hps]

/-! ## Power -/

@[simp] theorem Device.agrees_powerConfig (base : Device) (r : Request) (d : Device) (hps : [.pwr] ⊆ parts) :
    base.agrees parts (powerConfig r d).1 ↔ base.agrees parts d := by
  simp at hps
  simp [powerConfig, hps]

@[simp] theorem Device.agrees_domainPower (base : Device) (ch : Nat) (r : Request) (d : Device) (m : Store) (hps :
    [.evt, .mbx, .diag, .jobs, .pwr, .units, .clusters, .sfe, .vis, .slv, .prs] ⊆ parts) : base.agrees parts
    (domainPower ch r d m).1.1 ↔ base.agrees parts d := by
  simp at hps
  simp [domainPower, hps]

@[simp] theorem Store.agrees_domainPower (base : Store) (ch : Nat) (r : Request) (d : Device) (m : Store) (hps :
    [.sram] ⊆ parts) : base.agrees parts (domainPower ch r d m).1.2 ↔ base.agrees parts m := by
  simp at hps
  simp [domainPower, hps]

@[simp] theorem Device.agrees_dieOnStart (base : Device) (d : Device) (die h : Nat) (hps : [.pwr] ⊆ parts) :
    base.agrees parts (d.dieOnStart die h) ↔ base.agrees parts d := by
  simp at hps
  simp [Device.dieOnStart, hps]

@[simp] theorem Device.agrees_diePower (base : Device) (ch : Nat) (r : Request) (d : Device) (m : Store) (hps :
    [.evt, .mbx, .diag, .time, .tim, .jobs, .pwr, .units, .clusters, .memsys, .ing, .sfe, .vis, .grid, .slv, .map,
    .prs, .out] ⊆ parts) : base.agrees parts (diePower ch r d m).1.1 ↔ base.agrees parts d := by
  simp at hps
  unfold diePower
  split <;> simp [hps]

@[simp] theorem Store.agrees_diePower (base : Store) (ch : Nat) (r : Request) (d : Device) (m : Store) (hps : [.lp,
    .sram] ⊆ parts) : base.agrees parts (diePower ch r d m).1.2 ↔ base.agrees parts m := by
  simp at hps
  unfold diePower
  split <;> simp [hps]

@[simp] theorem Device.agrees_pwrSense (base : Device) (r : Request) (d : Device) (hps : [.pwr, .sfe] ⊆ parts) :
    base.agrees parts (pwrSense r d).1 ↔ base.agrees parts d := by
  simp at hps
  simp [pwrSense, hps]

@[simp] theorem Device.agrees_partReset (base : Device) (ch : Nat) (r : Request) (d : Device) (m : Store) (hps :
    [.evt, .mbx, .diag, .jobs, .pwr, .units, .clusters, .sfe, .vis, .slv, .prs] ⊆ parts) : base.agrees parts
    (partReset ch r d m).1.1 ↔ base.agrees parts d := by
  simp at hps
  simp [partReset, hps]

@[simp] theorem Store.agrees_partReset (base : Store) (ch : Nat) (r : Request) (d : Device) (m : Store) (hps :
    [.sram] ⊆ parts) : base.agrees parts (partReset ch r d m).1.2 ↔ base.agrees parts m := by
  simp at hps
  simp [partReset, hps]

@[simp] theorem Device.agrees_dieReset (base : Device) (ch : Nat) (r : Request) (d : Device) (m : Store) (hps :
    [.evt, .mbx, .diag, .time, .tim, .jobs, .pwr, .units, .clusters, .memsys, .ing, .sfe, .vis, .grid, .slv, .map,
    .prs, .out] ⊆ parts) : base.agrees parts (dieReset ch r d m).1.1 ↔ base.agrees parts d := by
  simp at hps
  unfold dieReset
  split <;> simp [hps]

@[simp] theorem Store.agrees_dieReset (base : Store) (ch : Nat) (r : Request) (d : Device) (m : Store) (hps : [.lp,
    .sram] ⊆ parts) : base.agrees parts (dieReset ch r d m).1.2 ↔ base.agrees parts m := by
  simp at hps
  unfold dieReset
  split <;> simp [hps]

@[simp] theorem Device.agrees_limiterEval (base : Device) (d : Device) (uncore : Nat) (cores : List Nat) (hps :
    [.evt, .diag, .time, .pwr] ⊆ parts) : base.agrees parts (d.limiterEval uncore cores) ↔ base.agrees parts d := by
  simp at hps
  simp [Device.limiterEval, hps]

@[simp] theorem Device.agrees_tjPeak (base : Device) (d : Device) (die : Nat) (tj : Int) (hps : [.diag] ⊆ parts) :
    base.agrees parts (d.tjPeak die tj) ↔ base.agrees parts d := by
  simp at hps
  simp [Device.tjPeak, hps]

@[simp] theorem Device.agrees_throttleDie (base : Device) (d : Device) (die : Nat) (tj : Int) (hps : [.evt, .diag,
    .pwr] ⊆ parts) : base.agrees parts (d.throttleDie die tj) ↔ base.agrees parts d := by
  simp at hps
  simp [Device.throttleDie, hps]

@[simp] theorem Device.agrees_thermalEval (base : Device) (tj : List Int) (d : Device) (m : Store) (hps :
    MachinePart.butFuse ⊆ parts) : base.agrees parts (thermalEval tj d m).1 ↔ base.agrees parts d := by
  have h := hps
  simp [MachinePart.butFuse] at h
  have step (e : Device) (k : Nat) (t : Int) : e.agrees parts ((({ e with pwr := { e.pwr with
      tj := e.pwr.tj.put k t, tjValid := e.pwr.tjValid ||| BitVec.twoPow 8 k } }).tjPeak k t).throttleDie k t) := by
    simp [h]
  have hadv (n : Nat) : base.agrees parts (d.advanceToDev n) ↔ base.agrees parts d :=
    Device.agrees_advanceToDev base d n (by simp [h])
  -- the evaluation and the advance are held as variables, which the kernel does not evaluate
  obtain ⟨eval, heval⟩ : ∃ f, f = thermalEval := ⟨_, rfl⟩
  obtain ⟨adv, hadv'⟩ : ∃ f, f = Device.advanceToDev := ⟨_, rfl⟩
  rw [← hadv'] at hadv
  rw [← heval]
  delta thermalEval at heval
  rw [← hadv'] at heval
  rw [congrFun (congrFun (congrFun heval tj) d) m]
  extract_lets d0 dies t d1 d2
  have h2 : base.agrees parts d2 ↔ base.agrees parts d :=
    (Device.agrees_capEvents base d1 d0 (by simp [h])).trans
      ((Device.agrees_foldl (fun e k => step e k (t k)) dies base d0).trans (hadv _))
  split
  · exact (Device.agrees_shutdown _ _ _ _ _ hps).trans h2
  · exact h2

@[simp] theorem Store.agrees_thermalEval (base : Store) (tj : List Int) (d : Device) (m : Store) (hps : [.lp, .sram]
    ⊆ parts) : base.agrees parts (thermalEval tj d m).2 ↔ base.agrees parts m := by
  simp at hps
  -- the evaluation and the advance are held as variables, which the kernel does not evaluate
  obtain ⟨eval, heval⟩ : ∃ f, f = thermalEval := ⟨_, rfl⟩
  obtain ⟨adv, hadv⟩ : ∃ f, f = Device.advanceToDev := ⟨_, rfl⟩
  rw [← heval]
  delta thermalEval at heval
  rw [← hadv] at heval
  rw [congrFun (congrFun (congrFun heval tj) d) m]
  dsimp only
  split
  · simp [hps]
  · rfl

@[simp] theorem Device.agrees_pllLoss (base : Device) (die island : Nat) (d : Device) (m : Store) (hps :
    MachinePart.butFuse ⊆ parts) : base.agrees parts (pllLoss die island d m).1 ↔ base.agrees parts d := by
  have h := hps
  simp [MachinePart.butFuse] at h
  unfold pllLoss
  split
  · rfl
  · split
    · split
      · rfl
      · simp [h]
    · split
      · simp [h, Device.agrees_shutdown _ _ _ _ _ hps]
      · simp [h]

@[simp] theorem Store.agrees_pllLoss (base : Store) (die island : Nat) (d : Device) (m : Store) (hps : [.lp, .sram]
    ⊆ parts) : base.agrees parts (pllLoss die island d m).2 ↔ base.agrees parts m := by
  simp at hps
  simp [pllLoss, hps]

@[simp] theorem Device.agrees_refLoss (base : Device) (ref die : Nat) (d : Device) (m : Store) (hps :
    MachinePart.butFuse ⊆ parts) : base.agrees parts (refLoss ref die d m).1 ↔ base.agrees parts d := by
  have h := hps
  simp [MachinePart.butFuse] at h
  unfold refLoss
  split
  · rfl
  · dsimp only
    split
    · simp [h, Device.agrees_shutdown _ _ _ _ _ hps]
    · split
      · split <;> simp [h]
      · simp [h]

@[simp] theorem Store.agrees_refLoss (base : Store) (ref die : Nat) (d : Device) (m : Store) (hps : [.lp, .sram] ⊆
    parts) : base.agrees parts (refLoss ref die d m).2 ↔ base.agrees parts m := by
  simp at hps
  simp [refLoss, hps]

/-! ## Security -/

@[simp] theorem Device.agrees_cryptoPut (base : Device) (d : Device) (o : CryptoOp) (hps : [.sec] ⊆ parts) :
    base.agrees parts (d.cryptoPut o) ↔ base.agrees parts d := by
  simp at hps
  simp [Device.cryptoPut, hps]

@[simp] theorem Device.agrees_attestCmd (base : Device) (ch : Nat) (r : Request) (d : Device) (hps : [.mbx, .sec] ⊆
    parts) : base.agrees parts (attestCmd ch r d).1 ↔ base.agrees parts d := by
  simp at hps
  simp [attestCmd, hps]

@[simp] theorem Device.agrees_fwUpdateCmd (base : Device) (ch : Nat) (r : Request) (d : Device) (hps : [.mbx, .sec]
    ⊆ parts) : base.agrees parts (fwUpdateCmd ch r d).1 ↔ base.agrees parts d := by
  simp at hps
  unfold fwUpdateCmd
  repeat' split
  all_goals simp [hps]

@[simp] theorem Device.agrees_attestDone (base : Device) (d : Device) (h : Nat) (head : List Byte) (hps : [.evt,
    .mbx, .free] ⊆ parts) : base.agrees parts (d.attestDone h head) ↔ base.agrees parts d := by
  simp at hps
  simp [Device.attestDone, hps]

@[simp] theorem Store.agrees_flashWrite (other : Store) (base : Nat) (img : List Byte) (fail : Option Nat) (d :
    Device) (m : Store) (hps : [.flash] ⊆ parts) : other.agrees parts (flashWrite base img fail d m) ↔ other.agrees
    parts m := by
  simp at hps
  unfold flashWrite
  split <;> simp [hps]

@[simp] theorem Device.agrees_updateDone (base : Device) (h buf off ofs : Nat) (fail : Option Nat) (cancel : Bool)
    (d : Device) (m : Store) (hps : [.evt, .mbx, .diag, .memsys, .free] ⊆ parts) : base.agrees parts (updateDone h
    buf off ofs fail cancel d m).1 ↔ base.agrees parts d := by
  simp at hps
  unfold updateDone
  repeat' split
  all_goals simp [hps]

@[simp] theorem Store.agrees_updateDone (base : Store) (h buf off ofs : Nat) (fail : Option Nat) (cancel : Bool) (d
    : Device) (m : Store) (hps : [.flash] ⊆ parts) : base.agrees parts (updateDone h buf off ofs fail cancel d m).2
    ↔ base.agrees parts m := by
  simp at hps
  unfold updateDone
  repeat' split
  all_goals simp [hps]

/-- A device whose fuses are written, with the free value that stands for what a failed blow leaves (R814). -/
@[simp] theorem Device.agrees_fuse (base d : Device) (f : Fuses) (x : Nat) (hps : [.fuse, .free] ⊆ parts) :
    base.agrees parts { d with fuse := f, free := x } ↔ base.agrees parts d := by
  simp at hps
  refine Device.agrees.iff (fun p m hp => ?_) base
  cases p <;> simp_all [MachinePart.same]

@[simp] theorem Device.agrees_blowSteps (base : Device) (fail : Option Nat) (is : List Nat) (d : Device)
    (hps : [.fuse, .free] ⊆ parts) : base.agrees parts (d.blowSteps fail is).1 ↔ base.agrees parts d := by
  simp at hps
  induction is generalizing d with
  | nil => rfl
  | cons i is ih =>
    simp only [Device.blowSteps]
    split
    · simp [hps]
    · exact (ih _).trans (by simp [hps])

@[simp] theorem Device.agrees_rollbackDone (base : Device) (d : Device) (h : Nat) (fail : Option Nat) (hps : [.fuse,
    .evt, .mbx, .free] ⊆ parts) : base.agrees parts (d.rollbackDone h fail) ↔ base.agrees parts d := by
  simp at hps
  simp [Device.rollbackDone, hps]

@[simp] theorem Device.agrees_revokeDone (base : Device) (d : Device) (m : Store) (h buf off : Nat) (fail : Option
    Nat) (hps : [.fuse, .evt, .mbx, .diag, .memsys, .free] ⊆ parts) : base.agrees parts (d.revokeDone m h buf off
    fail) ↔ base.agrees parts d := by
  simp at hps
  unfold Device.revokeDone
  split
  · simp [hps]
  · split <;> simp [hps]

@[simp] theorem Device.agrees_unlockDone (base : Device) (d : Device) (m : Store) (h buf off : Nat) (hps : [.evt,
    .mbx, .diag, .memsys, .sec] ⊆ parts) : base.agrees parts (d.unlockDone m h buf off) ↔ base.agrees parts d := by
  simp at hps
  unfold Device.unlockDone
  split <;> simp [hps]

@[simp] theorem Device.agrees_cryptoDone (base : Device) (fail : Option Nat) (d : Device) (m : Store) (hps : [.fuse,
    .evt, .mbx, .diag, .memsys, .sec, .free] ⊆ parts) : base.agrees parts (cryptoDone fail d m).1 ↔ base.agrees
    parts d := by
  simp at hps
  unfold cryptoDone
  repeat' split
  all_goals simp [hps]

@[simp] theorem Store.agrees_cryptoDone (base : Store) (fail : Option Nat) (d : Device) (m : Store) (hps : [.flash]
    ⊆ parts) : base.agrees parts (cryptoDone fail d m).2 ↔ base.agrees parts m := by
  simp at hps
  unfold cryptoDone
  repeat' split
  all_goals simp [hps]

/-! ## Registers -/

@[simp] theorem Device.agrees_regClear (base : Device) (d : Device) (w : Window) (a : Nat) (hps : [.evt, .diag,
    .time] ⊆ parts) : base.agrees parts (d.regClear w a) ↔ base.agrees parts d := by
  simp at hps
  unfold Device.regClear
  split <;> simp [hps]

@[simp] theorem Device.agrees_roWrite (base : Device) (d : Device) (a : Nat) (hps : [.evt] ⊆ parts) : base.agrees
    parts (d.roWrite a) ↔ base.agrees parts d := by
  simp at hps
  simp [Device.roWrite, hps]

@[simp] theorem Device.agrees_statusWrite (base : Device) (d : Device) (v : Word) (hps : [.boot, .evt] ⊆ parts) :
    base.agrees parts (d.statusWrite v) ↔ base.agrees parts d := by
  simp at hps
  simp [Device.statusWrite, hps]

@[simp] theorem Device.agrees_cfgWrite (base : Device) (d : Device) (v : Word) (hps : [.boot, .evt] ⊆ parts) :
    base.agrees parts (d.cfgWrite v) ↔ base.agrees parts d := by
  simp at hps
  simp [Device.cfgWrite, hps]

@[simp] theorem Device.agrees_ofsWrite (base : Device) (d : Device) (v : Word) (hps : [.boot, .evt] ⊆ parts) :
    base.agrees parts (d.ofsWrite v) ↔ base.agrees parts d := by
  simp at hps
  simp [Device.ofsWrite, hps]

@[simp] theorem Device.agrees_consume (base : Device) (d : Device) (h : Nat) (hps : [.mbx, .jobs] ⊆ parts) :
    base.agrees parts (d.consume h) ↔ base.agrees parts d := by
  simp at hps
  simp [Device.consume, hps]

@[simp] theorem Device.agrees_ringRdWrite (base : Device) (d : Device) (v : Word) (hps : [.evt, .mbx, .jobs] ⊆
    parts) : base.agrees parts (d.ringRdWrite v) ↔ base.agrees parts d := by
  simp at hps
  simp [Device.ringRdWrite, hps]

@[simp] theorem Device.agrees_vlogIdxWrite (base : Device) (d : Device) (v : Word) (hps : [.evt] ⊆ parts) :
    base.agrees parts (d.vlogIdxWrite v) ↔ base.agrees parts d := by
  simp at hps
  simp [Device.vlogIdxWrite, hps]

@[simp] theorem Device.agrees_flogIdxWrite (base : Device) (d : Device) (v : Word) (hps : [.evt] ⊆ parts) :
    base.agrees parts (d.flogIdxWrite v) ↔ base.agrees parts d := by
  simp at hps
  simp [Device.flogIdxWrite, hps]

@[simp] theorem Device.agrees_causeWrite (base : Device) (d : Device) (v : Word) (hps : [.evt] ⊆ parts) :
    base.agrees parts (d.causeWrite v) ↔ base.agrees parts d := by
  simp at hps
  simp [Device.causeWrite, hps]

@[simp] theorem Device.agrees_ibiEnWrite (base : Device) (d : Device) (v : Word) (hps : [.evt] ⊆ parts) :
    base.agrees parts (d.ibiEnWrite v) ↔ base.agrees parts d := by
  simp at hps
  simp [Device.ibiEnWrite, hps]

@[simp] theorem Device.agrees_mbxWrite (base : Device) (d : Device) (a : Nat) (v : Word) (hps : [.evt, .mbx] ⊆
    parts) : base.agrees parts (d.mbxWrite a v) ↔ base.agrees parts d := by
  simp at hps
  simp [Device.mbxWrite, hps]

@[simp] theorem Device.agrees_regWrite (base : Device) (w : Window) (a : Nat) (v : Word) (d : Device) (m : Store)
    (hps : MachinePart.butFuse ⊆ parts) : base.agrees parts (regWrite w a v d m).1 ↔ base.agrees parts d := by
  have h := hps
  simp [MachinePart.butFuse] at h
  unfold regWrite
  split
  · repeat' split
    all_goals simp [h, Device.agrees_bootReset _ _ _ _ hps]
  · repeat' split
    all_goals simp [h]
  · split <;> simp [h]
  · simp [h]
  · simp [h]

@[simp] theorem Store.agrees_regWrite (base : Store) (w : Window) (a : Nat) (v : Word) (d : Device) (m : Store) (hps
    : [.lp, .sram] ⊆ parts) : base.agrees parts (regWrite w a v d m).2 ↔ base.agrees parts m := by
  simp at hps
  unfold regWrite
  split <;> simp [hps]

@[simp] theorem Device.agrees_strayOnce (base : Device) (d : Device) (seen : Bool) (code a : Nat) (hps : [.evt] ⊆
    parts) : base.agrees parts (d.strayOnce seen code a) ↔ base.agrees parts d := by
  simp at hps
  simp [Device.strayOnce, hps]

theorem Device.agrees_writeWords (base : Device) (n a : Nat) (ws : List Word) (out shut : Bool) (d : Device) (m : Store)
    (hps : MachinePart.butFuse ⊆ parts) : base.agrees parts (writeWords n a ws out shut d m).1 ↔ base.agrees parts d := by
  have h := hps
  simp [MachinePart.butFuse] at h
  induction n generalizing a ws out shut d m with
  | zero => rfl
  | succ n ih =>
    cases ws with
    | nil => simp [writeWords, h]
    | cons w ws =>
      simp only [writeWords]
      split
      · exact (ih ..).trans (by simp [h])
      · split
        · exact (ih ..).trans (by simp [h])
        · exact (ih ..).trans (by simp [h])
        · split
          · exact Device.agrees_regWrite _ _ _ _ _ _ hps
          · exact (ih ..).trans (Device.agrees_regWrite _ _ _ _ _ _ hps)

@[simp] theorem Store.agrees_writeWords (base : Store) (n a : Nat) (ws : List Word) (out shut : Bool) (d : Device)
    (m : Store) (hps : [.lp, .sram] ⊆ parts) :
    base.agrees parts (writeWords n a ws out shut d m).2 ↔ base.agrees parts m := by
  have h := hps
  simp at h
  induction n generalizing a ws out shut d m with
  | zero => rfl
  | succ n ih =>
    cases ws with
    | nil => rfl
    | cons w ws =>
      simp only [writeWords]
      split
      · exact (ih ..).trans (by simp [h])
      · split
        · exact ih ..
        · exact ih ..
        · split
          · exact Store.agrees_regWrite _ _ _ _ _ _ hps
          · exact (ih ..).trans (Store.agrees_regWrite _ _ _ _ _ _ hps)

@[simp] theorem Device.agrees_privateWrite (base : Device) (addr : Word) (words : List Word) (d : Device) (m :
    Store) (hps : MachinePart.butFuse ⊆ parts) : base.agrees parts (privateWrite addr words d m).1 ↔ base.agrees
    parts d := by
  have h := hps
  simp [MachinePart.butFuse] at h
  unfold privateWrite
  dsimp only
  split
  · simp [h]
  · split <;> simp [h, Device.agrees_writeWords _ _ _ _ _ _ _ _ hps]

@[simp] theorem Store.agrees_privateWrite (base : Store) (addr : Word) (words : List Word) (d : Device) (m : Store)
    (hps : [.lp, .sram] ⊆ parts) : base.agrees parts (privateWrite addr words d m).2 ↔ base.agrees parts m := by
  simp at hps
  unfold privateWrite
  dsimp only
  split
  · rfl
  · split <;> simp [hps]

@[simp] theorem Device.agrees_readWords (base : Device) (n a : Nat) (got : List Word) (out shut : Bool) (d : Device)
    (hps : [.i3c, .evt, .diag, .time] ⊆ parts) :
    base.agrees parts (readWords n a got out shut d) ↔ base.agrees parts d := by
  simp at hps
  induction n generalizing a got out shut d with
  | zero => simp [readWords, hps]
  | succ n ih =>
    simp only [readWords]
    split <;> exact (ih ..).trans (by simp [hps])

@[simp] theorem Device.agrees_privateRead (base : Device) (d : Device) (n : Nat) (hps : [.i3c, .evt, .diag, .time] ⊆
    parts) : base.agrees parts (d.privateRead n) ↔ base.agrees parts d := by
  simp at hps
  unfold Device.privateRead
  split <;> simp [hps]

@[simp] theorem Device.agrees_malformed (base : Device) (x : Malformed) (d : Device) (m : Store) (hps :
    MachinePart.butFuse ⊆ parts) : base.agrees parts (malformed x d m).1 ↔ base.agrees parts d := by
  have h := hps
  simp [MachinePart.butFuse] at h
  unfold malformed
  dsimp only
  split
  · simp [h]
  · split <;> simp [h, Device.agrees_privateWrite _ _ _ _ _ hps]
  · simp [h, Device.agrees_privateWrite _ _ _ _ _ hps]
  · simp [h, Device.agrees_privateWrite _ _ _ _ _ hps]
  · split <;> simp [h]
  · simp [h]
  · exact Device.agrees_privateWrite _ _ _ _ _ hps

@[simp] theorem Store.agrees_malformed (base : Store) (x : Malformed) (d : Device) (m : Store) (hps : [.lp, .sram] ⊆
    parts) : base.agrees parts (malformed x d m).2 ↔ base.agrees parts m := by
  simp at hps
  unfold malformed
  split <;> simp [hps]

end Sys2Proof.Machine
end

section
/-! SUPPORT. Frames of commands: what a command changes, by the frame it runs in (O55 to O58). -/

namespace Sys2Proof.Machine

/-! ## From devices to parts of the machine -/

theorem Keeps.of_agrees {c : Instr} {ps : List MachinePart}
    (h : ∀ s t, exec c s = .next t → s.dev.agrees ps t.dev ∧ s.mem.agrees ps t.mem) : Keeps c ps :=
  fun s t _ hn hp => MachinePart.same_of_agrees hp (h s t hn).1 (h s t hn).2

/-- What changes nothing outside `ps` leaves alone what is not listed there. -/
theorem Keeps.leaves {c : Instr} {ps kept : List MachinePart} (h : Keeps c ps) (hk : ∀ p ∈ kept, p ∉ ps) :
    Leaves c kept := fun s t p hn hp => h s t p hn (hk p hp)

theorem Keeps.mono {c : Instr} {ps qs : List MachinePart} (h : Keeps c ps) (hs : ps ⊆ qs) : Keeps c qs :=
  fun s t p hn hp => h s t p hn fun hq => hp (hs hq)

/-- The parts that a reset of the package may change: all but fuses and flash (R85). -/
def MachinePart.resetParts : List MachinePart := MachinePart.butFuse ++ [.lp, .sram]

@[simp] theorem MachinePart.mem_resetParts (p : MachinePart) : p ∈ MachinePart.resetParts ↔ p ≠ .fuse ∧ p ≠ .flash := by
  cases p <;> decide

@[simp] theorem MachinePart.butFuse_subset : MachinePart.butFuse ⊆ MachinePart.resetParts := by decide

/-! ## By the frame a command runs in -/

theorem Device.agrees_ite_intro {ps : List MachinePart} {base d e : Device} {c : Prop} [Decidable c]
    (h : c → base.agrees ps d) (k : ¬ c → base.agrees ps e) : base.agrees ps (if c then d else e) := by
  split
  next hc => exact h hc
  next hc => exact k hc

theorem keeps_onDev {c : Instr} {ps : List MachinePart} {f : Device → Device} (hc : ∀ s, exec c s = onDev f s)
    (h : ∀ d : Device, d.agrees ps (f d)) : Keeps c ps := by
  refine Keeps.of_agrees fun s t hn => ?_
  rw [hc] at hn
  cases hn
  exact ⟨h _, Store.agrees_refl _ _⟩

theorem keeps_onBoth {c : Instr} {ps : List MachinePart} {f : Device → Store → Device × Store}
    (hc : ∀ s, exec c s = onBoth f s) (h : ∀ (d : Device) (m : Store), d.agrees ps (f d m).1 ∧ m.agrees ps (f d m).2) : Keeps c ps := by
  refine Keeps.of_agrees fun s t hn => ?_
  rw [hc] at hn
  cases hn
  exact h _ _

theorem keeps_command {c : Instr} {ps : List MachinePart} {op : Nat} {ch : Fin 8} {f : Request → Device → Device × Reply}
    (hc : ∀ s, exec c s = command op ch f s) (hps : [.evt, .mbx, .sec] ⊆ ps) (h : ∀ r (d : Device), d.agrees ps (f r d).1) :
    Keeps c ps := by
  refine Keeps.of_agrees fun s t hn => ?_
  rw [hc] at hn
  unfold command at hn
  split at hn
  · cases hn
    exact ⟨Device.agrees_refl _ _, Store.agrees_refl _ _⟩
  · cases hn
    exact ⟨(Device.agrees_answer _ _ _ _ _ hps).mpr (h _ _), Store.agrees_refl _ _⟩

theorem keeps_query {c : Instr} {ps : List MachinePart} {op : Nat} {ch : Fin 8} {f : Request → Device → Reply}
    (hc : ∀ s, exec c s = query op ch f s) (hps : [.evt, .mbx, .sec] ⊆ ps) : Keeps c ps :=
  keeps_command hc hps fun _ _ => Device.agrees_refl _ _

theorem keeps_commandRead {c : Instr} {ps : List MachinePart} {op : Nat} {ch : Fin 8}
    {f : Request → Device → Store → Device × Reply} (hc : ∀ s, exec c s = commandRead op ch f s)
    (hps : [.evt, .mbx, .sec] ⊆ ps) (h : ∀ r (d : Device) (m : Store), d.agrees ps (f r d m).1) : Keeps c ps := by
  refine Keeps.of_agrees fun s t hn => ?_
  rw [hc] at hn
  unfold commandRead at hn
  split at hn
  · cases hn
    exact ⟨Device.agrees_refl _ _, Store.agrees_refl _ _⟩
  · cases hn
    exact ⟨(Device.agrees_answer _ _ _ _ _ hps).mpr (h _ _ _), Store.agrees_refl _ _⟩

theorem keeps_commandMem {c : Instr} {ps : List MachinePart} {op : Nat} {ch : Fin 8}
    {f : Request → Device → Store → (Device × Store) × Reply} (hc : ∀ s, exec c s = commandMem op ch f s)
    (hps : [.evt, .mbx, .sec] ⊆ ps) (h : ∀ r (d : Device) (m : Store), d.agrees ps (f r d m).1.1 ∧ m.agrees ps (f r d m).1.2) :
    Keeps c ps := by
  refine Keeps.of_agrees fun s t hn => ?_
  rw [hc] at hn
  unfold commandMem at hn
  split at hn
  · cases hn
    exact ⟨Device.agrees_refl _ _, Store.agrees_refl _ _⟩
  · cases hn
    exact ⟨(Device.agrees_answer _ _ _ _ _ hps).mpr (h _ _ _).1, (h _ _ _).2⟩

theorem keeps_commandMem_of_eq {c : Instr} {ps : List MachinePart} {op : Nat} {ch : Fin 8}
    {f : Request → Device → Store → (Device × Store) × Reply} (hc : ∀ s, exec c s = commandMem op ch f s)
    (hps : [.evt, .mbx, .sec] ⊆ ps)
    (h : ∀ r (d : Device) (m : Store) x, f r d m = x → d.agrees ps x.1.1 ∧ m.agrees ps x.1.2) : Keeps c ps :=
  keeps_commandMem hc hps fun _ _ _ => h _ _ _ _ rfl

theorem keeps_commandLater {c : Instr} {ps : List MachinePart} {op : Nat} {ch : Fin 8}
    {f : Request → Device → Store → (Device × Store) × Option Reply} (hc : ∀ s, exec c s = commandLater op ch f s)
    (hps : [.evt, .mbx, .sec] ⊆ ps) (h : ∀ r (d : Device) (m : Store), d.agrees ps (f r d m).1.1 ∧ m.agrees ps (f r d m).1.2) :
    Keeps c ps := by
  refine Keeps.of_agrees fun s t hn => ?_
  rw [hc] at hn
  unfold commandLater at hn
  split at hn
  · cases hn
    exact ⟨Device.agrees_refl _ _, Store.agrees_refl _ _⟩
  · dsimp only at hn
    split at hn
    · cases hn
      exact ⟨(Device.agrees_answer _ _ _ _ _ hps).mpr (h _ _ _).1, (h _ _ _).2⟩
    · cases hn
      exact h _ _ _

theorem keeps_ccc {c : Instr} {ps : List MachinePart} {f : I3c → I3c} (hc : ∀ s, exec c s = ccc f s)
    (hps : [.i3c] ⊆ ps) : Keeps c ps := by
  simp at hps
  refine keeps_onDev hc fun d => ?_
  split <;> simp [hps]

theorem keeps_cccRead {c : Instr} {ps : List MachinePart} {f : Device → List Byte} (hc : ∀ s, exec c s = cccRead f s)
    (hps : [.i3c] ⊆ ps) : Keeps c ps := by
  simp at hps
  refine keeps_onDev hc fun d => ?_
  split <;> simp [hps]

/-- A boot step keeps what its work keeps (R92). -/
theorem keeps_bootCmd {c : Instr} {ps : List MachinePart} {code : Nat} {i : BootInput}
    (hc : ∀ s, exec c s = bootCmd code i s) (hps : [.boot, .view, .i3c, .evt, .pwr, .sec, .lp] ⊆ ps) : Keeps c ps := by
  simp at hps
  refine keeps_onBoth hc fun d m => ?_
  dsimp only
  split <;> simp [hps]

/-- Outside the profile a setting takes effect at once, and changes what its body changes (R135, R746). -/
theorem same_of_configure {c : Instr} {x : Setting} {own : List MachinePart} {ch : Fin 8}
    (hc : ∀ s, exec c s = configure x ch s)
    (h : ∀ r (d : Device) (m : Store), d.agrees (own ++ [.evt, .mbx, .sec]) (x.body r d m).1.1 ∧
      m.agrees (own ++ [.evt, .mbx, .sec]) (x.body r d m).1.2) {s t : State} {r : Request} {p : MachinePart}
    (hm : s.mayConfigure ch x r) (hn : exec c s = .next t) (ho : p ∉ own) (ha : p ∉ [.evt, .mbx, .sec]) : p.same s t := by
  obtain ⟨hh, hu⟩ := hm
  rw [hc] at hn
  unfold configure at hn
  rw [hh] at hn
  simp only [Setting.outcome, hu] at hn
  cases hn
  refine MachinePart.same_of_agrees (ps := own ++ [.evt, .mbx, .sec]) (by simp_all) ?_ (h _ _ _).2
  exact (Device.agrees_answer _ _ _ _ _ (by simp)).mpr (h _ _ _).1

theorem keepsSet_of_agrees {c : Fin 8 → Instr} {x : Setting} {own : List MachinePart}
    (hc : ∀ ch s, exec (c ch) s = configure x ch s)
    (h : ∀ r (d : Device) (m : Store), d.agrees (own ++ [.evt, .mbx, .sec]) (x.body r d m).1.1 ∧
      m.agrees (own ++ [.evt, .mbx, .sec]) (x.body r d m).1.2) : KeepsSet c x own :=
  fun _ ch _ _ _ hm hn ho ha => same_of_configure (hc ch) h hm hn ho ha

end Sys2Proof.Machine
end

section
/-! SUPPORT. Bus, registers, bring-up and the mailbox: what they leave unchanged (O55). -/

namespace Sys2Proof.Machine

/-- A package reset keeps fuses and flash (R85). -/
theorem State.keeps_packageReset (s : State) :
    s.dev.agrees MachinePart.resetParts s.packageReset.dev ∧ s.mem.agrees MachinePart.resetParts s.packageReset.mem := by
  constructor
  · intro p m hp
    cases p <;> simp_all [MachinePart.same, State.packageReset, Device.packageReset]
  · intro p d hp
    cases p <;> simp_all [MachinePart.same, State.packageReset, Store.packageReset]

theorem powerOnReset_keeps : Keeps .powerOnReset MachinePart.resetParts := by
  refine Keeps.of_agrees fun s t hn => ?_
  cases hn
  exact ⟨(Device.agrees_mk (by simp)).mpr s.keeps_packageReset.1, s.keeps_packageReset.2⟩

theorem packageResetAssert_keeps : Keeps .packageResetAssert MachinePart.resetParts := by
  refine Keeps.of_agrees fun s t hn => ?_
  cases hn
  exact ⟨(Device.agrees_mk (by simp)).mpr s.keeps_packageReset.1, s.keeps_packageReset.2⟩

theorem supplyUndervoltage_keeps : Keeps .supplyUndervoltage MachinePart.resetParts := by
  refine Keeps.of_agrees fun s t hn => ?_
  cases hn
  exact s.keeps_packageReset

theorem targetResetPattern_keeps : Keeps .targetResetPattern MachinePart.resetParts := by
  refine Keeps.of_agrees fun s t hn => ?_
  change execTargetResetPattern s = _ at hn
  simp only [execTargetResetPattern] at hn
  split at hn
  · split at hn
    · cases hn
      simp
    · cases hn
      exact s.keeps_packageReset
    · cases hn
      simp
  · cases hn
    simp

theorem i3cAddressWrite_keeps (addr : Word) : Keeps (.i3cAddressWrite addr) MachinePart.resetParts :=
  keeps_onBoth (fun s => show execI3cAddressWrite addr s = _ from rfl) fun d m => by simp

theorem i3cMalformedTransfer_keeps (m : Malformed) : Keeps (.i3cMalformedTransfer m) MachinePart.resetParts :=
  keeps_onBoth (fun s => show execI3cMalformedTransfer m s = _ from rfl) fun d m => by simp

theorem registerWrite_keeps (addr : Word) (words : List Word) : Keeps (.registerWrite addr words)
    MachinePart.resetParts :=
  keeps_onBoth (fun s => show execRegisterWrite addr words s = _ from rfl) fun d m => by simp

theorem bootFwwinWrite_keeps (offset : Nat) (words : List Word) : Keeps (.bootFwwinWrite offset words)
    MachinePart.resetParts :=
  keeps_onBoth (fun s => show execBootFwwinWrite offset words s = _ from rfl) fun d m => by simp

theorem bootReset_keeps (key : Word) : Keeps (.bootReset key) MachinePart.resetParts :=
  keeps_onBoth (fun s => show execBootReset key s = _ from rfl) fun d m => by simp

theorem packageResetRelease_keeps : Keeps .packageResetRelease [.pkg, .i3c] :=
  keeps_onDev (fun s => show execPackageResetRelease s = _ from rfl) fun d => by simp

theorem hotJoinRequest_keeps : Keeps .hotJoinRequest [.i3c, .diag, .time] :=
  keeps_onDev (fun s => show execHotJoinRequest s = _ from rfl) fun d => by simp

theorem enec_keeps : Keeps .enec [.i3c] :=
  keeps_ccc (fun s => show execEnec s = _ from rfl) (by simp)

theorem disec_keeps : Keeps .disec [.i3c] :=
  keeps_ccc (fun s => show execDisec s = _ from rfl) (by simp)

theorem rstdaa_keeps : Keeps .rstdaa [.i3c] :=
  keeps_ccc (fun s => show execRstdaa s = _ from rfl) (by simp)

theorem getmwl_keeps : Keeps .getmwl [.i3c] :=
  keeps_cccRead (fun s => show execGetmwl s = _ from rfl) (by simp)

theorem getmrl_keeps : Keeps .getmrl [.i3c] :=
  keeps_cccRead (fun s => show execGetmrl s = _ from rfl) (by simp)

theorem getpid_keeps : Keeps .getpid [.i3c] :=
  keeps_cccRead (fun s => show execGetpid s = _ from rfl) (by simp)

theorem getbcr_keeps : Keeps .getbcr [.i3c] :=
  keeps_cccRead (fun s => show execGetbcr s = _ from rfl) (by simp)

theorem getdcr_keeps : Keeps .getdcr [.i3c] :=
  keeps_cccRead (fun s => show execGetdcr s = _ from rfl) (by simp)

theorem getstatus_keeps : Keeps .getstatus [.i3c] :=
  keeps_onDev (fun s => show execGetstatus s = _ from rfl) fun d => by simp

theorem getcaps_keeps : Keeps .getcaps [.i3c] :=
  keeps_cccRead (fun s => show execGetcaps s = _ from rfl) (by simp)

theorem enthdr0_keeps : Keeps .enthdr0 [.i3c] :=
  keeps_ccc (fun s => show execEnthdr0 s = _ from rfl) (by simp)

theorem hdrExit_keeps : Keeps .hdrExit [.i3c] :=
  keeps_onDev (fun s => show execHdrExit s = _ from rfl) fun d => by simp

theorem entdaa_keeps (addr : BitVec 7) : Keeps (.entdaa addr) [.i3c] :=
  keeps_ccc (fun s => show execEntdaa addr s = _ from rfl) (by simp)

theorem setdasa_keeps (addr : BitVec 7) : Keeps (.setdasa addr) [.i3c] :=
  keeps_ccc (fun s => show execSetdasa addr s = _ from rfl) (by simp)

theorem setnewda_keeps (addr : BitVec 7) : Keeps (.setnewda addr) [.i3c] :=
  keeps_ccc (fun s => show execSetnewda addr s = _ from rfl) (by simp)

theorem setmwl_keeps (len : Nat) : Keeps (.setmwl len) [.i3c] :=
  keeps_ccc (fun s => show execSetmwl len s = _ from rfl) (by simp)

theorem setmrl_keeps (len : Nat) : Keeps (.setmrl len) [.i3c] :=
  keeps_ccc (fun s => show execSetmrl len s = _ from rfl) (by simp)

theorem rstact_keeps (action : Byte) : Keeps (.rstact action) [.i3c] :=
  keeps_ccc (fun s => show execRstact action s = _ from rfl) (by simp)

theorem unsupportedCcc_keeps (code : Byte) : Keeps (.unsupportedCcc code) [.evt] :=
  keeps_onDev (fun s => show execUnsupportedCcc code s = _ from rfl) fun d => by simp

theorem enthdrUnsupported_keeps (mode : Nat) : Keeps (.enthdrUnsupported mode) [.i3c, .evt] :=
  keeps_onDev (fun s => show execEnthdrUnsupported mode s = _ from rfl) fun d => by simp

theorem ibiSend_keeps (acked : Bool) : Keeps (.ibiSend acked) [.i3c, .evt] :=
  keeps_onDev (fun s => show execIbiSend acked s = _ from rfl) fun d => by
    split
    · simp
    · split <;> simp

theorem evtVlogIdxWrite_keeps (value : Word) : Keeps (.evtVlogIdxWrite value) [.i3c, .evt] :=
  keeps_onDev (fun s => show execEvtVlogIdxWrite value s = _ from rfl) fun d => by simp

theorem evtFlogIdxWrite_keeps (value : Word) : Keeps (.evtFlogIdxWrite value) [.i3c, .evt] :=
  keeps_onDev (fun s => show execEvtFlogIdxWrite value s = _ from rfl) fun d => by simp

theorem rcRegisterRead_keeps (words : Nat) : Keeps (.rcRegisterRead words) [.i3c, .evt, .diag, .time] :=
  keeps_onDev (fun s => show execRcRegisterRead words s = _ from rfl) fun d => by simp

theorem readOutsideWindow_keeps (words : Nat) : Keeps (.readOutsideWindow words) [.i3c, .evt, .diag, .time] :=
  keeps_onDev (fun s => show execReadOutsideWindow words s = _ from rfl) fun d => by simp

theorem ident_keeps : Keeps .ident [.boot, .view, .i3c, .evt, .pwr, .sec, .lp] :=
  keeps_bootCmd (fun s => show execIdent s = _ from rfl) (by simp)

theorem fuseLoad_keeps : Keeps .fuseLoad [.boot, .view, .i3c, .evt, .pwr, .sec, .lp] :=
  keeps_bootCmd (fun s => show execFuseLoad s = _ from rfl) (by simp)

theorem train_keeps : Keeps .train [.boot, .view, .i3c, .evt, .pwr, .sec, .lp] :=
  keeps_bootCmd (fun s => show execTrain s = _ from rfl) (by simp)

theorem fwLoad_keeps : Keeps .fwLoad [.boot, .view, .i3c, .evt, .pwr, .sec, .lp] :=
  keeps_bootCmd (fun s => show execFwLoad s = _ from rfl) (by simp)

theorem fwVerify_keeps : Keeps .fwVerify [.boot, .view, .i3c, .evt, .pwr, .sec, .lp] :=
  keeps_bootCmd (fun s => show execFwVerify s = _ from rfl) (by simp)

theorem ready_keeps : Keeps .ready [.boot, .view, .i3c, .evt, .pwr, .sec, .lp] :=
  keeps_bootCmd (fun s => show execReady s = _ from rfl) (by simp)

theorem sweep_keeps (finds : List Word) : Keeps (.sweep finds) [.boot, .view, .i3c, .evt, .pwr, .sec, .lp] :=
  keeps_bootCmd (fun s => show execSweep finds s = _ from rfl) (by simp)

theorem clocks_keeps (outcome : ClockOutcome) : Keeps (.clocks outcome) [.boot, .view, .i3c, .evt, .pwr, .sec, .lp]
    :=
  keeps_bootCmd (fun s => show execClocks outcome s = _ from rfl) (by simp)

theorem fwStart_keeps (reported : BitVec 8) : Keeps (.fwStart reported) [.boot, .view, .i3c, .evt, .pwr, .sec, .lp]
    :=
  keeps_bootCmd (fun s => show execFwStart reported s = _ from rfl) (by simp)

theorem kat_keeps (engines : List (Nat × Nat)) (units : List Nat) : Keeps (.kat engines units) [.boot, .view, .i3c,
    .evt, .pwr, .sec, .lp] :=
  keeps_bootCmd (fun s => show execKat engines units s = _ from rfl) (by simp)

theorem trainItemEnd_keeps (item : Fin 48) (status : Nat) (density : Nat) : Keeps (.trainItemEnd item status
    density) [.boot, .view, .memsys, .lp] :=
  keeps_onBoth (fun s => show execTrainItemEnd item status density s = _ from rfl) fun d m => by simp

theorem loadIdle_keeps : Keeps .loadIdle [.boot, .evt, .diag, .time] :=
  keeps_onDev (fun s => show execLoadIdle s = _ from rfl) fun d => by simp

theorem stepTimeout_keeps : Keeps .stepTimeout [.boot, .evt, .diag, .time] :=
  keeps_onDev (fun s => show execStepTimeout s = _ from rfl) fun d => by simp

theorem bootStepEnd_keeps : Keeps .bootStepEnd [.boot, .evt, .mbx, .diag, .time, .tim, .jobs, .memsys, .ing, .vis,
    .grid, .slv, .loc, .map, .prs, .out, .sec, .free] :=
  keeps_onBoth (fun s => show execBootStepEnd s = _ from rfl) fun d m => by
    split <;> simp

theorem evtRingRdWrite_keeps (value : Word) : Keeps (.evtRingRdWrite value) [.i3c, .evt, .mbx, .jobs] :=
  keeps_onDev (fun s => show execEvtRingRdWrite value s = _ from rfl) fun d => by simp

theorem latch_keeps : Keeps .latch [.i3c, .evt, .time] :=
  keeps_onDev (fun s => show execLatch s = _ from rfl) fun d => by simp

theorem onPps_keeps : Keeps .onPps [.i3c, .evt, .time] :=
  keeps_onDev (fun s => show execOnPps s = _ from rfl) fun d => by simp

theorem flush_keeps (ch : Fin 8) : Keeps (.flush ch) [.i3c, .evt, .mbx] :=
  keeps_onDev (fun s => show execFlush ch s = _ from rfl) fun d => by simp

theorem mbxDoorbell_keeps (ch : Fin 8) (value : Word) : Keeps (.mbxDoorbell ch value) [.i3c, .evt, .mbx] :=
  keeps_onDev (fun s => show execMbxDoorbell ch value s = _ from rfl) fun d => by simp

theorem mbxResponseFormed_keeps (ch : Fin 8) : Keeps (.mbxResponseFormed ch) [.evt, .mbx] :=
  keeps_onDev (fun s => show execMbxResponseFormed ch s = _ from rfl) fun d => by simp

theorem diagLatch_keeps : Keeps .diagLatch [.evt, .mbx] :=
  keeps_onDev (fun s => show execDiagLatch s = _ from rfl) fun d => by
    split <;> simp

theorem nop_keeps (ch : Fin 8) : Keeps (.nop ch) [.evt, .mbx, .sec] :=
  keeps_query (fun s => show execNop ch s = _ from rfl) (by simp)

theorem handleQuery_keeps (ch : Fin 8) : Keeps (.handleQuery ch) [.evt, .mbx, .sec] :=
  keeps_query (fun s => show execHandleQuery ch s = _ from rfl) (by simp)

theorem resultGet_keeps (ch : Fin 8) : Keeps (.resultGet ch) [.evt, .mbx, .sec] :=
  keeps_command (fun s => show execResultGet ch s = _ from rfl) (by simp) fun r d => by
    cases h : d.handle (r.u 0 4) <;> simp [h]

theorem handleList_keeps (ch : Fin 8) : Keeps (.handleList ch) [.evt, .mbx, .sec] :=
  keeps_query (fun s => show execHandleList ch s = _ from rfl) (by simp)

theorem diagCollect_keeps (ch : Fin 8) : Keeps (.diagCollect ch) [.evt, .mbx, .sec] :=
  keeps_command (fun s => show execDiagCollect ch s = _ from rfl) (by simp) fun r d => by simp

theorem handleCancel_keeps (ch : Fin 8) : Keeps (.handleCancel ch) [.evt, .mbx, .diag, .jobs, .units, .clusters,
    .memsys, .sfe, .vis, .grid, .slv, .loc, .map, .prs, .out, .st, .sec, .lp] :=
  keeps_commandMem (fun s => show execHandleCancel ch s = _ from rfl) (by simp) fun r d m => by
    split
    · simp
    · split <;> simp

/-- Settles O55: each command by the frame it runs in. -/
theorem busAndBootLeaveTheRest : Obligations.BusAndBootLeaveTheRest :=
  ⟨by
      simp only [List.forall_mem_cons, List.not_mem_nil, false_implies, implies_true, and_true]
      exact ⟨powerOnReset_keeps.leaves (by decide), packageResetAssert_keeps.leaves (by decide),
        supplyUndervoltage_keeps.leaves (by decide), targetResetPattern_keeps.leaves (by decide)⟩,
    fun addr => (i3cAddressWrite_keeps addr).leaves (by decide),
    fun m => (i3cMalformedTransfer_keeps m).leaves (by decide),
    fun addr words => (registerWrite_keeps addr words).leaves (by decide),
    fun offset words => (bootFwwinWrite_keeps offset words).leaves (by decide),
    fun key => (bootReset_keeps key).leaves (by decide), packageResetRelease_keeps, hotJoinRequest_keeps,
    by
      simp only [List.forall_mem_cons, List.not_mem_nil, false_implies, implies_true, and_true]
      exact ⟨enec_keeps, disec_keeps, rstdaa_keeps, getmwl_keeps, getmrl_keeps, getpid_keeps, getbcr_keeps,
        getdcr_keeps, getstatus_keeps, getcaps_keeps, enthdr0_keeps, hdrExit_keeps⟩,
    entdaa_keeps, setdasa_keeps, setnewda_keeps, setmwl_keeps, setmrl_keeps, rstact_keeps, unsupportedCcc_keeps,
    enthdrUnsupported_keeps, ibiSend_keeps, evtVlogIdxWrite_keeps, evtFlogIdxWrite_keeps, rcRegisterRead_keeps,
    readOutsideWindow_keeps,
    by
      simp only [List.forall_mem_cons, List.not_mem_nil, false_implies, implies_true, and_true]
      exact ⟨ident_keeps, fuseLoad_keeps, train_keeps, fwLoad_keeps, fwVerify_keeps, ready_keeps⟩,
    sweep_keeps, clocks_keeps, fwStart_keeps, kat_keeps, trainItemEnd_keeps,
    by
      simp only [List.forall_mem_cons, List.not_mem_nil, false_implies, implies_true, and_true]
      exact ⟨loadIdle_keeps, stepTimeout_keeps⟩,
    bootStepEnd_keeps.leaves (by decide), evtRingRdWrite_keeps,
    by
      simp only [List.forall_mem_cons, List.not_mem_nil, false_implies, implies_true, and_true]
      exact ⟨latch_keeps, onPps_keeps⟩,
    flush_keeps, mbxDoorbell_keeps, mbxResponseFormed_keeps, diagLatch_keeps,
    fun ch => by
      simp only [List.forall_mem_cons, List.not_mem_nil, false_implies, implies_true, and_true]
      exact ⟨nop_keeps ch, handleQuery_keeps ch, resultGet_keeps ch, handleList_keeps ch, diagCollect_keeps ch⟩,
    fun ch => (handleCancel_keeps ch).leaves (by decide)⟩

end Sys2Proof.Machine
end

section
/-! SUPPORT. Time, sensors and front ends: what they leave unchanged (O56). -/

namespace Sys2Proof.Machine

section
variable {parts : List MachinePart}

/-- What the other streams hold stays when a stream that no tracking follows is stopped. -/
theorem Device.agrees_stopStream_of_le (base d : Device) {s : Nat} (hs : 24 ≤ s) (hps : [.ing] ⊆ parts) :
    base.agrees parts (d.stopStream s) ↔ base.agrees parts d := by
  simp at hps
  simp [Device.stopStream, hps, show ¬ s < 16 by omega, show ¬ s < 24 by omega]

@[simp] theorem Device.agrees_sfePushAll (base : Device) (s : Nat) (rs qs : List Int) (d : Device) (hps : [.sfe] ⊆ parts) :
    base.agrees parts (sfePushAll s rs qs d) ↔ base.agrees parts d := by
  induction rs generalizing qs d with
  | nil => rfl
  | cons r rs ih => simp [sfePushAll, ih, hps]

@[simp] theorem Device.agrees_auxGo (base : Device) (die : Nat) (c : SfeScan) (start i : Nat) (js : List Nat) (rs : List Int)
    (d : Device) (m : Store) (hps : [.diag, .time, .memsys, .sfe] ⊆ parts) :
    base.agrees parts (auxGo die c start i js rs d m).1 ↔ base.agrees parts d := by
  induction js generalizing i rs d m with
  | nil => rfl
  | cons j js ih =>
    simp at hps
    simp [auxGo, ih, hps]

@[simp] theorem Store.agrees_auxGo (base : Store) (die : Nat) (c : SfeScan) (start i : Nat) (js : List Nat) (rs : List Int)
    (d : Device) (m : Store) (hps : [.lp] ⊆ parts) :
    base.agrees parts (auxGo die c start i js rs d m).2 ↔ base.agrees parts m := by
  induction js generalizing i rs d m with
  | nil => rfl
  | cons j js ih =>
    simp [auxGo, ih, hps]

end

theorem timeStatus_keeps (ch : Fin 8) : Keeps (.timeStatus ch) [.evt, .mbx, .sec] :=
  keeps_query (fun s => show execTimeStatus ch s = _ from rfl) (by simp)

theorem compGet_keeps (ch : Fin 8) : Keeps (.compGet ch) [.evt, .mbx, .sec] :=
  keeps_query (fun s => show execCompGet ch s = _ from rfl) (by simp)

theorem ptpPortStatus_keeps (ch : Fin 8) : Keeps (.ptpPortStatus ch) [.evt, .mbx, .sec] :=
  keeps_query (fun s => show execPtpPortStatus ch s = _ from rfl) (by simp)

theorem streamStatus_keeps (ch : Fin 8) : Keeps (.streamStatus ch) [.evt, .mbx, .sec] :=
  keeps_query (fun s => show execStreamStatus ch s = _ from rfl) (by simp)

theorem ethStatus_keeps (ch : Fin 8) : Keeps (.ethStatus ch) [.evt, .mbx, .sec] :=
  keeps_query (fun s => show execEthStatus ch s = _ from rfl) (by simp)

theorem sfeStatus_keeps (ch : Fin 8) : Keeps (.sfeStatus ch) [.evt, .mbx, .sec] :=
  keeps_query (fun s => show execSfeStatus ch s = _ from rfl) (by simp)

theorem sfeCoefGet_keeps (ch : Fin 8) : Keeps (.sfeCoefGet ch) [.evt, .mbx, .sec] :=
  keeps_query (fun s => show execSfeCoefGet ch s = _ from rfl) (by simp)

theorem timeConfig_keepsSet : KeepsSet .timeConfig setTimeConfig [.time, .tim] :=
  keepsSet_of_agrees (fun ch s => show execTimeConfig ch s = _ from rfl) fun r d m => by simp [setTimeConfig, devBody]

theorem ptpPort_keepsSet : KeepsSet .ptpPort setPtpPort [.time, .tim] :=
  keepsSet_of_agrees (fun ch s => show execPtpPort ch s = _ from rfl) fun r d m => by simp [setPtpPort, devBody]

theorem ppsConfig_keepsSet : KeepsSet .ppsConfig setPpsConfig [.time, .tim] :=
  keepsSet_of_agrees (fun ch s => show execPpsConfig ch s = _ from rfl) fun r d m => by simp [setPpsConfig, devBody]

theorem timeSet_keeps (ch : Fin 8) : Keeps (.timeSet ch) [.evt, .mbx, .time, .sec] :=
  keeps_command (fun s => show execTimeSet ch s = _ from rfl) (by simp) fun r d => by simp

theorem compSet_keepsSet : KeepsSet .compSet setCompSet [.tim] :=
  keepsSet_of_agrees (fun ch s => show execCompSet ch s = _ from rfl) fun r d m => by simp [setCompSet, devBody]

theorem trigGroup_keepsSet : KeepsSet .trigGroup setTrigGroup [.tim] :=
  keepsSet_of_agrees (fun ch s => show execTrigGroup ch s = _ from rfl) fun r d m => by simp [setTrigGroup, devBody]

theorem trigOut_keepsSet : KeepsSet .trigOut setTrigOut [.tim] :=
  keepsSet_of_agrees (fun ch s => show execTrigOut ch s = _ from rfl) fun r d m => by simp [setTrigOut, devBody]

theorem triggerEdge_keeps (group : Fin 8) : Keeps (.triggerEdge group) [.evt, .mbx, .diag, .time, .tim, .jobs,
    .units, .clusters, .memsys, .vis, .grid, .slv, .loc, .map, .prs] :=
  keeps_onDev (fun s => show execTriggerEdge group s = _ from rfl) fun d => by
    split
    · simp
    next he => exact (Device.agrees_of_nextEdge he _ (by simp)).mpr (by simp)
    next e t he =>
      have h := (Device.agrees_of_nextEdge (parts := [.evt, .mbx, .diag, .time, .tim, .jobs, .units, .clusters, .memsys,
        .vis, .grid, .slv, .loc, .map, .prs]) he d (by simp)).mpr (by simp)
      dsimp only
      split <;> simpa using h

theorem ppsOutRise_keeps : Keeps .ppsOutRise [.diag, .time, .tim] :=
  keeps_onDev (fun s => show execPpsOutRise s = _ from rfl) fun d => by simp

theorem ppsOutFall_keeps : Keeps .ppsOutFall [.diag, .time, .tim] :=
  keeps_onDev (fun s => show execPpsOutFall s = _ from rfl) fun d => by simp

theorem pulseEnd_keeps (output : Fin 16) : Keeps (.pulseEnd output) [.diag, .time, .tim] :=
  keeps_onDev (fun s => show execPulseEnd output s = _ from rfl) fun d => by
    dsimp only
    repeat' split
    all_goals simp

theorem ptpMessageTx_keeps (port : Fin 4) (messageType : Nat) (at_ : Nat) : Keeps (.ptpMessageTx port messageType
    at_) [.diag, .time, .tim] :=
  keeps_onDev (fun s => show execPtpMessageTx port messageType at_ s = _ from rfl) fun d => by
    dsimp only
    repeat' split
    all_goals simp

theorem residenceEntryExpiry_keeps (port : Fin 4) : Keeps (.residenceEntryExpiry port) [.diag, .time, .tim] :=
  keeps_onDev (fun s => show execResidenceEntryExpiry port s = _ from rfl) fun d => by
    split <;> simp

theorem ppsInEdge_keeps (at_ : Nat) : Keeps (.ppsInEdge at_) [.evt, .diag, .time, .tim, .free] :=
  keeps_onDev (fun s => show execPpsInEdge at_ s = _ from rfl) fun d => by simp

theorem ptpMessageRx_keeps (port : Fin 4) (msg : PtpMsg) (at_ : Nat) : Keeps (.ptpMessageRx port msg at_) [.evt,
    .diag, .time, .tim, .free] :=
  keeps_onDev (fun s => show execPtpMessageRx port msg at_ s = _ from rfl) fun d => by
    dsimp only
    repeat' split
    all_goals simp

theorem ppsQualified_keeps : Keeps .ppsQualified [.evt, .time, .tim] :=
  keeps_onDev (fun s => show execPpsQualified s = _ from rfl) fun d => by simp

theorem servoLock_keeps : Keeps .servoLock [.evt, .time, .tim] :=
  keeps_onDev (fun s => show execServoLock s = _ from rfl) fun d => by simp

theorem ppsLost_keeps : Keeps .ppsLost [.evt, .diag, .time, .tim] :=
  keeps_onDev (fun s => show execPpsLost s = _ from rfl) fun d => by simp

theorem ptpMasterLost_keeps : Keeps .ptpMasterLost [.evt, .diag, .time, .tim] :=
  keeps_onDev (fun s => show execPtpMasterLost s = _ from rfl) fun d => by
    dsimp only
    repeat' split
    all_goals simp

theorem servoUnlock_keeps : Keeps .servoUnlock [.evt, .time] :=
  keeps_onDev (fun s => show execServoUnlock s = _ from rfl) fun d => by simp

theorem holdMaxExpiry_keeps : Keeps .holdMaxExpiry [.evt, .diag, .time] :=
  keeps_onDev (fun s => show execHoldMaxExpiry s = _ from rfl) fun d => by simp

theorem holdoverClassChange_keeps (at_ : Nat) : Keeps (.holdoverClassChange at_) [.evt, .diag, .time] :=
  keeps_onDev (fun s => show execHoldoverClassChange at_ s = _ from rfl) fun d => by simp

theorem ptpEventForward_keeps (port : Fin 4) (msg : PtpMsg) (rx : Nat) (tx : Nat) : Keeps (.ptpEventForward port msg
    rx tx) [.evt, .tim] :=
  keeps_onDev (fun s => show execPtpEventForward port msg rx tx s = _ from rfl) fun d => by
    dsimp only
    repeat' split
    all_goals simp

theorem timeStepApply_keeps : Keeps .timeStepApply [.evt, .diag, .time, .tim, .jobs, .units, .clusters, .memsys,
    .ing, .sfe, .vis, .grid, .slv, .loc, .prs, .lp] :=
  keeps_onBoth (fun s => show execTimeStepApply s = _ from rfl) fun d m => by
    split <;> simp

theorem tbSlaveFault_keeps (die : Fin 8) (offset : Nat) : Keeps (.tbSlaveFault die offset) [.evt, .diag, .tim, .pwr]
    :=
  keeps_onDev (fun s => show execTbSlaveFault die offset s = _ from rfl) fun d => by simp

theorem streamConfig_keepsSet : KeepsSet .streamConfig setStreamConfig [.memsys, .ing, .vis, .grid] :=
  keepsSet_of_agrees (fun ch s => show execStreamConfig ch s = _ from rfl) fun r d m => by simp [setStreamConfig, devBody]

theorem csiPort_keepsSet : KeepsSet .csiPort setCsiPort [.memsys, .ing, .vis, .grid] :=
  keepsSet_of_agrees (fun ch s => show execCsiPort ch s = _ from rfl) fun r d m => by simp [setCsiPort, devBody]

theorem imuPort_keepsSet : KeepsSet .imuPort setImuPort [.memsys, .ing, .grid] :=
  keepsSet_of_agrees (fun ch s => show execImuPort ch s = _ from rfl) fun r d m => by
    refine ⟨?_, Store.agrees_refl _ _⟩
    simp only [setImuPort, devBody, imuPort]
    repeat' split
    all_goals simp
    next he => simp [Device.agrees_of_enableStream he, Device.agrees_stopStream_of_le]

theorem encConfig_keepsSet : KeepsSet .encConfig setEncConfig [.memsys, .ing, .grid] :=
  keepsSet_of_agrees (fun ch s => show execEncConfig ch s = _ from rfl) fun r d m => by
    refine ⟨?_, Store.agrees_refl _ _⟩
    simp only [setEncConfig, devBody, encConfig]
    repeat' split
    all_goals simp
    · rw [Device.agrees_stopStream_of_le _ _ (by omega) (by simp)]
      simp
    next he => simp [Device.agrees_of_enableStream he]

theorem pairConfig_keepsSet : KeepsSet .pairConfig setPairConfig [.ing] :=
  keepsSet_of_agrees (fun ch s => show execPairConfig ch s = _ from rfl) fun r d m => by simp [setPairConfig, devBody]

theorem ethPort_keepsSet : KeepsSet .ethPort setEthPort [.ing] :=
  keepsSet_of_agrees (fun ch s => show execEthPort ch s = _ from rfl) fun r d m => by simp [setEthPort, devBody]

theorem lidarStream_keepsSet : KeepsSet .lidarStream setLidarStream [.ing] :=
  keepsSet_of_agrees (fun ch s => show execLidarStream ch s = _ from rfl) fun r d m => by simp [setLidarStream, devBody]

theorem canController_keepsSet : KeepsSet .canController setCanController [.ing] :=
  keepsSet_of_agrees (fun ch s => show execCanController ch s = _ from rfl) fun r d m => by simp [setCanController, devBody]

theorem canFilter_keepsSet : KeepsSet .canFilter setCanFilter [.ing] :=
  keepsSet_of_agrees (fun ch s => show execCanFilter ch s = _ from rfl) fun r d m => by simp [setCanFilter, devBody]

theorem bulkOpen_keeps (ch : Fin 8) : Keeps (.bulkOpen ch) [.evt, .mbx, .memsys, .ing, .sec] :=
  keeps_command (fun s => show execBulkOpen ch s = _ from rfl) (by simp) fun r d => by
    dsimp only
    repeat' split
    all_goals simp

theorem csiFrameStart_keeps (port : Fin 16) (vc : Nat) (frameNum : Nat) (ecc : Nat) (at_ : Nat) : Keeps
    (.csiFrameStart port vc frameNum ecc at_) [.evt, .diag, .time, .memsys, .ing, .lp] :=
  keeps_onBoth (fun s => show execCsiFrameStart port vc frameNum ecc at_ s = _ from rfl) fun d m => by
    dsimp only
    repeat' split
    all_goals simp

theorem csiFrameEnd_keeps (port : Fin 16) (vc : Nat) (ecc : Nat) (at_ : Nat) : Keeps (.csiFrameEnd port vc ecc at_)
    [.evt, .diag, .time, .memsys, .ing, .lp] :=
  keeps_onBoth (fun s => show execCsiFrameEnd port vc ecc at_ s = _ from rfl) fun d m => by simp

theorem frameTimeout_keeps (port : Fin 16) : Keeps (.frameTimeout port) [.evt, .diag, .time, .memsys, .ing, .lp] :=
  keeps_onBoth (fun s => show execFrameTimeout port s = _ from rfl) fun d m => by
    dsimp only
    repeat' split
    all_goals simp

theorem sweepClose_keeps (stream : Nat) : Keeps (.sweepClose stream) [.evt, .diag, .time, .memsys, .ing, .lp] :=
  keeps_onBoth (fun s => show execSweepClose stream s = _ from rfl) fun d m => by
    dsimp only
    repeat' split
    all_goals simp

theorem canFrameRx_keeps (ctrl : Fin 2) (fd : Bool) (extended : Bool) (remote : Bool) (id : Nat) (data : List Byte)
    (at_ : Nat) : Keeps (.canFrameRx ctrl fd extended remote id data at_) [.evt, .diag, .time, .memsys, .ing, .lp]
    :=
  keeps_onBoth (fun s => show execCanFrameRx ctrl fd extended remote id data at_ s = _ from rfl) fun d m => by
    dsimp only
    repeat' split
    all_goals simp

theorem csiLinePacket_keeps (port : Fin 16) (vc : Nat) (dt : Nat) (ecc : Nat) (crcOk : Bool) (pixels : List Nat)
    (words : Nat) : Keeps (.csiLinePacket port vc dt ecc crcOk pixels words) [.evt, .memsys, .ing, .lp] :=
  keeps_onBoth (fun s => show execCsiLinePacket port vc dt ecc crcOk pixels words s = _ from rfl) fun d m => by
    dsimp only
    repeat' split
    all_goals simp

theorem csiEmbeddedData_keeps (port : Fin 16) (vc : Nat) (ecc : Nat) (bytes : List Byte) : Keeps (.csiEmbeddedData
    port vc ecc bytes) [.evt, .ing] :=
  keeps_onDev (fun s => show execCsiEmbeddedData port vc ecc bytes s = _ from rfl) fun d => by
    dsimp only
    repeat' split
    all_goals simp

theorem pairLost_keeps (pair : Fin 8) : Keeps (.pairLost pair) [.evt, .ing] :=
  keeps_onDev (fun s => show execPairLost pair s = _ from rfl) fun d => by simp

theorem pairRecover_keeps (pair : Fin 8) : Keeps (.pairRecover pair) [.evt, .ing] :=
  keeps_onDev (fun s => show execPairRecover pair s = _ from rfl) fun d => by simp

theorem canErrorState_keeps (ctrl : Fin 2) (busOff : Bool) (tec : Nat) (rec : Nat) : Keeps (.canErrorState ctrl
    busOff tec rec) [.evt, .ing] :=
  keeps_onDev (fun s => show execCanErrorState ctrl busOff tec rec s = _ from rfl) fun d => by simp

theorem streamRecover_keeps (stream : Nat) : Keeps (.streamRecover stream) [.evt, .ing] :=
  keeps_onDev (fun s => show execStreamRecover stream s = _ from rfl) fun d => by simp

theorem csiBulkPacket_keeps (port : Fin 16) (vc dt ecc : Nat) (bytes : List Byte) :
    Keeps (.csiBulkPacket port vc dt ecc bytes) [.evt, .mbx, .memsys, .ing, .lp] :=
  keeps_onBoth (fun s => show execCsiBulkPacket port vc dt ecc bytes s = _ from rfl) fun d m => by
    dsimp only
    split
    · simp
    · split
      · simp
      · split
        · simp
        · split
          next hx => simp [Device.agrees_of_bulkPacket hx, Store.agrees_of_bulkPacket hx]
          · simp

theorem ethFrameRx_keeps (port : Fin 4) (frame : List Byte) (fcsOk : Bool) (at_ : Nat) : Keeps (.ethFrameRx port
    frame fcsOk at_) [.evt, .mbx, .diag, .time, .memsys, .ing, .lp] :=
  keeps_onBoth (fun s => show execEthFrameRx port frame fcsOk at_ s = _ from rfl) fun d m => by simp

theorem ethFrameTx_keeps (port : Fin 4) : Keeps (.ethFrameTx port) [.ing] :=
  keeps_onDev (fun s => show execEthFrameTx port s = _ from rfl) fun d => by simp

theorem busOffRecoveryDone_keeps (ctrl : Fin 2) : Keeps (.busOffRecoveryDone ctrl) [.ing] :=
  keeps_onDev (fun s => show execBusOffRecoveryDone ctrl s = _ from rfl) fun d => by simp

theorem imuDataReady_keeps (port : Fin 4) (at_ : Nat) : Keeps (.imuDataReady port at_) [.evt, .diag, .time, .ing] :=
  keeps_onDev (fun s => show execImuDataReady port at_ s = _ from rfl) fun d => by simp

theorem encoderEdge_keeps (enc : Fin 8) (a : Bool) (b : Bool) (at_ : Nat) : Keeps (.encoderEdge enc a b at_) [.evt,
    .diag, .time, .ing] :=
  keeps_onDev (fun s => show execEncoderEdge enc a b at_ s = _ from rfl) fun d => by
    dsimp only
    repeat' split
    all_goals simp

theorem encoderIndex_keeps (enc : Fin 8) (at_ : Nat) : Keeps (.encoderIndex enc at_) [.evt, .diag, .time, .ing] :=
  keeps_onDev (fun s => show execEncoderIndex enc at_ s = _ from rfl) fun d => by simp

theorem streamDropout_keeps (stream : Nat) : Keeps (.streamDropout stream) [.evt, .diag, .time, .ing] :=
  keeps_onDev (fun s => show execStreamDropout stream s = _ from rfl) fun d => by simp

theorem imuTransactionDone_keeps (port : Fin 4) (bytes : List Byte) : Keeps (.imuTransactionDone port bytes) [.evt,
    .memsys, .ing, .slv, .loc, .lp] :=
  keeps_onBoth (fun s => show execImuTransactionDone port bytes s = _ from rfl) fun d m => by
    dsimp only
    repeat' split
    all_goals simp

theorem encoderSample_keeps (enc : Fin 8) : Keeps (.encoderSample enc) [.diag, .time, .memsys, .ing, .lp] :=
  keeps_onBoth (fun s => show execEncoderSample enc s = _ from rfl) fun d m => by simp

theorem sfeChannel_keepsSet : KeepsSet .sfeChannel setSfeChannel [.memsys, .sfe] :=
  keepsSet_of_agrees (fun ch s => show execSfeChannel ch s = _ from rfl) fun r d m => by simp [setSfeChannel, devBody]

theorem sfeAuxScan_keepsSet : KeepsSet .sfeAuxScan setSfeAuxScan [.sfe] :=
  keepsSet_of_agrees (fun ch s => show execSfeAuxScan ch s = _ from rfl) fun r d m => by simp [setSfeAuxScan, devBody]

theorem sfeExc_keepsSet : KeepsSet .sfeExc setSfeExc [.sfe] :=
  keepsSet_of_agrees (fun ch s => show execSfeExc ch s = _ from rfl) fun r d m => by simp [setSfeExc, devBody]

theorem sfeDetect_keepsSet : KeepsSet .sfeDetect setSfeDetect [.sfe] :=
  keepsSet_of_agrees (fun ch s => show execSfeDetect ch s = _ from rfl) fun r d m => by simp [setSfeDetect, devBody]

theorem sfeCal_keepsSet : KeepsSet .sfeCal setSfeCal [.sfe] :=
  fun _ ch _ _ _ hm hn ho ha => same_of_configure (c := .sfeCal ch)
    (x := ⟨0x0404, 0, calObjs, devBody (sfeCalOn ch.val)⟩) (ch := ch)
    (fun s => show execSfeCal ch s = _ from rfl) (fun r d m => by simp [devBody, sfeCalOn]) hm hn ho ha

theorem sfeChannelStart_keeps (stream : Nat) : Keeps (.sfeChannelStart stream) [.diag, .time, .sfe] :=
  keeps_onDev (fun s => show execSfeChannelStart stream s = _ from rfl) fun d => by
    split <;> simp

theorem sfeOutputSample_keeps (stream : Nat) (raw : List Int) (raw2 : List Int) : Keeps (.sfeOutputSample stream raw
    raw2) [.diag, .time, .memsys, .sfe, .free, .lp] :=
  keeps_onBoth (fun s => show execSfeOutputSample stream raw raw2 s = _ from rfl) fun d m => by simp

theorem sfeDetectorWindow_keeps (stream : Nat) (raw raw2 : List Int) :
    Keeps (.sfeDetectorWindow stream raw raw2) [.diag, .time, .memsys, .sfe, .lp] :=
  keeps_onBoth (fun s => show execSfeDetectorWindow stream raw raw2 s = _ from rfl) fun d m => by
    dsimp only
    repeat' split
    all_goals simp

theorem sfeAuxScanStart_keeps (die : Fin 8) (raw : List Int) :
    Keeps (.sfeAuxScanStart die raw) [.diag, .time, .memsys, .sfe, .lp] :=
  keeps_onBoth (fun s => show execSfeAuxScanStart die raw s = _ from rfl) fun d m => by
    dsimp only
    split
    · simp
    · split
      · simp
      · simp

theorem sfeCalDone_keeps (die : Fin 8) (m0 : Int) (m1 : Int) (full : Bool) : Keeps (.sfeCalDone die m0 m1 full)
    [.evt, .mbx, .diag, .time, .sfe] :=
  keeps_onDev (fun s => show execSfeCalDone die m0 m1 full s = _ from rfl) fun d => by
    dsimp only
    repeat' split
    all_goals simp

theorem iepeBiasFault_keeps (stream : Nat) : Keeps (.iepeBiasFault stream) [.evt, .diag, .sfe] :=
  keeps_onDev (fun s => show execIepeBiasFault stream s = _ from rfl) fun d => by simp

theorem resolverLos_keeps (stream : Nat) : Keeps (.resolverLos stream) [.evt, .diag, .sfe] :=
  keeps_onDev (fun s => show execResolverLos stream s = _ from rfl) fun d => by simp

theorem sfeFaultRecover_keeps (stream : Nat) : Keeps (.sfeFaultRecover stream) [.evt, .sfe] :=
  keeps_onDev (fun s => show execSfeFaultRecover stream s = _ from rfl) fun d => by simp

theorem excOvercurrent_keeps (die : Fin 8) : Keeps (.excOvercurrent die) [.evt, .sfe] :=
  keeps_onDev (fun s => show execExcOvercurrent die s = _ from rfl) fun d => by simp

theorem sfeInputClamp_keeps (stream : Nat) : Keeps (.sfeInputClamp stream) [.evt, .sfe] :=
  keeps_onDev (fun s => show execSfeInputClamp stream s = _ from rfl) fun d => by simp

theorem phaseAutoUpdate_keeps (stream : Nat) : Keeps (.phaseAutoUpdate stream) [.sfe, .free] :=
  keeps_onDev (fun s => show execPhaseAutoUpdate stream s = _ from rfl) fun d => by simp

/-- Settles O56: each command by the frame it runs in. -/
theorem timeAndSensorsLeaveTheRest : Obligations.TimeAndSensorsLeaveTheRest :=
  ⟨fun ch => by
      simp only [List.forall_mem_cons, List.not_mem_nil, false_implies, implies_true, and_true]
      exact ⟨timeStatus_keeps ch, compGet_keeps ch, ptpPortStatus_keeps ch, streamStatus_keeps ch, ethStatus_keeps
        ch, sfeStatus_keeps ch, sfeCoefGet_keeps ch⟩,
    timeConfig_keepsSet, ptpPort_keepsSet, ppsConfig_keepsSet, timeSet_keeps, compSet_keepsSet,
    trigGroup_keepsSet, trigOut_keepsSet, triggerEdge_keeps,
    by
      simp only [List.forall_mem_cons, List.not_mem_nil, false_implies, implies_true, and_true]
      exact ⟨ppsOutRise_keeps, ppsOutFall_keeps⟩,
    pulseEnd_keeps, ptpMessageTx_keeps, residenceEntryExpiry_keeps, ppsInEdge_keeps, ptpMessageRx_keeps,
    by
      simp only [List.forall_mem_cons, List.not_mem_nil, false_implies, implies_true, and_true]
      exact ⟨ppsQualified_keeps, servoLock_keeps⟩,
    by
      simp only [List.forall_mem_cons, List.not_mem_nil, false_implies, implies_true, and_true]
      exact ⟨ppsLost_keeps, ptpMasterLost_keeps⟩,
    servoUnlock_keeps, holdMaxExpiry_keeps, holdoverClassChange_keeps, ptpEventForward_keeps,
    timeStepApply_keeps.leaves (by decide), tbSlaveFault_keeps, streamConfig_keepsSet, csiPort_keepsSet,
    imuPort_keepsSet, encConfig_keepsSet, pairConfig_keepsSet, ethPort_keepsSet, lidarStream_keepsSet,
    canController_keepsSet, canFilter_keepsSet, bulkOpen_keeps, csiFrameStart_keeps, csiFrameEnd_keeps,
    frameTimeout_keeps, sweepClose_keeps, canFrameRx_keeps, csiLinePacket_keeps, csiEmbeddedData_keeps,
    pairLost_keeps, pairRecover_keeps, canErrorState_keeps, streamRecover_keeps, csiBulkPacket_keeps,
    ethFrameRx_keeps, ethFrameTx_keeps, busOffRecoveryDone_keeps, imuDataReady_keeps, encoderEdge_keeps,
    encoderIndex_keeps, streamDropout_keeps, imuTransactionDone_keeps, encoderSample_keeps, sfeChannel_keepsSet,
    sfeAuxScan_keepsSet, sfeExc_keepsSet, sfeDetect_keepsSet, sfeCal_keepsSet, sfeChannelStart_keeps,
    sfeOutputSample_keeps, sfeDetectorWindow_keeps, sfeAuxScanStart_keeps, sfeCalDone_keeps,
    iepeBiasFault_keeps, resolverLos_keeps, sfeFaultRecover_keeps, excOvercurrent_keeps, sfeInputClamp_keeps,
    phaseAutoUpdate_keeps⟩

end Sys2Proof.Machine
end

section
/-! SUPPORT. Jobs, profiles, units, memory, links and power: what they leave unchanged (O57). -/

namespace Sys2Proof.Machine

section
variable {parts : List MachinePart}

/-- A pass over units. -/
@[simp] theorem Device.agrees_unitsFold (base : Device) (f : Nat → CUnit → CUnit) (us : List Nat) (d : Device)
    (hps : [.units] ⊆ parts) :
    base.agrees parts (us.foldl (fun (d : Device) u => d.updUnit u (f u)) d) ↔ base.agrees parts d :=
  Device.agrees_foldl (fun d u => (Device.agrees_updUnit _ _ _ _ hps).mpr (Device.agrees_refl _ _)) us base d

end

theorem jobSubmit_keeps (ch : Fin 8) : Keeps (.jobSubmit ch) [.evt, .mbx, .diag, .jobs, .units, .clusters, .memsys,
    .vis, .grid, .slv, .loc, .map, .prs, .sec] :=
  keeps_commandRead (fun s => show execJobSubmit ch s = _ from rfl) (by simp) fun r d m => by
    dsimp only
    repeat' split
    all_goals simp

theorem jobStatus_keeps (ch : Fin 8) : Keeps (.jobStatus ch) [.evt, .mbx, .sec] :=
  keeps_query (fun s => show execJobStatus ch s = _ from rfl) (by simp)

theorem jobList_keeps (ch : Fin 8) : Keeps (.jobList ch) [.evt, .mbx, .sec] :=
  keeps_query (fun s => show execJobList ch s = _ from rfl) (by simp)

theorem profileStatus_keeps (ch : Fin 8) : Keeps (.profileStatus ch) [.evt, .mbx, .sec] :=
  keeps_query (fun s => show execProfileStatus ch s = _ from rfl) (by simp)

theorem clusterStatus_keeps (ch : Fin 8) : Keeps (.clusterStatus ch) [.evt, .mbx, .sec] :=
  keeps_query (fun s => show execClusterStatus ch s = _ from rfl) (by simp)

theorem unitStatus_keeps (ch : Fin 8) : Keeps (.unitStatus ch) [.evt, .mbx, .sec] :=
  keeps_query (fun s => show execUnitStatus ch s = _ from rfl) (by simp)

theorem memStatus_keeps (ch : Fin 8) : Keeps (.memStatus ch) [.evt, .mbx, .sec] :=
  keeps_query (fun s => show execMemStatus ch s = _ from rfl) (by simp)

theorem bufInfo_keeps (ch : Fin 8) : Keeps (.bufInfo ch) [.evt, .mbx, .sec] :=
  keeps_query (fun s => show execBufInfo ch s = _ from rfl) (by simp)

theorem powerStatus_keeps (ch : Fin 8) : Keeps (.powerStatus ch) [.evt, .mbx, .sec] :=
  keeps_query (fun s => show execPowerStatus ch s = _ from rfl) (by simp)

theorem jobConfig_keeps (ch : Fin 8) : Keeps (.jobConfig ch) [.evt, .mbx, .jobs, .sec] :=
  keeps_command (fun s => show execJobConfig ch s = _ from rfl) (by simp) fun r d => by simp

theorem partReset_keeps (ch : Fin 8) : Keeps (.partReset ch) [.evt, .mbx, .diag, .jobs, .pwr, .units, .clusters,
    .sfe, .vis, .slv, .prs, .sec, .sram] :=
  keeps_commandLater (fun s => show execPartReset ch s = _ from rfl) (by simp) fun r d m => by simp

theorem domainPower_keeps (ch : Fin 8) : Keeps (.domainPower ch) [.evt, .mbx, .diag, .jobs, .pwr, .units, .clusters,
    .sfe, .vis, .slv, .prs, .sec, .sram] :=
  keeps_commandLater (fun s => show execDomainPower ch s = _ from rfl) (by simp) fun r d m => by simp

theorem dieReset_keeps (ch : Fin 8) : Keeps (.dieReset ch) [.evt, .mbx, .diag, .time, .tim, .jobs, .pwr, .units,
    .clusters, .memsys, .ing, .sfe, .vis, .grid, .slv, .map, .prs, .out, .sec, .lp, .sram] :=
  keeps_commandLater (fun s => show execDieReset ch s = _ from rfl) (by simp) fun r d m => by simp

theorem diePower_keeps (ch : Fin 8) : Keeps (.diePower ch) [.evt, .mbx, .diag, .time, .tim, .jobs, .pwr, .units,
    .clusters, .memsys, .ing, .sfe, .vis, .grid, .slv, .map, .prs, .out, .sec, .lp, .sram] :=
  keeps_commandLater (fun s => show execDiePower ch s = _ from rfl) (by simp) fun r d m => by simp

theorem profileLoad_keeps (ch : Fin 8) : Keeps (.profileLoad ch)
    [.evt, .mbx, .diag, .time, .tim, .jobs, .memsys, .ing, .sfe, .vis, .grid, .slv, .loc, .map, .prs, .out, .sec, .free, .lp] :=
  keeps_commandMem (fun s => show execProfileLoad ch s = _ from rfl) (by simp) fun r d m => by
    dsimp only
    repeat' split
    all_goals simp
    · rw [Device.agrees_loadUnder _ _ _ _ _ (fun y hy => (Device.agrees_of_loadZero hy _ (by simp)).mpr (by simp)) (by simp),
        Store.agrees_loadUnder _ _ _ _ _ (fun y hy => by simp [loadZero_mem hy])]
      simp
    · rw [Device.agrees_loadUnder _ _ _ _ _ (fun y hy => (Device.agrees_of_loadImage hy _ (by decide)).mpr (by simp)) (by simp),
        Store.agrees_loadUnder _ _ _ _ _ (fun y hy => (Store.agrees_of_loadImage hy _ (by simp)).mpr (by simp))]
      simp

theorem profileUnload_keeps (ch : Fin 8) : Keeps (.profileUnload ch) [.evt, .mbx, .diag, .jobs, .memsys, .vis,
    .grid, .loc, .map, .sec] :=
  keeps_command (fun s => show execProfileUnload ch s = _ from rfl) (by simp) fun r d => by simp

theorem jobPlace_keeps (job : Nat) : Keeps (.jobPlace job) [.evt, .mbx, .diag, .jobs, .pwr, .units, .clusters,
    .memsys, .vis, .grid, .slv, .loc, .map, .prs, .lp] :=
  keeps_onBoth (fun s => show execJobPlace job s = _ from rfl) fun d m => by simp

theorem jobLoaded_keeps (job : Nat) :
    Keeps (.jobLoaded job) [.evt, .mbx, .jobs, .units, .vis, .slv, .map, .prs, .out] :=
  keeps_onBoth (fun s => show execJobLoaded job s = _ from rfl) fun d m => by
    split
    · split
      · refine ⟨?_, Store.agrees_refl _ _⟩
        dsimp only
        split <;> simp
      · simp
    · simp

theorem bcastPacket_keeps (job : Nat) (part : Nat) : Keeps (.bcastPacket job part) [.clusters] :=
  keeps_onDev (fun s => show execBcastPacket job part s = _ from rfl) fun d => by
    repeat' split
    all_goals simp

theorem bcastAnswer_keeps (cluster : Fin 64) (slot : Fin 16) (seq : Nat) (ack : Bool) : Keeps (.bcastAnswer cluster
    slot seq ack) [.boot, .view, .evt, .diag, .jobs, .units, .clusters, .vis, .slv, .prs, .sec, .sram] :=
  keeps_onBoth (fun s => show execBcastAnswer cluster slot seq ack s = _ from rfl) fun d m => by
    dsimp only
    repeat' split
    all_goals simp

theorem bcastAckTimeout_keeps (cluster : Fin 64) (slot : Fin 16) (seq : Nat) : Keeps (.bcastAckTimeout cluster slot
    seq) [.boot, .view, .evt, .diag, .time, .jobs, .units, .clusters, .vis, .slv, .prs, .sec] :=
  keeps_onDev (fun s => show execBcastAckTimeout cluster slot seq s = _ from rfl) fun d => by
    split <;> simp

theorem descriptorIssue_keeps (unit : Fin 1088) : Keeps (.descriptorIssue unit) [.evt, .diag, .jobs, .units,
    .clusters, .memsys, .vis, .slv, .prs, .free, .lp, .sram] :=
  keeps_onBoth (fun s => show execDescriptorIssue unit s = _ from rfl) fun d m => by simp

theorem flagSignal_keeps (unit : Fin 1088) : Keeps (.flagSignal unit) [.units, .clusters] :=
  keeps_onDev (fun s => show execFlagSignal unit s = _ from rfl) fun d => by
    dsimp only
    repeat' split
    all_goals simp

theorem flagWaitMet_keeps (unit : Fin 1088) : Keeps (.flagWaitMet unit) [.units] :=
  keeps_onBoth (fun s => show execFlagWaitMet unit s = _ from rfl) fun d m => by simp

theorem waitTimeout_keeps (unit : Fin 1088) : Keeps (.waitTimeout unit) [.evt, .diag, .time, .jobs, .units,
    .clusters, .vis, .slv, .prs] :=
  keeps_onBoth (fun s => show execWaitTimeout unit s = _ from rfl) fun d m => by
    dsimp only
    repeat' split
    all_goals simp

theorem memCompletion_keeps (requester : Nat) (error : Nat) : Keeps (.memCompletion requester error) [.evt, .diag,
    .jobs, .units, .clusters, .memsys, .vis, .slv, .prs] :=
  keeps_onDev (fun s => show execMemCompletion requester error s = _ from rfl) fun d => by simp

theorem mscRequest_keeps (pa : Nat) (len : Nat) (write : Bool) (policy : Fin 3) (ecc : EccHit) : Keeps (.mscRequest
    pa len write policy ecc) [.evt, .diag, .jobs, .units, .clusters, .memsys, .vis, .slv, .prs] :=
  keeps_onDev (fun s => show execMscRequest pa len write policy ecc s = _ from rfl) fun d => by simp

theorem unitEnd_keeps (unit : Fin 1088) : Keeps (.unitEnd unit) [.jobs, .units, .clusters] :=
  keeps_onBoth (fun s => show execUnitEnd unit s = _ from rfl) fun d m => by
    dsimp only
    repeat' split
    all_goals simp

theorem schedEntryCopy_keeps (job : Nat) : Keeps (.schedEntryCopy job) [.evt, .diag, .jobs, .units, .clusters,
    .memsys, .vis, .slv, .prs, .lp, .sram] :=
  keeps_onBoth (fun s => show execSchedEntryCopy job s = _ from rfl) fun d m => by simp

theorem windowSlotLoad_keeps (job : Nat) : Keeps (.windowSlotLoad job) [.evt, .diag, .jobs, .units, .clusters,
    .memsys, .vis, .slv, .prs, .lp, .sram] :=
  keeps_onBoth (fun s => show execWindowSlotLoad job s = _ from rfl) fun d m => by simp

theorem patrolScrub_keeps (channel : Fin 16) (ecc : EccHit) : Keeps (.patrolScrub channel ecc) [.evt, .diag,
    .memsys] :=
  keeps_onDev (fun s => show execPatrolScrub channel ecc s = _ from rfl) fun d => by simp

theorem bufAlloc_keeps (ch : Fin 8) : Keeps (.bufAlloc ch) [.evt, .mbx, .memsys, .sec] :=
  keeps_command (fun s => show execBufAlloc ch s = _ from rfl) (by simp) fun r d => by
    dsimp only
    split
    · simp
    · split
      · simp
      next he => exact (Device.agrees_of_allocHost he _ (by simp)).mpr (by simp)

theorem bufFree_keeps (ch : Fin 8) : Keeps (.bufFree ch) [.evt, .mbx, .memsys, .sec] :=
  keeps_command (fun s => show execBufFree ch s = _ from rfl) (by simp) fun r d => by
    dsimp only
    repeat' split
    all_goals simp

theorem memRead_keeps (ch : Fin 8) : Keeps (.memRead ch) [.evt, .mbx, .diag, .memsys, .sec] :=
  keeps_commandRead (fun s => show execMemRead ch s = _ from rfl) (by simp) fun r d m => by
    dsimp only
    repeat' split
    all_goals simp

theorem memWrite_keeps (ch : Fin 8) : Keeps (.memWrite ch) [.evt, .mbx, .diag, .memsys, .sec, .lp] :=
  keeps_commandMem_of_eq (fun s => show execMemWrite ch s = _ from rfl) (by simp) fun r d m x hx => by
    split at hx
    · simp [← hx]
    · dsimp only at hx
      repeat' split at hx
      all_goals cases hx
      · simp
      · simp
      · simp
      · simp
      next hs => exact ⟨(Device.agrees_of_bufStore hs _ (by simp)).mpr (by simp),
        (Store.agrees_of_bufStore hs _ (by simp)).mpr (by simp)⟩

theorem jobCommit_keeps (job : Nat) (out : CommitOut) : Keeps (.jobCommit job out) [.evt, .mbx, .diag, .time, .tim,
    .jobs, .units, .clusters, .memsys, .ing, .sfe, .vis, .grid, .slv, .loc, .map, .prs, .out, .sec, .lp] :=
  keeps_onBoth (fun s => show execJobCommit job out s = _ from rfl) fun d m => by
    split
    · simp
    · split
      · simp
      · rw [Device.agrees_resumeAll _ _ _ (by decide)]
        simp

theorem jobFault_keeps (job : Nat) (cause : Nat) (source : Nat) (die : Fin 8) (index : Nat) (addr : Option Nat)
    (detail : Nat) : Keeps (.jobFault job cause source die index addr detail) [.evt, .diag, .jobs, .units,
    .clusters, .vis, .slv, .prs] :=
  keeps_onDev (fun s => show execJobFault job cause source die index addr detail s = _ from rfl) fun d => by simp

theorem flitParityError_keeps (die : Fin 8) (requester : Nat) (job : Nat) (addr : Option Nat) : Keeps
    (.flitParityError die requester job addr) [.evt, .diag, .jobs, .units, .clusters, .vis, .slv, .prs] :=
  keeps_onDev (fun s => show execFlitParityError die requester job addr s = _ from rfl) fun d => by simp

theorem jobRestart_keeps (job : Nat) : Keeps (.jobRestart job) [.evt, .mbx, .diag, .time, .tim, .jobs, .pwr, .units,
    .clusters, .memsys, .ing, .sfe, .vis, .grid, .slv, .loc, .map, .prs, .out, .st, .sec, .lp, .sram] :=
  keeps_onBoth (fun s => show execJobRestart job s = _ from rfl) fun d m => by
    split
    · simp
    · split
      · split <;> simp
      · rw [Device.agrees_resumeAll _ _ _ (by decide)]
        simp

theorem linkCrcError_keeps (link : Fin 10) (far : Bool) : Keeps (.linkCrcError link far) [.diag] :=
  keeps_onDev (fun s => show execLinkCrcError link far s = _ from rfl) fun d => by simp

theorem linkRetrain_keeps (link : Fin 10) (state : Fin 3) (held : List Nat) : Keeps (.linkRetrain link state held)
    [.view, .evt, .diag, .jobs, .units, .clusters, .vis, .slv, .prs, .sec] :=
  keeps_onDev (fun s => show execLinkRetrain link state held s = _ from rfl) fun d => by simp

theorem cpWatchdog_keeps (die : Fin 8) : Keeps (.cpWatchdog die) [.evt, .diag, .jobs, .pwr, .units, .clusters, .vis,
    .slv, .prs] :=
  keeps_onDev (fun s => show execCpWatchdog die s = _ from rfl) fun d => by simp

theorem cpSramUe_keeps (die : Fin 8) (place : Fin 4) : Keeps (.cpSramUe die place) [.evt, .diag, .jobs, .pwr,
    .units, .clusters, .memsys, .vis, .slv, .prs] :=
  keeps_onDev (fun s => show execCpSramUe die place s = _ from rfl) fun d => by simp

theorem pllLockLoss_keeps (die : Fin 8) (island : Fin 13) : Keeps (.pllLockLoss die island) MachinePart.resetParts
    :=
  keeps_onBoth (fun s => show execPllLockLoss die island s = _ from rfl) fun d m => by simp

theorem refClockLoss_keeps (ref : Fin 3) (die : Fin 8) : Keeps (.refClockLoss ref die) MachinePart.resetParts :=
  keeps_onBoth (fun s => show execRefClockLoss ref die s = _ from rfl) fun d m => by simp

theorem thermalEval_keeps (tj : List Int) : Keeps (.thermalEval tj) MachinePart.resetParts :=
  keeps_onBoth (fun s => show execThermalEval tj s = _ from rfl) fun d m => by simp

theorem powerConfig_keeps (ch : Fin 8) : Keeps (.powerConfig ch) [.evt, .mbx, .pwr, .sec] :=
  keeps_command (fun s => show execPowerConfig ch s = _ from rfl) (by simp) fun r d => by simp

theorem diePowerOnDone_keeps (die : Fin 8) (engines : List Nat) (units : List Nat) : Keeps (.diePowerOnDone die
    engines units) [.boot, .view, .evt, .mbx, .diag, .pwr, .units, .memsys, .sfe, .map, .prs, .sec] :=
  keeps_onDev (fun s => show execDiePowerOnDone die engines units s = _ from rfl) fun d => by simp

theorem pwrSense_keeps (ch : Fin 8) : Keeps (.pwrSense ch) [.evt, .mbx, .pwr, .sfe, .sec] :=
  keeps_command (fun s => show execPwrSense ch s = _ from rfl) (by simp) fun r d => by simp

theorem domainPowerGood_keeps (die : Fin 8) (domain : Fin 12) : Keeps (.domainPowerGood die domain) [.evt, .mbx,
    .pwr, .sfe, .sec] :=
  keeps_onDev (fun s => show execDomainPowerGood die domain s = _ from rfl) fun d => by simp

theorem limiterEval_keeps (uncore : Nat) (cores : List Nat) : Keeps (.limiterEval uncore cores) [.evt, .diag, .time,
    .pwr] :=
  keeps_onDev (fun s => show execLimiterEval uncore cores s = _ from rfl) fun d => by simp

/-- Settles O57: each command by the frame it runs in. -/
theorem jobsAndPowerLeaveTheRest : Obligations.JobsAndPowerLeaveTheRest :=
  ⟨jobSubmit_keeps,
    fun ch => by
      simp only [List.forall_mem_cons, List.not_mem_nil, false_implies, implies_true, and_true]
      exact ⟨jobStatus_keeps ch, jobList_keeps ch, profileStatus_keeps ch, clusterStatus_keeps ch,
        unitStatus_keeps ch, memStatus_keeps ch, bufInfo_keeps ch, powerStatus_keeps ch⟩,
    jobConfig_keeps,
    fun ch => by
      simp only [List.forall_mem_cons, List.not_mem_nil, false_implies, implies_true, and_true]
      exact ⟨partReset_keeps ch, domainPower_keeps ch⟩,
    fun ch => by
      simp only [List.forall_mem_cons, List.not_mem_nil, false_implies, implies_true, and_true]
      exact ⟨(dieReset_keeps ch).leaves (by decide), (diePower_keeps ch).leaves (by decide)⟩,
    fun ch => (profileLoad_keeps ch).leaves (by decide), profileUnload_keeps, jobPlace_keeps, jobLoaded_keeps,
    bcastPacket_keeps, bcastAnswer_keeps, bcastAckTimeout_keeps, descriptorIssue_keeps, flagSignal_keeps,
    flagWaitMet_keeps, waitTimeout_keeps, memCompletion_keeps, mscRequest_keeps, unitEnd_keeps,
    schedEntryCopy_keeps, windowSlotLoad_keeps, patrolScrub_keeps,
    fun ch => by
      simp only [List.forall_mem_cons, List.not_mem_nil, false_implies, implies_true, and_true]
      exact ⟨bufAlloc_keeps ch, bufFree_keeps ch⟩,
    memRead_keeps, memWrite_keeps, fun job out => (jobCommit_keeps job out).leaves (by decide), jobFault_keeps,
    flitParityError_keeps, fun job => (jobRestart_keeps job).leaves (by decide), linkCrcError_keeps,
    linkRetrain_keeps, cpWatchdog_keeps, cpSramUe_keeps,
    fun die island => (pllLockLoss_keeps die island).leaves (by decide),
    fun ref die => (refClockLoss_keeps ref die).leaves (by decide),
    fun tj => (thermalEval_keeps tj).leaves (by decide), powerConfig_keeps, diePowerOnDone_keeps,
    pwrSense_keeps, domainPowerGood_keeps, limiterEval_keeps⟩

end Sys2Proof.Machine
end

section
/-! SUPPORT. Engines, localisation, map, search, outputs, self-test and security: what they leave unchanged (O58). -/

namespace Sys2Proof.Machine

section
variable {parts : List MachinePart}

/-- A device whose fuses are written. -/
@[simp] theorem Device.agrees_putFuse (base d : Device) (f : Fuses) (hps : [.fuse] ⊆ parts) :
    base.agrees parts { d with fuse := f } ↔ base.agrees parts d := by
  simp at hps
  refine Device.agrees.iff (fun p m hp => ?_) base
  cases p <;> simp_all [MachinePart.same]

@[simp] theorem Device.agrees_eventMsgs (base : Device) (p n : Nat) (es : List EventRec) (d : Device)
    (hps : [.evt, .mbx, .out] ⊆ parts) : base.agrees parts (eventMsgs p n es d) ↔ base.agrees parts d := by
  induction n generalizing es d with
  | zero => rfl
  | succ n ih =>
    unfold eventMsgs
    split
    · rfl
    · exact (ih _ _).trans (Device.agrees_formOn _ _ _ _ _ _ _ hps)

theorem Device.agrees_of_map_bufStore {d : Device} {m : Store} {id o : Nat} {bs : List Byte} {x : Device × Store}
    (hx : ((d.bufStore m id o bs).map fun z => z) = .ok x) : d.bufStore m id o bs = .ok x := by
  cases h : d.bufStore m id o bs with
  | error e => simp [h, Except.map] at hx
  | ok y => simpa [h, Except.map] using hx

end

theorem steConfig_keepsSet : KeepsSet .steConfig setSteConfig [.vis] :=
  keepsSet_of_agrees (fun ch s => show execSteConfig ch s = _ from rfl) fun r d m => by simp [setSteConfig, devBody]

theorem steMap_keepsSet : KeepsSet .steMap setSteMap [.vis] :=
  keepsSet_of_agrees (fun ch s => show execSteMap ch s = _ from rfl) fun r d m => by simp [setSteMap, devBody]

theorem steMask_keepsSet : KeepsSet .steMask setSteMask [.vis] :=
  keepsSet_of_agrees (fun ch s => show execSteMask ch s = _ from rfl) fun r d m => by simp [setSteMask, devBody]

theorem fteConfig_keepsSet : KeepsSet .fteConfig setFteConfig [.vis] :=
  keepsSet_of_agrees (fun ch s => show execFteConfig ch s = _ from rfl) fun r d m => by simp [setFteConfig, devBody]

theorem fteMask_keepsSet : KeepsSet .fteMask setFteMask [.vis] :=
  keepsSet_of_agrees (fun ch s => show execFteMask ch s = _ from rfl) fun r d m => by simp [setFteMask, devBody]

theorem steStatus_keeps (ch : Fin 8) : Keeps (.steStatus ch) [.evt, .mbx, .sec] :=
  keeps_query (fun s => show execSteStatus ch s = _ from rfl) (by simp)

theorem fteStatus_keeps (ch : Fin 8) : Keeps (.fteStatus ch) [.evt, .mbx, .sec] :=
  keeps_query (fun s => show execFteStatus ch s = _ from rfl) (by simp)

theorem fteTrackGet_keeps (ch : Fin 8) : Keeps (.fteTrackGet ch) [.evt, .mbx, .sec] :=
  keeps_query (fun s => show execFteTrackGet ch s = _ from rfl) (by simp)

theorem calGet_keeps (ch : Fin 8) : Keeps (.calGet ch) [.evt, .mbx, .sec] :=
  keeps_query (fun s => show execCalGet ch s = _ from rfl) (by simp)

theorem fusionStatus_keeps (ch : Fin 8) : Keeps (.fusionStatus ch) [.evt, .mbx, .sec] :=
  keeps_query (fun s => show execFusionStatus ch s = _ from rfl) (by simp)

theorem ppStatus_keeps (ch : Fin 8) : Keeps (.ppStatus ch) [.evt, .mbx, .sec] :=
  keeps_query (fun s => show execPpStatus ch s = _ from rfl) (by simp)

theorem locStatus_keeps (ch : Fin 8) : Keeps (.locStatus ch) [.evt, .mbx, .sec] :=
  keeps_query (fun s => show execLocStatus ch s = _ from rfl) (by simp)

theorem poseGet_keeps (ch : Fin 8) : Keeps (.poseGet ch) [.evt, .mbx, .sec] :=
  keeps_query (fun s => show execPoseGet ch s = _ from rfl) (by simp)

theorem mapStatus_keeps (ch : Fin 8) : Keeps (.mapStatus ch) [.evt, .mbx, .sec] :=
  keeps_query (fun s => show execMapStatus ch s = _ from rfl) (by simp)

theorem mapGet_keeps (ch : Fin 8) : Keeps (.mapGet ch) [.evt, .mbx, .sec] :=
  keeps_query (fun s => show execMapGet ch s = _ from rfl) (by simp)

theorem prsStatus_keeps (ch : Fin 8) : Keeps (.prsStatus ch) [.evt, .mbx, .sec] :=
  keeps_query (fun s => show execPrsStatus ch s = _ from rfl) (by simp)

theorem outStatus_keeps (ch : Fin 8) : Keeps (.outStatus ch) [.evt, .mbx, .sec] :=
  keeps_query (fun s => show execOutStatus ch s = _ from rfl) (by simp)

theorem eventGet_keeps (ch : Fin 8) : Keeps (.eventGet ch) [.evt, .mbx, .sec] :=
  keeps_query (fun s => show execEventGet ch s = _ from rfl) (by simp)

theorem guideStatus_keeps (ch : Fin 8) : Keeps (.guideStatus ch) [.evt, .mbx, .sec] :=
  keeps_query (fun s => show execGuideStatus ch s = _ from rfl) (by simp)

theorem stProgress_keeps (ch : Fin 8) : Keeps (.stProgress ch) [.evt, .mbx, .sec] :=
  keeps_query (fun s => show execStProgress ch s = _ from rfl) (by simp)

theorem stFuseStatus_keeps (ch : Fin 8) : Keeps (.stFuseStatus ch) [.evt, .mbx, .sec] :=
  keeps_query (fun s => show execStFuseStatus ch s = _ from rfl) (by simp)

theorem secStatus_keeps (ch : Fin 8) : Keeps (.secStatus ch) [.evt, .mbx, .sec] :=
  keeps_query (fun s => show execSecStatus ch s = _ from rfl) (by simp)

theorem idInfo_keeps (ch : Fin 8) : Keeps (.idInfo ch) [.evt, .mbx, .sec] :=
  keeps_query (fun s => show execIdInfo ch s = _ from rfl) (by simp)

theorem attest_keeps (ch : Fin 8) : Keeps (.attest ch) [.evt, .mbx, .sec] :=
  keeps_command (fun s => show execAttest ch s = _ from rfl) (by simp) fun r d => by simp

theorem fwUpdate_keeps (ch : Fin 8) : Keeps (.fwUpdate ch) [.evt, .mbx, .sec] :=
  keeps_command (fun s => show execFwUpdate ch s = _ from rfl) (by simp) fun r d => by simp

theorem secRollback_keeps (ch : Fin 8) : Keeps (.secRollback ch) [.evt, .mbx, .sec] :=
  keeps_command (fun s => show execSecRollback ch s = _ from rfl) (by simp) fun r d => by simp

theorem secRevoke_keeps (ch : Fin 8) : Keeps (.secRevoke ch) [.evt, .mbx, .sec] :=
  keeps_command (fun s => show execSecRevoke ch s = _ from rfl) (by simp) fun r d => by simp

theorem debugUnlock_keeps (ch : Fin 8) : Keeps (.debugUnlock ch) [.evt, .mbx, .sec] :=
  keeps_command (fun s => show execDebugUnlock ch s = _ from rfl) (by simp) fun r d => by simp

theorem steRun_keeps (ch : Fin 8) : Keeps (.steRun ch) [.evt, .mbx, .jobs, .sec] :=
  keeps_commandRead (fun s => show execSteRun ch s = _ from rfl) (by simp) fun r d m => by simp

theorem fteRun_keeps (ch : Fin 8) : Keeps (.fteRun ch) [.evt, .mbx, .jobs, .sec] :=
  keeps_commandRead (fun s => show execFteRun ch s = _ from rfl) (by simp) fun r d m => by simp

theorem slvSolve_keeps (ch : Fin 8) : Keeps (.slvSolve ch) [.evt, .mbx, .jobs, .sec] :=
  keeps_command (fun s => show execSlvSolve ch s = _ from rfl) (by simp) fun r d => by simp

theorem prsTreeLoad_keeps (ch : Fin 8) : Keeps (.prsTreeLoad ch) [.evt, .mbx, .jobs, .sec] :=
  keeps_command (fun s => show execPrsTreeLoad ch s = _ from rfl) (by simp) fun r d => by
    dsimp only
    repeat' split
    all_goals simp

theorem prsUpdate_keeps (ch : Fin 8) : Keeps (.prsUpdate ch) [.evt, .mbx, .jobs, .sec] :=
  keeps_command (fun s => show execPrsUpdate ch s = _ from rfl) (by simp) fun r d => by
    dsimp only
    repeat' split
    all_goals simp

theorem prsCompact_keeps (ch : Fin 8) : Keeps (.prsCompact ch) [.evt, .mbx, .jobs, .sec] :=
  keeps_command (fun s => show execPrsCompact ch s = _ from rfl) (by simp) fun r d => by simp

theorem steBandBuild_keeps (die : Fin 8) (view : Fin 2) : Keeps (.steBandBuild die view) [.evt, .diag, .jobs,
    .units, .clusters, .vis, .slv, .prs] :=
  keeps_onBoth (fun s => show execSteBandBuild die view s = _ from rfl) fun d m => by
    dsimp only
    repeat' split
    all_goals simp

theorem fteBandBuild_keeps (die : Fin 8) (view : Fin 2) : Keeps (.fteBandBuild die view) [.evt, .diag, .jobs,
    .units, .clusters, .vis, .slv, .prs] :=
  keeps_onBoth (fun s => show execFteBandBuild die view s = _ from rfl) fun d m => by
    dsimp only
    repeat' split
    all_goals simp

theorem steBandWrite_keeps (die : Fin 8) (slots : List (Nat × Nat × Nat × Nat)) : Keeps (.steBandWrite die slots)
    [.evt, .diag, .jobs, .units, .clusters, .vis, .slv, .prs, .sram] :=
  keeps_onBoth (fun s => show execSteBandWrite die slots s = _ from rfl) fun d m => by
    dsimp only
    repeat' split
    all_goals simp

theorem steTileBoundary_keeps (die : Fin 8) : Keeps (.steTileBoundary die) [.diag, .vis] :=
  keeps_onBoth (fun s => show execSteTileBoundary die s = _ from rfl) fun d m => by
    dsimp only
    repeat' split
    all_goals simp

theorem steOpDone_keeps (die : Fin 8) : Keeps (.steOpDone die) [.evt, .diag, .jobs, .units, .clusters, .memsys,
    .vis, .slv, .prs, .out, .lp] :=
  keeps_onBoth (fun s => show execSteOpDone die s = _ from rfl) fun d m => by
    extract_lets p
    split
    · simp
    · split
      · simp
      next o ho =>
        extract_lets x y at_
        split
        next buf off hb =>
          extract_lets e put
          have he : d.agrees [.evt, .diag, .jobs, .units, .clusters, .memsys, .vis, .slv, .prs, .out, .lp] e := by
            simp only [e]
            split <;> simp
          clear_value e
          split
          · exact ⟨(Device.agrees_engineFault _ _ _ _ _ _ (by simp)).mpr he, Store.agrees_refl _ _⟩
          next a ha =>
            have ha := Device.agrees_of_map_bufStore ha
            have hd := (Device.agrees_of_bufStore ha d (by simp)).mpr he
            have hm := (Store.agrees_of_bufStore (parts := [.evt, .diag, .jobs, .units, .clusters, .memsys, .vis, .slv, .prs, .out, .lp]) ha m (by simp)).mpr (Store.agrees_refl _ _)
            split
            · exact ⟨(Device.agrees_engineFault _ _ _ _ _ _ (by simp)).mpr hd, hm⟩
            next b hb =>
              have hd := (Device.agrees_of_bufStore hb d (by simp)).mpr hd
              have hm := (Store.agrees_of_bufStore hb m (by simp)).mpr hm
              split
              · exact ⟨(Device.agrees_engineFault _ _ _ _ _ _ (by simp)).mpr hd, hm⟩
              next hf =>
                refine ⟨?_, (Store.agrees_of_bufStore hf m (by simp)).mpr hm⟩
                have hd := (Device.agrees_of_bufStore hf d (by simp)).mpr hd
                dsimp only
                split <;> simp [hd]

theorem fteTrackOp_keeps (die : Fin 8) (view : Fin 2) (h : List Nat) (fbBuf : Nat) (fbOff : Nat) (fbCount : Nat)
    (cluster : Nat) (block : Nat) (flag : Nat) : Keeps (.fteTrackOp die view h fbBuf fbOff fbCount cluster block
    flag) [.evt, .diag, .jobs, .units, .clusters, .memsys, .vis, .slv, .prs, .lp, .sram] :=
  keeps_onBoth (fun s => show execFteTrackOp die view h fbBuf fbOff fbCount cluster block flag s = _ from rfl) fun d m => by
    dsimp only
    repeat' split
    all_goals simp

theorem fteDormantExpire_keeps (stream : Fin 16) (slot : Nat) : Keeps (.fteDormantExpire stream slot) [.vis] :=
  keeps_onDev (fun s => show execFteDormantExpire stream slot s = _ from rfl) fun d => by
    split <;> simp

theorem fteFreezeExpire_keeps (stream : Fin 16) : Keeps (.fteFreezeExpire stream) [.vis] :=
  keeps_onDev (fun s => show execFteFreezeExpire stream s = _ from rfl) fun d => by simp

theorem gridConfig_keepsSet : KeepsSet .gridConfig setGridConfig [.grid] :=
  keepsSet_of_agrees (fun ch s => show execGridConfig ch s = _ from rfl) fun r d m => by simp [setGridConfig, devBody]

theorem gridSource_keepsSet : KeepsSet .gridSource setGridSource [.grid] :=
  keepsSet_of_agrees (fun ch s => show execGridSource ch s = _ from rfl) fun r d m => by simp [setGridSource, devBody]

theorem calSet_keepsSet : KeepsSet .calSet setCalSet [.grid] :=
  keepsSet_of_agrees (fun ch s => show execCalSet ch s = _ from rfl) fun r d m => by simp [setCalSet, devBody]

theorem calRefine_keepsSet : KeepsSet .calRefine setCalRefine [.grid] :=
  keepsSet_of_agrees (fun ch s => show execCalRefine ch s = _ from rfl) fun r d m => by simp [setCalRefine, devBody]

theorem checkConfig_keepsSet : KeepsSet .checkConfig setCheckConfig [.grid] :=
  keepsSet_of_agrees (fun ch s => show execCheckConfig ch s = _ from rfl) fun r d m => by simp [setCheckConfig, devBody]

theorem checkDecision_keeps (check : Fin 2) (estimates : List Estimate) : Keeps (.checkDecision check estimates)
    [.evt, .diag, .grid, .free] :=
  keeps_onDev (fun s => show execCheckDecision check estimates s = _ from rfl) fun d => by
    split <;> simp

theorem checkSourceClean_keeps (source : Nat) : Keeps (.checkSourceClean source) [.evt, .grid] :=
  keeps_onDev (fun s => show execCheckSourceClean source s = _ from rfl) fun d => by simp

theorem haloCopy_keeps (die : Fin 8) (width : Nat) (hmax : Nat) (c0 : Nat) (c1 : Nat) (below : Nat × Nat) (above :
    Nat × Nat) (error : Bool) : Keeps (.haloCopy die width hmax c0 c1 below above error) [.evt, .diag, .jobs,
    .units, .clusters, .memsys, .vis, .grid, .slv, .prs, .lp] :=
  keeps_onBoth (fun s => show execHaloCopy die width hmax c0 c1 below above error s = _ from rfl) fun d m => by
    split <;> simp

theorem calRefineTick_keeps (stream : Fin 24) : Keeps (.calRefineTick stream) [.diag, .time, .jobs, .grid] :=
  keeps_onDev (fun s => show execCalRefineTick stream s = _ from rfl) fun d => by
    refine Device.agrees_ite_intro (fun _ => Device.agrees_refl _ _) fun _ => ?_
    refine Device.agrees_ite_intro (fun _ => by simp) fun _ => ?_
    split
    · simp
    next hj => simp [Device.agrees_of_admitJob hj]

theorem slvLoad_keeps (ch : Fin 8) : Keeps (.slvLoad ch) [.evt, .mbx, .diag, .memsys, .slv, .sec] :=
  keeps_commandRead (fun s => show execSlvLoad ch s = _ from rfl) (by simp) fun r d m => by
    dsimp only
    split
    · simp
    · split
      · simp
      · split
        · simp
        · refine (Device.agrees_accept _ _ _ _ _ (by simp) fun h e => ?_).mpr (by simp)
          split
          · simp
          · split <;> simp

theorem slvUpdate_keeps (ch : Fin 8) : Keeps (.slvUpdate ch) [.evt, .mbx, .slv, .sec] :=
  keeps_commandRead (fun s => show execSlvUpdate ch s = _ from rfl) (by simp) fun r d m => by
    dsimp only
    repeat' split
    all_goals simp

theorem slvUnload_keeps (ch : Fin 8) : Keeps (.slvUnload ch) [.evt, .mbx, .slv, .sec] :=
  keeps_command (fun s => show execSlvUnload ch s = _ from rfl) (by simp) fun r d => by simp

theorem slvStatus_keeps (ch : Fin 8) : Keeps (.slvStatus ch) [.evt, .mbx, .sec, .free] :=
  keeps_command (fun s => show execSlvStatus ch s = _ from rfl) (by simp) fun r d => by simp

theorem debugChallenge_keeps (ch : Fin 8) : Keeps (.debugChallenge ch) [.evt, .mbx, .sec, .free] :=
  keeps_command (fun s => show execDebugChallenge ch s = _ from rfl) (by simp) fun r d => by simp

theorem ppConfig_keepsSet : KeepsSet .ppConfig setPpConfig [.slv] :=
  keepsSet_of_agrees (fun ch s => show execPpConfig ch s = _ from rfl) fun r d m => by simp [setPpConfig, devBody]

theorem slvStepBoundary_keeps (die : Fin 8) (cycles : Nat) : Keeps (.slvStepBoundary die cycles) [.slv] :=
  keeps_onDev (fun s => show execSlvStepBoundary die cycles s = _ from rfl) fun d => by simp

theorem slvDeadline_keeps (job : Nat) : Keeps (.slvDeadline job) [.diag, .time, .slv] :=
  keeps_onDev (fun s => show execSlvDeadline job s = _ from rfl) fun d => by
    repeat' split
    all_goals simp

theorem slvSolveEnd_keeps (die : Fin 8) (result : SlvOut) : Keeps (.slvSolveEnd die result) [.evt, .diag, .jobs,
    .units, .clusters, .memsys, .vis, .slv, .prs, .lp] :=
  keeps_onBoth (fun s => show execSlvSolveEnd die result s = _ from rfl) fun d m => by simp

theorem roundMerge_keeps (job : Nat) (n : Nat) : Keeps (.roundMerge job n) [.evt, .diag, .jobs, .units, .clusters,
    .memsys, .vis, .slv, .prs, .lp] :=
  keeps_onBoth (fun s => show execRoundMerge job n s = _ from rfl) fun d m => by
    dsimp only
    repeat' split
    all_goals simp

theorem ppRecord_keeps : Keeps .ppRecord [.evt, .mbx, .diag, .time, .slv, .loc, .out] :=
  keeps_onDev (fun s => show execPpRecord s = _ from rfl) fun d => by simp

theorem locConfig_keepsSet : KeepsSet .locConfig setLocConfig [.loc] :=
  keepsSet_of_agrees (fun ch s => show execLocConfig ch s = _ from rfl) fun r d m => by simp [setLocConfig, devBody]

theorem wheelConfig_keepsSet : KeepsSet .wheelConfig setWheelConfig [.loc] :=
  keepsSet_of_agrees (fun ch s => show execWheelConfig ch s = _ from rfl) fun r d m => by simp [setWheelConfig, devBody]

theorem gnssConfig_keepsSet : KeepsSet .gnssConfig setGnssConfig [.loc] :=
  keepsSet_of_agrees (fun ch s => show execGnssConfig ch s = _ from rfl) fun r d m => by simp [setGnssConfig, devBody]

theorem loopConfig_keepsSet : KeepsSet .loopConfig setLoopConfig [.loc] :=
  keepsSet_of_agrees (fun ch s => show execLoopConfig ch s = _ from rfl) fun r d m => by simp [setLoopConfig, devBody]

theorem locReset_keeps (ch : Fin 8) : Keeps (.locReset ch) [.evt, .mbx, .diag, .slv, .loc, .map, .sec] :=
  keeps_command (fun s => show execLocReset ch s = _ from rfl) (by simp) fun r d => by simp

theorem gnssFix_keeps (ch : Fin 8) : Keeps (.gnssFix ch) [.evt, .mbx, .diag, .loc, .map, .sec] :=
  keeps_command (fun s => show execGnssFix ch s = _ from rfl) (by simp) fun r d => by
    dsimp only
    repeat' split
    all_goals simp

theorem locLostTimeout_keeps : Keeps .locLostTimeout [.evt, .diag, .time, .loc] :=
  keeps_onDev (fun s => show execLocLostTimeout s = _ from rfl) fun d => by simp

theorem locReinitTimeout_keeps : Keeps .locReinitTimeout [.evt, .diag, .time, .slv, .loc, .map] :=
  keeps_onDev (fun s => show execLocReinitTimeout s = _ from rfl) fun d => by simp

theorem locInitStart_keeps : Keeps .locInitStart [.evt, .diag, .slv, .loc, .map] :=
  keeps_onDev (fun s => show execLocInitStart s = _ from rfl) fun d => by simp

theorem tickDeadline_keeps : Keeps .tickDeadline [.diag, .time, .jobs, .slv] :=
  keeps_onDev (fun s => show execTickDeadline s = _ from rfl) fun d => by
    split <;> simp

theorem loopCorrectionApply_keeps : Keeps .loopCorrectionApply [.slv, .loc] :=
  keeps_onDev (fun s => show execLoopCorrectionApply s = _ from rfl) fun d => by
    split <;> simp

theorem mapConfig_keepsSet : KeepsSet .mapConfig setMapConfig [.diag, .memsys, .map] :=
  keepsSet_of_agrees (fun ch s => show execMapConfig ch s = _ from rfl) fun r d m => by simp [setMapConfig, devBody]

theorem mapLoad_keeps (ch : Fin 8) : Keeps (.mapLoad ch) [.evt, .mbx, .jobs, .map, .sec] :=
  keeps_commandRead (fun s => show execMapLoad ch s = _ from rfl) (by simp) fun r d m => by simp

theorem mapExport_keeps (ch : Fin 8) : Keeps (.mapExport ch) [.evt, .mbx, .jobs, .map, .sec] :=
  keeps_command (fun s => show execMapExport ch s = _ from rfl) (by simp) fun r d => by simp

theorem mapSession_keeps (ch : Fin 8) : Keeps (.mapSession ch) [.evt, .mbx, .diag, .loc, .map, .prs, .sec] :=
  keeps_command (fun s => show execMapSession ch s = _ from rfl) (by simp) fun r d => by
    dsimp only
    repeat' split
    all_goals simp

theorem mapClear_keeps (ch : Fin 8) : Keeps (.mapClear ch) [.evt, .mbx, .diag, .loc, .map, .prs, .sec] :=
  keeps_command (fun s => show execMapClear ch s = _ from rfl) (by simp) fun r d => by simp

theorem mapReclaim_keeps : Keeps .mapReclaim [.evt, .diag, .map] :=
  keeps_onDev (fun s => show execMapReclaim s = _ from rfl) fun d => by simp

theorem prsIndex_keepsSet : KeepsSet .prsIndex setPrsIndex [.diag, .memsys, .prs] :=
  keepsSet_of_agrees (fun ch s => show execPrsIndex ch s = _ from rfl) fun r d m => by simp [setPrsIndex, devBody]

theorem prsQuery_keeps (ch : Fin 8) : Keeps (.prsQuery ch) [.evt, .mbx, .jobs, .prs, .sec] :=
  keeps_command (fun s => show execPrsQuery ch s = _ from rfl) (by simp) fun r d => by
    dsimp only
    repeat' split
    all_goals simp

theorem prsConfig_keepsSet : KeepsSet .prsConfig setPrsConfig [.prs] :=
  keepsSet_of_agrees (fun ch s => show execPrsConfig ch s = _ from rfl) fun r d m => by simp [setPrsConfig, devBody]

theorem batchWindowClose_keeps (die : Fin 8) : Keeps (.batchWindowClose die) [.diag, .time, .prs] :=
  keeps_onDev (fun s => show execBatchWindowClose die s = _ from rfl) fun d => by
    dsimp only
    repeat' split
    all_goals simp

theorem shardCompaction_keeps (die : Fin 8) (index : Nat) (leaf : Nat) : Keeps (.shardCompaction die index leaf)
    [.diag, .prs] :=
  keeps_onDev (fun s => show execShardCompaction die index leaf s = _ from rfl) fun d => by
    split <;> simp

theorem outPort_keepsSet : KeepsSet .outPort setOutPort [.out] :=
  keepsSet_of_agrees (fun ch s => show execOutPort ch s = _ from rfl) fun r d m => by simp [setOutPort, devBody]

theorem outRoute_keepsSet : KeepsSet .outRoute setOutRoute [.out] :=
  keepsSet_of_agrees (fun ch s => show execOutRoute ch s = _ from rfl) fun r d m => by simp [setOutRoute, devBody]

theorem guideConfig_keepsSet : KeepsSet .guideConfig setGuideConfig [.out] :=
  keepsSet_of_agrees (fun ch s => show execGuideConfig ch s = _ from rfl) fun r d m => by simp [setGuideConfig, devBody]

theorem guideSelect_keepsSet : KeepsSet .guideSelect setGuideSelect [.out] :=
  keepsSet_of_agrees (fun ch s => show execGuideSelect ch s = _ from rfl) fun r d m => by simp [setGuideSelect, devBody]

theorem outBulk_keeps (ch : Fin 8) : Keeps (.outBulk ch) [.evt, .mbx, .out, .sec] :=
  keeps_command (fun s => show execOutBulk ch s = _ from rfl) (by simp) fun r d => by simp

theorem guidePath_keeps (ch : Fin 8) : Keeps (.guidePath ch) [.evt, .mbx, .diag, .memsys, .out, .sec] :=
  keeps_commandRead (fun s => show execGuidePath ch s = _ from rfl) (by simp) fun r d m => by
    dsimp only
    split
    · simp
    · split
      · simp
      · refine (Device.agrees_accept _ _ _ _ _ (by simp) fun h e => ?_).mpr (by simp)
        split
        · simp
        · split <;> simp

theorem txPartSend_keeps (port : Fin 2) : Keeps (.txPartSend port) [.evt, .mbx, .diag, .time, .memsys, .out] :=
  keeps_onBoth (fun s => show execTxPartSend port s = _ from rfl) fun d m => by
    dsimp only
    repeat' split
    all_goals simp

theorem eventMsgForm_keeps (port : Fin 2) : Keeps (.eventMsgForm port) [.evt, .mbx, .diag, .time, .out] :=
  keeps_onDev (fun s => show execEventMsgForm port s = _ from rfl) fun d => by
    dsimp only
    split <;> simp

theorem diagMsgForm_keeps (port : Fin 2) : Keeps (.diagMsgForm port) [.evt, .mbx, .diag, .time, .out] :=
  keeps_onDev (fun s => show execDiagMsgForm port s = _ from rfl) fun d => by simp

theorem guideInstant_keeps : Keeps .guideInstant [.evt, .diag, .time, .out, .free] :=
  keeps_onDev (fun s => show execGuideInstant s = _ from rfl) fun d => by
    dsimp only
    repeat' split
    all_goals simp

theorem stRun_keeps (ch : Fin 8) : Keeps (.stRun ch) [.evt, .mbx, .jobs, .memsys, .st, .sec] :=
  keeps_command (fun s => show execStRun ch s = _ from rfl) (by simp) fun r d => by simp

theorem stFuse_keeps (ch : Fin 8) : Keeps (.stFuse ch) [.evt, .mbx, .st, .sec] :=
  keeps_command (fun s => show execStFuse ch s = _ from rfl) (by simp) fun r d => by simp

theorem stSliceStart_keeps (run : Nat) : Keeps (.stSliceStart run) [.evt, .mbx, .diag, .jobs, .units, .clusters,
    .memsys, .vis, .grid, .slv, .loc, .map, .prs, .st, .free, .lp] :=
  keeps_onBoth (fun s => show execStSliceStart run s = _ from rfl) fun d m => by simp

theorem stSliceBusy_keeps (run : Nat) : Keeps (.stSliceBusy run) [.evt, .mbx, .diag, .time, .jobs, .units,
    .clusters, .memsys, .vis, .grid, .slv, .loc, .map, .prs, .st] :=
  keeps_onDev (fun s => show execStSliceBusy run s = _ from rfl) fun d => by
    split <;> simp

theorem stSliceEnd_keeps (run : Nat) (out : SliceOut) : Keeps (.stSliceEnd run out) [.boot, .view, .evt, .mbx,
    .diag, .jobs, .pwr, .units, .clusters, .memsys, .sfe, .vis, .grid, .slv, .loc, .map, .prs, .st, .sec, .free,
    .sram] :=
  keeps_onBoth (fun s => show execStSliceEnd run out s = _ from rfl) fun d m => by simp

theorem stSliceTimeout_keeps (run : Nat) : Keeps (.stSliceTimeout run) [.boot, .view, .evt, .mbx, .diag, .time,
    .jobs, .pwr, .units, .clusters, .memsys, .sfe, .vis, .grid, .slv, .loc, .map, .prs, .st, .sec, .sram] :=
  keeps_onBoth (fun s => show execStSliceTimeout run s = _ from rfl) fun d m => by simp

theorem stWindowVoid_keeps (run : Nat) : Keeps (.stWindowVoid run) [.evt, .mbx, .diag, .jobs, .units, .clusters,
    .memsys, .sfe, .vis, .grid, .slv, .loc, .map, .prs, .st, .sram] :=
  keeps_onBoth (fun s => show execStWindowVoid run s = _ from rfl) fun d m => by
    split <;> simp

theorem fuseRecordBlow_keeps (ok : Bool) : Keeps (.fuseRecordBlow ok) [.fuse, .evt, .mbx, .st, .sec] :=
  keeps_onDev (fun s => show execFuseRecordBlow ok s = _ from rfl) fun d => by
    split
    · simp
    · split
      · rw [Device.agrees_fuseNext _ _ _ (by simp)]
        refine Device.agrees_ite_intro (fun _ => ?_) fun _ => ?_
        · exact (Device.agrees_mk (by simp)).mpr ((Device.agrees_putFuse _ _ _ (by simp)).mpr (Device.agrees_refl _ _))
        · exact (Device.agrees_putFuse _ _ _ (by simp)).mpr (Device.agrees_refl _ _)
      · simp

theorem cryptoOpDone_keeps (fail : Option Nat) : Keeps (.cryptoOpDone fail) [.fuse, .evt, .mbx, .diag, .memsys,
    .sec, .free, .flash] :=
  keeps_onBoth (fun s => show execCryptoOpDone fail s = _ from rfl) fun d m => by simp

theorem debugTapInstruction_keeps (instr : TapInstr) : Keeps (.debugTapInstruction instr) MachinePart.resetParts := by
  refine Keeps.of_agrees fun s t hn => ?_
  change execDebugTapInstruction instr s = _ at hn
  simp only [execDebugTapInstruction] at hn
  split at hn
  · cases hn
    simp
  · cases hn
    simp
  · split at hn <;> cases hn <;> simp
  · cases hn
    dsimp only
    split <;> simp
  · split at hn
    · cases hn
      simp
    · cases hn
      dsimp only
      split <;> simp
  · cases hn
    dsimp only
    split
    · simp
    · split <;> simp
  · split at hn <;> cases hn
    simp
  · split at hn <;> cases hn
    simp

theorem guidanceFrameTx_keeps : Keeps .guidanceFrameTx [.out] :=
  keeps_onDev (fun s => show execGuidanceFrameTx s = _ from rfl) fun d => by
    dsimp only
    repeat' split
    all_goals simp

theorem healthTestFailure_keeps : Keeps .healthTestFailure [.sec] :=
  keeps_onDev (fun s => show execHealthTestFailure s = _ from rfl) fun d => by simp

/-- Settles O58: each command by the frame it runs in. -/
theorem enginesLeaveTheRest : Obligations.EnginesLeaveTheRest :=
  ⟨steConfig_keepsSet, steMap_keepsSet, steMask_keepsSet, fteConfig_keepsSet, fteMask_keepsSet,
    fun ch => by
      simp only [List.forall_mem_cons, List.not_mem_nil, false_implies, implies_true, and_true]
      exact ⟨steStatus_keeps ch, fteStatus_keeps ch, fteTrackGet_keeps ch, calGet_keeps ch, fusionStatus_keeps ch,
        ppStatus_keeps ch, locStatus_keeps ch, poseGet_keeps ch, mapStatus_keeps ch, mapGet_keeps ch,
        prsStatus_keeps ch, outStatus_keeps ch, eventGet_keeps ch, guideStatus_keeps ch, stProgress_keeps ch,
        stFuseStatus_keeps ch, secStatus_keeps ch, idInfo_keeps ch, attest_keeps ch, fwUpdate_keeps ch,
        secRollback_keeps ch, secRevoke_keeps ch, debugUnlock_keeps ch⟩,
    fun ch => by
      simp only [List.forall_mem_cons, List.not_mem_nil, false_implies, implies_true, and_true]
      exact ⟨steRun_keeps ch, fteRun_keeps ch, slvSolve_keeps ch, prsTreeLoad_keeps ch, prsUpdate_keeps ch,
        prsCompact_keeps ch⟩,
    steBandBuild_keeps, fteBandBuild_keeps, steBandWrite_keeps, steTileBoundary_keeps, steOpDone_keeps,
    fteTrackOp_keeps, fteDormantExpire_keeps, fteFreezeExpire_keeps, gridConfig_keepsSet, gridSource_keepsSet,
    calSet_keepsSet, calRefine_keepsSet, checkConfig_keepsSet, checkDecision_keeps, checkSourceClean_keeps,
    haloCopy_keeps, calRefineTick_keeps, slvLoad_keeps,
    fun ch => by
      simp only [List.forall_mem_cons, List.not_mem_nil, false_implies, implies_true, and_true]
      exact ⟨slvUpdate_keeps ch, slvUnload_keeps ch⟩,
    fun ch => by
      simp only [List.forall_mem_cons, List.not_mem_nil, false_implies, implies_true, and_true]
      exact ⟨slvStatus_keeps ch, debugChallenge_keeps ch⟩,
    ppConfig_keepsSet, slvStepBoundary_keeps, slvDeadline_keeps, slvSolveEnd_keeps, roundMerge_keeps,
    ppRecord_keeps, locConfig_keepsSet, wheelConfig_keepsSet, gnssConfig_keepsSet, loopConfig_keepsSet,
    locReset_keeps, gnssFix_keeps, locLostTimeout_keeps, locReinitTimeout_keeps, locInitStart_keeps,
    tickDeadline_keeps, loopCorrectionApply_keeps, mapConfig_keepsSet,
    fun ch => by
      simp only [List.forall_mem_cons, List.not_mem_nil, false_implies, implies_true, and_true]
      exact ⟨mapLoad_keeps ch, mapExport_keeps ch⟩,
    fun ch => by
      simp only [List.forall_mem_cons, List.not_mem_nil, false_implies, implies_true, and_true]
      exact ⟨mapSession_keeps ch, mapClear_keeps ch⟩,
    mapReclaim_keeps, prsIndex_keepsSet, prsQuery_keeps, prsConfig_keepsSet, batchWindowClose_keeps,
    shardCompaction_keeps, outPort_keepsSet, outRoute_keepsSet, guideConfig_keepsSet, guideSelect_keepsSet,
    outBulk_keeps, guidePath_keeps, txPartSend_keeps, eventMsgForm_keeps, diagMsgForm_keeps, guideInstant_keeps,
    stRun_keeps, stFuse_keeps, fun run => (stSliceStart_keeps run).leaves (by decide), stSliceBusy_keeps,
    fun run out => (stSliceEnd_keeps run out).leaves (by decide),
    fun run => (stSliceTimeout_keeps run).leaves (by decide),
    fun run => (stWindowVoid_keeps run).leaves (by decide), fuseRecordBlow_keeps, cryptoOpDone_keeps,
    fun instr => (debugTapInstruction_keeps instr).leaves (by decide), guidanceFrameTx_keeps,
    healthTestFailure_keeps⟩

end Sys2Proof.Machine
end

section
/-! SUPPORT. The canonical form of the memories (O4): each operation of the model that changes a memory keeps it. The proofs follow
the frame laws of the same operations. -/

namespace Sys2Proof.Machine

theorem Store.canonical_iff (m : Store) : m.canonical = true ↔
    Cells.wf 0#8 m.lp = true ∧ Cells.wf 0#8 m.sram = true ∧ Cells.wf 0xFF#8 m.flash = true := by
  simp [Store.canonical, and_assoc]

/-- Memories that agree in every part have one canonical form. -/
theorem Store.canonical_of_agrees {m n : Store} (h : m.agrees [] n) : n.canonical = m.canonical := by
  have hl : n.lp = m.lp := h .lp Device.reset (by simp)
  have hs : n.sram = m.sram := h .sram Device.reset (by simp)
  have hf : n.flash = m.flash := (h .flash Device.reset (by simp)).1
  simp only [Store.canonical, hl, hs, hf]

@[simp] theorem Store.canonical_ite (m n : Store) (c : Prop) [Decidable c] :
    (if c then m else n).canonical = if c then m.canonical else n.canonical := by split <;> rfl

@[simp] theorem Store.canonical_ite_snd {α : Type} (x y : α × Store) (c : Prop) [Decidable c] :
    (if c then x else y).2.canonical = if c then x.2.canonical else y.2.canonical := by split <;> rfl

@[simp] theorem Store.canonical_ite_fst_snd {α β : Type} (x y : (α × Store) × β) (c : Prop) [Decidable c] :
    (if c then x else y).1.2.canonical = if c then x.1.2.canonical else y.1.2.canonical := by split <;> rfl

/-- What every step of a fold keeps, the fold keeps. -/
theorem Store.canonical_foldl_of {α β : Type} {f : β → α → β} {g : β → Store}
    (h : ∀ b x, (g b).canonical = true → (g (f b x)).canonical = true) (l : List α) (b : β)
    (hb : (g b).canonical = true) : (g (l.foldl f b)).canonical = true := by
  induction l generalizing b with
  | nil => exact hb
  | cons x l ih => exact ih _ (h b x hb)

/-- Memories with other LPDDR6 of canonical form. -/
theorem Store.canonical_withLp {m : Store} {c : Cells} (hm : m.canonical = true) (hc : Cells.wf 0#8 c = true) :
    ({ m with lp := c } : Store).canonical = true := by
  obtain ⟨-, hs, hf⟩ := m.canonical_iff.mp hm
  exact (Store.canonical_iff _).mpr ⟨hc, hs, hf⟩

/-- Memories with other landings and scratch of canonical form. -/
theorem Store.canonical_withSram {m : Store} {c : Cells} (hm : m.canonical = true) (hc : Cells.wf 0#8 c = true) :
    ({ m with sram := c } : Store).canonical = true := by
  obtain ⟨hl, -, hf⟩ := m.canonical_iff.mp hm
  exact (Store.canonical_iff _).mpr ⟨hl, hc, hf⟩

theorem Store.wf_lp {m : Store} (hm : m.canonical = true) : Cells.wf 0#8 m.lp = true := (m.canonical_iff.mp hm).1

theorem Store.wf_sram {m : Store} (hm : m.canonical = true) : Cells.wf 0#8 m.sram = true := (m.canonical_iff.mp hm).2.1

/-- An outcome chosen by a condition is canonical where both are. -/
theorem Store.canonical_of_ite {α : Type} {x y : α × Store} {c : Prop} [Decidable c] (hx : x.2.canonical = true)
    (hy : y.2.canonical = true) : (if c then x else y).2.canonical = true := by
  split
  · exact hx
  · exact hy

@[simp] theorem Store.canonical_writeAll (m : Store) (a : Nat) (bs : List Byte) (hm : m.canonical = true) :
    ({ m with lp := Cells.writeAll 0#8 m.lp a bs } : Store).canonical = true :=
  Store.canonical_withLp hm (Cells.wf_writeAll _ _ _ _ (Store.wf_lp hm))

@[simp] theorem Store.canonical_clear (m : Store) (a n : Nat) (hm : m.canonical = true) :
    ({ m with lp := m.lp.clear a n } : Store).canonical = true :=
  Store.canonical_withLp hm (Cells.wf_clear _ _ _ _ (Store.wf_lp hm))

/-- Volatile memories lost (R85). -/
@[simp] theorem Store.canonical_lost (m : Store) (hm : m.canonical = true) :
    ({ m with lp := [], sram := [] } : Store).canonical = true :=
  Store.canonical_withSram (m := { m with lp := [] }) (Store.canonical_withLp hm rfl) rfl


/-! ## Bring-up, registers and buffers -/

@[simp] theorem Store.canonical_packageReset (m : Store) (hm : m.canonical = true) : m.packageReset.canonical = true :=
  Store.canonical_lost m hm

@[simp] theorem Store.canonical_bootFwLoad (d : Device) (m : Store) (hm : m.canonical = true) : (bootFwLoad d
    m).2.canonical = true := by
  simp only [bootFwLoad]
  split
  · simp [hm]
  · split
    · simp [hm]
    · split <;> simp [hm]

@[simp] theorem Store.canonical_bootStep (code : Nat) (i : BootInput) (d : Device) (m : Store) (hm : m.canonical =
    true) : (bootStep code i d m).2.canonical = true := by
  unfold bootStep
  repeat' split
  all_goals simp [hm]

@[simp] theorem Store.canonical_trainItem (item status density : Nat) (d : Device) (m : Store) (hm : m.canonical =
    true) : (trainItem item status density d m).2.canonical = true := by
  simp [trainItem, hm]

@[simp] theorem Store.canonical_fwWindow (offset : Nat) (words : List Word) (d : Device) (m : Store) (hm :
    m.canonical = true) : (fwWindow offset words d m).2.canonical = true := by
  simp only [fwWindow]
  repeat' split
  all_goals simp [hm]

@[simp] theorem Store.canonical_bootReset (key : Word) (d : Device) (m : Store) (hm : m.canonical = true) :
    (bootReset key d m).2.canonical = true := by
  simp [bootReset, hm]

@[simp] theorem Store.canonical_bufWrite (m : Store) (b : Buffer) (o : Nat) (bs : List Byte) (hm : m.canonical = true) :
    (m.bufWrite b o bs).canonical = true :=
  Store.canonical_withLp hm (layBytes_wf _ _ _ (Store.wf_lp hm))

theorem Store.canonical_of_bufStore {d : Device} {m : Store} {id o : Nat} {bs : List Byte} {x : Device × Store} (hx
    : d.bufStore m id o bs = .ok x) (hm : m.canonical = true) : x.2.canonical = true := by
  unfold Device.bufStore at hx
  split at hx
  · cases hx
  · split at hx <;> cases hx
    simp [hm]

@[simp] theorem Store.canonical_fwWrite (id o : Nat) (bs : List Byte) (d : Device) (m : Store) (hm : m.canonical =
    true) : (fwWrite id o bs d m).2.canonical = true := by
  unfold fwWrite
  split
  next r hr => exact Store.canonical_of_bufStore hr hm
  · exact hm

@[simp] theorem Store.canonical_sramWrite (m : Store) (a : Nat) (bs : List Byte) (hm : m.canonical = true) :
    (m.sramWrite a bs).canonical = true :=
  Store.canonical_withSram hm (Cells.wf_writeAll _ _ _ _ (Store.wf_sram hm))

@[simp] theorem Store.canonical_loseCluster (m : Store) (c : Nat) (hm : m.canonical = true) :
    (m.loseCluster c).canonical = true :=
  Store.canonical_withSram hm (Cells.wf_clear _ _ _ _ (Cells.wf_clear _ _ _ _ (Store.wf_sram hm)))

@[simp] theorem Store.canonical_zeroChannel (m : Store) (c : Nat) (hm : m.canonical = true) : (m.zeroChannel
    c).canonical = true := by
  simp [Store.zeroChannel, hm]

/-! ## Jobs, rings and vision -/

@[simp] theorem Store.canonical_snapCopy (back : Bool) (gs : List Grant) (x : Device × Store)
    (hm : x.2.canonical = true) : (snapCopy back gs x).2.canonical = true := by
  induction gs generalizing x with
  | nil => exact hm
  | cons g gs ih =>
    simp only [snapCopy]
    split
    · split
      · exact ih _ (by simp [hm])
      · exact ih _ hm
    · exact ih _ hm

@[simp] theorem Store.canonical_restartJob (id : Nat) (d : Device) (m : Store) (hm : m.canonical = true) :
    (restartJob id d m).2.canonical = true := by
  simp only [restartJob]
  repeat' split
  all_goals simp [hm]

@[simp] theorem Store.canonical_cancelJob (id : Nat) (d : Device) (m : Store) (hm : m.canonical = true) : (cancelJob
    id d m).2.canonical = true := by
  simp only [cancelJob]
  split
  · exact hm
  · split <;> simp [hm]

@[simp] theorem Store.canonical_placeJob (id : Nat) (d : Device) (m : Store) (hm : m.canonical = true) : (placeJob
    id d m).2.canonical = true := by
  simp only [placeJob]
  repeat' split
  all_goals simp [hm]

@[simp] theorem Store.canonical_devBody (f : Request → Device → Device × Reply) (r : Request) (d : Device) (m :
    Store) : (devBody f r d m).1.2.canonical = m.canonical :=
  Store.canonical_of_agrees (by simp)

@[simp] theorem Store.canonical_ringWrite (s : Nat) (rec_ : List Byte) (dts : BitVec 128) (d : Device) (m : Store)
    (hm : m.canonical = true) : (ringWrite s rec_ dts d m).1.2.canonical = true := by
  simp [ringWrite, hm]

@[simp] theorem Store.canonical_steMap (r : Request) (d : Device) (m : Store) : (steMap r d m).1.2.canonical =
    m.canonical :=
  Store.canonical_of_agrees (by simp)

@[simp] theorem Store.canonical_steMask (r : Request) (d : Device) (m : Store) : (steMask r d m).1.2.canonical =
    m.canonical :=
  Store.canonical_of_agrees (by simp)

@[simp] theorem Store.canonical_fteMask (r : Request) (d : Device) (m : Store) : (fteMask r d m).1.2.canonical =
    m.canonical :=
  Store.canonical_of_agrees (by simp)

@[simp] theorem Store.canonical_descWrites (c : FteCfg) (w : Work) (d : Device) (m : Store) (hm : m.canonical = true) :
    (descWrites c w d m).2.canonical = true := by
  unfold descWrites
  split
  · exact hm
  · exact Store.canonical_foldl_of (g := Prod.snd) (fun x k hx => by simp [hx]) _ _
      (Store.canonical_foldl_of (g := Prod.snd) (fun x e hx => by simp [hx]) _ _ hm)

theorem Store.canonical_of_fteList {o : FteOp} {cluster block flag : Nat} {list : List Byte} {d : Device} {m :
    Store} {x : Device × Store} (hx : fteList o cluster block flag list d m = some x) (hm : m.canonical = true) :
    x.2.canonical = true := by
  simp only [fteList] at hx
  split at hx <;> cases hx
  simp [hm]

@[simp] theorem Store.canonical_fteRunOp (o : FteOp) (a b : FrameSrc) (d : Device) (m : Store) (hm : m.canonical =
    true) : (fteRunOp o a b d m).2.canonical = true := by
  simp only [fteRunOp]
  split
  · exact hm
  next x hx =>
    have h := Store.canonical_of_bufStore hx hm
    exact h

@[simp] theorem Store.canonical_fteTickOp (o : FteOp) (f : FrameSrc) (h : List Nat) (entries : List (List Byte))
    (cluster block flag : Nat) (d : Device) (m : Store) (hm : m.canonical = true) : (fteTickOp o f h entries cluster
    block flag d m).2.canonical = true := by
  simp only [fteTickOp]
  split
  · exact hm
  next x hx => simp [hm, Store.canonical_of_fteList hx]

/-! ## Units, the grid, the solver, frames and schedules -/

theorem Env.canonical_of_write {ws : List (Nat × List Byte)} {e f : Env} (hf : e.write ws = .ok f)
    (hm : e.mem.canonical = true) : f.mem.canonical = true := by
  induction ws generalizing e with
  | nil =>
    cases hf
    exact hm
  | cons w ws ih =>
    obtain ⟨a, bs⟩ := w
    rw [Env.write] at hf
    cases hl : locOf a with
    | error x => simp [hl, bind, Except.bind] at hf
    | ok l =>
      cases hc : e.check l bs.length true with
      | error x => simp [hl, hc, bind, Except.bind] at hf
      | ok u =>
        cases l <;> (simp only [hl, hc, bind, Except.bind] at hf; exact ih hf (by simp [hm]))

theorem Env.canonical_of_run {e f : Env} {x : Desc} {n : Nat} (hf : e.run x = .ok (f, n))
    (hm : e.mem.canonical = true) : f.mem.canonical = true := by
  obtain ⟨ws, hw⟩ := Env.write_of_run hf
  exact Env.canonical_of_write hw hm

@[simp] theorem Store.canonical_issue (phys : Nat) (d : Device) (m : Store) (hm : m.canonical = true) :
    (issue phys d m).2.canonical = true := by
  unfold issue
  extract_lets u c x stalled
  split
  · exact hm
  next j hj =>
    refine Store.canonical_of_ite hm ?_
    extract_lets waited
    clear_value waited stalled x
    refine Store.canonical_of_ite hm (Store.canonical_of_ite hm (Store.canonical_of_ite hm (Store.canonical_of_ite hm
      (Store.canonical_of_ite hm (Store.canonical_of_ite hm (Store.canonical_of_ite hm (Store.canonical_of_ite ?_
      (Store.canonical_of_ite hm ?_))))))))
    · split <;> exact hm
    · split
      · exact hm
      next he => exact Env.canonical_of_run he hm

@[simp] theorem Store.canonical_copyRows (g : Grid) (src dst : Option Nat) (from_ to_ n c0 c1 : Nat) (d : Device)
    (m : Store) (hm : m.canonical = true) : (copyRows g src dst from_ to_ n c0 c1 d m).2.canonical = true := by
  unfold copyRows
  split
  · exact hm
  · exact Store.canonical_foldl_of (g := Prod.snd) (fun x i hx => by simp [hx]) _ (d, m) hm

theorem Store.canonical_of_slvWrite {d : Device} {m : Store} {o : SlvOp} {h : List Byte} {x : Device × Store}
    (hx : d.slvWrite m o h = .ok x) (hm : m.canonical = true) : x.2.canonical = true := by
  unfold Device.slvWrite at hx
  dsimp only at hx
  split at hx
  · cases hx
  next y hy =>
    split at hx
    · cases hx
    next z hz =>
      exact Store.canonical_of_bufStore hx (Store.canonical_of_bufStore hz (Store.canonical_of_bufStore hy hm))

@[simp] theorem Store.canonical_slvEnd (die : Nat) (x : SlvOut) (d : Device) (m : Store) (hm : m.canonical = true) :
    (slvEnd die x d m).2.canonical = true := by
  unfold slvEnd
  dsimp only
  split
  · exact hm
  · split
    · split <;> simp [hm]
    · split
      · exact hm
      · split
        · simp [hm]
        next hx => simpa [hm] using Store.canonical_of_slvWrite hx hm

theorem Store.canonical_of_bulkPacket {path port : Nat} {bs : List Byte} {d : Device} {m : Store} {r : Device ×
    Store} (hr : bulkPacket path port bs d m = some r) (hm : m.canonical = true) : r.2.canonical = true := by
  unfold bulkPacket at hr
  dsimp only at hr
  repeat' split at hr
  all_goals cases hr
  all_goals simp [hm]

@[simp] theorem Store.canonical_setPartner (s slot seq ps pseq : Nat) (d : Device) (m : Store) (hm : m.canonical =
    true) : (setPartner s slot seq ps pseq d m).2.canonical = true := by
  unfold setPartner
  dsimp only
  split
  · split <;> simp [hm]
  · exact hm

@[simp] theorem Store.canonical_joinPair (f g : HeldFrame) (d : Device) (m : Store) (hm : m.canonical = true) :
    (joinPair f g d m).2.canonical = true := by
  simp [joinPair, hm]

@[simp] theorem Store.canonical_offerPair (f : HeldFrame) (d : Device) (m : Store) (hm : m.canonical = true) :
    (offerPair f d m).2.canonical = true := by
  simp only [offerPair]
  repeat' split
  all_goals simp [hm]

@[simp] theorem Store.canonical_closeFrame (p : Nat) (incomplete : Bool) (d : Device) (m : Store) (hm : m.canonical
    = true) : (closeFrame p incomplete d m).2.canonical = true := by
  simp only [closeFrame]
  repeat' split
  all_goals simp [hm]

@[simp] theorem Store.canonical_landLine (p : Nat) (crcOk : Bool) (pixels : List Nat) (words : Nat) (d : Device) (m
    : Store) (hm : m.canonical = true) : (landLine p crcOk pixels words d m).2.canonical = true := by
  simp only [landLine]
  repeat' split
  all_goals simp [hm]

@[simp] theorem Store.canonical_schedCopy (job : Nat) (j : Job) (x : SchedEntry) (c lbase fbase : Nat) (d : Device)
    (m : Store) (hm : m.canonical = true) : (schedCopy job j x c lbase fbase d m).2.canonical = true := by
  unfold schedCopy
  dsimp only
  split
  · simp [hm]
  · split
    · simp [hm]
    · split
      · split
        · simp [hm]
        next hx =>
          have h := Store.canonical_of_bufStore hx hm
          split <;> split <;> simp [h]
      · split
        · simp [hm]
        · split <;> split <;> simp [hm]

@[simp] theorem Store.canonical_schedNext (job : Nat) (window : Bool) (d : Device) (m : Store) (hm : m.canonical =
    true) : (schedNext job window d m).2.canonical = true := by
  simp only [schedNext]
  repeat' split
  all_goals simp [hm]

/-! ## Search, the front end, profiles, power and self-test -/

@[simp] theorem Store.canonical_prsDone (r : PrsRun) (d : Device) (m : Store) (hm : m.canonical = true) : (prsDone r
    d m).2.canonical = true := by
  simp only [prsDone]
  split
  · exact hm
  · split
    · split
      · simp [hm]
      next hx => exact (Store.canonical_of_bufStore hx hm).trans (by simp)
    · exact hm

@[simp] theorem Store.canonical_sfeRecord (s kind flags : Nat) (dts : BitVec 128) (a b : Nat) (d : Device) (m :
    Store) (hm : m.canonical = true) : (sfeRecord s kind flags dts a b d m).2.canonical = true := by
  simp [sfeRecord, hm]

@[simp] theorem Store.canonical_sfeEmit (s : Nat) (d : Device) (m : Store) (hm : m.canonical = true) : (sfeEmit s d
    m).2.canonical = true := by
  simp [sfeEmit, hm]

@[simp] theorem Store.canonical_sfeWindow (s : Nat) (w : SfeWin) (d : Device) (m : Store) (hm : m.canonical = true)
    : (sfeWindow s w d m).2.canonical = true := by
  simp [sfeWindow, hm]

@[simp] theorem Store.canonical_auxRecord (s instant : Nat) (raw : Int) (d : Device) (m : Store) (hm : m.canonical =
    true) : (auxRecord s instant raw d m).2.canonical = true := by
  simp [auxRecord, hm]

@[simp] theorem Store.canonical_zeroBuf (id : Nat) (d : Device) (m : Store) (hm : m.canonical = true) :
    (zeroBuf id d m).2.canonical = true := by
  unfold zeroBuf
  split
  · exact hm
  next b hb =>
    refine Store.canonical_withLp hm ?_
    generalize hc : m.lp = c
    have hw : Cells.wf 0#8 c = true := hc ▸ Store.wf_lp hm
    clear hc
    induction b.pitches generalizing c with
    | nil => exact hw
    | cons p ps ih => exact ih _ (Cells.wf_clear _ _ _ _ hw)

theorem Store.canonical_of_makeBufs {img : List Byte} {i : Nat} {es : List BufEntry} {d : Device} {m : Store}
    {x : Device × Store} (hx : makeBufs img i es d m = .ok x) (hm : m.canonical = true) : x.2.canonical = true := by
  induction es generalizing i d m with
  | nil =>
    cases hx
    exact hm
  | cons e es ih =>
    simp only [makeBufs] at hx
    split at hx
    · cases hx
    · exact ih hx (by simp [hm])

theorem Store.canonical_of_loadImage {b : List Byte} {d : Device} {m : Store} {x : Device × Store}
    (hx : Machine.loadImage b d m = .ok x) (hm : m.canonical = true) : x.2.canonical = true := by
  simp only [Machine.loadImage] at hx
  split at hx
  · cases hx
  · split at hx
    · cases hx
    · split at hx
      · cases hx
      · split at hx
        · cases hx
        next y hy =>
          split at hx
          · cases hx
          next z hz =>
            rw [Device.startProfile_mem hx, Store.canonical_of_agrees ((Store.agrees_of_applyRecords hz _).mpr
              (Store.agrees_refl _ _))]
            exact Store.canonical_of_makeBufs hy hm

theorem Store.canonical_loadUnder (h id : Nat) (d : Device) (m : Store) {x : Except LoadFail (Device × Store)}
    (hx : ∀ y, x = .ok y → y.2.canonical = true) (hm : m.canonical = true) : (loadUnder h id d m x).2.canonical = true := by
  unfold loadUnder
  split
  · exact hm
  · have h := hx _ rfl
    exact h

@[simp] theorem Store.canonical_atReady (d : Device) (m : Store) : (atReady d m).2.canonical = m.canonical :=
  Store.canonical_of_agrees (by simp)

@[simp] theorem Store.canonical_stepDone (d : Device) (m : Store) : (stepDone d m).2.canonical = m.canonical :=
  Store.canonical_of_agrees (by simp)

@[simp] theorem Store.canonical_domainContents (die dom : Nat) (d : Device) (m : Store) (hm : m.canonical = true) :
    (domainContents die dom d m).2.canonical = true := by
  simp [domainContents, hm]

@[simp] theorem Store.canonical_domainOff (die dom : Nat) (d : Device) (m : Store) (hm : m.canonical = true) :
    (domainOff die dom d m).2.canonical = true := by
  simp [domainOff, hm]

@[simp] theorem Store.canonical_dieOff (die : Nat) (d : Device) (m : Store) (hm : m.canonical = true) :
    (dieOff die d m).2.canonical = true := by
  have h (x : Device × Store) (hx : x.2.canonical = true) : ((List.range 12).foldl (fun (x : Device × Store) dom =>
      domainContents die dom x.1 x.2) x).2.canonical = true :=
    Store.canonical_foldl_of (g := Prod.snd) (fun x i hx => by simp [hx]) _ x hx
  simp only [dieOff]
  simp [hm, h]

@[simp] theorem Store.canonical_shutdown (cause die : Nat) (d : Device) (m : Store) (hm : m.canonical = true) :
    (shutdown cause die d m).2.canonical = true := by
  simp [shutdown, hm]

@[simp] theorem Store.canonical_stRestore (r : StRun) (x : StSlice) (job : Nat) (d : Device) (m : Store) (hm :
    m.canonical = true) : (stRestore r x job d m).2.canonical = true := by
  simp only [stRestore]
  repeat' split
  all_goals simp [hm]

@[simp] theorem Store.canonical_stBegin (h job : Nat) (r : StRun) (x : StSlice) (d : Device) (m : Store) (hm :
    m.canonical = true) : (stBegin h job r x d m).2.canonical = true := by
  unfold stBegin
  split
  · exact hm
  · dsimp only
    split <;> simp [hm]

@[simp] theorem Store.canonical_stStart (h : Nat) (d : Device) (m : Store) (hm : m.canonical = true) : (stStart h d
    m).2.canonical = true := by
  unfold stStart
  repeat' split
  all_goals simp [hm]

@[simp] theorem Store.canonical_stVoid (h job : Nat) (r : StRun) (x : StSlice) (d : Device) (m : Store) (hm :
    m.canonical = true) : (stVoid h job r x d m).2.canonical = true := by
  simp [stVoid, hm]

@[simp] theorem Store.canonical_stSliceEnd (h : Nat) (out : SliceOut) (d : Device) (m : Store) (hm : m.canonical =
    true) : (stSliceEnd h out d m).2.canonical = true := by
  unfold stSliceEnd
  split <;> simp [hm]

@[simp] theorem Store.canonical_stTimeout (h : Nat) (d : Device) (m : Store) (hm : m.canonical = true) : (stTimeout
    h d m).2.canonical = true := by
  unfold stTimeout
  split <;> simp [hm]

@[simp] theorem Store.canonical_stRestart (id : Nat) (j : Job) (d : Device) (m : Store) (hm : m.canonical = true) :
    (stRestart id j d m).2.canonical = true := by
  simp only [stRestart]
  repeat' split
  all_goals simp [hm]

/-! ## Settings, streams, commits, resets and the bus -/

@[simp] theorem Store.canonical_resumeOne (ch : Nat) (d : Device) (m : Store) : (resumeOne ch d m).2.canonical =
    m.canonical :=
  Store.canonical_of_agrees (by simp)

@[simp] theorem Store.canonical_resumeAll (d : Device) (m : Store) : (resumeAll d m).2.canonical = m.canonical :=
  Store.canonical_of_agrees (by simp)

@[simp] theorem Store.canonical_cancelHandle (h : Nat) (d : Device) (m : Store) (hm : m.canonical = true) :
    (cancelHandle h d m).2.canonical = true := by
  simp only [cancelHandle]
  repeat' split
  all_goals simp [hm]

@[simp] theorem Store.canonical_closeSweep (s : Nat) (d : Device) (m : Store) (hm : m.canonical = true) :
    (closeSweep s d m).2.canonical = true := by
  unfold closeSweep
  extract_lets
  split
  · extract_lets
    split <;> simp [hm]
  · exact hm

@[simp] theorem Store.canonical_reachSweep (s k n : Nat) (d : Device) (m : Store) (hm : m.canonical = true) :
    (reachSweep s k n d m).2.canonical = true := by
  induction n generalizing d m with
  | zero => exact hm
  | succ n ih =>
    simp only [reachSweep]
    split
    · exact hm
    · split
      · simp [hm, ih]
      · exact hm

@[simp] theorem Store.canonical_placePoint (die s i time : Nat) (bs : List Byte) (d : Device) (m : Store) (hm :
    m.canonical = true) : (placePoint die s i time bs d m).2.canonical = true := by
  unfold placePoint
  dsimp only
  split
  · simp [hm]
  · split
    · simp [hm]
    · split
      · simp [hm]
      · split
        · simp [hm]
        · split
          · simp [hm]
          · split
            · simp [hm]
            · split <;> simp [hm]

@[simp] theorem Store.canonical_placePoints (die s pt : Nat) (l : Lidar) (payload : List Byte) (n i : Nat) (d : Device)
    (m : Store) (hm : m.canonical = true) : (placePoints die s pt l payload n i d m).2.canonical = true := by
  induction n generalizing i d m with
  | zero => exact hm
  | succ n ih =>
    rw [placePoints]
    exact ih _ _ _ (Store.canonical_placePoint _ _ _ _ _ _ _ hm)

@[simp] theorem Store.canonical_lidarDatagram (p s : Nat) (payload : List Byte) (d : Device) (m : Store) (hm :
    m.canonical = true) : (lidarDatagram p s payload d m).2.canonical = true := by
  simp only [lidarDatagram]
  split
  · exact hm
  · split <;> simp [hm]

@[simp] theorem Store.canonical_stepSweeps (d : Device) (m : Store) (hm : m.canonical = true) :
    (stepSweeps d m).2.canonical = true := by
  refine Store.canonical_foldl_of (g := Prod.snd) (fun x i hx => ?_) _ (d, m) hm
  dsimp only
  split <;> simp [hx]

@[simp] theorem Store.canonical_offerFrame (p : Nat) (own : Bool) (f : List Byte) (x : EthInfo) (u : Option Udp) (d
    : Device) (m : Store) (hm : m.canonical = true) : (offerFrame p own f x u d m).1.2.canonical = true := by
  unfold offerFrame
  dsimp only
  split
  · exact hm
  · split
    · exact hm
    · split
      · exact hm
      · split
        · exact hm
        · split
          · split
            next hr => exact Store.canonical_of_bulkPacket hr hm
            · exact hm
          · split
            · simp [hm]
            · exact hm

@[simp] theorem Store.canonical_stepAll (p : PendingStep) (d : Device) (m : Store) (hm : m.canonical = true) :
    (stepAll p d m).2.canonical = true := by
  simp [stepAll, hm]

@[simp] theorem Store.canonical_writeLayer (stamp : BitVec 128) (flags : Nat) (mv : Moved) (d : Device) (m : Store)
    (hm : m.canonical = true) : (writeLayer stamp flags mv d m).2.canonical = true := by
  simp [writeLayer, hm]

@[simp] theorem Store.canonical_gridCommit (id : Nat) (j : Job) (stamp : BitVec 128) (x : TickOut) (d : Device) (m :
    Store) (hm : m.canonical = true) : (gridCommit id j stamp x d m).2.canonical = true := by
  simp [gridCommit, hm]

@[simp] theorem Store.canonical_tickCommit (id : Nat) (j : Job) (x : TickOut) (d : Device) (m : Store) (hm :
    m.canonical = true) : (tickCommit id j x d m).2.canonical = true := by
  simp [tickCommit, hm]

@[simp] theorem Store.canonical_exportCommit (id : Nat) (j : Job) (d : Device) (m : Store) (hm : m.canonical = true)
    : (exportCommit id j d m).2.canonical = true := by
  unfold exportCommit
  dsimp only
  split
  · exact hm
  · split
    · exact hm
    · split
      · exact hm
      next hx => simp [hm, Store.canonical_of_bufStore hx]

@[simp] theorem Store.canonical_commitJob (id : Nat) (j : Job) (out : CommitOut) (d : Device) (m : Store) (hm :
    m.canonical = true) : (commitJob id j out d m).2.canonical = true := by
  unfold commitJob
  split <;> simp [hm]

@[simp] theorem Store.canonical_domainPower (ch : Nat) (r : Request) (d : Device) (m : Store) (hm : m.canonical =
    true) : (domainPower ch r d m).1.2.canonical = true := by
  simp [domainPower, hm]

@[simp] theorem Store.canonical_diePower (ch : Nat) (r : Request) (d : Device) (m : Store) (hm : m.canonical = true)
    : (diePower ch r d m).1.2.canonical = true := by
  unfold diePower
  split <;> simp [hm]

@[simp] theorem Store.canonical_partReset (ch : Nat) (r : Request) (d : Device) (m : Store) (hm : m.canonical =
    true) : (partReset ch r d m).1.2.canonical = true := by
  simp [partReset, hm]

@[simp] theorem Store.canonical_dieReset (ch : Nat) (r : Request) (d : Device) (m : Store) (hm : m.canonical = true)
    : (dieReset ch r d m).1.2.canonical = true := by
  unfold dieReset
  split <;> simp [hm]

@[simp] theorem Store.canonical_thermalEval (tj : List Int) (d : Device) (m : Store) (hm : m.canonical = true) :
    (thermalEval tj d m).2.canonical = true := by
  -- the evaluation and the advance are held as variables, which the kernel does not evaluate
  obtain ⟨eval, heval⟩ : ∃ f, f = thermalEval := ⟨_, rfl⟩
  obtain ⟨adv, hadv⟩ : ∃ f, f = Device.advanceToDev := ⟨_, rfl⟩
  rw [← heval]
  delta thermalEval at heval
  rw [← hadv] at heval
  rw [heval]
  dsimp only
  split
  · simp [hm]
  · exact hm

@[simp] theorem Store.canonical_pllLoss (die island : Nat) (d : Device) (m : Store) (hm : m.canonical = true) :
    (pllLoss die island d m).2.canonical = true := by
  simp [pllLoss, hm]

@[simp] theorem Store.canonical_refLoss (ref die : Nat) (d : Device) (m : Store) (hm : m.canonical = true) :
    (refLoss ref die d m).2.canonical = true := by
  simp [refLoss, hm]

@[simp] theorem Store.canonical_flashWrite (base : Nat) (img : List Byte) (fail : Option Nat) (d : Device) (m : Store)
    (hm : m.canonical = true) : (flashWrite base img fail d m).canonical = true := by
  obtain ⟨hl, hs, hf⟩ := m.canonical_iff.mp hm
  unfold flashWrite
  split <;> exact (Store.canonical_iff _).mpr ⟨hl, hs, Cells.wf_writeAll _ _ _ _ (Cells.wf_clear _ _ _ _ hf)⟩

@[simp] theorem Store.canonical_updateDone (h buf off ofs : Nat) (fail : Option Nat) (cancel : Bool) (d : Device) (m
    : Store) (hm : m.canonical = true) : (updateDone h buf off ofs fail cancel d m).2.canonical = true := by
  unfold updateDone
  repeat' split
  all_goals simp [hm]

@[simp] theorem Store.canonical_cryptoDone (fail : Option Nat) (d : Device) (m : Store) (hm : m.canonical = true) :
    (cryptoDone fail d m).2.canonical = true := by
  unfold cryptoDone
  repeat' split
  all_goals simp [hm]

@[simp] theorem Store.canonical_regWrite (w : Window) (a : Nat) (v : Word) (d : Device) (m : Store) (hm :
    m.canonical = true) : (regWrite w a v d m).2.canonical = true := by
  unfold regWrite
  split <;> simp [hm]

@[simp] theorem Store.canonical_writeWords (n a : Nat) (ws : List Word) (out shut : Bool) (d : Device) (m : Store)
    (hm : m.canonical = true) : (writeWords n a ws out shut d m).2.canonical = true := by
  induction n generalizing a ws out shut d m with
  | zero => exact hm
  | succ n ih =>
    cases ws with
    | nil => exact hm
    | cons w ws =>
      simp only [writeWords]
      split
      · exact ih _ _ _ _ _ _ (by simp [hm])
      · split
        · exact ih _ _ _ _ _ _ hm
        · exact ih _ _ _ _ _ _ hm
        · split
          · exact Store.canonical_regWrite _ _ _ _ _ hm
          · exact ih _ _ _ _ _ _ (Store.canonical_regWrite _ _ _ _ _ hm)

@[simp] theorem Store.canonical_privateWrite (addr : Word) (words : List Word) (d : Device) (m : Store) (hm :
    m.canonical = true) : (privateWrite addr words d m).2.canonical = true := by
  unfold privateWrite
  dsimp only
  split
  · exact hm
  · split <;> simp [hm]

@[simp] theorem Store.canonical_malformed (x : Malformed) (d : Device) (m : Store) (hm : m.canonical = true) :
    (malformed x d m).2.canonical = true := by
  unfold malformed
  split <;> simp [hm]

end Sys2Proof.Machine
end

section
/-! SUPPORT. Every step keeps the canonical form of the memories (O4). -/

namespace Sys2Proof.Machine

/-- A command that keeps the canonical form of the memories. -/
def KeepsForm (c : Instr) : Prop := ∀ s t, s.mem.canonical = true → exec c s = .next t → t.mem.canonical = true

theorem keepsForm_onBoth {c : Instr} {f : Device → Store → Device × Store} (hc : ∀ s, exec c s = onBoth f s)
    (h : ∀ (d : Device) (m : Store), m.canonical = true → (f d m).2.canonical = true) : KeepsForm c := by
  intro s t hm hn
  rw [hc] at hn
  cases hn
  exact h _ _ hm

theorem keepsForm_commandMem {c : Instr} {op : Nat} {ch : Fin 8} {f : Request → Device → Store → (Device × Store) × Reply}
    (hc : ∀ s, exec c s = commandMem op ch f s)
    (h : ∀ r (d : Device) (m : Store), m.canonical = true → (f r d m).1.2.canonical = true) : KeepsForm c := by
  intro s t hm hn
  rw [hc] at hn
  unfold commandMem at hn
  split at hn
  · cases hn
    exact hm
  · cases hn
    exact h _ _ _ hm

theorem keepsForm_commandMem_of_eq {c : Instr} {op : Nat} {ch : Fin 8}
    {f : Request → Device → Store → (Device × Store) × Reply} (hc : ∀ s, exec c s = commandMem op ch f s)
    (h : ∀ r (d : Device) (m : Store), m.canonical = true → ∀ x, f r d m = x → x.1.2.canonical = true) : KeepsForm c :=
  keepsForm_commandMem hc fun _ _ _ hm => h _ _ _ hm _ rfl

theorem keepsForm_commandLater {c : Instr} {op : Nat} {ch : Fin 8}
    {f : Request → Device → Store → (Device × Store) × Option Reply} (hc : ∀ s, exec c s = commandLater op ch f s)
    (h : ∀ r (d : Device) (m : Store), m.canonical = true → (f r d m).1.2.canonical = true) : KeepsForm c := by
  intro s t hm hn
  rw [hc] at hn
  unfold commandLater at hn
  split at hn
  · cases hn
    exact hm
  · dsimp only at hn
    split at hn <;> cases hn <;> exact h _ _ _ hm

/-- A setting takes effect, or waits; a setting that leaves the memories to its body keeps what the body keeps (R135). -/
theorem keepsForm_configure {c : Instr} {x : Setting} {ch : Fin 8} (hc : ∀ s, exec c s = configure x ch s)
    (h : ∀ r (d : Device) (m : Store), (x.body r d m).1.2.canonical = m.canonical) : KeepsForm c := by
  intro s t hm hn
  rw [hc] at hn
  unfold configure at hn
  split at hn
  · cases hn
    exact hm
  · split at hn
    next ho =>
      cases hn
      unfold Setting.outcome at ho
      split at ho
      · split at ho
        · cases ho
          exact hm
        · split at ho
          · cases ho
            exact (h _ _ _).trans hm
          · split at ho
            · cases ho
            · cases ho
              dsimp only
              split <;> exact (h _ _ _).trans hm
      · cases ho
        exact (h _ _ _).trans hm
    · cases hn
      exact hm

/-- A boot step keeps what its work keeps (R92). -/
theorem keepsForm_bootCmd {c : Instr} {code : Nat} {i : BootInput} (hc : ∀ s, exec c s = bootCmd code i s) : KeepsForm c := by
  refine keepsForm_onBoth hc fun d m hm => ?_
  dsimp only
  split <;> simp [hm]

/-- An outcome with the memories as they were. -/
def MemSame (s : State) (o : Host.Outcome State Fault Refusal) : Prop := ∀ t, o = .next t → t.mem = s.mem

theorem keepsForm_of_memSame {c : Instr} (h : ∀ s, MemSame s (exec c s)) : KeepsForm c :=
  fun s t hm hn => (h s t hn) ▸ hm

theorem memSame_command (op : Nat) (ch : Fin 8) (f : Request → Device → Device × Reply) (s : State) :
    MemSame s (command op ch f s) := by
  intro t hn
  unfold command at hn
  split at hn <;> cases hn <;> rfl

theorem memSame_query (op : Nat) (ch : Fin 8) (f : Request → Device → Reply) (s : State) : MemSame s (query op ch f s) :=
  memSame_command op ch _ s

theorem memSame_commandRead (op : Nat) (ch : Fin 8) (f : Request → Device → Store → Device × Reply) (s : State) :
    MemSame s (commandRead op ch f s) := by
  intro t hn
  unfold commandRead at hn
  split at hn <;> cases hn <;> rfl

@[simp] theorem Store.canonical_auxGo (die : Nat) (c : SfeScan) (start i : Nat) (js : List Nat) (rs : List Int)
    (d : Device) (m : Store) (hm : m.canonical = true) : (auxGo die c start i js rs d m).2.canonical = true := by
  induction js generalizing i rs d m with
  | nil => exact hm
  | cons j js ih => exact ih _ _ _ _ (Store.canonical_auxRecord _ _ _ _ _ hm)

/-! ## Commands that change memories -/

theorem i3cAddressWrite_keepsForm (addr : Word) : KeepsForm (.i3cAddressWrite addr) :=
  keepsForm_onBoth (fun s => show execI3cAddressWrite addr s = _ from rfl) fun d m hm => by
    simp [hm]

theorem i3cMalformedTransfer_keepsForm (m : Malformed) : KeepsForm (.i3cMalformedTransfer m) :=
  keepsForm_onBoth (fun s => show execI3cMalformedTransfer m s = _ from rfl) fun d m hm => by
    simp [hm]

theorem registerWrite_keepsForm (addr : Word) (words : List Word) : KeepsForm (.registerWrite addr words) :=
  keepsForm_onBoth (fun s => show execRegisterWrite addr words s = _ from rfl) fun d m hm => by
    simp [hm]

theorem trainItemEnd_keepsForm (item : Fin 48) (status : Nat) (density : Nat) : KeepsForm (.trainItemEnd item status
    density) :=
  keepsForm_onBoth (fun s => show execTrainItemEnd item status density s = _ from rfl) fun d m hm => by
    simp [hm]

theorem bootFwwinWrite_keepsForm (offset : Nat) (words : List Word) : KeepsForm (.bootFwwinWrite offset words) :=
  keepsForm_onBoth (fun s => show execBootFwwinWrite offset words s = _ from rfl) fun d m hm => by
    simp [hm]

theorem bootStepEnd_keepsForm : KeepsForm .bootStepEnd :=
  keepsForm_onBoth (fun s => show execBootStepEnd s = _ from rfl) fun d m hm => by
    split <;> simp [hm]

theorem bootReset_keepsForm (key : Word) : KeepsForm (.bootReset key) :=
  keepsForm_onBoth (fun s => show execBootReset key s = _ from rfl) fun d m hm => by
    simp [hm]

theorem timeStepApply_keepsForm : KeepsForm .timeStepApply :=
  keepsForm_onBoth (fun s => show execTimeStepApply s = _ from rfl) fun d m hm => by
    split <;> simp [hm]

theorem csiFrameStart_keepsForm (port : Fin 16) (vc : Nat) (frameNum : Nat) (ecc : Nat) (at_ : Nat) : KeepsForm
    (.csiFrameStart port vc frameNum ecc at_) :=
  keepsForm_onBoth (fun s => show execCsiFrameStart port vc frameNum ecc at_ s = _ from rfl) fun d m hm => by
    dsimp only
    repeat' split
    all_goals simp [hm]

theorem csiLinePacket_keepsForm (port : Fin 16) (vc : Nat) (dt : Nat) (ecc : Nat) (crcOk : Bool) (pixels : List Nat)
    (words : Nat) : KeepsForm (.csiLinePacket port vc dt ecc crcOk pixels words) :=
  keepsForm_onBoth (fun s => show execCsiLinePacket port vc dt ecc crcOk pixels words s = _ from rfl) fun d m hm => by
    dsimp only
    repeat' split
    all_goals simp [hm]

theorem csiFrameEnd_keepsForm (port : Fin 16) (vc : Nat) (ecc : Nat) (at_ : Nat) : KeepsForm (.csiFrameEnd port vc
    ecc at_) :=
  keepsForm_onBoth (fun s => show execCsiFrameEnd port vc ecc at_ s = _ from rfl) fun d m hm => by
    simp [hm]

theorem frameTimeout_keepsForm (port : Fin 16) : KeepsForm (.frameTimeout port) :=
  keepsForm_onBoth (fun s => show execFrameTimeout port s = _ from rfl) fun d m hm => by
    dsimp only
    repeat' split
    all_goals simp [hm]

theorem csiBulkPacket_keepsForm (port : Fin 16) (vc : Nat) (dt : Nat) (ecc : Nat) (bytes : List Byte) : KeepsForm
    (.csiBulkPacket port vc dt ecc bytes) :=
  keepsForm_onBoth (fun s => show execCsiBulkPacket port vc dt ecc bytes s = _ from rfl) fun d m hm => by
    dsimp only
    split
    · exact hm
    · split
      · exact hm
      · split
        · exact hm
        · split
          next hx => exact Store.canonical_of_bulkPacket hx hm
          · exact hm

theorem ethFrameRx_keepsForm (port : Fin 4) (frame : List Byte) (fcsOk : Bool) (at_ : Nat) : KeepsForm (.ethFrameRx
    port frame fcsOk at_) :=
  keepsForm_onBoth (fun s => show execEthFrameRx port frame fcsOk at_ s = _ from rfl) fun d m hm => by
    simp [hm]

theorem sweepClose_keepsForm (stream : Nat) : KeepsForm (.sweepClose stream) :=
  keepsForm_onBoth (fun s => show execSweepClose stream s = _ from rfl) fun d m hm => by
    dsimp only
    repeat' split
    all_goals simp [hm]

theorem imuTransactionDone_keepsForm (port : Fin 4) (bytes : List Byte) : KeepsForm (.imuTransactionDone port bytes)
    :=
  keepsForm_onBoth (fun s => show execImuTransactionDone port bytes s = _ from rfl) fun d m hm => by
    dsimp only
    repeat' split
    all_goals simp [hm]

theorem encoderSample_keepsForm (enc : Fin 8) : KeepsForm (.encoderSample enc) :=
  keepsForm_onBoth (fun s => show execEncoderSample enc s = _ from rfl) fun d m hm => by
    simp [hm]

theorem canFrameRx_keepsForm (ctrl : Fin 2) (fd : Bool) (extended : Bool) (remote : Bool) (id : Nat) (data : List
    Byte) (at_ : Nat) : KeepsForm (.canFrameRx ctrl fd extended remote id data at_) :=
  keepsForm_onBoth (fun s => show execCanFrameRx ctrl fd extended remote id data at_ s = _ from rfl) fun d m hm => by
    dsimp only
    repeat' split
    all_goals simp [hm]

theorem sfeOutputSample_keepsForm (stream : Nat) (raw : List Int) (raw2 : List Int) : KeepsForm (.sfeOutputSample
    stream raw raw2) :=
  keepsForm_onBoth (fun s => show execSfeOutputSample stream raw raw2 s = _ from rfl) fun d m hm => by
    simp [hm]

theorem sfeDetectorWindow_keepsForm (stream : Nat) (raw : List Int) (raw2 : List Int) : KeepsForm
    (.sfeDetectorWindow stream raw raw2) :=
  keepsForm_onBoth (fun s => show execSfeDetectorWindow stream raw raw2 s = _ from rfl) fun d m hm => by
    dsimp only
    repeat' split
    all_goals simp [hm]

theorem sfeAuxScanStart_keepsForm (die : Fin 8) (raw : List Int) : KeepsForm (.sfeAuxScanStart die raw) :=
  keepsForm_onBoth (fun s => show execSfeAuxScanStart die raw s = _ from rfl) fun d m hm => by
    dsimp only
    split
    · exact hm
    · split
      · exact hm
      · simp [hm]

theorem jobPlace_keepsForm (job : Nat) : KeepsForm (.jobPlace job) :=
  keepsForm_onBoth (fun s => show execJobPlace job s = _ from rfl) fun d m hm => by
    simp [hm]

theorem jobLoaded_keepsForm (job : Nat) : KeepsForm (.jobLoaded job) :=
  keepsForm_onBoth (fun s => show execJobLoaded job s = _ from rfl) fun d m hm => by
    split <;> simp [hm]

theorem bcastAnswer_keepsForm (cluster : Fin 64) (slot : Fin 16) (seq : Nat) (ack : Bool) : KeepsForm (.bcastAnswer
    cluster slot seq ack) :=
  keepsForm_onBoth (fun s => show execBcastAnswer cluster slot seq ack s = _ from rfl) fun d m hm => by
    dsimp only
    repeat' split
    all_goals simp [hm]

theorem descriptorIssue_keepsForm (unit : Fin 1088) : KeepsForm (.descriptorIssue unit) :=
  keepsForm_onBoth (fun s => show execDescriptorIssue unit s = _ from rfl) fun d m hm => by
    simp [hm]

theorem flagWaitMet_keepsForm (unit : Fin 1088) : KeepsForm (.flagWaitMet unit) :=
  keepsForm_onBoth (fun s => show execFlagWaitMet unit s = _ from rfl) fun d m hm => by
    simp [hm]

theorem waitTimeout_keepsForm (unit : Fin 1088) : KeepsForm (.waitTimeout unit) :=
  keepsForm_onBoth (fun s => show execWaitTimeout unit s = _ from rfl) fun d m hm => by
    dsimp only
    repeat' split
    all_goals simp [hm]

theorem unitEnd_keepsForm (unit : Fin 1088) : KeepsForm (.unitEnd unit) :=
  keepsForm_onBoth (fun s => show execUnitEnd unit s = _ from rfl) fun d m hm => by
    dsimp only
    repeat' split
    all_goals simp [hm]

theorem schedEntryCopy_keepsForm (job : Nat) : KeepsForm (.schedEntryCopy job) :=
  keepsForm_onBoth (fun s => show execSchedEntryCopy job s = _ from rfl) fun d m hm => by
    simp [hm]

theorem windowSlotLoad_keepsForm (job : Nat) : KeepsForm (.windowSlotLoad job) :=
  keepsForm_onBoth (fun s => show execWindowSlotLoad job s = _ from rfl) fun d m hm => by
    simp [hm]

theorem steBandBuild_keepsForm (die : Fin 8) (view : Fin 2) : KeepsForm (.steBandBuild die view) :=
  keepsForm_onBoth (fun s => show execSteBandBuild die view s = _ from rfl) fun d m hm => by
    dsimp only
    repeat' split
    all_goals simp [hm]

theorem steBandWrite_keepsForm (die : Fin 8) (slots : List (Nat × Nat × Nat × Nat)) : KeepsForm (.steBandWrite die
    slots) :=
  keepsForm_onBoth (fun s => show execSteBandWrite die slots s = _ from rfl) fun d m hm => by
    dsimp only
    repeat' split
    all_goals simp [hm]

theorem steTileBoundary_keepsForm (die : Fin 8) : KeepsForm (.steTileBoundary die) :=
  keepsForm_onBoth (fun s => show execSteTileBoundary die s = _ from rfl) fun d m hm => by
    dsimp only
    repeat' split
    all_goals simp [hm]

theorem steOpDone_keepsForm (die : Fin 8) : KeepsForm (.steOpDone die) :=
  keepsForm_onBoth (fun s => show execSteOpDone die s = _ from rfl) fun d m hm => by
    extract_lets p
    split
    · exact hm
    · split
      · exact hm
      · extract_lets x y at_
        split
        extract_lets e put
        split
        · exact hm
        next ha =>
          have h := Store.canonical_of_bufStore (Device.agrees_of_map_bufStore ha) hm
          split
          · exact h
          next hb =>
            have h := Store.canonical_of_bufStore hb h
            split
            · exact h
            next hc =>
              have h := Store.canonical_of_bufStore hc h
              exact h

theorem fteBandBuild_keepsForm (die : Fin 8) (view : Fin 2) : KeepsForm (.fteBandBuild die view) :=
  keepsForm_onBoth (fun s => show execFteBandBuild die view s = _ from rfl) fun d m hm => by
    dsimp only
    repeat' split
    all_goals simp [hm]

theorem fteTrackOp_keepsForm (die : Fin 8) (view : Fin 2) (h : List Nat) (fbBuf : Nat) (fbOff : Nat) (fbCount : Nat)
    (cluster : Nat) (block : Nat) (flag : Nat) : KeepsForm (.fteTrackOp die view h fbBuf fbOff fbCount cluster block
    flag) :=
  keepsForm_onBoth (fun s => show execFteTrackOp die view h fbBuf fbOff fbCount cluster block flag s = _ from rfl) fun d m hm => by
    dsimp only
    repeat' split
    all_goals simp [hm]

theorem haloCopy_keepsForm (die : Fin 8) (width : Nat) (hmax : Nat) (c0 : Nat) (c1 : Nat) (below : Nat × Nat) (above
    : Nat × Nat) (error : Bool) : KeepsForm (.haloCopy die width hmax c0 c1 below above error) :=
  keepsForm_onBoth (fun s => show execHaloCopy die width hmax c0 c1 below above error s = _ from rfl) fun d m hm => by
    split <;> simp [hm]

theorem slvSolveEnd_keepsForm (die : Fin 8) (result : SlvOut) : KeepsForm (.slvSolveEnd die result) :=
  keepsForm_onBoth (fun s => show execSlvSolveEnd die result s = _ from rfl) fun d m hm => by
    simp [hm]

theorem roundMerge_keepsForm (job : Nat) (n : Nat) : KeepsForm (.roundMerge job n) :=
  keepsForm_onBoth (fun s => show execRoundMerge job n s = _ from rfl) fun d m hm => by
    dsimp only
    repeat' split
    all_goals simp [hm]

theorem txPartSend_keepsForm (port : Fin 2) : KeepsForm (.txPartSend port) :=
  keepsForm_onBoth (fun s => show execTxPartSend port s = _ from rfl) fun d m hm => by
    dsimp only
    repeat' split
    all_goals simp [hm]

theorem jobCommit_keepsForm (job : Nat) (out : CommitOut) : KeepsForm (.jobCommit job out) :=
  keepsForm_onBoth (fun s => show execJobCommit job out s = _ from rfl) fun d m hm => by
    split <;> simp [hm]

theorem jobRestart_keepsForm (job : Nat) : KeepsForm (.jobRestart job) :=
  keepsForm_onBoth (fun s => show execJobRestart job s = _ from rfl) fun d m hm => by
    split
    · exact hm
    · split <;> simp [hm]

theorem pllLockLoss_keepsForm (die : Fin 8) (island : Fin 13) : KeepsForm (.pllLockLoss die island) :=
  keepsForm_onBoth (fun s => show execPllLockLoss die island s = _ from rfl) fun d m hm => by
    simp [hm]

theorem refClockLoss_keepsForm (ref : Fin 3) (die : Fin 8) : KeepsForm (.refClockLoss ref die) :=
  keepsForm_onBoth (fun s => show execRefClockLoss ref die s = _ from rfl) fun d m hm => by
    simp [hm]

theorem thermalEval_keepsForm (tj : List Int) : KeepsForm (.thermalEval tj) :=
  keepsForm_onBoth (fun s => show execThermalEval tj s = _ from rfl) fun d m hm => by
    simp [hm]

theorem stSliceStart_keepsForm (run : Nat) : KeepsForm (.stSliceStart run) :=
  keepsForm_onBoth (fun s => show execStSliceStart run s = _ from rfl) fun d m hm => by
    simp [hm]

theorem stSliceEnd_keepsForm (run : Nat) (out : SliceOut) : KeepsForm (.stSliceEnd run out) :=
  keepsForm_onBoth (fun s => show execStSliceEnd run out s = _ from rfl) fun d m hm => by
    simp [hm]

theorem stSliceTimeout_keepsForm (run : Nat) : KeepsForm (.stSliceTimeout run) :=
  keepsForm_onBoth (fun s => show execStSliceTimeout run s = _ from rfl) fun d m hm => by
    simp [hm]

theorem stWindowVoid_keepsForm (run : Nat) : KeepsForm (.stWindowVoid run) :=
  keepsForm_onBoth (fun s => show execStWindowVoid run s = _ from rfl) fun d m hm => by
    split <;> simp [hm]

theorem cryptoOpDone_keepsForm (fail : Option Nat) : KeepsForm (.cryptoOpDone fail) :=
  keepsForm_onBoth (fun s => show execCryptoOpDone fail s = _ from rfl) fun d m hm => by
    simp [hm]

theorem handleCancel_keepsForm (ch : Fin 8) : KeepsForm (.handleCancel ch) :=
  keepsForm_commandMem (fun s => show execHandleCancel ch s = _ from rfl) fun r d m hm => by
    split <;> simp [hm]

theorem profileLoad_keepsForm (ch : Fin 8) : KeepsForm (.profileLoad ch) :=
  keepsForm_commandMem (fun s => show execProfileLoad ch s = _ from rfl) fun r d m hm => by
    dsimp only
    repeat' split
    all_goals simp [hm]
    · exact Store.canonical_loadUnder _ _ _ _ (fun y hy => by rw [loadZero_mem hy, hm]) hm
    · exact Store.canonical_loadUnder _ _ _ _ (fun y hy => Store.canonical_of_loadImage hy hm) hm

theorem memWrite_keepsForm (ch : Fin 8) : KeepsForm (.memWrite ch) :=
  keepsForm_commandMem_of_eq (fun s => show execMemWrite ch s = _ from rfl) fun r d m hm => by
    intro x hx
    split at hx
    · simp [← hx, hm]
    · dsimp only at hx
      repeat' split at hx
      all_goals cases hx
      · exact hm
      · exact hm
      · exact hm
      · exact hm
      next hs => exact Store.canonical_of_bufStore hs hm

theorem partReset_keepsForm (ch : Fin 8) : KeepsForm (.partReset ch) :=
  keepsForm_commandLater (fun s => show execPartReset ch s = _ from rfl) fun r d m hm => by
    simp [hm]

theorem dieReset_keepsForm (ch : Fin 8) : KeepsForm (.dieReset ch) :=
  keepsForm_commandLater (fun s => show execDieReset ch s = _ from rfl) fun r d m hm => by
    simp [hm]

theorem domainPower_keepsForm (ch : Fin 8) : KeepsForm (.domainPower ch) :=
  keepsForm_commandLater (fun s => show execDomainPower ch s = _ from rfl) fun r d m hm => by
    simp [hm]

theorem diePower_keepsForm (ch : Fin 8) : KeepsForm (.diePower ch) :=
  keepsForm_commandLater (fun s => show execDiePower ch s = _ from rfl) fun r d m hm => by
    simp [hm]

theorem timeConfig_keepsForm (ch : Fin 8) : KeepsForm (.timeConfig ch) :=
  keepsForm_configure (fun s => show execTimeConfig ch s = _ from rfl) fun r d m => by simp [setTimeConfig, devBody]

theorem compSet_keepsForm (ch : Fin 8) : KeepsForm (.compSet ch) :=
  keepsForm_configure (fun s => show execCompSet ch s = _ from rfl) fun r d m => by simp [setCompSet, devBody]

theorem trigGroup_keepsForm (ch : Fin 8) : KeepsForm (.trigGroup ch) :=
  keepsForm_configure (fun s => show execTrigGroup ch s = _ from rfl) fun r d m => by simp [setTrigGroup, devBody]

theorem trigOut_keepsForm (ch : Fin 8) : KeepsForm (.trigOut ch) :=
  keepsForm_configure (fun s => show execTrigOut ch s = _ from rfl) fun r d m => by simp [setTrigOut, devBody]

theorem ptpPort_keepsForm (ch : Fin 8) : KeepsForm (.ptpPort ch) :=
  keepsForm_configure (fun s => show execPtpPort ch s = _ from rfl) fun r d m => by simp [setPtpPort, devBody]

theorem ppsConfig_keepsForm (ch : Fin 8) : KeepsForm (.ppsConfig ch) :=
  keepsForm_configure (fun s => show execPpsConfig ch s = _ from rfl) fun r d m => by simp [setPpsConfig, devBody]

theorem streamConfig_keepsForm (ch : Fin 8) : KeepsForm (.streamConfig ch) :=
  keepsForm_configure (fun s => show execStreamConfig ch s = _ from rfl) fun r d m => by simp [setStreamConfig,
    devBody]

theorem csiPort_keepsForm (ch : Fin 8) : KeepsForm (.csiPort ch) :=
  keepsForm_configure (fun s => show execCsiPort ch s = _ from rfl) fun r d m => by simp [setCsiPort, devBody]

theorem pairConfig_keepsForm (ch : Fin 8) : KeepsForm (.pairConfig ch) :=
  keepsForm_configure (fun s => show execPairConfig ch s = _ from rfl) fun r d m => by simp [setPairConfig, devBody]

theorem ethPort_keepsForm (ch : Fin 8) : KeepsForm (.ethPort ch) :=
  keepsForm_configure (fun s => show execEthPort ch s = _ from rfl) fun r d m => by simp [setEthPort, devBody]

theorem lidarStream_keepsForm (ch : Fin 8) : KeepsForm (.lidarStream ch) :=
  keepsForm_configure (fun s => show execLidarStream ch s = _ from rfl) fun r d m => by simp [setLidarStream, devBody]

theorem imuPort_keepsForm (ch : Fin 8) : KeepsForm (.imuPort ch) :=
  keepsForm_configure (fun s => show execImuPort ch s = _ from rfl) fun r d m => by simp [setImuPort, devBody]

theorem encConfig_keepsForm (ch : Fin 8) : KeepsForm (.encConfig ch) :=
  keepsForm_configure (fun s => show execEncConfig ch s = _ from rfl) fun r d m => by simp [setEncConfig, devBody]

theorem canController_keepsForm (ch : Fin 8) : KeepsForm (.canController ch) :=
  keepsForm_configure (fun s => show execCanController ch s = _ from rfl) fun r d m => by simp [setCanController,
    devBody]

theorem canFilter_keepsForm (ch : Fin 8) : KeepsForm (.canFilter ch) :=
  keepsForm_configure (fun s => show execCanFilter ch s = _ from rfl) fun r d m => by simp [setCanFilter, devBody]

theorem sfeChannel_keepsForm (ch : Fin 8) : KeepsForm (.sfeChannel ch) :=
  keepsForm_configure (fun s => show execSfeChannel ch s = _ from rfl) fun r d m => by simp [setSfeChannel, devBody]

theorem sfeAuxScan_keepsForm (ch : Fin 8) : KeepsForm (.sfeAuxScan ch) :=
  keepsForm_configure (fun s => show execSfeAuxScan ch s = _ from rfl) fun r d m => by simp [setSfeAuxScan, devBody]

theorem sfeExc_keepsForm (ch : Fin 8) : KeepsForm (.sfeExc ch) :=
  keepsForm_configure (fun s => show execSfeExc ch s = _ from rfl) fun r d m => by simp [setSfeExc, devBody]

theorem sfeDetect_keepsForm (ch : Fin 8) : KeepsForm (.sfeDetect ch) :=
  keepsForm_configure (fun s => show execSfeDetect ch s = _ from rfl) fun r d m => by simp [setSfeDetect, devBody]

theorem sfeCal_keepsForm (ch : Fin 8) : KeepsForm (.sfeCal ch) :=
  keepsForm_configure (x := ⟨0x0404, 0, calObjs, devBody (sfeCalOn ch.val)⟩) (ch := ch)
    (fun s => show execSfeCal ch s = _ from rfl) fun r d m => by simp [devBody]

theorem steConfig_keepsForm (ch : Fin 8) : KeepsForm (.steConfig ch) :=
  keepsForm_configure (fun s => show execSteConfig ch s = _ from rfl) fun r d m => by simp [setSteConfig, devBody]

theorem steMap_keepsForm (ch : Fin 8) : KeepsForm (.steMap ch) :=
  keepsForm_configure (fun s => show execSteMap ch s = _ from rfl) fun r d m => by simp [setSteMap, devBody]

theorem steMask_keepsForm (ch : Fin 8) : KeepsForm (.steMask ch) :=
  keepsForm_configure (fun s => show execSteMask ch s = _ from rfl) fun r d m => by simp [setSteMask, devBody]

theorem fteConfig_keepsForm (ch : Fin 8) : KeepsForm (.fteConfig ch) :=
  keepsForm_configure (fun s => show execFteConfig ch s = _ from rfl) fun r d m => by simp [setFteConfig, devBody]

theorem fteMask_keepsForm (ch : Fin 8) : KeepsForm (.fteMask ch) :=
  keepsForm_configure (fun s => show execFteMask ch s = _ from rfl) fun r d m => by simp [setFteMask, devBody]

theorem gridConfig_keepsForm (ch : Fin 8) : KeepsForm (.gridConfig ch) :=
  keepsForm_configure (fun s => show execGridConfig ch s = _ from rfl) fun r d m => by simp [setGridConfig, devBody]

theorem gridSource_keepsForm (ch : Fin 8) : KeepsForm (.gridSource ch) :=
  keepsForm_configure (fun s => show execGridSource ch s = _ from rfl) fun r d m => by simp [setGridSource, devBody]

theorem calSet_keepsForm (ch : Fin 8) : KeepsForm (.calSet ch) :=
  keepsForm_configure (fun s => show execCalSet ch s = _ from rfl) fun r d m => by simp [setCalSet, devBody]

theorem calRefine_keepsForm (ch : Fin 8) : KeepsForm (.calRefine ch) :=
  keepsForm_configure (fun s => show execCalRefine ch s = _ from rfl) fun r d m => by simp [setCalRefine, devBody]

theorem checkConfig_keepsForm (ch : Fin 8) : KeepsForm (.checkConfig ch) :=
  keepsForm_configure (fun s => show execCheckConfig ch s = _ from rfl) fun r d m => by simp [setCheckConfig, devBody]

theorem ppConfig_keepsForm (ch : Fin 8) : KeepsForm (.ppConfig ch) :=
  keepsForm_configure (fun s => show execPpConfig ch s = _ from rfl) fun r d m => by simp [setPpConfig, devBody]

theorem locConfig_keepsForm (ch : Fin 8) : KeepsForm (.locConfig ch) :=
  keepsForm_configure (fun s => show execLocConfig ch s = _ from rfl) fun r d m => by simp [setLocConfig, devBody]

theorem wheelConfig_keepsForm (ch : Fin 8) : KeepsForm (.wheelConfig ch) :=
  keepsForm_configure (fun s => show execWheelConfig ch s = _ from rfl) fun r d m => by simp [setWheelConfig, devBody]

theorem gnssConfig_keepsForm (ch : Fin 8) : KeepsForm (.gnssConfig ch) :=
  keepsForm_configure (fun s => show execGnssConfig ch s = _ from rfl) fun r d m => by simp [setGnssConfig, devBody]

theorem loopConfig_keepsForm (ch : Fin 8) : KeepsForm (.loopConfig ch) :=
  keepsForm_configure (fun s => show execLoopConfig ch s = _ from rfl) fun r d m => by simp [setLoopConfig, devBody]

theorem mapConfig_keepsForm (ch : Fin 8) : KeepsForm (.mapConfig ch) :=
  keepsForm_configure (fun s => show execMapConfig ch s = _ from rfl) fun r d m => by simp [setMapConfig, devBody]

theorem prsIndex_keepsForm (ch : Fin 8) : KeepsForm (.prsIndex ch) :=
  keepsForm_configure (fun s => show execPrsIndex ch s = _ from rfl) fun r d m => by simp [setPrsIndex, devBody]

theorem prsConfig_keepsForm (ch : Fin 8) : KeepsForm (.prsConfig ch) :=
  keepsForm_configure (fun s => show execPrsConfig ch s = _ from rfl) fun r d m => by simp [setPrsConfig, devBody]

theorem outPort_keepsForm (ch : Fin 8) : KeepsForm (.outPort ch) :=
  keepsForm_configure (fun s => show execOutPort ch s = _ from rfl) fun r d m => by simp [setOutPort, devBody]

theorem outRoute_keepsForm (ch : Fin 8) : KeepsForm (.outRoute ch) :=
  keepsForm_configure (fun s => show execOutRoute ch s = _ from rfl) fun r d m => by simp [setOutRoute, devBody]

theorem guideConfig_keepsForm (ch : Fin 8) : KeepsForm (.guideConfig ch) :=
  keepsForm_configure (fun s => show execGuideConfig ch s = _ from rfl) fun r d m => by simp [setGuideConfig, devBody]

theorem guideSelect_keepsForm (ch : Fin 8) : KeepsForm (.guideSelect ch) :=
  keepsForm_configure (fun s => show execGuideSelect ch s = _ from rfl) fun r d m => by simp [setGuideSelect, devBody]

theorem ident_keepsForm : KeepsForm .ident :=
  keepsForm_bootCmd fun s => show execIdent s = _ from rfl

theorem fuseLoad_keepsForm : KeepsForm .fuseLoad :=
  keepsForm_bootCmd fun s => show execFuseLoad s = _ from rfl

theorem sweep_keepsForm (finds : List Word) : KeepsForm (.sweep finds) :=
  keepsForm_bootCmd fun s => show execSweep finds s = _ from rfl

theorem clocks_keepsForm (outcome : ClockOutcome) : KeepsForm (.clocks outcome) :=
  keepsForm_bootCmd fun s => show execClocks outcome s = _ from rfl

theorem train_keepsForm : KeepsForm .train :=
  keepsForm_bootCmd fun s => show execTrain s = _ from rfl

theorem fwLoad_keepsForm : KeepsForm .fwLoad :=
  keepsForm_bootCmd fun s => show execFwLoad s = _ from rfl

theorem fwVerify_keepsForm : KeepsForm .fwVerify :=
  keepsForm_bootCmd fun s => show execFwVerify s = _ from rfl

theorem fwStart_keepsForm (reported : BitVec 8) : KeepsForm (.fwStart reported) :=
  keepsForm_bootCmd fun s => show execFwStart reported s = _ from rfl

theorem kat_keepsForm (engines : List (Nat × Nat)) (units : List Nat) : KeepsForm (.kat engines units) :=
  keepsForm_bootCmd fun s => show execKat engines units s = _ from rfl

theorem ready_keepsForm : KeepsForm .ready :=
  keepsForm_bootCmd fun s => show execReady s = _ from rfl

theorem debugTapInstruction_keepsForm (i : TapInstr) : KeepsForm (.debugTapInstruction i) := by
  intro s t hm hn
  change execDebugTapInstruction i s = _ at hn
  cases i with
  | idcode | bypass =>
    cases hn
    exact hm
  | memWrite =>
    cases hn
    dsimp only
    split <;> simp [hm]
  | ctlWrite =>
    cases hn
    dsimp only
    split
    · exact hm
    · split <;> simp [hm]
  | memRead | ctlRead | cp | scan =>
    simp only [execDebugTapInstruction] at hn
    split at hn <;> cases hn <;> exact hm

theorem targetResetPattern_keepsForm : KeepsForm .targetResetPattern := by
  intro s t hm hn
  change execTargetResetPattern s = _ at hn
  unfold execTargetResetPattern at hn
  split at hn
  · split at hn <;> cases hn
    · exact hm
    · exact Store.canonical_packageReset _ hm
    · exact hm
  · cases hn
    exact hm

/-- Every command keeps the canonical form. The commands stand by the frame they run in. -/
theorem exec_keepsForm (c : Instr) : KeepsForm c := by
  cases c with
  | powerOnReset | packageResetAssert | supplyUndervoltage =>
    intro s t hm hn
    cases hn
    exact Store.canonical_packageReset _ hm
  | packageResetRelease | hotJoinRequest | getstatus | unsupportedCcc | enthdrUnsupported | hdrExit | rcRegisterRead
  | ibiSend | loadIdle | stepTimeout | evtRingRdWrite | evtVlogIdxWrite | evtFlogIdxWrite | latch | onPps
  | mbxDoorbell | flush | mbxResponseFormed | diagLatch | triggerEdge | pulseEnd | ppsInEdge | ppsQualified | ppsLost
  | ppsOutRise | ppsOutFall | ptpMessageRx | servoLock | servoUnlock | ptpMasterLost | holdMaxExpiry | ptpMessageTx
  | ptpEventForward | residenceEntryExpiry | tbSlaveFault | csiEmbeddedData | pairLost | pairRecover | ethFrameTx
  | imuDataReady | encoderEdge | encoderIndex | canErrorState | streamDropout | streamRecover | sfeChannelStart
  | sfeCalDone | iepeBiasFault | resolverLos | sfeFaultRecover | phaseAutoUpdate | excOvercurrent | sfeInputClamp
  | bcastPacket | bcastAckTimeout | flagSignal | memCompletion | mscRequest | patrolScrub | fteDormantExpire
  | fteFreezeExpire | checkDecision | checkSourceClean | calRefineTick | slvStepBoundary | slvDeadline | ppRecord
  | locLostTimeout | locReinitTimeout | locInitStart | tickDeadline | loopCorrectionApply | mapReclaim
  | batchWindowClose | shardCompaction | eventMsgForm | diagMsgForm | guideInstant | jobFault | flitParityError
  | linkCrcError | linkRetrain | cpWatchdog | cpSramUe | diePowerOnDone | domainPowerGood | limiterEval | stSliceBusy
  | fuseRecordBlow | holdoverClassChange | busOffRecoveryDone | guidanceFrameTx | readOutsideWindow
  | healthTestFailure | enec | disec | rstdaa | entdaa | setdasa | setnewda | setmwl | setmrl | rstact | enthdr0
  | getmwl | getmrl | getpid | getbcr | getdcr | getcaps =>
    intro s t hm hn
    cases hn
    exact hm
  | nop | handleQuery | handleList | timeStatus | compGet | ptpPortStatus | streamStatus | ethStatus | sfeStatus
  | sfeCoefGet | jobStatus | jobList | profileStatus | clusterStatus | unitStatus | memStatus | bufInfo | steStatus
  | fteStatus | fteTrackGet | calGet | fusionStatus | ppStatus | locStatus | poseGet | mapStatus | mapGet | prsStatus
  | outStatus | eventGet | guideStatus | powerStatus | stProgress | stFuseStatus | secStatus | idInfo =>
    refine keepsForm_of_memSame fun s => ?_
    simp only [exec]
    exact memSame_query _ _ _ s
  | resultGet | diagCollect | timeSet | bulkOpen | jobConfig | profileUnload | bufAlloc | bufFree | slvSolve
  | slvStatus | slvUnload | locReset | gnssFix | mapExport | mapSession | mapClear | prsTreeLoad | prsUpdate
  | prsQuery | prsCompact | outBulk | powerConfig | pwrSense | stRun | stFuse | attest | fwUpdate | secRollback
  | secRevoke | debugChallenge | debugUnlock =>
    refine keepsForm_of_memSame fun s => ?_
    simp only [exec]
    exact memSame_command _ _ _ s
  | jobSubmit | memRead | steRun | fteRun | slvLoad | slvUpdate | mapLoad | guidePath =>
    refine keepsForm_of_memSame fun s => ?_
    simp only [exec]
    exact memSame_commandRead _ _ _ s
  | i3cAddressWrite addr => exact i3cAddressWrite_keepsForm addr
  | i3cMalformedTransfer m => exact i3cMalformedTransfer_keepsForm m
  | registerWrite addr words => exact registerWrite_keepsForm addr words
  | trainItemEnd item status density => exact trainItemEnd_keepsForm item status density
  | bootFwwinWrite offset words => exact bootFwwinWrite_keepsForm offset words
  | bootStepEnd => exact bootStepEnd_keepsForm
  | bootReset key => exact bootReset_keepsForm key
  | timeStepApply => exact timeStepApply_keepsForm
  | csiFrameStart port vc frameNum ecc at_ => exact csiFrameStart_keepsForm port vc frameNum ecc at_
  | csiLinePacket port vc dt ecc crcOk pixels words => exact csiLinePacket_keepsForm port vc dt ecc crcOk pixels words
  | csiFrameEnd port vc ecc at_ => exact csiFrameEnd_keepsForm port vc ecc at_
  | frameTimeout port => exact frameTimeout_keepsForm port
  | csiBulkPacket port vc dt ecc bytes => exact csiBulkPacket_keepsForm port vc dt ecc bytes
  | ethFrameRx port frame fcsOk at_ => exact ethFrameRx_keepsForm port frame fcsOk at_
  | sweepClose stream => exact sweepClose_keepsForm stream
  | imuTransactionDone port bytes => exact imuTransactionDone_keepsForm port bytes
  | encoderSample enc => exact encoderSample_keepsForm enc
  | canFrameRx ctrl fd extended remote id data at_ => exact canFrameRx_keepsForm ctrl fd extended remote id data at_
  | sfeOutputSample stream raw raw2 => exact sfeOutputSample_keepsForm stream raw raw2
  | sfeDetectorWindow stream raw raw2 => exact sfeDetectorWindow_keepsForm stream raw raw2
  | sfeAuxScanStart die raw => exact sfeAuxScanStart_keepsForm die raw
  | jobPlace job => exact jobPlace_keepsForm job
  | jobLoaded job => exact jobLoaded_keepsForm job
  | bcastAnswer cluster slot seq ack => exact bcastAnswer_keepsForm cluster slot seq ack
  | descriptorIssue unit => exact descriptorIssue_keepsForm unit
  | flagWaitMet unit => exact flagWaitMet_keepsForm unit
  | waitTimeout unit => exact waitTimeout_keepsForm unit
  | unitEnd unit => exact unitEnd_keepsForm unit
  | schedEntryCopy job => exact schedEntryCopy_keepsForm job
  | windowSlotLoad job => exact windowSlotLoad_keepsForm job
  | steBandBuild die view => exact steBandBuild_keepsForm die view
  | steBandWrite die slots => exact steBandWrite_keepsForm die slots
  | steTileBoundary die => exact steTileBoundary_keepsForm die
  | steOpDone die => exact steOpDone_keepsForm die
  | fteBandBuild die view => exact fteBandBuild_keepsForm die view
  | fteTrackOp die view h fbBuf fbOff fbCount cluster block flag => exact fteTrackOp_keepsForm die view h fbBuf fbOff fbCount cluster block flag
  | haloCopy die width hmax c0 c1 below above error => exact haloCopy_keepsForm die width hmax c0 c1 below above error
  | slvSolveEnd die result => exact slvSolveEnd_keepsForm die result
  | roundMerge job n => exact roundMerge_keepsForm job n
  | txPartSend port => exact txPartSend_keepsForm port
  | jobCommit job out => exact jobCommit_keepsForm job out
  | jobRestart job => exact jobRestart_keepsForm job
  | pllLockLoss die island => exact pllLockLoss_keepsForm die island
  | refClockLoss ref die => exact refClockLoss_keepsForm ref die
  | thermalEval tj => exact thermalEval_keepsForm tj
  | stSliceStart run => exact stSliceStart_keepsForm run
  | stSliceEnd run out => exact stSliceEnd_keepsForm run out
  | stSliceTimeout run => exact stSliceTimeout_keepsForm run
  | stWindowVoid run => exact stWindowVoid_keepsForm run
  | cryptoOpDone fail => exact cryptoOpDone_keepsForm fail
  | handleCancel ch => exact handleCancel_keepsForm ch
  | profileLoad ch => exact profileLoad_keepsForm ch
  | memWrite ch => exact memWrite_keepsForm ch
  | partReset ch => exact partReset_keepsForm ch
  | dieReset ch => exact dieReset_keepsForm ch
  | domainPower ch => exact domainPower_keepsForm ch
  | diePower ch => exact diePower_keepsForm ch
  | ident => exact ident_keepsForm
  | fuseLoad => exact fuseLoad_keepsForm
  | sweep finds => exact sweep_keepsForm finds
  | clocks outcome => exact clocks_keepsForm outcome
  | train => exact train_keepsForm
  | fwLoad => exact fwLoad_keepsForm
  | fwVerify => exact fwVerify_keepsForm
  | fwStart reported => exact fwStart_keepsForm reported
  | kat engines units => exact kat_keepsForm engines units
  | ready => exact ready_keepsForm
  | timeConfig ch => exact timeConfig_keepsForm ch
  | compSet ch => exact compSet_keepsForm ch
  | trigGroup ch => exact trigGroup_keepsForm ch
  | trigOut ch => exact trigOut_keepsForm ch
  | ptpPort ch => exact ptpPort_keepsForm ch
  | ppsConfig ch => exact ppsConfig_keepsForm ch
  | streamConfig ch => exact streamConfig_keepsForm ch
  | csiPort ch => exact csiPort_keepsForm ch
  | pairConfig ch => exact pairConfig_keepsForm ch
  | ethPort ch => exact ethPort_keepsForm ch
  | lidarStream ch => exact lidarStream_keepsForm ch
  | imuPort ch => exact imuPort_keepsForm ch
  | encConfig ch => exact encConfig_keepsForm ch
  | canController ch => exact canController_keepsForm ch
  | canFilter ch => exact canFilter_keepsForm ch
  | sfeChannel ch => exact sfeChannel_keepsForm ch
  | sfeAuxScan ch => exact sfeAuxScan_keepsForm ch
  | sfeExc ch => exact sfeExc_keepsForm ch
  | sfeDetect ch => exact sfeDetect_keepsForm ch
  | sfeCal ch => exact sfeCal_keepsForm ch
  | steConfig ch => exact steConfig_keepsForm ch
  | steMap ch => exact steMap_keepsForm ch
  | steMask ch => exact steMask_keepsForm ch
  | fteConfig ch => exact fteConfig_keepsForm ch
  | fteMask ch => exact fteMask_keepsForm ch
  | gridConfig ch => exact gridConfig_keepsForm ch
  | gridSource ch => exact gridSource_keepsForm ch
  | calSet ch => exact calSet_keepsForm ch
  | calRefine ch => exact calRefine_keepsForm ch
  | checkConfig ch => exact checkConfig_keepsForm ch
  | ppConfig ch => exact ppConfig_keepsForm ch
  | locConfig ch => exact locConfig_keepsForm ch
  | wheelConfig ch => exact wheelConfig_keepsForm ch
  | gnssConfig ch => exact gnssConfig_keepsForm ch
  | loopConfig ch => exact loopConfig_keepsForm ch
  | mapConfig ch => exact mapConfig_keepsForm ch
  | prsIndex ch => exact prsIndex_keepsForm ch
  | prsConfig ch => exact prsConfig_keepsForm ch
  | outPort ch => exact outPort_keepsForm ch
  | outRoute ch => exact outRoute_keepsForm ch
  | guideConfig ch => exact guideConfig_keepsForm ch
  | guideSelect ch => exact guideSelect_keepsForm ch
  | targetResetPattern => exact targetResetPattern_keepsForm
  | debugTapInstruction instr => exact debugTapInstruction_keepsForm instr

/-- Settles O4: a step runs a command, which keeps the canonical form, or lets the clock run. -/
theorem memoriesStayCanonical : Obligations.MemoriesStayCanonical := by
  intro s t hm hn
  unfold step at hn
  split at hn
  · cases hn
    exact hm
  next c rest hp => exact exec_keepsForm c ⟨s.dev, s.mem, rest⟩ t hm hn

end Sys2Proof.Machine
end

section
/-! SUPPORT. Settings of objects that the active profile uses (O59). -/

namespace Sys2Proof.Machine

/-- Under a profile other than Profile 0 a setting of an object in use is BAD_STATE (R746). -/
theorem configure_badState (t : Setting) {s : State} {ch : Fin 8} {r : Request} (hz : s.dev.jobs.profile.zero = false)
    (hh : s.holds ch t.op r) (hu : s.dev.profileUses (t.objs r s.dev) = true) :
    configure t ch s = .next (s.answered ch r s.dev (ans stBadState)) := by
  unfold State.holds at hh
  simp [configure, hh, Setting.outcome, hu, hz, State.answered, State.withDev]

/-- Settles O59: each of the commands is a setting; SFE_CAL judges its profile as `setSfeCal` does. -/
theorem profileObjectsAreNotChanged : Obligations.ProfileObjectsAreNotChanged := by
  intro s ch r hz
  simp only [List.forall_mem_cons, List.not_mem_nil, false_implies, implies_true, and_true]
  exact ⟨configure_badState setCompSet hz, configure_badState setTrigGroup hz, configure_badState setTrigOut hz,
    configure_badState setPtpPort hz, configure_badState setStreamConfig hz, configure_badState setCsiPort hz,
    configure_badState setPairConfig hz, configure_badState setLidarStream hz, configure_badState setImuPort hz,
    configure_badState setEncConfig hz, configure_badState setCanController hz, configure_badState setCanFilter hz,
    configure_badState setSfeChannel hz, configure_badState setSfeDetect hz,
    configure_badState ⟨0x0404, 0, calObjs, devBody (sfeCalOn ch.val)⟩ hz, configure_badState setSteConfig hz,
    configure_badState setFteConfig hz, configure_badState setGridConfig hz, configure_badState setGridSource hz,
    configure_badState setCheckConfig hz, configure_badState setPpConfig hz, configure_badState setLocConfig hz,
    configure_badState setWheelConfig hz, configure_badState setOutPort hz, configure_badState setOutRoute hz,
    configure_badState setGuideConfig hz⟩

end Sys2Proof.Machine
end

section
/-! SUPPORT. The bytes of a buffer: a range laid in memory is read back (O60). -/

namespace Sys2Proof.Machine

/-! ## Addresses of a buffer -/

theorem pitchBase_eq (p : Nat) : pitchBase p = p * pitchSize := by
  unfold pitchBase pitchSize
  omega

/-- Within one pitch of a buffer, addresses follow one another (R392). -/
theorem Buffer.addr_add (b : Buffer) {o i : Nat} (h : o % pitchSize + i < pitchSize) : b.addr (o + i) = b.addr o + i := by
  have hd : (o + i) / pitchSize = o / pitchSize := by
    unfold pitchSize at *
    omega
  have hm : (o + i) % pitchSize = o % pitchSize + i := by
    unfold pitchSize at *
    omega
  rw [Buffer.addr, Buffer.addr, hd, hm, Nat.add_assoc]

/-- Two bytes of a buffer of distinct pitches have two addresses. -/
theorem Buffer.addr_injective {b : Buffer} (hb : b.pitches.Nodup) {o p : Nat} (ho : o < b.size) (hp : p < b.size)
    (h : b.addr o = b.addr p) : o = p := by
  rw [Buffer.size] at ho hp
  have io : o / pitchSize < b.pitches.length := Nat.div_lt_of_lt_mul (by rwa [Nat.mul_comm] at ho)
  have ip : p / pitchSize < b.pitches.length := Nat.div_lt_of_lt_mul (by rwa [Nat.mul_comm] at hp)
  simp only [Buffer.addr, pitchBase_eq, getD_of_lt_length _ _ io, getD_of_lt_length _ _ ip] at h
  have hq : b.pitches[o / pitchSize] = b.pitches[p / pitchSize] ∧ o % pitchSize = p % pitchSize := by
    generalize b.pitches[o / pitchSize] = x at h
    generalize b.pitches[p / pitchSize] = y at h
    unfold pitchSize at *
    omega
  have hi := (List.getElem_inj hb).mp hq.1
  rw [← Nat.div_add_mod o pitchSize, ← Nat.div_add_mod p pitchSize, hi, hq.2]

/-! ## Pieces of a range -/

/-- A piece is a run of bytes of the range within one pitch. -/
theorem Buffer.mem_pieces {b : Buffer} {k o n : Nat} {g : Nat × Nat} (hg : g ∈ b.pieces k o n) :
    ∃ i, i + g.2 ≤ n ∧ g.1 = b.addr (o + i) ∧ (o + i) % pitchSize + g.2 ≤ pitchSize := by
  induction k generalizing o n with
  | zero => simp [Buffer.pieces] at hg
  | succ k ih =>
    rw [Buffer.pieces] at hg
    split at hg
    · simp at hg
    · rcases List.mem_cons.mp hg with rfl | hg
      · refine ⟨0, ?_, rfl, ?_⟩ <;> simp only [Nat.zero_add, Nat.add_zero] <;> unfold pitchSize <;> omega
      · obtain ⟨i, hi, ha, hp⟩ := ih hg
        exact ⟨min n (pitchSize - o % pitchSize) + i, by omega, by rw [ha, Nat.add_assoc], by rwa [← Nat.add_assoc]⟩

/-- Bytes laid over pieces leave every byte outside them alone. -/
theorem read_layBytes_other {ps : List (Nat × Nat)} {bs : List Byte} {m : Cells} {a : Nat}
    (h : ∀ g ∈ ps, a < g.1 ∨ g.1 + g.2 ≤ a) : Cells.read 0#8 (layBytes ps bs m) a = Cells.read 0#8 m a := by
  induction ps generalizing bs m with
  | nil => rfl
  | cons g ps ih =>
    rw [layBytes, ih fun g hg => h g (List.mem_cons_of_mem _ hg)]
    have hg := h g List.mem_cons_self
    exact Cells.read_writeAll_other _ _ _ _ _ (by simp only [List.length_take]; omega)

/-- A byte written among others is read back from a canonical store. -/
theorem Cells.read_writeAll_same {d : Byte} {bs : List Byte} {m : Cells} {a i : Nat} (w : Cells.wf d m = true)
    (hi : i < bs.length) : Cells.read d (Cells.writeAll d m a bs) (a + i) = bs[i] := by
  induction bs generalizing m a i with
  | nil => simp at hi
  | cons b bs ih =>
    rw [Cells.writeAll]
    cases i with
    | zero =>
      rw [Cells.read_writeAll_other _ _ _ _ _ (by omega)]
      exact Cells.read_write_same d m 0 a b w
    | succ i =>
      have h := ih (a := a + 1) (Cells.wf_write d m a b w) (Nat.lt_of_succ_lt_succ hi)
      rw [show a + (i + 1) = a + 1 + i by omega, h]
      rfl

/-- Byte `i` of a range laid over its pieces is read at its address. -/
theorem Buffer.read_layBytes_pieces {b : Buffer} (hb : b.pitches.Nodup) {k o n i : Nat} {bs : List Byte} {m : Cells}
    (w : Cells.wf 0#8 m = true) (hk : n = 0 ∨ n + o % pitchSize ≤ k * pitchSize) (hn : bs.length = n)
    (hs : o + n ≤ b.size) (hi : i < bs.length) :
    Cells.read 0#8 (layBytes (b.pieces k o n) bs m) (b.addr (o + i)) = bs[i] := by
  induction k generalizing o n i bs m with
  | zero => omega
  | succ k ih =>
    rw [Buffer.pieces, if_neg (by omega)]
    dsimp only
    rw [layBytes]
    have hp : o % pitchSize < pitchSize := Nat.mod_lt _ (by decide)
    generalize htake : min n (pitchSize - o % pitchSize) = take
    by_cases hit : i < take
    · have hlay : ∀ g ∈ b.pieces k (o + take) (n - take), b.addr (o + i) < g.1 ∨ g.1 + g.2 ≤ b.addr (o + i) := by
        intro g hg
        obtain ⟨j, hj, ha, hpj⟩ := Buffer.mem_pieces hg
        refine Decidable.by_contra fun hc => ?_
        generalize ht : b.addr (o + i) - g.1 = t
        have he : b.addr (o + i) = b.addr (o + take + j + t) := by
          rw [Buffer.addr_add b (o := o + take + j) (i := t) (by omega), ← ha]
          omega
        have := Buffer.addr_injective hb (by omega) (by omega) he
        omega
      have hlen : i < (bs.take take).length := by
        rw [List.length_take]
        omega
      rw [read_layBytes_other hlay, Buffer.addr_add b (by omega), Cells.read_writeAll_same w hlen, List.getElem_take]
    · have h := ih (o := o + take) (n := n - take) (i := i - take) (bs := bs.drop take)
        (m := Cells.writeAll 0#8 m (b.addr o) (bs.take take)) (Cells.wf_writeAll _ _ _ _ w) ?_
        (by rw [List.length_drop, hn]) (by omega) (by rw [List.length_drop]; omega)
      · rw [show o + i = o + take + (i - take) by omega, h, List.getElem_drop]
        congr 1
        omega
      · by_cases hz : n - take = 0
        · exact .inl hz
        · refine .inr ?_
          have ht : take = pitchSize - o % pitchSize := by omega
          have hm : (o + take) % pitchSize = 0 := by
            subst ht
            unfold pitchSize at *
            omega
          rw [hm]
          rcases hk with hk | hk
          · omega
          · rw [Nat.succ_mul] at hk
            omega

/-- The bytes read over the pieces of a range are those at its addresses, in order. -/
theorem Buffer.flatMap_pieces {b : Buffer} {k o n : Nat} (m : Cells)
    (hk : n = 0 ∨ n + o % pitchSize ≤ k * pitchSize) :
    (b.pieces k o n).flatMap (fun g => m.readAll 0#8 g.1 g.2) =
      (List.range n).map fun i => Cells.read 0#8 m (b.addr (o + i)) := by
  induction k generalizing o n with
  | zero =>
    have hn : n = 0 := by omega
    simp [Buffer.pieces, hn]
  | succ k ih =>
    rw [Buffer.pieces]
    split
    next hn => simp [hn]
    next hn =>
      have hp : o % pitchSize < pitchSize := Nat.mod_lt _ (by decide)
      dsimp only
      generalize htake : min n (pitchSize - o % pitchSize) = take
      have hrest : n - take = 0 ∨ n - take + (o + take) % pitchSize ≤ k * pitchSize := by
        by_cases hz : n - take = 0
        · exact .inl hz
        · refine .inr ?_
          have ht : take = pitchSize - o % pitchSize := by omega
          have hm : (o + take) % pitchSize = 0 := by
            subst ht
            unfold pitchSize at *
            omega
          rw [hm]
          rcases hk with hk | hk
          · omega
          · rw [Nat.succ_mul] at hk
            omega
      have hrange : List.range n = List.range take ++ (List.range (n - take)).map (take + ·) := by
        rw [← List.range_add]
        congr
        omega
      rw [List.flatMap_cons, ih hrest, hrange, List.map_append, List.map_map]
      refine congr (congrArg HAppend.hAppend ?_) ?_
      · refine List.map_congr_left fun i hi => ?_
        rw [Buffer.addr_add b (by have := List.mem_range.mp hi; omega)]
      · refine List.map_congr_left fun i _ => ?_
        simp [Nat.add_assoc]

theorem Buffer.range_fuel (o n : Nat) : n = 0 ∨ n + o % pitchSize ≤ (n / pitchSize + 2) * pitchSize := by
  unfold pitchSize
  omega

/-! ## Access errors after a write -/

/-- A write without an error leaves a range that reads without one: every marked sector it met it covered, and renewed
(R383). -/
theorem Device.accessError_renewed {d e : Device} {pa k : Nat} (hw : d.accessError pa k true = none)
    (hd : e.density = d.density) (hp : e.pwr = d.pwr)
    (hb : ∀ sct ∈ e.memsys.bad, sct ∈ d.memsys.bad ∧ ¬ (pa ≤ sct * 64 ∧ sct * 64 + 64 ≤ pa + k)) :
    e.accessError pa k false = none := by
  have hup : e.channelUp (pa / 2 ^ 34) = d.channelUp (pa / 2 ^ 34) := by simp only [Device.channelUp, hp]
  unfold Device.accessError at hw ⊢
  dsimp only at hw ⊢
  rw [hd, hup]
  split at hw
  · cases hw
  next hc =>
    rw [if_neg hc]
    simp only [Option.map_eq_none_iff, List.find?_eq_none] at hw ⊢
    intro sct hs
    obtain ⟨hm, hn⟩ := hb sct hs
    have h := hw sct hm
    simp only [Bool.true_and, Bool.false_and, Bool.not_false, Bool.and_true, Bool.and_eq_true, decide_eq_true_eq,
      Bool.not_eq_true', Bool.and_eq_false_imp, decide_eq_false_iff_not] at h ⊢
    omega

/-- What is still marked after the renewal of a range was marked before, and lies in no piece as a whole. -/
theorem MemSys.mem_bad_renewRange {m : MemSys} {ps : List (Nat × Nat)} {sct : Nat}
    (h : sct ∈ (ps.foldl (fun m g => m.renew g.1 g.2) m).bad) :
    sct ∈ m.bad ∧ ∀ g ∈ ps, ¬ (g.1 ≤ sct * 64 ∧ sct * 64 + 64 ≤ g.1 + g.2) := by
  induction ps generalizing m with
  | nil => simpa using h
  | cons g ps ih =>
    obtain ⟨hm, hr⟩ := ih h
    simp only [MemSys.renew, List.mem_filter, Bool.not_eq_true', Bool.and_eq_false_imp, decide_eq_true_eq,
      decide_eq_false_iff_not] at hm
    refine ⟨hm.1, fun g' hg' => ?_⟩
    rcases List.mem_cons.mp hg' with rfl | hg'
    · exact fun hc => hm.2 hc.1 hc.2
    · exact hr g' hg'

theorem MemSys.bufs_renewRange (ps : List (Nat × Nat)) (m : MemSys) :
    (ps.foldl (fun m g => m.renew g.1 g.2) m).bufs = m.bufs := by
  induction ps generalizing m with
  | nil => rfl
  | cons g ps ih => exact ih _

/-- Settles O60: the write lays the bytes over the pieces of the range, and the read takes them up again. -/
theorem storedBytesAreRead : Obligations.StoredBytesAreRead := by
  intro d m id o bs b x hb hx
  unfold Device.bufStore at hx
  rw [hb] at hx
  dsimp only at hx
  split at hx
  · cases hx
  next he =>
    cases hx
    refine ⟨rfl, rfl, rfl, fun a ha => read_layBytes_other ha, fun hw hn hs => ?_⟩
    unfold Device.bufRead
    have hb' : ({ d with memsys := d.memsys.renewRange b o bs.length } : Device).buf id = some b := by
      rw [Device.buf]
      exact (congrArg (Tbl.look · id) (MemSys.bufs_renewRange _ _)).trans hb
    rw [hb']
    dsimp only
    have hr : ({ d with memsys := d.memsys.renewRange b o bs.length } : Device).rangeError b o bs.length false = none := by
      refine List.findSome?_eq_none_iff.mpr fun g hg => ?_
      have hw := List.findSome?_eq_none_iff.mp he g hg
      exact Device.accessError_renewed hw rfl rfl fun sct hs =>
        ⟨(MemSys.mem_bad_renewRange hs).1, (MemSys.mem_bad_renewRange hs).2 g hg⟩
    rw [hr]
    refine congrArg Except.ok ((Buffer.flatMap_pieces _ (Buffer.range_fuel o bs.length)).trans ?_)
    refine List.ext_getElem (by simp) fun i _ hi => ?_
    rw [List.getElem_map, List.getElem_range]
    exact Buffer.read_layBytes_pieces hn hw (Buffer.range_fuel o bs.length) rfl hs hi

end Sys2Proof.Machine
end

section
/-! SUPPORT. Resets and the bus: what they leave (O7, O9). -/

namespace Sys2Proof.Machine

/-! ## Resets -/

theorem bootReset_taken {key : Word} {s : State} (h : s.dev.takesPrivate = true) :
    exec (.bootReset key) s = .next (s.withAll (bootReset key s.dev s.mem).1 (bootReset key s.dev s.mem).2) := by
  change execBootReset key s = _
  simp only [execBootReset, onBoth_next, h, if_true]

/-- Settles O7: every reset leaves the package reset state. -/
theorem resetsReturnToPowerOn : Obligations.ResetsReturnToPowerOn := by
  intro s
  refine ⟨⟨_, rfl, ?_, rfl, rfl⟩, ⟨_, rfl, ?_, rfl, rfl⟩, ⟨_, rfl, ?_, rfl⟩, fun h => ?_, fun h => ?_, fun key h hk => ?_⟩
  · exact ⟨rfl, rfl, rfl, rfl, rfl, rfl, rfl, rfl, rfl, rfl, rfl⟩
  · exact ⟨rfl, rfl, rfl, rfl, rfl, rfl, rfl, rfl, rfl, rfl, rfl⟩
  · exact ⟨rfl, rfl, rfl, rfl, rfl, rfl, rfl, rfl, rfl, rfl, rfl⟩
  · change execPackageResetRelease s = _
    simp only [execPackageResetRelease, onDev_next, h, if_true]
  · refine ⟨_, bootReset_taken h, ?_⟩
    exact ⟨rfl, rfl, rfl, rfl, rfl, rfl, rfl, rfl, rfl, rfl, rfl⟩
  · rw [bootReset_taken h, bootReset, if_neg hk]
    rfl

/-! ## The bus -/

theorem Device.advance_time (d : Device) (n : Nat) : (d.advance n).time = d.time.advance n := by
  unfold Device.advance
  dsimp only
  split <;> rfl

/-- The clock carried forward reaches the moment. -/
theorem Device.le_now_advanceTo (d : Device) (moment : Nat) : moment ≤ (d.advanceTo moment).time.now := by
  unfold Device.advanceTo
  split
  · rw [Device.advance_time, TimeBase.advance]
    dsimp only
    omega
  · omega

/-- Carrying the clock forward touches the clock and diagnostics alone. -/
theorem Device.advanceTo_i3c (d : Device) (moment : Nat) : (d.advanceTo moment).i3c = d.i3c :=
  (show d.agrees [.diag, .time] (d.advanceTo moment) by simp) .i3c Store.reset (by simp)

theorem Device.advanceTo_boot (d : Device) (moment : Nat) : (d.advanceTo moment).boot = d.boot :=
  (show d.agrees [.diag, .time] (d.advanceTo moment) by simp) .boot Store.reset (by simp)

/-- Hot-join is requested once, 10 ms after the ball's release at the earliest (R143). The clock carried forward is held as a
variable, which the kernel does not evaluate. -/
theorem hotJoinRequest_sent {s : State} (hu : s.dev.pkg.targetUp = true) (hd : s.dev.i3c.dyn = none)
    (hj : s.dev.i3c.hjOn = true) (hs : s.dev.i3c.hjSent = false) :
    ∃ t, exec .hotJoinRequest s = .next t ∧ t.dev.i3c = { s.dev.i3c with hjSent := true } ∧
      s.dev.i3c.releasedAt + 10 * oneMs ≤ t.dev.time.now := by
  obtain ⟨e, he⟩ : ∃ e, e = s.dev.advanceTo (s.dev.i3c.releasedAt + 10 * oneMs) := ⟨_, rfl⟩
  have hi : e.i3c = s.dev.i3c := he ▸ Device.advanceTo_i3c _ _
  have hn : s.dev.i3c.releasedAt + 10 * oneMs ≤ e.time.now := he ▸ Device.le_now_advanceTo _ _
  refine ⟨s.withDev { e with i3c := { e.i3c with hjSent := true } }, ?_, by simp [hi], hn⟩
  change execHotJoinRequest s = _
  simp only [execHotJoinRequest, onDev_next, hu, hd, hj, hs, Option.isNone_none, Bool.not_false, Bool.and_self, if_true,
    ← he]

/-- Settles O9: each event by the condition it takes. -/
theorem busEventsMoveTheTarget : Obligations.BusEventsMoveTheTarget := by
  intro s
  refine ⟨fun h => ?_, fun h h0 h2 => ?_, fun h h2 => ?_, fun a h ha => ?_, fun n h => ?_, fun a h => ?_,
    fun hu hd hj hs => ?_, fun b rest acked hi ht hd ho => ?_, fun c h => ?_, fun mode h h1 h3 => ?_⟩
  · change execHdrExit s = _
    simp only [execHdrExit, onDev_next, h, if_true]
  · change execTargetResetPattern s = _
    simp only [execTargetResetPattern, h, if_true]
    rfl
  · change execTargetResetPattern s = _
    simp only [execTargetResetPattern, h, if_true, h2]
  · change execI3cAddressWrite a s = _
    simp [execI3cAddressWrite, onBoth_next, h, privateWrite, ha, writeWords, State.withAll, State.withDev]
  · change execI3cMalformedTransfer (.short n) s = _
    simp only [execI3cMalformedTransfer, onBoth_next, h, if_true, malformed]
    rfl
  · change execI3cMalformedTransfer (.unaligned a) s = _
    simp only [execI3cMalformedTransfer, onBoth_next, h, if_true, malformed]
    rfl
  · exact hotJoinRequest_sent hu hd hj hs
  · change execIbiSend acked s = _
    simp only [execIbiSend, onDev_next, hi, ht, hd, ho, Bool.and_self, if_true]
  · change execUnsupportedCcc c s = _
    simp only [execUnsupportedCcc, onDev_next, h, if_true]
  · have he : exec (.enthdrUnsupported mode) s = .next (s.withDev { s.dev.violation 0 0 0x07 mode with
        i3c := { (s.dev.violation 0 0 0x07 mode).i3c with hdr := .ignoring } }) := by
      change execEnthdrUnsupported mode s = _
      simp only [execEnthdrUnsupported, onDev_next, h, h1, h3, decide_true, Bool.and_self, if_true]
    exact ⟨_, he, by simp, rfl⟩

end Sys2Proof.Machine
end

section
/-! SUPPORT. Registers and the violation log (O10, O11, O12). -/

namespace Sys2Proof.Machine

/-! ## The violation log -/

/-- A cause set is a bit of EVT_CAUSE, and at most an IBI more (R175, R177). -/
theorem Device.setCause_evt (d : Device) {b : Nat} (hb : b < 13) :
    ∃ c i, (d.setCause b).evt = { d.evt with cause := c, ibi := i } ∧ c.getLsbD b = true := by
  unfold Device.setCause
  split
  next h => exact ⟨d.evt.cause, d.evt.ibi, rfl, h⟩
  · have hset : (d.evt.cause ||| BitVec.twoPow 13 b).getLsbD b = true := by simp [hb]
    dsimp only
    split
    · unfold Device.raiseIbi
      split
      · exact ⟨_, _, rfl, hset⟩
      · exact ⟨_, d.evt.ibi, rfl, hset⟩
    · exact ⟨_, d.evt.ibi, rfl, hset⟩

/-- An event record is one more event, or nothing before the firmware runs (R167). -/
theorem Device.record_evt (d : Device) (code cause unit p0 p1 : Nat) :
    ∃ es n, (d.record code cause unit p0 p1).evt = { d.evt with events := es, evSeq := n } := by
  unfold Device.record
  split
  · exact ⟨_, _, rfl⟩
  · exact ⟨d.evt.events, d.evt.evSeq, rfl⟩

/-- A violation that merges raises the newest entry (R178). -/
theorem Device.violation_merged {d : Device} {iface unit code detail : Nat} (h : d.vlogMerges iface unit code detail = true) :
    ∃ c i, (d.violation iface unit code detail).evt = { d.evt with
        cause := c, ibi := i
        vcnt := d.evt.vcnt.upd iface 0 fun n => min (n + 1) 0xFFFFFFFF
        vlog := d.evt.vlog.put ((d.evt.vlogCount - 1) % 256) { d.evt.vlogNewest with
          w0 := BitVec.ofNat 32 (d.evt.vlogNewest.w0.toNat / 65536 * 65536 +
            min (d.evt.vlogNewest.w0.toNat % 65536 + 1) 0xFFFF) } } ∧ c.getLsbD 12 = true := by
  unfold Device.violation
  simp only [h, if_true]
  obtain ⟨c, i, he, hc⟩ := Device.setCause_evt _ (b := 12) (by decide)
  exact ⟨c, i, he, hc⟩

/-- A violation that does not merge makes an entry (R178). -/
theorem Device.violation_entered {d : Device} {iface unit code detail : Nat} (h : d.vlogMerges iface unit code detail = false) :
    ∃ c i es n w, (d.violation iface unit code detail).evt = { d.evt with
        cause := c, ibi := i, events := es, evSeq := n
        vcnt := d.evt.vcnt.upd iface 0 fun n => min (n + 1) 0xFFFFFFFF
        vlog := d.evt.vlog.put (d.evt.vlogCount % 256) w
        vlogCount := (d.evt.vlogCount + 1) % 2 ^ 32, vlogAt := d.time.now } ∧ c.getLsbD 12 = true ∧
      w.w0 = vlogW0 iface unit code 1 ∧ w.w1 = BitVec.ofNat 32 detail ∧ w.w2 = BitVec.ofNat 32 (d.time.ns16 / oneS) := by
  unfold Device.violation
  simp only [h, Bool.false_eq_true, if_false]
  obtain ⟨es, n, hr⟩ := Device.record_evt (Device.setCause { d with evt := { d.evt with
    vcnt := d.evt.vcnt.upd iface 0 fun n => min (n + 1) 0xFFFFFFFF
    vlog := d.evt.vlog.put (d.evt.vlogCount % 256) ⟨vlogW0 iface unit code 1, BitVec.ofNat 32 detail,
      BitVec.ofNat 32 (d.time.ns16 / oneS), BitVec.ofNat 32 (d.time.ns16 % oneS / oneNs)⟩
    vlogCount := (d.evt.vlogCount + 1) % 2 ^ 32, vlogAt := d.time.now } } 12) 0x0041 12 (iface % 16)
    (vlogW0 iface unit code 1).toNat (BitVec.ofNat 32 detail).toNat
  obtain ⟨c, i, he, hc⟩ := Device.setCause_evt { d with evt := { d.evt with
    vcnt := d.evt.vcnt.upd iface 0 fun n => min (n + 1) 0xFFFFFFFF
    vlog := d.evt.vlog.put (d.evt.vlogCount % 256) ⟨vlogW0 iface unit code 1, BitVec.ofNat 32 detail,
      BitVec.ofNat 32 (d.time.ns16 / oneS), BitVec.ofNat 32 (d.time.ns16 % oneS / oneNs)⟩
    vlogCount := (d.evt.vlogCount + 1) % 2 ^ 32, vlogAt := d.time.now } } (b := 12) (by decide)
  rw [he] at hr
  exact ⟨c, i, es, n, _, hr, hc, rfl, rfl, rfl⟩

/-- Settles O12: by whether the violation merges. -/
theorem violationsMergeOrEnter : Obligations.ViolationsMergeOrEnter := by
  intro d iface unit code detail
  cases h : d.vlogMerges iface unit code detail with
  | true =>
    obtain ⟨c, i, he, hc⟩ := Device.violation_merged h
    simp only [he, hc, Tbl.getD_upd_same, Evt.vlogNewest, Tbl.getD_put_same, true_and, Bool.true_eq_false, false_implies,
      and_true, forall_const, BitVec.toNat_ofNat]
    have := (d.evt.vlog.getD ((d.evt.vlogCount - 1) % 256) VlogEntry.empty).w0.isLt
    omega
  | false =>
    obtain ⟨c, i, es, n, w, he, hc, h0, h1, h2⟩ := Device.violation_entered h
    simp [he, hc, h0, h1, h2]

/-! ## Registers -/

/-- A private write of one word to a register of a window that is open, other than BOOT_RESET, writes it and leaves the read
pointer one word past (R144). -/
theorem execRegisterWrite_one {s : State} {a : Word} {v : Word} {w : Window} {x : Nat} (h : s.dev.takesPrivate = true)
    (hm : 8 ≤ s.dev.i3c.mwl) (ha : a.toNat % 4 = 0) (hw : windowOf a.toNat ≠ some .fwwin)
    (hp : s.dev.placeOf a.toNat = .reg w x) (hr : a.toNat ≠ 0x28) (hn : a.toNat + 4 < 2 ^ 32) :
    exec (.registerWrite a [v]) s = .next (s.withAll ((regWrite w a.toNat v s.dev s.mem).1.wrote (a.toNat + 4))
      (regWrite w a.toNat v s.dev s.mem).2) := by
  obtain ⟨k, hk⟩ : ∃ k, (s.dev.i3c.mwl - 4) / 4 = k + 1 := Nat.exists_eq_add_of_le' (by omega)
  have hroom : ¬ s.dev.i3c.mwl - 4 < 4 := by omega
  have hnext : (a.toNat + 4) % 4294967296 = a.toNat + 4 := by omega
  change execRegisterWrite a [v] s = _
  simp [execRegisterWrite, onBoth_next, h, privateWrite, ha, hk, writeWords, hw, hp, hr, Device.wrote, hroom, hnext]

/-- A read of words outside every window that has been logged once makes nothing more (R148). -/
theorem readWords_outside {n a : Nat} {got : List Word} {d : Device} {shut : Bool} (ha : a + 4 * n < 2 ^ 32)
    (h : ∀ k, k < n → windowOf (a + 4 * k) = none) :
    readWords n a got true shut d = { d with i3c := { d.i3c with
      readPtr := BitVec.ofNat 32 (a + 4 * n), readOut := got.reverse ++ List.replicate n 0 } } := by
  induction n generalizing a got with
  | zero => simp [readWords]
  | succ n ih =>
    have h0 : d.placeOf a = .outside := by simp [Device.placeOf, show windowOf a = none from h 0 (by omega)]
    rw [readWords]
    simp only [h0, Device.strayOnce, if_true, Nat.mod_eq_of_lt (show a + 4 < 2 ^ 32 by omega)]
    have hrest (k : Nat) (hk : k < n) : windowOf (a + 4 + 4 * k) = none := by
      rw [show a + 4 + 4 * k = a + 4 * (k + 1) by omega]
      exact h _ (by omega)
    rw [ih (by omega) hrest, show a + 4 + 4 * n = a + 4 * (n + 1) by omega]
    simp [List.replicate_succ]

/-- Settles O11: the first word makes the violation, the others none. -/
theorem readOutsideEveryWindowLogsOnce : Obligations.ReadOutsideEveryWindowLogsOnce := by
  intro s n ht hn hr hw hp
  obtain ⟨n, rfl⟩ : ∃ k, n = k + 1 := Nat.exists_eq_add_of_le' hn
  have hat (k : Nat) (hk : k < n + 1) : windowOf (s.dev.i3c.readPtr.toNat + 4 * k) = none := by
    have := hw k hk
    rwa [Nat.mod_eq_of_lt (by omega)] at this
  have h0 : s.dev.placeOf s.dev.i3c.readPtr.toNat = .outside := by
    simp [Device.placeOf, show windowOf s.dev.i3c.readPtr.toNat = none from hat 0 (by omega)]
  change execReadOutsideWindow (n + 1) s = _
  have hmin : min (n + 1) (s.dev.i3c.mrl / 4) = n + 1 := by omega
  simp only [execReadOutsideWindow, onDev_next, ht, if_true, Device.privateRead, Nat.succ_ne_zero, if_false, hmin]
  rw [readWords]
  simp only [h0, Device.strayOnce, Bool.false_eq_true, if_false,
    Nat.mod_eq_of_lt (show s.dev.i3c.readPtr.toNat + 4 < 2 ^ 32 by omega)]
  have hrest (k : Nat) (hk : k < n) : windowOf (s.dev.i3c.readPtr.toNat + 4 + 4 * k) = none := by
    rw [show s.dev.i3c.readPtr.toNat + 4 + 4 * k = s.dev.i3c.readPtr.toNat + 4 * (k + 1) by omega]
    exact hat _ (by omega)
  rw [readWords_outside (by omega) hrest,
    show s.dev.i3c.readPtr.toNat + 4 + 4 * n = s.dev.i3c.readPtr.toNat + 4 * (n + 1) by omega]
  simp [List.replicate_succ]

/-! ## Plain accesses -/

theorem Device.placeOf_ibiEn (d : Device) : d.placeOf 0x2004 = .reg .evt d.evt.ibiEn.toNat := rfl

theorem Device.placeOf_vlogCount (d : Device) : d.placeOf 0x2020 = .reg .evt d.evt.vlogCount := rfl

theorem Device.placeOf_vcnt (d : Device) (i : Fin 16) :
    d.placeOf (0x2040 + 4 * i.val) = .reg .evt (d.evt.vcnt.getD i.val 0) := by
  have hi := i.isLt
  have hw : windowOf (0x2040 + 4 * i.val) = some .evt := by
    unfold windowOf
    rw [if_neg (by omega), if_neg (by omega), if_pos (by omega)]
  have hv : d.evtReg (0x2040 + 4 * i.val) = some (d.evt.vcnt.getD i.val 0) := by
    unfold Device.evtReg
    dsimp only
    rw [if_neg (by omega), if_neg (by omega), if_neg (by omega), if_neg (by omega), if_neg (by omega), if_neg (by omega),
      if_neg (by omega), if_neg (by simp only [Bool.and_eq_true, decide_eq_true_eq]; omega),
      if_pos (by simp only [Bool.and_eq_true, decide_eq_true_eq]; omega), show (0x2040 + 4 * i.val - 0x2040) / 4 = i.val by omega]
  simp [Device.placeOf, hw, Device.windowOpen, Device.regValue, hv]

/-- A word written to EVT_IBI_EN is held (R175). -/
theorem execRegisterWrite_ibiEn {s : State} (h : s.dev.takesPrivate = true) (hm : 8 ≤ s.dev.i3c.mwl) (v : Word) :
    exec (.registerWrite 0x2004 [v]) s = .next (s.withDev { s.dev with
      evt := { s.dev.evt with ibiEn := v.setWidth 13 }, i3c := { s.dev.i3c with readPtr := 0x2008 } }) := by
  rw [execRegisterWrite_one h hm (by decide) (by decide) (Device.placeOf_ibiEn _) (by decide) (by decide)]
  simp [regWrite, Device.ibiEnWrite, Device.wrote, State.withAll, State.withDev]

/-- A word written to a register that is read only is logged (R18). -/
theorem execRegisterWrite_vlogCount {s : State} (h : s.dev.takesPrivate = true) (hm : 8 ≤ s.dev.i3c.mwl) (v : Word) :
    exec (.registerWrite 0x2020 [v]) s = .next (s.withDev ((s.dev.violation 0 0 0x01 0x2020).wrote 0x2024)) := by
  rw [execRegisterWrite_one h hm (by decide) (by decide) (Device.placeOf_vlogCount _) (by decide) (by decide)]
  simp [regWrite, Device.roWrite, State.withAll, State.withDev]

/-- A read of a violation counter returns it and clears it (R178). -/
theorem execRcRegisterRead_vcnt {s : State} (h : s.dev.takesPrivate = true) {i : Fin 16} (hm : 4 ≤ s.dev.i3c.mrl)
    (hp : s.dev.i3c.readPtr = BitVec.ofNat 32 (0x2040 + 4 * i.val)) :
    exec (.rcRegisterRead 1) s = .next (s.withDev { s.dev with
      evt := { s.dev.evt with vcnt := s.dev.evt.vcnt.put i.val 0 }
      i3c := { s.dev.i3c with
        readPtr := BitVec.ofNat 32 (0x2044 + 4 * i.val), readOut := [BitVec.ofNat 32 (s.dev.evt.vcnt.getD i.val 0)] } }) := by
  have hi := i.isLt
  have ha : s.dev.i3c.readPtr.toNat = 0x2040 + 4 * i.val := by
    rw [hp, BitVec.toNat_ofNat]
    omega
  have hn : min 1 (s.dev.i3c.mrl / 4) = 1 := by omega
  have hc : s.dev.regClear .evt (0x2040 + 4 * i.val) = { s.dev with
      evt := { s.dev.evt with vcnt := s.dev.evt.vcnt.put i.val 0 } } := by
    unfold Device.regClear
    dsimp only
    rw [if_pos (by simp only [Bool.and_eq_true, decide_eq_true_eq]; omega), show (0x2040 + 4 * i.val - 0x2040) / 4 = i.val by omega]
  have hnext : (0x2040 + 4 * i.val + 4) % 2 ^ 32 = 0x2044 + 4 * i.val := by omega
  change execRcRegisterRead 1 s = _
  simp only [execRcRegisterRead, onDev_next, h, if_true, Device.privateRead, Nat.one_ne_zero, if_false, hn, ha]
  simp only [readWords, Device.placeOf_vcnt, hc, hnext, List.reverse_cons, List.reverse_nil, List.nil_append]

/-- A ring read count that leaves nothing newly read is taken (R169). -/
theorem execEvtRingRdWrite_same {s : State} (h : s.dev.takesPrivate = true) {v : Word} (hw : s.dev.evt.ringWr < 512)
    (he : s.dev.evt.ringRd = s.dev.evt.ringWr) (hv : v.toNat = s.dev.evt.ringRd) :
    exec (.evtRingRdWrite v) s = .next (s.withDev (s.dev.wrote 0x2018)) := by
  have hrd : v.toNat % 512 = s.dev.evt.ringRd := by omega
  have hempty : (s.dev.evt.ringWr + 512 - s.dev.evt.ringRd) % 512 = 0 := by omega
  change execEvtRingRdWrite v s = _
  simp only [execEvtRingRdWrite, onDev_next, h, if_true, Device.ringRdWrite, hrd, hempty]
  rfl

/-- A ring read count past the entries written is logged (R169, R181). -/
theorem execEvtRingRdWrite_beyond {s : State} (h : s.dev.takesPrivate = true) {v : Word} (hw : s.dev.evt.ringWr < 512)
    (he : s.dev.evt.ringRd = s.dev.evt.ringWr) (hv : v.toNat % 512 ≠ s.dev.evt.ringRd) :
    exec (.evtRingRdWrite v) s = .next (s.withDev ((s.dev.violation 1 0xF 0x11 v.toNat).wrote 0x2018)) := by
  have hempty : (s.dev.evt.ringWr + 512 - s.dev.evt.ringRd) % 512 = 0 := by omega
  have hmore : 0 < (s.dev.evt.ringWr + 512 - v.toNat % 512) % 512 := by omega
  change execEvtRingRdWrite v s = _
  simp only [execEvtRingRdWrite, onDev_next, h, if_true, Device.ringRdWrite, hempty, hmore, decide_true, Bool.or_true]

/-- LATCH latches the time (R226). -/
theorem execLatch_taken {s : State} (h : s.dev.takesPrivate = true) (ho : s.dev.windowsOpen = true) :
    exec .latch s = .next (s.withDev { s.dev with
      time := { s.dev.time with snap := s.dev.stamp, snapValid := true, onPps := false }
      i3c := { s.dev.i3c with readPtr := 0x3004 } }) := by
  change execLatch s = _
  simp [execLatch, onDev_next, h, Device.snapCtl, ho, Device.latch, Device.wrote]

/-- Settles O10: one lemma per register. -/
theorem registersTakeTheirWrites : Obligations.RegistersTakeTheirWrites := by
  intro s ht
  refine ⟨fun v hm => execRegisterWrite_ibiEn ht hm v, fun v hm => execRegisterWrite_vlogCount ht hm v, fun i hm hp => ?_,
    fun v hw he hv => execEvtRingRdWrite_same ht hw he hv, fun v he hw hv => execEvtRingRdWrite_beyond ht hw he hv,
    fun v => ?_, fun v => ?_, fun ho => execLatch_taken ht ho, fun ho => ?_⟩
  · exact ⟨_, execRcRegisterRead_vcnt ht hm hp, rfl, Tbl.getD_put_same _ _ _ _, fun j hj => Tbl.getD_put_other _ _ _ _ _ hj⟩
  · change execEvtVlogIdxWrite v s = _
    simp only [execEvtVlogIdxWrite, onDev_next, ht, if_true]
    rfl
  · change execEvtFlogIdxWrite v s = _
    simp only [execEvtFlogIdxWrite, onDev_next, ht, if_true]
    rfl
  · change execOnPps s = _
    simp only [execOnPps, onDev_next, ht, if_true, Device.snapCtl, ho]
    rfl

end Sys2Proof.Machine
end

section
/-! SUPPORT. The boot steps and their events (O13, O14). -/

namespace Sys2Proof.Machine

/-! ## Steps -/

/-- The device with a step accepted. -/
def Device.begun (d : Device) (code : Nat) : Device := { d with boot := d.boot.accept code d.time.now }

/-- A step whose work touches neither what its acceptance set nor the parts that `stepBegun` names. -/
theorem stepBegun_of_eq {s t : State} {code : Nat} {d : Device} (hd : t.dev = d.wrote 4) (hp : t.pending = s.pending)
    (hb : d.boot.step = code ∧ d.boot.state = .busy ∧ d.boot.fail = 0 ∧ d.boot.failExt = 0 ∧ d.boot.startedAt = s.dev.time.now)
    (hr : d.i3c = s.dev.i3c ∧ d.mbx = s.dev.mbx ∧ d.time = s.dev.time ∧ d.fuse = s.dev.fuse) : stepBegun s t code := by
  obtain ⟨h1, h2, h3, h4, h5⟩ := hb
  obtain ⟨k1, k2, k3, k4⟩ := hr
  unfold stepBegun
  rw [hd]
  simp [h1, h2, h3, h4, h5, k1, k2, k3, k4, hp, Device.wrote]

/-- The work of a step, on the device that has accepted it. -/
def bootWork (code : Nat) (i : BootInput) (d : Device) (m : Store) : Device × Store :=
  match code with
  | 1 => (bootIdent d, m)
  | 2 => (bootFuseLoad d, m)
  | 3 => (sweepFinds i.finds d, m)
  | 4 => (bootClocks i.clocks d, m)
  | 5 => (bootTrain d, m)
  | 6 => bootFwLoad d m
  | 7 => (bootFwVerify d m, m)
  | 8 => (bootFwStart i.reported d, m)
  | 9 => (bootKat i.engines i.units d, m)
  | _ => (bootReady d, m)

/-- A permitted step is accepted and does its work (R92 to R94). -/
theorem bootCmd_permitted {code : Nat} {s : State} (h : s.dev.takesPrivate = true) (hs : s.dev.pkg.shutdown = false)
    (hp : s.dev.boot.permits code = true) (i : BootInput) :
    bootCmd code i s = .next (s.withAll ((bootWork code i (s.dev.begun code) s.mem).1.wrote 4)
      (bootWork code i (s.dev.begun code) s.mem).2) := by
  have hb : bootStep code i s.dev s.mem = bootWork code i (s.dev.begun code) s.mem := by
    unfold bootStep bootWork
    simp only [hs, hp, Bool.not_true, Bool.or_self, Bool.false_eq_true, if_false]
    rfl
  simp only [bootCmd, onBoth_next, h, if_true, hb]

/-- The fuse load of dies without records repairs nothing. -/
theorem bootFuseLoad_empty {d : Device} (h : ∀ k, k < 8 → d.fuse.records k = []) :
    bootFuseLoad d = { d with boot := { d.boot with fuseCorrected := 0, result := some .done } } := by
  have hfind : firstBelow 8 (fuseUnreadable d.fuse) = none := by
    rw [firstBelow, List.find?_eq_none]
    intro k hk
    simp [fuseUnreadable, h k (List.mem_range.mp hk)]
  have hrecords : (List.range 8).flatMap d.fuse.records = [] := by
    simpa [List.flatMap_eq_nil_iff] using h
  simp [bootFuseLoad, hfind, hrecords, repairAll, Device.bootResult]

/-- Training starts with every item in progress where none has been trained and no lane is bad (R112). -/
theorem bootTrain_fresh {d : Device} (ht : d.boot.train = []) (hl : ∀ n, d.view.lanes.look n = none) :
    bootTrain d = { d with boot := { d.boot with train := (List.range 48).map fun i => (i, 1) } } := by
  have hstart : trainStart d = fun _ => 1 := by
    funext i
    simp [trainStart, ht, Tbl.getD, Tbl.look_nil, hl, laneState]
  have hclose (e : Device) : trainClose { e with boot := { e.boot with train := (List.range 48).map fun i => (i, 1) } } =
      { e with boot := { e.boot with train := (List.range 48).map fun i => (i, 1) } } := by
    unfold trainClose
    rw [if_pos]
    show ((List.range 48).any fun i => Tbl.getD ((List.range 48).map fun i => (i, 1)) i 0 == 1) = true
    decide
  unfold bootTrain
  rw [hstart]
  exact hclose d

/-- A load from flash whose header is sound lays the image in the firmware area (R116, R117). -/
theorem bootFwLoad_flash {d : Device} {m : Store} {len : Nat} (hf : d.boot.fwSrc = 0) (hz : m.flashSize.isSome = true)
    (hh : headerCheck (Cells.readAll 0xFF#8 m.flash (d.boot.fwOfs * 65536) 12) = .ok len) :
    bootFwLoad d m = ({ d with boot := { d.boot with fwPtr := len, fwLen := len, result := some .done } },
      { m with lp := Cells.writeAll 0#8 m.lp d.fwBase (Cells.readAll 0xFF#8 m.flash (d.boot.fwOfs * 65536) len) }) := by
  obtain ⟨n, hn⟩ := Option.isSome_iff_exists.mp hz
  simp [bootFwLoad, hf, hn, hh, Device.bootResult, Device.fwBase, Device.lead]

/-- The verification of an image that verifies (R123). -/
theorem bootFwVerify_ok {d : Device} {m : Store}
    (h : verifyImage d.fuse (Cells.readAll 0#8 m.lp d.fwBase d.boot.fwLen) = none) :
    ∃ x, bootFwVerify d m = { d with sec := x, boot := { d.boot with result := some .done } } ∧ x.verified = true ∧
      x.secVer = imgField (Cells.readAll 0#8 m.lp d.fwBase d.boot.fwLen) 12 1 := by
  unfold bootFwVerify
  dsimp only
  rw [h]
  exact ⟨_, rfl, rfl, rfl⟩

theorem bootFwVerify_failed {d : Device} {m : Store} {e : Nat × Nat}
    (h : verifyImage d.fuse (Cells.readAll 0#8 m.lp d.fwBase d.boot.fwLen) = some e) :
    bootFwVerify d m = { d with boot := { d.boot with result := some (.failed e.1 e.2 0) } } := by
  unfold bootFwVerify
  dsimp only
  rw [h]
  rfl

/-- Known-answer tests that find nothing leave the defect view as it is (R127). -/
theorem bootKat_clean {d : Device} (h : d.boot.soft.length ≤ 256) :
    bootKat [] [] d = { d with boot := { d.boot with result := some .done } } := by
  have hn : ¬ 256 < d.boot.soft.length := by omega
  have hf : (List.range 1088).find? (fun _ => false) = none := List.find?_eq_none.mpr fun _ _ => Bool.false_ne_true
  have hmarks : (List.range 1088).filter (fun _ => false) = [] := List.filter_eq_nil_iff.mpr fun _ _ => Bool.false_ne_true
  simp [bootKat, hn, hf, hmarks, Device.bootResult]

/-- Settles O13. -/
theorem bootStepsDoTheirWork : Obligations.BootStepsDoTheirWork := by
  intro s ht hs
  dsimp only
  refine ⟨fun hp => ?_, fun hr hp => ?_, fun hp => ?_, fun hp => ?_, fun hn hl hp => ?_, fun hf hz len hh hp => ?_,
    fun hp => ?_, fun up hu hp => ?_, fun hl hp => ?_, fun hp => ?_⟩
  · refine ⟨_, bootCmd_permitted ht hs hp .clean, ?_⟩
    exact ⟨stepBegun_of_eq rfl rfl ⟨rfl, rfl, rfl, rfl, rfl⟩ ⟨rfl, rfl, rfl, rfl⟩, rfl, rfl⟩
  · refine ⟨_, bootCmd_permitted ht hs hp .clean, ?_⟩
    dsimp only [bootWork]
    rw [bootFuseLoad_empty (d := s.dev.begun 2) hr]
    exact ⟨stepBegun_of_eq rfl rfl ⟨rfl, rfl, rfl, rfl, rfl⟩ ⟨rfl, rfl, rfl, rfl⟩, rfl, rfl, rfl⟩
  · refine ⟨_, bootCmd_permitted ht hs hp { BootInput.clean with finds := [] }, ?_⟩
    exact ⟨stepBegun_of_eq rfl rfl ⟨rfl, rfl, rfl, rfl, rfl⟩ ⟨rfl, rfl, rfl, rfl⟩, rfl, rfl, rfl, rfl⟩
  · refine ⟨_, bootCmd_permitted ht hs hp { BootInput.clean with clocks := .ok }, ?_⟩
    refine ⟨stepBegun_of_eq rfl rfl ⟨rfl, rfl, rfl, rfl, rfl⟩ ⟨rfl, rfl, rfl, rfl⟩, rfl, ?_, rfl, rfl⟩
    show ∀ k, k < 8 → (domainsUpTo 8 0).look k = some 0xFFF
    decide
  · refine ⟨_, bootCmd_permitted ht hs hp .clean, ?_⟩
    dsimp only [bootWork]
    rw [bootTrain_fresh (d := s.dev.begun 5) hn hl]
    refine ⟨stepBegun_of_eq rfl rfl ⟨rfl, rfl, rfl, rfl, rfl⟩ ⟨rfl, rfl, rfl, rfl⟩, rfl, ?_, rfl⟩
    show ∀ i, i < 48 → Tbl.getD ((List.range 48).map fun i => (i, 1)) i 0 = 1
    decide
  · refine ⟨_, bootCmd_permitted ht hs hp .clean, ?_⟩
    dsimp only [bootWork]
    rw [bootFwLoad_flash (d := s.dev.begun 6) hf hz hh]
    exact ⟨stepBegun_of_eq rfl rfl ⟨rfl, rfl, rfl, rfl, rfl⟩ ⟨rfl, rfl, rfl, rfl⟩, rfl, rfl, rfl, rfl, rfl, rfl⟩
  · refine ⟨_, bootCmd_permitted ht hs hp .clean, ?_⟩
    dsimp only [bootWork]
    cases hv : verifyImage s.dev.fuse (Cells.readAll 0#8 s.mem.lp s.dev.fwBase s.dev.boot.fwLen) with
    | none =>
      obtain ⟨x, hx, hver, hsec⟩ := bootFwVerify_ok (d := s.dev.begun 7) (m := s.mem) hv
      rw [hx]
      exact ⟨stepBegun_of_eq rfl rfl ⟨rfl, rfl, rfl, rfl, rfl⟩ ⟨rfl, rfl, rfl, rfl⟩, rfl, hver, rfl, hsec⟩
    | some e =>
      rw [bootFwVerify_failed (d := s.dev.begun 7) (m := s.mem) hv]
      exact ⟨stepBegun_of_eq rfl rfl ⟨rfl, rfl, rfl, rfl, rfl⟩ ⟨rfl, rfl, rfl, rfl⟩, rfl, rfl, rfl⟩
  · refine ⟨_, bootCmd_permitted ht hs hp { BootInput.clean with reported := up }, ?_⟩
    have hm : (s.dev.begun 8).pwr.dieOn &&& ~~~(up ||| BitVec.twoPow 8 (s.dev.begun 8).lead) = 0 := hu
    dsimp only [bootWork, bootFwStart]
    rw [hm]
    exact ⟨stepBegun_of_eq rfl rfl ⟨rfl, rfl, rfl, rfl, rfl⟩ ⟨rfl, rfl, rfl, rfl⟩, rfl, rfl⟩
  · refine ⟨_, bootCmd_permitted ht hs hp { BootInput.clean with engines := [], units := [] }, ?_⟩
    dsimp only [bootWork]
    rw [bootKat_clean (d := s.dev.begun 9) hl]
    exact ⟨stepBegun_of_eq rfl rfl ⟨rfl, rfl, rfl, rfl, rfl⟩ ⟨rfl, rfl, rfl, rfl⟩, rfl, rfl, rfl⟩
  · refine ⟨_, bootCmd_permitted ht hs hp .clean, ?_⟩
    exact ⟨stepBegun_of_eq rfl rfl ⟨rfl, rfl, rfl, rfl, rfl⟩ ⟨rfl, rfl, rfl, rfl⟩, rfl, rfl, rfl⟩

/-! ## Events of a step in progress -/

/-- A failed step is FAILED with its code, and at most an IBI more (R89, R94). -/
theorem Device.bootFail_eq (d : Device) (code detail : Nat) (ext : Word) :
    ∃ i, d.bootFail code detail ext = { d with
      boot := { d.boot with
        state := .failed, result := none, failExt := ext
        fail := BitVec.ofNat 32 (code * 2 ^ 24 + d.boot.step * 65536 + detail % 65536) }
      evt := { d.evt with ibi := i } } := by
  unfold Device.bootFail
  dsimp only
  split
  · unfold Device.raiseIbi
    split
    · exact ⟨_, rfl⟩
    · exact ⟨d.evt.ibi, rfl⟩
  · exact ⟨d.evt.ibi, rfl⟩

/-- A step other than READY is published as DONE (R92, R94). -/
theorem bootStepEnd_done {s : State} (hb : s.dev.boot.state = .busy) (hn : s.dev.boot.step ≠ 10)
    (hr : s.dev.boot.result = some .done) : ∃ t, exec .bootStepEnd s = .next t ∧ t.mem = s.mem ∧
      t.dev.boot = { s.dev.boot with
        state := .done, lastDone := s.dev.boot.step, result := none
        fwStarted := s.dev.boot.fwStarted || s.dev.boot.step == 8 } ∧
      t.dev.evt.ibi = (if s.dev.boot.ibiEn && s.dev.i3c.dyn.isSome && s.dev.i3c.ibiOn
        then insertNat s.dev.boot.step s.dev.evt.ibi else s.dev.evt.ibi) := by
  have he : exec .bootStepEnd s = .next (s.withAll (stepDone s.dev s.mem).1 (stepDone s.dev s.mem).2) := by
    change execBootStepEnd s = _
    simp only [execBootStepEnd, onBoth_next, hb, hr]
  refine ⟨_, he, ?_⟩
  unfold stepDone
  simp only [hn, if_false]
  refine ⟨rfl, ?_, ?_⟩
  · simp only [State.withAll]
    split <;> simp
  · simp only [State.withAll, Bool.and_eq_true]
    split
    next h => cases hi : s.dev.i3c.ibiOn <;> simp [Device.raiseIbi, h, hi]
    next h => simp [h]

theorem bootStepEnd_failed {s : State} {code detail : Nat} {ext : Word} (hb : s.dev.boot.state = .busy)
    (hr : s.dev.boot.result = some (.failed code detail ext)) :
    exec .bootStepEnd s = .next (s.withDev (s.dev.bootFail code detail ext)) := by
  change execBootStepEnd s = _
  simp only [execBootStepEnd, onBoth_next, hb, hr]
  rfl

/-- The next word of an image in WAIT_DATA is laid in the firmware area (R119, R120). -/
theorem fwWindow_next {d : Device} {m : Store} {w : Word} (hs : d.boot.state = .waitData)
    (he : d.boot.fwPtr + 4 < d.boot.fwLen) :
    fwWindow d.boot.fwPtr [w] d m =
      ({ d with boot := { d.boot with fwPtr := d.boot.fwPtr + 4, lastAccept := d.time.now } },
        { m with lp := Cells.writeAll 0#8 m.lp (d.fwBase + d.boot.fwPtr) (leBytes 4 w.toNat) }) := by
  have hne : (leBytes 4 w.toNat).isEmpty = false := rfl
  have h0 : d.boot.fwLen ≠ 0 := by omega
  have h1 : ¬ d.boot.fwLen < d.boot.fwPtr + 4 := by omega
  have h2 : d.boot.fwPtr + 4 ≠ d.boot.fwLen := by omega
  simp [fwWindow, hs, hne, h0, h1, h2]

theorem bootFwwinWrite_next {s : State} {w : Word} {off : Nat} (ht : s.dev.takesPrivate = true) (hm : 8 ≤ s.dev.i3c.mwl)
    (ha : off % 4 = 0) (hl : off < 33554432) (hs : s.dev.boot.state = .waitData) (hp : s.dev.boot.fwPtr = off)
    (he : off + 4 < s.dev.boot.fwLen) :
    exec (.bootFwwinWrite off [w]) s = .next (s.withAll
      { s.dev with
        boot := { s.dev.boot with fwPtr := off + 4, lastAccept := s.dev.time.now }
        i3c := { s.dev.i3c with readPtr := BitVec.ofNat 32 (0x40000 + off + 4) } }
      { s.mem with lp := Cells.writeAll 0#8 s.mem.lp (s.dev.fwBase + off) (leBytes 4 w.toNat) }) := by
  obtain ⟨k, hk⟩ : ∃ k, (s.dev.i3c.mwl - 4) / 4 = k + 1 := Nat.exists_eq_add_of_le' (by omega)
  have hroom : ¬ s.dev.i3c.mwl - 4 < 4 := by omega
  have haddr : (BitVec.ofNat 32 (0x40000 + off)).toNat = 0x40000 + off := by
    rw [BitVec.toNat_ofNat]
    omega
  have halign : (0x40000 + off) % 4 = 0 := by omega
  have hwin : windowOf (0x40000 + off) = some .fwwin := by
    unfold windowOf
    simp only [Bool.and_eq_true, decide_eq_true_eq]
    rw [if_neg (by omega), if_neg (by omega), if_neg (by omega), if_neg (by omega), if_neg (by omega), if_neg (by omega),
      if_pos (by omega)]
  have hn : min 1 ((0x2040000 - (0x40000 + off)) / 4) = 1 := by omega
  have hfw := fwWindow_next (d := s.dev) (m := s.mem) (w := w) hs (by omega)
  rw [hp] at hfw
  have hwords : writeWords 2 (0x40000 + off) [w] false false s.dev s.mem =
      ({ s.dev with
        boot := { s.dev.boot with fwPtr := off + 4, lastAccept := s.dev.time.now }
        i3c := { s.dev.i3c with readPtr := BitVec.ofNat 32 (0x40000 + off + 4) } },
        { s.mem with lp := Cells.writeAll 0#8 s.mem.lp (s.dev.fwBase + off) (leBytes 4 w.toNat) }) := by
    rw [writeWords]
    simp only [hwin, if_true, List.length_nil, Nat.zero_add, hn, List.take_succ_cons, List.take_nil,
      List.drop_succ_cons, List.drop_nil, Nat.add_sub_cancel_left, hfw]
    rfl
  change execBootFwwinWrite off [w] s = _
  simp only [execBootFwwinWrite, onBoth_next, ht, if_true, privateWrite, haddr, halign, ne_eq, not_true, if_false, hk,
    List.take_succ_cons, List.take_nil, List.length_cons, List.length_nil, Nat.zero_add, hwords]
  rw [if_neg (by simp)]

theorem trainItemEnd_passes {s : State} {item : Fin 48} (hi : 26 ≤ item.val) (hb : s.dev.boot.state = .busy)
    (h5 : s.dev.boot.step = 5) (h1 : s.dev.boot.train.getD item.val 0 = 1)
    (hj : ∃ j, j < 48 ∧ j ≠ item.val ∧ s.dev.boot.train.getD j 0 = 1) :
      exec (.trainItemEnd item 2 0) s = .next (s.withDev { s.dev with boot := { s.dev.boot with
        train := s.dev.boot.train.put item.val 2 } }) := by
  obtain ⟨j, hj48, hne, hj1⟩ := hj
  have hok : trainStatusOk item.val 2 = true := by
    unfold trainStatusOk
    rw [if_neg (by omega), if_neg (by omega)]
    split <;> rfl
  have h16 : ¬ item.val < 16 := by omega
  have h26 : ¬ item.val < 26 := by omega
  have hopen : ((List.range 48).any fun i => (s.dev.boot.train.put item.val 2).getD i 0 == 1) = true :=
    List.any_eq_true.mpr ⟨j, List.mem_range.mpr hj48, by simp [Tbl.getD_put_other _ _ _ _ _ hne, hj1]⟩
  change execTrainItemEnd item 2 0 s = _
  simp [execTrainItemEnd, onBoth_next, trainItem, hb, h5, h1, hok, h16, h26, trainClose, hopen, State.withAll, State.withDev]

/-- A load left idle fails (R121). The clock carried forward is held as a variable, which the kernel does not evaluate. -/
theorem loadIdle_fails {s : State} (hs : s.dev.boot.state = .waitData) : ∃ t, exec .loadIdle s = .next t ∧ t.mem = s.mem ∧
    t.dev.boot.state = .failed ∧ t.dev.boot.fail = BitVec.ofNat 32 (0x33 * 2 ^ 24 + s.dev.boot.step * 65536) ∧
    s.dev.boot.lastAccept + 10 * oneS ≤ t.dev.time.now := by
  obtain ⟨e, he⟩ : ∃ e, e = s.dev.advanceTo (s.dev.boot.lastAccept + 10 * oneS) := ⟨_, rfl⟩
  have hb : e.boot = s.dev.boot := he ▸ Device.advanceTo_boot _ _
  have hn : s.dev.boot.lastAccept + 10 * oneS ≤ e.time.now := he ▸ Device.le_now_advanceTo _ _
  obtain ⟨i, hi⟩ := e.bootFail_eq 0x33 0 0
  refine ⟨s.withDev (e.bootFail 0x33 0 0), ?_, rfl, ?_⟩
  · change execLoadIdle s = _
    simp only [execLoadIdle, onDev_next, hs, if_true, ← he]
  · rw [State.withDev, hi]
    exact ⟨rfl, by simp [hb], hn⟩

/-- A step at its limit fails (R92, R94). -/
theorem stepTimeout_fails {s : State} (hs : s.dev.boot.state = .busy) (h8 : s.dev.boot.step ≠ 8)
    (h6 : ¬ (s.dev.boot.step = 6 ∧ s.dev.boot.fwSrc = 1)) : ∃ t, exec .stepTimeout s = .next t ∧ t.mem = s.mem ∧
    t.dev.boot.state = .failed ∧ t.dev.boot.fail = BitVec.ofNat 32 (0xF0 * 2 ^ 24 + s.dev.boot.step * 65536) ∧
    s.dev.boot.startedAt + stepLimit s.dev.boot.step * oneMs ≤ t.dev.time.now := by
  obtain ⟨e, he⟩ : ∃ e, e = s.dev.advanceTo (s.dev.boot.startedAt + stepLimit s.dev.boot.step * oneMs) := ⟨_, rfl⟩
  have hb : e.boot = s.dev.boot := he ▸ Device.advanceTo_boot _ _
  have hn : s.dev.boot.startedAt + stepLimit s.dev.boot.step * oneMs ≤ e.time.now := he ▸ Device.le_now_advanceTo _ _
  have he8 : e.boot.step ≠ 8 := hb ▸ h8
  have hrun : (decide (s.dev.boot.state = .busy) && !(decide (s.dev.boot.step = 6) && decide (s.dev.boot.fwSrc = 1))) = true := by
    simpa [hs, Decidable.imp_iff_not_or] using h6
  obtain ⟨i, hi⟩ := e.bootFail_eq 0xF0 0 0
  refine ⟨s.withDev (e.bootFail 0xF0 0 0), ?_, rfl, ?_⟩
  · change execStepTimeout s = _
    simp only [execStepTimeout, onDev_next, hrun, if_true, ← he, he8, decide_false, Bool.false_and, Bool.false_eq_true, if_false]
  · rw [State.withDev, hi]
    exact ⟨rfl, by simp [hb], hn⟩

/-- Settles O14: one lemma per event. -/
theorem bootEventsPublish : Obligations.BootEventsPublish := by
  intro s
  refine ⟨fun hb hn hr => bootStepEnd_done hb hn hr, fun code detail ext hb hr => ?_, fun item hi hb h5 h1 hj =>
    trainItemEnd_passes hi hb h5 h1 hj, fun w off ht hm ha hl hs hp he => bootFwwinWrite_next ht hm ha hl hs hp he,
    loadIdle_fails, stepTimeout_fails⟩
  obtain ⟨i, hi⟩ := s.dev.bootFail_eq code detail ext
  exact ⟨_, bootStepEnd_failed hb hr, rfl, by rw [State.withDev, hi]⟩

end Sys2Proof.Machine
end

section
/-! SUPPORT. What a report, a setting and a long command come to, and the mailbox service (O16, O17, O20). -/

namespace Sys2Proof.Machine

/-! ## Reports, settings, long commands -/

/-- A command whose body is a report reports. -/
theorem reports_of_query {c : Instr} {op : Nat} {ch : Fin 8} {s : State} {r : Request} {f : Request → Device → Reply}
    {p : List Byte} {P : List Byte → Prop} (hexec : exec c s = query op ch f s) (hr : s.holds ch op r)
    (hf : f r s.dev = okWith p) (hP : P p) : Reports c s ch r P :=
  ⟨p, by rw [hexec, query_next op ch f s r hr, hf], hP⟩

/-- A command whose body leaves the device as it is reports. -/
theorem reports_of_command {c : Instr} {op : Nat} {ch : Fin 8} {s : State} {r : Request}
    {f : Request → Device → Device × Reply} {p : List Byte} {P : List Byte → Prop}
    (hexec : exec c s = command op ch f s) (hr : s.holds ch op r) (hf : f r s.dev = (s.dev, okWith p)) (hP : P p) :
    Reports c s ch r P :=
  ⟨p, by rw [hexec, command_next op ch f s r hr, hf], hP⟩

/-- A report that reads the memories reports. -/
theorem reports_of_commandRead {c : Instr} {op : Nat} {ch : Fin 8} {s : State} {r : Request}
    {f : Request → Device → Store → Device × Reply} {p : List Byte} {P : List Byte → Prop}
    (hexec : exec c s = commandRead op ch f s) (hr : s.holds ch op r) (hf : f r s.dev s.mem = (s.dev, okWith p))
    (hP : P p) : Reports c s ch r P :=
  ⟨p, by rw [hexec, commandRead_next op ch f s r hr, hf], hP⟩

/-- A setting whose body answers OK sets. -/
theorem sets_of_configure {c : Instr} {ch : Fin 8} {s : State} {r : Request} {t : Setting} {d : Device}
    {P : State → Prop} (hexec : exec c s = configure t ch s) (hr : s.mayConfigure ch t r)
    (hb : t.body r s.dev s.mem = ((d, s.mem), okWith [])) (hP : P (s.answered ch r d (okWith []))) : Sets c s ch P := by
  refine ⟨s.answered ch r d (okWith []), ?_, Device.answer_formed _ _ _ _, rfl, rfl, hP⟩
  rw [hexec, configure_next t ch s r hr, hb]
  rfl

/-- A command whose body answers OK sets. -/
theorem sets_of_command {c : Instr} {op : Nat} {ch : Fin 8} {s : State} {r : Request}
    {f : Request → Device → Device × Reply} {d : Device} {P : State → Prop} (hexec : exec c s = command op ch f s)
    (hr : s.holds ch op r) (hb : f r s.dev = (d, okWith [])) (hP : P (s.answered ch r d (okWith []))) :
    Sets c s ch P := by
  refine ⟨s.answered ch r d (okWith []), ?_, Device.answer_formed _ _ _ _, rfl, rfl, hP⟩
  rw [hexec, command_next op ch f s r hr, hb]

/-- A long command that gets as far as `accept` is accepted, and its work `k` has the next handle. -/
theorem accepts_of_command {c : Instr} {op : Nat} {ch : Fin 8} {s : State} {r : Request}
    {f : Request → Device → Device × Reply} {k : Nat → Device → Device} {P : Nat → State → Prop}
    (hexec : exec c s = command op ch f s) (hr : s.holds ch op r) (hroom : s.dev.mbx.handles.length < 256)
    (hb : f r s.dev = accept r ch.val s.dev k)
    (hP : ∀ h, h = s.dev.mbx.nextHandle →
      P h (s.answered ch r (k h { s.dev with mbx := s.dev.mbx.taking ch.val op }) (acceptedWith h))) :
    Accepts c s ch P := by
  obtain rfl := State.op_of_holds hr
  refine ⟨_, _, hexec.trans (command_next _ ch f s r hr), ?_, rfl, ?_⟩
  · rw [hb, accept_room hroom]
    exact Device.answer_formed _ _ _ _
  · rw [hb, accept_room hroom]
    exact hP _ rfl

/-- Answering moves nothing of the mailbox service but the channel. -/
@[simp] theorem Device.answer_mbx (d : Device) (ch : Nat) (r : Request) (a : Reply) :
    (d.answer ch r a).mbx = { d.mbx with chans := d.mbx.chans.put ch { d.chan ch with formed := some a } } := by
  simp only [Device.answer, Device.setChan, Device.chan]
  split <;> split <;> simp

/-- Bytes spell less than 256 to their number. -/
theorem leNat_lt (b : List Byte) : leNat b < 256 ^ b.length := by
  induction b with
  | nil => simp [leNat]
  | cons x xs ih => simp [leNat, Nat.pow_succ]; omega

/-- A field of a request is within its width. -/
theorem Request.u_lt (r : Request) (off n : Nat) : r.u off n < 256 ^ n :=
  Nat.lt_of_lt_of_le (leNat_lt _) (Nat.pow_le_pow_right (by decide) (by simp [Nat.min_le_left]))

/-- A field behind the first part of a payload. -/
theorem fieldAt_skip {a b : List Byte} {off n : Nat} (h : a.length ≤ off) :
    fieldAt (a ++ b) off n = fieldAt b (off - a.length) n := by
  rw [fieldAt, fieldAt, List.drop_append, List.drop_eq_nil_of_le h, List.nil_append]

/-- The field at the front of a payload. -/
theorem fieldAt_head (n v : Nat) (b : List Byte) : fieldAt (leBytes n v ++ b) 0 n = v % 256 ^ n := by
  rw [fieldAt, List.drop_zero, List.take_left' (length_leBytes n v), leNat_leBytes]

/-- The field that is the whole payload. -/
theorem fieldAt_whole (n v : Nat) : fieldAt (leBytes n v) 0 n = v % 256 ^ n := by
  rw [← List.append_nil (leBytes n v), fieldAt_head]

/-! ## Doorbells -/

theorem mbxDoorbell_next {ch : Fin 8} {v : Word} {s : State} (h : s.dev.takesPrivate = true) :
    exec (.mbxDoorbell ch v) s = .next (s.withDev ((s.dev.doorbell ch.val v).wrote (mbxAddr ch.val 0xFC4))) := by
  change execMbxDoorbell ch v s = _
  simp only [execMbxDoorbell, onDev_next, h, if_true]

/-- Outside BUSY, with the service running, a doorbell takes the request page. -/
theorem Device.doorbell_takes {d : Device} {ch : Nat} (hw : d.windowsOpen = true) (hb : (d.chan ch).state ≠ .busy)
    (hf : d.evt.faultCp.getLsbD d.lead = false) :
    d.doorbell ch 1 = (d.setChan ch { d.chan ch with
      state := .busy, seq := (d.chan ch).request.seq, resp := [], taken := some (d.chan ch).request, formed := none }).checkRequest
        ch (d.chan ch).request := by
  simp [Device.doorbell, hw, hb, hf]

/-- The channel that was written is read back. -/
@[simp] theorem Device.chan_setChan (d : Device) (ch : Nat) (c : Channel) : (d.setChan ch c).chan ch = c := by
  simp [Device.setChan, Device.chan]

@[simp] theorem Device.wrote_chan (d : Device) (next ch : Nat) : (d.wrote next).chan ch = d.chan ch := rfl

@[simp] theorem Device.violation_chan (d : Device) (i u c x ch : Nat) : (d.violation i u c x).chan ch = d.chan ch := by
  simp [Device.chan]

/-- Settles O16: each clause is a branch of the doorbell. -/
theorem doorbellTakesTheRequest : Obligations.DoorbellTakesTheRequest := by
  intro s ch hp hw
  dsimp only
  refine ⟨fun hb hf hl hc hs hk => ?_, fun hb hf hl hc => ?_, fun hb => ?_, fun v hv => ?_⟩
  · have hfind : (s.dev.chan ch.val).store.find? (fun e => e.seq == (s.dev.chan ch.val).request.seq) = none :=
      List.find?_eq_none.mpr fun e he => by simpa using hs e he
    rw [mbxDoorbell_next hp, Device.doorbell_takes hw hb hf, Device.checkRequest, if_neg (Nat.not_lt.mpr hl), hc]
    simp only [Device.chan_setChan, hfind]
    rw [show staticCheck (s.dev.setChan ch.val _) _ = staticCheck s.dev _ from rfl, hk]
    simp
  · refine ⟨_, mbxDoorbell_next hp, ?_⟩
    rw [Device.doorbell_takes hw hb hf, Device.checkRequest, if_neg (Nat.not_lt.mpr hl), hc]
    simp [Device.reject, Device.wrote_chan, State.withDev, stBadCrc]
  · rw [mbxDoorbell_next hp]
    simp [Device.doorbell, hw, hb]
  · have hv1 : v ≠ 1#32 := hv
    rw [mbxDoorbell_next hp]
    simp [Device.doorbell, hw, hv1]

/-! ## FLUSH and the response -/

/-- A formed answer is published (R152, R156). -/
theorem mbxResponseFormed_publishes {s : State} {ch : Fin 8} {r : Request} {a : Reply}
    (hb : (s.dev.chan ch.val).state = .busy) (ht : (s.dev.chan ch.val).taken = some r)
    (hf : (s.dev.chan ch.val).formed = some a) : ∃ t, exec (.mbxResponseFormed ch) s = .next t ∧
      t.mem = s.mem ∧
      t.dev.chan ch.val = { s.dev.chan ch.val with
        state := .resp, resp := respPage r a, taken := none, formed := none
        store := if a.enter then enterStore (s.dev.chan ch.val).store (storeEntry s.dev r a)
          else (s.dev.chan ch.val).store } ∧
      t.dev.evt = (if r.flags % 2 = 1 ∧ s.dev.i3c.ibiOn = true
        then { s.dev.evt with ibi := insertNat (0x20 + ch.val) s.dev.evt.ibi } else s.dev.evt) := by
  refine ⟨s.withDev (s.dev.publish ch.val), rfl, rfl, ?_⟩
  simp only [Device.publish, hb, ht, hf, State.withDev]
  by_cases hflag : r.flags % 2 = 1
  · cases hi : s.dev.i3c.ibiOn <;> simp [hflag, Device.raiseIbi, hi, Device.chan, Device.setChan]
  · simp [hflag]

/-- Settles O17. -/
theorem channelsPublishAndFlush : Obligations.ChannelsPublishAndFlush := by
  intro s ch
  refine ⟨fun hp hw hb => ?_, fun r a hb ht hf => mbxResponseFormed_publishes hb ht hf⟩
  change execFlush ch s = _
  simp only [execFlush, onDev_next, hp, if_true, Device.flush, hw, Bool.not_true, Bool.false_eq_true, if_false, hb]

/-! ## The mailbox's own commands -/

theorem handleCancel_forms {s : State} {ch : Fin 8} {r : Request} {h : Handle} (hr : s.holds ch 0x0103 r)
    (hh : s.dev.handle (r.u 0 4) = some h) (hf : h.final = none) :
    ∃ t, exec (.handleCancel ch) s = .next t ∧ (t.dev.chan ch.val).formed = some (okWith []) := by
  refine ⟨_, (commandMem_next 0x0103 ch _ s r hr : execHandleCancel ch s = _), ?_⟩
  rw [State.withAll, Device.answer_formed]
  simp [hh, hf, okWith, ans, stOk]

/-- The parts of the device that the end of a handle moves. -/
theorem Device.finish_pending {d : Device} {h st : Nat} {b : List Byte} {x : Handle} (hx : d.mbx.handles.look h = some x)
    (hf : x.final = none) :
    (d.finish h st b).mbx.diagHandle = d.mbx.diagHandle ∧ (d.finish h st b).evt.ringWr = (d.evt.ringWr + 1) % 512 ∧
      (d.finish h st b).evt.cause.getLsbD 3 = true := by
  have hfin : ∃ e : Device, d.finish h st b = e.setCause 3 ∧ e.mbx.diagHandle = d.mbx.diagHandle ∧
      e.evt.ringWr = (d.evt.ringWr + 1) % 512 := by
    simp only [Device.finish, hx, hf, Option.isSome_none, Bool.false_eq_true, if_false]
    exact ⟨_, rfl, rfl, rfl⟩
  obtain ⟨e, he, hd, hw⟩ := hfin
  obtain ⟨_, _, hi, hc⟩ := e.setCause_evt (b := 3) (by decide)
  rw [he, hi]
  exact ⟨by simp [hd], hw, hc⟩

theorem diagLatch_completes {s : State} {h : Nat} {hs : List Nat} {x : Handle} (hd : s.dev.mbx.diagHandle = h :: hs)
    (hx : s.dev.mbx.handles.look h = some x) (hf : x.final = none) :
      ∃ t, exec .diagLatch s = .next t ∧ t.mem = s.mem ∧ t.dev.mbx.diagHandle = hs ∧
        (t.dev.mbx.handles.look h).bind (·.final) = some 0x00 ∧ t.dev.evt.ringWr = (s.dev.evt.ringWr + 1) % 512 ∧
        t.dev.evt.cause.getLsbD 3 = true := by
  have he : exec .diagLatch s = .next (s.withDev
      (({ s.dev with mbx := { s.dev.mbx with diagHandle := hs } }).finish h stOk s.dev.summary)) := by
    change execDiagLatch s = _
    simp only [execDiagLatch, onDev_next, hd]
  obtain ⟨h1, h2, h3⟩ := Device.finish_pending (d := { s.dev with mbx := { s.dev.mbx with diagHandle := hs } })
    (st := stOk) (b := s.dev.summary) hx hf
  exact ⟨_, he, rfl, h1, Device.finish_ended _ h stOk _ x hx hf, h2, h3⟩

/-- Settles O20: a lemma of its kind for each command. -/
theorem mailboxServiceCommands : Obligations.MailboxServiceCommands := by
  intro s ch r
  refine ⟨fun hr => (query_next 0x0100 ch _ s r hr : execNop ch s = _), fun h hr hh => ?_, fun h hr hh hf hl h0 => ?_,
    fun h hr hh hf => handleCancel_forms hr hh hf, fun hr => ?_, fun hr hroom => ?_,
    fun h hs x hd hx hf => diagLatch_completes hd hx hf⟩
  · refine reports_of_query (show execHandleQuery ch s = _ from rfl) hr (p := leBytes 4 (r.u 0 4) ++
      leBytes 1 (b2n h.final.isSome) ++ leBytes 1 (h.final.getD 0) ++ leBytes 2 h.op ++ leBytes 4 h.result.length)
      (by rw [hh]; rfl) ⟨by simp, ?_, ?_⟩
    · simpa [fieldAt_head] using r.u_lt 0 4
    · cases h.final.isSome <;> simp [fieldAt_skip, fieldAt_head, b2n]
  · refine reports_of_command (show execResultGet ch s = _ from rfl) hr (p := leBytes 4 (r.u 0 4) ++
      leBytes 4 h.result.length ++ leBytes 4 (r.u 4 4) ++
      (h.result.drop (r.u 4 4)).take (min (min (r.u 8 2) 4068) (h.result.length - r.u 4 4))) ?_ ?_
    · have hn : h.final.isNone = false := by simpa using hf
      simp only [hh, hn, h0, Bool.false_eq_true, if_false, Nat.not_lt.mpr hl]
      rfl
    · exact List.drop_left' (by simp)
  · exact reports_of_query (show execHandleList ch s = _ from rfl) hr rfl (by
    simp [Function.comp_def, List.map_const', List.sum_replicate_nat, Nat.mul_comm])
  · exact accepts_of_command (show execDiagCollect ch s = _ from rfl) hr hroom rfl fun h hh => by
      simp [State.answered, State.withDev, Mbx.taking]

end Sys2Proof.Machine
end

section
/-! SUPPORT. The time commands (O21). -/

namespace Sys2Proof.Machine

/-! ## Fields -/

/-- An integer's two's complement is within its width. -/
theorem unsigned_lt (n : Nat) (i : Int) : unsigned n i < 2 ^ n := by
  have hpos : (0 : Int) < ((2 ^ n : Nat) : Int) := by exact_mod_cast Nat.two_pow_pos n
  have hlt := Int.emod_lt_of_pos i hpos
  have hge := Int.emod_nonneg i (Int.ne_of_gt hpos)
  unfold unsigned
  omega

@[simp] theorem length_le32s (i : Int) : (le32s i).length = 4 := length_leBytes 4 _

@[simp] theorem length_zeros (n : Nat) : (zeros n).length = n := by simp [zeros]

@[simp] theorem Device.answer_comp (d : Device) (ch : Nat) (r : Request) (a : Reply) (k i : Nat) :
    (d.answer ch r a).comp k i = d.comp k i := by simp [Device.comp]

@[simp] theorem Device.answer_group (d : Device) (ch : Nat) (r : Request) (a : Reply) (g : Nat) :
    (d.answer ch r a).group g = d.group g := by simp [Device.group]

@[simp] theorem Device.answer_tout (d : Device) (ch : Nat) (r : Request) (a : Reply) (o : Nat) :
    (d.answer ch r a).tout o = d.tout o := by simp [Device.tout]

@[simp] theorem Device.answer_ptp (d : Device) (ch : Nat) (r : Request) (a : Reply) (p : Nat) :
    (d.answer ch r a).ptp p = d.ptp p := by simp [Device.ptp]

/-- The output that was set is read back. -/
@[simp] theorem Device.tout_setOut (d : Device) (o : Nat) (t : TimingOut) : (d.setOut o t).tout o = t := by
  simp [Device.setOut, Device.tout]

/-- The port that was changed is read back. -/
@[simp] theorem Device.ptp_updPtp (d : Device) (p : Nat) (f : PtpPort → PtpPort) : (d.updPtp p f).ptp p = f (d.ptp p) := by
  simp [Device.updPtp, Device.ptp]

/-! ## What following another source leaves alone -/

/-- A time base with the clock, the steps and the settings of TIME_CONFIG of another. -/
structure TimeBase.SameSettings (t u : TimeBase) : Prop where
  mode : u.mode = t.mode
  domain : u.domain = t.domain
  allowStep : u.allowStep = t.allowStep
  holdMax : u.holdMax = t.holdMax
  stepThresh : u.stepThresh = t.stepThresh
  now : u.now = t.now
  step : u.step = t.step
  steps : u.steps = t.steps
  everSet : u.everSet = t.everSet

theorem TimeBase.SameSettings.refl (t : TimeBase) : t.SameSettings t := by constructor <;> rfl

/-- The time base of a device whose servo turned is the one it turned to. -/
@[simp] theorem Device.retime_time (d : Device) (raise : Bool) (f : TimeBase → TimeBase) :
    (d.retime raise f).time = f d.time := by
  unfold Device.retime
  dsimp only
  split <;> simp [Device.timeEvent]

@[simp] theorem Device.retime_tim (d : Device) (raise : Bool) (f : TimeBase → TimeBase) :
    (d.retime raise f).tim = d.tim := by
  unfold Device.retime
  dsimp only
  split <;> simp [Device.timeEvent]

theorem Device.follow_time (d : Device) (raise : Bool) (s : Nat × Nat) :
    d.time.SameSettings (d.follow raise s).time := by
  unfold Device.follow
  dsimp only
  rw [Device.retime_time]
  constructor <;> rfl

/-- The servo's turn to what is selected leaves the settings. -/
theorem Device.select_time (d : Device) (config : Bool) : d.time.SameSettings (d.select config).time := by
  unfold Device.select
  dsimp only
  split
  · split
    · exact .refl _
    · exact d.follow_time _ _
  · split
    · exact .refl _
    · exact d.follow_time _ _
  all_goals
    split
    · rw [Device.retime_time]
      constructor <;> rfl
    · split
      · exact .refl _
      · exact d.follow_time _ _

theorem Device.timeConfigured_time (d : Device) : d.time.SameSettings d.timeConfigured.time := by
  unfold Device.timeConfigured Device.holdEnd
  split
  · rw [Device.retime_time]
    constructor <;> rfl
  · split
    · rw [Device.retime_time]
      constructor <;> rfl
    · exact d.select_time true

/-- Ports of which each is one of others, in another state. -/
def samePorts (t u : Tbl PtpPort) : Prop :=
  ∀ p, ∃ st, u.getD p PtpPort.reset = { t.getD p PtpPort.reset with portState := st }

/-- Port states are set, and of the timing part nothing else, when another source is followed. -/
theorem Device.follow_tim (d : Device) (raise : Bool) (s : Nat × Nat) :
    ∃ t, (d.follow raise s).tim = { d.tim with ptp := t } ∧ samePorts d.tim.ptp t := by
  unfold Device.follow
  dsimp only
  rw [Device.retime_tim]
  refine ⟨_, rfl, ?_⟩
  refine List.foldlRecOn (motive := samePorts d.tim.ptp) _ _ (fun p => ⟨_, rfl⟩) fun t ht p _ => ?_
  have hput : ∀ st, samePorts d.tim.ptp (t.put p { t.getD p PtpPort.reset with portState := st }) := by
    intro st q
    by_cases hq : q = p
    · obtain ⟨x, hx⟩ := ht p
      exact ⟨st, by rw [hq, Tbl.getD_put_same, hx]⟩
    · rw [Tbl.getD_put_other _ _ _ _ _ hq]
      exact ht q
  split
  · exact hput 8
  · split
    · exact hput 4
    · exact ht

theorem Device.select_tim (d : Device) (config : Bool) :
    ∃ t, (d.select config).tim = { d.tim with ptp := t } ∧ samePorts d.tim.ptp t := by
  have hsame : ∃ t, d.tim = { d.tim with ptp := t } ∧ samePorts d.tim.ptp t := ⟨d.tim.ptp, rfl, fun p => ⟨_, rfl⟩⟩
  unfold Device.select
  dsimp only
  split
  · split
    · exact hsame
    · exact d.follow_tim _ _
  · split
    · exact hsame
    · exact d.follow_tim _ _
  all_goals
    split
    · rw [Device.retime_tim]
      exact hsame
    · split
      · exact hsame
      · exact d.follow_tim _ _

/-! ## The commands -/

theorem timeStatus_reports {s : State} {ch : Fin 8} {r : Request} (hr : s.holds ch 0x0200 r) :
    Reports (.timeStatus ch) s ch r (fun p => p.length = 40 ∧
      fieldAt p 0 16 = s.dev.stamp.toNat ∧ fieldAt p 16 1 = s.dev.time.servo.code ∧
      fieldAt p 36 4 = s.dev.time.steps % 2 ^ 32) := by
  have hcode : s.dev.time.servo.code < 256 := by cases s.dev.time.servo <;> decide
  refine reports_of_query (show execTimeStatus ch s = _ from rfl) hr rfl ⟨?_, ?_, ?_, ?_⟩
  · simp
  · simpa [fieldAt_head] using s.dev.stamp.isLt
  · simpa [fieldAt_skip, fieldAt_head] using hcode
  · simp [fieldAt_skip, fieldAt_whole]

theorem timeConfig_sets {s : State} {ch : Fin 8} {r : Request} (hr : s.mayConfigure ch setTimeConfig r) :
    Sets (.timeConfig ch) s ch (fun t => t.dev.time.mode = r.u 0 1 ∧
      t.dev.time.domain = r.u 1 1 ∧ t.dev.time.allowStep = (r.u 2 2 % 2 == 1) ∧ t.dev.time.holdMax = r.u 4 2 ∧
      t.dev.time.stepThresh = r.u 8 4) := by
  refine sets_of_configure (show execTimeConfig ch s = _ from rfl) hr rfl ?_
  obtain ⟨h1, h2, h3, h4, h5, -⟩ := Device.timeConfigured_time { s.dev with time := { s.dev.time with
    mode := r.u 0 1, domain := r.u 1 1, allowStep := bit (r.u 2 2) 0, ppsTraceable := bit (r.u 2 2) 1
    holdMax := r.u 4 2, stepThresh := r.u 8 4 } }
  simp only [State.answered, State.withDev, Device.answer_time]
  exact ⟨h1, h2, h3.trans (by simp [bit]), h4, h5⟩

theorem timeSet_decides {s : State} {ch : Fin 8} {r : Request} (hr : s.holds ch 0x0202 r)
    (hsrc : s.dev.time.source = 0 ∨ s.dev.time.source = 1) (hstep : s.dev.time.step = none) :
    Sets (.timeSet ch) s ch (fun t => t.dev.time = { s.dev.time with
      step := some (.mk (((r.u 0 8 * oneS + r.u 8 4 * oneNs : Nat) : Int) - s.dev.time.ns16) s.dev.time.now true) }) := by
  refine sets_of_command (d := { s.dev with time := { s.dev.time with
      step := some (.mk (((r.u 0 8 * oneS + r.u 8 4 * oneNs : Nat) : Int) - s.dev.time.ns16) s.dev.time.now true) } })
    (show execTimeSet ch s = _ from rfl) hr ?_ ?_
  · rcases hsrc with h | h <;> simp [h, TimeBase.decide_, hstep, okWith, ans, stOk]
  · simp [State.answered, State.withDev]

theorem compSet_sets {s : State} {ch : Fin 8} {r : Request} (hr : s.mayConfigure ch setCompSet r) (hk : r.u 0 1 = 1)
    (hi : r.u 1 1 < 4) (hd : s.dev.pwr.dieOn.getLsbD (r.u 1 1 / 2) = true) (ha : (r.i 4 8).natAbs ≤ oneS)
    (hb : (r.i 12 8).natAbs ≤ oneS) (hc : (r.i 20 8).natAbs ≤ oneS) :
    Sets (.compSet ch) s ch (fun t => t.dev.comp 1 (r.u 1 1) = ⟨0, r.i 4 8, r.i 12 8, r.i 20 8⟩) := by
  refine sets_of_configure (d := { s.dev with tim := { s.dev.tim with
    comp := s.dev.tim.comp.put (compKey 1 (r.u 1 1)) ⟨0, r.i 4 8, r.i 12 8, r.i 20 8⟩ } })
    (show execCompSet ch s = _ from rfl) hr ?_ ?_
  · simp [setCompSet, devBody, compSet, hk, compUses, compIndexOk, compValueOk, compDie, hi, hd, ha, hb, hc, okWith, ans, stOk]
  · simp [State.answered, State.withDev, Device.comp]

theorem compGet_reports {s : State} {ch : Fin 8} {r : Request} (hr : s.holds ch 0x0204 r) (hk : r.u 0 1 = 0)
    (hi : r.u 1 1 < 16) : Reports (.compGet ch) s ch r (fun p => p.length = 28 ∧
      fieldAt p 1 1 = r.u 1 1 ∧ fieldAt p 4 8 = unsigned 64 (s.dev.comp 0 (r.u 1 1)).a) := by
  refine reports_of_query (p := leBytes 1 0 ++ leBytes 1 (r.u 1 1) ++ leBytes 1 (s.dev.comp 0 (r.u 1 1)).link ++ zeros 1
    ++ leBytes 8 (unsigned 64 (s.dev.comp 0 (r.u 1 1)).a) ++ leBytes 8 (unsigned 64 (s.dev.comp 0 (r.u 1 1)).b)
    ++ leBytes 8 (unsigned 64 (s.dev.comp 0 (r.u 1 1)).c)) (show execCompGet ch s = _ from rfl) hr ?_ ⟨?_, ?_, ?_⟩
  · simp [hk, hi, compIndexOk, okWith, ans, stOk]
  · simp
  · simpa [fieldAt_skip, fieldAt_head] using r.u_lt 1 1
  · simpa [fieldAt_skip, fieldAt_head] using unsigned_lt 64 (s.dev.comp 0 (r.u 1 1)).a

theorem trigGroup_starts {s : State} {ch : Fin 8} {r : Request} (hr : s.mayConfigure ch setTrigGroup r) (h0 : r.u 1 1 = 0)
    (hrun : (s.dev.group (r.u 0 1)).running = false) (hmin : 100000 * oneNs ≤ r.u 4 8) (hmax : r.u 4 8 ≤ 10 * oneS)
    (hz : r.u 12 12 ≠ 0) (hns : r.u 20 4 < 1000000000)
    (hstart : s.dev.time.ns16 + 2 * oneMs ≤ r.u 12 8 * oneS + r.u 20 4 * oneNs)
    (hfit : s.dev.periodFits (r.u 0 1) (r.u 4 8) = true) :
    Sets (.trigGroup ch) s ch (fun t => t.dev.group (r.u 0 1) =
      ⟨true, true, r.u 4 8, r.u 12 8 * oneS + r.u 20 4 * oneNs, 0, none⟩) := by
  refine sets_of_configure (d := { s.dev with tim := { s.dev.tim with groups :=
      (s.dev.tim.groups.put (r.u 0 1) ⟨true, true, r.u 4 8, r.u 12 8 * oneS + r.u 20 4 * oneNs, 0, none⟩) } })
    (show execTrigGroup ch s = _ from rfl) hr ?_ ?_
  · simp [setTrigGroup, devBody, trigGroup, h0, hrun, Nat.not_lt.mpr hmin, Nat.not_lt.mpr hmax, hz, Nat.not_le.mpr hns,
      Nat.not_lt.mpr hstart, hfit, okWith, ans, stOk]
  · simp [State.answered, State.withDev, Device.group]

theorem trigOut_detaches {s : State} {ch : Fin 8} {r : Request} (hr : s.mayConfigure ch setTrigOut r)
    (hd : s.dev.pwr.dieOn.getLsbD (r.u 0 1 / 2) = true) (hg : r.u 1 1 = 0xFF) :
    Sets (.trigOut ch) s ch (fun t => t.dev.tout (r.u 0 1) = ⟨none, none, []⟩) := by
  refine sets_of_configure (d := s.dev.setOut (r.u 0 1) ⟨none, none, []⟩) (show execTrigOut ch s = _ from rfl) hr ?_ ?_
  · simp [setTrigOut, devBody, trigOut, hd, hg, okWith, ans, stOk]
  · simp [State.answered, State.withDev]

theorem trigOut_attaches {s : State} {ch : Fin 8} {r : Request} (hr : s.mayConfigure ch setTrigOut r)
    (hd : s.dev.pwr.dieOn.getLsbD (r.u 0 1 / 2) = true) (hg : r.u 1 1 < 8) (hw : 100 ≤ r.u 12 8)
    (hp : (s.dev.group (r.u 1 1)).hasPeriod = false) : Sets (.trigOut ch) s ch (fun t => (t.dev.tout (r.u 0 1)).next =
      some ⟨r.u 1 1, r.u 2 1, r.u 3 1, r.u 4 8, r.u 12 8 * oneNs⟩) := by
  refine sets_of_configure (d := s.dev.setOut (r.u 0 1) { s.dev.tout (r.u 0 1) with
      next := some ⟨r.u 1 1, r.u 2 1, r.u 3 1, r.u 4 8, r.u 12 8 * oneNs⟩ }) (show execTrigOut ch s = _ from rfl) hr ?_ ?_
  · have hff : r.u 1 1 ≠ 255 := by omega
    have hwide : ¬ r.u 12 8 * oneNs < 100 * oneNs := Nat.not_lt.mpr (Nat.mul_le_mul_right _ hw)
    simp [setTrigOut, devBody, trigOut, hd, hff, hwide, hp, okWith, ans, stOk]
  · simp [State.answered, State.withDev]

theorem ptpPort_sets {s : State} {ch : Fin 8} {r : Request} (hr : s.mayConfigure ch setPtpPort r) (hoc : r.u 10 1 = 0)
    (hrole : r.u 1 1 < 4) (hd : s.dev.pwr.dieOn.getLsbD (r.u 0 1 / 2) = true)
    (hpart : (s.dev.ptp (partner (r.u 0 1))).role = r.u 1 1) :
    Sets (.ptpPort ch) s ch (fun t => (t.dev.ptp (r.u 0 1)).role = r.u 1 1 ∧
      (t.dev.ptp (r.u 0 1)).transport = r.u 2 1 ∧ (t.dev.ptp (r.u 0 1)).priority1 = r.u 8 1) := by
  have h4 : r.u 1 1 ≠ 4 := by omega
  obtain ⟨f, hd, hf⟩ : ∃ f : PtpPort → PtpPort,
      setPtpPort.body r s.dev s.mem = (((s.dev.updPtp (r.u 0 1) f).select false, s.mem), okWith []) ∧
      ∀ q, (f q).role = r.u 1 1 ∧ (f q).transport = r.u 2 1 ∧ (f q).priority1 = r.u 8 1 := by
    simp only [setPtpPort, devBody, ptpPort]
    rw [if_neg (by simp [hoc, bit, h4]), if_neg (by simp [ethDie, hd]), if_neg (by simp [hpart])]
    refine ⟨_, rfl, fun q => ?_⟩
    split <;> exact ⟨rfl, rfl, rfl⟩
  generalize hd' : s.dev.updPtp (r.u 0 1) f = d at hd
  obtain ⟨hrole, htrans, hprio⟩ := hf (s.dev.ptp (r.u 0 1))
  rw [← s.dev.ptp_updPtp (r.u 0 1) f, hd'] at hrole htrans hprio
  obtain ⟨t, ht, hports⟩ := d.select_tim false
  obtain ⟨st, hst⟩ := hports (r.u 0 1)
  have hq : (d.select false).ptp (r.u 0 1) = { d.ptp (r.u 0 1) with portState := st } := by rw [Device.ptp, ht]; exact hst
  refine sets_of_configure (show execPtpPort ch s = _ from rfl) hr hd ?_
  simp [State.answered, State.withDev, hq, hrole, htrans, hprio]

theorem ptpPortStatus_reports {s : State} {ch : Fin 8} {r : Request} (hr : s.holds ch 0x0208 r) :
    Reports (.ptpPortStatus ch) s ch r (fun p => p.length = 28 ∧
      fieldAt p 0 1 = (s.dev.ptp (r.u 0 1)).portState % 256 ∧
      fieldAt p 24 4 = (s.dev.ptp (r.u 0 1)).violations % 2 ^ 32) := by
  refine reports_of_query (show execPtpPortStatus ch s = _ from rfl) hr rfl ⟨?_, ?_, ?_⟩
  · simp
  · simp [fieldAt_head]
  · simp [fieldAt_skip, fieldAt_whole]

theorem ppsConfig_sets {s : State} {ch : Fin 8} {r : Request} (hr : s.mayConfigure ch setPpsConfig r) :
    Sets (.ppsConfig ch) s ch (fun t => t.dev.tim.pps.inEn = decide (r.u 0 1 = 1) ∧
      t.dev.tim.pps.outEn = decide (r.u 2 1 = 1) ∧ t.dev.tim.pps.inDelay = r.i 4 4 ∧
      t.dev.tim.pps.outWidth = r.u 12 2) := by
  refine sets_of_configure (show execPpsConfig ch s = _ from rfl) hr rfl ?_
  simp only [State.answered, State.withDev, Device.answer_tim, setPpsConfig, devBody, ppsConfig]
  split
  · obtain ⟨t, ht, -⟩ := Device.select_tim { s.dev with tim := { s.dev.tim with pps := { s.dev.tim.pps with
      inEn := r.u 0 1 = 1, inPol := r.u 1 1, outEn := r.u 2 1 = 1, inDelay := r.i 4 4, outDelay := r.i 8 4
      outWidth := r.u 12 2, outHigh := s.dev.tim.pps.outHigh && decide (r.u 2 1 = 1)
      qualified := false, run := 0, lastQual := none } } } false
    rw [Device.ppsLost, ht]
    exact ⟨rfl, rfl, rfl, rfl⟩
  · exact ⟨rfl, rfl, rfl, rfl⟩

/-- Settles O21. -/
theorem timeCommandsAct : Obligations.TimeCommandsAct := fun _ _ _ =>
  ⟨timeStatus_reports, timeConfig_sets, timeSet_decides, compSet_sets, compGet_reports, trigGroup_starts,
    trigOut_detaches, trigOut_attaches, fun hr _ hoc hrole hd hpart => ptpPort_sets hr hoc hrole hd hpart,
    ptpPortStatus_reports, ppsConfig_sets⟩

end Sys2Proof.Machine
end

section
/-! SUPPORT. A part that a frame does not list, as an equation; the clock carried forward (O22, O23). -/

namespace Sys2Proof.Machine

/-! ## The parts that a frame leaves alone -/

variable {ps : List MachinePart} {d e : Device}

theorem Device.agrees.fuse (h : d.agrees ps e) (hp : .fuse ∉ ps) : e.fuse = d.fuse := h .fuse Store.reset hp
theorem Device.agrees.pkg (h : d.agrees ps e) (hp : .pkg ∉ ps) : e.pkg = d.pkg := h .pkg Store.reset hp
theorem Device.agrees.boot (h : d.agrees ps e) (hp : .boot ∉ ps) : e.boot = d.boot := h .boot Store.reset hp
theorem Device.agrees.view (h : d.agrees ps e) (hp : .view ∉ ps) : e.view = d.view := h .view Store.reset hp
theorem Device.agrees.i3c (h : d.agrees ps e) (hp : .i3c ∉ ps) : e.i3c = d.i3c := h .i3c Store.reset hp
theorem Device.agrees.evt (h : d.agrees ps e) (hp : .evt ∉ ps) : e.evt = d.evt := h .evt Store.reset hp
theorem Device.agrees.mbx (h : d.agrees ps e) (hp : .mbx ∉ ps) : e.mbx = d.mbx := h .mbx Store.reset hp
theorem Device.agrees.diag (h : d.agrees ps e) (hp : .diag ∉ ps) : e.diag = d.diag := h .diag Store.reset hp
theorem Device.agrees.time (h : d.agrees ps e) (hp : .time ∉ ps) : e.time = d.time := h .time Store.reset hp
theorem Device.agrees.tim (h : d.agrees ps e) (hp : .tim ∉ ps) : e.tim = d.tim := h .tim Store.reset hp
theorem Device.agrees.jobs (h : d.agrees ps e) (hp : .jobs ∉ ps) : e.jobs = d.jobs := h .jobs Store.reset hp
theorem Device.agrees.pwr (h : d.agrees ps e) (hp : .pwr ∉ ps) : e.pwr = d.pwr := h .pwr Store.reset hp
theorem Device.agrees.units (h : d.agrees ps e) (hp : .units ∉ ps) : e.units = d.units := h .units Store.reset hp
theorem Device.agrees.clusters (h : d.agrees ps e) (hp : .clusters ∉ ps) : e.clusters = d.clusters := h .clusters Store.reset hp
theorem Device.agrees.memsys (h : d.agrees ps e) (hp : .memsys ∉ ps) : e.memsys = d.memsys := h .memsys Store.reset hp
theorem Device.agrees.ing (h : d.agrees ps e) (hp : .ing ∉ ps) : e.ing = d.ing := h .ing Store.reset hp
theorem Device.agrees.sfe (h : d.agrees ps e) (hp : .sfe ∉ ps) : e.sfe = d.sfe := h .sfe Store.reset hp
theorem Device.agrees.vis (h : d.agrees ps e) (hp : .vis ∉ ps) : e.vis = d.vis := h .vis Store.reset hp
theorem Device.agrees.grid (h : d.agrees ps e) (hp : .grid ∉ ps) : e.grid = d.grid := h .grid Store.reset hp
theorem Device.agrees.slv (h : d.agrees ps e) (hp : .slv ∉ ps) : e.slv = d.slv := h .slv Store.reset hp
theorem Device.agrees.loc (h : d.agrees ps e) (hp : .loc ∉ ps) : e.loc = d.loc := h .loc Store.reset hp
theorem Device.agrees.map (h : d.agrees ps e) (hp : .map ∉ ps) : e.map = d.map := h .map Store.reset hp
theorem Device.agrees.prs (h : d.agrees ps e) (hp : .prs ∉ ps) : e.prs = d.prs := h .prs Store.reset hp
theorem Device.agrees.out (h : d.agrees ps e) (hp : .out ∉ ps) : e.out = d.out := h .out Store.reset hp
theorem Device.agrees.st (h : d.agrees ps e) (hp : .st ∉ ps) : e.st = d.st := h .st Store.reset hp
theorem Device.agrees.sec (h : d.agrees ps e) (hp : .sec ∉ ps) : e.sec = d.sec := h .sec Store.reset hp
theorem Device.agrees.free (h : d.agrees ps e) (hp : .free ∉ ps) : e.free = d.free := h .free Store.reset hp

/-! ## The clock -/

/-- Carrying the clock forward to a moment of the time base moves the clock alone of the time base. -/
theorem Device.advanceTo_time (d : Device) (moment : Nat) :
    ∃ n dt, (d.advanceTo moment).time = { d.time with now := n, dt := dt } := by
  unfold Device.advanceTo
  split
  · rw [Device.advance_time]
    exact ⟨_, _, rfl⟩
  · exact ⟨d.time.now, d.time.dt, rfl⟩

theorem Device.advanceToDev_time (d : Device) (moment : Nat) :
    ∃ n dt, (d.advanceToDev moment).time = { d.time with now := n, dt := dt } := by
  unfold Device.advanceToDev
  split
  · rw [Device.advance_time]
    exact ⟨_, _, rfl⟩
  · exact ⟨d.time.now, d.time.dt, rfl⟩

/-- Rounded up, the clocks of `need` cover it. -/
theorem le_clocked (dt moment : Nat) {a : Nat} (h : 0 < a) :
    moment ≤ (dt + ((moment * 65536 - dt) * 131072 + a - 1) / a * a / 131072) / 65536 := by
  have hceil : (moment * 65536 - dt) * 131072 ≤ ((moment * 65536 - dt) * 131072 + a - 1) / a * a := by
    have hdiv := Nat.div_add_mod ((moment * 65536 - dt) * 131072 + a - 1) a
    have hmod := Nat.mod_lt ((moment * 65536 - dt) * 131072 + a - 1) h
    rw [Nat.mul_comm a] at hdiv
    omega
  have hneed : moment * 65536 - dt ≤ ((moment * 65536 - dt) * 131072 + a - 1) / a * a / 131072 :=
    (Nat.le_div_iff_mul_le (by decide)).mpr hceil
  generalize ((moment * 65536 - dt) * 131072 + a - 1) / a * a / 131072 = gained at hneed ⊢
  have hpos : 0 < 65536 := by decide
  rw [Nat.le_div_iff_mul_le hpos]
  calc moment * 65536 ≤ dt + (moment * 65536 - dt) := Nat.sub_le_iff_le_add'.mp (Nat.le_refl _)
    _ ≤ dt + gained := Nat.add_le_add_left hneed _

/-- The reference clocks that device time takes to a moment are enough of them. -/
theorem TimeBase.le_ns16_advance {t : TimeBase} (h : 0 < t.addend) (moment : Nat) :
    moment ≤ (t.advance (((moment * 65536 - t.dt) * 131072 + t.addend - 1) / t.addend)).ns16 := by
  have hle := le_clocked t.dt moment h
  rw [TimeBase.ns16, TimeBase.advance]
  exact hle

/-- Device time carried forward reaches the moment, where the addend moves it. -/
theorem Device.le_ns16_advanceToDev {d : Device} (h : 0 < d.time.addend) (moment : Nat) :
    moment ≤ (d.advanceToDev moment).time.ns16 := by
  unfold Device.advanceToDev
  split
  · rw [Device.advance_time]
    exact d.time.le_ns16_advance h moment
  · omega

theorem Device.agrees_clock (d : Device) (moment : Nat) : d.agrees [.diag, .time] (d.advanceTo moment) := by simp

theorem Device.agrees_clockDev (d : Device) (moment : Nat) : d.agrees [.diag, .time] (d.advanceToDev moment) := by simp

@[simp] theorem Device.advanceToDev_tim (d : Device) (moment : Nat) : (d.advanceToDev moment).tim = d.tim :=
  (d.agrees_clockDev moment).tim (by decide)
@[simp] theorem Device.advanceToDev_evt (d : Device) (moment : Nat) : (d.advanceToDev moment).evt = d.evt :=
  (d.agrees_clockDev moment).evt (by decide)
@[simp] theorem Device.advanceToDev_pwr (d : Device) (moment : Nat) : (d.advanceToDev moment).pwr = d.pwr :=
  (d.agrees_clockDev moment).pwr (by decide)
@[simp] theorem Device.advanceToDev_jobs (d : Device) (moment : Nat) : (d.advanceToDev moment).jobs = d.jobs :=
  (d.agrees_clockDev moment).jobs (by decide)
@[simp] theorem Device.advanceToDev_mbx (d : Device) (moment : Nat) : (d.advanceToDev moment).mbx = d.mbx :=
  (d.agrees_clockDev moment).mbx (by decide)
@[simp] theorem Device.advanceTo_tim (d : Device) (moment : Nat) : (d.advanceTo moment).tim = d.tim :=
  (d.agrees_clock moment).tim (by decide)

/-! ## Trigger edges and pulses -/

/-- The device whose group `g` has counted one edge more. -/
def Device.counted (d : Device) (g : Nat) : Device :=
  { d with tim := { d.tim with groups := d.tim.groups.put g { d.group g with k := (d.group g).k + 1 } } }

/-- A running group's next edge, where no change waits (R205). -/
theorem Device.nextEdge_running {d : Device} {g : Nat} (hr : (d.group g).running = true) (hc : (d.group g).change = none) :
    d.nextEdge g = some ((d.counted g).advanceToDev ((d.group g).edge (d.group g).k),
      some ((d.group g).edge (d.group g).k)) := by
  simp only [Device.nextEdge, hr, hc, Bool.not_true, Bool.false_eq_true, if_false, Device.counted]

/-- An output that has taken the settings waiting for group `g` (R208). -/
def TimingOut.taken (t : TimingOut) (g : Nat) : TimingOut :=
  match t.next with
  | some c => if c.group = g then { t with cfg := some c, next := none } else t
  | none => t

/-- An output at an edge of group `g`: settings that wait for the group are taken, and a pulse begins where the output is
attached to it and its die drives (R205, R208). -/
def TimingOut.atEdge (t : TimingOut) (g e : Nat) (drives : Bool) : TimingOut :=
  match (t.taken g).cfg with
  | some c => if c.group = g && drives then { t.taken g with pulses := (t.taken g).pulses ++ [c.pulse e] } else t.taken g
  | none => t.taken g

/-- The outputs of a list at an edge of group `g`. -/
def Device.driveOuts (d : Device) (g e : Nat) (os : List Nat) : Device :=
  os.foldl (fun d o => d.setOut o ((d.tout o).atEdge g e (d.drives (o / 2)))) d

theorem Device.drive_eq (d : Device) (g e : Nat) : d.drive g e = d.driveOuts g e (List.range 16) := by
  unfold Device.drive Device.driveOuts
  congr 1
  funext d o
  show (match ((d.tout o).taken g).cfg with
    | some c => if c.group = g && d.drives (o / 2) then
        d.setOut o { (d.tout o).taken g with pulses := ((d.tout o).taken g).pulses ++ [c.pulse e] }
      else d.setOut o ((d.tout o).taken g)
    | none => d.setOut o ((d.tout o).taken g)) = _
  unfold TimingOut.atEdge
  cases ((d.tout o).taken g).cfg with
  | none => rfl
  | some c => exact (apply_ite (d.setOut o) _ _ _).symm

/-- An edge sets outputs and nothing else. -/
theorem Device.driveOuts_tim (d : Device) (g e : Nat) (os : List Nat) :
    ∃ t, d.driveOuts g e os = { d with tim := { d.tim with outs := t } } := by
  refine List.foldlRecOn (motive := fun x : Device => ∃ t, x = { d with tim := { d.tim with outs := t } }) os _
    ⟨d.tim.outs, rfl⟩ ?_
  rintro x ⟨t, rfl⟩ o -
  exact ⟨_, rfl⟩

/-- Each output of the list is as its edge leaves it, and every other as it was. -/
theorem Device.driveOuts_tout {os : List Nat} (hn : os.Nodup) (d : Device) (g e o : Nat) :
    (d.driveOuts g e os).tout o = if o ∈ os then (d.tout o).atEdge g e (d.drives (o / 2)) else d.tout o := by
  induction os generalizing d with
  | nil => rfl
  | cons x xs ih =>
    obtain ⟨hx, hxs⟩ := List.nodup_cons.mp hn
    have hstep := ih hxs (d.setOut x ((d.tout x).atEdge g e (d.drives (x / 2))))
    by_cases ho : o = x
    · subst ho
      simp only [hx, if_false, Device.tout_setOut] at hstep
      rw [if_pos List.mem_cons_self]
      exact hstep
    · have hother : (d.setOut x ((d.tout x).atEdge g e (d.drives (x / 2)))).tout o = d.tout o :=
        Tbl.getD_put_other _ _ _ _ _ ho
      rw [hother] at hstep
      simp only [List.mem_cons, ho, false_or]
      exact hstep

theorem triggerEdge_drives {s : State} (ha : 0 < s.dev.time.addend) {g : Fin 8}
    (hr : (s.dev.group g.val).running = true) (hc : (s.dev.group g.val).change = none)
    (hp : s.dev.jobs.profile.state = .none) : Completes (.triggerEdge g) s (fun t =>
      t.dev.group g.val = { s.dev.group g.val with k := (s.dev.group g.val).k + 1 } ∧
      (s.dev.group g.val).edge (s.dev.group g.val).k ≤ t.dev.time.ns16 ∧ t.mem = s.mem ∧
      (∀ o, o < 16 → ∀ c, (s.dev.tout o).cfg = some c → c.group = g.val → (s.dev.tout o).next = none →
        s.dev.drives (o / 2) = true → (t.dev.tout o).pulses =
          (s.dev.tout o).pulses ++ [c.pulse ((s.dev.group g.val).edge (s.dev.group g.val).k)])) := by
  obtain ⟨due, hdue⟩ : ∃ due, due = (s.dev.group g.val).edge (s.dev.group g.val).k := ⟨_, rfl⟩
  obtain ⟨e, he⟩ : ∃ e : Device, e = (s.dev.counted g.val).advanceToDev due := ⟨_, rfl⟩
  have htim : e.tim = (s.dev.counted g.val).tim := he ▸ Device.advanceToDev_tim _ _
  have hevt : e.evt = s.dev.evt := he ▸ Device.advanceToDev_evt _ _
  have hpwr : e.pwr = s.dev.pwr := he ▸ Device.advanceToDev_pwr _ _
  have hprof : e.jobs = s.dev.jobs := he ▸ Device.advanceToDev_jobs _ _
  have hreach : due ≤ e.time.ns16 := he ▸ Device.le_ns16_advanceToDev (d := s.dev.counted g.val) ha due
  have hnext := Device.nextEdge_running hr hc
  rw [← hdue, ← he] at hnext
  obtain ⟨d, hd⟩ : ∃ d : Device, d = e.drive g.val due := ⟨_, rfl⟩
  obtain ⟨t, ht⟩ : ∃ t, d = { e with tim := { e.tim with outs := t } } := by
    rw [hd, Device.drive_eq]
    exact e.driveOuts_tim g.val due (List.range 16)
  have hjobs : d.jobs = s.dev.jobs := by rw [ht]; exact hprof
  rw [← hdue]
  refine ⟨s.withDev d, ?_, rfl, ?_, ?_, rfl, ?_⟩
  · change execTriggerEdge g s = _
    simp only [execTriggerEdge, onDev_next, hnext, ← hd, hjobs, hp, reduceCtorEq, decide_false, Bool.false_and,
      Bool.false_eq_true, if_false]
  · show Tbl.getD d.tim.groups g.val _ = _
    rw [ht]
    show Tbl.getD e.tim.groups g.val _ = _
    rw [htim]
    exact Tbl.getD_put_same _ _ _ _
  · show due ≤ d.time.ns16
    rw [ht]
    exact hreach
  · intro o ho c hcfg hg hn hdr
    have hto : e.tout o = s.dev.tout o := by rw [Device.tout, htim]; rfl
    have hed : e.drives (o / 2) = true := by rw [Device.drives, hevt, hpwr]; exact hdr
    show (d.tout o).pulses = _
    rw [hd, Device.drive_eq, Device.driveOuts_tout List.nodup_range, if_pos (List.mem_range.mpr ho), hto, hed]
    simp [TimingOut.atEdge, TimingOut.taken, hn, hcfg, hg]

theorem pulseEnd_removes {s : State} (ha : 0 < s.dev.time.addend) {o : Fin 16} {p : Nat × Nat}
    (hp : (s.dev.tout o.val).pulses = [p]) : Completes (.pulseEnd o) s (fun t =>
      (t.dev.tout o.val).pulses = [] ∧ p.2 ≤ t.dev.time.ns16 ∧ t.mem = s.mem) := by
  obtain ⟨e, he⟩ : ∃ e : Device, e = s.dev.advanceToDev p.2 := ⟨_, rfl⟩
  have hreach : p.2 ≤ e.time.ns16 := he ▸ Device.le_ns16_advanceToDev ha p.2
  refine ⟨s.withDev (e.setOut o.val { s.dev.tout o.val with pulses := [] }), ?_, rfl, ?_⟩
  · change execPulseEnd o s = _
    simp [execPulseEnd, onDev_next, hp, ← he]
  · exact ⟨by simp [State.withDev], hreach, rfl⟩

/-! ## PPS -/

/-- The first edge of an enabled input qualifies (R200), where nothing waits for it. -/
theorem Device.ppsEdge_first {d : Device} (hen : d.tim.pps.inEn = true) (hq : d.tim.pps.lastQual = none)
    (hon : d.time.onPps = false) (hsec : d.time.ppsSeconds = none) (hf : d.time.following ≠ 4) :
    ∃ x, d.ppsEdge = { d with
      diag := x
      tim := { d.tim with pps := { d.tim.pps with
        lastQual := some (((d.time.ns16 / 16384 * 16384 : Nat) : Int) - d.tim.pps.inDelay * oneNs)
        lastQualAt := d.time.now, run := min 3 (d.tim.pps.run + 1) } } } := by
  unfold Device.ppsEdge
  simp only [hen, hq, Bool.not_true, Bool.false_eq_true, if_false]
  unfold Device.diagAdd
  simp only [hon, hsec, hf, Bool.false_eq_true, if_false]
  exact ⟨_, rfl⟩

theorem ppsInEdge_qualifies {s : State} {moment : Nat} (hen : s.dev.tim.pps.inEn = true)
    (hq : s.dev.tim.pps.lastQual = none) (hon : s.dev.time.onPps = false) (hsec : s.dev.time.ppsSeconds = none)
    (hf : s.dev.time.following ≠ 4) : Completes (.ppsInEdge moment) s (fun t =>
      t.dev.tim.pps.run = min 3 (s.dev.tim.pps.run + 1) ∧ t.dev.tim.pps.lastQual = some
        (((t.dev.time.ns16 / 16384 * 16384 : Nat) : Int) - s.dev.tim.pps.inDelay * oneNs) ∧ t.mem = s.mem) := by
  obtain ⟨e, he⟩ : ∃ e, e = s.dev.advanceTo moment := ⟨_, rfl⟩
  have htim : e.tim = s.dev.tim := he ▸ Device.advanceTo_tim _ _
  obtain ⟨n, dt, htime⟩ : ∃ n dt, e.time = { s.dev.time with now := n, dt := dt } := he ▸ Device.advanceTo_time _ _
  obtain ⟨x, hx⟩ := Device.ppsEdge_first (d := e) (by rw [htim, hen]) (by rw [htim, hq]) (by rw [htime]; exact hon)
    (by rw [htime]; exact hsec) (by rw [htime]; exact hf)
  refine ⟨s.withDev e.ppsEdge, ?_, rfl, ?_⟩
  · change execPpsInEdge moment s = _
    simp only [execPpsInEdge, onDev_next, ← he]
  · rw [State.withDev, hx, htim]
    exact ⟨rfl, rfl, rfl⟩

theorem ppsQualified_qualifies {s : State} (hen : s.dev.tim.pps.inEn = true) (hrun : 3 ≤ s.dev.tim.pps.run)
    (hq : s.dev.tim.pps.qualified = false) : Completes .ppsQualified s (fun t =>
      t.dev.tim.pps = { s.dev.tim.pps with qualified := true } ∧ t.mem = s.mem) := by
  obtain ⟨d, hd⟩ : ∃ d : Device, d = { s.dev with tim := { s.dev.tim with
    pps := { s.dev.tim.pps with qualified := true } } } := ⟨_, rfl⟩
  obtain ⟨t, ht, -⟩ := d.select_tim false
  refine ⟨s.withDev (d.select false), ?_, rfl, ?_, rfl⟩
  · change execPpsQualified s = _
    simp only [execPpsQualified, onDev_next, hen, hrun, hq, Bool.not_false, decide_true, Bool.and_self, if_true, hd]
  · rw [State.withDev, ht, hd]

theorem ppsLost_loses {s : State} (hen : s.dev.tim.pps.inEn = true) (hq : s.dev.tim.pps.lastQual.isSome = true) :
    Completes .ppsLost s (fun t =>
      t.dev.tim.pps.qualified = false ∧ t.dev.tim.pps.run = 0 ∧ t.dev.tim.pps.lastQual = none ∧
      s.dev.tim.pps.lastQualAt + 2 * oneS ≤ t.dev.time.now) := by
  obtain ⟨e, he⟩ : ∃ e, e = s.dev.advanceTo (s.dev.tim.pps.lastQualAt + 2 * oneS) := ⟨_, rfl⟩
  have hreach : s.dev.tim.pps.lastQualAt + 2 * oneS ≤ e.time.now := he ▸ Device.le_now_advanceTo _ _
  obtain ⟨d, hd⟩ : ∃ d : Device, d = { e with tim := { e.tim with
    pps := { e.tim.pps with qualified := false, run := 0, lastQual := none } } } := ⟨_, rfl⟩
  have hnow : d.time.now = e.time.now := by rw [hd]
  obtain ⟨t, ht, -⟩ := d.select_tim false
  have hsel := (d.select_time false).now
  refine ⟨s.withDev (d.select false), ?_, rfl, ?_⟩
  · change execPpsLost s = _
    simp only [execPpsLost, onDev_next, hen, hq, Bool.and_self, if_true, ← he, Device.ppsLost, hd]
  · show (d.select false).tim.pps.qualified = false ∧ (d.select false).tim.pps.run = 0 ∧
      (d.select false).tim.pps.lastQual = none ∧ _ ≤ (d.select false).time.now
    rw [ht, hsel, hnow, hd]
    exact ⟨rfl, rfl, rfl, hreach⟩

theorem ppsOutRise_rises {s : State} (hen : s.dev.tim.pps.outEn = true) : Completes .ppsOutRise s (fun t =>
    t.dev.tim.pps.outHigh = true ∧ t.mem = s.mem ∧ t.dev.mbx = s.dev.mbx ∧ t.dev.jobs = s.dev.jobs) := by
  refine ⟨_, (show execPpsOutRise s = _ from rfl), rfl, ?_⟩
  simp [hen]

theorem ppsOutFall_falls {s : State} (hh : s.dev.tim.pps.outHigh = true) : Completes .ppsOutFall s (fun t =>
    t.dev.tim.pps = { s.dev.tim.pps with outHigh := false } ∧ t.mem = s.mem) := by
  refine ⟨_, (show execPpsOutFall s = _ from rfl), rfl, ?_⟩
  simp [hh]

/-- Settles O22. -/
theorem triggersAndPpsFollowTheirEdges : Obligations.TriggersAndPpsFollowTheirEdges :=
  ⟨fun _ ha => ⟨fun _ hr hc hp => triggerEdge_drives ha hr hc hp, fun _ _ hp => pulseEnd_removes ha hp⟩,
    fun _ => ⟨fun _ => ppsInEdge_qualifies, ppsQualified_qualifies, ppsLost_loses, ppsOutRise_rises, ppsOutFall_falls⟩⟩

end Sys2Proof.Machine
end

section
/-! SUPPORT. The servo (O23). -/

namespace Sys2Proof.Machine

/-! ## The servo -/

theorem servoLock_locks {s : State} (hs : s.dev.time.servo = .acquire) (hg : 16 ≤ s.dev.time.goodRun) :
    Completes .servoLock s (fun t => t.dev.time.servo = .locked ∧ t.dev.time.source = s.dev.time.following ∧
      t.dev.time.hold = false ∧ t.dev.time.cls = classOf s.dev.time.estimate ∧ t.mem = s.mem) := by
  obtain ⟨d, hd⟩ : ∃ d : Device, d = s.dev.retime true fun t => { t with
    servo := .locked, source := t.following, hold := false, cls := classOf t.estimate, badRun := 0, everSet := true } := ⟨_, rfl⟩
  obtain ⟨e, he⟩ : ∃ e : Device, e = if s.dev.time.following = 4 then d
    else d.updPtp s.dev.time.slavePort fun q => { q with portState := 9 } := ⟨_, rfl⟩
  have htime : e.time = d.time := by rw [he]; split <;> rfl
  have hfoll : d.time.following = s.dev.time.following ∧ d.time.slavePort = s.dev.time.slavePort := by
    rw [hd, Device.retime_time]
    exact ⟨rfl, rfl⟩
  refine ⟨s.withDev e, ?_, rfl, ?_⟩
  · change execServoLock s = _
    simp only [execServoLock, onDev_next, hs, hg, decide_true, Bool.and_self, if_true, ← hd, hfoll, he]
  · simp [State.withDev, htime, hd]

theorem servoUnlock_unlocks {s : State} (hs : s.dev.time.servo = .locked) (hb : 8 ≤ s.dev.time.badRun) :
    Completes .servoUnlock s (fun t =>
      t.dev.time.servo = .acquire ∧ t.dev.time.samples = [] ∧ t.dev.time.following = s.dev.time.following ∧
      (s.dev.time.allowStep = true → t.dev.time.step.map (·.size) = some (-s.dev.time.lastOffset)) ∧ t.mem = s.mem) := by
  obtain ⟨d, hd⟩ : ∃ d : Device, d = s.dev.retime true fun t => t.acquire t.following t.slavePort t.gm := ⟨_, rfl⟩
  have htime : d.time = s.dev.time.acquire s.dev.time.following s.dev.time.slavePort s.dev.time.gm := by
    rw [hd, Device.retime_time]
  have hallow : d.time.allowStep = s.dev.time.allowStep := by rw [htime]; rfl
  refine ⟨s.withDev (if s.dev.time.allowStep then { d with time := d.time.decide_ (-s.dev.time.lastOffset) false } else d),
    ?_, rfl, ?_⟩
  · change execServoUnlock s = _
    simp only [execServoUnlock, onDev_next, hs, hb, decide_true, Bool.and_self, if_true, ← hd, hallow]
  · cases ha : s.dev.time.allowStep with
    | true =>
      simp only [State.withDev, if_true, htime]
      exact ⟨rfl, rfl, rfl, fun _ => rfl, trivial⟩
    | false =>
      simp only [State.withDev, Bool.false_eq_true, if_false, htime]
      exact ⟨rfl, rfl, rfl, nofun, trivial⟩

theorem holdMaxExpiry_ends {s : State} (hs : s.dev.time.servo = .holdover) :
    Completes .holdMaxExpiry s (fun t => t.dev.time.servo = .free ∧
      t.dev.time.source = (if s.dev.time.everSet then 1 else 0) ∧ t.dev.time.hold = false ∧ t.dev.time.cls = 0) := by
  obtain ⟨e, he⟩ : ∃ e, e = s.dev.advanceTo (s.dev.time.holdAt + s.dev.time.holdMax * oneS) := ⟨_, rfl⟩
  obtain ⟨n, dt, htime⟩ : ∃ n dt, e.time = { s.dev.time with now := n, dt := dt } := he ▸ Device.advanceTo_time _ _
  refine ⟨s.withDev e.holdEnd, ?_, rfl, ?_⟩
  · change execHoldMaxExpiry s = _
    simp only [execHoldMaxExpiry, onDev_next, hs, if_true, ← he]
  · simp [State.withDev, Device.holdEnd, htime]

theorem holdoverClassChange_follows {s : State} {moment : Nat} (hs : s.dev.time.servo = .holdover)
    (h2 : 2 ≤ s.dev.time.source) : Completes (.holdoverClassChange moment) s (fun t =>
      t.dev.time.cls = classOf t.dev.time.bound ∧ t.dev.time.servo = .holdover ∧ moment ≤ t.dev.time.now ∧
      t.mem = s.mem) := by
  obtain ⟨e, he⟩ : ∃ e, e = s.dev.advanceTo moment := ⟨_, rfl⟩
  obtain ⟨n, dt, htime⟩ : ∃ n dt, e.time = { s.dev.time with now := n, dt := dt } := he ▸ Device.advanceTo_time _ _
  have hreach : moment ≤ e.time.now := he ▸ Device.le_now_advanceTo _ _
  have hservo : e.time.servo = .holdover := by rw [htime]; exact hs
  have hsrc : 2 ≤ e.time.source := by rw [htime]; exact h2
  refine ⟨s.withDev (e.retime false fun t => { t with cls := classOf t.bound }), ?_, rfl, ?_⟩
  · change execHoldoverClassChange moment s = _
    simp only [execHoldoverClassChange, onDev_next, ← he, hservo, hsrc, decide_true, Bool.and_self, if_true]
  · simp only [State.withDev, Device.retime_time]
    exact ⟨rfl, hservo, hreach, trivial⟩

/-! ## Steps -/

/-- A step leaves the clock's other parts to their own shift: none but the step itself moves the time base. -/
theorem stepAll_time (p : PendingStep) (d : Device) (m : Store) : (stepAll p d m).1.time = (d.stepTime p).time :=
  (show (d.stepTime p).agrees [.evt, .diag, .jobs, .units, .clusters, .memsys, .ing, .sfe, .vis, .grid, .slv, .loc, .prs]
    (stepAll p d m).1 by simp [stepAll]).time (by decide)

theorem Device.stepTime_time (d : Device) (p : PendingStep) : (d.time.stepped p).SameSettings (d.stepTime p).time := by
  unfold Device.stepTime
  have hsel := Device.select_time (Device.setCause { d.retime false fun t => t.stepped p with
    tim := (d.retime false fun t => t.stepped p).tim.shift p.size } 10) false
  rw [Device.setCause_time] at hsel
  rw [Device.retime_time] at hsel
  exact hsel

theorem timeStepApply_steps {s : State} {p : PendingStep} (hp : s.dev.time.step = some p) :
    Completes .timeStepApply s (fun t => t.dev.time.step = none ∧
      t.dev.time.steps = min (s.dev.time.steps + 1) 0xFFFFFFFF ∧ t.dev.time.everSet = true) := by
  obtain ⟨tick, htick⟩ : ∃ b : Bool, b = s.dev.jobs.table.any fun e => decide (e.2.cls = .tick) && e.2.active := ⟨_, rfl⟩
  obtain ⟨e, he⟩ : ∃ e : Device, e = if tick then s.dev.advanceTo (p.firstAt + 100 * oneMs) else s.dev := ⟨_, rfl⟩
  obtain ⟨n, dt, htime⟩ : ∃ n dt, e.time = { s.dev.time with now := n, dt := dt } := by
    rw [he]
    split
    · exact Device.advanceTo_time _ _
    · exact ⟨_, _, rfl⟩
  refine ⟨s.withAll (stepAll p e s.mem).1 (stepAll p e s.mem).2, ?_, by simp, ?_⟩
  · change execTimeStepApply s = _
    simp only [execTimeStepApply, onBoth_next, hp, ← htick, ← he]
  · have hstep := e.stepTime_time p
    have hnone : (e.time.stepped p).step = none ∧ (e.time.stepped p).steps = min (s.dev.time.steps + 1) 0xFFFFFFFF ∧
        (e.time.stepped p).everSet = true := by
      simp only [TimeBase.stepped, htime]
      exact ⟨trivial, trivial, trivial⟩
    simp only [State.withAll, stepAll_time, hstep.step, hstep.steps, hstep.everSet]
    exact hnone

/-! ## The time base of another die -/

/-- An event of a cause sets it and records it (R167, R175): of the event part, causes, IBIs and records move. -/
theorem Device.event_evt (d : Device) {cause : Nat} (h : cause < 13) (code unit p0 p1 : Nat) :
    ∃ c i es n, (d.event code cause unit p0 p1).evt = { d.evt with cause := c, ibi := i, events := es, evSeq := n } ∧
      c.getLsbD cause = true := by
  obtain ⟨c, i, hset, hc⟩ := d.setCause_evt h
  obtain ⟨es, n, hrec⟩ := (d.setCause cause).record_evt code cause unit p0 p1
  refine ⟨c, i, es, n, ?_, hc⟩
  rw [Device.event, if_pos h, hrec, hset]

/-- An entry of the fault log is one more entry, and is counted on its die. -/
theorem Device.outsideFault_eq (d : Device) (cause source die index : Nat) (addr : Option Nat) (detail : Nat) :
    ∃ l n x, d.outsideFault cause source die index addr detail = { d with
      evt := { d.evt with flog := l, flogCount := n }, diag := x } := ⟨_, _, _, rfl⟩

theorem tbSlaveFault_withdraws {s : State} {k : Fin 8} {n : Nat} (hl : k.val ≠ s.dev.lead)
    (hon : s.dev.pwr.dieOn.getLsbD k.val = true) (hn : 200 < n) (hf : s.dev.evt.faultTb.getLsbD k.val = false) :
    Completes (.tbSlaveFault k n) s (fun t =>
        t.dev.evt.faultTb.getLsbD k.val = true ∧ t.dev.pwr.tickWithdrawn.getLsbD k.val = true ∧
        (t.dev.tout (2 * k.val)).pulses = [] ∧ (t.dev.tout (2 * k.val + 1)).pulses = [] ∧ t.mem = s.mem) := by
  obtain ⟨c, hc⟩ : ∃ x, s.dev.diagPeak k.val 0x00C 0 16 n = { s.dev with diag := x } := ⟨_, rfl⟩
  obtain ⟨f, hf'⟩ : ∃ f : Device, f = { s.dev with
    diag := c
    evt := { s.dev.evt with faultTb := s.dev.evt.faultTb ||| BitVec.twoPow 8 k.val } } := ⟨_, rfl⟩
  obtain ⟨d, hd⟩ : ∃ d : Device, d = (f.event 0x0042 1 k.val 0 0).outsideFault 0 11 k.val 0 none 0 := ⟨_, rfl⟩
  have hfault : d.evt.faultTb = s.dev.evt.faultTb ||| BitVec.twoPow 8 k.val := by
    obtain ⟨_, _, _, _, hev, -⟩ := f.event_evt (cause := 1) (by decide) 0x0042 k.val 0 0
    obtain ⟨_, _, _, hout⟩ := (f.event 0x0042 1 k.val 0 0).outsideFault_eq 0 11 k.val 0 none 0
    rw [hd, hout, hev, hf']
  refine ⟨s.withDev ((Device.setOut { d with pwr := { d.pwr with
      tickWithdrawn := d.pwr.tickWithdrawn ||| BitVec.twoPow 8 k.val } }
    (2 * k.val) { d.tout (2 * k.val) with pulses := [] }).setOut (2 * k.val + 1)
      { d.tout (2 * k.val + 1) with pulses := [] }), ?_, rfl, ?_⟩
  · change execTbSlaveFault k n s = _
    have hsmall : ¬ n ≤ 200 := Nat.not_le.mpr hn
    simp only [execTbSlaveFault, onDev_next, hl, hon, hd, hc, hsmall, hf, hf', decide_false, Bool.not_true, Bool.or_self,
      Bool.false_eq_true, if_false]
    rfl
  · have hne : 2 * k.val ≠ 2 * k.val + 1 := by omega
    refine ⟨?_, ?_, ?_, ?_, rfl⟩
    · show d.evt.faultTb.getLsbD k.val = true
      rw [hfault]
      simp
    · show (d.pwr.tickWithdrawn ||| BitVec.twoPow 8 k.val).getLsbD k.val = true
      simp
    · simp [State.withDev, Device.tout, Device.setOut, Tbl.getD_put_other _ _ _ _ _ hne]
    · simp [State.withDev]

/-- Settles O23. -/
theorem servoChangesState : Obligations.ServoChangesState := fun _ =>
  ⟨servoLock_locks, servoUnlock_unlocks, holdMaxExpiry_ends, fun _ => holdoverClassChange_follows,
    fun _ => timeStepApply_steps, fun _ _ => tbSlaveFault_withdraws⟩

end Sys2Proof.Machine
end

section
/-! SUPPORT. PTP messages (O24). -/

namespace Sys2Proof.Machine

theorem Device.agrees_ptp {d e : Device} {ps : List MachinePart} (h : d.agrees ps e) (hp : .tim ∉ ps) (p : Nat) :
    e.ptp p = d.ptp p := by rw [Device.ptp, h.tim hp]; rfl

/-- An Announce that is as it should be is no violation (R222). -/
theorem ptpViolation_none {m : PtpMsg} {own : BitVec 64} {pending : Bool} (hv : m.version = 2) (hu : m.udpOk = true)
    (hl : m.lengthOk = true) (hn : m.nanos < 1000000000)
    (ht : m.messageType = 11 ∧ m.stepsRemoved < 255 ∧ m.grandmaster ≠ own ∨ m.messageType = 0 ∧ 0 ≤ m.correction) :
    ptpViolation m own pending = none := by
  have hn' := Nat.not_le.mpr hn
  rcases ht with ⟨ht, hs, hg⟩ | ⟨ht, hc⟩
  · simp [ptpViolation, hv, hu, hl, ht, hn', hg, Nat.not_le.mpr hs]
  · simp [ptpViolation, hv, hu, hl, ht, hn', hc]

/-- The choice of a source sets the state of a port and leaves the rest of it. -/
theorem Device.select_ptp (d : Device) (config : Bool) (p : Nat) :
    ∃ st, (d.select config).ptp p = { d.ptp p with portState := st } := by
  obtain ⟨t, ht, hports⟩ := d.select_tim config
  obtain ⟨st, hst⟩ := hports p
  exact ⟨st, by rw [Device.ptp, ht]; exact hst⟩

/-- The first Announce is kept as the port's master (R213). -/
theorem Device.announce_first {d : Device} {p : Nat} {m : PtpMsg} (hf : (d.ptp p).foreign = none) :
    ∃ f, ((d.announce p m).ptp p).foreign = some f ∧ f.gm = m.grandmaster ∧ f.rank = m.rank ∧ f.announces = 1 := by
  have hf' : ((d.diagAdd d.lead 4 0 16 1).ptp p).foreign = none := hf
  unfold Device.announce
  dsimp only
  obtain ⟨st, hst⟩ := Device.select_ptp (Device.updPtp (d.diagAdd d.lead 4 0 16 1) p _) false p
  rw [hst, Device.ptp_updPtp, hf']
  exact ⟨_, rfl, rfl, rfl, rfl⟩

theorem ptpMessageRx_keepsMaster {s : State} {p : Fin 4} (hfw : s.dev.boot.fwStarted = true)
    (hdie : s.dev.pwr.dieOn.getLsbD (p.val / 2) = true) {m : PtpMsg} {moment : Nat} (hrole : (s.dev.ptp p.val).role = 1)
    (hforeign : (s.dev.ptp p.val).foreign = none) (ht : m.messageType = 11) (hv : m.version = 2) (hu : m.udpOk = true)
    (hl : m.lengthOk = true) (hdom : m.domain = s.dev.time.domain) (hn : m.nanos < 1000000000)
    (hs : m.stepsRemoved < 255) (hg : m.grandmaster ≠ s.dev.fuse.clockIdentity) :
    Completes (.ptpMessageRx p m moment) s (fun t => t.mem = s.mem ∧ ∃ f, (t.dev.ptp p.val).foreign = some f ∧
      f.gm = m.grandmaster ∧ f.rank = m.rank ∧ f.announces = 1) := by
  obtain ⟨e, he⟩ : ∃ e, e = s.dev.advanceTo moment := ⟨_, rfl⟩
  have hagree : s.dev.agrees [.diag, .time] e := he ▸ s.dev.agrees_clock moment
  obtain ⟨n, dt, htime⟩ : ∃ n dt, e.time = { s.dev.time with now := n, dt := dt } := he ▸ Device.advanceTo_time _ _
  have hq : e.ptp p.val = s.dev.ptp p.val := Device.agrees_ptp hagree (by decide) p.val
  have hdom' : m.domain = e.time.domain := by rw [htime]; exact hdom
  refine ⟨s.withDev (e.announce p.val m), ?_, rfl, rfl, ?_⟩
  · have hviol := ptpViolation_none (own := s.dev.fuse.clockIdentity) (pending := e.ptpPending p.val m) hv hu hl hn
      (.inl ⟨ht, hs, hg⟩)
    have htakes : (s.dev.ptp p.val).takesPart = true := by simp [PtpPort.takesPart, hrole]
    change execPtpMessageRx p m moment s = _
    simp [execPtpMessageRx, onDev_next, ← he, hagree.boot (by decide), hagree.pwr (by decide), hagree.fuse (by decide), hfw, hdie, ethDie, hq, hrole, hdom', ht, hviol, htakes, Device.ptpTake]
  · exact Device.announce_first (hq ▸ hforeign)

theorem ptpMasterLost_drops {s : State} {p : Fin 4} {f : Foreign} (hm : s.dev.masterPort = some p.val)
    (hf : (s.dev.ptp p.val).foreign = some f) : Completes .ptpMasterLost s (fun t =>
      (t.dev.ptp p.val).foreign = none ∧ t.mem = s.mem) := by
  obtain ⟨due, hdue⟩ : ∃ n, n = min (f.announceAt + (s.dev.ptp p.val).annTimeout * logInterval (s.dev.ptp p.val).logAnnounce)
    (f.syncAt + 16 * logInterval (s.dev.ptp p.val).logSync) := ⟨_, rfl⟩
  obtain ⟨d, hd⟩ : ∃ d : Device, d = (s.dev.advanceTo due).updPtp p.val fun q =>
    { q with foreign := none, portState := 4 } := ⟨_, rfl⟩
  have hnone : (d.ptp p.val).foreign = none := by rw [hd, Device.ptp_updPtp]
  obtain ⟨st, hst⟩ := d.select_ptp false p.val
  refine ⟨s.withDev (d.select false), ?_, rfl, ?_, rfl⟩
  · change execPtpMasterLost s = _
    simp only [execPtpMasterLost, onDev_next, hm, hf, ← hdue, hd]
  · rw [State.withDev, hst]
    exact hnone

theorem ptpMessageTx_requests {s : State} {p : Fin 4} (hfw : s.dev.boot.fwStarted = true)
    (hdie : s.dev.pwr.dieOn.getLsbD (p.val / 2) = true) {moment : Nat} (hpeer : (s.dev.ptp p.val).peer = true) :
    Completes (.ptpMessageTx p 2 moment) s (fun t => t.mem = s.mem ∧
      (t.dev.ptp p.val).txSeq = ((s.dev.ptp p.val).txSeq + 1) % 65536 ∧
      (t.dev.ptp p.val).ex.preq = some ((s.dev.ptp p.val).txSeq, t.dev.txWire p.val) ∧
      t.dev.tim.ptpOut.map (·.messageType) = some 2) := by
  obtain ⟨e, he⟩ : ∃ e, e = s.dev.advanceTo moment := ⟨_, rfl⟩
  have hagree : s.dev.agrees [.diag, .time] e := he ▸ s.dev.agrees_clock moment
  have hq : e.ptp p.val = s.dev.ptp p.val := Device.agrees_ptp hagree (by decide) p.val
  refine ⟨_, (show execPtpMessageTx p 2 moment s = _ from rfl), rfl, rfl, ?_⟩
  simp [← he, hagree.boot (by decide), hagree.pwr (by decide), hfw, hdie, ethDie, hq, hpeer, PtpPort.outSeq, PtpPort.afterSend, Device.updPtp]
  have hraw : e.tim.ptp.getD p.val PtpPort.reset = s.dev.tim.ptp.getD p.val PtpPort.reset := hq
  simp [Device.ptp, Device.txWire, Device.comp, hraw]

theorem ptpEventForward_corrects {s : State} {p : Fin 4} (hfw : s.dev.boot.fwStarted = true)
    (hdie : s.dev.pwr.dieOn.getLsbD (p.val / 2) = true) {m : PtpMsg} {rx tx : Nat} (hrole : (s.dev.ptp p.val).role = 2)
    (ht : m.messageType = 0) (htwo : m.twoStep = false) (hv : m.version = 2) (hu : m.udpOk = true)
    (hl : m.lengthOk = true) (hdom : m.domain = s.dev.time.domain) (hn : m.nanos < 1000000000) (hc : 0 ≤ m.correction) :
    Completes (.ptpEventForward p m rx tx) s (fun t => t.mem = s.mem ∧ t.dev.tim.ptpOut = some
        ⟨partner p.val, 0, m.sequenceId,
          m.correction + (((tx : Int) + (s.dev.comp 1 (partner p.val)).b) - ((rx : Int) - (s.dev.comp 1 p.val).a)),
          s.dev.time.clockClass⟩) := by
  refine ⟨_, (show execPtpEventForward p m rx tx s = _ from rfl), rfl, rfl, ?_⟩
  have hviol := ptpViolation_none (own := s.dev.fuse.clockIdentity) (pending := true) hv hu hl hn (.inr ⟨ht, hc⟩)
  simp [hfw, hdie, ethDie, hrole, ht, htwo, hdom, Device.updPtp, hviol, Device.comp]

theorem residenceEntryExpiry_drops {s : State} {p : Fin 4} {x : Residence} (hx : s.dev.residences p.val = [x]) :
    Completes (.residenceEntryExpiry p) s (fun t => t.dev.residences p.val = [] ∧ t.mem = s.mem) := by
  obtain ⟨e, he⟩ : ∃ e, e = s.dev.advanceTo (x.at_ + oneS) := ⟨_, rfl⟩
  have hres : e.residences p.val = [x] := by rw [he, Device.residences, Device.advanceTo_tim]; exact hx
  have hreach : x.at_ + oneS ≤ e.time.now := he ▸ Device.le_now_advanceTo _ _
  have hnone : ([x].filter fun y => e.time.now < y.at_ + oneS) = [] := by simpa using hreach
  refine ⟨s.withDev { e with tim := { e.tim with residence := e.tim.residence.put p.val [] } }, ?_, rfl, ?_, rfl⟩
  · change execResidenceEntryExpiry p s = _
    simp only [execResidenceEntryExpiry, onDev_next, hx, ← he, hres, hnone]
  · simp [State.withDev, Device.residences]

/-- Settles O24. -/
theorem ptpMessagesAct : Obligations.PtpMessagesAct := fun _ _ hfw hdie =>
  ⟨fun _ _ hrole hf ht hv hu hl hdom hn hs hg => ptpMessageRx_keepsMaster hfw hdie hrole hf ht hv hu hl hdom hn hs hg,
    fun _ hm hf => ptpMasterLost_drops hm hf, fun _ hpeer => ptpMessageTx_requests hfw hdie hpeer,
    fun _ _ _ hrole ht htwo hv hu hl hdom hn hc => ptpEventForward_corrects hfw hdie hrole ht htwo hv hu hl hdom hn hc,
    fun _ hx => residenceEntryExpiry_drops hx⟩

end Sys2Proof.Machine
end

section
/-! SUPPORT. The ingest commands (O25). -/

namespace Sys2Proof.Machine

/-! ## Objects of ingest, set and read back -/

@[simp] theorem Device.answer_stream (d : Device) (ch : Nat) (r : Request) (a : Reply) (k : Nat) :
    (d.answer ch r a).stream k = d.stream k := by simp [Device.stream]

@[simp] theorem Device.answer_csi (d : Device) (ch : Nat) (r : Request) (a : Reply) (p : Nat) :
    (d.answer ch r a).csi p = d.csi p := by simp [Device.csi]

@[simp] theorem Device.answer_pair (d : Device) (ch : Nat) (r : Request) (a : Reply) (p : Nat) :
    (d.answer ch r a).pair p = d.pair p := by simp [Device.pair]

@[simp] theorem Device.answer_eth (d : Device) (ch : Nat) (r : Request) (a : Reply) (p : Nat) :
    (d.answer ch r a).eth p = d.eth p := by simp [Device.eth]

@[simp] theorem Device.answer_lidar (d : Device) (ch : Nat) (r : Request) (a : Reply) (k : Nat) :
    (d.answer ch r a).lidar k = d.lidar k := by simp [Device.lidar]

@[simp] theorem Device.answer_imu (d : Device) (ch : Nat) (r : Request) (a : Reply) (p : Nat) :
    (d.answer ch r a).imu p = d.imu p := by simp [Device.imu]

@[simp] theorem Device.answer_enc (d : Device) (ch : Nat) (r : Request) (a : Reply) (e : Nat) :
    (d.answer ch r a).enc e = d.enc e := by simp [Device.enc]

@[simp] theorem Device.answer_can (d : Device) (ch : Nat) (r : Request) (a : Reply) (k : Nat) :
    (d.answer ch r a).can k = d.can k := by simp [Device.can]

@[simp] theorem Device.stream_updStream (d : Device) (k : Nat) (f : Stream → Stream) :
    (d.updStream k f).stream k = f (d.stream k) := by simp [Device.stream, Device.updStream]

@[simp] theorem Device.csi_setCsi (d : Device) (p : Nat) (c : CsiPort) : (d.setCsi p c).csi p = c := by
  simp [Device.csi, Device.setCsi]

@[simp] theorem Device.pair_setPair (d : Device) (p : Nat) (x : Pair) : (d.setPair p x).pair p = x := by
  simp [Device.pair, Device.setPair]

@[simp] theorem Device.eth_updEth (d : Device) (p : Nat) (f : EthPort → EthPort) : (d.updEth p f).eth p = f (d.eth p) := by
  simp [Device.eth, Device.updEth]

@[simp] theorem Device.lidar_setLidar (d : Device) (k : Nat) (l : Lidar) : (d.setLidar k l).lidar k = l := by
  simp [Device.lidar, Device.setLidar]

@[simp] theorem Device.imu_setImu (d : Device) (p : Nat) (x : ImuPort) : (d.setImu p x).imu p = x := by
  simp [Device.imu, Device.setImu]

@[simp] theorem Device.enc_setEnc (d : Device) (e : Nat) (x : Encoder) : (d.setEnc e x).enc e = x := by
  simp [Device.enc, Device.setEnc]

@[simp] theorem Device.can_setCan (d : Device) (k : Nat) (x : CanCtrl) : (d.setCan k x).can k = x := by
  simp [Device.can, Device.setCan]

/-! ## Streams stopped and started -/

@[simp] theorem Device.endTracks_ing (d : Device) (k : Nat) : (d.endTracks k).ing = d.ing := by
  unfold Device.endTracks
  split <;> rfl

/-- A stream that stops is OFF, and its settings are as they were (R230). -/
theorem Device.stopStream_stream (d : Device) (k : Nat) :
    (d.stopStream k).stream k = { d.stream k with state := .off, good := 0 } := by
  have hupd := d.stream_updStream k fun x => { x with state := .off, good := 0 }
  unfold Device.stopStream
  dsimp only
  split
  · rw [Device.stream, Device.endTracks_ing]
    exact hupd
  · split <;> exact hupd

theorem Device.stopStream_enc (d : Device) (k e : Nat) : (d.stopStream k).enc e = d.enc e := by
  unfold Device.stopStream
  dsimp only
  split
  · rw [Device.enc, Device.endTracks_ing]
    rfl
  · split <;> rfl

/-- As many buffers are allocated as are asked for. -/
theorem length_of_allocMany {die size n : Nat} {d e : Device} {ids : List Nat}
    (h : allocMany die size n d = some (ids, e)) : ids.length = n := by
  induction n generalizing d ids with
  | zero =>
    cases h
    rfl
  | succ n ih =>
    rw [allocMany_succ] at h
    obtain ⟨⟨id, d'⟩, -, h⟩ := Option.bind_eq_some_iff.mp h
    obtain ⟨y, hy, hz⟩ := Option.map_eq_some_iff.mp h
    cases hz
    exact congrArg (· + 1) (ih hy)

/-- A stream whose buffers are given back has none, and its settings are as they were. -/
theorem Device.freeStream_stream (d : Device) (k : Nat) :
    (d.freeStream k).stream k = { d.stream k with bufs := [], order := [], frames := [] } := by
  have hfree : d.agrees [.memsys] ((d.stream k).bufs.foldl (fun d b => d.freeBuf b) d) := by simp
  rw [Device.freeStream, Device.stream_updStream, Device.stream, hfree.ing (by decide)]
  rfl

theorem Device.startStream_stream {d e : Device} {k : Nat} (hk : k < 24) (h : d.startStream k = some e) :
    (e.stream k).state = .waitFirst ∧ (e.stream k).bufs.length = max 3 (d.stream k).buffers ∧ (e.stream k).seq = 0 := by
  unfold Device.startStream at h
  dsimp only at h
  split at h
  · cases h
  · next ids x hx =>
    have hlen := length_of_allocMany hx
    have h128 : ¬ 128 ≤ k := by omega
    obtain rfl := Option.some.inj h
    rw [if_pos hk, Device.freeStream_stream] at hlen
    rw [Device.stream_updStream]
    exact ⟨if_neg h128, hlen, rfl⟩

/-- A stream that starts waits for its first sample with the buffers it asks for (R230, R239). -/
theorem Device.enableStream_stream {d e : Device} {k : Nat} (hk : k < 24) (h : d.enableStream k = some e) :
    (e.stream k).state = .waitFirst ∧ (e.stream k).bufs.length = max 3 (d.stream k).buffers ∧ (e.stream k).seq = 0 := by
  obtain ⟨x, hx, rfl⟩ := Option.map_eq_some_iff.mp h
  obtain ⟨hstate, hbufs, hseq⟩ := Device.startStream_stream hk hx
  have hsame : ∀ y : Device, y.ing.streams = x.ing.streams → y.stream k = x.stream k := fun y hy => by
    rw [Device.stream, hy]; rfl
  rw [hsame]
  · exact ⟨hstate, hbufs, hseq⟩
  · simp only [hk, if_true]
    split <;> rfl

/-! ## The commands -/

theorem streamConfig_stops {s : State} {ch : Fin 8} {r : Request} (hr : s.mayConfigure ch setStreamConfig r)
    (hk : isStream (r.u 0 1) = true) (h0 : r.u 1 1 = 0) : Sets (.streamConfig ch) s ch (fun t =>
      (t.dev.stream (r.u 0 1)).state = .off ∧ (t.dev.stream (r.u 0 1)).timeout = r.u 8 4 ∧
      (t.dev.stream (r.u 0 1)).recover = r.u 12 2) := by
  refine sets_of_configure (d := (s.dev.updStream (r.u 0 1) (streamSet r)).stopStream (r.u 0 1))
    (show execStreamConfig ch s = _ from rfl) hr ?_ ?_
  · simp [setStreamConfig, devBody, streamConfig, hk, h0, okWith, ans, stOk]
  · simp [State.answered, State.withDev, Device.stopStream_stream, streamSet]

theorem streamConfig_starts {s : State} {ch : Fin 8} {r : Request} (hr : s.mayConfigure ch setStreamConfig r)
    (hk : r.u 0 1 < 24) (h0 : r.u 1 1 ≠ 0) (h3 : 3 ≤ r.u 2 1) (h16 : r.u 2 1 ≤ 16)
    (hup : s.dev.streamUp (r.u 0 1) = true) (hoff : (s.dev.stream (r.u 0 1)).state = .off)
    (hroom : ((s.dev.updStream (r.u 0 1) (streamSet r)).enableStream (r.u 0 1)).isSome = true) :
    Sets (.streamConfig ch) s ch (fun t =>
      (t.dev.stream (r.u 0 1)).state = .waitFirst ∧ (t.dev.stream (r.u 0 1)).bufs.length = r.u 2 1 ∧
      (t.dev.stream (r.u 0 1)).seq = 0) := by
  obtain ⟨e, he⟩ := Option.isSome_iff_exists.mp hroom
  have hstream : isStream (r.u 0 1) = true := by simp [isStream]; omega
  obtain ⟨hstate, hbufs, hseq⟩ := Device.enableStream_stream hk he
  have hlen : max 3 (r.u 2 1) = r.u 2 1 := Nat.max_eq_right h3
  refine sets_of_configure (d := e) (show execStreamConfig ch s = _ from rfl) hr ?_ ?_
  · simp [setStreamConfig, devBody, streamConfig, hstream, h0, Nat.not_lt.mpr h3, Nat.not_lt.mpr h16, hup, hoff, he, okWith,
      ans, stOk]
  · simpa [State.answered, State.withDev, hstate, hseq, streamSet, hlen] using hbufs

theorem streamStatus_reports {s : State} {ch : Fin 8} {r : Request} (hr : s.holds ch 0x0301 r)
    (hk : isStream (r.u 0 1) = true) : Reports (.streamStatus ch) s ch r (fun p => p.length = 52 ∧
      fieldAt p 0 1 = (s.dev.stream (r.u 0 1)).state.code ∧
      fieldAt p 4 4 = (s.dev.stream (r.u 0 1)).lastSeq % 2 ^ 32) := by
  have hcode : (s.dev.stream (r.u 0 1)).state.code < 256 := by cases (s.dev.stream (r.u 0 1)).state <;> decide
  refine reports_of_query (show execStreamStatus ch s = _ from rfl) hr
    (by simp only [hk, Bool.not_true, Bool.false_eq_true, if_false]; rfl) ⟨?_, ?_, ?_⟩
  · simp
  · simpa [fieldAt_head] using hcode
  · simp [fieldAt_skip, fieldAt_head]

theorem csiPort_sets {s : State} {ch : Fin 8} {r : Request} (hr : s.mayConfigure ch setCsiPort r)
    (hf : csiFieldsOk r = true) (hup : s.dev.csiUp (r.u 0 1) = true) (hoff : (s.dev.stream (r.u 0 1)).state = .off) :
    Sets (.csiPort ch) s ch (fun t => t.dev.csi (r.u 0 1) = csiSet r (s.dev.csi (r.u 0 1))) := by
  refine sets_of_configure (d := s.dev.setCsi (r.u 0 1) (csiSet r (s.dev.csi (r.u 0 1))))
    (show execCsiPort ch s = _ from rfl) hr ?_ (by simp [State.answered, State.withDev])
  simp [setCsiPort, devBody, csiPort, hf, hup, hoff, okWith, ans, stOk]

theorem pairConfig_sets {s : State} {ch : Fin 8} {r : Request} (hr : s.mayConfigure ch setPairConfig r)
    (h1 : r.u 1 1 = 1) (hoff : (s.dev.pair (r.u 0 1)).enabled = false) : Sets (.pairConfig ch) s ch (fun t =>
      t.dev.pair (r.u 0 1) = ⟨true, r.u 4 4, false, none, none, 0, 0, none⟩) := by
  refine sets_of_configure (d := s.dev.setPair (r.u 0 1) ⟨true, r.u 4 4, false, none, none, 0, 0, none⟩)
    (show execPairConfig ch s = _ from rfl) hr ?_ (by simp [State.answered, State.withDev])
  simp [setPairConfig, devBody, pairConfig, h1, hoff, okWith, ans, stOk]

/-- Bytes read big-endian spell less than 256 to their number. -/
theorem beNat_lt (b : List Byte) : beNat b < 256 ^ b.length := by simpa [beNat] using leNat_lt b.reverse

theorem ethPort_sets {s : State} {ch : Fin 8} {r : Request} (hr : s.mayConfigure ch setEthPort r)
    (hup : s.dev.ethUp (r.u 0 1) = true) : Sets (.ethPort ch) s ch (fun t =>
      (t.dev.eth (r.u 0 1)).vlanOwn = r.u 2 2 ∧ (t.dev.eth (r.u 0 1)).bulkUdp = r.u 8 2 ∧
      (t.dev.eth (r.u 0 1)).ipv4.toNat = beNat ((r.body.drop 4).take 4)) := by
  have hfour : ((r.body.drop 4).take 4).length ≤ 4 := List.length_take_le _ _
  have hlt : beNat ((r.body.drop 4).take 4) < 2 ^ 32 := Nat.lt_of_lt_of_le (beNat_lt _) (Nat.pow_le_pow_right (by decide) hfour)
  refine sets_of_configure (d := s.dev.updEth (r.u 0 1) fun e => { e with
      vlanOwn := r.u 2 2, ipv4 := BitVec.ofNat 32 (beNat (r.bytes 4 4)), bulkUdp := r.u 8 2
      ipv6 := BitVec.ofNat 128 (beNat (r.bytes 12 16)) }) (show execEthPort ch s = _ from rfl) hr ?_ ?_
  · simp [setEthPort, devBody, ethPort, hup, okWith, ans, stOk]
  · simpa [State.answered, State.withDev, Request.bytes] using hlt

theorem ethStatus_reports {s : State} {ch : Fin 8} {r : Request} (hr : s.holds ch 0x0305 r) :
    Reports (.ethStatus ch) s ch r (fun p => p.length = 48 ∧
      beNat (p.take 6) = (s.dev.macOf (r.u 0 1)).toNat ∧ fieldAt p 8 8 = (s.dev.eth (r.u 0 1)).rx % 2 ^ 64) := by
  refine reports_of_query (show execEthStatus ch s = _ from rfl) hr rfl ⟨?_, ?_, ?_⟩
  · simp
  · simp only [List.append_assoc]
    rw [List.take_left' (length_beBytes 6 _), beNat_beBytes (s.dev.macOf (r.u 0 1)).isLt]
  · simp [fieldAt_skip, fieldAt_head]

theorem lidarStream_sets {s : State} {ch : Fin 8} {r : Request} (hr : s.mayConfigure ch setLidarStream r)
    (hoff : (s.dev.stream (r.u 0 1)).state = .off) : Sets (.lidarStream ch) s ch (fun t =>
      t.dev.lidar (r.u 0 1) = lidarSet r (s.dev.lidar (r.u 0 1))) := by
  refine sets_of_configure (d := s.dev.setLidar (r.u 0 1) (lidarSet r (s.dev.lidar (r.u 0 1))))
    (show execLidarStream ch s = _ from rfl) hr ?_ (by simp [State.answered, State.withDev])
  simp [setLidarStream, devBody, lidarStream, hoff, okWith, ans, stOk]

theorem imuPort_sets {s : State} {ch : Fin 8} {r : Request} (hr : s.mayConfigure ch setImuPort r)
    (hf : imuFieldsOk r = true) (hd : s.dev.pwr.dieOn.getLsbD (2 * r.u 0 1) = true)
    (hoff : (s.dev.stream (24 + r.u 0 1)).state = .off) : Sets (.imuPort ch) s ch (fun t =>
      t.dev.imu (r.u 0 1) = imuSet r (s.dev.imu (r.u 0 1))) := by
  refine sets_of_configure (d := s.dev.setImu (r.u 0 1) (imuSet r (s.dev.imu (r.u 0 1))))
    (show execImuPort ch s = _ from rfl) hr ?_ (by simp [State.answered, State.withDev])
  simp [setImuPort, devBody, imuPort, hf, hd, hoff, okWith, ans, stOk]

theorem encConfig_sets {s : State} {ch : Fin 8} {r : Request} (hr : s.mayConfigure ch setEncConfig r)
    (h0 : r.u 1 1 = 0) (hd : s.dev.pwr.dieOn.getLsbD (r.u 0 1) = true) : Sets (.encConfig ch) s ch (fun t =>
      (t.dev.enc (r.u 0 1)).mode = 0 ∧ (t.dev.enc (r.u 0 1)).cpr = r.u 4 4 ∧
        (t.dev.stream (128 + r.u 0 1)).state = .off) := by
  refine sets_of_configure (d := (s.dev.setEnc (r.u 0 1) { s.dev.enc (r.u 0 1) with
      mode := 0, flags := r.u 2 1, glitch := r.u 3 1, cpr := r.u 4 4, rate := r.u 8 4 }).stopStream (128 + r.u 0 1))
    (show execEncConfig ch s = _ from rfl) hr ?_ ?_
  · simp [setEncConfig, devBody, encConfig, h0, hd, okWith, ans, stOk]
  · simp [State.answered, State.withDev, Device.stopStream_stream, Device.stopStream_enc]

theorem canController_sets {s : State} {ch : Fin 8} {r : Request} (hr : s.mayConfigure ch setCanController r)
    (hon : r.u 1 1 = 1) (hmin : 125000 ≤ r.u 4 4) (hmax : r.u 4 4 ≤ 1000000) (hfd : r.u 2 1 = 0) (hn : r.u 12 2 ≤ 1000)
    (hdp : r.u 14 2 ≤ 1000) (hd : s.dev.pwr.dieOn.getLsbD 0 = true) : Sets (.canController ch) s ch (fun t =>
      (t.dev.can (r.u 0 1)).enable = true ∧ (t.dev.can (r.u 0 1)).fd = false ∧
        (t.dev.can (r.u 0 1)).nomRate = r.u 4 4) := by
  refine sets_of_configure (d := s.dev.setCan (r.u 0 1) { s.dev.can (r.u 0 1) with
      enable := true, fd := false, tdc := r.u 3 1, nomRate := r.u 4 4, dataRate := r.u 8 4, nomSp := r.u 12 2
      dataSp := r.u 14 2 }) (show execCanController ch s = _ from rfl) hr ?_ (by simp [State.answered, State.withDev])
  have hd' : s.dev.pwr.dieOn[0] = true := hd
  simp [setCanController, devBody, canController, hon, Nat.not_lt.mpr hmin, Nat.not_lt.mpr hmax, hfd, Nat.not_lt.mpr hn,
    Nat.not_lt.mpr hdp, hd', okWith, ans, stOk]

theorem canFilter_sets {s : State} {ch : Fin 8} {r : Request} (hr : s.mayConfigure ch setCanFilter r)
    (hsig : (List.range (r.u 3 1)).all (canSignalOk r) = true) : Sets (.canFilter ch) s ch (fun t =>
      ∃ f, (t.dev.can (r.u 0 1)).filters.look (r.u 1 1) = some f ∧ f.id = r.u 4 4 ∧ f.mask = r.u 8 4 ∧
        f.signals.length = r.u 3 1) := by
  refine sets_of_configure (d := s.dev.setCan (r.u 0 1) { s.dev.can (r.u 0 1) with
      filters := (s.dev.can (r.u 0 1)).filters.put (r.u 1 1) ⟨bit (r.u 2 1) 0, bit (r.u 2 1) 1, r.u 4 4, r.u 8 4,
        (List.range (r.u 3 1)).map (canSignal r)⟩ }) (show execCanFilter ch s = _ from rfl) hr ?_ ?_
  · simp [setCanFilter, devBody, canFilter, hsig, okWith, ans, stOk]
  · simp [State.answered, State.withDev]

@[simp] theorem Device.markBulk_ing (d : Device) (id : Nat) (on : Bool) : (d.markBulk id on).ing = d.ing := by
  unfold Device.markBulk
  split <;> rfl

theorem bulkOpen_accepts {s : State} {ch : Fin 8} {r : Request} {b : Buffer} (hr : s.holds ch 0x030B r)
    (hpath : r.u 0 1 = 0) (hport : r.u 1 1 < 16) (hhost : isHostBuf (r.u 4 4) = true) (hb : s.dev.buf (r.u 4 4) = some b)
    (hsize : r.u 8 8 + r.u 16 4 ≤ b.size) (hup : s.dev.csiUp (r.u 1 1) = true) (hlost : b.lost = false)
    (hheld : s.dev.bufHeld (r.u 4 4) b = false) (hfew : s.dev.ing.bulk.length < 4)
    (hroom : s.dev.mbx.handles.length < 256) : Accepts (.bulkOpen ch) s ch (fun h t =>
        t.mem = s.mem ∧ t.dev.ing.bulk = s.dev.ing.bulk ++
          [⟨h, 0, r.u 1 1, r.u 4 4, r.u 8 8, r.u 16 4, r.u 20 4, []⟩]) := by
  refine accepts_of_command (k := fun h d => Device.markBulk { d with ing := { d.ing with
      bulk := d.ing.bulk ++ [⟨h, 0, r.u 1 1, r.u 4 4, r.u 8 8, r.u 16 4, r.u 20 4, []⟩] } } (r.u 4 4) true)
    (show execBulkOpen ch s = _ from rfl) hr hroom ?_ fun h _ => ?_
  · simp [hb, hpath, Nat.not_le.mpr hport, hhost, Nat.not_lt.mpr hsize, hup, hlost, hheld, Nat.not_le.mpr hfew]
  · simp [State.answered, State.withDev]

/-- Settles O25. -/
theorem ingestCommandsConfigure : Obligations.IngestCommandsConfigure := fun _ _ _ =>
  ⟨streamConfig_stops, streamConfig_starts, streamStatus_reports, csiPort_sets, pairConfig_sets, ethPort_sets,
    ethStatus_reports, lidarStream_sets, imuPort_sets, encConfig_sets, canController_sets, canFilter_sets,
    fun _ => bulkOpen_accepts⟩

end Sys2Proof.Machine
end

section
/-! SUPPORT. CSI-2 receive (O26). -/

namespace Sys2Proof.Machine

/-! ## Ports and newest frames, as they were -/

/-- Ports as they were, and each stream's newest frame. -/
structure Device.SameFrames (d e : Device) : Prop where
  csi : e.ing.csi = d.ing.csi
  lastSeq : ∀ k, (e.stream k).lastSeq = (d.stream k).lastSeq

theorem Device.SameFrames.of_ing {d e : Device} (h : e.ing = d.ing) : d.SameFrames e :=
  ⟨by rw [h], fun k => by rw [Device.stream, h]; rfl⟩

theorem Device.SameFrames.trans {a b c : Device} (h : a.SameFrames b) (k : b.SameFrames c) : a.SameFrames c :=
  ⟨k.csi.trans h.csi, fun i => (k.lastSeq i).trans (h.lastSeq i)⟩

theorem Device.sameFrames_ite {d : Device} {c : Prop} [Decidable c] {x y : Device × Store} (hx : d.SameFrames x.1)
    (hy : d.SameFrames y.1) : d.SameFrames (if c then x else y).1 := by
  split
  · exact hx
  · exact hy

/-- A stream changed is as it is changed, and every other as it was. -/
theorem Device.stream_updStream_other {d : Device} {k j : Nat} (h : j ≠ k) (f : Stream → Stream) :
    (d.updStream k f).stream j = d.stream j := by
  simp [Device.stream, Device.updStream, Tbl.upd, Tbl.getD_put_other _ _ _ _ _ h]

theorem Device.sameFrames_updStream {d : Device} {k : Nat} {f : Stream → Stream} (hf : ∀ x, (f x).lastSeq = x.lastSeq) :
    d.SameFrames (d.updStream k f) := by
  refine ⟨rfl, fun j => ?_⟩
  by_cases h : j = k
  · rw [h, Device.stream_updStream, hf]
  · rw [Device.stream_updStream_other h]

theorem Device.sameFrames_setPair (d : Device) (k : Nat) (x : Pair) : d.SameFrames (d.setPair k x) := ⟨rfl, fun _ => rfl⟩

@[simp] theorem fwWrite_ing (id o : Nat) (bs : List Byte) (d : Device) (m : Store) : (fwWrite id o bs d m).1.ing = d.ing :=
  (show d.agrees [.memsys] (fwWrite id o bs d m).1 by simp).ing (by decide)

@[simp] theorem fwWrite_evt (id o : Nat) (bs : List Byte) (d : Device) (m : Store) : (fwWrite id o bs d m).1.evt = d.evt :=
  (show d.agrees [.memsys] (fwWrite id o bs d m).1 by simp).evt (by decide)

theorem Device.sameFrames_releaseUnpaired (d : Device) (h : HeldFrame) : d.SameFrames (d.releaseUnpaired h) :=
  (Device.sameFrames_updStream (d := d) (k := h.stream) (f := fun x => { x with
    unpaired := min (x.unpaired + 1) 0xFFFFFFFF }) fun _ => rfl).trans (Device.sameFrames_setPair _ _ _)

theorem setPartner_sameFrames (a b c x y : Nat) (d : Device) (m : Store) :
    d.SameFrames (setPartner a b c x y d m).1 := by
  unfold setPartner
  dsimp only
  split
  · split
    · exact .of_ing rfl
    · refine Device.SameFrames.trans ?_ (.of_ing (fwWrite_ing _ _ _ _ _))
      exact Device.sameFrames_updStream fun _ => rfl
  · exact .of_ing rfl

theorem joinPair_sameFrames (f g : HeldFrame) (d : Device) (m : Store) : d.SameFrames (joinPair f g d m).1 := by
  unfold joinPair
  dsimp only
  have hpart := (setPartner_sameFrames f.stream f.slot f.seq g.stream g.seq d m).trans
    (setPartner_sameFrames g.stream g.slot g.seq f.stream f.seq (setPartner f.stream f.slot f.seq g.stream g.seq d m).1
      (setPartner f.stream f.slot f.seq g.stream g.seq d m).2)
  refine Device.sameFrames_ite ?_ ?_
  · refine Device.SameFrames.trans ?_ (.of_ing (Device.event_ing _ _ _ _ _ _))
    refine Device.SameFrames.trans ?_ (Device.sameFrames_updStream fun _ => rfl)
    exact hpart.trans (Device.sameFrames_setPair _ _ _)
  · exact hpart.trans (Device.sameFrames_setPair _ _ _)

theorem offerPair_sameFrames (f : HeldFrame) (d : Device) (m : Store) : d.SameFrames (offerPair f d m).1 := by
  unfold offerPair
  dsimp only
  split
  · exact .of_ing rfl
  · split
    · exact d.sameFrames_setPair _ _
    · split
      · exact joinPair_sameFrames _ _ _ _
      · exact (d.sameFrames_releaseUnpaired _).trans (Device.sameFrames_setPair _ _ _)

theorem Device.updStream_csi (d : Device) (k : Nat) (f : Stream → Stream) : (d.updStream k f).ing.csi = d.ing.csi := rfl

theorem Device.judge_csi (d : Device) (k : Nat) (usable : Bool) : (d.judge k usable).ing.csi = d.ing.csi := by
  unfold Device.judge
  dsimp only
  split
  · rfl
  · split <;> simp [Device.streamTo, Device.updStream]
  · split <;> rfl
  · rfl

/-- A frame that closes leaves its port (R241), and is the newest of its stream where it had a buffer. -/
theorem closeFrame_leaves (p : Nat) (incomplete : Bool) (d : Device) (m : Store) :
    ((closeFrame p incomplete d m).1.csi p).frame = none ∧ ∀ f k, (d.csi p).frame = some f → f.slot = some k →
      ((closeFrame p incomplete d m).1.stream p).lastSeq = f.seq := by
  unfold closeFrame
  dsimp only
  split
  · next h => exact ⟨h, fun f k hf => by rw [h] at hf; cases hf⟩
  · next f hf =>
    split
    · next hs =>
      refine ⟨by simp, fun g k hg hk => ?_⟩
      rw [Option.some.inj (hf.symm.trans hg), hk] at hs
      cases hs
    · next slot hs =>
      refine ⟨?_, fun g k hg _ => ?_⟩
      · rw [Device.csi, (offerPair_sameFrames _ _ _).csi, Device.updStream_csi, fwWrite_ing, Device.judge_csi]
        simp [Device.setCsi]
      · rw [(offerPair_sameFrames _ _ _).lastSeq, Device.stream_updStream, Option.some.inj (hf.symm.trans hg)]

/-! ## Packets -/

/-- Carrying the clock forward moves the clock and diagnostics, and nothing else. -/
theorem Device.advanceTo_eq (d : Device) (moment : Nat) : ∃ x n dt, d.advanceTo moment = { d with
    diag := x, time := { d.time with now := n, dt := dt } } := by
  unfold Device.advanceTo
  split
  · unfold Device.advance Device.diagAdd
    dsimp only
    split
    · exact ⟨_, _, _, rfl⟩
    · exact ⟨d.diag, _, _, rfl⟩
  · exact ⟨d.diag, d.time.now, d.time.dt, rfl⟩

/-- A header that is clean is taken as it stands (R236). -/
@[simp] theorem Device.csiHeader_clean (d : Device) (p vc dt : Nat) : d.csiHeader p 0 vc dt = d := rfl

/-- A frame that starts takes the stream's next SEQ. -/
theorem Device.openFrame_starts (d : Device) (p num : Nat) :
    ((d.openFrame p num).stream p).seq = ((d.stream p).seq + 1) % 2 ^ 32 ∧
      ∃ f, ((d.openFrame p num).csi p).frame = some f ∧ f.frameNum = num ∧ f.pos = 0 ∧ f.seq = (d.stream p).seq := by
  unfold Device.openFrame
  refine ⟨?_, ?_⟩
  · rw [Device.stream_updStream]
    rfl
  · rw [Device.csi, Device.updStream_csi]
    simp [Device.setCsi]

theorem csiFrameStart_opens {s : State} {p : Fin 16} (ht : s.dev.csiTakes p.val = true) {num moment : Nat}
    (hf : (s.dev.csi p.val).frame = none) :
    Completes (.csiFrameStart p (s.dev.csi p.val).vc num 0 moment) s (fun t => t.mem = s.mem ∧
      (t.dev.stream p.val).seq = ((s.dev.stream p.val).seq + 1) % 2 ^ 32 ∧
      ∃ f, (t.dev.csi p.val).frame = some f ∧ f.frameNum = num ∧ f.pos = 0 ∧ f.seq = (s.dev.stream p.val).seq) := by
  obtain ⟨e, he⟩ : ∃ e, e = s.dev.advanceTo moment := ⟨_, rfl⟩
  obtain ⟨x, n, dt, hx⟩ := s.dev.advanceTo_eq moment
  have htakes : e.csiTakes p.val = true := by rw [he, hx]; exact ht
  have hcsi : e.csi p.val = s.dev.csi p.val := by rw [he, hx]; rfl
  have hstream : e.stream p.val = s.dev.stream p.val := by rw [he, hx]; rfl
  refine ⟨s.withAll (e.openFrame p.val num) s.mem, ?_, rfl, rfl, ?_⟩
  · change execCsiFrameStart p (s.dev.csi p.val).vc num 0 moment s = _
    simp [execCsiFrameStart, onBoth_next, ← he, htakes, hcsi, hf]
  · rw [← hstream]
    exact e.openFrame_starts p.val num

/-- A whole line moves its frame on by one line, masks none and logs nothing (R238). -/
theorem landLine_whole {d : Device} {m : Store} {p : Nat} {f : OpenFrame} {pixels : List Nat} {words : Nat}
    (hf : (d.csi p).frame = some f) (hpos : f.pos < (d.csi p).height) (hwidth : pixels.length = (d.csi p).width) :
    ∃ g, ((landLine p true pixels words d m).1.csi p).frame = some g ∧ g.pos = f.pos + 1 ∧ g.linesRx = f.linesRx + 1 ∧
      g.masked = f.masked ∧ (landLine p true pixels words d m).1.evt = d.evt := by
  refine ⟨{ f with pos := f.pos + 1, linesRx := f.linesRx + 1 }, ?_⟩
  unfold landLine
  simp only [hf, Nat.not_le.mpr hpos, hwidth, Nat.lt_irrefl, if_false, if_true, decide_false, Bool.or_self, Bool.not_true,
    Bool.false_eq_true]
  split
  · exact ⟨by rw [Device.csi_setCsi], trivial, trivial, trivial, rfl⟩
  · refine ⟨?_, trivial, trivial, trivial, ?_⟩
    · rw [Device.csi, fwWrite_ing, Device.updStream_csi]
      simp [Device.setCsi]
    · rw [fwWrite_evt]
      rfl

theorem csiLinePacket_lands {s : State} {p : Fin 16} (ht : s.dev.csiTakes p.val = true) {f : OpenFrame}
    {pixels : List Nat} {words : Nat} (hf : (s.dev.csi p.val).frame = some f) (hpos : f.pos < (s.dev.csi p.val).height)
    (hwidth : pixels.length = (s.dev.csi p.val).width) :
    Completes (.csiLinePacket p (s.dev.csi p.val).vc (s.dev.csi p.val).dt 0 true pixels words) s (fun t =>
      ∃ g, (t.dev.csi p.val).frame = some g ∧ g.pos = f.pos + 1 ∧ g.linesRx = f.linesRx + 1 ∧ g.masked = f.masked ∧
        t.dev.evt = s.dev.evt) := by
  refine ⟨s.withAll (landLine p.val true pixels words s.dev s.mem).1 (landLine p.val true pixels words s.dev s.mem).2,
    ?_, State.withAll_pending _ _ _, landLine_whole hf hpos hwidth⟩
  change execCsiLinePacket p _ _ 0 true pixels words s = _
  simp [execCsiLinePacket, onBoth_next, ht]

theorem csiEmbeddedData_reads {s : State} {p : Fin 16} (ht : s.dev.csiTakes p.val = true) {f : OpenFrame}
    {bytes : List Byte} (hf : (s.dev.csi p.val).frame = some f) (hpos : f.pos = 0) (hrx : f.linesRx = 0)
    (hexpo : f.expo = none) (hoff : (s.dev.csi p.val).embOff ≠ 0xFFFF)
    (hlen : (s.dev.csi p.val).embOff + (s.dev.csi p.val).embLen ≤ bytes.length) :
    Completes (.csiEmbeddedData p (s.dev.csi p.val).vc 0 bytes) s (fun t => t.mem = s.mem ∧
      ∃ g, (t.dev.csi p.val).frame = some g ∧ g.expo.isSome = true) := by
  refine ⟨_, (show execCsiEmbeddedData p (s.dev.csi p.val).vc 0 bytes s = _ from rfl), rfl, rfl, ?_⟩
  simp [ht, hf, hpos, hrx, hexpo, hoff, hlen]

theorem csiFrameEnd_closes {s : State} {p : Fin 16} (ht : s.dev.csiTakes p.val = true) {f : OpenFrame} {moment : Nat}
    (hf : (s.dev.csi p.val).frame = some f) :
    Completes (.csiFrameEnd p (s.dev.csi p.val).vc 0 moment) s (fun t => (t.dev.csi p.val).frame = none ∧
        (∀ k, f.slot = some k → (t.dev.stream p.val).lastSeq = f.seq)) := by
  obtain ⟨e, he⟩ : ∃ e, e = s.dev.advanceTo moment := ⟨_, rfl⟩
  obtain ⟨x, n, dt, hx⟩ := s.dev.advanceTo_eq moment
  have htakes : e.csiTakes p.val = true := by rw [he, hx]; exact ht
  have hcsi : e.csi p.val = s.dev.csi p.val := by rw [he, hx]; rfl
  obtain ⟨y, hy⟩ : ∃ y, y = closeFrame p.val false e s.mem := ⟨_, rfl⟩
  obtain ⟨hnone, hlast⟩ := closeFrame_leaves p.val false e s.mem
  rw [← hy] at hnone hlast
  refine ⟨s.withAll y.1 y.2, ?_, State.withAll_pending _ _ _, hnone, fun k hk => hlast f k (hcsi ▸ hf) hk⟩
  change execCsiFrameEnd p (s.dev.csi p.val).vc 0 moment s = _
  simp [execCsiFrameEnd, onBoth_next, ← he, htakes, hcsi, ← hy]

@[simp] theorem fwWrite_mbx (id o : Nat) (bs : List Byte) (d : Device) (m : Store) : (fwWrite id o bs d m).1.mbx = d.mbx :=
  (show d.agrees [.memsys] (fwWrite id o bs d m).1 by simp).mbx (by decide)

@[simp] theorem Device.markBulk_mbx (d : Device) (id : Nat) (on : Bool) : (d.markBulk id on).mbx = d.mbx := by
  unfold Device.markBulk
  split <;> rfl

@[simp] theorem Device.markBulk_evt (d : Device) (id : Nat) (on : Bool) : (d.markBulk id on).evt = d.evt := by
  unfold Device.markBulk
  split <;> rfl

/-- A bulk transfer that ends is no longer open, and its handle is final (R275). -/
theorem Device.bulkEnd_ends {d : Device} {x : Bulk} {hd : Handle} (hx : d.mbx.handles.look x.handle = some hd)
    (hf : hd.final = none) (st : Nat) : (∀ y ∈ (d.bulkEnd x st).ing.bulk, y.handle ≠ x.handle) ∧
      (((d.bulkEnd x st).mbx.handles.look x.handle).bind (·.final)).isSome = true ∧
      (d.bulkEnd x st).evt.ringWr = (d.evt.ringWr + 1) % 512 := by
  obtain ⟨e, he⟩ : ∃ e : Device, e = Device.markBulk { d with ing := { d.ing with
    bulk := d.ing.bulk.filter fun y => y.handle != x.handle } } x.buf false := ⟨_, rfl⟩
  have hing : e.ing.bulk = d.ing.bulk.filter fun y => y.handle != x.handle := by rw [he, Device.markBulk_ing]
  have hmbx : e.mbx = d.mbx := by rw [he, Device.markBulk_mbx]
  have hevt : e.evt = d.evt := by rw [he, Device.markBulk_evt]
  have hend : d.bulkEnd x st = e.finish x.handle st [] := by rw [he]; rfl
  have hx' : e.mbx.handles.look x.handle = some hd := by rw [hmbx]; exact hx
  obtain ⟨-, hring, -⟩ := Device.finish_pending (st := st) (b := []) hx' hf
  have hfinal := Device.finish_ended e x.handle st [] hd hx' hf
  rw [hend]
  refine ⟨fun y hy => ?_, ?_, by rw [hring, hevt]⟩
  · rw [Device.finish_ing, hing] at hy
    simpa using (List.mem_filter.mp hy).2
  · rw [Device.ended] at hfinal
    rw [hfinal]
    rfl

/-- The one packet of a transfer carries all of it (R275). -/
theorem bulkPacket_whole {d : Device} {m : Store} {port : Nat} {bs : List Byte} {x : Bulk} {hd : Handle}
    (hfind : d.ing.bulk.find? (fun y => y.handle == fieldAt bs 4 4 && y.path == 0 && y.port == port) = some x)
    (hgot : x.got = []) (hmagic : fieldAt bs 0 2 = 0x4B42) (hoff : fieldAt bs 8 8 = 0) (hlen : fieldAt bs 2 2 = x.length)
    (hpos : 0 < x.length) (hfits : 16 + x.length ≤ bs.length) (hx : d.mbx.handles.look x.handle = some hd)
    (hcancel : hd.cancel = false) :
    ∃ (e : Device) (n : Store) (y : Bulk) (st : Nat), bulkPacket 0 port bs d m = some (e.bulkEnd y st, n) ∧ y.handle = x.handle ∧ e.mbx = d.mbx ∧
      e.evt = d.evt := by
  have hmagic' : leNat ((bs.drop 0).take 2) = 0x4B42 := hmagic
  have hoff' : leNat ((bs.drop 8).take 8) = 0 := hoff
  have hlen' : leNat ((bs.drop 2).take 2) = x.length := hlen
  have hfind' : d.ing.bulk.find? (fun y => y.handle == leNat ((bs.drop 4).take 4) && y.path == 0 && y.port == port) = some x :=
    hfind
  unfold bulkPacket
  simp only [hfind', hmagic', hoff', hlen', hgot, hx, hcancel, addRange, Nat.zero_add, Nat.not_lt.mpr hfits, Nat.lt_irrefl, Nat.zero_mod,
    Nat.ne_of_gt hpos, ne_eq, not_true, decide_false, Bool.or_false, Bool.and_false, Bool.false_eq_true, if_false, if_true,
    Option.map_some, Option.getD_some]
  exact ⟨_, _, _, _, rfl, rfl, fwWrite_mbx _ _ _ _ _, fwWrite_evt _ _ _ _ _⟩

theorem csiBulkPacket_completes {s : State} {p : Fin 16} (ht : s.dev.csiTakes p.val = true) {bytes : List Byte} {dt : Nat}
    {x : Bulk} {hd : Handle} (hvc : (s.dev.csi p.val).bulkVc ≠ 0xFF) (hlo : 0x30 ≤ dt) (hhi : dt ≤ 0x37)
    (hfind : s.dev.ing.bulk.find? (fun y => y.handle == fieldAt bytes 4 4 && y.path == 0 && y.port == p.val) = some x)
    (hgot : x.got = []) (hmagic : fieldAt bytes 0 2 = 0x4B42) (hoff : fieldAt bytes 8 8 = 0)
    (hlen : fieldAt bytes 2 2 = x.length) (hpos : 0 < x.length) (hfits : 16 + x.length ≤ bytes.length)
    (hx : s.dev.mbx.handles.look x.handle = some hd) (hf : hd.final = none) (hcancel : hd.cancel = false) :
    Completes (.csiBulkPacket p (s.dev.csi p.val).bulkVc dt 0 bytes) s (fun t =>
        (∀ y ∈ t.dev.ing.bulk, y.handle ≠ x.handle) ∧
        ((t.dev.mbx.handles.look x.handle).bind (·.final)).isSome = true ∧
        t.dev.evt.ringWr = (s.dev.evt.ringWr + 1) % 512) := by
  obtain ⟨e, n, y, st, hy, hh, hmbx, hevt⟩ := bulkPacket_whole (m := s.mem) hfind hgot hmagic hoff hlen hpos hfits hx hcancel
  have hup : s.dev.csiUp p.val = true := by
    simp only [Device.csiTakes, Bool.and_eq_true] at ht
    exact ht.2
  obtain ⟨hbulk, hfinal, hring⟩ := Device.bulkEnd_ends (d := e) (x := y) (by rw [hmbx, hh]; exact hx) hf st
  refine ⟨s.withAll (e.bulkEnd y st) n, ?_, State.withAll_pending _ _ _, ?_⟩
  · change execCsiBulkPacket p _ dt 0 bytes s = _
    simp [execCsiBulkPacket, onBoth_next, hup, hvc, Nat.not_lt.mpr hlo, Nat.not_lt.mpr hhi, hy]
  · rw [hh] at hbulk hfinal
    rw [hevt] at hring
    exact ⟨hbulk, hfinal, hring⟩

theorem frameTimeout_closes {s : State} {p : Fin 16} {f : OpenFrame} (hf : (s.dev.csi p.val).frame = some f) :
    Completes (.frameTimeout p) s (fun t => (t.dev.csi p.val).frame = none ∧
      f.startAt + (s.dev.csi p.val).frameTimeout * 1000 * oneNs ≤ t.dev.time.now) := by
  obtain ⟨due, hdue⟩ : ∃ n, n = f.startAt + (s.dev.csi p.val).frameTimeout * 1000 * oneNs := ⟨_, rfl⟩
  obtain ⟨e, he⟩ : ∃ e, e = s.dev.advanceTo due := ⟨_, rfl⟩
  have hreach : due ≤ e.time.now := he ▸ Device.le_now_advanceTo _ _
  obtain ⟨y, hy⟩ : ∃ y, y = closeFrame p.val true (e.csiLog p.val 0x04 f.linesRx) s.mem := ⟨_, rfl⟩
  have hnone := (closeFrame_leaves p.val true (e.csiLog p.val 0x04 f.linesRx) s.mem).1
  have htime : y.1.time = e.time :=
    (show e.agrees [.evt, .memsys, .ing] y.1 by rw [hy]; simp).time (by decide)
  rw [← hy] at hnone
  rw [← hdue]
  refine ⟨s.withAll y.1 y.2, ?_, State.withAll_pending _ _ _, hnone, ?_⟩
  · change execFrameTimeout p s = _
    simp only [execFrameTimeout, onBoth_next, hf, ← hdue, ← he, ← hy]
  · rw [State.withAll_dev, htime]
    exact hreach

/-- Settles O26. -/
theorem csiPacketsReceived : Obligations.CsiPacketsReceived := fun _ _ ht =>
  ⟨fun _ _ => csiFrameStart_opens ht, fun _ _ _ => csiLinePacket_lands ht, fun _ _ => csiEmbeddedData_reads ht,
    fun _ _ => csiFrameEnd_closes ht, fun _ => frameTimeout_closes, fun _ _ _ _ => csiBulkPacket_completes ht⟩

end Sys2Proof.Machine
end

section
/-! SUPPORT. Pairs and streams lost and back (O27). -/

namespace Sys2Proof.Machine

/-- An event of a cause sets it. -/
theorem Device.event_cause (d : Device) {cause : Nat} (h : cause < 13) (code unit p0 p1 : Nat) :
    (d.event code cause unit p0 p1).evt.cause.getLsbD cause = true := by
  obtain ⟨c, _, _, _, hev, hc⟩ := d.event_evt h code unit p0 p1
  rw [hev]
  exact hc

@[simp] theorem Device.event_pair (d : Device) (code cause unit p0 p1 k : Nat) :
    (d.event code cause unit p0 p1).pair k = d.pair k := by simp [Device.pair]

theorem pairLost_loses {s : State} {p : Fin 8} (hen : (s.dev.pair p.val).enabled = true)
    (hlost : (s.dev.pair p.val).lost = false) (hrun : 8 ≤ (s.dev.pair p.val).unpairedRun) :
    Completes (.pairLost p) s (fun t => t.dev.pair p.val = { s.dev.pair p.val with lost := true, pairRun := 0 } ∧
      t.dev.evt.cause.getLsbD 6 = true ∧ t.mem = s.mem) := by
  obtain ⟨d, hd⟩ : ∃ d : Device, d = s.dev.setPair p.val { s.dev.pair p.val with lost := true, pairRun := 0 } := ⟨_, rfl⟩
  refine ⟨s.withDev (d.event 0x0003 6 p.val 2 0), ?_, rfl, ?_, Device.event_cause _ (by decide) _ _ _ _, rfl⟩
  · change execPairLost p s = _
    simp only [execPairLost, onDev_next, hen, hlost, hrun, Bool.not_false, decide_true, Bool.and_self, if_true, hd]
  · rw [State.withDev_dev, Device.event_pair, hd, Device.pair_setPair]

theorem pairRecover_recovers {s : State} {p : Fin 8} (hen : (s.dev.pair p.val).enabled = true)
    (hlost : (s.dev.pair p.val).lost = true) (hrun : 3 ≤ (s.dev.pair p.val).pairRun) :
    Completes (.pairRecover p) s (fun t =>
      t.dev.pair p.val = { s.dev.pair p.val with lost := false, unpairedRun := 0 } ∧
      t.dev.evt.cause.getLsbD 6 = true ∧ t.mem = s.mem) := by
  obtain ⟨d, hd⟩ : ∃ d : Device, d = s.dev.setPair p.val { s.dev.pair p.val with lost := false, unpairedRun := 0 } :=
    ⟨_, rfl⟩
  refine ⟨s.withDev (d.event 0x0003 6 p.val 1 0), ?_, rfl, ?_, Device.event_cause _ (by decide) _ _ _ _, rfl⟩
  · change execPairRecover p s = _
    simp only [execPairRecover, onDev_next, hen, hlost, hrun, decide_true, Bool.and_self, if_true, hd]
  · rw [State.withDev_dev, Device.event_pair, hd, Device.pair_setPair]

/-- A stream that changes its state has it, raises SENSOR, and is as it was otherwise (R230). -/
theorem Device.streamTo_changes (d : Device) (k : Nat) (st : StreamState) :
    (d.streamTo k st).stream k = { d.stream k with state := st } ∧ (d.streamTo k st).evt.cause.getLsbD 6 = true ∧
      (d.streamTo k st).time = d.time := by
  unfold Device.streamTo
  refine ⟨?_, Device.event_cause _ (by decide) _ _ _ _, by simp⟩
  rw [Device.stream, Device.event_ing]
  exact Device.stream_updStream d k _

theorem streamDropout_drops {s : State} {k : Nat} (hk : k < 30) (ht : s.dev.streamTimeout k ≠ 0)
    (ha : (s.dev.stream k).state = .active) : Completes (.streamDropout k) s (fun t =>
      (t.dev.stream k).state = .dropout ∧ (t.dev.stream k).dropouts = min ((s.dev.stream k).dropouts + 1) 0xFFFFFFFF ∧
      (s.dev.stream k).timerAt + s.dev.streamTimeout k ≤ t.dev.time.now ∧ t.dev.evt.cause.getLsbD 6 = true ∧
      t.mem = s.mem) := by
  obtain ⟨due, hdue⟩ : ∃ n, n = (s.dev.stream k).timerAt + s.dev.streamTimeout k := ⟨_, rfl⟩
  obtain ⟨e, he⟩ : ∃ e, e = s.dev.advanceTo due := ⟨_, rfl⟩
  have hreach : due ≤ e.time.now := he ▸ Device.le_now_advanceTo _ _
  have hstream : e.stream k = s.dev.stream k := by
    obtain ⟨x, n, dt, hx⟩ := s.dev.advanceTo_eq due
    rw [he, hx]
    rfl
  obtain ⟨d, hd⟩ : ∃ d : Device, d = e.updStream k fun x => { x with
    good := 0, dropouts := min (x.dropouts + 1) 0xFFFFFFFF } := ⟨_, rfl⟩
  obtain ⟨hto, hcause, htime⟩ := d.streamTo_changes k .dropout
  rw [← hdue]
  refine ⟨s.withDev (d.streamTo k .dropout), ?_, rfl, ?_⟩
  · change execStreamDropout k s = _
    simp [execStreamDropout, onDev_next, hk, ht, ha, ← hdue, ← he, hd]
  · dsimp only [State.withDev_dev]
    rw [hto, htime]
    refine ⟨rfl, ?_, ?_, hcause, rfl⟩
    · simp only [hd, Device.stream_updStream, hstream]
    · rw [hd]
      exact hreach

theorem streamRecover_recovers {s : State} {k : Nat} (hk : k < 30) (hdrop : (s.dev.stream k).state = .dropout)
    (hgood : s.dev.streamRecover k ≤ (s.dev.stream k).good) :
    Completes (.streamRecover k) s (fun t => (t.dev.stream k).state = .active ∧ (t.dev.stream k).good = 0 ∧
        t.dev.evt.cause.getLsbD 6 = true ∧ t.mem = s.mem) := by
  obtain ⟨d, hd⟩ : ∃ d : Device, d = s.dev.updStream k fun x => { x with good := 0, timerAt := s.dev.time.now } :=
    ⟨_, rfl⟩
  obtain ⟨hto, hcause, -⟩ := d.streamTo_changes k .active
  refine ⟨s.withDev (d.streamTo k .active), ?_, rfl, ?_⟩
  · change execStreamRecover k s = _
    simp [execStreamRecover, onDev_next, hk, hdrop, hgood, hd]
  · dsimp only [State.withDev_dev]
    rw [hto]
    exact ⟨rfl, by rw [hd, Device.stream_updStream], hcause, rfl⟩

/-- Settles O27. -/
theorem pairsAndStreamsChangeState : Obligations.PairsAndStreamsChangeState := fun _ =>
  ⟨fun _ => pairLost_loses, fun _ => pairRecover_recovers, fun _ => streamDropout_drops, fun _ => streamRecover_recovers⟩

end Sys2Proof.Machine
end

section
/-! SUPPORT. The sensing front end commands (O30). -/

namespace Sys2Proof.Machine

/-- A setting that gets as far as `accept` is accepted, and its work `k` has the next handle. -/
theorem accepts_of_configure {c : Instr} {ch : Fin 8} {s : State} {r : Request} {t : Setting}
    {k : Nat → Device → Device} {P : Nat → State → Prop} (hexec : exec c s = configure t ch s) (hr : s.mayConfigure ch t r)
    (hroom : s.dev.mbx.handles.length < 256)
    (hb : t.body r s.dev s.mem = (((accept r ch.val s.dev k).1, s.mem), (accept r ch.val s.dev k).2))
    (hP : ∀ h, h = s.dev.mbx.nextHandle →
      P h (s.answered ch r (k h { s.dev with mbx := s.dev.mbx.taking ch.val t.op }) (acceptedWith h))) :
    Accepts c s ch P := by
  have hop := State.op_of_holds hr.1
  rw [accept_room hroom, hop] at hb
  refine ⟨s.answered ch r (k s.dev.mbx.nextHandle { s.dev with mbx := s.dev.mbx.taking ch.val t.op })
    (acceptedWith s.dev.mbx.nextHandle), s.dev.mbx.nextHandle, ?_, Device.answer_formed _ _ _ _, rfl, hP _ rfl⟩
  rw [hexec, configure_next t ch s r hr, hb]
  rfl

/-! ## Objects of the front end, set and read back -/

@[simp] theorem Device.answer_sfeS (d : Device) (ch : Nat) (r : Request) (a : Reply) (k : Nat) :
    (d.answer ch r a).sfeS k = d.sfeS k := by simp [Device.sfeS]

@[simp] theorem Device.answer_sfeScan (d : Device) (ch : Nat) (r : Request) (a : Reply) (die : Nat) :
    (d.answer ch r a).sfeScan die = d.sfeScan die := by simp [Device.sfeScan]

@[simp] theorem Device.answer_sfeExc (d : Device) (ch : Nat) (r : Request) (a : Reply) (die : Nat) :
    (d.answer ch r a).sfeExc die = d.sfeExc die := by simp [Device.sfeExc]

@[simp] theorem Device.sfeS_updSfe (d : Device) (k : Nat) (f : SfeStream → SfeStream) :
    (d.updSfe k f).sfeS k = f (d.sfeS k) := by simp [Device.sfeS, Device.updSfe]

@[simp] theorem Device.sfeScan_updSfe (d : Device) (k die : Nat) (f : SfeStream → SfeStream) :
    (d.updSfe k f).sfeScan die = d.sfeScan die := rfl

@[simp] theorem Device.sfeExc_updSfe (d : Device) (k die : Nat) (f : SfeStream → SfeStream) :
    (d.updSfe k f).sfeExc die = d.sfeExc die := rfl

@[simp] theorem Device.sfeScan_setScan (d : Device) (die : Nat) (x : SfeScan) : (d.setScan die x).sfeScan die = x := by
  simp [Device.sfeScan, Device.setScan]

@[simp] theorem Device.sfeExc_setExc (d : Device) (die : Nat) (x : SfeExc) : (d.setExc die x).sfeExc die = x := by
  simp [Device.sfeExc, Device.setExc]

/-- A channel's ring is a buffer it has or is given, and nothing else of the channel moves (R320). -/
theorem Device.sfeRing_eq (d : Device) (k : Nat) (det : Bool) :
    ∃ b c, (d.sfeRing k det).sfeS k = { d.sfeS k with buf := b, detBuf := c } ∧ (d.sfeRing k det).time = d.time ∧
      (d.sfeRing k det).sfe.scan = d.sfe.scan := by
  have hsame : ∃ b c, d.sfeS k = { d.sfeS k with buf := b, detBuf := c } := ⟨_, _, rfl⟩
  unfold Device.sfeRing
  dsimp only
  by_cases hhave : (if det then (d.sfeS k).detBuf else (d.sfeS k).buf).isSome = true
  · obtain ⟨b, c, h⟩ := hsame
    rw [if_pos hhave]
    exact ⟨b, c, h, rfl, rfl⟩
  · rw [if_neg hhave]
    split
    · obtain ⟨b, c, h⟩ := hsame
      exact ⟨b, c, h, rfl, rfl⟩
    · next id e he =>
      have hf : d.agrees [.memsys] e := by simp [Device.agrees_of_allocFw he]
      have hs : e.sfeS k = d.sfeS k := by rw [Device.sfeS, hf.sfe (by decide)]; rfl
      rw [Device.sfeS_updSfe, hs]
      cases det with
      | true => exact ⟨(d.sfeS k).buf, some id, rfl, hf.time (by decide), (show e.sfe.scan = _ by rw [hf.sfe (by decide)])⟩
      | false => exact ⟨some id, (d.sfeS k).detBuf, rfl, hf.time (by decide), (show e.sfe.scan = _ by rw [hf.sfe (by decide)])⟩

/-! ## The commands -/

theorem sfeChannel_off {s : State} {ch : Fin 8} {r : Request} (hr : s.mayConfigure ch setSfeChannel r) (h0 : r.u 1 1 = 0)
    (hd : s.dev.sfeDomain (sfeDie (r.u 0 1)) = true) (hrail : r.u 0 1 ≠ railStream (sfeDie (r.u 0 1))) :
    Sets (.sfeChannel ch) s ch (fun t =>
        (t.dev.sfeS (r.u 0 1)).enable = false ∧ (t.dev.sfeS (r.u 0 1)).state = .off) := by
  refine sets_of_configure (d := s.dev.updSfe (r.u 0 1) fun x => { x with
      enable := false, state := .off, start := none, lines := [], lines2 := [], win := none, ready := [] })
    (show execSfeChannel ch s = _ from rfl) hr ?_ (by simp [State.answered, State.withDev])
  simp [setSfeChannel, devBody, sfeChannel, h0, hd, hrail, okWith, ans, stOk]

theorem sfeChannel_on {s : State} {ch : Fin 8} {r : Request} (hr : s.mayConfigure ch setSfeChannel r) (h1 : r.u 1 1 = 1)
    (hf : sfeFieldsOk r = true) (hd : s.dev.sfeDomain (sfeDie (r.u 0 1)) = true)
    (hrail : r.u 0 1 ≠ railStream (sfeDie (r.u 0 1))) (hcal : (s.dev.sfeS (r.u 0 1)).state ≠ .cal)
    (hres : r.u 7 1 = 1 → (s.dev.sfeExc (sfeDie (r.u 0 1))).mode = 1 ∧
      rateOk (sfeH r) (s.dev.sfeExc (sfeDie (r.u 0 1))).freq = true)
    (haux : 64 ≤ r.u 0 1 → (s.dev.sfeScan (sfeDie (r.u 0 1))).fits
      ((s.dev.updSfe (r.u 0 1) (sfeSet r)).auxEnabled (sfeDie (r.u 0 1))).length = true)
    (hbuf : (((s.dev.updSfe (r.u 0 1) (sfeSet r)).sfeRing (r.u 0 1) false).sfeS (r.u 0 1)).buf.isSome = true) :
    Sets (.sfeChannel ch) s ch (fun t => (t.dev.sfeS (r.u 0 1)).enable = true ∧
        (t.dev.sfeS (r.u 0 1)).range = r.u 2 1 ∧ (t.dev.sfeS (r.u 0 1)).ring = r.u 16 4 ∧
        (t.dev.sfeS (r.u 0 1)).start = some (startInstant s.dev.time.ns16)) := by
  obtain ⟨d, hd'⟩ : ∃ d : Device, d = (s.dev.updSfe (r.u 0 1) (sfeSet r)).sfeRing (r.u 0 1) false := ⟨_, rfl⟩
  obtain ⟨b, c, hb, htime, -⟩ := (s.dev.updSfe (r.u 0 1) (sfeSet r)).sfeRing_eq (r.u 0 1) false
  obtain ⟨id, hid⟩ := Option.isSome_iff_exists.mp hbuf
  rw [← hd'] at hb htime hid
  rw [Device.sfeS_updSfe] at hb
  have hstate : (d.sfeS (r.u 0 1)).state ≠ .cal := by rw [hb]; exact hcal
  refine sets_of_configure (d := d.sfeStart (r.u 0 1)) (show execSfeChannel ch s = _ from rfl) hr ?_ ?_
  · simp only [setSfeChannel, devBody, sfeChannel]
    rw [if_neg (by simp [hf]), if_neg (by simp [hd]), if_neg hrail, if_neg (by simp [h1]),
      if_neg (by simp; exact fun h => (hres h).1), if_neg (by simp; exact fun h => (hres h).2), if_neg (by simpa using haux)]
    simp only [← hd', hid, if_neg hstate]
    rfl
  · simp only [State.answered, State.withDev, Device.answer_sfeS, Device.sfeStart, Device.sfeS_updSfe, hb, htime]
    exact ⟨rfl, rfl, rfl, rfl⟩

theorem sfeAuxScan_sets {s : State} {ch : Fin 8} {r : Request} (hr : s.mayConfigure ch setSfeAuxScan r)
    (hmax : r.u 4 4 ≤ 1000000) (hd : s.dev.sfeDomain (r.u 0 1) = true)
    (hfit : (⟨r.u 1 1, r.u 2 1, r.u 3 1, r.u 4 4, none, 0⟩ : SfeScan).fits (s.dev.auxEnabled (r.u 0 1)).length = true) :
    Sets (.sfeAuxScan ch) s ch (fun t => t.dev.sfeScan (r.u 0 1) =
        ⟨r.u 1 1, r.u 2 1, r.u 3 1, r.u 4 4, some (wholeSecondAfter s.dev.time.ns16), 0⟩) := by
  have hfit' : (⟨r.u 1 1, r.u 2 1, r.u 3 1, r.u 4 4, some (wholeSecondAfter s.dev.time.ns16), 0⟩ : SfeScan).fits
    (s.dev.auxEnabled (r.u 0 1)).length = true := hfit
  refine sets_of_configure (d := s.dev.setScan (r.u 0 1)
    ⟨r.u 1 1, r.u 2 1, r.u 3 1, r.u 4 4, some (wholeSecondAfter s.dev.time.ns16), 0⟩)
    (show execSfeAuxScan ch s = _ from rfl) hr ?_ (by simp [State.answered, State.withDev])
  simp [setSfeAuxScan, devBody, sfeAuxScan, Nat.not_lt.mpr hmax, hfit', hd, okWith, ans, stOk]

theorem sfeExc_sets {s : State} {ch : Fin 8} {r : Request} (hr : s.mayConfigure ch setSfeExc r) (hok : excOk r = true)
    (hd : s.dev.sfeDomain (r.u 0 1) = true) (hserve : s.dev.excServes (r.u 0 1) (r.u 1 1) (r.u 4 4) = true) :
    Sets (.sfeExc ch) s ch (fun t =>
        t.dev.sfeExc (r.u 0 1) = ⟨r.u 1 1, bit (r.u 2 1) 0, r.u 4 4, r.u 8 2, startInstant s.dev.time.ns16⟩) := by
  refine sets_of_configure (d := ((s.dev.setExc (r.u 0 1)
      ⟨r.u 1 1, bit (r.u 2 1) 0, r.u 4 4, r.u 8 2, startInstant s.dev.time.ns16⟩).updSfe (32 + 4 * r.u 0 1)
        fun x => { x with phaseC := r.u 10 2 }).updSfe (34 + 4 * r.u 0 1) fun x => { x with phaseC := r.u 10 2 })
    (show execSfeExc ch s = _ from rfl) hr ?_ (by simp [State.answered, State.withDev])
  simp [setSfeExc, devBody, sfeExcite, hok, hd, hserve, okWith, ans, stOk]

theorem sfeDetect_sets {s : State} {ch : Fin 8} {r : Request} (hr : s.mayConfigure ch setSfeDetect r)
    (hd : s.dev.sfeDomain (sfeDie (r.u 0 1)) = true)
    (hok : bit (r.u 1 1) 0 = true → r.u 2 1 ≤ (s.dev.sfeS (r.u 0 1)).h ∧ r.u 3 1 ≤ 15 ∧ r.u 4 1 ≤ 15 ∧ 1000 ≤ r.u 8 4 ∧
      r.u 8 4 ≤ 10000000) : Sets (.sfeDetect ch) s ch (fun t => (t.dev.sfeS (r.u 0 1)).detOn = bit (r.u 1 1) 0 ∧
        (t.dev.sfeS (r.u 0 1)).window = r.u 8 4 ∧ (t.dev.sfeS (r.u 0 1)).win = none) := by
  refine sets_of_configure (d := s.dev.updSfe (r.u 0 1) fun x => { x with
      detOn := bit (r.u 1 1) 0, detDc := bit (r.u 1 1) 1, detH := r.u 2 1, attack := r.u 3 1 % 16, release := r.u 4 1 % 16
      window := r.u 8 4, detN := x.stageCount (r.u 2 1), win := none, ready := [], env := 0 })
    (show execSfeDetect ch s = _ from rfl) hr ?_ (by simp [State.answered, State.withDev])
  simp only [setSfeDetect, devBody, sfeDetect]
  rw [if_neg (by simpa [and_assoc] using hok), if_neg (by simp [hd])]
  rfl

theorem sfeCal_writes {s : State} {ch : Fin 8} {r : Request} (hr : s.mayConfigure ch setSfeCal r) (h1 : r.u 1 1 = 1)
    (hd : s.dev.sfeDomain (sfeDie (r.u 0 1)) = true) :
    Sets (.sfeCal ch) s ch (fun t => (t.dev.sfeS (r.u 0 1)).written = some (r.i 4 4, r.u 8 4)) := by
  refine sets_of_configure (t := ⟨0x0404, 0, calObjs, devBody (sfeCalOn ch.val)⟩) (d := s.dev.updSfe (r.u 0 1) fun x => { x with
    written := some (r.i 4 4, r.u 8 4) }) (show execSfeCal ch s = _ from rfl) hr ?_ (by simp [State.answered, State.withDev])
  simp [devBody, sfeCalOn, sfeCal, sfeCalWrite, h1, hd, okWith, ans, stOk]

/-- A calibration that begins holds its die's place; the channels it takes are their own matter (R302). -/
theorem Device.calBegin_cal (d : Device) (k : Nat) (h : Option Nat) :
    (d.calBegin k h).sfe.cal = d.sfe.cal.put (sfeDie k) ⟨k, h, d.time.now, false⟩ := by
  unfold Device.calBegin
  exact List.foldlRecOn (motive := fun e : Device => e.sfe.cal = d.sfe.cal.put (sfeDie k) ⟨k, h, d.time.now, false⟩) _ _ rfl
    fun _ he _ _ => he

theorem sfeCal_begins {s : State} {ch : Fin 8} {r : Request} (hr : s.mayConfigure ch setSfeCal r) (h0 : r.u 1 1 = 0)
    (hd : s.dev.sfeDomain (sfeDie (r.u 0 1)) = true) (hfree : s.dev.sfe.cal.look (sfeDie (r.u 0 1)) = none)
    (hroom : s.dev.mbx.handles.length < 256) : Accepts (.sfeCal ch) s ch (fun h t => t.mem = s.mem ∧
        t.dev.sfe.cal.look (sfeDie (r.u 0 1)) = some ⟨r.u 0 1, some h, s.dev.time.now, false⟩) := by
  refine accepts_of_configure (t := ⟨0x0404, 0, calObjs, devBody (sfeCalOn ch.val)⟩)
    (k := fun h d => d.calBegin (r.u 0 1) (some h)) (show execSfeCal ch s = _ from rfl) hr hroom ?_ fun h _ => ?_
  · simp [devBody, sfeCalOn, h0, hd, hfree]
  · simp [State.answered, State.withDev, Device.calBegin_cal]

theorem sfeStatus_reports {s : State} {ch : Fin 8} {r : Request} (hr : s.holds ch 0x0405 r)
    (hd : s.dev.sfeDomain (sfeDie (r.u 0 1)) = true) : Reports (.sfeStatus ch) s ch r (fun p =>
      p.length = 56 ∧ fieldAt p 0 1 = (s.dev.sfeS (r.u 0 1)).state.code ∧
      fieldAt p 4 4 = (s.dev.sfeS (r.u 0 1)).lastSeq % 2 ^ 32) := by
  have hcode : (s.dev.sfeS (r.u 0 1)).state.code < 256 := by cases (s.dev.sfeS (r.u 0 1)).state <;> decide
  refine reports_of_query (show execSfeStatus ch s = _ from rfl) hr
    (by simp only [hd, Bool.not_true, Bool.false_eq_true, if_false]; rfl) ⟨?_, ?_, ?_⟩
  · simp
  · simpa [fieldAt_head] using hcode
  · simp [fieldAt_skip, fieldAt_head]

theorem sfeCoefGet_reports {s : State} {ch : Fin 8} {r : Request} (hr : s.holds ch 0x0406 r)
    (hfirst : r.u 2 2 < hbTaps (r.u 0 1)) : Reports (.sfeCoefGet ch) s ch r (fun p =>
      fieldAt p 0 2 = hbTaps (r.u 0 1) ∧ p.length = 8 + 4 * min 1000 (hbTaps (r.u 0 1) - r.u 2 2)) := by
  have htaps : hbTaps (r.u 0 1) < 65536 := by unfold hbTaps; split <;> decide
  refine reports_of_query (show execSfeCoefGet ch s = _ from rfl) hr
    (by simp only [Nat.not_le.mpr hfirst, if_false]; rfl) ⟨?_, ?_⟩
  · simpa [fieldAt_head] using htaps
  · simp [List.map_const', List.sum_replicate_nat, Nat.mul_comm]
    omega

/-- Settles O30. -/
theorem sfeCommandsConfigure : Obligations.SfeCommandsConfigure := fun _ _ _ =>
  ⟨sfeChannel_off, sfeChannel_on, sfeAuxScan_sets, sfeExc_sets, sfeDetect_sets, sfeCal_writes, sfeCal_begins,
    sfeStatus_reports, sfeCoefGet_reports⟩

end Sys2Proof.Machine
end

section
/-! SUPPORT. The sensing front end's events (O31). -/

namespace Sys2Proof.Machine

/-! ## Samples pushed -/

/-- A channel with the indexes and sequence numbers of another. -/
structure SfeStream.SameCounts (x y : SfeStream) : Prop where
  next : y.next = x.next
  seq : y.seq = x.seq
  detSeq : y.detSeq = x.detSeq

theorem SfeStream.SameCounts.trans {x y z : SfeStream} (h : x.SameCounts y) (k : y.SameCounts z) : x.SameCounts z :=
  ⟨k.next.trans h.next, k.seq.trans h.seq, k.detSeq.trans h.detSeq⟩

theorem SfeStream.sameCounts_detect (x : SfeStream) (masked : Bool) (v : Int × Bool) : x.SameCounts (x.detect masked v) := by
  unfold SfeStream.detect
  dsimp only
  constructor <;> rfl

/-- A raw sample pushed through a channel's chain makes no output of itself. -/
theorem Device.sameCounts_sfePush (d : Device) (k : Nat) (raw raw2 : Int) :
    (d.sfeS k).SameCounts ((d.sfePush k raw raw2).sfeS k) := by
  unfold Device.sfePush
  dsimp only
  rw [Device.sfeS_updSfe]
  cases hres : (d.sfeS k).res
  all_goals
    simp only [hres, if_true, Bool.false_eq_true, if_false]
    split
    · split
      · refine SfeStream.SameCounts.trans ?_ (SfeStream.sameCounts_detect _ _ _)
        exact ⟨rfl, rfl, rfl⟩
      · exact ⟨rfl, rfl, rfl⟩
    · exact ⟨rfl, rfl, rfl⟩

theorem sameCounts_sfePushAll (k : Nat) (raw raw2 : List Int) (d : Device) :
    (d.sfeS k).SameCounts ((sfePushAll k raw raw2 d).sfeS k) := by
  induction raw generalizing raw2 d with
  | nil => exact ⟨rfl, rfl, rfl⟩
  | cons r rs ih =>
    exact (d.sameCounts_sfePush k r (raw2.headD 0)).trans (ih raw2.tail (d.sfePush k r (raw2.headD 0)))

/-! ## Records -/

@[simp] theorem Device.sfeS_diagAdd (d : Device) (die off lo width n k : Nat) :
    (d.diagAdd die off lo width n).sfeS k = d.sfeS k := rfl

@[simp] theorem Device.diagAdd_sfe (d : Device) (die off lo width n : Nat) : (d.diagAdd die off lo width n).sfe = d.sfe := rfl

theorem Device.updSfe_scan (d : Device) (k : Nat) (f : SfeStream → SfeStream) : (d.updSfe k f).sfe.scan = d.sfe.scan := rfl

@[simp] theorem Device.advanceToDev_sfe (d : Device) (moment : Nat) : (d.advanceToDev moment).sfe = d.sfe :=
  (d.agrees_clockDev moment).sfe (by decide)

@[simp] theorem fwWrite_sfe (id o : Nat) (bs : List Byte) (d : Device) (m : Store) : (fwWrite id o bs d m).1.sfe = d.sfe :=
  (show d.agrees [.memsys] (fwWrite id o bs d m).1 by simp).sfe (by decide)

/-- A record of a channel counts its sequence on, whether its slot is held or not (R320). -/
theorem sfeRecord_counts (k kind flags : Nat) (dts : BitVec 128) (a b : Nat) (d : Device) (m : Store) :
    ((sfeRecord k kind flags dts a b d m).1.sfeS k).seq = ((d.sfeS k).seq + 1) % 2 ^ 32 ∧
      (sfeRecord k kind flags dts a b d m).1.sfe.scan = d.sfe.scan := by
  obtain ⟨b, c, hring, -, hscan⟩ := d.sfeRing_eq k false
  have hseq : ((d.sfeRing k false).sfeS k).seq = (d.sfeS k).seq := by rw [hring]
  unfold sfeRecord
  dsimp only
  split
  · exact ⟨by simp only [Device.sfeS_diagAdd, Device.sfeS_updSfe, hseq], hscan⟩
  · refine ⟨by simp only [Device.sfeS_updSfe, hseq], ?_⟩
    rw [Device.updSfe_scan]
    split
    · rw [Device.diagAdd_sfe, fwWrite_sfe, hscan]
    · rw [fwWrite_sfe, hscan]

/-- An output that is complete is recorded, and the next one is due (R294, R300). -/
theorem sfeEmit_complete {k : Nat} {d : Device} {m : Store} (h : (d.sfeS k).complete (d.sfeS k).next = true) :
    ((sfeEmit k d m).1.sfeS k).next = (d.sfeS k).next + 1 ∧
      ((sfeEmit k d m).1.sfeS k).seq = ((d.sfeS k).seq + 1) % 2 ^ 32 := by
  unfold sfeEmit
  dsimp only
  rw [if_neg (by simp [h])]
  have hclock (moment : Nat) : (d.advanceToDev moment).sfeS k = d.sfeS k := by rw [Device.sfeS, Device.advanceToDev_sfe]; rfl
  have htick (e : Device) : e.tickFree.sfeS k = e.sfeS k := rfl
  simp only [Device.sfeS_updSfe]
  refine ⟨trivial, ?_⟩
  split
  · rw [(sfeRecord_counts _ _ _ _ _ _ _ _).1, htick, hclock]
  · rw [(sfeRecord_counts _ _ _ _ _ _ _ _).1, hclock]

/-- A window that ends is one more of its detector's sequence (R309). -/
theorem sfeWindow_counts (k : Nat) (w : SfeWin) (d : Device) (m : Store) :
    ((sfeWindow k w d m).1.sfeS k).ready = (d.sfeS k).ready ∧
      ((sfeWindow k w d m).1.sfeS k).detSeq = ((d.sfeS k).detSeq + 1) % 2 ^ 32 := by
  obtain ⟨b, c, hring, -, -⟩ := d.sfeRing_eq k true
  have hready : ((d.sfeRing k true).sfeS k).ready = (d.sfeS k).ready := by rw [hring]
  have hseq : ((d.sfeRing k true).sfeS k).detSeq = (d.sfeS k).detSeq := by rw [hring]
  unfold sfeWindow
  dsimp only
  split
  · exact ⟨by simp only [Device.sfeS_diagAdd, Device.sfeS_updSfe, hready], by
      simp only [Device.sfeS_diagAdd, Device.sfeS_updSfe, hseq]⟩
  · exact ⟨by simp only [Device.sfeS_updSfe, hready], by simp only [Device.sfeS_updSfe, hseq]⟩

theorem auxRecord_scan (k instant : Nat) (raw : Int) (d : Device) (m : Store) :
    (auxRecord k instant raw d m).1.sfe.scan = d.sfe.scan := by
  unfold auxRecord
  dsimp only
  split
  · rfl
  · rw [Device.updSfe_scan, (sfeRecord_counts _ _ _ _ _ _ _ _).2]

/-- The records of an auxiliary scan leave the scan itself. -/
theorem auxGo_scan (die : Nat) (c : SfeScan) (start i : Nat) (js : List Nat) (rs : List Int) (d : Device) (m : Store) :
    (auxGo die c start i js rs d m).1.sfe.scan = d.sfe.scan := by
  induction js generalizing i rs d m with
  | nil => rfl
  | cons j js ih =>
    unfold auxGo
    dsimp only
    rw [ih, auxRecord_scan, Device.advanceToDev_sfe]

/-! ## Events of a channel -/

theorem Device.sfeS_updSfe_other {d : Device} {k j : Nat} (h : j ≠ k) (f : SfeStream → SfeStream) :
    (d.updSfe k f).sfeS j = d.sfeS j := by
  simp [Device.sfeS, Device.updSfe, Tbl.upd, Tbl.getD_put_other _ _ _ _ _ h]

theorem sfeChannelStart_starts {s : State} {k s0 : Nat} (h : (s.dev.sfeS k).start = some s0) :
    Completes (.sfeChannelStart k) s (fun t => t.mem = s.mem ∧ (t.dev.sfeS k).state = .settling ∧
      (t.dev.sfeS k).s0 = s0 ∧ (t.dev.sfeS k).start = none ∧ (t.dev.sfeS k).seq = 0) := by
  obtain ⟨e, he⟩ : ∃ e, e = s.dev.advanceToDev s0 := ⟨_, rfl⟩
  obtain ⟨d, hd⟩ : ∃ d : Device, d = e.updSfe k fun x => x.begin s0 (e.sfeValues k) := ⟨_, rfl⟩
  have hx : d.sfeS k = (e.sfeS k).begin s0 (e.sfeValues k) := by rw [hd, Device.sfeS_updSfe]
  obtain ⟨f, hf⟩ : ∃ f : Device, f = if (d.sfeS k).res then
    d.updSfe (k + 1) fun x => { x with offset := (e.sfeValues (k + 1)).1, gain := (e.sfeValues (k + 1)).2 } else d := ⟨_, rfl⟩
  have hfx : f.sfeS k = d.sfeS k := by
    rw [hf]
    split
    · exact Device.sfeS_updSfe_other (Nat.ne_of_lt (Nat.lt_succ_self k)) _
    · rfl
  refine ⟨s.withDev f, ?_, rfl, rfl, ?_⟩
  · change execSfeChannelStart k s = _
    simp only [execSfeChannelStart, onDev_next, h, ← he, ← hd, ← hf]
  · dsimp only [State.withDev_dev]
    rw [hfx, hx]
    exact ⟨rfl, rfl, rfl, rfl⟩

theorem sfeOutputSample_records {s : State} {k : Nat} {raw raw2 : List Int} (hruns : s.dev.sfeRuns k = true)
    (hdone : ((sfePushAll k raw raw2 s.dev).sfeS k).complete (s.dev.sfeS k).next = true) :
    Completes (.sfeOutputSample k raw raw2) s (fun t => (t.dev.sfeS k).next = (s.dev.sfeS k).next + 1 ∧
        (t.dev.sfeS k).seq = ((s.dev.sfeS k).seq + 1) % 2 ^ 32) := by
  obtain ⟨d, hd⟩ : ∃ d, d = sfePushAll k raw raw2 s.dev := ⟨_, rfl⟩
  obtain ⟨hnext, hseq, -⟩ := sameCounts_sfePushAll k raw raw2 s.dev
  rw [← hd] at hnext hseq hdone
  rw [← hnext] at hdone
  obtain ⟨y, hy⟩ : ∃ y, y = sfeEmit k d s.mem := ⟨_, rfl⟩
  obtain ⟨h1, h2⟩ := sfeEmit_complete (m := s.mem) hdone
  rw [← hy, hnext] at h1
  rw [← hy, hseq] at h2
  refine ⟨s.withAll y.1 y.2, ?_, State.withAll_pending _ _ _, h1, h2⟩
  change execSfeOutputSample k raw raw2 s = _
  simp only [execSfeOutputSample, onBoth_next, hruns, if_true, ← hd, ← hy]

theorem sfeDetectorWindow_records {s : State} {k : Nat} {raw raw2 : List Int} {w : SfeWin} {ws : List SfeWin}
    (hruns : s.dev.sfeRuns k = true) (hdet : (s.dev.sfeS k).detOn = true)
    (hready : ((sfePushAll k raw raw2 s.dev).sfeS k).ready = w :: ws) :
    Completes (.sfeDetectorWindow k raw raw2) s (fun t =>
        (t.dev.sfeS k).ready = ws ∧ (t.dev.sfeS k).detSeq = ((s.dev.sfeS k).detSeq + 1) % 2 ^ 32) := by
  obtain ⟨d, hd⟩ : ∃ d, d = sfePushAll k raw raw2 s.dev := ⟨_, rfl⟩
  have hseq := (sameCounts_sfePushAll k raw raw2 s.dev).detSeq
  rw [← hd] at hseq hready
  obtain ⟨y, hy⟩ : ∃ y, y = sfeWindow k w (d.updSfe k fun x => { x with ready := ws }) s.mem := ⟨_, rfl⟩
  obtain ⟨h1, h2⟩ := sfeWindow_counts k w (d.updSfe k fun x => { x with ready := ws }) s.mem
  rw [← hy, Device.sfeS_updSfe] at h1 h2
  refine ⟨s.withAll y.1 y.2, ?_, State.withAll_pending _ _ _, h1, h2.trans ?_⟩
  · change execSfeDetectorWindow k raw raw2 s = _
    simp only [execSfeDetectorWindow, onBoth_next, hruns, hdet, Bool.not_true, Bool.or_self, Bool.false_eq_true, if_false,
      ← hd, hready, ← hy]
  · exact congrArg (fun n => (n + 1) % 2 ^ 32) hseq

theorem sfeAuxScanStart_counts {s : State} {die : Fin 8} {raw : List Int} {a0 : Nat}
    (ha : (s.dev.sfeScan die.val).a0 = some a0) (hd : s.dev.sfeDomain die.val = true)
    (hcal : s.dev.auxCal die.val = false) : Completes (.sfeAuxScanStart die raw) s (fun t =>
        (t.dev.sfeScan die.val).k = (s.dev.sfeScan die.val).k + 1) := by
  obtain ⟨start, hstart⟩ : ∃ n, n = a0 + (s.dev.sfeScan die.val).k * (s.dev.sfeScan die.val).period * oneNs := ⟨_, rfl⟩
  obtain ⟨d, hd'⟩ : ∃ d : Device, d = (s.dev.advanceToDev start).setScan die.val { s.dev.sfeScan die.val with
    k := (s.dev.sfeScan die.val).k + 1 } := ⟨_, rfl⟩
  obtain ⟨y, hy⟩ : ∃ y, y = auxGo die.val (s.dev.sfeScan die.val) start 0 (d.auxEnabled die.val) raw d s.mem := ⟨_, rfl⟩
  simp only [ha] at hd'
  have hscan : y.1.sfeScan die.val = d.sfeScan die.val := by rw [hy, Device.sfeScan, auxGo_scan]; rfl
  refine ⟨s.withAll (y.1.diagAdd die.val 0x02C 0 32 1) y.2, ?_, State.withAll_pending _ _ _, ?_⟩
  · change execSfeAuxScanStart die raw s = _
    simp only [execSfeAuxScanStart, onBoth_next, ha, hd, hcal, Bool.not_true, Bool.or_self, Bool.false_eq_true, if_false,
      ← hstart, ← hd', ← hy]
  · show (y.1.sfeScan die.val).k = _
    rw [hscan, hd', Device.sfeScan_setScan]

/-! ## Calibration -/

theorem Device.calEnd_cal (d : Device) (k : Nat) : (d.calEnd k).sfe.cal = d.sfe.cal := by
  unfold Device.calEnd
  refine List.foldlRecOn (motive := fun e : Device => e.sfe.cal = d.sfe.cal) _ _ rfl fun e he x _ => ?_
  split
  · exact he
  · exact he

theorem sfeCalDone_ends {s : State} {die : Fin 8} {m0 m1 : Int} {full : Bool} {c : SfeCal} {h : Nat} {hd : Handle}
    (hc : s.dev.sfe.cal.look die.val = some c) (hcancel : c.cancel = false) (hh : c.handle = some h)
    (hx : s.dev.mbx.handles.look h = some hd) (hf : hd.final = none) :
    Completes (.sfeCalDone die m0 m1 full) s (fun t =>
        t.mem = s.mem ∧ t.dev.sfe.cal.look die.val = none ∧ (t.dev.mbx.handles.look h).bind (·.final) = some 0) := by
  obtain ⟨g, hg⟩ : ∃ g : Device, g = { s.dev with sfe := { s.dev.sfe with cal := s.dev.sfe.cal.del die.val } } := ⟨_, rfl⟩
  obtain ⟨e, he⟩ : ∃ e, e = g.advanceTo (c.startAt + 10885760 * oneNs) := ⟨_, rfl⟩
  obtain ⟨o, ho⟩ : ∃ o, o = calResult (e.calVolt c.stream) m0 m1 full := ⟨_, rfl⟩
  obtain ⟨f, hf'⟩ : ∃ f : Device, f = match o.2 with
    | some v => (calStreams c.stream).foldl (fun (d : Device) k => d.calApply k v) (e.diagAdd die.val 0x028 0 16 1)
    | none => e := ⟨_, rfl⟩
  have hmbx : f.mbx = s.dev.mbx := by
    have h1 : g.agrees [.diag, .time] e := he ▸ g.agrees_clock _
    have h2 : e.agrees [.diag, .sfe] f := by
      rw [hf']
      split <;> simp
    rw [h2.mbx (by decide), h1.mbx (by decide), hg]
  have hcal : f.sfe.cal = s.dev.sfe.cal.del die.val := by
    have h1 : e.sfe.cal = g.sfe.cal := by rw [he, (g.agrees_clock _).sfe (by decide)]
    have h2 : f.sfe.cal = e.sfe.cal := by
      rw [hf']
      split
      · exact List.foldlRecOn (motive := fun d : Device => d.sfe.cal = e.sfe.cal) _ _ rfl fun d hd k _ => hd
      · rfl
    rw [h2, h1, hg]
  have hend : (f.calEnd c.stream).mbx = s.dev.mbx :=
    ((show f.agrees [.sfe] (f.calEnd c.stream) by simp).mbx (by decide)).trans hmbx
  obtain ⟨bytes, hbytes⟩ : ∃ bytes, bytes = leBytes 1 o.1 ++ zeros 3 ++ leBytes 4 (unsigned 32 (f.sfeValues c.stream).1)
    ++ leBytes 4 (f.sfeValues c.stream).2 ++ leBytes 4 (unsigned 32 m0) ++ leBytes 4 (unsigned 32 m1) := ⟨_, rfl⟩
  refine ⟨s.withDev ((f.calEnd c.stream).finish h stOk bytes), ?_, rfl, rfl, ?_,
    Device.finish_ended _ h stOk bytes hd (by rw [hend]; exact hx) hf⟩
  · change execSfeCalDone die m0 m1 full s = _
    simp only [execSfeCalDone, onDev_next, hc, hcancel, Bool.false_eq_true, if_false, ← hg, ← he, ← ho, hh,
      Device.finishOpt, hbytes]
    rw [hf'] <;> rfl
  · dsimp only [State.withDev_dev]
    rw [Device.finish_sfe, Device.calEnd_cal, hcal, Tbl.look_del_same]

/-! ## Faults -/

@[simp] theorem Device.sfeS_violation (d : Device) (i u c x k : Nat) : (d.violation i u c x).sfeS k = d.sfeS k := by
  simp [Device.sfeS]

/-- A cause that is set stays, whatever cause is set beside it. -/
theorem Device.setCause_keeps (d : Device) (c : Nat) {b : Nat} (h : d.evt.cause.getLsbD b = true) :
    (d.setCause c).evt.cause.getLsbD b = true := by
  have hor : (d.evt.cause ||| BitVec.twoPow 13 c).getLsbD b = true := by simp [h]
  unfold Device.setCause
  split
  · exact h
  · dsimp only
    split
    · unfold Device.raiseIbi
      split <;> exact hor
    · exact hor

theorem Device.record_cause (d : Device) (code cause unit p0 p1 : Nat) :
    (d.record code cause unit p0 p1).evt.cause = d.evt.cause := by
  obtain ⟨_, _, h⟩ := d.record_evt code cause unit p0 p1
  rw [h]

/-- A violation sets its cause (R178), and takes none back. -/
theorem Device.violation_causes (d : Device) (iface unit code detail : Nat) :
    (d.violation iface unit code detail).evt.cause.getLsbD 12 = true ∧
      ∀ b, d.evt.cause.getLsbD b = true → (d.violation iface unit code detail).evt.cause.getLsbD b = true := by
  refine ⟨?_, fun b hb => ?_⟩
  · cases hm : d.vlogMerges iface unit code detail with
    | true =>
      obtain ⟨c, i, he, hc⟩ := Device.violation_merged hm
      rw [he]
      exact hc
    | false =>
      obtain ⟨c, i, es, n, w, he, hc, -⟩ := Device.violation_entered hm
      rw [he]
      exact hc
  · unfold Device.violation
    dsimp only
    split
    · exact Device.setCause_keeps _ _ hb
    · rw [Device.record_cause]
      exact Device.setCause_keeps _ _ hb

/-- A fault of a channel stops it, raises SENSOR and logs a violation (R306, R312). -/
theorem Device.sfeFault_faults (d : Device) (k code : Nat) : ((d.sfeFault k code).sfeS k).state = .fault ∧
    (d.sfeFault k code).evt.cause.getLsbD 6 = true ∧ (d.sfeFault k code).evt.cause.getLsbD 12 = true := by
  obtain ⟨e, he⟩ : ∃ e : Device, e = (d.updSfe k fun x => { x with state := .fault, good := 0 }).event 0x0001 6 k 4
    (d.sfeS k).state.code := ⟨_, rfl⟩
  have h6 : e.evt.cause.getLsbD 6 = true := he ▸ Device.event_cause _ (by decide) _ _ _ _
  have hx : e.sfeS k = { d.sfeS k with state := .fault, good := 0 } := by
    rw [he, Device.sfeS, Device.event_sfe]
    exact Device.sfeS_updSfe d k _
  have heq : d.sfeFault k code = (e.sfeLog k code).diagAdd (sfeDie k) 0x028 16 16 1 := by rw [he]; rfl
  obtain ⟨h12, hkeep⟩ := e.violation_causes 10 (sfeDie k) code k
  rw [heq]
  refine ⟨?_, hkeep 6 h6, h12⟩
  rw [Device.sfeS_diagAdd, Device.sfeLog, Device.sfeS_updSfe, Device.sfeS_violation, hx]

theorem iepeBiasFault_faults {s : State} {k : Nat} (hl : s.dev.sfeLive k = true) (hc : (s.dev.sfeS k).coupling = 2) :
    Completes (.iepeBiasFault k) s (fun t => t.mem = s.mem ∧
      (t.dev.sfeS k).state = .fault ∧ t.dev.evt.cause.getLsbD 6 = true ∧ t.dev.evt.cause.getLsbD 12 = true) := by
  refine ⟨s.withDev (s.dev.sfeFault k 0x02), ?_, rfl, rfl, s.dev.sfeFault_faults k 0x02⟩
  change execIepeBiasFault k s = _
  simp only [execIepeBiasFault, onDev_next, hl, hc, decide_true, Bool.and_self, if_true]

theorem resolverLos_faults {s : State} {k : Nat} (hl : s.dev.sfeLive k = true) (hr : (s.dev.sfeS k).res = true)
    (hlow : 8 ≤ (s.dev.sfeS k).low) : Completes (.resolverLos k) s (fun t => t.mem = s.mem ∧
      (t.dev.sfeS k).state = .fault ∧ t.dev.evt.cause.getLsbD 6 = true ∧ t.dev.evt.cause.getLsbD 12 = true) := by
  refine ⟨s.withDev (s.dev.sfeFault k 0x03), ?_, rfl, rfl, s.dev.sfeFault_faults k 0x03⟩
  change execResolverLos k s = _
  simp only [execResolverLos, onDev_next, hl, hr, hlow, decide_true, Bool.and_self, if_true]

theorem sfeFaultRecover_recovers {s : State} {k : Nat} (hf : (s.dev.sfeS k).state = .fault)
    (hg : (s.dev.sfeS k).res = true → 8 ≤ (s.dev.sfeS k).good) : Completes (.sfeFaultRecover k) s (fun t => t.mem = s.mem ∧
      (t.dev.sfeS k).state = .active ∧ t.dev.evt.cause.getLsbD 6 = true) := by
  obtain ⟨d, hd⟩ : ∃ d : Device, d = s.dev.updSfe k fun x => { x with state := .active, low := 0 } := ⟨_, rfl⟩
  refine ⟨s.withDev (d.event 0x0001 6 k 2 4), ?_, rfl, rfl, ?_, Device.event_cause _ (by decide) _ _ _ _⟩
  · change execSfeFaultRecover k s = _
    have hcond : ((s.dev.sfeS k).res = false ∨ 8 ≤ (s.dev.sfeS k).good) := by
      cases hr : (s.dev.sfeS k).res
      · exact .inl rfl
      · exact .inr (hg hr)
    simp [execSfeFaultRecover, onDev_next, hf, hcond, hd]
  · dsimp only [State.withDev_dev]
    rw [Device.sfeS, Device.event_sfe, hd]
    show (Device.sfeS _ k).state = _
    rw [Device.sfeS_updSfe]

theorem phaseAutoUpdate_moves {s : State} {k : Nat} (hruns : s.dev.sfeRuns k = true) (hr : (s.dev.sfeS k).res = true)
    (ha : (s.dev.sfeExc (sfeDie k)).auto = true) : Completes (.phaseAutoUpdate k) s (fun t => t.mem = s.mem ∧
      ∃ move : Int, -16 ≤ move ∧ move ≤ 16 ∧
        t.dev.sfeS k = { s.dev.sfeS k with phaseC := unsigned 16 ((s.dev.sfeS k).phaseC + move) }) := by
  obtain ⟨move, hmove⟩ : ∃ move : Int, move = ((s.dev.freeWord 21).toNat % 33 : Nat) - 16 := ⟨_, rfl⟩
  refine ⟨s.withDev (s.dev.updSfe k fun x => { x with phaseC := unsigned 16 (x.phaseC + move) }).tickFree, ?_, rfl, rfl,
    move, by omega, by omega, Device.sfeS_updSfe _ _ _⟩
  change execPhaseAutoUpdate k s = _
  simp only [execPhaseAutoUpdate, onDev_next, hruns, hr, ha, Bool.and_self, if_true, hmove]

theorem excOvercurrent_stops {s : State} {die : Fin 8} (hm : (s.dev.sfeExc die.val).mode ≠ 0) :
    Completes (.excOvercurrent die) s (fun t => t.mem = s.mem ∧
      t.dev.sfeExc die.val = { s.dev.sfeExc die.val with mode := 0 } ∧ t.dev.evt.cause.getLsbD 12 = true) := by
  obtain ⟨d, hd⟩ : ∃ d : Device, d = s.dev.setExc die.val { s.dev.sfeExc die.val with mode := 0 } := ⟨_, rfl⟩
  refine ⟨s.withDev (d.violation 10 die.val 0x04 0), ?_, rfl, rfl, ?_, (d.violation_causes _ _ _ _).1⟩
  · change execExcOvercurrent die s = _
    simp only [execExcOvercurrent, onDev_next, hm, if_false, hd]
  · dsimp only [State.withDev_dev]
    rw [Device.sfeExc, Device.violation_sfe, hd]
    exact Device.sfeExc_setExc _ _ _

theorem sfeInputClamp_logs {s : State} {k : Nat} (h32 : 32 ≤ k) (h128 : k < 128) (hd : s.dev.sfeDomain (sfeDie k) = true) :
    Completes (.sfeInputClamp k) s (fun t => t.mem = s.mem ∧
      t.dev.sfeS k = { s.dev.sfeS k with violations := min ((s.dev.sfeS k).violations + 1) 0xFFFFFFFF } ∧
      t.dev.evt.cause.getLsbD 12 = true) := by
  refine ⟨s.withDev (s.dev.sfeLog k 0x01), ?_, rfl, rfl, ?_, (s.dev.violation_causes _ _ _ _).1⟩
  · change execSfeInputClamp k s = _
    simp only [execSfeInputClamp, onDev_next, h32, h128, hd, decide_true, Bool.and_self, if_true]
  · dsimp only [State.withDev_dev]
    rw [Device.sfeLog, Device.sfeS_updSfe, Device.sfeS_violation]

/-- Settles O31. -/
theorem sfeEventsRunTheChannels : Obligations.SfeEventsRunTheChannels := fun _ =>
  ⟨fun _ _ => sfeChannelStart_starts, fun _ _ _ => sfeOutputSample_records, fun _ _ _ _ _ => sfeDetectorWindow_records,
    fun _ _ _ => sfeAuxScanStart_counts, fun _ _ _ _ _ _ _ => sfeCalDone_ends, fun _ => iepeBiasFault_faults,
    fun _ => resolverLos_faults, fun _ => sfeFaultRecover_recovers, fun _ => phaseAutoUpdate_moves,
    fun _ => excOvercurrent_stops, fun _ => sfeInputClamp_logs⟩

end Sys2Proof.Machine
end

section
/-! SUPPORT. Jobs admitted and ended; the job and profile commands (O32). -/

namespace Sys2Proof.Machine

/-! ## Handles and jobs end -/

/-- A handle that has ended keeps its status. -/
theorem Device.ended_finish {d : Device} {h v : Nat} (he : d.ended h = some v) (h' st : Nat) (b : List Byte) :
    (d.finish h' st b).ended h = some v := by
  obtain ⟨x, hx, hv⟩ := Option.bind_eq_some_iff.mp he
  unfold Device.finish
  split
  · exact he
  · next y hy =>
    split
    · exact he
    · next hnone =>
      have hne : h' ≠ h := by
        rintro rfl
        obtain rfl : y = x := Option.some.inj (hy.symm.trans hx)
        exact hnone (by rw [hv]; rfl)
      rw [Device.ended, Device.setCause_mbx]
      dsimp only
      rw [Tbl.look_put_other _ _ _ _ hne.symm, hx]
      exact hv

theorem Device.ended_finishOpt {d : Device} {h v : Nat} (he : d.ended h = some v) (h' : Option Nat) (st : Nat)
    (b : List Byte) : (d.finishOpt h' st b).ended h = some v := by
  cases h' with
  | none => exact he
  | some h' => exact Device.ended_finish he h' st b

@[simp] theorem Device.finishOpt_jobs (d : Device) (h : Option Nat) (st : Nat) (b : List Byte) :
    (d.finishOpt h st b).jobs = d.jobs := by
  cases h with
  | none => rfl
  | some h => exact d.finish_jobs h st b

/-- A profile that does not leave, or still has its TICK and LOOP jobs, stays (R748). -/
theorem Device.unloadDone_of_stays {d : Device} (h : d.jobs.profile.state ≠ .unloading ∨ d.profileBusy = true) :
    d.unloadDone = d :=
  if_pos (by simpa using h)

/-- The end of an unload is the freed profile and the end of its handle (R748). -/
theorem Device.unloadDone_of_leaves {d : Device} (hp : d.jobs.profile.state = .unloading) (hb : d.profileBusy = false) :
    ∃ e h : _, d.agrees [.evt, .diag, .jobs, .memsys, .vis, .grid, .loc, .map] e ∧
      e.jobs.table = d.jobs.table ∧ e.jobs.profile.state = .none ∧ d.unloadDone = e.finishOpt h stOk [] := by
  have hf : d.agrees [.evt, .diag, .memsys, .vis, .grid, .loc, .map]
      (if d.map.opened.isSome = true then d.closeOpen.mapCommit else d).freeProfile := by
    split <;> simp
  refine ⟨_, _, ?_, ?_, ?_, if_neg (by simp [hp, hb])⟩
  · simp
  · exact congrArg (·.table) (hf.jobs (by decide))
  · rfl

/-- The end of an unload keeps the jobs. -/
theorem Device.unloadDone_eq (d : Device) : d.unloadDone = d ∨ ∃ e h : _,
    d.agrees [.evt, .diag, .jobs, .memsys, .vis, .grid, .loc, .map] e ∧ e.jobs.table = d.jobs.table ∧
      d.unloadDone = e.finishOpt h stOk [] := by
  by_cases h : d.jobs.profile.state ≠ .unloading ∨ d.profileBusy = true
  · exact .inl (Device.unloadDone_of_stays h)
  · obtain ⟨hp, hb⟩ := not_or.mp h
    obtain ⟨e, k, ha, ht, -, he⟩ := Device.unloadDone_of_leaves (Decidable.not_not.mp hp) (Bool.not_eq_true _ ▸ hb)
    exact .inr ⟨e, k, ha, ht, he⟩

theorem Device.unloadDone_table (d : Device) : d.unloadDone.jobs.table = d.jobs.table := by
  obtain h | ⟨e, h, _, ht, he⟩ := d.unloadDone_eq
  · rw [h]
  · rw [he, Device.finishOpt_jobs, ht]

theorem Device.ended_unloadDone {d : Device} {h v : Nat} (hd : d.ended h = some v) : d.unloadDone.ended h = some v := by
  obtain he | ⟨e, k, ha, _, he⟩ := d.unloadDone_eq
  · rwa [he]
  · rw [he]
    refine Device.ended_finishOpt ?_ k stOk []
    rwa [Device.ended, ha.mbx (by decide)]

/-- What the end of a job comes to: its parts, grants and operations given back, its state or its entry set, its handle
ended (R720). -/
theorem Device.endJob_eq {d : Device} {id : Nat} {j : Job} (hj : d.job id = some j) (ha : j.active = true) (st : Nat)
    (b : List Byte) : ∃ e : Device, d.agrees [.jobs, .units, .clusters, .memsys, .vis, .slv, .map, .prs] e ∧
      (∀ k, e.job id = some k → k.state = .ended) ∧ d.endJob id st b = (e.finishOpt j.handle st b).unloadDone := by
  simp only [Device.endJob, hj, ha, Bool.not_true, Bool.false_eq_true, if_false]
  refine ⟨_, ?_, ?_, rfl⟩
  · split <;> simp
  · cases j.handle with
    | none => simp [Device.job]
    | some h => simp [Device.job, Device.setJob]

theorem Device.endJob_job (d : Device) (id st : Nat) (b : List Byte) {k : Job}
    (hk : (d.endJob id st b).job id = some k) : k.state = .ended := by
  cases hj : d.job id with
  | none =>
    rw [Device.endJob, hj] at hk
    exact absurd (hj.symm.trans hk) (by simp)
  | some j =>
    by_cases ha : j.active = true
    · obtain ⟨e, _, he, hd⟩ := Device.endJob_eq hj ha st b
      refine he k ?_
      rw [hd, Device.job, Device.unloadDone_table, Device.finishOpt_jobs] at hk
      exact hk
    · rw [Device.endJob, hj] at hk
      simp only [Bool.not_eq_true] at ha
      simp only [ha, Bool.not_false, if_true] at hk
      obtain rfl : j = k := Option.some.inj (hj.symm.trans hk)
      simpa [Job.active] using ha

/-- The end of an active job ends its pending handle with the status given. -/
theorem Device.endJob_ended {d : Device} {id h : Nat} {j : Job} {x : Handle} (hj : d.job id = some j)
    (ha : j.active = true) (hh : j.handle = some h) (hx : d.mbx.handles.look h = some x) (hf : x.final = none) (st : Nat)
    (b : List Byte) : (d.endJob id st b).ended h = some st := by
  obtain ⟨e, he, _, hd⟩ := Device.endJob_eq hj ha st b
  rw [hd, hh]
  exact Device.ended_unloadDone (Device.finish_ended e h st b x (by rw [he.mbx (by decide)]; exact hx) hf)

/-! ## Admission -/

/-- While fewer than 64 jobs are active, a job is admitted: it waits, under a free identifier (R712). -/
theorem Device.admitJob_room {d : Device} (h : d.jobs.activeCount < 64) (j : Job) :
    ∃ id e k, d.admitJob j = some (id, e) ∧ e.mbx = d.mbx ∧ e.job id = some k ∧
      k = { j with state := .waiting, order := k.order, admitted := k.admitted, admitAt := k.admitAt } := by
  rw [Device.admitJob, if_neg (Nat.not_le.mpr h)]
  exact ⟨_, _, _, rfl, rfl, Tbl.look_put_same _ _ _, rfl⟩

/-- A command of an engine that admits its job is accepted with the next handle. -/
theorem admitCmd_room {r : Request} {d : Device} (hh : d.mbx.handles.length < 256) (ha : d.jobs.activeCount < 64)
    (ch : Nat) (j : Job) : ∃ id e k, admitCmd r ch d j = (e, acceptedWith d.mbx.nextHandle) ∧ e.job id = some k ∧
      k = { j with
        handle := some d.mbx.nextHandle, state := .waiting, order := k.order, admitted := k.admitted,
        admitAt := k.admitAt } := by
  obtain ⟨id, e, k, he, -, hk, hj⟩ := Device.admitJob_room (d := { d with mbx := d.mbx.taking ch r.op }) ha
    { j with handle := some d.mbx.nextHandle }
  refine ⟨id, e, k, ?_, hk, hj⟩
  rw [admitCmd, Mbx.newHandle_some _ ch r.op hh]
  dsimp only
  rw [he]
  rfl

@[simp] theorem Device.answer_job (d : Device) (ch : Nat) (r : Request) (a : Reply) (id : Nat) :
    (d.answer ch r a).job id = d.job id := by simp [Device.job]

@[simp] theorem Device.answer_ended (d : Device) (ch : Nat) (r : Request) (a : Reply) (h : Nat) :
    (d.answer ch r a).ended h = d.ended h := by simp [Device.ended]

/-! ## Images submitted -/

section
variable {s : State} {ch : Fin 8} {r : Request} {b : Buffer} {img : List Byte}

/-- The buffers a submission binds. -/
def Request.jobBufs (r : Request) : List Nat := (List.range (r.u 28 1)).map fun i => r.u (32 + 4 * i) 4

/-- JOB_SUBMIT of a readable image answers by the check of the image (R744). -/
theorem jobSubmit_next (hr : s.holds ch 0x0500 r) (hb : s.dev.buf (r.u 0 4) = some b)
    (hsz : r.u 8 8 + r.u 16 8 ≤ b.size) (hn : r.jobBufs.any (fun i => (s.dev.buf i).isNone) = false)
    (hl : b.lost = false) (hi : s.dev.bufRead s.mem (r.u 0 4) (r.u 8 8) (r.u 16 8) = .ok img) {d : Device} {a : Reply}
    (he : (match imageError img r.jobBufs.length (s.dev.bindOk r.jobBufs) with
      | some (error, index) => submitBad r ch.val error index s.dev
      | none => submitGood r ch.val img r.jobBufs s.dev) = (d, a)) :
    exec (.jobSubmit ch) s = .next (s.answered ch r d a) := by
  change execJobSubmit ch s = _
  rw [execJobSubmit, commandRead_next _ _ _ _ r hr]
  change r.jobBufs.any _ = false at hn
  have hlt : ¬ b.size < r.u 8 8 + r.u 16 8 := by omega
  simp only [hb, hi, hl, decide_eq_false hlt, Bool.false_or, Bool.false_eq_true, if_false]
  rw [if_neg (by simp [Request.jobBufs] at hn; simpa using hn)]
  exact congrArg (fun x : Device × Reply => Host.Outcome.next (s.answered ch r x.1 x.2)) he

end

theorem submitGood_accepts {s : State} {r : Request} {img : List Byte} {bufs : List Nat} {gs : List Grant} {d' : Device}
    (hh : s.dev.mbx.handles.length < 256) (ha : s.dev.jobs.activeCount < 64)
    (hp : s.dev.couldPlan [] (imageParts img) = true) (hg : allocSnaps (imageGrants img bufs) s.dev = some (gs, d'))
    (ch : Nat) : ∃ id e k, submitGood r ch img bufs s.dev = (e, acceptedWith s.dev.mbx.nextHandle) ∧ e.job id = some k ∧
      k.cls = .user ∧ k.state = .waiting ∧ k.handle = some s.dev.mbx.nextHandle ∧ k.grants = gs ∧
      k.parts = imageParts img ∧ k.restartMax = r.u 24 1 := by
  have hf : s.dev.agrees [.memsys] d' := by simp [Device.agrees_of_allocSnaps hg]
  have hm : d'.mbx = s.dev.mbx := hf.mbx (by decide)
  obtain ⟨id, e, k, he, hk, hj⟩ := admitCmd_room (r := r) (d := d') (by rwa [hm]) (by rwa [hf.jobs (by decide)]) ch
    { Job.blank .user .image with
      restartMax := r.u 24 1, waitMs := if r.u 26 2 = 0 then 100 else r.u 26 2, parts := imageParts img, grants := gs
      sched := imageSched img, privileged := hasWindow (imageSched img), image := img }
  refine ⟨id, e, k, ?_, hk, ?_⟩
  · simp only [submitGood, hp, hg, Bool.not_true, Bool.false_eq_true, if_false]
    rw [he, hm]
    rfl
  · rw [hm] at hj
    rw [hj]
    exact ⟨rfl, rfl, rfl, rfl, rfl, rfl⟩

theorem submitBad_accepts {d : Device} {r : Request} (hh : d.mbx.handles.length < 256) (ha : d.jobs.activeCount < 64)
    (ch error index : Nat) : ∃ e, submitBad r ch error index d = (e, acceptedWith d.mbx.nextHandle) ∧
      e.ended d.mbx.nextHandle = some stBadField := by
  obtain ⟨id, e, k, he, hm, hk, hj⟩ := Device.admitJob_room (d := { d with mbx := d.mbx.taking ch r.op }) ha
    { Job.blank .user .image with handle := some d.mbx.nextHandle, restartMax := r.u 24 1 }
  rw [submitBad, Mbx.newHandle_some _ ch r.op hh]
  dsimp only
  rw [he]
  refine ⟨_, rfl, Device.endJob_ended (x := ⟨ch, r.op, none, [], false, false, false⟩) hk ?_ ?_ ?_ rfl _ _⟩
  · rw [hj]; rfl
  · rw [hj]
  · rw [hm]
    exact Tbl.look_put_same _ _ _

theorem submittedImagesAreJudged_holds : submittedImagesAreJudged := by
  intro s ch r b img
  refine fun hr hb hsz hn hl hi hh ha => ⟨fun gs d' hok hp hg => ?_, fun e hbad => ?_⟩
  · obtain ⟨id, e, k, he, hk⟩ := submitGood_accepts (r := r) hh ha hp hg ch.val
    refine ⟨_, _, jobSubmit_next hr hb hsz hn hl hi (d := e) (a := acceptedWith s.dev.mbx.nextHandle) ?_,
      Device.answer_formed _ _ _ _, rfl, rfl, id, k, ?_⟩
    · rw [show imageError img r.jobBufs.length (s.dev.bindOk r.jobBufs) = none from hok]
      exact he
    · rw [State.answered, State.withDev, Device.answer_job]
      exact hk
  · obtain ⟨d, hd, hend⟩ := submitBad_accepts (r := r) hh ha ch.val e.1 e.2
    refine ⟨_, _, jobSubmit_next hr hb hsz hn hl hi (d := d) (a := acceptedWith s.dev.mbx.nextHandle) ?_,
      Device.answer_formed _ _ _ _, rfl, rfl, ?_⟩
    · rw [show imageError img r.jobBufs.length (s.dev.bindOk r.jobBufs) = some e from hbad]
      exact hd
    · rw [State.answered, State.withDev, Device.answer_ended]
      exact hend

/-! ## Jobs and profiles -/

theorem length_fit (n : Nat) (b : List Byte) : (fit n b).length = n := by
  simp only [fit, List.length_append, List.length_take, length_zeros]
  omega

theorem JobState.code_lt (c : JobState) : c.code < 256 := by cases c <;> decide

theorem JobClass.code_lt (c : JobClass) : c.code < 256 := by cases c <;> decide

theorem ProfState.code_lt (p : ProfState) : p.code < 256 := by cases p <;> decide

theorem Device.waitReason_lt (d : Device) (id : Nat) (j : Job) : d.waitReason id j < 256 := by
  unfold Device.waitReason
  repeat' split
  all_goals decide

theorem jobStatus_reports {s : State} {ch : Fin 8} {r : Request} {j : Job} (hr : s.holds ch 0x0501 r)
    (hj : s.dev.job (r.u 0 2) = some j) : Reports (.jobStatus ch) s ch r (fun p => p.length = 32 ∧
      fieldAt p 0 1 = j.cls.code ∧ fieldAt p 1 1 = j.state.code ∧ fieldAt p 8 1 = s.dev.waitReason (r.u 0 2) j) := by
  refine reports_of_query (show execJobStatus ch s = _ from rfl) hr (by simp only [hj]; rfl) ?_
  have h0 := Nat.mod_eq_of_lt j.cls.code_lt
  have h1 := Nat.mod_eq_of_lt j.state.code_lt
  have h8 := Nat.mod_eq_of_lt (s.dev.waitReason_lt (r.u 0 2) j)
  simp only [List.append_assoc]
  refine ⟨by simp, ?_, ?_, ?_⟩ <;> simp [fieldAt_skip, fieldAt_head, h0, h1, h8]

theorem profileStatus_reports {s : State} {ch : Fin 8} {r : Request} (hr : s.holds ch 0x0508 r) :
    Reports (.profileStatus ch) s ch r (fun p => p.length = 64 ∧
      fieldAt p 0 1 = s.dev.jobs.profile.state.code ∧ fieldAt p 4 4 = s.dev.jobs.profile.id % 2 ^ 32) := by
  refine reports_of_query (show execProfileStatus ch s = _ from rfl) hr rfl ?_
  have h0 := Nat.mod_eq_of_lt s.dev.jobs.profile.state.code_lt
  simp only [List.append_assoc]
  refine ⟨by simp [length_fit], ?_, ?_⟩ <;> simp [fieldAt_skip, fieldAt_head, h0]

/-- A profile that leaves is gone, or waits for its jobs (R748). -/
theorem Device.unloadDone_profile {d : Device} {h : Nat} (hp : d.jobs.profile.state = .unloading)
    (hh : d.jobs.profile.handle = some h) : if d.profileBusy = true
      then d.unloadDone.jobs.profile.state = .unloading ∧ d.unloadDone.jobs.profile.handle = some h
      else d.unloadDone.jobs.profile.state = .none := by
  cases hb : d.profileBusy with
  | true =>
    rw [if_pos rfl, Device.unloadDone_of_stays (.inr hb)]
    exact ⟨hp, hh⟩
  | false =>
    obtain ⟨e, k, _, _, hnone, he⟩ := Device.unloadDone_of_leaves hp hb
    rw [if_neg Bool.false_ne_true, he, Device.finishOpt_jobs]
    exact hnone

theorem profileUnload_accepts {s : State} {ch : Fin 8} {r : Request} (hr : s.holds ch 0x0507 r)
    (hact : s.dev.jobs.profile.state = .active) (hroom : s.dev.mbx.handles.length < 256) :
    Accepts (.profileUnload ch) s ch (fun h t => t.mem = s.mem ∧ if s.dev.profileBusy = true
        then t.dev.jobs.profile.state = .unloading ∧ t.dev.jobs.profile.handle = some h
        else t.dev.jobs.profile.state = .none) := by
  refine accepts_of_command (show execProfileUnload ch s = _ from rfl) hr hroom
    (if_neg (by simp [hact])) fun h hh => ⟨rfl, ?_⟩
  simp only [State.answered, State.withDev, Device.answer_jobs]
  exact Device.unloadDone_profile (d := { s.dev with
    mbx := s.dev.mbx.taking ch.val 0x0507
    jobs := { s.dev.jobs with profile := { s.dev.jobs.profile with state := .unloading, handle := some h } } }) rfl rfl

/-! ## Loads -/

/-- The start of localisation and of the propagator keeps the profile. -/
theorem Device.coldStart_profile {α : Type} (f : Profile → α) (d : Device) :
    f d.locCold.ppStart.jobs.profile = f d.jobs.profile := by
  have h : d.agrees [.evt, .diag, .slv, .loc, .map] d.locCold.ppStart := by simp
  rw [h.jobs (by decide)]

/-- A profile that starts is active, under its number (R748). -/
theorem Device.startProfile_ok {d e : Device} {m n : Store} {flags group id : Nat} {zero : Bool} {nets : List Net}
    {units : List (Nat × Nat)} (h : d.startProfile m flags group id zero nets units = .ok (e, n)) :
    e.jobs.profile.state = .active ∧ e.jobs.profile.zero = zero ∧ e.jobs.profile.id = id := by
  simp only [Device.startProfile] at h
  split at h
  · cases h
  split at h
  · cases h
  split at h
  · cases h
  split at h
  · cases h
  split at h
  · cases h
  split at h
  · cases h
  cases h
  exact ⟨Device.coldStart_profile (·.state) _, Device.coldStart_profile (·.zero) _, Device.coldStart_profile (·.id) _⟩

/-- What a load that succeeds leaves, and the handle of one that fails. -/
theorem loadUnder_ok (h id : Nat) (d e : Device) (m n : Store) :
    (loadUnder h id d m (.ok (e, n))).2 = n ∧ (loadUnder h id d m (.ok (e, n))).1.jobs = e.jobs :=
  ⟨rfl, e.finish_jobs h _ _⟩

theorem loadUnder_error {h id : Nat} {d : Device} {x : Handle} (hx : d.mbx.handles.look h = some x) (hf : x.final = none)
    (m : Store) (e : LoadFail) : (loadUnder h id d m (.error e)).2 = m ∧
      (loadUnder h id d m (.error e)).1.jobs = d.jobs ∧ (loadUnder h id d m (.error e)).1.ended h = some e.status :=
  ⟨rfl, d.finish_jobs h _ _, Device.finish_ended d h _ _ x hx hf⟩

/-- Profile 0 that loads is active. -/
theorem loadZero_ok {d e : Device} {m n : Store} (h : loadZero d m = .ok (e, n)) :
    e.jobs.profile.state = .active ∧ e.jobs.profile.zero = true := by
  unfold loadZero at h
  split at h
  · cases h
  split at h
  · cases h
  obtain ⟨ha, hz, -⟩ := Device.startProfile_ok h
  exact ⟨ha, hz⟩

/-- A profile of an image that loads is active, under its number. -/
theorem loadImage_ok {b : List Byte} {d e : Device} {m n : Store} (h : loadImage b d m = .ok (e, n)) :
    e.jobs.profile.state = .active ∧ e.jobs.profile.id = imgField b 8 4 := by
  unfold loadImage at h
  dsimp only at h
  split at h
  · cases h
  split at h
  · cases h
  split at h
  · cases h
  split at h
  · cases h
  split at h
  · cases h
  obtain ⟨ha, -, hi⟩ := Device.startProfile_ok h
  exact ⟨ha, hi⟩

/-- The device a PROFILE_LOAD works on: its handle taken, the configuration digest extended (R748, R812). -/
def Device.loading (d : Device) (ch : Nat) (r : Request) : Device :=
  Device.extendConfig { d with mbx := d.mbx.taking ch 0x0506 } 0x0506 r.body

section
variable {s : State} {ch : Fin 8} {r : Request} (hr : s.holds ch 0x0506 r) (hn : s.dev.jobs.profile.state = .none)
  (hroom : s.dev.mbx.handles.length < 256)
include hr hn hroom

/-- A load of Profile 0 is accepted with the next handle, and leaves what its work leaves. -/
theorem profileLoad_zero (h0 : r.u 0 4 = 0) {P : Nat → State → Prop}
    (hP : ∀ h, h = s.dev.mbx.nextHandle → ∀ x, x = loadUnder h 0 (s.dev.loading ch.val r) s.mem
      (loadZero (s.dev.loading ch.val r) s.mem) → P h (s.withAll (x.1.answer ch.val r (acceptedWith h)) x.2)) :
    Accepts (.profileLoad ch) s ch P := by
  have hop := State.op_of_holds hr
  refine ⟨_, _, (commandMem_next _ _ _ _ r hr : execProfileLoad ch s = _), ?_, rfl, ?_⟩
  all_goals
    dsimp only
    rw [hn, h0, hop, Mbx.newHandle_some _ _ _ hroom]
  · exact Device.answer_formed _ _ _ _
  · exact hP _ rfl _ rfl

/-- A load of a readable image in a host buffer is accepted with the next handle, and leaves what its work leaves. -/
theorem profileLoad_image {b : Buffer} {img : List Byte} (h0 : r.u 0 4 ≠ 0) (hh : isHostBuf (r.u 0 4) = true)
    (hb : s.dev.buf (r.u 0 4) = some b) (hsz : r.u 8 8 + r.u 16 8 ≤ b.size) (hl : b.lost = false)
    (hrd : s.dev.bufReady (r.u 0 4) = true)
    (hi : (s.dev.loading ch.val r).bufRead s.mem (r.u 0 4) (r.u 8 8) (r.u 16 8) = .ok img) {P : Nat → State → Prop}
    (hP : ∀ h, h = s.dev.mbx.nextHandle → ∀ x, x = loadUnder h (imgField img 8 4) (s.dev.loading ch.val r) s.mem
      (loadImage img (s.dev.loading ch.val r) s.mem) → P h (s.withAll (x.1.answer ch.val r (acceptedWith h)) x.2)) :
    Accepts (.profileLoad ch) s ch P := by
  have hop := State.op_of_holds hr
  have hlt : ¬ b.size < r.u 8 8 + r.u 16 8 := by omega
  have hi' : (Device.extendConfig { s.dev with mbx := s.dev.mbx.taking ch.val 0x0506 } 0x0506 r.body).bufRead s.mem
    (r.u 0 4) (r.u 8 8) (r.u 16 8) = .ok img := hi
  refine ⟨_, _, (commandMem_next _ _ _ _ r hr : execProfileLoad ch s = _), ?_, rfl, ?_⟩
  all_goals
    simp only [hn, h0, hh, hb, hl, hrd, hlt, hop, Mbx.newHandle_some _ _ _ hroom, Option.elim_some, Option.any_some]
    rw [if_neg (by decide), if_neg (by simp), if_neg (by simp), if_neg (by simp), if_neg not_false, hi']
  · exact Device.answer_formed _ _ _ _
  · exact hP _ rfl _ rfl

end

/-- The handle of a load is pending while its work runs. -/
theorem Device.loading_handle (d : Device) (ch : Nat) (r : Request) :
    (d.loading ch r).mbx.handles.look d.mbx.nextHandle = some ⟨ch, 0x0506, none, [], false, false, false⟩ :=
  Tbl.look_put_same _ _ _

theorem jobsAndProfilesAnswer_holds : jobsAndProfilesAnswer := by
  intro s ch r
  refine ⟨fun j hr hj => jobStatus_reports hr hj, fun hr => ?_, fun hr => ?_, fun hr => profileStatus_reports hr,
    fun hr ha hroom => profileUnload_accepts hr ha hroom, fun x hr hn h0 hroom hx => ?_,
    fun b img y hr hn h0 hh hb hsz hl hrd hroom hi hy => ?_⟩
  · exact reports_of_query (show execJobList ch s = _ from rfl) hr rfl
      ⟨by simp [Jobs.activeCount, List.map_const', List.sum_replicate_nat, Nat.mul_comm], by rw [fieldAt_head]; rfl⟩
  · exact sets_of_command (show execJobConfig ch s = _ from rfl) hr rfl (by simp [State.answered, State.withDev])
  · refine profileLoad_zero hr hn hroom h0 fun h _ y hy => ?_
    rw [show loadZero (s.dev.loading ch.val r) s.mem = _ from hx] at hy
    obtain ⟨hm, hj⟩ := loadUnder_ok h 0 (s.dev.loading ch.val r) x.1 s.mem x.2
    obtain ⟨ha, hz⟩ := loadZero_ok (e := x.1) (n := x.2) hx
    rw [← hy] at hm hj
    simp only [State.withAll, Device.answer_jobs, hm, hj]
    exact ⟨trivial, ha, hz⟩
  · refine profileLoad_image hr hn hroom h0 hh hb hsz hl hrd hi fun h hnext z hz => ?_
    rw [show loadImage img (s.dev.loading ch.val r) s.mem = y from hy] at hz
    cases y with
    | ok x =>
      obtain ⟨hm, hj⟩ := loadUnder_ok h (imgField img 8 4) (s.dev.loading ch.val r) x.1 s.mem x.2
      obtain ⟨ha, hid⟩ := loadImage_ok (e := x.1) (n := x.2) hy
      rw [← hz] at hm hj
      simp only [State.withAll, Device.answer_jobs, hm, hj]
      exact ⟨trivial, ha, hid⟩
    | error e =>
      obtain ⟨hm, hj, he⟩ := loadUnder_error (id := imgField img 8 4) (s.dev.loading_handle ch.val r) rfl s.mem e
      rw [← hnext, ← hz] at hm hj he
      simp only [State.withAll, Device.answer_jobs, Device.answer_ended]
      exact ⟨hm, hj, he⟩

/-- Settles O32. -/
theorem jobsAndProfilesAnswerTheHost : Obligations.JobsAndProfilesAnswerTheHost :=
  ⟨submittedImagesAreJudged_holds, jobsAndProfilesAnswer_holds⟩

end Sys2Proof.Machine
end

section
/-! SUPPORT. A job from its placement to its end (O33). -/

namespace Sys2Proof.Machine

variable {s : State} {id : Nat} {j : Job}

/-! ## Placed, loaded -/

@[simp] theorem Device.job_setJob (d : Device) (id : Nat) (j : Job) : (d.setJob id j).job id = some j :=
  Tbl.look_put_same _ _ _

@[simp] theorem Device.job_reserve (d : Device) (j : Job) (ps : List Part) (id : Nat) :
    (d.reserve j ps).job id = d.job id := by
  unfold Device.reserve
  split <;> rfl

/-- A frame that does not list the jobs keeps every job. -/
theorem Device.agrees.job {ps : List MachinePart} {d e : Device} (h : d.agrees ps e)
    (hp : .jobs ∉ ps) (id : Nat) : e.job id = d.job id := by
  rw [Device.job, Device.job, h.jobs hp]

/-- Assigning the parts of a job keeps the jobs. -/
theorem Device.job_assignParts (ps : List Part) (d : Device) (k id : Nat) :
    (ps.foldl (fun d p => d.assignPart k p) d).job id = d.job id :=
  (show d.agrees [.units, .clusters] (ps.foldl (fun d p => d.assignPart k p) d) by simp).job (by decide) id

theorem jobPlace_loads {ps : List Part} (hj : s.dev.job id = some j) (hst : j.state = .waiting) (hc : j.cls ≠ .test)
    (hl : s.dev.grantsLost j = false) (he : s.dev.enginesPlan j = true)
    (hp : (s.dev.planView j).couldPlan [] j.parts = true) (hs : s.dev.startable id j = true)
    (hb : s.dev.jobs.table.any (fun e => e.2.before j && s.dev.startable e.1 e.2) = false)
    (hps : s.dev.planJob j = some ps) : Completes (.jobPlace id) s (fun t =>
      t.dev.job id = some { j with state := .loading, parts := ps, dies := j.dies ||| partDies ps }) := by
  refine ⟨_, onBoth_next (placeJob id) s, State.withAll_pending _ _ _, ?_⟩
  dsimp only [State.withAll]
  simp only [placeJob, hj, hst, hc, hl, he, hp, hs, hb, hps]
  rw [if_neg (by simp), if_neg (by simp), if_neg (by simp)]
  rw [Device.job_assignParts, Device.job_reserve, Device.job_setJob]

theorem jobLoaded_runs (hj : s.dev.job id = some j) (hst : j.state = .loading) (hl : s.dev.jobLoaded id j = true) :
    Completes (.jobLoaded id) s (fun t => t.mem = s.mem ∧
      ∃ k, t.dev.job id = some k ∧ k.state = .running ∧ k.runAt = s.dev.time.now) := by
  have hif : (decide (j.state = .loading) && s.dev.jobLoaded id j) = true := by simp [hst, hl]
  refine ⟨_, (show exec (.jobLoaded id) s = execJobLoaded id s from rfl).trans (onBoth_next _ s),
    State.withAll_pending _ _ _, ?_⟩
  dsimp only [State.withAll]
  rw [hj]
  dsimp only
  rw [if_pos hif]
  refine ⟨rfl, { j with state := .running, runAt := s.dev.time.now }, ?_, rfl, rfl⟩
  dsimp only
  generalize hd : s.dev.setJob id { j with state := .running, runAt := s.dev.time.now } = d
  have hk : d.job id = some { j with state := .running, runAt := s.dev.time.now } := hd ▸ Device.job_setJob _ _ _
  obtain ⟨e, he⟩ : ∃ e : Device, e = (j.parts.foldl (fun (d : Device) p => p.phys.foldl (fun (d : Device) u =>
    d.updUnit u fun x => if x.state = .loading then startUnit x else x) d) d) := ⟨_, rfl⟩
  have hf : d.agrees [.units] e := by
    rw [he]
    refine (Device.agrees_foldl (fun e p => ?_) _ d d).mpr (Device.agrees_refl _ _)
    simp
  rw [← he]
  have hg (e : Device) (h : e.job id = d.job id) : (match j.work with
      | .mapExport => e.sendExport id j
      | _ => e).job id = d.job id := by
    split
    · exact ((show e.agrees [.evt, .mbx, .out] (e.sendExport id j) by simp).job (by decide) id).trans h
    · exact h
  rw [← hk]
  exact hg _ (((show e.agrees [.vis, .slv, .map, .prs] ((((e.steLoad id j).fteLoad id j).slvLoad id j).prsLoad s.mem id j)
    by simp).job (by decide) id).trans (hf.job (by decide) id))

/-! ## Faults -/

theorem jobFault_restarts {cause source : Nat} (h1 : 1 ≤ cause) (h2 : cause ≤ 0x0E) (h3 : source ≤ 12)
    (hj : s.dev.job id = some j) (hst : j.state = .loading ∨ j.state = .running) (die : Fin 8) (index : Nat)
    (addr : Option Nat) (detail : Nat) : Completes (.jobFault id cause source die index addr detail) s (fun t =>
      t.mem = s.mem ∧ t.dev.evt.flogCount = (s.dev.evt.flogCount + 1) % 2 ^ 32 ∧
      ∃ k, t.dev.job id = some k ∧ k.state = .restarting ∧ k.cause = cause ∧
        k.restarts = (if counted cause && !(counted cause && j.restartMax ≤ j.restarts) then j.restarts + 1
          else j.restarts)) := by
  refine ⟨_, (show exec (.jobFault id cause source die index addr detail) s = execJobFault id cause source die index addr detail s
    from rfl).trans (onDev_next _ s), rfl, rfl, ?_⟩
  dsimp only [State.withDev]
  rw [if_pos (by simp [h1, h2, h3])]
  obtain ⟨e, he⟩ : ∃ e, e = (((s.dev.diagAdd die.val 0x0FC 0 16 1).stopUnits j).dropOps id).dropPackets id := ⟨_, rfl⟩
  have hf : s.dev.agrees [.diag, .units, .clusters, .vis, .slv, .prs] e := by simp [he]
  obtain ⟨n, o, hn⟩ : ∃ n o, s.dev.jobFault id cause source die.val index addr detail = (e.setJob id { j with
      state := .restarting, cause := cause
      restarts := (if counted cause && !(counted cause && j.restartMax ≤ j.restarts) then j.restarts + 1 else j.restarts)
      failing := counted cause && j.restartMax ≤ j.restarts
      lost := (s.dev.diagAdd die.val 0x0FC 0 16 1).grantsLost j }).faultEntry id cause n o source die.val index addr
        detail := by
    rw [he, Device.jobFault, hj]
    obtain hst | hst := hst <;> simp only [hst] <;> exact ⟨_, _, rfl⟩
  rw [hn]
  refine ⟨?_, _, Tbl.look_put_same _ _ _, rfl, rfl, rfl⟩
  rw [← hf.evt (by decide)]
  rfl

/-! ## Restarts -/

theorem jobRestart_resumes {d : Device} {m : Store} (hj : s.dev.job id = some j) (hw : ∀ a b c, j.work ≠ .slice a b c)
    (hd : restartJob id s.dev s.mem = (d, m)) {P : Device → Store → Prop} (hP : P d m) :
    Resumes (.jobRestart id) s P := by
  refine ⟨d, m, ?_, hP⟩
  refine (show exec (.jobRestart id) s = execJobRestart id s from rfl).trans ((onBoth_next _ s).trans ?_)
  rw [hj]
  dsimp only
  split
  · next a b c h => exact absurd h (hw a b c)
  · rw [hd]

/-- A restart that fits gives back the parts it cannot keep and loads the job anew (R730). -/
theorem restartJob_loads {d e : Device} {m n : Store} {ps : List Part} (hj : d.job id = some j)
    (hst : j.state = .restarting) (hl : j.lost = false) (hg : d.grantsLost j = false) (hf : j.failing = false)
    (hc : snapCopy true j.grants (d, m) = (e, n)) (hd : e.domainWait j = false)
    (he : e.enginesPlan j = true) (hp : (e.planView j).couldPlan [] j.parts = true) (hps : e.planJob j = some ps) :
    restartJob id d m = (((((j.parts.filter fun p => !(e.planView j).usablePart p).foldl (fun d p => d.releasePart p) e).reserve
      j ps).reload id j ps), n) := by
  simp only [restartJob, hj, hst, hl, hg, hc, hf, hd, he, hp, hps]
  rw [if_neg (by simp), if_neg (by simp), if_neg (by simp), if_neg (by simp), if_neg (by simp)]

@[simp] theorem Device.event_job (d : Device) (code cause unit p0 p1 id : Nat) :
    (d.event code cause unit p0 p1).job id = d.job id := by simp [Device.job]

theorem jobRestart_loads {ps : List Part} (hj : s.dev.job id = some j) (hst : j.state = .restarting)
    (hw : ∀ a b c, j.work ≠ .slice a b c) (hl : j.lost = false) (hg : s.dev.grantsLost j = false) (hf : j.failing = false)
    (hd : (snapCopy true j.grants (s.dev, s.mem)).1.domainWait j = false)
    (he : (snapCopy true j.grants (s.dev, s.mem)).1.enginesPlan j = true)
    (hp : ((snapCopy true j.grants (s.dev, s.mem)).1.planView j).couldPlan [] j.parts = true)
    (hps : (snapCopy true j.grants (s.dev, s.mem)).1.planJob j = some ps) : Resumes (.jobRestart id) s (fun d m =>
        m = (snapCopy true j.grants (s.dev, s.mem)).2 ∧
        ∃ k, d.job id = some k ∧ k.state = .loading ∧ k.total = j.total + 1 ∧ k.restarts = j.restarts) := by
  refine jobRestart_resumes hj hw (restartJob_loads hj hst hl hg hf rfl hd he hp hps) ⟨rfl, { j with
    state := .loading, parts := ps.map fun p => { p with segment := 0, loaded := 0 }, dies := partDies ps, ready := 0
    total := j.total + 1, schedPos := 0, sticky := 0 }, ?_, rfl, rfl, rfl⟩
  rw [Device.reload, Device.event_job, Device.job_assignParts, Device.job_setJob]

theorem jobRestart_fails (hj : s.dev.job id = some j) (hst : j.state = .restarting)
    (hw : ∀ a b c, j.work ≠ .slice a b c) (hl : j.lost = false) (hg : s.dev.grantsLost j = false) (hf : j.failing = true) :
    Resumes (.jobRestart id) s (fun d m => m = (snapCopy true j.grants (s.dev, s.mem)).2 ∧
        (∀ k, d.job id = some k → k.state = .ended) ∧
        (∀ h hd, j.handle = some h → s.dev.mbx.handles.look h = some hd → hd.final = none → d.ended h = some 0x30)) := by
  have hc : s.dev.agrees [.memsys] (snapCopy true j.grants (s.dev, s.mem)).1 := by simp
  refine jobRestart_resumes hj hw (d := (snapCopy true j.grants (s.dev, s.mem)).1.failJob id stFailed j) ?_
    ⟨rfl, fun k hk => ?_, fun h hd hh hx hn => ?_⟩
  · simp only [restartJob, hj, hst, hl, hg, hf]
    rw [if_neg (by simp), if_neg (by simp), if_pos trivial]
  · exact Device.endJob_job _ _ _ _ (by simpa [Device.failJob, Device.job] using hk)
  · have := Device.endJob_ended ((hc.job (by decide) id).trans hj) (by simp [Job.active, hst]) hh (by rw [hc.mbx (by decide)]; exact hx) hn stFailed
      ((snapCopy true j.grants (s.dev, s.mem)).1.plainResult id j 0)
    rwa [Device.ended, Device.failJob, Device.event_mbx]

/-! ## Commits -/

/-- The end of a job under the status of a commit ends the job. -/
theorem Device.commitAs_job {d : Device} {status : Nat} {result : List Byte} {k : Job}
    (hk : (d.commitAs id j status result).job id = some k) : k.state = .ended :=
  Device.endJob_job _ _ _ _ hk

theorem exportCommit_job {d : Device} {m : Store} {k : Job} (hk : (exportCommit id j d m).1.job id = some k) :
    k.state = .ended := by
  unfold exportCommit at hk
  dsimp only at hk
  split at hk
  · exact Device.commitAs_job hk
  · split at hk
    · exact Device.commitAs_job hk
    · split at hk <;> exact Device.commitAs_job hk

theorem tickCommit_job {x : TickOut} {d : Device} {m : Store} {k : Job} (hk : (tickCommit id j x d m).1.job id = some k) :
    k.state = .ended :=
  Device.endJob_job _ _ _ _ hk

/-- Whatever its work, a commit ends its job (R720). -/
theorem commitJob_job {d : Device} {out : CommitOut} {m : Store} (hw : ∀ a b c, j.work ≠ .slice a b c) {k : Job}
    (hk : (commitJob id j out d m).1.job id = some k) : k.state = .ended := by
  unfold commitJob at hk
  cases hj : j.work <;> simp only [hj] at hk
  case tick => exact tickCommit_job hk
  case mapExport => exact exportCommit_job hk
  case slice a b c => exact absurd hj (hw a b c)
  case mapLoad | prsTree | prsUpdate => exact Device.commitAs_job hk
  all_goals exact Device.endJob_job _ _ _ _ hk

/-- Work of the self-test ends no job by a commit. -/
theorem Device.work_of_commitReady {d : Device} (h : d.commitReady id j = true) (a b c : Nat) :
    j.work ≠ .slice a b c := by
  intro hw
  simp [Device.commitReady, hw] at h

theorem Device.running_of_commitReady {d : Device} (h : d.commitReady id j = true) : j.state = .running := by
  refine Decidable.by_contra fun hst => ?_
  simp [Device.commitReady, hst] at h

theorem jobCommit_resumes {out : CommitOut} (hj : s.dev.job id = some j) (hc : s.dev.commitReady id j = true)
    {P : Device → Store → Prop} (hP : P (commitJob id j out s.dev s.mem).1 (commitJob id j out s.dev s.mem).2) :
    Resumes (.jobCommit id out) s P := by
  refine ⟨_, _, ?_, hP⟩
  refine (show exec (.jobCommit id out) s = execJobCommit id out s from rfl).trans ((onBoth_next _ s).trans ?_)
  rw [hj]
  dsimp only
  rw [hc]
  rfl

theorem jobCommit_image {out : CommitOut} {h : Nat} {x : Handle} (hj : s.dev.job id = some j)
    (hc : s.dev.commitReady id j = true) (hw : j.work = .image) (hh : j.handle = some h)
    (hx : s.dev.mbx.handles.look h = some x) (hf : x.final = none) : Resumes (.jobCommit id out) s (fun d m =>
      m = s.mem ∧ d.ended h = some (if 0 < j.total then 0x25 else 0x00)) := by
  refine jobCommit_resumes hj hc ?_
  have ha : j.active = true := by simp [Job.active, Device.running_of_commitReady hc]
  simp only [commitJob, hw]
  exact ⟨trivial, Device.endJob_ended hj ha hh hx hf _ _⟩

theorem jobsMoveThroughTheirStates_holds : jobsMoveThroughTheirStates := by
  intro s id j hj
  exact ⟨fun ps hst hc hl he hp hs hb hps => jobPlace_loads hj hst hc hl he hp hs hb hps,
    fun hst hl => jobLoaded_runs hj hst hl,
    fun cause source die index addr detail h1 h2 h3 hst => jobFault_restarts h1 h2 h3 hj hst die index addr detail,
    fun ps hst hw hl hg hf hd he hp hps => jobRestart_loads hj hst hw hl hg hf hd he hp hps,
    fun hst hw hl hg hf => jobRestart_fails hj hst hw hl hg hf,
    fun out hc => jobCommit_resumes hj hc fun k hk => commitJob_job (Device.work_of_commitReady hc) hk,
    fun out h x hc hw hh hx hf => jobCommit_image hj hc hw hh hx hf⟩

/-- A late TICK marks the pose (R64, R589). -/
theorem tickDeadlinesMarkThePose_holds : tickDeadlinesMarkThePose := by
  intro s id j hf
  refine ⟨_, (show exec .tickDeadline s = execTickDeadline s from rfl).trans (onDev_next _ s), rfl, rfl, ?_⟩
  dsimp only [State.withDev]
  rw [hf]
  exact ⟨rfl, Tbl.look_put_same _ _ _, Device.le_now_advanceTo _ _⟩

/-- Settles O33. -/
theorem jobsRunToTheirEnd : Obligations.JobsRunToTheirEnd :=
  ⟨jobsMoveThroughTheirStates_holds, tickDeadlinesMarkThePose_holds⟩

end Sys2Proof.Machine
end

section
/-! SUPPORT. Power commands and resets of parts (O34). -/

namespace Sys2Proof.Machine

/-! ## Commands that may wait -/

section
variable {op : Nat} {ch : Fin 8} {s : State} {r : Request}
  {body : Request → Device → Store → (Device × Store) × Option Reply} {d : Device} {m : Store}

/-- A command that gets its answer does its work and answers. -/
theorem commandLater_answers {a : Reply} (hr : s.holds ch op r) (hb : body r s.dev s.mem = ((d, m), some a)) :
    commandLater op ch body s = .next (s.withAll (d.answer ch.val r a) m) := by
  unfold State.holds at hr
  simp [commandLater, hr, hb, State.withAll]

/-- A command whose answer an event gives does its work alone. -/
theorem commandLater_waits (hr : s.holds ch op r) (hb : body r s.dev s.mem = ((d, m), none)) :
    commandLater op ch body s = .next (s.withAll d m) := by
  unfold State.holds at hr
  simp [commandLater, hr, hb, State.withAll]

end

@[simp] theorem Device.answer_domainOn (d : Device) (ch : Nat) (r : Request) (a : Reply) (die dom : Nat) :
    (d.answer ch r a).domainOn die dom = d.domainOn die dom := by simp [Device.domainOn]

/-- Only BAD_FIELD is a violation (R181). -/
theorem Device.answer_evt {a : Reply} (h : a.status ≠ stBadField) (d : Device) (ch : Nat) (r : Request) :
    (d.answer ch r a).evt = d.evt := by
  simp only [Device.answer, if_neg h, Device.setChan]
  split <;> rfl

/-! ## Domains and dies off -/

/-- A bit that is masked out is clear. -/
theorem getLsbD_and_not_twoPow {w : Nat} (x : BitVec w) (k : Nat) : (x &&& ~~~ BitVec.twoPow w k).getLsbD k = false := by
  by_cases hk : k < w <;> simp [BitVec.getLsbD_twoPow, hk]

/-- A bit that is put in is set. -/
theorem getLsbD_or_twoPow {w : Nat} (x : BitVec w) {k : Nat} (hk : k < w) :
    (x ||| BitVec.twoPow w k).getLsbD k = true := by
  simp [BitVec.getLsbD_twoPow, hk]

/-- A die that has bit `k` of its mask is one of the eight. -/
theorem lt_of_getLsbD {w k : Nat} {x : BitVec w} (h : x.getLsbD k = true) : k < w := by
  refine Decidable.by_contra fun hk => ?_
  rw [BitVec.getLsbD_of_ge x k (Nat.not_lt.mp hk)] at h
  cases h

/-- Of the power state, a domain that goes off moves its own bit alone. -/
theorem domainOff_pwr (die dom : Nat) (d : Device) (m : Store) : (domainOff die dom d m).1.pwr = { d.pwr with
    domains := d.pwr.domains.upd die 0 fun x => x &&& ~~~ BitVec.twoPow 12 dom } := by
  obtain ⟨e, he⟩ : ∃ e, e = (domainContents die dom (d.faultAll 0x0B (domSource dom) die
    (d.jobsIn fun j => (d.domainsOf j).elem (die, dom))) m).1 := ⟨_, rfl⟩
  have hf : d.agrees [.evt, .mbx, .diag, .jobs, .units, .clusters, .sfe, .vis, .slv, .prs] e := by simp [he]
  rw [show (domainOff die dom d m).1 = e.setDomain die dom false by rw [he]; rfl, Device.setDomain, hf.pwr (by decide)]
  rfl

/-- A domain that goes off is off (R754). -/
theorem domainOff_off {die dom : Nat} (hdom : dom < 12) (d : Device) (m : Store) :
    (domainOff die dom d m).1.domainOn die dom = false := by
  rw [Device.domainOn, if_neg (by omega), domainOff_pwr]
  simp [getLsbD_and_not_twoPow]

/-- Of the power state, a die that goes off moves what is its own (R756). -/
theorem dieOff_pwr (die : Nat) (d : Device) (m : Store) : (dieOff die d m).1.pwr = { d.pwr with
    dieOn := d.pwr.dieOn &&& ~~~ BitVec.twoPow 8 die, domains := d.pwr.domains.put die 0
    tjValid := d.pwr.tjValid &&& ~~~ BitVec.twoPow 8 die, throttle := d.pwr.throttle &&& ~~~ BitVec.twoPow 8 die
    cap := d.pwr.cap.del die, sensed := d.pwr.sensed &&& ~~~ BitVec.twoPow 8 die, current := d.pwr.current.del die
    resetting := d.pwr.resetting.filter fun r => r.1 / 16 != die } := by
  have hc (b : Device) (x : Device × Store) : b.agrees [.evt, .mbx, .diag, .jobs, .units, .clusters, .memsys, .sfe, .vis,
      .slv, .map, .prs] ((List.range 12).foldl (fun (x : Device × Store) dom => domainContents die dom x.1 x.2) x).1 ↔
      b.agrees [.evt, .mbx, .diag, .jobs, .units, .clusters, .memsys, .sfe, .vis, .slv, .map, .prs] x.1 :=
    Device.agrees_foldl_of (g := Prod.fst) (fun x i => by simp) _ b x
  simp only [dieOff]
  generalize hids : Device.jobsIn _ _ = ids
  obtain ⟨e, he⟩ : ∃ e, e = Device.storesDown (List.foldl (fun (x : Device × Store) dom => domainContents die dom x.1 x.2)
    (Device.faultAll { d with memsys := d.memsys.loseDie die } 0x0C 10 die ids, m) (List.range 12)).1 die := ⟨_, rfl⟩
  have hf : d.agrees [.evt, .mbx, .diag, .jobs, .units, .clusters, .memsys, .sfe, .vis, .slv, .map, .prs] e := by
    simp [he, hc]
  rw [← he, ← hf.pwr (by decide)]
  generalize hg : ({ e with
    pwr := { e.pwr with
      dieOn := e.pwr.dieOn &&& ~~~ BitVec.twoPow 8 die, domains := e.pwr.domains.put die 0
      tjValid := e.pwr.tjValid &&& ~~~ BitVec.twoPow 8 die, throttle := e.pwr.throttle &&& ~~~ BitVec.twoPow 8 die
      cap := e.pwr.cap.del die, sensed := e.pwr.sensed &&& ~~~ BitVec.twoPow 8 die, current := e.pwr.current.del die
      resetting := e.pwr.resetting.filter fun r => r.1 / 16 != die }
    grid := { e.grid with tensors := e.grid.tensors.del die }
    diag := e.diag.filter fun e => e.1 / 128 != die } : Device) = g
  rw [(show g.agrees [.evt, .mbx, .time, .tim, .ing, .vis, .out] (g.interfacesDown die) by simp).pwr (by decide), ← hg]

/-! ## The commands -/

section
variable {s : State} {ch : Fin 8} {r : Request}

theorem powerStatus_reports (hr : s.holds ch 0x0110 r) : Reports (.powerStatus ch) s ch r (fun p => p.length = 112 ∧
    fieldAt p 0 1 = s.dev.pwr.limit % 256 ∧ fieldAt p 4 4 = s.dev.pwr.est % 2 ^ 32 ∧
    fieldAt p 8 2 = s.dev.pwr.cTick % 65536) := by
  refine reports_of_query (show execPowerStatus ch s = _ from rfl) hr rfl ?_
  simp only [List.append_assoc]
  refine ⟨by simp [List.map_const'], ?_, ?_, ?_⟩ <;> simp [fieldAt_skip, fieldAt_head]

theorem pwrSense_sets (hr : s.holds ch 0x0114 r) : Sets (.pwrSense ch) s ch (fun t => t.dev.pwr = { s.dev.pwr with
    senseOn := r.u 0 1 == 1, senseVcore := r.u 2 2, senseGain := r.u 4 4, senseOffset := r.i 8 4 }) := by
  refine sets_of_command (show execPwrSense ch s = _ from rfl) hr rfl ?_
  simp only [State.answered, State.withDev, Device.answer_pwr]
  exact Device.agrees.pwr (ps := [.sfe]) (d := { s.dev with pwr := { s.dev.pwr with
    senseOn := r.u 0 1 == 1, senseVcore := r.u 2 2, senseGain := r.u 4 4, senseOffset := r.i 8 4 } }) (by simp) (by decide)

theorem domainPower_off (hr : s.holds ch 0x0112 r) (hb : s.dev.boot.ready = true)
    (hd : s.dev.pwr.dieOn.getLsbD (r.u 0 1) = true) (hdom : r.u 1 1 < 12)
    (hp : s.dev.domainPending (r.u 0 1) (r.u 1 1) = false) (h0 : r.u 2 1 = 0)
    (hk : s.dev.domainKept (r.u 0 1) (r.u 1 1) = false) : Completes (.domainPower ch) s (fun t =>
      (t.dev.chan ch.val).formed = some (okWith []) ∧ t.dev.domainOn (r.u 0 1) (r.u 1 1) = false) := by
  have hexec : exec (.domainPower ch) s = commandLater 0x0112 ch (domainPower ch.val) s := rfl
  cases ho : s.dev.domainOn (r.u 0 1) (r.u 1 1) with
  | true =>
    refine ⟨_, hexec.trans (commandLater_answers hr (d := (domainOff (r.u 0 1) (r.u 1 1) s.dev s.mem).1)
      (m := (domainOff (r.u 0 1) (r.u 1 1) s.dev s.mem).2) (a := okWith []) ?_), State.withAll_pending _ _ _,
      Device.answer_formed _ _ _ _, ?_⟩
    · simp only [domainPower, hb, hd, hp, h0, hk, ho, Bool.not_true, Bool.or_false, Bool.false_eq_true, if_false, if_true]
      rfl
    · rw [State.withAll, Device.answer_domainOn]
      exact domainOff_off hdom _ _
  | false =>
    refine ⟨_, hexec.trans (commandLater_answers hr (d := s.dev) (m := s.mem) (a := okWith []) ?_),
      State.withAll_pending _ _ _, Device.answer_formed _ _ _ _, ?_⟩
    · simp only [domainPower, hb, hd, hp, h0, hk, ho, Bool.not_true, Bool.or_false, Bool.false_eq_true, if_false, if_true]
      rfl
    · rw [State.withAll, Device.answer_domainOn]
      exact ho

theorem domainPower_on (hr : s.holds ch 0x0112 r) (hb : s.dev.boot.ready = true)
    (hd : s.dev.pwr.dieOn.getLsbD (r.u 0 1) = true) (hp : s.dev.domainPending (r.u 0 1) (r.u 1 1) = false)
    (h0 : r.u 2 1 ≠ 0) (ho : s.dev.domainOn (r.u 0 1) (r.u 1 1) = false) :
    exec (.domainPower ch) s = .next (s.withDev { s.dev with pwr := { s.dev.pwr with
      resetting := s.dev.pwr.resetting ++ [(domKey (r.u 0 1) (r.u 1 1), some ch.val)] } }) := by
  refine (show exec (.domainPower ch) s = commandLater 0x0112 ch (domainPower ch.val) s from rfl).trans
    (commandLater_waits hr ?_)
  simp only [domainPower, hb, hd, hp, h0, ho, Bool.not_true, Bool.or_false, Bool.false_eq_true, if_false]
  rfl

theorem diePower_on (hr : s.holds ch 0x0113 r) (hb : s.dev.boot.ready = true)
    (hp : s.dev.pwr.pendingOn.getLsbD (r.u 0 1) = false) (h1 : r.u 1 1 = 1) (hdie : r.u 0 1 < 8)
    (hoff : s.dev.pwr.dieOn.getLsbD (r.u 0 1) = false) (hbusy : s.dev.dieBusy (r.u 0 1) = false)
    (hroom : s.dev.mbx.handles.length < 256) : Accepts (.diePower ch) s ch (fun h t => t.mem = s.mem ∧
      t.dev.pwr.pendingOn.getLsbD (r.u 0 1) = true ∧ t.dev.pwr.dieHandles.look (r.u 0 1) = some h) := by
  refine ⟨_, s.dev.mbx.nextHandle, (show exec (.diePower ch) s = commandLater 0x0113 ch (diePower ch.val) s from rfl).trans
    (commandLater_answers hr (d := Device.dieOnStart { s.dev with mbx := s.dev.mbx.taking ch.val r.op } (r.u 0 1)
      s.dev.mbx.nextHandle) (m := s.mem) (a := acceptedWith s.dev.mbx.nextHandle) ?_), Device.answer_formed _ _ _ _, rfl,
    rfl, ?_⟩
  · simp only [diePower, hb, hp, h1, hoff, hbusy, Mbx.newHandle_some _ _ _ hroom, Bool.not_true, Bool.or_false, if_true,
      Bool.false_eq_true, if_false]
    rfl
  · simp only [State.withAll, Device.answer_pwr, Device.dieOnStart]
    exact ⟨getLsbD_or_twoPow _ hdie, Tbl.look_put_same _ _ _⟩

theorem diePower_off (hr : s.holds ch 0x0113 r) (hb : s.dev.boot.ready = true)
    (hp : s.dev.pwr.pendingOn.getLsbD (r.u 0 1) = false) (h1 : r.u 1 1 ≠ 1) (hk : s.dev.dieKept (r.u 0 1) = false)
    (hprof : s.dev.profileDie (r.u 0 1) = false) (hbusy : s.dev.dieBusy (r.u 0 1) = false)
    (hroom : s.dev.mbx.handles.length < 256) : Accepts (.diePower ch) s ch (fun _ t =>
      t.dev.pwr.dieOn.getLsbD (r.u 0 1) = false) := by
  obtain ⟨x, hx⟩ : ∃ x, x = dieOff (r.u 0 1) { s.dev with mbx := s.dev.mbx.taking ch.val r.op } s.mem := ⟨_, rfl⟩
  refine ⟨_, s.dev.mbx.nextHandle, (show exec (.diePower ch) s = commandLater 0x0113 ch (diePower ch.val) s from rfl).trans
    (commandLater_answers hr (d := x.1.finish s.dev.mbx.nextHandle stOk []) (m := x.2)
      (a := acceptedWith s.dev.mbx.nextHandle) ?_), Device.answer_formed _ _ _ _, rfl, ?_⟩
  · simp only [diePower, hb, hp, h1, hk, hprof, hbusy, Mbx.newHandle_some _ _ _ hroom, Bool.not_true, Bool.or_false,
      Bool.false_eq_true, if_false, hx]
    rfl
  · simp only [State.withAll, Device.answer_pwr, Device.finish_pwr, hx, dieOff_pwr]
    exact getLsbD_and_not_twoPow _ _

theorem partReset_starts (hr : s.holds ch 0x0504 r) (hp : s.dev.domainPending (r.u 0 1) (r.u 1 1) = false)
    (hdom : r.u 1 1 < 12) (ho : s.dev.domainOn (r.u 0 1) (r.u 1 1) = true) : Completes (.partReset ch) s (fun t =>
      t.dev.domainOn (r.u 0 1) (r.u 1 1) = false ∧
      (domKey (r.u 0 1) (r.u 1 1), some ch.val) ∈ t.dev.pwr.resetting) := by
  refine ⟨_, (show exec (.partReset ch) s = commandLater 0x0504 ch (partReset ch.val) s from rfl).trans
    (commandLater_waits hr (d := Device.domainReturn (domainOff (r.u 0 1) (r.u 1 1) s.dev s.mem).1 (r.u 0 1) (r.u 1 1)
      (some ch.val)) (m := (domainOff (r.u 0 1) (r.u 1 1) s.dev s.mem).2) ?_), State.withAll_pending _ _ _, ?_, ?_⟩
  · simp only [partReset, hp, ho, Bool.not_true, Bool.false_eq_true, if_false]
  · exact domainOff_off hdom s.dev s.mem
  · simp [State.withAll, Device.domainReturn]

theorem dieReset_starts (hr : s.holds ch 0x0505 r) (hk : s.dev.dieKept (r.u 0 1) = false)
    (hbusy : s.dev.dieBusy (r.u 0 1) = false) (hroom : s.dev.mbx.handles.length < 256) :
    Accepts (.dieReset ch) s ch (fun h t =>
      t.dev.pwr.dieOn.getLsbD (r.u 0 1) = false ∧ t.dev.pwr.pendingOn.getLsbD (r.u 0 1) = true ∧
      t.dev.evt.faultCp.getLsbD (r.u 0 1) = false ∧ t.dev.evt.faultTb.getLsbD (r.u 0 1) = false ∧
      t.dev.pwr.dieHandles.look (r.u 0 1) = some h) := by
  have hdie : r.u 0 1 < 8 := by
    simp only [Device.dieKept, Bool.or_eq_false_iff, Bool.not_eq_false'] at hk
    obtain ⟨⟨-, hon⟩, -⟩ := hk
    exact lt_of_getLsbD hon
  obtain ⟨x, hx⟩ : ∃ x, x = dieOff (r.u 0 1) { s.dev with mbx := s.dev.mbx.taking ch.val r.op } s.mem := ⟨_, rfl⟩
  refine ⟨_, s.dev.mbx.nextHandle, (show exec (.dieReset ch) s = commandLater 0x0505 ch (dieReset ch.val) s from rfl).trans
    (commandLater_answers hr (d := Device.dieOnStart { x.1 with evt := { x.1.evt with
        faultCp := x.1.evt.faultCp &&& ~~~ BitVec.twoPow 8 (r.u 0 1)
        faultTb := x.1.evt.faultTb &&& ~~~ BitVec.twoPow 8 (r.u 0 1) } } (r.u 0 1) s.dev.mbx.nextHandle) (m := x.2)
      (a := acceptedWith s.dev.mbx.nextHandle) ?_), Device.answer_formed _ _ _ _, rfl, ?_⟩
  · simp only [dieReset, hk, hbusy, Mbx.newHandle_some _ _ _ hroom, Bool.false_eq_true, if_false, hx]
    rfl
  · have hpwr := dieOff_pwr (r.u 0 1) { s.dev with mbx := s.dev.mbx.taking ch.val r.op } s.mem
    rw [← hx] at hpwr
    simp only [State.withAll, Device.answer_pwr, Device.dieOnStart, hpwr]
    refine ⟨getLsbD_and_not_twoPow _ _, getLsbD_or_twoPow _ hdie, ?_, ?_, Tbl.look_put_same _ _ _⟩
    all_goals
      rw [Device.answer_evt (show 1 ≠ stBadField by decide)]
      exact getLsbD_and_not_twoPow _ _

end

/-- Settles O34: a lemma of its kind for each command. -/
theorem powerCommandsSwitch : Obligations.PowerCommandsSwitch := by
  intro s ch r
  refine ⟨fun hr => powerStatus_reports hr, fun hr hb hw => ?_, fun hr => pwrSense_sets hr,
    fun hr hb hd hdom hp h0 hk => domainPower_off hr hb hd hdom hp h0 hk,
    fun hr hb hd hp h0 ho => domainPower_on hr hb hd hp h0 ho,
    fun hr hb hp h1 hdie hoff hbusy hroom => diePower_on hr hb hp h1 hdie hoff hbusy hroom,
    fun hr hb hp h1 hk hprof hbusy hroom => diePower_off hr hb hp h1 hk hprof hbusy hroom,
    fun hr hp hdom ho => partReset_starts hr hp hdom ho, fun hr hk hbusy hroom => dieReset_starts hr hk hbusy hroom⟩
  refine sets_of_command (d := { s.dev with pwr := { s.dev.pwr with limit := r.u 0 1 } })
    (show execPowerConfig ch s = _ from rfl) hr ?_ (by simp [State.answered, State.withDev])
  simp only [powerConfig, hb, Nat.not_lt.mpr hw, Bool.not_true, Bool.false_eq_true, if_false]
  rfl

end Sys2Proof.Machine
end

section
/-! SUPPORT. Domains and dies that return, the limiter, junction temperatures, shutdown (O35). -/

namespace Sys2Proof.Machine

/-! ## Domains and dies return -/

/-- Of the power state, a domain that returns moves its bit and its entry (R754). -/
theorem Device.domainBack_pwr (d : Device) (die dom : Nat) : (d.domainBack die dom).pwr = { d.pwr with
    domains := d.pwr.domains.upd die 0 fun x => x ||| BitVec.twoPow 12 dom
    resetting := d.pwr.resetting.filter fun r => r.1 != domKey die dom } := by
  simp only [Device.domainBack]
  generalize hg : ({ d.setDomain die dom true with pwr := { (d.setDomain die dom true).pwr with
    resetting := (d.setDomain die dom true).pwr.resetting.filter fun r => r.1 != domKey die dom } } : Device) = g
  have hf (l : List (Nat × Option Nat)) (e : Device) : e.agrees [.evt, .mbx, .sec] (l.foldl (fun (d : Device) r =>
      match r.2 with
      | some ch =>
        match (d.chan ch).taken with
        | some q => d.answer ch q (ans stOk)
        | none => d
      | none => d) e) := by
    refine (Device.agrees_foldl (fun d r => ?_) _ _ _).mpr (Device.agrees_refl _ _)
    split
    · split <;> simp
    · simp
  refine ((hf _ _).pwr (by decide)).trans ?_
  split
  · rw [(show g.agrees [.sfe] (g.sfeUp die) by simp).pwr (by decide), ← hg]
    rfl
  · rw [← hg]
    rfl

theorem domainPowerGood_returns {s : State} {die : Fin 8} {dom : Fin 12}
    (hp : s.dev.domainPending die.val dom.val = true) : Completes (.domainPowerGood die dom) s (fun t => t.mem = s.mem ∧
      t.dev.domainPending die.val dom.val = false ∧ (t.dev.pwr.domains.getD die.val 0).getLsbD dom.val = true) := by
  refine ⟨s.withDev (s.dev.domainBack die.val dom.val), ?_, rfl, rfl, ?_⟩
  · change execDomainPowerGood die dom s = _
    simp only [execDomainPowerGood, onDev_next, hp, if_true]
  · dsimp only [State.withDev]
    rw [Device.domainPending, Device.domainBack_pwr]
    refine ⟨by simp, ?_⟩
    dsimp only
    rw [Tbl.getD_upd_same]
    exact getLsbD_or_twoPow _ dom.isLt

/-- Of the power state, a die that returns moves what is its own and whether work may be placed on it (R757). -/
theorem dieBack_pwr (die : Nat) (engines units : List Nat) (d : Device) :
    ∃ w t, (dieBack die engines units d).pwr = { d.pwr with
      dieOn := d.pwr.dieOn ||| BitVec.twoPow 8 die, domains := d.pwr.domains.put die 0xFFF
      pendingOn := d.pwr.pendingOn &&& ~~~ BitVec.twoPow 8 die, dieHandles := d.pwr.dieHandles.del die
      withdrawn := w, tickWithdrawn := t } := by
  unfold dieBack
  extract_lets pin src g before full bad h stuck failed i bits src2 e f
  have hi : g.agrees [.boot, .view, .evt, .diag, .units, .sec] i := by
    simp only [i, h]
    split <;> simp
  have hf : e.agrees [.evt, .mbx, .memsys, .sfe, .map, .prs] (f.finishOpt pin (if failed = true then stFailed else stOk) []) := by
    simp only [f]
    simp
  rw [hf.pwr (by decide)]
  simp only [e, src2, hi.pwr (by decide), g]
  exact ⟨_, _, rfl⟩

theorem diePowerOnDone_returns {s : State} {die : Fin 8} (hp : s.dev.pwr.pendingOn.getLsbD die.val = true)
    (engines units : List Nat) : Completes (.diePowerOnDone die engines units) s (fun t => t.mem = s.mem ∧
      t.dev.pwr.dieOn.getLsbD die.val = true ∧ t.dev.pwr.pendingOn.getLsbD die.val = false ∧
      t.dev.pwr.domains.look die.val = some 0xFFF) := by
  refine ⟨s.withDev (dieBack die.val engines units s.dev), ?_, rfl, rfl, ?_⟩
  · change execDiePowerOnDone die engines units s = _
    simp only [execDiePowerOnDone, onDev_next, hp, if_true]
  · dsimp only [State.withDev]
    obtain ⟨w, t, he⟩ := dieBack_pwr die.val engines units s.dev
    rw [he]
    exact ⟨getLsbD_or_twoPow _ die.isLt, getLsbD_and_not_twoPow _ _, Tbl.look_put_same _ _ _⟩

/-! ## The limiter -/

/-- Of the power state, the events of the caps move their own times alone. -/
theorem Device.capEvents_pwr (d old : Device) : ∃ t, (d.capEvents old).pwr = { d.pwr with capEventAt := t } := by
  refine List.foldlRecOn (motive := fun e : Device => ∃ t, e.pwr = { d.pwr with capEventAt := t }) _ _ ⟨_, rfl⟩ ?_
  rintro e ⟨t, he⟩ c -
  dsimp only
  split
  · exact ⟨t, he⟩
  · split
    · exact ⟨t, he⟩
    · rw [Device.event_pwr]
      dsimp only
      rw [he]
      exact ⟨_, rfl⟩

theorem Device.limiterEval_pwr (d : Device) (uncore : Nat) (cores : List Nat) : ∃ est, uncore ≤ est ∧
    (d.limiterEval uncore cores).pwr.est = min 0xFFFFFFFF est ∧
    (d.limiterEval uncore cores).pwr.cTick = (d.pwr.limiter d.fuse.clockMHz est (d.pwr.limit * 1000)).cTick ∧
    (d.limiterEval uncore cores).pwr.cOther = (d.pwr.limiter d.fuse.clockMHz est (d.pwr.limit * 1000)).cOther := by
  -- the evaluation and the advance are held as variables, which the kernel does not evaluate
  obtain ⟨eval, heval⟩ : ∃ f, f = Device.limiterEval := ⟨_, rfl⟩
  obtain ⟨adv, hadv⟩ : ∃ f, f = Device.advanceToDev := ⟨_, rfl⟩
  have hagrees (n : Nat) : d.agrees [.diag, .time] (adv d n) := by
    rw [hadv]
    exact (Device.agrees_advanceToDev _ _ _ (by simp)).mpr (Device.agrees_refl _ _)
  rw [← heval]
  delta Device.limiterEval at heval
  rw [← hadv] at heval
  rw [congrFun (congrFun (congrFun heval d) uncore) cores]
  extract_lets e dies valid amps core est p g h
  have hf : d.agrees [.diag, .time] e := hagrees _
  have hh : g.agrees [.diag] h := by
    refine (Device.agrees_foldl (fun x k => ?_) _ _ _).mpr (Device.agrees_refl _ _)
    split <;> simp
  have hp : p = d.pwr.limiter d.fuse.clockMHz est (d.pwr.limit * 1000) := by
    simp only [p]
    rw [hf.pwr (by decide), hf.fuse (by decide)]
  obtain ⟨t, ht⟩ := h.capEvents_pwr e
  rw [ht, hh.pwr (by decide)]
  refine ⟨est, Nat.le_add_right _ _, rfl, ?_⟩
  rw [← hp]
  exact ⟨rfl, rfl⟩

theorem limiterEval_moves {s : State} (hp : s.dev.powerRuns = true) (uncore : Nat) (cores : List Nat) :
    Completes (.limiterEval uncore cores) s (fun t => t.mem = s.mem ∧
      ∃ est, uncore ≤ est ∧ t.dev.pwr.est = min 0xFFFFFFFF est ∧
        t.dev.pwr.cTick = (s.dev.pwr.limiter s.dev.fuse.clockMHz est (s.dev.pwr.limit * 1000)).cTick ∧
        t.dev.pwr.cOther = (s.dev.pwr.limiter s.dev.fuse.clockMHz est (s.dev.pwr.limit * 1000)).cOther) := by
  obtain ⟨e, he⟩ : ∃ e, e = s.dev.limiterEval uncore cores := ⟨_, rfl⟩
  have hpwr := s.dev.limiterEval_pwr uncore cores
  rw [← he] at hpwr
  refine ⟨s.withDev e, ?_, rfl, rfl, hpwr⟩
  change execLimiterEval uncore cores s = _
  simp only [execLimiterEval, onDev_next, hp, if_true, he]

/-! ## Junction temperatures -/

/-- A throttled die keeps the temperatures. -/
theorem Device.throttleDie_tj (d : Device) (die : Nat) (v : Int) : (d.throttleDie die v).pwr.tj = d.pwr.tj := by
  unfold Device.throttleDie
  extract_lets grade b src since n e cap src2 src3
  have he : e.pwr = d.pwr := (show d.agrees [.diag] e by simp [e]).pwr (by decide)
  split
  · split
    · rw [Device.event_pwr]
    · rfl
  · split
    · rw [Device.event_pwr]
      exact congrArg (·.tj) he
    · exact congrArg (·.tj) he

/-- The junction temperature of a die and what comes of it (R766, R767). -/
def Device.senseDie (t : Nat → Int) (x : Device) (k : Nat) : Device :=
  let x := { x with pwr := { x.pwr with tj := x.pwr.tj.put k (t k), tjValid := x.pwr.tjValid ||| BitVec.twoPow 8 k } }
  (x.tjPeak k (t k)).throttleDie k (t k)

theorem Device.senseDie_tj (t : Nat → Int) (x : Device) (k : Nat) :
    (x.senseDie t k).pwr.tj = x.pwr.tj.put k (t k) := by
  unfold Device.senseDie
  dsimp only
  rw [Device.throttleDie_tj]
  rfl

/-- Every die sensed has its temperature. -/
theorem Device.tj_senseDies {t : Nat → Int} {k : Nat} (l : List Nat) (d : Device)
    (h : k ∈ l ∨ d.pwr.tj.look k = some (t k)) : (l.foldl (Device.senseDie t) d).pwr.tj.look k = some (t k) := by
  induction l generalizing d with
  | nil => simpa using h
  | cons i l ih =>
    refine ih _ ?_
    rw [Device.senseDie_tj]
    by_cases hi : i = k
    · subst hi
      exact .inr (Tbl.look_put_same _ _ _)
    · rw [Tbl.look_put_other _ _ _ _ (Ne.symm hi)]
      simpa [Ne.symm hi] using h

/-- The sampling leaves every powered die with its temperature; below 130.0 °C that is all, and at it the package shuts
down. -/
theorem thermalEval_eq (tj : List Int) (d : Device) (m : Store) : ∃ x : Device,
    (∀ k, k < 8 → k < tj.length → d.pwr.dieOn.getLsbD k = true → x.pwr.tj.look k = some (tj.getD k 0)) ∧
    ((∀ k, k < 8 → k < tj.length → d.pwr.dieOn.getLsbD k = true → tj.getD k 0 < 1300) → thermalEval tj d m = (x, m)) ∧
    (∀ k, k < 8 → k < tj.length → d.pwr.dieOn.getLsbD k = true → 1300 ≤ tj.getD k 0 →
      ∃ i, thermalEval tj d m = shutdown 1 i x m) := by
  -- the evaluation and the advance are held as variables, which the kernel does not evaluate
  obtain ⟨eval, heval⟩ : ∃ f, f = thermalEval := ⟨_, rfl⟩
  obtain ⟨adv, hadv⟩ : ∃ f, f = Device.advanceToDev := ⟨_, rfl⟩
  have hagrees (n : Nat) : d.agrees [.diag, .time] (adv d n) := by
    rw [hadv]
    exact (Device.agrees_advanceToDev _ _ _ (by simp)).mpr (Device.agrees_refl _ _)
  rw [← heval]
  delta thermalEval at heval
  rw [← hadv] at heval
  rw [congrFun (congrFun (congrFun heval tj) d) m]
  extract_lets e dies t f x
  have he : d.agrees [.diag, .time] e := hagrees _
  have hdies (k : Nat) : k ∈ dies ↔ k < 8 ∧ d.pwr.dieOn.getLsbD k = true ∧ k < tj.length := by
    simp only [dies, he.pwr (by decide), List.mem_filter, List.mem_range, Bool.and_eq_true, decide_eq_true_eq]
  refine ⟨x, fun k hk hl hon => ?_, fun hcold => ?_, fun k hk hl hon hhot => ?_⟩
  · obtain ⟨w, hw⟩ := f.capEvents_pwr e
    rw [show x.pwr = _ from hw]
    exact Device.tj_senseDies (t := t) dies e (.inl ((hdies k).mpr ⟨hk, hon, hl⟩))
  · have hnone : dies.find? (fun k => decide (1300 ≤ t k)) = none := List.find?_eq_none.mpr fun k hk => by
      obtain ⟨hk, hon, hl⟩ := (hdies k).mp hk
      exact fun h => absurd (of_decide_eq_true h) (Int.not_le.mpr (hcold k hk hl hon))
    rw [hnone]
  · cases hfind : dies.find? (fun k => decide (1300 ≤ t k)) with
    | none => exact absurd (decide_eq_true hhot) (List.find?_eq_none.mp hfind k ((hdies k).mpr ⟨hk, hon, hl⟩))
    | some i => exact ⟨i, rfl⟩

/-- What a shutdown of the package leaves (R768). -/
theorem shutdown_leaves (cause die : Nat) (d : Device) (m : Store) : (shutdown cause die d m).1.pkg.shutdown = true ∧
    (shutdown cause die d m).1.evt.cause.getLsbD 8 = true ∧ (shutdown cause die d m).2 = { m with lp := [], sram := [] } := by
  unfold shutdown
  extract_lets v r src src2 src3 src4 off
  refine ⟨by rw [Device.setCause_pkg], ?_, rfl⟩
  clear_value off
  obtain ⟨_, _, hi, hc⟩ := off.setCause_evt (b := 8) (by decide)
  dsimp only
  rw [hi]
  exact hc

section
variable {s : State} {tj : List Int} (hp : s.dev.powerRuns = true)
include hp

/-- The sampling of the junction sensors on a device that is powered. -/
theorem thermalEval_next : exec (.thermalEval tj) s =
    .next (s.withAll (thermalEval tj s.dev s.mem).1 (thermalEval tj s.dev s.mem).2) := by
  change execThermalEval tj s = _
  simp only [execThermalEval, onBoth_next, hp, if_true]

theorem thermalEval_senses (hcool : ∀ v ∈ tj, v < 1300) : Completes (.thermalEval tj) s (fun t =>
    t.mem = s.mem ∧ ∀ k, k < 8 → k < tj.length → s.dev.pwr.dieOn.getLsbD k = true → t.dev.pwr.tj.look k = tj[k]?) := by
  obtain ⟨x, hx, hcold, -⟩ := thermalEval_eq tj s.dev s.mem
  obtain ⟨y, hy⟩ : ∃ y, y = thermalEval tj s.dev s.mem := ⟨_, rfl⟩
  have hnext := thermalEval_next (tj := tj) hp
  rw [← hy] at hnext hcold
  have hy := hcold fun k _ hl _ => by
    rw [getD_of_lt_length _ _ hl]
    exact hcool _ (List.getElem_mem hl)
  refine ⟨_, hnext, State.withAll_pending _ _ _, ?_⟩
  rw [hy]
  exact ⟨rfl, fun k hk hl hon => by rw [List.getElem?_eq_getElem hl, ← getD_of_lt_length _ 0 hl]; exact hx k hk hl hon⟩

theorem thermalEval_shuts {k : Nat} (hk : k < 8) (hl : k < tj.length) (hon : s.dev.pwr.dieOn.getLsbD k = true)
    (hhot : 1300 ≤ tj.getD k 0) : Completes (.thermalEval tj) s (fun t => t.dev.pkg.shutdown = true ∧
        t.dev.evt.cause.getLsbD 8 = true ∧ t.mem = { s.mem with lp := [], sram := [] }) := by
  obtain ⟨x, -, -, hhot'⟩ := thermalEval_eq tj s.dev s.mem
  obtain ⟨y, hy⟩ : ∃ y, y = thermalEval tj s.dev s.mem := ⟨_, rfl⟩
  have hnext := thermalEval_next (tj := tj) hp
  rw [← hy] at hnext hhot'
  obtain ⟨i, hy⟩ := hhot' k hk hl hon hhot
  refine ⟨_, hnext, State.withAll_pending _ _ _, ?_⟩
  rw [hy]
  obtain ⟨h1, h2, h3⟩ := shutdown_leaves 1 i x s.mem
  exact ⟨h1, h2, h3⟩

end

/-- Settles O35: a lemma of its kind for each event. -/
theorem powerEventsFollow : Obligations.PowerEventsFollow := fun s =>
  ⟨fun die dom hp => domainPowerGood_returns hp, fun die engines units hp => diePowerOnDone_returns hp engines units,
    fun uncore cores hp => limiterEval_moves hp uncore cores, fun tj hp hcool => thermalEval_senses hp hcool,
    fun tj k hp hk hl hon hhot => thermalEval_shuts hp hk hl hon hhot⟩

end Sys2Proof.Machine
end

section
/-! SUPPORT. Faults of routers, links, control processors and clocks (O36). -/

namespace Sys2Proof.Machine

/-! ## The fault log -/

/-- A fault of a job adds at most an entry to the log. -/
theorem Device.jobFault_evt (d : Device) (id cause source die index : Nat) (addr : Option Nat) (detail : Nat) :
    ∃ l n, (d.jobFault id cause source die index addr detail).evt = { d.evt with flog := l, flogCount := n } := by
  unfold Device.jobFault
  split
  · exact ⟨_, _, rfl⟩
  · next j _ =>
    extract_lets e failing lost n outcome f src
    have hf : d.agrees [.diag, .units, .clusters, .vis, .slv, .prs] f := by simp [f, e]
    split
    · rw [show src = f.evt from (hf.evt (by decide)).symm]
      exact ⟨_, _, rfl⟩
    · rw [show src = f.evt from (hf.evt (by decide)).symm]
      exact ⟨_, _, rfl⟩
    · exact ⟨_, _, rfl⟩
    · exact ⟨_, _, rfl⟩

/-- Faults of many jobs move nothing of the event unit but its log. -/
theorem Device.faultAll_evt (d : Device) (cause source die : Nat) (ids : List Nat) :
    ∃ l n, (d.faultAll cause source die ids).evt = { d.evt with flog := l, flogCount := n } := by
  refine List.foldlRecOn (motive := fun e : Device => ∃ l n, e.evt = { d.evt with flog := l, flogCount := n }) _ _
    ⟨_, _, rfl⟩ ?_
  rintro e ⟨l, n, he⟩ id -
  obtain ⟨l', n', he'⟩ := e.jobFault_evt id cause source die 0 none 0
  exact ⟨l', n', by rw [he', he]⟩

theorem Device.outsideFault_flogCount (d : Device) (cause source die index : Nat) (addr : Option Nat) (detail : Nat) :
    (d.outsideFault cause source die index addr detail).evt.flogCount = (d.evt.flogCount + 1) % 2 ^ 32 := rfl

@[simp] theorem Device.unit_updUnit (d : Device) (p : Nat) (f : CUnit → CUnit) : (d.updUnit p f).unit p = f (d.unit p) :=
  Tbl.getD_upd_same _ _ _ _

/-! ## Control processors -/

/-- A stopped control processor: its die's fault bit, no new work on the die, CP_FAULT (R736). -/
theorem Device.cpFault_leaves (d : Device) {die : Nat} (hdie : die < 8) (source : Nat) :
    (d.cpFault die source).evt.faultCp.getLsbD die = true ∧ (d.cpFault die source).pwr.withdrawn.getLsbD die = true ∧
      (d.cpFault die source).evt.cause.getLsbD 0 = true := by
  unfold Device.cpFault
  extract_lets src src2 e f
  obtain ⟨l, n, hall⟩ := f.faultAll_evt 0x0D 10 die
    (f.jobsIn fun j => (f.domainsOf j).any (fun x => x.1 == die && x.2 != 10) || j.dies.getLsbD die)
  obtain ⟨c, i, es, k, hev, hc⟩ := (e.outsideFault 0x0D source die 0 none 0).event_evt (cause := 0) (by decide) 0x0043 die 0 0
  have hp : e.agrees [.evt, .diag, .jobs, .units, .clusters, .vis, .slv, .prs] (f.faultAll 0x0D 10 die
    (f.jobsIn fun j => (f.domainsOf j).any (fun x => x.1 == die && x.2 != 10) || j.dies.getLsbD die)) := by simp [f]
  refine ⟨?_, ?_, ?_⟩
  · rw [hall]
    dsimp only
    rw [show f.evt = _ from hev]
    exact getLsbD_or_twoPow _ hdie
  · rw [hp.pwr (by decide)]
    exact getLsbD_or_twoPow _ hdie
  · rw [hall]
    dsimp only
    rw [show f.evt = _ from hev]
    exact hc

variable {s : State}

theorem cpWatchdog_faults {die : Fin 8} (hr : s.dev.boot.cpRunning.getLsbD die.val = true)
    (hd : s.dev.pwr.dieOn.getLsbD die.val = true) (hf : s.dev.boot.fwStarted = true) : Completes (.cpWatchdog die) s
      (fun t => t.mem = s.mem ∧ t.dev.evt.faultCp.getLsbD die.val = true ∧ t.dev.pwr.withdrawn.getLsbD die.val = true ∧
        t.dev.evt.cause.getLsbD 0 = true) := by
  refine ⟨s.withDev (s.dev.cpFault die.val 10), ?_, rfl, rfl, s.dev.cpFault_leaves die.isLt 10⟩
  change execCpWatchdog die s = _
  simp only [execCpWatchdog, onDev_next, hr, hd, hf, Bool.and_self, if_true]

theorem cpSramUe_faults {die : Fin 8} (hd : s.dev.pwr.dieOn.getLsbD die.val = true) (place : Fin 4) :
    Completes (.cpSramUe die place) s (fun t => t.mem = s.mem ∧ t.dev.evt.faultCp.getLsbD die.val = true ∧
      t.dev.pwr.withdrawn.getLsbD die.val = true ∧ t.dev.evt.cause.getLsbD 0 = true) := by
  refine ⟨_, (show exec (.cpSramUe die place) s = execCpSramUe die place s from rfl).trans (onDev_next _ s), rfl, rfl, ?_⟩
  dsimp only [State.withDev]
  rw [if_neg (by simp [hd])]
  split
  · obtain ⟨e, he⟩ : ∃ e : Device, e = { s.dev with memsys := s.dev.memsys.loseDie die.val } := ⟨_, rfl⟩
    rw [← he]
    obtain ⟨h1, h2, h3⟩ := e.cpFault_leaves die.isLt 12
    generalize e.cpFault die.val 12 = f at h1 h2 h3
    obtain ⟨l, n, hall⟩ := f.faultAll_evt 0x0D 10 die.val (f.jobsIn fun j => f.grantsLost j)
    have hp : f.agrees [.evt, .diag, .jobs, .units, .clusters, .vis, .slv, .prs]
      (f.faultAll 0x0D 10 die.val (f.jobsIn fun j => f.grantsLost j)) := by simp
    rw [hall, hp.pwr (by decide)]
    exact ⟨h1, h2, h3⟩
  · exact s.dev.cpFault_leaves die.isLt _

/-! ## Routers and links -/

theorem flitParityError_outside {die : Fin 8} {requester : Nat} (hd : s.dev.pwr.dieOn.getLsbD die.val = true)
    (hr : 1088 ≤ requester) (addr : Option Nat) : Completes (.flitParityError die requester 0 addr) s (fun t =>
      t.mem = s.mem ∧ t.dev.evt.flogCount = (s.dev.evt.flogCount + 1) % 2 ^ 32) := by
  refine ⟨_, (show exec (.flitParityError die requester 0 addr) s = execFlitParityError die requester 0 addr s
    from rfl).trans (onDev_next _ s), rfl, rfl, ?_⟩
  dsimp only [State.withDev]
  rw [if_neg (by simp [hd]), if_neg (Nat.not_lt.mpr hr), if_pos rfl]
  rfl

theorem flitParityError_unit {die : Fin 8} {requester : Nat} (hd : s.dev.pwr.dieOn.getLsbD die.val = true)
    (hr : requester < 1088) (ht : (s.dev.unit requester).tags ≠ 0) (hj : (s.dev.unit requester).job = 0) (job : Nat)
    (addr : Option Nat) : Completes (.flitParityError die requester job addr) s (fun t => t.mem = s.mem ∧
        (t.dev.unit requester).tags = (s.dev.unit requester).tags - 1 ∧
        t.dev.evt.flogCount = (s.dev.evt.flogCount + 1) % 2 ^ 32) := by
  refine ⟨_, (show exec (.flitParityError die requester job addr) s = execFlitParityError die requester job addr s
    from rfl).trans (onDev_next _ s), rfl, rfl, ?_⟩
  dsimp only [State.withDev]
  rw [if_neg (by simp [hd]), if_pos hr, if_neg (show (Device.unit (s.dev.diagAdd die.val 0x0F8 0 32 1) requester).tags ≠ 0
    from ht), if_pos (show (Device.unit (s.dev.diagAdd die.val 0x0F8 0 32 1) requester).job = 0 from hj)]
  refine ⟨?_, rfl⟩
  exact congrArg (·.tags) (Device.unit_updUnit (s.dev.diagAdd die.val 0x0F8 0 32 1) requester
    fun u => { u with tags := u.tags - 1 })

theorem linkCrcError_counts {link : Fin 10} (hl : linkState s.dev.view s.dev.pwr.dieOn link.val < 2) :
    exec (.linkCrcError link false) s = .next (s.withDev (s.dev.diagAdd (linkEnds link.val).1
      (0x0E8 + 4 * linkSite link.val (linkEnds link.val).1) 0 16 1)) ∧
    exec (.linkCrcError link true) s = .next (s.withDev (s.dev.diagAdd (linkEnds link.val).2
      (0x0E8 + 4 * linkSite link.val (linkEnds link.val).2) 0 16 1)) := by
  constructor
  · change execLinkCrcError link false s = _
    simp only [execLinkCrcError, onDev_next, hl, if_true, Bool.false_eq_true, if_false]
  · change execLinkCrcError link true s = _
    simp only [execLinkCrcError, onDev_next, hl, if_true]

theorem linkRetrain_moves {link : Fin 10} (hl : linkState s.dev.view s.dev.pwr.dieOn link.val < 2) (st : Fin 3)
    (held : List Nat) : Completes (.linkRetrain link st held) s (fun t => t.mem = s.mem ∧
      t.dev.view = { s.dev.view with trained := s.dev.view.trained.put link.val st.val }) := by
  refine ⟨_, (show exec (.linkRetrain link st held) s = execLinkRetrain link st held s from rfl).trans (onDev_next _ s),
    rfl, rfl, ?_⟩
  dsimp only [State.withDev]
  rw [if_neg (Nat.not_le.mpr hl)]
  generalize hd : (s.dev.diagAdd _ _ _ _ _).diagAdd _ _ _ _ _ = d
  have hv : d.view = s.dev.view := by rw [← hd]; rfl
  rw [hv]
  have hgen (e : Device) (p q : Prop) [Decidable p] [Decidable q] (a b : Nat) :
      (if p then held.foldl (fun (d : Device) id => d.jobFault id 0x09 9 a b none b) (if q then e.defectEvent a b 3 else e)
        else if q then e.defectEvent a b 3 else e).view = e.view := by
    have hdef : e.agrees [.evt, .diag, .jobs, .units, .clusters, .vis, .slv, .prs, .sec]
        (if q then e.defectEvent a b 3 else e) := by
      split <;> simp
    split
    · exact Device.agrees.view ((Device.agrees_foldl (fun f id => by simp) _ _ _).mpr hdef) (by decide)
    · exact hdef.view (by decide)
  exact hgen _ _ _ _ _

/-! ## Clocks -/

theorem pllLockLoss_domain {die : Fin 8} {island : Fin 13} (hi : island.val < 12) (hp : s.dev.boot.pll = true)
    (ho : s.dev.domainOn die.val island.val = true) : Completes (.pllLockLoss die island) s (fun t =>
      t.dev.domainOn die.val island.val = false ∧ (domKey die.val island.val, none) ∈ t.dev.pwr.resetting) := by
  have hd : s.dev.pwr.dieOn.getLsbD die.val = true := by
    rw [Device.domainOn, if_neg (by omega)] at ho
    exact (Bool.and_eq_true_iff.mp ho).1
  refine ⟨_, (show exec (.pllLockLoss die island) s = execPllLockLoss die island s from rfl).trans (onBoth_next _ s),
    State.withAll_pending _ _ _, ?_⟩
  rw [pllLoss, if_neg (by simp [hp, hd]), if_pos hi, if_neg (by simp [ho])]
  refine ⟨domainOff_off hi _ s.mem, ?_⟩
  simp [State.withAll, Device.domainReturn]

theorem pllLockLoss_die {die : Fin 8} (hp : s.dev.boot.pll = true) (hd : s.dev.pwr.dieOn.getLsbD die.val = true) :
    Completes (.pllLockLoss die 12) s (fun t => if die.val = s.dev.lead then t.dev.pkg.shutdown = true
      else t.dev.evt.faultCp.getLsbD die.val = true) := by
  refine ⟨_, (show exec (.pllLockLoss die 12) s = execPllLockLoss die 12 s from rfl).trans (onBoth_next _ s),
    State.withAll_pending _ _ _, ?_⟩
  rw [pllLoss, if_neg (by simp [hp, hd]), if_neg (by decide)]
  dsimp only [State.withAll]
  by_cases hl : die.val = s.dev.lead
  · rw [if_pos hl, if_pos hl]
    exact (shutdown_leaves 2 die.val _ s.mem).1
  · rw [if_neg hl, if_neg hl]
    exact (s.dev.cpFault_leaves die.isLt 10).1

theorem refClockLoss_reference (hp : s.dev.boot.pll = true) (die : Fin 8) : Completes (.refClockLoss 0 die) s (fun t =>
    t.dev.pkg.shutdown = true ∧ t.dev.evt.cause.getLsbD 8 = true) := by
  refine ⟨_, (show exec (.refClockLoss 0 die) s = execRefClockLoss 0 die s from rfl).trans (onBoth_next _ s),
    State.withAll_pending _ _ _, ?_⟩
  rw [refLoss, if_neg (by simp [hp])]
  obtain ⟨h1, h2, -⟩ := shutdown_leaves 2 s.dev.lead (s.dev.tickFree.outsideFault ((s.dev.freeWord 40).toNat % 256)
    ((s.dev.freeWord 40).toNat / 256 % 13) s.dev.lead 0 none 0) s.mem
  exact ⟨h1, h2⟩

theorem refClockLoss_die (hp : s.dev.boot.pll = true) (die : Fin 8) : Completes (.refClockLoss 1 die) s (fun t =>
    t.mem = s.mem ∧ t.dev.pwr.ref38.getLsbD die.val = false) := by
  refine ⟨_, (show exec (.refClockLoss 1 die) s = execRefClockLoss 1 die s from rfl).trans (onBoth_next _ s),
    State.withAll_pending _ _ _, ?_⟩
  rw [refLoss, if_neg (by simp [hp]), if_neg (by decide), if_pos (show (1 : Fin 3).val = 1 from rfl)]
  dsimp only [State.withAll]
  refine ⟨rfl, ?_⟩
  generalize Device.outsideFault _ _ _ _ _ _ _ = d
  obtain ⟨e, he⟩ : ∃ e : Device, e = { d with
    pwr := { d.pwr with ref38 := d.pwr.ref38 &&& ~~~ BitVec.twoPow 8 die.val } } := ⟨_, rfl⟩
  have hf : e.agrees [.evt, .mbx, .out, .ing, .vis] (if die.val < 2 then e.txDown die.val true else e).streamsDown := by
    split <;> simp
  rw [← he, hf.pwr (by decide), he]
  exact getLsbD_and_not_twoPow _ _

theorem refClockLoss_ptp (hp : s.dev.boot.pll = true) (die : Fin 8) : Completes (.refClockLoss 2 die) s (fun t =>
    t.mem = s.mem ∧ t.dev.pwr.ref156 = false) := by
  refine ⟨_, (show exec (.refClockLoss 2 die) s = execRefClockLoss 2 die s from rfl).trans (onBoth_next _ s),
    State.withAll_pending _ _ _, ?_⟩
  rw [refLoss, if_neg (by simp [hp]), if_neg (by decide), if_neg (by decide)]
  dsimp only [State.withAll]
  refine ⟨rfl, ?_⟩
  generalize Device.outsideFault _ _ _ _ _ _ _ = d
  obtain ⟨e, he⟩ : ∃ e : Device, e = { d with pwr := { d.pwr with ref156 := false } } := ⟨_, rfl⟩
  have hf : e.agrees [.evt, .time, .tim, .ing, .vis] (e.streamsDown.select false) := by simp
  rw [← he, hf.pwr (by decide), he]

/-- Settles O36: a lemma of its kind for each event. -/
theorem packageFaultsAreReported : Obligations.PackageFaultsAreReported := fun s =>
  ⟨fun die requester addr hd hr => flitParityError_outside hd hr addr,
    fun die requester job addr hd hr ht hj => flitParityError_unit hd hr ht hj job addr,
    fun link hl => linkCrcError_counts hl, fun link st held hl => linkRetrain_moves hl st held,
    fun die hr hd hf => cpWatchdog_faults hr hd hf, fun die place hd => cpSramUe_faults hd place,
    fun die island hi hp ho => pllLockLoss_domain hi hp ho, fun die hp hd => pllLockLoss_die hp hd,
    fun die hp => ⟨refClockLoss_reference hp die, refClockLoss_die hp die, refClockLoss_ptp hp die⟩⟩

end Sys2Proof.Machine
end

section
/-! SUPPORT. Reports of clusters and units, configuration broadcast (O37). -/

namespace Sys2Proof.Machine

/-! ## Tables -/

theorem Tbl.getD_upd_other {α : Type} (t : Tbl α) {k j : Nat} (h : j ≠ k) (d : α) (f : α → α) :
    (t.upd k d f).getD j d = t.getD j d :=
  Tbl.getD_put_other _ _ _ _ _ h

/-- An update of one entry keeps what its function keeps. -/
theorem Tbl.keeps_upd {α β : Type} (g : α → β) {f : α → α} {d : α} (hf : ∀ x, g (f x) = g x) (t : Tbl α) (k j : Nat) :
    g ((t.upd k d f).getD j d) = g (t.getD j d) := by
  by_cases h : j = k
  · rw [h, Tbl.getD_upd_same, hf]
  · rw [Tbl.getD_upd_other t h]

theorem Tbl.getD_mapv {α : Type} {f : α → α} {d : α} (hd : f d = d) (t : Tbl α) (k : Nat) :
    (t.mapv f).getD k d = f (t.getD k d) := by
  induction t with
  | nil => exact hd.symm
  | cons e t ih =>
    obtain ⟨j, x⟩ := e
    by_cases h : j = k
    · simp [Tbl.getD, Tbl.mapv, Tbl.look_cons, h]
    · simpa [Tbl.getD, Tbl.mapv, Tbl.look_cons, h] using ih

/-! ## Reports -/

variable {s : State}

theorem countBelow_le (n : Nat) (p : Nat → Bool) : countBelow n p ≤ n :=
  Nat.le_trans (List.length_filter_le _ _) (by simp)

theorem UnitState.code_lt (u : UnitState) : u.code < 256 := by cases u <;> decide

theorem clusterStatus_reports {ch : Fin 8} {r : Request} (hr : s.holds ch 0x0520 r)
    (hd : s.dev.pwr.dieOn.getLsbD (r.u 0 1 / 8) = true) : Reports (.clusterStatus ch) s ch r (fun p =>
      p.length = 72 ∧ fieldAt p 0 1 = r.u 0 1 % 256 ∧ fieldAt p 1 1 = s.dev.view.enabled (r.u 0 1) ∧
      fieldAt p 60 4 = (s.dev.cluster (r.u 0 1)).stalls % 2 ^ 32) := by
  refine reports_of_query (show execClusterStatus ch s = _ from rfl) hr (by simp only [hd]; rfl) ?_
  have h1 : s.dev.view.enabled (r.u 0 1) % 256 = s.dev.view.enabled (r.u 0 1) :=
    Nat.mod_eq_of_lt (Nat.lt_of_le_of_lt (countBelow_le _ _) (by decide))
  simp only [List.append_assoc]
  refine ⟨by simp [List.map_const'], ?_, ?_, ?_⟩ <;> simp [fieldAt_skip, fieldAt_head, h1, List.map_const']

theorem unitStatus_reports {ch : Fin 8} {r : Request} (hr : s.holds ch 0x0521 r)
    (hd : s.dev.pwr.dieOn.getLsbD (r.u 0 2 / 136) = true) : Reports (.unitStatus ch) s ch r (fun p =>
      p.length = 36 ∧ fieldAt p 0 2 = r.u 0 2 % 65536 ∧
      fieldAt p 2 1 = (if s.dev.view.isBad (r.u 0 2) = true then 6 else (s.dev.unit (r.u 0 2)).state.code) ∧
      fieldAt p 12 8 = (s.dev.unit (r.u 0 2)).active % 2 ^ 64) := by
  refine reports_of_query (show execUnitStatus ch s = _ from rfl) hr (by simp only [hd]; rfl) ?_
  have h2 : (if s.dev.view.isBad (r.u 0 2) = true then 6 else (s.dev.unit (r.u 0 2)).state.code) < 256 := by
    split
    · decide
    · exact UnitState.code_lt _
  simp only [List.append_assoc]
  refine ⟨by simp, ?_, ?_, ?_⟩ <;> simp [fieldAt_skip, fieldAt_head, Nat.mod_eq_of_lt h2]

/-! ## Broadcast -/

theorem bcastPacket_sends {job part : Nat} {j : Job} {p : Part} {c : Nat} {r : LoadRec} (hj : s.dev.job job = some j)
    (hp : j.parts[part]? = some p) (hc : p.cluster = some c)
    (hr : (p.segRecs j.image)[p.loaded + ((s.dev.cluster c).packets.filter fun k =>
      k.job == job && k.part == part).length]? = some r) (hst : j.state = .loading ∨ j.state = .running)
    (hopen : (s.dev.cluster c).packets.length < 4) :
      exec (.bcastPacket job part) s = .next (s.withDev (s.dev.updCluster c fun k => { k with
        seq := (k.seq + 1) % 65536
        packets := k.packets ++ [⟨(s.dev.cluster c).seq, r.kind, slotMask p r.target, r.dest, s.dev.relocated j part p.segment r, job, part, 0, 0, []⟩] })) := by
  change execBcastPacket job part s = _
  have hst' : (decide (j.state = .loading) || decide (j.state = .running)) = true := by simpa using hst
  have hopen' : (s.dev.cluster c).open_ < 4 := hopen
  simp only [execBcastPacket, onDev_next, hj, hp, hc, hr, hst', hopen', decide_true, Bool.and_self, if_true]

/-- The end of a packet keeps the last SEQ of every unit. -/
theorem Device.packetDone_lastSeq (d : Device) (c : Nat) (pk : Packet) (u : Nat) :
    ((d.packetDone c pk).unit u).lastSeq = (d.unit u).lastSeq := by
  unfold Device.packetDone
  dsimp only
  split
  · rfl
  · split
    · rfl
    · split
      · have hstart (x : CUnit) : (if x.state = .loading then startUnit x else x).lastSeq = x.lastSeq := by
          split <;> rfl
        refine List.foldlRecOn (motive := fun e : Device => (e.unit u).lastSeq = (d.unit u).lastSeq) _ _ rfl ?_
        intro e he v _
        rw [← he]
        exact Tbl.keeps_upd CUnit.lastSeq hstart e.units v u
      · rfl

theorem bcastAnswer_stores {c : Fin 64} {slot : Fin 16} {seq u : Nat} {pk : Packet}
    (hpk : (s.dev.cluster c.val).packet seq = some pk) (hu : s.dev.slotPhys c.val slot.val = some u)
    (ht : bit pk.target slot.val = true) : Completes (.bcastAnswer c slot seq true) s (fun t =>
      t.mem = s.mem.sramWrite (scratchAddr u pk.dest) pk.data ∧ (t.dev.unit u).lastSeq = some seq) := by
  refine ⟨_, (show exec (.bcastAnswer c slot seq true) s = execBcastAnswer c slot seq true s from rfl).trans
    (onBoth_next _ s), State.withAll_pending _ _ _, ?_⟩
  simp only [hpk, hu, ht, State.withAll, Bool.not_true, Bool.false_eq_true, if_false, if_true]
  split
  · refine ⟨rfl, ?_⟩
    rw [Device.unit_updUnit]
  · dsimp only
    refine ⟨rfl, ?_⟩
    split
    · rw [Device.packetDone_lastSeq]
      exact congrArg CUnit.lastSeq (Device.unit_updUnit s.dev u fun x => { x with lastSeq := some seq })
    · exact congrArg CUnit.lastSeq (Device.unit_updUnit s.dev u fun x => { x with lastSeq := some seq })

/-! ## Misses -/

/-- Every cluster's counter of misses is as it was. -/
def Device.SameMisses (d e : Device) : Prop := ∀ c, (e.cluster c).misses = (d.cluster c).misses

theorem Device.SameMisses.trans {d e f : Device} (h : d.SameMisses e) (g : e.SameMisses f) : d.SameMisses f :=
  fun c => (g c).trans (h c)

theorem Device.agrees.sameMisses {ps : List MachinePart} {d e : Device} (h : d.agrees ps e)
    (hp : .clusters ∉ ps) : d.SameMisses e := fun c => by
  rw [Device.cluster, h.clusters hp]
  rfl

theorem Device.sameMisses_updCluster (d : Device) (c : Nat) (f : Cluster → Cluster) (hf : ∀ k, (f k).misses = k.misses) :
    d.SameMisses (d.updCluster c f) := fun i => Tbl.keeps_upd Cluster.misses hf d.clusters c i

theorem Device.sameMisses_foldl {α : Type} {f : Device → α → Device} (h : ∀ (d : Device) x, d.SameMisses (f d x)) (l : List α)
    (d : Device) : d.SameMisses (l.foldl f d) :=
  List.foldlRecOn (motive := fun e : Device => d.SameMisses e) _ _ (fun _ => rfl) fun e he x _ => he.trans (h e x)

theorem Device.sameMisses_dropTags (d : Device) (p : Nat) : d.SameMisses (d.dropTags p) :=
  d.sameMisses_updCluster (p / 17) (fun k => { k with held := k.held - (d.unit p).tags }) fun _ => rfl

theorem Device.sameMisses_stopUnits (d : Device) (j : Job) : d.SameMisses (d.stopUnits j) := by
  refine Device.sameMisses_foldl (fun d p => Device.sameMisses_foldl (fun d u => ?_) _ d) _ d
  exact d.sameMisses_dropTags u

theorem Device.sameMisses_dropPackets (d : Device) (id : Nat) : d.SameMisses (d.dropPackets id) := fun c => by
  rw [Device.cluster, Device.dropPackets, Tbl.getD_mapv (by rfl)]
  rfl

/-- A fault of a job counts no miss. -/
theorem Device.sameMisses_jobFault (d : Device) (id cause source die index : Nat) (addr : Option Nat) (detail : Nat) :
    d.SameMisses (d.jobFault id cause source die index addr detail) := by
  unfold Device.jobFault
  split
  · exact fun _ => rfl
  · next j _ =>
    have hstop : d.SameMisses ((((d.diagAdd die 0x0FC 0 16 1).stopUnits j).dropOps id).dropPackets id) :=
      ((Device.sameMisses_stopUnits (d.diagAdd die 0x0FC 0 16 1) j).trans (Device.agrees.sameMisses
        (ps := [.vis, .slv, .prs]) (by simp) (by decide))).trans (Device.sameMisses_dropPackets _ id)
    dsimp only
    split
    · exact hstop
    · exact hstop
    · exact fun _ => rfl
    · exact fun _ => rfl

theorem Device.sameMisses_markBroadcast (d : Device) (phys job : Nat) : d.SameMisses (d.markBroadcast phys job) := by
  unfold Device.markBroadcast
  extract_lets w full src e f
  refine Device.SameMisses.trans (e := f) ?_ (f.sameMisses_jobFault _ _ _ _ _ _ _)
  refine Device.SameMisses.trans (e := e.dropTags phys) (e.sameMisses_dropTags phys) ?_
  exact Device.agrees.sameMisses (ps := [.units, .evt, .sec]) (by simp [f]) (by decide)

/-- A miss is counted, whether the packet is sent again or the unit marked (R371, R372). -/
theorem Device.bcastMiss_misses {d : Device} {c slot u : Nat} (hu : d.slotPhys c slot = some u) (pk : Packet) :
    ((d.bcastMiss c slot pk).cluster c).misses = (d.cluster c).misses + 1 := by
  have hcount (b : Bool) : ((d.countMiss c u b).cluster c).misses = (d.cluster c).misses + 1 := by
    have h : ((d.updCluster c fun k => { k with misses := k.misses + 1, resends := k.resends + b2n b }).cluster c).misses =
      (d.cluster c).misses + 1 := by rw [Device.cluster, Device.updCluster, Tbl.getD_upd_same]; rfl
    cases b <;> exact h
  simp only [Device.bcastMiss, hu]
  split
  · refine (Device.sameMisses_updCluster _ c _ ?_ c).trans (hcount _)
    exact fun _ => rfl
  · exact (Device.sameMisses_markBroadcast _ _ _ _).trans (hcount _)

section
variable {c : Fin 64} {slot : Fin 16} {seq u : Nat} {pk : Packet} (hpk : (s.dev.cluster c.val).packet seq = some pk)
  (hu : s.dev.slotPhys c.val slot.val = some u) (ht : bit pk.target slot.val = true) (ha : bit pk.acks slot.val = false)
include hpk hu ht ha

theorem bcastAnswer_misses : Completes (.bcastAnswer c slot seq false) s (fun t => t.mem = s.mem ∧
    (t.dev.cluster c.val).misses = (s.dev.cluster c.val).misses + 1) := by
  refine ⟨_, (show exec (.bcastAnswer c slot seq false) s = execBcastAnswer c slot seq false s from rfl).trans
    (onBoth_next _ s), State.withAll_pending _ _ _, ?_⟩
  simp only [hpk, hu, ht, ha, State.withAll, Bool.not_true, Bool.false_eq_true, if_false]
  exact ⟨trivial, Device.bcastMiss_misses hu pk⟩

theorem bcastAckTimeout_misses : Completes (.bcastAckTimeout c slot seq) s (fun t => t.mem = s.mem ∧
    (t.dev.cluster c.val).misses = (s.dev.cluster c.val).misses + 1 ∧
    t.dev.time.now = s.dev.time.now + 2000 * oneNs) := by
  obtain ⟨n, hn⟩ : ∃ n, n = 2000 * oneNs := ⟨_, rfl⟩
  refine ⟨s.withDev ((s.dev.advance n).bcastMiss c.val slot.val pk), ?_, rfl, rfl, ?_, ?_⟩
  · change execBcastAckTimeout c slot seq s = _
    simp only [execBcastAckTimeout, onDev_next, hpk, ht, ha, Bool.not_false, Bool.and_self, if_true, hn]
  · have hf : s.dev.agrees [.diag, .time] (s.dev.advance n) := by simp
    have hu' : (s.dev.advance n).slotPhys c.val slot.val = some u := by rw [Device.slotPhys, hf.view (by decide)]; exact hu
    exact (Device.bcastMiss_misses hu' pk).trans (congrArg (· + 1) (hf.sameMisses (by decide) c.val))
  · have hf : (s.dev.advance n).agrees [.boot, .view, .evt, .diag, .jobs, .units, .clusters, .vis, .slv, .prs, .sec]
      ((s.dev.advance n).bcastMiss c.val slot.val pk) := by simp
    dsimp only [State.withDev]
    rw [hf.time (by decide), Device.advance_time, ← hn]
    rfl

end

/-- Settles O37. -/
theorem clustersAreLoadedAndReported : Obligations.ClustersAreLoadedAndReported :=
  ⟨fun s ch r => ⟨fun hr hd => clusterStatus_reports hr hd, fun hr hd => unitStatus_reports hr hd⟩, fun s =>
    ⟨fun job part j p c r hj hp hc hr hst hopen => bcastPacket_sends hj hp hc hr hst hopen,
      fun c slot seq pk u hpk hu ht => bcastAnswer_stores hpk hu ht,
      fun c slot seq pk u hpk hu ht ha => ⟨bcastAnswer_misses hpk hu ht ha, bcastAckTimeout_misses hpk hu ht ha⟩⟩⟩

end Sys2Proof.Machine
end

section
/-! SUPPORT. The sequencer of a unit, its flags, waits and completions (O38). -/

namespace Sys2Proof.Machine

/-! ## Faults of jobs -/

/-- A fault of a loading or running job makes it RESTARTING with the cause (R728). -/
theorem Device.jobFault_job {d : Device} {id : Nat} {j : Job} (hj : d.job id = some j)
    (hst : j.state = .loading ∨ j.state = .running) (cause source die index : Nat) (addr : Option Nat) (detail : Nat) :
    ∃ k, (d.jobFault id cause source die index addr detail).job id = some k ∧ k.state = .restarting ∧ k.cause = cause := by
  rw [Device.jobFault, hj]
  obtain hst | hst := hst
  all_goals
    simp only [hst]
    exact ⟨_, Tbl.look_put_same _ _ _, rfl, rfl⟩

/-- A fault of a descriptor makes its running job RESTARTING (R365). -/
theorem Device.descFault_jobState {d : Device} {phys : Nat} {j : Job} (hj : d.job (d.unit phys).job = some j)
    (hst : j.state = .running) (x : DFault) : (d.descFault phys x).jobState (d.unit phys).job = some .restarting := by
  have h (cause die : Nat) (addr : Option Nat) (detail : Nat) :
      (d.jobFault (d.unit phys).job cause 0 die phys addr detail).jobState (d.unit phys).job = some .restarting := by
    obtain ⟨k, hk, hs, -⟩ := Device.jobFault_job hj (.inr hst) cause 0 die phys addr detail
    rw [Device.jobState, hk, Option.map_some, hs]
  match x with
  | .invalid | .data | .access _ | .mem (.completion _) => exact h _ _ _ _
  | .mem (.ecc pa) => exact h 0x05 (phys / 136) (some pa) (d.unit phys).detail

/-! ## The sequencer -/

/-- A descriptor that raises no fault of its own when its unit reaches it (R346, R347). -/
def Device.sound (d : Device) (phys : Nat) (x : Desc) : Prop :=
  (d.unit phys).desc ≤ 255 ∧ x.invalid = false ∧
    (x.waitFlag ≠ 0xFFFF → d.holdsFlag (d.unit phys).job (phys / 17) x.waitFlag = true) ∧
    (x.sigFlag ≠ 0xFFFF → d.holdsFlag (d.unit phys).job x.sigCluster x.sigFlag = true)

/-- Nothing holds a descriptor back (R347, R348). -/
def Device.freeFor (d : Device) (phys : Nat) (x : Desc) : Prop :=
  d.waitMet (phys / 17) x.waitFlag x.waitCount = true ∧
    ((x.ctrl % 4 ≠ 0 ∨ x.op = 0x62) → (d.unit phys).tags = 0) ∧
    (d.unit phys).tags + tagsOf x ≤ 32 ∧ (d.cluster (phys / 17)).held + tagsOf x ≤ 448

theorem descriptorIssue_next (unit : Fin 1088) (s : State) : exec (.descriptorIssue unit) s =
    .next (s.withAll (issue unit.val s.dev s.mem).1 (issue unit.val s.dev s.mem).2) := rfl

section
variable {phys : Nat} {d : Device} {m : Store} {x : Desc} {j : Job}
  (hx : (d.unit phys).advanced (unitDesc m phys (d.unit phys).desc) = x)
  (hj : d.job (d.unit phys).job = some j) (hst : j.state = .running) (hu : (d.unit phys).state = .running)
include hx hj hst hu

/-- A descriptor that is not sound faults its job. -/
theorem issue_unsound (h : ¬ d.sound phys x) : ∃ f, issue phys d m = (d.descFault phys f, m) := by
  rw [issue]
  dsimp only
  rw [hj, hx]
  dsimp only
  rw [if_neg (by simp [hst, hu])]
  by_cases h1 : (decide (255 < (d.unit phys).desc) || x.invalid) = true
  · exact ⟨_, if_pos h1⟩
  rw [if_neg h1]
  by_cases h2 : (decide (x.waitFlag ≠ 0xFFFF) && !d.holdsFlag (d.unit phys).job (phys / 17) x.waitFlag) = true
  · exact ⟨_, if_pos h2⟩
  rw [if_neg h2]
  by_cases h3 : (decide (x.sigFlag ≠ 0xFFFF) && !d.holdsFlag (d.unit phys).job x.sigCluster x.sigFlag) = true
  · exact ⟨_, if_pos h3⟩
  simp only [Bool.or_eq_true, decide_eq_true_eq, not_or, Bool.not_eq_true, Nat.not_lt] at h1
  exact absurd ⟨h1.1, h1.2, by simpa using h2, by simpa using h3⟩ h

/-- A sound descriptor whose wait is not met stops its unit. -/
theorem issue_waits (h : d.sound phys x) (hw : d.waitMet (phys / 17) x.waitFlag x.waitCount = false) :
    ∃ e : Device, issue phys d m = (e.updUnit phys fun u => { u with state := .waiting, waitAt := e.time.now }, m) ∧
      e.time = d.time := by
  obtain ⟨h1, h2, h3, h4⟩ := h
  rw [issue]
  dsimp only
  rw [hj, hx]
  dsimp only
  rw [if_neg (by simp [hst, hu]), if_neg (by simp [h2, h1]), if_neg (by simpa using h3), if_neg (by simpa using h4),
    if_pos (by simp [hw])]
  refine ⟨_, rfl, ?_⟩
  split <;> rfl

/-- A sound descriptor that is free to run does its work. -/
theorem issue_runs (h : d.sound phys x) (hf : d.freeFor phys x) (hop : x.op ≠ 0x64) :
    issue phys d m =
      if x.op = 0x63 then
        match (d.unit phys).loop x with
        | none => (d.descFault phys .invalid, m)
        | some u' => (d.updUnit phys fun _ => { u' with signals := u'.signals ++ x.signal? }, m)
      else if x.op = 0x62 && 1 < x.p0 then (d.descFault phys .invalid, m)
      else
        match (Env.mk d m j (d.unit phys).job phys).run x with
        | .error f => (d.descFault phys f, m)
        | .ok (e, sticky) =>
          ((e.dev.tickFree.updUnit phys fun u => { u with
            desc := u.desc + 1, sticky := Nat.lor u.sticky sticky, active := u.active + 1,
            signals := u.signals ++ x.signal? }).holdTags (phys / 17) phys (tagsOf x), e.mem) := by
  obtain ⟨h1, h2, h3, h4⟩ := h
  obtain ⟨f1, f2, f3, f4⟩ := hf
  rw [issue]
  dsimp only
  rw [hj, hx]
  dsimp only
  rw [if_neg (by simp [hst, hu]), if_neg (by simp [h2, h1]), if_neg (by simpa using h3), if_neg (by simpa using h4),
    if_neg (by simp [f1]), if_neg (by simpa using f2), if_neg (by simp; omega), if_neg hop] <;> rfl

end

/-- Tags taken move nothing of the unit but their number. -/
theorem Device.unit_holdTags (d : Device) (c phys n : Nat) :
    (d.holdTags c phys n).unit phys = { d.unit phys with tags := (d.unit phys).tags + n } :=
  Device.unit_updUnit d phys fun u => { u with tags := u.tags + n }

/-! ## The end of a unit -/

theorem unitEnd_ends {s : State} {unit : Fin 1088} {j : Job} (hj : s.dev.job (s.dev.unit unit.val).job = some j)
    (hst : j.state = .running) (hu : (s.dev.unit unit.val).state = .running)
    (hop : (unitDesc s.mem unit.val (s.dev.unit unit.val).desc).op = 0x64) (ht : (s.dev.unit unit.val).tags = 0)
    (hs : (s.dev.unit unit.val).signals = [])
    (hsound : s.dev.soundAt unit.val (unitDesc s.mem unit.val (s.dev.unit unit.val).desc) = true)
    (hw : s.dev.waitMet (unit.val / 17) (unitDesc s.mem unit.val (s.dev.unit unit.val).desc).waitFlag
      (unitDesc s.mem unit.val (s.dev.unit unit.val).desc).waitCount = true) :
      Completes (.unitEnd unit) s (fun t => t.mem = s.mem ∧
        if bit (unitDesc s.mem unit.val (s.dev.unit unit.val).desc).p0 0 = true
        then (t.dev.unit unit.val).state = .loading ∧ (t.dev.unit unit.val).segment = (s.dev.unit unit.val).segment + 1
        else (t.dev.unit unit.val).state = .done) := by
  refine ⟨_, (show exec (.unitEnd unit) s = execUnitEnd unit s from rfl).trans (onBoth_next _ s),
    State.withAll_pending _ _ _, ?_⟩
  dsimp only
  rw [hj]
  dsimp only
  generalize unitDesc s.mem unit.val (s.dev.unit unit.val).desc = x at hop hsound hw ⊢
  rw [if_pos (by simp [hst, hu, hop, ht, hs, hsound, hw])]
  obtain ⟨d, hd⟩ : ∃ d, d = x.signal?.foldl Device.signal s.dev := ⟨_, rfl⟩
  have hunit : d.unit unit.val = s.dev.unit unit.val :=
    hd ▸ List.foldlRecOn (motive := fun e : Device => e.unit unit.val = s.dev.unit unit.val) _ _ rfl fun e he g _ => he
  rw [← hd]
  by_cases hb : bit x.p0 0 = true
  · rw [if_pos hb]
    dsimp only [State.withAll]
    rw [if_pos hb]
    have hnext := Device.unit_updUnit d unit.val
      fun u => { u with state := .loading, segment := u.segment + 1, loops := [] }
    rw [hunit] at hnext
    have hgoal (e : Device) (he : e.unit unit.val = { s.dev.unit unit.val with
        state := .loading, segment := (s.dev.unit unit.val).segment + 1, loops := [] }) :
        (e.unit unit.val).state = .loading ∧ (e.unit unit.val).segment = (s.dev.unit unit.val).segment + 1 := by
      rw [he]
      exact ⟨rfl, rfl⟩
    split
    · split
      · exact ⟨rfl, hgoal _ hnext⟩
      · exact ⟨rfl, hgoal _ hnext⟩
    · exact ⟨rfl, hgoal _ hnext⟩
  · rw [if_neg hb]
    dsimp only [State.withAll]
    rw [if_neg hb]
    refine ⟨rfl, ?_⟩
    have hrep (e : Device) (id die : Nat) : (e.reportDie id die).unit unit.val = e.unit unit.val := by
      unfold Device.reportDie
      split
      · rfl
      · dsimp only
        split <;> rfl
    rw [hrep, Device.unit_updUnit]

/-! ## Flags, waits and completions -/

section
variable {s : State}

theorem flagSignal_applies {unit : Fin 1088} {g : Signal} {gs : List Signal}
    (hs : (s.dev.unit unit.val).signals = g :: gs) (ht : (s.dev.unit unit.val).tags = 0) :
      Completes (.flagSignal unit) s (fun t => t.mem = s.mem ∧ (t.dev.unit unit.val).signals = gs ∧
        t.dev.flag g.cluster g.flag =
          (if g.set then g.add else min 0xFFFF (s.dev.flag g.cluster g.flag + g.add))) := by
  refine ⟨s.withDev ((s.dev.updUnit unit.val fun u => { u with signals := gs }).signal g), ?_, rfl, rfl, ?_, ?_⟩
  · change execFlagSignal unit s = _
    simp only [execFlagSignal, onDev_next, hs, ht, if_true]
  · exact congrArg (·.signals) (Device.unit_updUnit s.dev unit.val fun u => { u with signals := gs })
  · simp only [State.withDev, Device.flag, Device.cluster, Device.signal, Device.updCluster, Tbl.getD_upd_same,
      Tbl.getD_put_same]
    rfl

theorem waitTimeout_faults {unit : Fin 1088} {j : Job} (hu : (s.dev.unit unit.val).state = .waiting)
    (hw : s.dev.waitMet (unit.val / 17) (unitDesc s.mem unit.val (s.dev.unit unit.val).desc).waitFlag
      (unitDesc s.mem unit.val (s.dev.unit unit.val).desc).waitCount = false)
    (hj : s.dev.job (s.dev.unit unit.val).job = some j) (hst : j.state = .loading ∨ j.state = .running) :
      Completes (.waitTimeout unit) s (fun t => t.mem = s.mem ∧
        (s.dev.unit unit.val).waitAt + j.waitMs * oneMs ≤ t.dev.time.now ∧
        ∃ k, t.dev.job (s.dev.unit unit.val).job = some k ∧ k.state = .restarting ∧ k.cause = 0x04) := by
  obtain ⟨n, hn⟩ : ∃ n, n = (s.dev.unit unit.val).waitAt + j.waitMs * oneMs := ⟨_, rfl⟩
  obtain ⟨d, hd⟩ : ∃ d, d = s.dev.advanceTo n := ⟨_, rfl⟩
  have hf : s.dev.agrees [.diag, .time] d := hd ▸ (Device.agrees_advanceTo _ _ _ (by simp)).mpr (Device.agrees_refl _ _)
  obtain ⟨e, he⟩ : ∃ e, e = d.jobFault (s.dev.unit unit.val).job 0x04 0 (unit.val / 136) unit.val none
    (s.dev.unit unit.val).detail := ⟨_, rfl⟩
  obtain ⟨k, hk⟩ := Device.jobFault_job ((hf.job (by decide) _).trans hj) hst 0x04 0 (unit.val / 136) unit.val none
    (s.dev.unit unit.val).detail
  rw [← he] at hk
  have ht : e.time = d.time := (show d.agrees [.evt, .diag, .jobs, .units, .clusters, .vis, .slv, .prs] e by simp [he]).time (by decide)
  refine ⟨s.withAll e s.mem, ?_, rfl, rfl, ?_, k, hk⟩
  · change execWaitTimeout unit s = _
    simp only [execWaitTimeout, onBoth_next, hj, hu, hw, Bool.not_false, decide_true, Bool.and_self, if_true, he, hd, hn]
  · rw [← hn]
    dsimp only [State.withAll]
    rw [ht, hd]
    exact Device.le_now_advanceTo _ _

/-- The state of a unit and of its cluster once a tag is free (R361). -/
def Device.freeTag (d : Device) (requester : Nat) : Device :=
  (d.updUnit requester fun u => { u with tags := u.tags - 1 }).updCluster (requester / 17)
    fun k => { k with held := k.held - 1 }

theorem memCompletion_next {requester error : Nat} (hr : requester < 1088) (ht : (s.dev.unit requester).tags ≠ 0) :
    exec (.memCompletion requester error) s = .next (s.withDev (if [0x05, 0x06, 0x08, 0x09].elem error = true
      then (s.dev.freeTag requester).jobFault (s.dev.unit requester).job error 0 (requester / 136) requester none
        (s.dev.unit requester).detail
      else s.dev.freeTag requester)) := by
  change execMemCompletion requester error s = _
  simp only [execMemCompletion, onDev_next, hr, ht, if_true, if_false]
  rfl

theorem memCompletion_frees {requester : Nat} (hr : requester < 1088) (ht : (s.dev.unit requester).tags ≠ 0) :
    Completes (.memCompletion requester 0) s (fun t =>
      t.mem = s.mem ∧ (t.dev.unit requester).tags = (s.dev.unit requester).tags - 1 ∧
      (t.dev.cluster (requester / 17)).held = (s.dev.cluster (requester / 17)).held - 1) := by
  refine ⟨_, memCompletion_next hr ht, rfl, rfl, ?_⟩
  rw [if_neg (by decide)]
  exact ⟨congrArg (·.tags) (Device.unit_updUnit s.dev requester fun u => { u with tags := u.tags - 1 }),
    congrArg (·.held) (Tbl.getD_upd_same s.dev.clusters (requester / 17) Cluster.reset
      fun k => { k with held := k.held - 1 })⟩

theorem memCompletion_faults {requester error : Nat} {j : Job} (hr : requester < 1088)
    (ht : (s.dev.unit requester).tags ≠ 0) (he : [0x05, 0x06, 0x08, 0x09].elem error = true)
    (hj : s.dev.job (s.dev.unit requester).job = some j) (hst : j.state = .loading ∨ j.state = .running) :
    Completes (.memCompletion requester error) s (fun t => t.mem = s.mem ∧
        ∃ k, t.dev.job (s.dev.unit requester).job = some k ∧ k.state = .restarting ∧ k.cause = error) := by
  refine ⟨_, memCompletion_next hr ht, rfl, rfl, ?_⟩
  rw [if_pos he]
  exact Device.jobFault_job (d := s.dev.freeTag requester) hj hst error 0 _ _ _ _

theorem memCompletion_engine {requester : Nat} (hr : 1088 ≤ requester) (error : Nat) :
    Completes (.memCompletion requester error) s (fun t => t.mem = s.mem ∧
      t.dev.memsys.engTags.getD ((requester - 1088) % 8) 0 = s.dev.memsys.engTags.getD ((requester - 1088) % 8) 0 - 1) := by
  refine ⟨_, (show exec (.memCompletion requester error) s = execMemCompletion requester error s from rfl).trans
    (onDev_next _ s), rfl, rfl, ?_⟩
  rw [if_neg (Nat.not_lt.mpr hr)]
  exact Tbl.getD_put_same _ _ _ _

end

theorem sequencersTakeDescriptors_holds : sequencersTakeDescriptors := by
  intro s unit j u c x hj hst hu sound free
  refine ⟨fun e sticky hs hf h63 h64 h62 hrun => ?_, fun v hs hf h63 hl => ?_, fun hs hw => ?_, fun hs => ?_,
    fun hop ht hsig hs hw => unitEnd_ends hj hst hu hop ht hsig hs hw⟩
  · refine ⟨_, descriptorIssue_next unit s, State.withAll_pending _ _ _, ?_⟩
    rw [issue_runs rfl hj hst hu hs hf h64, if_neg h63, if_neg (by simpa using h62), hrun]
    refine ⟨rfl, ?_⟩
    dsimp only [State.withAll]
    rw [Device.unit_holdTags, Device.unit_updUnit]
    exact ⟨rfl, rfl, rfl⟩
  · rw [descriptorIssue_next, issue_runs rfl hj hst hu hs hf (fun h : x.op = _ => by simp [h63] at h), if_pos h63, hl]
    rfl
  · obtain ⟨e, he, ht⟩ := issue_waits (m := s.mem) rfl hj hst hu hs hw
    refine ⟨_, descriptorIssue_next unit s, State.withAll_pending _ _ _, ?_⟩
    rw [he]
    refine ⟨rfl, ?_⟩
    dsimp only [State.withAll]
    rw [Device.unit_updUnit, ← ht]
    exact ⟨rfl, rfl⟩
  · obtain ⟨f, hf⟩ := issue_unsound (m := s.mem) rfl hj hst hu hs
    refine ⟨_, descriptorIssue_next unit s, State.withAll_pending _ _ _, ?_⟩
    rw [hf]
    exact ⟨rfl, Device.descFault_jobState hj hst f⟩

theorem flagsAndCompletions_holds : flagsAndCompletions := by
  intro s
  refine ⟨fun unit g gs hs ht => flagSignal_applies hs ht, fun unit => ?_,
    fun unit j => fun hu hw hj hst => waitTimeout_faults hu hw hj hst, fun requester hr ht => memCompletion_frees hr ht,
    fun requester error j hr ht he hj hst => memCompletion_faults hr ht he hj hst,
    fun requester error hr => memCompletion_engine hr error⟩
  intro x hu hw
  change execFlagWaitMet unit s = _
  rw [execFlagWaitMet, onBoth_next]
  dsimp only
  rw [if_pos (by simp only [hu, decide_true, Bool.true_and]; exact hw)]
  rfl

/-- Settles O38. -/
theorem unitsRunTheirDescriptors : Obligations.UnitsRunTheirDescriptors :=
  ⟨sequencersTakeDescriptors_holds, flagsAndCompletions_holds⟩

end Sys2Proof.Machine
end

section
/-! SUPPORT. Prefetch schedules (O39). -/

namespace Sys2Proof.Machine

/-! ## The end of an entry -/

/-- A schedule moves on, and the signal of the entry takes effect (R407, R408). -/
def Device.entryDone (d : Device) (id c sig : Nat) : Device :=
  let d := if sig = 0xFFFF then d else d.signal ⟨c, sig, 1, false⟩
  match d.job id with
  | some j => d.setJob id { j with schedPos := j.schedPos + 1 }
  | none => d

/-- A frame that does not list the clusters keeps every flag. -/
theorem Device.agrees.flag {ps : List MachinePart} {d e : Device} (h : d.agrees ps e)
    (hp : .clusters ∉ ps) (c f : Nat) : e.flag c f = d.flag c f := by
  rw [Device.flag, Device.cluster, h.clusters hp]
  rfl

theorem Device.flag_signal (d : Device) (c sig : Nat) :
    (d.signal ⟨c, sig, 1, false⟩).flag c sig = min 0xFFFF (d.flag c sig + 1) := by
  simp only [Device.flag, Device.cluster, Device.signal, Device.updCluster, Tbl.getD_upd_same, Tbl.getD_put_same]
  rfl

theorem Device.entryDone_eq {d : Device} {id : Nat} {j : Job} (hj : d.job id = some j) (c sig : Nat) :
    (d.entryDone id c sig).job id = some { j with schedPos := j.schedPos + 1 } ∧
      (sig ≠ 0xFFFF → (d.entryDone id c sig).flag c sig = min 0xFFFF (d.flag c sig + 1)) := by
  unfold Device.entryDone
  dsimp only
  by_cases hs : sig = 0xFFFF
  · rw [if_pos hs, hj]
    exact ⟨Device.job_setJob _ _ _, fun h => absurd hs h⟩
  · rw [if_neg hs, show (d.signal ⟨c, sig, 1, false⟩).job id = some j from hj]
    exact ⟨Device.job_setJob _ _ _, fun _ => d.flag_signal c sig⟩

/-! ## Entries copied -/

section
variable {id c lbase fbase : Nat} {j : Job} {x : SchedEntry} {b : Buffer} {d : Device} {m : Store}
  (hb : d.buf (j.grants.getD x.slot ⟨0, 0, 0, 0⟩).buf = some b) (hslot : x.slot < j.grants.length)
  (hsz : x.offset + x.len ≤ b.size) (hblocks : d.holdsBlocks id c (lbase + x.dest) x.len = true)
  (hsig : resolveFlag fbase x.sigFlag ≠ 0xFFFF → d.holdsFlag id c (resolveFlag fbase x.sigFlag) = true)
include hb hslot hsz hblocks hsig

/-- An entry in order is read from its buffer into its landing. -/
theorem schedCopy_loads {bs : List Byte} (ht : bit x.flags 1 = false)
    (hr : d.bufRead m (j.grants.getD x.slot ⟨0, 0, 0, 0⟩).buf x.offset x.len = .ok bs) :
    schedCopy id j x c lbase fbase d m =
      (d.entryDone id c (resolveFlag fbase x.sigFlag), m.sramWrite (landAddr c (lbase + x.dest)) bs) := by
  unfold schedCopy
  extract_lets die land g toT3 sig done
  rw [show d.buf g.buf = some b from hb]
  dsimp only
  have hif : (decide (j.grants.length ≤ x.slot) || decide (b.size < x.offset + x.len) || !d.holdsBlocks id c land x.len
      || (toT3 && g.access == 0) || (sig != 0xFFFF && !d.holdsFlag id c sig)) = false := by
    simp [Nat.not_le.mpr hslot, Nat.not_lt.mpr hsz, show d.holdsBlocks id c land x.len = true from hblocks,
      show toT3 = false from ht]
    exact hsig
  rw [hif, if_neg Bool.false_ne_true, if_neg (by simp [show toT3 = false from ht]),
    show d.bufRead m g.buf x.offset x.len = .ok bs from hr]
  rfl

/-- An entry in order is written from its landing to its buffer. -/
theorem schedCopy_stores {y : Device × Store} (ht : bit x.flags 1 = true)
    (hacc : (j.grants.getD x.slot ⟨0, 0, 0, 0⟩).access ≠ 0)
    (hw : d.bufStore m (j.grants.getD x.slot ⟨0, 0, 0, 0⟩).buf x.offset
      (m.sramRead (landAddr c (lbase + x.dest)) x.len) = .ok y) :
    schedCopy id j x c lbase fbase d m = (y.1.entryDone id c (resolveFlag fbase x.sigFlag), y.2) := by
  unfold schedCopy
  extract_lets die land g toT3 sig done
  rw [show d.buf g.buf = some b from hb]
  dsimp only
  have hif : (decide (j.grants.length ≤ x.slot) || decide (b.size < x.offset + x.len) || !d.holdsBlocks id c land x.len
      || (toT3 && g.access == 0) || (sig != 0xFFFF && !d.holdsFlag id c sig)) = false := by
    simp [Nat.not_le.mpr hslot, Nat.not_lt.mpr hsz, show d.holdsBlocks id c land x.len = true from hblocks,
      show g.access ≠ 0 from hacc]
    exact hsig
  rw [hif, if_neg Bool.false_ne_true, if_pos (show toT3 = true from ht),
    show d.bufStore m g.buf x.offset (m.sramRead (landAddr c land) x.len) = .ok y from hw]
  rfl

end

/-! ## The schedule of a job -/

/-- The next entry of a running job, of the kind that is served, whose wait is met, is copied (R406, R410). -/
theorem schedNext_copies {id c lbase fbase : Nat} {j : Job} {d : Device} {m : Store} (hj : d.job id = some j)
    (hst : j.state = .running) (hpos : j.schedPos < j.schedLen)
    (hp : j.partBase (schedEntry j.sched j.schedPos).part = some (c, lbase, fbase))
    (hf : resolveFlag fbase (schedEntry j.sched j.schedPos).waitFlag ≠ 0xFFFF →
      d.holdsFlag id c (resolveFlag fbase (schedEntry j.sched j.schedPos).waitFlag) = true)
    (hw : d.waitMet c (resolveFlag fbase (schedEntry j.sched j.schedPos).waitFlag)
      (schedEntry j.sched j.schedPos).waitCount = true) :
    schedNext id (bit (schedEntry j.sched j.schedPos).flags 0) d m =
      schedCopy id j (schedEntry j.sched j.schedPos) c lbase fbase d m := by
  simp only [schedNext, hj]
  rw [if_neg (by simp [hst, hpos]), if_neg (by simp), hp]
  dsimp only
  rw [if_neg (by simpa using hf), if_neg (by simp [hw])]

/-- The command that serves an entry. -/
theorem schedCommand_next (s : State) (id : Nat) (window : Bool) :
    exec (if window = true then .windowSlotLoad id else .schedEntryCopy id) s =
      .next (s.withAll (schedNext id window s.dev s.mem).1 (schedNext id window s.dev s.mem).2) := by
  cases window <;> rfl

/-- Settles O39: the entry is copied one way or the other. -/
theorem schedulesCopyTheirEntries : Obligations.SchedulesCopyTheirEntries := by
  intro s id j c lbase fbase b
  intro x g land sig cmd hj hst hpos hp hf hw hb hslot hsz hblocks hsig
  have hnext := schedNext_copies (m := s.mem) hj hst hpos hp hf hw
  refine ⟨fun bs ht hr => ?_, fun y ht hacc hy => ?_⟩
  · refine ⟨_, schedCommand_next s id (bit x.flags 0), State.withAll_pending _ _ _, ?_⟩
    rw [hnext, schedCopy_loads hb hslot hsz hblocks hsig ht hr]
    exact ⟨rfl, Device.entryDone_eq hj c sig⟩
  · refine ⟨_, schedCommand_next s id (bit x.flags 0), State.withAll_pending _ _ _, ?_⟩
    rw [hnext, schedCopy_stores hb hslot hsz hblocks hsig ht hacc hy]
    have hf : s.dev.agrees [.memsys] y.1 := by simp [Device.agrees_of_bufStore hy]
    obtain ⟨h1, h2⟩ := Device.entryDone_eq ((hf.job (by decide) id).trans hj) c sig
    exact ⟨rfl, h1, fun h => (h2 h).trans (by rw [hf.flag (by decide)])⟩

end Sys2Proof.Machine
end

section
/-! SUPPORT. Buffers allocated, freed, reported, read and written (O40). -/

namespace Sys2Proof.Machine

/-! ## Pitches placed -/

/-- Every pitch of a search is free. -/
theorem taken_of_mem_freeGo {m : MemSys} {c k p n q : Nat} (hq : q ∈ freeGo m c k p n) : m.taken q = false := by
  induction k generalizing p n with
  | zero => simp [freeGo] at hq
  | succ k ih =>
    unfold freeGo at hq
    split at hq
    · simp at hq
    · split at hq
      · exact ih hq
      · next ht =>
        rcases List.mem_cons.mp hq with rfl | hq
        · simpa using ht
        · exact ih hq

theorem Device.taken_of_mem_lowestFree {d : Device} {c n q : Nat} (hq : q ∈ d.lowestFree c n) : d.memsys.taken q = false := by
  unfold Device.lowestFree at hq
  split at hq
  · exact taken_of_mem_freeGo hq
  · simp at hq

/-- The pitches of a new buffer are as many as it needs, every one of them free (R391). -/
theorem Device.place_some {d : Device} {placement target n : Nat} {ps : List Nat} (h : d.place placement target n = some ps) :
    ps.length = n ∧ ∀ p ∈ ps, d.memsys.taken p = false := by
  unfold Device.place at h
  extract_lets chs k need lists at h
  split at h
  · cases h
  next hk =>
  split at h
  · next hall =>
    cases h
    refine ⟨by simp, fun p hp => ?_⟩
    obtain ⟨j, hj, rfl⟩ := List.mem_map.mp hp
    have hk0 : 0 < k := by simp at hk; omega
    have hmod : j % k < k := Nat.mod_lt _ hk0
    have hlen : (lists.getD (j % k) []).length = need (j % k) := by
      simpa using List.all_eq_true.mp hall (j % k) (List.mem_range.mpr hmod)
    have hlt : j / k < (lists.getD (j % k) []).length := by
      rw [hlen]
      have hjn := List.mem_range.mp hj
      have := Nat.div_add_mod j k
      have hm : (j / k + 1) * k ≤ n + k - 1 - j % k := by
        rw [Nat.add_mul, Nat.mul_comm]
        omega
      exact (Nat.le_div_iff_mul_le hk0).mpr hm
    rw [getD_of_lt_length _ _ hlt]
    refine Device.taken_of_mem_lowestFree (c := chs.getD (j % k) 0) (n := need (j % k)) ?_
    have hl : lists.getD (j % k) [] = d.lowestFree (chs.getD (j % k) 0) (need (j % k)) := by
      simp [lists, hmod]
    rw [← hl]
    exact List.getElem_mem hlt
  · cases h

/-! ## The commands -/

section
variable {s : State} {ch : Fin 8} {r : Request} {b : Buffer}

theorem memStatus_reports (hr : s.holds ch 0x0600 r) : Reports (.memStatus ch) s ch r (fun p => p.length = 196 ∧
    fieldAt p 0 2 = s.dev.boot.memCap % 65536 ∧ fieldAt p 2 1 = s.dev.boot.lpRate % 256) := by
  refine reports_of_query (show execMemStatus ch s = _ from rfl) hr rfl ?_
  simp only [List.append_assoc]
  refine ⟨by simp [List.map_const'], ?_, ?_⟩ <;> simp [fieldAt_skip, fieldAt_head]

theorem bufAlloc_places {ps : List Nat} (hr : s.holds ch 0x0601 r) (ht : targetOk (r.u 8 1) (r.u 9 1) = true)
    (hc : s.dev.memsys.hostCount < 4096)
    (hp : s.dev.place (r.u 8 1) (r.u 9 1) ((r.u 0 8 + pitchSize - 1) / pitchSize) = some ps) :
      ∃ id t, exec (.bufAlloc ch) s = .next t ∧ t.mem = s.mem ∧ (t.dev.chan ch.val).formed = some (okWith (leBytes 4 id ++
        leBytes 4 ((r.u 0 8 + pitchSize - 1) / pitchSize))) ∧
        t.dev.buf id = some ⟨r.u 8 1, r.u 9 1, ps, false, false⟩ ∧
        ps.length = (r.u 0 8 + pitchSize - 1) / pitchSize ∧ ∀ p ∈ ps, s.dev.memsys.taken p = false := by
  obtain ⟨id, e, ha, hb⟩ : ∃ id e, s.dev.allocHost (r.u 8 1) (r.u 9 1) ((r.u 0 8 + pitchSize - 1) / pitchSize) =
      some (id, e) ∧ e.buf id = some ⟨r.u 8 1, r.u 9 1, ps, false, false⟩ := by
    rw [Device.allocHost, if_neg (Nat.not_le.mpr hc), hp]
    exact ⟨_, _, rfl, Tbl.look_put_same _ _ _⟩
  refine ⟨id, _, (command_next _ _ _ _ r hr : execBufAlloc ch s = _), rfl, ?_, ?_, Device.place_some hp⟩
  · rw [State.answered, State.withDev, Device.answer_formed]
    simp only [ht, ha, Bool.not_true, Bool.false_eq_true, if_false]
    rfl
  · rw [State.answered, State.withDev]
    simp only [ht, ha, Bool.not_true, Bool.false_eq_true, if_false, Device.buf, Device.answer_memsys]
    exact hb

theorem bufFree_frees (hr : s.holds ch 0x0602 r) (hb : s.dev.buf (r.u 0 4) = some b) (hh : isHostBuf (r.u 0 4) = true)
    (hu : b.lost = true ∨ s.dev.bufHeld (r.u 0 4) b = false) : Sets (.bufFree ch) s ch (fun t =>
        t.dev.buf (r.u 0 4) = none ∧ ∀ k, k ≠ r.u 0 4 → t.dev.buf k = s.dev.buf k) := by
  refine sets_of_command (d := s.dev.freeBuf (r.u 0 4)) (show execBufFree ch s = _ from rfl) hr ?_ ?_
  · simp only [hb, hh]
    rw [if_neg (by simpa [Decidable.or_iff_not_imp_left] using hu)]
    rfl
  · simp only [State.answered, State.withDev, Device.buf, Device.answer_memsys, Device.freeBuf]
    exact ⟨Tbl.look_del_same _ _, fun k hk => Tbl.look_del_other _ _ _ hk⟩

theorem Device.bufState_lt (d : Device) (id : Nat) (b : Buffer) : d.bufState id b < 256 := by
  unfold Device.bufState b2n
  split
  · decide
  · split <;> decide

theorem bufInfo_reports (hr : s.holds ch 0x0603 r) (hb : s.dev.buf (r.u 0 4) = some b) (hf : r.u 4 4 ≤ b.pitches.length) :
      Reports (.bufInfo ch) s ch r (fun p => p.length = 24 + 8 * min 500 (b.pitches.length - r.u 4 4) ∧
        fieldAt p 0 1 = s.dev.bufState (r.u 0 4) b ∧ fieldAt p 12 4 = b.pitches.length % 2 ^ 32) := by
  refine reports_of_query (show execBufInfo ch s = _ from rfl) hr
    (by simp only [hb, if_neg (Nat.not_lt.mpr hf)]; rfl) ?_
  have h0 := Nat.mod_eq_of_lt (s.dev.bufState_lt (r.u 0 4) b)
  simp only [List.append_assoc]
  refine ⟨?_, ?_, ?_⟩
  · simp [List.map_const', List.sum_replicate_nat]
    omega
  all_goals simp [fieldAt_skip, fieldAt_head, h0]

theorem memRead_reports {bs : List Byte} (hr : s.holds ch 0x0604 r) (hb : s.dev.buf (r.u 0 4) = some b)
    (hsz : r.u 8 8 + r.u 16 4 ≤ b.size) (hl : b.lost = false)
    (hrd : s.dev.bufRead s.mem (r.u 0 4) (r.u 8 8) (r.u 16 4) = .ok bs) : Reports (.memRead ch) s ch r (fun p =>
        p = leBytes 8 (r.u 8 8) ++ leBytes 4 (r.u 16 4) ++ zeros 4 ++ bs) := by
  refine reports_of_commandRead (show execMemRead ch s = _ from rfl) hr ?_ rfl
  simp only [hb, if_neg (Nat.not_lt.mpr hsz), hl, hrd, Bool.false_eq_true, if_false]
  rfl

theorem memWrite_stores {x : Device × Store} (hr : s.holds ch 0x0605 r) (hb : s.dev.buf (r.u 0 4) = some b)
    (hsz : r.u 8 8 + r.u 16 4 ≤ b.size) (hl : b.lost = false) (hh : isHostBuf (r.u 0 4) = true)
    (hheld : s.dev.bufHeld (r.u 0 4) b = false)
    (hw : s.dev.bufStore s.mem (r.u 0 4) (r.u 8 8) (r.bytes 24 (r.u 16 4)) = .ok x) : Completes (.memWrite ch) s (fun t =>
        t.mem = x.2 ∧ (t.dev.chan ch.val).formed = some (okWith []) ∧ t.mem.sram = s.mem.sram ∧
        t.mem.flash = s.mem.flash ∧
        ∀ a, (∀ q ∈ b.range (r.u 8 8) (r.bytes 24 (r.u 16 4)).length, a < q.1 ∨ q.1 + q.2 ≤ a) →
          Cells.read 0#8 t.mem.lp a = Cells.read 0#8 s.mem.lp a) := by
  obtain ⟨hsram, hflash, -, hother, -⟩ := storedBytesAreRead s.dev s.mem (r.u 0 4) (r.u 8 8) _ b x hb hw
  have hexec : exec (.memWrite ch) s = .next (s.withAll (x.1.answer ch.val r (okWith [])) x.2) := by
    change execMemWrite ch s = _
    rw [execMemWrite, commandMem_next _ _ _ _ r hr]
    simp only [hb, if_neg (Nat.not_lt.mpr hsz), hl, hh, hheld, hw, Bool.not_true, Bool.or_self, Bool.false_eq_true, if_false]
    rfl
  exact ⟨_, hexec, State.withAll_pending _ _ _, rfl, Device.answer_formed _ _ _ _, hsram, hflash, hother⟩

end

/-- Settles O40: a lemma of its kind for each command. -/
theorem buffersAreServed : Obligations.BuffersAreServed := fun s ch r =>
  ⟨fun hr => memStatus_reports hr, fun ps hr ht hc hp => bufAlloc_places hr ht hc hp,
    fun b hr hb hh hu => bufFree_frees hr hb hh hu, fun b hr hb hf => bufInfo_reports hr hb hf,
    fun b bs hr hb hsz hl hrd => memRead_reports hr hb hsz hl hrd,
    fun b x hr hb hsz hl hh hheld hw => memWrite_stores hr hb hsz hl hh hheld hw⟩

end Sys2Proof.Machine
end

section
/-! SUPPORT. Requests at a home slice, and the patrol scrub (O41). -/

namespace Sys2Proof.Machine

/-! ## Ways of a set -/

/-- The way that is searched for is one of the sixteen. -/
theorem firstBelow_lt {n i : Nat} {p : Nat → Bool} (h : firstBelow n p = some i) : i < n ∧ p i = true :=
  ⟨List.mem_range.mp (List.mem_of_find?_eq_some h), List.find?_some h⟩

/-- The tree bits point at one of sixteen ways. -/
theorem plruVictim_lt (n : Nat) : plruVictim n < 16 := by
  simp only [plruVictim, List.range, List.range.loop, List.foldl]
  omega

theorem MscSet.victim_lt (st : MscSet) : st.victim < 16 := by
  unfold MscSet.victim
  cases h : firstBelow 16 _ with
  | none => exact plruVictim_lt _
  | some i => exact (firstBelow_lt h).1

/-- A set that holds a line with the sector of an address in one of its ways, dirty after a write. -/
theorem MemSys.holds_setWay (m : MemSys) (pa i plru : Nat) (ws : List Way) (hi : i < ws.length) (w : Way)
    (ht : w.tag = mscTag pa) (hv : (if pa % 128 < 64 then w.v0 else w.v1) = true) :
    ({ m with msc := m.msc.put (mscKey pa) ⟨setWay ws i w, plru⟩ } : MemSys).holdsSector pa = true ∧
      ((if pa % 128 < 64 then w.d0 else w.d1) = true →
        ({ m with msc := m.msc.put (mscKey pa) ⟨setWay ws i w, plru⟩ } : MemSys).isDirty pa = true) := by
  have hmem : w ∈ setWay ws i w := List.mem_set hi w
  refine ⟨?_, fun hd => ?_⟩
  · simp only [MemSys.holdsSector, Tbl.getD_put_same]
    exact List.any_eq_true.mpr ⟨w, hmem, by simp [ht, hv]⟩
  · simp only [MemSys.isDirty, Tbl.getD_put_same]
    refine List.any_eq_true.mpr ⟨w, hmem, ?_⟩
    by_cases hp : pa % 128 < 64
    · rw [if_pos hp] at hv hd
      simp [Way.has, ht, hv, hd, hp]
    · rw [if_neg hp] at hv hd
      simp [Way.has, ht, hv, hd, hp]

/-- A request that may allocate leaves its sector held, and dirty after a write (R398 to R402). -/
theorem Device.mscAccess_holds {d : Device} {pa n policy : Nat} (write : Bool) (hn : 0 < n) (hp : policy ≠ 2)
    (ha : d.pwr.noalloc.getLsbD (pa / 2 ^ 34) = false)
    (hl : (d.memsys.msc.getD (mscKey pa) MscSet.empty).ways.length = 16) :
    (d.mscAccess pa n policy write).memsys.holdsSector pa = true ∧
      (write = true → (d.mscAccess pa n policy write).memsys.isDirty pa = true) := by
  unfold Device.mscAccess
  extract_lets c r die key tag st sec0 sec1 whole0 whole1 setMsc
  have hset (e : Device) (i plru : Nat) (w : Way) (hi : i < 16) (ht : w.tag = mscTag pa)
      (hv : (if pa % 128 < 64 then w.v0 else w.v1) = true)
      (hd : write = true → (if pa % 128 < 64 then w.d0 else w.d1) = true) :
      (setMsc e ⟨setWay st.ways i w, plru⟩).memsys.holdsSector pa = true ∧
        (write = true → (setMsc e ⟨setWay st.ways i w, plru⟩).memsys.isDirty pa = true) := by
    obtain ⟨h1, h2⟩ := e.memsys.holds_setWay pa i plru st.ways (Nat.lt_of_lt_of_eq hi hl.symm) w ht hv
    exact ⟨h1, fun hw => h2 (hd hw)⟩
  have hsec0 (hpa : pa % 128 < 64) : sec0 := hpa
  have hsec1 (hpa : ¬ pa % 128 < 64) : sec1 := by simp only [sec1]; omega
  split
  · next i hfirst =>
    obtain ⟨hi, hhas⟩ := firstBelow_lt hfirst
    have htag : (st.ways.getD i Way.empty).tag = mscTag pa := by
      simp only [Way.has, Bool.and_eq_true, beq_iff_eq] at hhas
      exact hhas.2
    refine hset _ i _ _ hi htag ?_ ?_
    · by_cases hpa : pa % 128 < 64
      · simp [hpa, hsec0 hpa]
      · simp [hpa, hsec1 hpa]
    · intro hw
      by_cases hpa : pa % 128 < 64
      · simp [hpa, hsec0 hpa, hw]
      · simp [hpa, hsec1 hpa, hw]
  · rw [if_neg (by simp [hp]; exact ha)]
    refine hset _ _ _ (if write = true then ⟨tag, sec0, sec1, sec0, sec1⟩ else ⟨tag, true, true, false, false⟩)
      st.victim_lt ?_ ?_ ?_
    · split <;> rfl
    · by_cases hpa : pa % 128 < 64
      · cases write <;> simp [hpa, hsec0 hpa]
      · cases write <;> simp [hpa, hsec1 hpa]
    · rintro rfl
      by_cases hpa : pa % 128 < 64
      · simp [hpa, hsec0 hpa]
      · simp [hpa, hsec1 hpa]

/-! ## Requests -/

theorem mem_insertNat (x : Nat) (l : List Nat) : x ∈ insertNat x l := by
  induction l with
  | nil => simp [insertNat]
  | cons y ys ih =>
    unfold insertNat
    split
    · simp
    · split
      · next h => simp [h]
      · simp [ih]

section
variable {s : State} {pa len : Nat} (hc : pa / 2 ^ 34 < 16) (hup : s.dev.channelUp (pa / 2 ^ 34) = true)
  (hfree : s.dev.mscTested (pa / 2 ^ 34) = false) (hden : pa % 2 ^ 34 < s.dev.density * 2 ^ 30) (hlen : 0 < len)
  (hline : pa % 128 + len ≤ 128)
include hc hup hfree hden hlen hline

/-- A request on one line of a slice that serves. -/
theorem mscRequest_next (write : Bool) (policy : Fin 3) {e : EccHit} (he : e ≠ .victim) :
    exec (.mscRequest pa len write policy e) s = .next (s.withDev (if write = true
      then { s.dev.mscAccess pa len policy.val write with
        memsys := (s.dev.mscAccess pa len policy.val write).memsys.renew pa len }
      else (s.dev.mscAccess pa len policy.val write).mscEcc pa e (s.dev.memsys.holdsSector pa)
        (s.dev.memsys.isDirty pa))) := by
  change execMscRequest pa len write policy e s = _
  rw [execMscRequest, onDev_next]
  dsimp only
  rw [if_neg ?_, if_neg he]
  simp only [hup, hfree, Bool.not_true, Bool.or_false, Bool.or_eq_true, decide_eq_true_eq, not_or]
  omega

theorem mscRequest_clean (write : Bool) {policy : Fin 3} (hp : policy.val ≠ 2)
    (ha : s.dev.pwr.noalloc.getLsbD (pa / 2 ^ 34) = false)
    (hl : (s.dev.memsys.msc.getD (mscKey pa) MscSet.empty).ways.length = 16) :
    Completes (.mscRequest pa len write policy .clean) s (fun t => t.mem = s.mem ∧
        t.dev.memsys.holdsSector pa = true ∧ (write = true → t.dev.memsys.isDirty pa = true)) := by
  have h := Device.mscAccess_holds write hlen hp ha hl
  refine ⟨_, mscRequest_next hc hup hfree hden hlen hline write policy (by decide), rfl, rfl, ?_⟩
  cases write with
  | true => exact h
  | false => exact h

theorem mscRequest_uncorrectable (policy : Fin 3) (hheld : s.dev.memsys.holdsSector pa = false) :
    Completes (.mscRequest pa len false policy .uncorrectable) s (fun t => t.mem = s.mem ∧
      pa / 64 ∈ t.dev.memsys.bad ∧ t.dev.evt.flogCount = (s.dev.evt.flogCount + 1) % 2 ^ 32) := by
  have hf : s.dev.agrees [.diag, .memsys] (s.dev.mscAccess pa len policy.val false) := by simp
  refine ⟨_, mscRequest_next hc hup hfree hden hlen hline false policy (by decide), rfl, rfl, ?_⟩
  generalize s.dev.mscAccess pa len policy.val false = d at hf
  rw [hheld, if_neg Bool.false_ne_true, ← hf.evt (by decide)]
  exact ⟨mem_insertNat _ _, rfl⟩

end

theorem patrolScrub_moves {s : State} {channel : Fin 16} (hup : s.dev.channelUp channel.val = true)
    (hd : s.dev.density ≠ 0) (hfree : s.dev.mscTested channel.val = false) (ecc : EccHit) :
    Completes (.patrolScrub channel ecc) s (fun t => t.mem = s.mem ∧
        t.dev.memsys.scrub.look channel.val =
          some ((s.dev.memsys.scrub.getD channel.val 0 % (s.dev.density * 2 ^ 24) + 1) %
            (s.dev.density * 2 ^ 24))) := by
  refine ⟨_, (show exec (.patrolScrub channel ecc) s = execPatrolScrub channel ecc s from rfl).trans (onDev_next _ s), rfl,
    rfl, ?_⟩
  dsimp only [State.withDev]
  rw [if_neg (by simp [hup, hd, hfree])]
  exact Tbl.look_put_same _ _ _

/-- Settles O41. -/
theorem slicesServeRequests : Obligations.SlicesServeRequests := fun s =>
  ⟨fun pa len write policy hc hup hfree hden hlen hline hp ha hl =>
      mscRequest_clean hc hup hfree hden hlen hline write hp ha hl,
    fun pa len policy hc hup hfree hden hlen hline hheld =>
      mscRequest_uncorrectable hc hup hfree hden hlen hline policy hheld,
    fun channel ecc hup hd hfree => patrolScrub_moves hup hd hfree ecc⟩

end Sys2Proof.Machine
end

section
/-! SUPPORT. The commands of the stereo and of the feature tracking engine (O42). -/

namespace Sys2Proof.Machine

/-! ## Commands that enter a job -/

section
variable {c : Instr} {op : Nat} {ch : Fin 8} {s : State} {r : Request} {j : Job} {P : Job → Prop}
  (hr : s.holds ch op r) (hroom : s.roomy)
  (hP : ∀ h n a t, P { j with handle := h, state := .waiting, order := n, admitted := a, admitAt := t })
include hr hroom hP

/-- A command that gets as far as `admitCmd` admits its job. -/
theorem admits_of_command {f : Request → Device → Device × Reply} (hexec : exec c s = command op ch f s)
    (hb : f r s.dev = admitCmd r ch.val s.dev j) : Admits c s ch P := by
  obtain ⟨id, e, k, he, hk, hj⟩ := admitCmd_room (r := r) hroom.1 hroom.2 ch.val j
  refine ⟨_, s.dev.mbx.nextHandle, hexec.trans (command_next op ch f s r hr), ?_, rfl, rfl, id, k, ?_, ?_⟩
  · rw [hb, he, State.answered, State.withDev, Device.answer_formed]
  · rw [hb, he, State.answered, State.withDev, Device.answer_job, hk]
  · rw [hj]
    exact ⟨rfl, rfl, hP _ _ _ _⟩

/-- The same for a command that reads the memories. -/
theorem admits_of_commandRead {f : Request → Device → Store → Device × Reply} (hexec : exec c s = commandRead op ch f s)
    (hb : f r s.dev s.mem = admitCmd r ch.val s.dev j) : Admits c s ch P := by
  obtain ⟨id, e, k, he, hk, hj⟩ := admitCmd_room (r := r) hroom.1 hroom.2 ch.val j
  refine ⟨_, s.dev.mbx.nextHandle, hexec.trans (commandRead_next op ch f s r hr), ?_, rfl, rfl, id, k, ?_, ?_⟩
  · rw [hb, he, State.answered, State.withDev, Device.answer_formed]
  · rw [hb, he, State.answered, State.withDev, Device.answer_job, hk]
  · rw [hj]
    exact ⟨rfl, rfl, hP _ _ _ _⟩

end

/-! ## The engines' objects -/

@[simp] theorem Device.answer_stePair (d : Device) (ch : Nat) (r : Request) (a : Reply) (p : Nat) :
    (d.answer ch r a).stePair p = d.stePair p := by simp [Device.stePair]

@[simp] theorem Device.answer_fteS (d : Device) (ch : Nat) (r : Request) (a : Reply) (k : Nat) :
    (d.answer ch r a).fteS k = d.fteS k := by simp [Device.fteS]

@[simp] theorem Device.stePair_updSte (d : Device) (p : Nat) (f : StePair → StePair) :
    (d.updSte p f).stePair p = f (d.stePair p) := Tbl.getD_upd_same _ _ _ _

@[simp] theorem Device.fteS_updFte (d : Device) (k : Nat) (f : FteStream → FteStream) :
    (d.updFte k f).fteS k = f (d.fteS k) := Tbl.getD_upd_same _ _ _ _

section
variable {s : State} {ch : Fin 8} {r : Request}

/-! ## The stereo engine -/

theorem steConfig_sets (hr : s.mayConfigure ch setSteConfig r) (hf : steFieldsOk r = true)
    (hv : s.dev.visionUp (r.u 0 1) = true) :
      Sets (.steConfig ch) s ch (fun t => (t.dev.stePair (r.u 0 1)).cfg = some ⟨r.u 1 1, r.u 2 1, r.u 4 2, r.u 6 2, r.u 8 2,
        r.u 10 2, r.u 12 2, r.u 14 1, r.u 15 1, r.u 16 1, r.u 17 1, r.u 18 1, r.u 19 1, r.u 20 1⟩) := by
  refine sets_of_configure (show execSteConfig ch s = _ from rfl) hr
    (by simp only [setSteConfig, devBody, steConfig, hf, hv]; rfl) ?_
  simp [State.answered, State.withDev]

/-- STE_MAP of an empty map erases it, else the bytes of the buffer are held (R419, R447). -/
theorem steMap_sets (hr : s.mayConfigure ch setSteMap r) (hv : s.dev.visionUp (r.u 0 1) = true) :
    (r.u 2 1 % 2 = 1 → Sets (.steMap ch) s ch (fun t => (t.dev.stePair (r.u 0 1)).maps.look (r.u 1 1) = none)) ∧
    (∀ bs, r.u 2 1 % 2 = 0 →
      s.dev.hostBytes s.mem (r.u 4 4) (r.u 8 8) (mapBytes (s.dev.steCfg (r.u 0 1)).outW (s.dev.steCfg (r.u 0 1)).outH) =
        some bs → Sets (.steMap ch) s ch (fun t => (t.dev.stePair (r.u 0 1)).maps.look (r.u 1 1) = some bs)) := by
  refine ⟨fun h1 => ?_, fun bs h0 hb => ?_⟩
  · refine sets_of_configure (show execSteMap ch s = _ from rfl) hr
      (by simp only [setSteMap, steMap, hv, h1]; rfl) ?_
    simp [State.answered, State.withDev]
  · refine sets_of_configure (show execSteMap ch s = _ from rfl) hr
      (by simp only [setSteMap, steMap, hv, h0, hb]; rfl) ?_
    simp [State.answered, State.withDev]

theorem steMask_sets (hr : s.mayConfigure ch setSteMask r) (hv : s.dev.visionUp (r.u 0 1) = true) :
    (r.u 2 1 % 2 = 1 → Sets (.steMask ch) s ch (fun t => (t.dev.stePair (r.u 0 1)).masks.look (r.u 1 1) = none)) ∧
    (∀ bs, r.u 2 1 % 2 = 0 →
      s.dev.hostBytes s.mem (r.u 4 4) (r.u 8 8) (maskBytes (s.dev.steCfg (r.u 0 1)).outW (s.dev.steCfg (r.u 0 1)).outH) =
        some bs → Sets (.steMask ch) s ch (fun t => (t.dev.stePair (r.u 0 1)).masks.look (r.u 1 1) = some bs)) := by
  refine ⟨fun h1 => ?_, fun bs h0 hb => ?_⟩
  · refine sets_of_configure (show execSteMask ch s = _ from rfl) hr
      (by simp only [setSteMask, steMask, hv, h1]; rfl) ?_
    simp [State.answered, State.withDev]
  · refine sets_of_configure (show execSteMask ch s = _ from rfl) hr
      (by simp only [setSteMask, steMask, hv, h0, hb]; rfl) ?_
    simp [State.answered, State.withDev]

theorem steStatus_reports (hr : s.holds ch 0x0703 r) (hv : s.dev.visionUp (r.u 0 1) = true) :
    Reports (.steStatus ch) s ch r (fun p =>
      p.length = 40 + 4 * (s.dev.stePair (r.u 0 1)).lastCounts.length ∧
      fieldAt p 4 4 = (s.dev.stePair (r.u 0 1)).frames % 2 ^ 32 ∧
      fieldAt p 16 4 = (s.dev.stePair (r.u 0 1)).lastSeq % 2 ^ 32) := by
  refine reports_of_query (show execSteStatus ch s = _ from rfl) hr (by simp only [hv]; rfl) ?_
  simp only [List.append_assoc]
  refine ⟨?_, ?_, ?_⟩
  · simp [Function.comp_def, List.map_const', List.sum_replicate_nat, Nat.mul_comm]
    omega
  all_goals simp [fieldAt_skip, fieldAt_head]

theorem steRun_admits (hr : s.holds ch 0x0704 r) (hroom : s.roomy) (hup : s.dev.engineUp (r.u 0 1) 0 = true)
    (hhost : ([r.u 4 4, r.u 16 4, r.u 28 4, r.u 40 4].all fun id => isHostBuf id && (s.dev.buf id).isSome) = true)
    (ha : s.dev.frameInside s.mem (r.u 4 4) (r.u 8 8) = true) (hb : s.dev.frameInside s.mem (r.u 16 4) (r.u 20 8) = true)
    (hout : r.u 32 8 + 4096 + 3 * (s.dev.steCfg (r.u 0 1)).outW * (s.dev.steCfg (r.u 0 1)).outH ≤
        (s.dev.buf (r.u 28 4)).elim 0 (·.size))
    (hscr : 4 * (s.dev.steCfg (r.u 0 1)).outW * (s.dev.steCfg (r.u 0 1)).outH ≤
      (s.dev.buf (r.u 40 4)).elim 0 (·.size)) :
      Admits (.steRun ch) s ch (fun j => j.cls = .user ∧ j.work = .ste (r.u 0 1) (r.u 4 4) (r.u 16 4) (r.u 28 4)) := by
  refine admits_of_commandRead hr hroom ?_ (show execSteRun ch s = _ from rfl) ?_ (j := { Job.blank .user
    (.ste (r.u 0 1) (r.u 4 4) (r.u 16 4) (r.u 28 4)) with
        arg := r.body, restartMax := s.dev.jobs.restartFw, waitMs := s.dev.jobs.waitFw
        grants := [⟨r.u 4 4, 0, 0, 0⟩, ⟨r.u 16 4, 0, 0, 0⟩, ⟨r.u 28 4, 1, 0, 0⟩, ⟨r.u 40 4, 1, 0, 0⟩] })
  · exact fun _ _ _ _ => ⟨rfl, rfl⟩
  · dsimp only
    rw [if_neg (by simp [hup]), if_neg ?_]
    simp only [hhost, ha, hb, Bool.not_true, Bool.false_or, Bool.or_eq_true, decide_eq_true_eq, not_or]
    omega

/-! ## The feature tracking engine -/

theorem fteConfig_off (hr : s.mayConfigure ch setFteConfig r) (hv : s.dev.visionUp (r.u 0 1 / 2) = true) (h0 : r.u 1 1 = 0) :
      Sets (.fteConfig ch) s ch (fun t => (t.dev.fteS (r.u 0 1)).enable = false ∧
        (t.dev.fteS (r.u 0 1)).core.ctxs = [] ∧ (t.dev.fteS (r.u 0 1)).core.owed = (s.dev.fteS (r.u 0 1)).core.owed ++
          streamLost (r.u 0 1) (s.dev.fteS (r.u 0 1)).core.ctxs) := by
  refine sets_of_configure (show execFteConfig ch s = _ from rfl) hr
    (by simp only [setFteConfig, devBody, fteConfig, hv, h0]; rfl) ?_
  simp [State.answered, State.withDev]

theorem fteConfig_on (hr : s.mayConfigure ch setFteConfig r) (hv : s.dev.visionUp (r.u 0 1 / 2) = true) (h0 : r.u 1 1 ≠ 0)
    (hctx : (fteCfgOf r).contexts + (s.dev.fteCfg (otherStream (r.u 0 1))).contexts ≤ 8192)
    (hw : (s.dev.csi (r.u 0 1)).width ≤ 4096) (hh : (s.dev.csi (r.u 0 1)).height ≤ 3072)
    (hw' : 4 * (fteCfgOf r).win ≤ (s.dev.csi (r.u 0 1)).width / 2 ^ ((fteCfgOf r).levels - 1))
    (hh' : 4 * (fteCfgOf r).win ≤ (s.dev.csi (r.u 0 1)).height / 2 ^ ((fteCfgOf r).levels - 1))
    (hd : s.dev.descOk (r.u 0 1) (fteCfgOf r) = true) : Sets (.fteConfig ch) s ch (fun t =>
        if (s.dev.fteS (r.u 0 1)).enable = true then (t.dev.fteS (r.u 0 1)).next = some (fteCfgOf r)
        else (t.dev.fteS (r.u 0 1)).enable = true ∧ (t.dev.fteS (r.u 0 1)).cfg = some (fteCfgOf r)) := by
  have hif : (decide (8192 < (fteCfgOf r).contexts + (s.dev.fteCfg (otherStream (r.u 0 1))).contexts)
      || decide (4096 < (s.dev.csi (r.u 0 1)).width) || decide (3072 < (s.dev.csi (r.u 0 1)).height)
      || decide ((s.dev.csi (r.u 0 1)).width / 2 ^ ((fteCfgOf r).levels - 1) < 4 * (fteCfgOf r).win)
      || decide ((s.dev.csi (r.u 0 1)).height / 2 ^ ((fteCfgOf r).levels - 1) < 4 * (fteCfgOf r).win)
      || !s.dev.descOk (r.u 0 1) (fteCfgOf r)) = false := by
    simp [Nat.not_lt.mpr hctx, Nat.not_lt.mpr hw, Nat.not_lt.mpr hh, Nat.not_lt.mpr hw', Nat.not_lt.mpr hh', hd]
  cases he : (s.dev.fteS (r.u 0 1)).enable with
  | true =>
    refine sets_of_configure (show execFteConfig ch s = _ from rfl) hr
      (by simp only [setFteConfig, devBody, fteConfig, hv, h0, hif, he]; rfl) ?_
    simp [State.answered, State.withDev]
  | false =>
    refine sets_of_configure (show execFteConfig ch s = _ from rfl) hr
      (by simp only [setFteConfig, devBody, fteConfig, hv, h0, hif, he]; rfl) ?_
    simp [State.answered, State.withDev]

theorem fteMask_none (hr : s.mayConfigure ch setFteMask r) (hv : s.dev.visionUp (r.u 0 1 / 2) = true)
    (h1 : r.u 1 1 % 2 = 1) : Sets (.fteMask ch) s ch (fun t => (t.dev.fteS (r.u 0 1)).mask = none) := by
  refine sets_of_configure (show execFteMask ch s = _ from rfl) hr (by simp only [setFteMask, fteMask, hv, h1]; rfl) ?_
  simp [State.answered, State.withDev]

theorem fteMask_some {b : Buffer} {bs : List Byte} (hr : s.mayConfigure ch setFteMask r)
    (hv : s.dev.visionUp (r.u 0 1 / 2) = true) (h0 : r.u 1 1 % 2 = 0) (hb : s.dev.trackBuf (r.u 4 4) = some b)
    (hsz : r.u 8 8 + maskBytes (s.dev.csi (r.u 0 1)).width (s.dev.csi (r.u 0 1)).height ≤ b.size)
    (hrd : s.dev.bufRead s.mem (r.u 4 4) (r.u 8 8)
      (maskBytes (s.dev.csi (r.u 0 1)).width (s.dev.csi (r.u 0 1)).height) = .ok bs) :
      Sets (.fteMask ch) s ch (fun t => (t.dev.fteS (r.u 0 1)).mask = some bs) := by
  refine sets_of_configure (show execFteMask ch s = _ from rfl) hr
    (by simp only [setFteMask, fteMask, hv, h0, hb, hsz, hrd]; rfl) ?_
  simp [State.answered, State.withDev]

theorem fteStatus_reports (hr : s.holds ch 0x0802 r) (hv : s.dev.visionUp (r.u 0 1 / 2) = true) :
    Reports (.fteStatus ch) s ch r (fun p =>
      p.length = 40 + (s.dev.fteS (r.u 0 1)).core.summary.length ∧
      fieldAt p 4 4 = (s.dev.fteS (r.u 0 1)).ops % 2 ^ 32 ∧
      fieldAt p 8 2 = liveCount (s.dev.fteS (r.u 0 1)).core.ctxs % 65536) := by
  refine reports_of_query (show execFteStatus ch s = _ from rfl) hr (by simp only [hv]; rfl) ?_
  simp only [List.append_assoc]
  refine ⟨?_, ?_, ?_⟩
  · simp
    omega
  all_goals simp [fieldAt_skip, fieldAt_head]

theorem fteTrackGet_reports (hr : s.holds ch 0x0803 r) (hv : s.dev.visionUp (r.u 0 4 / 2 ^ 29) = true) :
    Reports (.fteTrackGet ch) s ch r (fun p =>
      match ((s.dev.fteS (2 * (r.u 0 4 / 2 ^ 29))).core.ctxs ++ (s.dev.fteS (2 * (r.u 0 4 / 2 ^ 29) + 1)).core.ctxs).find?
        (fun e => e.2.id == r.u 0 4) with
      | some e => p = leBytes 1 e.2.state ++ leBytes 1 e.2.dormant ++ zeros 2 ++ e.2.rec_
      | none => p = zeros 36) := by
  cases hf : ((s.dev.fteS (2 * (r.u 0 4 / 2 ^ 29))).core.ctxs ++
    (s.dev.fteS (2 * (r.u 0 4 / 2 ^ 29) + 1)).core.ctxs).find? (fun e => e.2.id == r.u 0 4)
  all_goals exact reports_of_query (show execFteTrackGet ch s = _ from rfl) hr (by simp only [hv, hf]; rfl) rfl

theorem fteRun_admits (hr : s.holds ch 0x0804 r) (hroom : s.roomy) (hu : s.dev.profileUses [(0, r.u 0 1)] = false)
    (hup : s.dev.engineUp (r.u 0 1 / 2) 1 = true)
    (hhost : ([r.u 4 4, r.u 16 4, r.u 28 4, r.u 40 4].all fun id => isHostBuf id && (s.dev.buf id).isSome) = true)
    (ha : s.dev.frameInside s.mem (r.u 4 4) (r.u 8 8) = true) (hb : s.dev.frameInside s.mem (r.u 16 4) (r.u 20 8) = true)
    (hout : r.u 32 8 + 64 + 32 * (s.dev.fteCfg (r.u 0 1)).contexts ≤ (s.dev.buf (r.u 28 4)).elim 0 (·.size))
    (hscr : 3 * (s.dev.source s.mem ⟨r.u 4 4, r.u 8 8, none⟩).w * (s.dev.source s.mem ⟨r.u 4 4, r.u 8 8, none⟩).h ≤
        (s.dev.buf (r.u 40 4)).elim 0 (·.size)) :
      Admits (.fteRun ch) s ch (fun j => j.cls = .user ∧ j.work = .fte (r.u 0 1) (r.u 4 4) (r.u 28 4)) := by
  refine admits_of_commandRead hr hroom ?_ (show execFteRun ch s = _ from rfl) ?_ (j := { Job.blank .user
    (.fte (r.u 0 1) (r.u 4 4) (r.u 28 4)) with
        arg := r.body, restartMax := s.dev.jobs.restartFw, waitMs := s.dev.jobs.waitFw
        grants := [⟨r.u 4 4, 0, 0, 0⟩, ⟨r.u 16 4, 0, 0, 0⟩, ⟨r.u 28 4, 1, 0, 0⟩, ⟨r.u 40 4, 1, 0, 0⟩] })
  · exact fun _ _ _ _ => ⟨rfl, rfl⟩
  · dsimp only
    rw [if_neg (by simp [hu]), if_neg (by simp [hup]), if_neg ?_]
    simp only [hhost, ha, hb, Bool.not_true, Bool.false_or, Bool.or_eq_true, decide_eq_true_eq, not_or]
    omega

end

theorem steCommandsConfigure_holds : steCommandsConfigure := fun s ch r =>
  ⟨fun hr hf hv => steConfig_sets hr hf hv, fun hr hv h1 => (steMap_sets hr hv).1 h1,
    fun bs hr hv h0 hb => (steMap_sets hr hv).2 bs h0 hb, fun hr hv h1 => (steMask_sets hr hv).1 h1,
    fun bs hr hv h0 hb => (steMask_sets hr hv).2 bs h0 hb, fun hr hv => steStatus_reports hr hv,
    fun hr hroom hup hhost ha hb hout hscr => steRun_admits hr hroom hup hhost ha hb hout hscr⟩

theorem fteCommandsConfigure_holds : fteCommandsConfigure := fun s ch r =>
  ⟨fun hr hv h0 => fteConfig_off hr hv h0,
    fun hr hv h0 hctx hw hh hw' hh' hd => fteConfig_on hr hv h0 hctx hw hh hw' hh' hd,
    fun hr hv h1 => fteMask_none hr hv h1, fun b bs hr hv h0 hb hsz hrd => fteMask_some hr hv h0 hb hsz hrd,
    fun hr hv => fteStatus_reports hr hv, fun hr hv => fteTrackGet_reports hr hv,
    fun hr hroom hu hup hhost ha hb hout hscr => fteRun_admits hr hroom hu hup hhost ha hb hout hscr⟩

/-- Settles O42. -/
theorem visionCommandsConfigure : Obligations.VisionCommandsConfigure :=
  ⟨steCommandsConfigure_holds, fteCommandsConfigure_holds⟩

end Sys2Proof.Machine
end

section
/-! SUPPORT. The operations of the stereo and of the feature tracking engine (O43). -/

namespace Sys2Proof.Machine

/-! ## Lists of operations -/

/-- What an engine picks is an operation of its pair that its condition admits. -/
theorem Device.mem_of_pickSte {d : Device} {p : Nat} {ok : SteOp → Bool} {o : SteOp} (h : d.pickSte p ok = some o) :
    o ∈ d.vis.ste ∧ o.pair = p ∧ ok o = true := by
  simp only [Device.pickSte] at h
  split at h
  · exact absurd h nofun
  · have hm := List.mem_of_find?_eq_some h
    simp only [Device.steOps, List.mem_filter, beq_iff_eq] at hm
    exact ⟨hm.1.1, hm.1.2, hm.2⟩

/-- An operation that is replaced stands in the list. -/
theorem Device.mem_putSte {d : Device} {o o' : SteOp} (ho : o ∈ d.vis.ste) (hj : o.job = o'.job) (hp : o.pair = o'.pair) :
    o' ∈ (d.putSte o').vis.ste :=
  List.mem_map.mpr ⟨o, ho, by rw [hj, hp]; simp⟩

theorem Device.mem_of_pickFte {d : Device} {k : Nat} {ok : FteOp → Bool} {o : FteOp} (h : d.pickFte k ok = some o) :
    o ∈ d.vis.fte ∧ o.stream = k ∧ ok o = true := by
  simp only [Device.pickFte] at h
  split at h
  · exact absurd h nofun
  · have hm := List.mem_of_find?_eq_some h
    simp only [Device.fteOps, List.mem_filter, beq_iff_eq] at hm
    exact ⟨hm.1.1, hm.1.2, hm.2⟩

theorem Device.mem_putFte {d : Device} {o o' : FteOp} (ho : o ∈ d.vis.fte) (hj : o.job = o'.job)
    (hk : o.stream = o'.stream) : o' ∈ (d.putFte o').vis.fte :=
  List.mem_map.mpr ⟨o, ho, by rw [hj, hk]; simp⟩

@[simp] theorem SteOp.build_job (o : SteOp) (v : Nat) (f : FrameSrc) : (o.build v f).job = o.job := by
  unfold SteOp.build
  split <;> rfl

@[simp] theorem SteOp.build_pair (o : SteOp) (v : Nat) (f : FrameSrc) : (o.build v f).pair = o.pair := by
  unfold SteOp.build
  split <;> rfl

@[simp] theorem SteOp.nextTile_job (o : SteOp) (c : Bool) : (o.nextTile c).job = o.job := by
  simp only [SteOp.nextTile]
  split <;> rfl

@[simp] theorem SteOp.nextTile_pair (o : SteOp) (c : Bool) : (o.nextTile c).pair = o.pair := by
  simp only [SteOp.nextTile]
  split <;> rfl

@[simp] theorem Device.holdSlot_vis (d : Device) (job k slot : Nat) : (d.holdSlot job k slot).vis = d.vis :=
  (show d.agrees [.jobs] (d.holdSlot job k slot) by simp).vis (by decide)

@[simp] theorem Device.diagAdd_vis (d : Device) (die off lo width n : Nat) : (d.diagAdd die off lo width n).vis = d.vis := rfl

/-! ## The stereo engine -/

section
variable {s : State} {die : Fin 8} (hv : s.dev.visionUp die.val = true) (ht : s.dev.engineTested die.val 0 = false)
include hv ht

theorem steBandBuild_builds {view : Fin 2} {o : SteOp} {f : FrameSrc}
    (ho : s.dev.pickSte die.val (fun o => !o.absent &&
      (if view.val = 0 then o.builtL else o.builtR) < o.cfg.bands && (match s.dev.steSource o view.val with
        | some f => s.dev.bandReady o view.val f
        | none => false)) = some o) (hf : s.dev.steSource o view.val = some f)
    (he : (match s.dev.buf f.buf, f.slot with
      | some b, some (st, _) =>
        s.dev.rangeError b (f.off + 4096) ((s.dev.csi st).strideBytes * (s.dev.csi st).height) false
      | some b, none => s.dev.rangeError b f.off (s.dev.source s.mem f).size false
      | none, _ => some (.completion 0)) = none) :
    Completes (.steBandBuild die view) s (fun t => t.mem = s.mem ∧ o.build view.val f ∈ t.dev.vis.ste) := by
  obtain ⟨t, hexec⟩ : ∃ t, execSteBandBuild die view s = .next t := ⟨_, rfl⟩
  have hnext := hexec
  unfold execSteBandBuild at hnext
  rw [onBoth_next] at hnext
  dsimp only at hnext
  rw [if_neg (by simp [hv, ht])] at hnext
  split at hnext
  case h_1 hn => exact absurd (hn.symm.trans ho) nofun
  next q hq =>
  obtain rfl : o = q := Option.some.inj (ho.symm.trans hq)
  rw [hf] at hnext
  dsimp only at hnext
  split at hnext
  case h_1 e hn => exact absurd (hn.symm.trans he) nofun
  cases hnext
  refine ⟨_, hexec, State.withAll_pending _ _ _, rfl, ?_⟩
  dsimp only [State.withAll]
  have hmem : o.build view.val f ∈ (s.dev.putSte (o.build view.val f)).vis.ste :=
    Device.mem_putSte (Device.mem_of_pickSte ho).1 (by simp) (by simp)
  split
  · rwa [Device.holdSlot_vis]
  · exact hmem

theorem steTileBoundary_ends {o : SteOp}
    (ho : (((s.dev.steOps die.val).find? fun o => s.dev.vis.steOn.look die.val == some o.job && s.dev.steMatching o).orElse
      fun _ => s.dev.pickSte die.val s.dev.steMatching) = some o) :
    Completes (.steTileBoundary die) s (fun t => t.mem = s.mem ∧ ∃ clip, o.nextTile clip ∈ t.dev.vis.ste) := by
  have hm : o ∈ s.dev.vis.ste := by
    cases hr : (s.dev.steOps die.val).find? fun o => s.dev.vis.steOn.look die.val == some o.job && s.dev.steMatching o with
    | some q =>
      rw [hr] at ho
      obtain rfl : q = o := by simpa using ho
      exact (List.mem_filter.mp (List.mem_of_find?_eq_some hr)).1
    | none =>
      rw [hr] at ho
      exact (Device.mem_of_pickSte (by simpa using ho)).1
  obtain ⟨t, hexec⟩ : ∃ t, execSteTileBoundary die s = .next t := ⟨_, rfl⟩
  have he := hexec
  unfold execSteTileBoundary at he
  rw [onBoth_next] at he
  dsimp only at he
  rw [if_neg (by simp [hv, ht]), ho] at he
  dsimp only at he
  cases he
  refine ⟨_, hexec, State.withAll_pending _ _ _, rfl, ?_⟩
  dsimp only [State.withAll, Device.setSteOn]
  split
  · exact ⟨_, Device.mem_putSte hm (SteOp.nextTile_job _ _).symm (SteOp.nextTile_pair _ _).symm⟩
  · exact ⟨_, Device.mem_putSte hm (SteOp.nextTile_job _ _).symm (SteOp.nextTile_pair _ _).symm⟩

theorem steBandWrite_writes {slots : List (Nat × Nat × Nat × Nat)} {o : SteOp} {x : BandSlot} (h2 : 2 ≤ slots.length)
    (h16 : slots.length ≤ 16) (ho : s.dev.pickSte die.val (·.bandDue) = some o)
    (hs : (slots.map fun x => (⟨x.1, x.2.1, x.2.2.1, x.2.2.2⟩ : BandSlot)).all (s.dev.slotOk o.job o.cfg) = true)
    (hx : x = (slots.map fun x => (⟨x.1, x.2.1, x.2.2.1, x.2.2.2⟩ : BandSlot)).getD (o.band % slots.length) ⟨0, 0, 0, 0⟩)
    (hf : o.band / slots.length ≤ s.dev.flag x.cluster x.free) : Completes (.steBandWrite die slots) s (fun t =>
      { o with band := o.band + 1, waited := false } ∈ t.dev.vis.ste ∧
      t.dev.flag x.cluster x.full = min 0xFFFF (s.dev.flag x.cluster x.full + 1) ∧
      ∃ bytes, t.mem = s.mem.sramWrite (landAddr x.cluster (x.block * 32768)) bytes) := by
  obtain ⟨t, hexec⟩ : ∃ t, execSteBandWrite die slots s = .next t := ⟨_, rfl⟩
  have he := hexec
  unfold execSteBandWrite at he
  rw [onBoth_next] at he
  dsimp only at he
  rw [if_neg (by simp [hv, ht]; omega), ho] at he
  dsimp only at he
  rw [if_neg (by simp [hs]), ← hx, if_neg (show ¬ (s.dev.cluster x.cluster).flags.getD x.free 0 < o.band / slots.length from Nat.not_lt.mpr hf)]
    at he
  cases he
  refine ⟨_, hexec, State.withAll_pending _ _ _, Device.mem_putSte (Device.mem_of_pickSte ho).1 rfl rfl, ?_, _, rfl⟩
  dsimp only [State.withAll]
  simp only [Device.flag, Device.putSte, Device.cluster, Device.updCluster, Tbl.getD_upd_same, Tbl.getD_put_same]

end

/-- The counters of an operation that ends leave the operations and what each engine is on. -/
theorem Device.steCount_ops (d : Device) (o : SteOp) (x : SteOut) :
    (d.steCount o x).vis.ste = d.vis.ste ∧ (d.steCount o x).vis.steOn = d.vis.steOn := by
  unfold Device.steCount
  extract_lets p busy e f
  have hf : f.vis = d.vis := by
    simp only [f]
    split <;> rfl
  exact ⟨congrArg (·.ste) hf, congrArg (·.steOn) hf⟩

theorem steOpDone_ends {s : State} {die : Fin 8} (hv : s.dev.visionUp die.val = true)
    (ht : s.dev.engineTested die.val 0 = false) {o : SteOp} {a b z : Device × Store} :
    let x := s.dev.steOutput s.mem o
    let y := s.dev.stePair die.val
    let buf := if o.tick = true then y.ring.getD (s.dev.freeSlotOf y.ring y.at_) 0 else o.outBuf
    let off := if o.tick = true then 0 else o.outOff
    let d := if o.tick = true then s.dev.takeSlot buf else s.dev
    s.dev.pickSte die.val (·.finished) = some o → d.bufStore s.mem buf (off + 4096) x.disp = .ok a →
    a.1.bufStore a.2 buf (off + 4096 + x.disp.length) x.qual = .ok b → b.1.bufStore b.2 buf off x.record = .ok z →
    Completes (.steOpDone die) s (fun t => t.mem = z.2 ∧
      (∀ q ∈ t.dev.vis.ste, ¬ (q.job = o.job ∧ q.pair = die.val)) ∧ t.dev.vis.steOn.look die.val = none) := by
  intro x y buf off d ho ha hb hz
  obtain ⟨t, hexec⟩ : ∃ t, execSteOpDone die s = .next t := ⟨_, rfl⟩
  have he := hexec
  unfold execSteOpDone at he
  rw [onBoth_next] at he
  dsimp only at he
  have hbuf : (if o.tick = true then (y.ring.getD (s.dev.freeSlotOf y.ring y.at_) 0, 0) else (o.outBuf, o.outOff)) = (buf, off) := by
    simp only [buf, off]
    split <;> rfl
  have hd : (if o.tick = true then s.dev.takeSlot buf else s.dev) = d := rfl
  have hx : s.dev.steOutput s.mem o = x := rfl
  have hy : s.dev.stePair die.val = y := rfl
  rw [if_neg (by simp [hv, ht]), ho] at he
  dsimp only at he
  rw [hx, hy, hbuf] at he
  dsimp only at he
  rw [hd, ha] at he
  simp only [Except.map, hb, hz] at he
  cases he
  refine ⟨_, hexec, State.withAll_pending _ _ _, rfl, ?_⟩
  dsimp only [State.withAll]
  obtain ⟨hste, hon⟩ := Device.steCount_ops { z.1 with vis := { z.1.vis with
    ste := z.1.vis.ste.filter fun q => !(q.job == o.job && q.pair == die.val), steOn := z.1.vis.steOn.del die.val } } o x
  generalize hw : Device.steCount _ o x = w at hste hon ⊢
  generalize hu : (if o.tick = true then w.updSte die.val _ else w) = u
  have hops : u.vis.ste = w.vis.ste ∧ u.vis.steOn = w.vis.steOn := by
    rw [← hu]
    split <;> exact ⟨rfl, rfl⟩
  have hends : (∀ q ∈ u.vis.ste, ¬ (q.job = o.job ∧ q.pair = die.val)) ∧ u.vis.steOn.look die.val = none := by
    rw [hops.1, hops.2, hste, hon]
    refine ⟨fun q hq h => ?_, Tbl.look_del_same _ _⟩
    have := (List.mem_filter.mp hq).2
    simp [h.1, h.2] at this
  split
  · split
    · exact hends
    · exact hends
  · exact hends

/-! ## The tracking engine -/

section
variable {s : State} {die : Fin 8} (hv : s.dev.visionUp die.val = true) (ht : s.dev.engineTested die.val 1 = false)
include hv ht

theorem fteBandBuild_builds {view : Fin 2} {o : FteOp} {f : FrameSrc}
    (ho : s.dev.pickFte (2 * die.val + view.val) (s.dev.fteBandReady s.mem) = some o) (hf : s.dev.fteSource o = some f)
    (he : (match s.dev.buf f.buf, f.slot with
      | some b, some (st, _) =>
        s.dev.rangeError b (f.off + 4096) ((s.dev.csi st).strideBytes * (s.dev.csi st).height) false
      | some b, none => s.dev.rangeError b f.off (s.dev.source s.mem f).size false
      | none, _ => some (.completion 0)) = none) :
    Completes (.fteBandBuild die view) s (fun t => t.mem = s.mem ∧
      { o with src := some f, built := o.built + 1 } ∈ t.dev.vis.fte ∧ t.dev.vis.fteOn.look die.val = some o.job) := by
  obtain ⟨t, hexec⟩ : ∃ t, execFteBandBuild die view s = .next t := ⟨_, rfl⟩
  have hnext := hexec
  unfold execFteBandBuild at hnext
  rw [onBoth_next] at hnext
  dsimp only at hnext
  rw [if_neg (by simp [hv, ht]), ho] at hnext
  dsimp only at hnext
  rw [hf] at hnext
  dsimp only at hnext
  split at hnext
  case h_1 e hn => exact absurd (hn.symm.trans he) nofun
  cases hnext
  refine ⟨_, hexec, State.withAll_pending _ _ _, rfl, ?_⟩
  dsimp only [State.withAll]
  have hmem : { o with src := some f, built := o.built + 1 } ∈
      (s.dev.putFte { o with src := some f, built := o.built + 1 }).vis.fte :=
    Device.mem_putFte (Device.mem_of_pickFte ho).1 rfl rfl
  split
  · rw [Device.holdSlot_vis]
    exact ⟨hmem, Tbl.look_put_same _ _ _⟩
  · exact ⟨hmem, Tbl.look_put_same _ _ _⟩

end

/-- The counters of an operation leave the operations and what each engine is on. -/
theorem Device.fteCount_ops (d : Device) (k : Nat) (x : FteOut) (frozen : Bool) :
    (d.fteCount k x frozen).vis.fte = d.vis.fte ∧ (d.fteCount k x frozen).vis.fteOn = d.vis.fteOn := by
  unfold Device.fteCount
  extract_lets die busy e f g i
  split <;> exact ⟨rfl, rfl⟩

/-- The list goes to its slot, and the engines are as they were. -/
theorem fteList_vis {o : FteOp} {cluster block flag : Nat} {list : List Byte} {d : Device} {m : Store} {x : Device × Store}
    (h : fteList o cluster block flag list d m = some x) : x.1.vis = d.vis := by
  simp only [fteList] at h
  split at h
  · cases h
    rfl
  · exact absurd h nofun

/-- Whether the list has its slot does not depend on what it says. -/
theorem fteList_isSome (o : FteOp) (cluster block flag : Nat) (l l' : List Byte) {d d' : Device} (m m' : Store)
    (hd : d'.clusters = d.clusters) (h : (fteList o cluster block flag l d m).isSome = true) :
    (fteList o cluster block flag l' d' m').isSome = true := by
  simp only [fteList, Device.cluster, hd, Option.isSome_ite] at h ⊢
  exact Option.isSome_ite.mp h

/-- The operation of a tick ends with its results pending. -/
theorem fteTickOp_ends {o : FteOp} (f : FrameSrc) (h : List Nat) (entries : List (List Byte)) {cluster block flag : Nat}
    {d : Device} {m : Store} (ho : o ∈ d.vis.fte) (hl : (fteList o cluster block flag [] d m).isSome = true) :
    (fteTickOp o f h entries cluster block flag d m).1.vis.fteOn = d.vis.fteOn ∧
      ∃ q ∈ (fteTickOp o f h entries cluster block flag d m).1.vis.fte, q.job = o.job ∧ q.stream = o.stream ∧
        q.done = true ∧ q.pending.isSome = true := by
  unfold fteTickOp
  extract_lets st facts i frozen x
  obtain ⟨⟨d', m'⟩, hx⟩ := Option.isSome_iff_exists.mp (fteList_isSome o cluster block flag [] x.list m m rfl hl)
  rw [hx]
  have hw := (show d'.agrees [.memsys] (descWrites o.cfg x.work d' m').1 by simp).vis (by decide)
  obtain ⟨hops, hon⟩ := Device.fteCount_ops (descWrites o.cfg x.work d' m').1 o.stream x frozen
  rw [hw, fteList_vis hx] at hops hon
  exact ⟨hon, _, Device.mem_putFte (o := o) (hops ▸ ho) rfl rfl, rfl, rfl, rfl, rfl⟩

theorem fteTrackOp_ends {s : State} {die : Fin 8} {view : Fin 2} {h : List Nat}
    {fbBuf fbOff fbCount cluster block flag : Nat} {o : FteOp} {f : FrameSrc} (hv : s.dev.visionUp die.val = true)
    (ht : s.dev.engineTested die.val 1 = false)
    (ho : s.dev.pickFte (2 * die.val + view.val) (fun o => !o.done && o.built == s.dev.fteBands s.mem o &&
      (match o.src.bind (·.slot) with
        | some (s', k) => (match (s.dev.stream s').frames.look k with | some f => f.closed | none => false)
        | none => true)) = some o) (hfresh : o.fresh = false) (hsrc : o.src = some f)
    (hl : (fteList o cluster block flag [] s.dev s.mem).isSome = true) :
    Completes (.fteTrackOp die view h fbBuf fbOff fbCount cluster block flag) s (fun t =>
      t.dev.vis.fteOn.look die.val = none ∧ ∃ q ∈ t.dev.vis.fte, q.job = o.job ∧ q.stream = o.stream ∧
        q.done = true ∧ q.pending.isSome = true) := by
  obtain ⟨t, hexec⟩ : ∃ t, execFteTrackOp die view h fbBuf fbOff fbCount cluster block flag s = .next t := ⟨_, rfl⟩
  have hnext := hexec
  unfold execFteTrackOp at hnext
  rw [onBoth_next] at hnext
  dsimp only at hnext
  rw [if_neg (by simp [hv, ht])] at hnext
  split at hnext
  case h_1 hn => exact absurd (hn.symm.trans ho) nofun
  next q hq =>
  obtain rfl : o = q := Option.some.inj (ho.symm.trans hq)
  rw [hfresh, hsrc] at hnext
  dsimp only at hnext
  cases hnext
  refine ⟨_, hexec, State.withAll_pending _ _ _, ?_⟩
  dsimp only [State.withAll]
  obtain ⟨hon, hq⟩ := fteTickOp_ends (d := { s.dev with vis := { s.dev.vis with fteOn := s.dev.vis.fteOn.del die.val } })
    (m := s.mem) f h (Device.feedbackList { s.dev with vis := { s.dev.vis with fteOn := s.dev.vis.fteOn.del die.val } } s.mem
      fbBuf fbOff fbCount) (Device.mem_of_pickFte ho).1 (fteList_isSome (d := s.dev) o cluster block flag [] [] s.mem s.mem rfl hl)
  exact ⟨(congrArg (·.look die.val) hon).trans (Tbl.look_del_same _ _), hq⟩

/-- A change of a stream's newest state is what its newest state becomes. -/
theorem Device.newestCore_updCore (d : Device) (k : Nat) (f : FteCore → FteCore) :
    (d.updCore k f).newestCore k = f (d.newestCore k) := by
  unfold Device.updCore
  split
  next hany =>
    obtain ⟨o, ho⟩ := Option.isSome_iff_exists.mp (List.find?_isSome.mpr (List.any_eq_true.mp hany))
    have hok := List.find?_some ho
    simp only [Bool.and_eq_true, beq_iff_eq] at hok
    obtain ⟨p, hp⟩ := Option.isSome_iff_exists.mp hok.2
    have hsame : ((fun o : FteOp => o.stream == k && o.pending.isSome) ∘ fun o : FteOp =>
        if o.stream = k then { o with pending := o.pending.map fun p => (f p.1, p.2) } else o) =
        fun o : FteOp => o.stream == k && o.pending.isSome := by
      funext q
      dsimp only [Function.comp]
      split
      · rw [Option.isSome_map]
      · rfl
    simp only [Device.newestCore, List.find?_map, hsame, ho, Option.map_some, Option.bind_some, hok.1, if_true, hp, Option.elim]
  next hany =>
    have hn : (d.vis.fte.find? fun o => o.stream == k && o.pending.isSome) = none := by
      simpa using hany
    have hn' : ((d.updFte k fun x => { x with core := f x.core }).vis.fte.find? fun o => o.stream == k && o.pending.isSome) =
      none := hn
    simp only [Device.newestCore, hn', hn, Option.bind_none, Option.elim, Device.fteS_updFte]

theorem fteDormantExpire_frees {s : State} {k : Fin 16} {slot : Nat} {c : FteCtx}
    (hc : (s.dev.newestCore k.val).ctxs.look slot = some c) (h3 : c.state = 3)
    (ha : (s.dev.fteCfg k.val).reidAge ≤ c.dormant) : Completes (.fteDormantExpire k slot) s (fun t => t.mem = s.mem ∧
      (t.dev.newestCore k.val).ctxs.look slot = none) := by
  refine ⟨_, (show exec (.fteDormantExpire k slot) s = execFteDormantExpire k slot s from rfl).trans (onDev_next _ s), rfl, rfl, ?_⟩
  dsimp only [State.withDev]
  rw [hc]
  dsimp only
  rw [if_pos (by simp [h3, ha]), Device.newestCore_updCore]
  exact Tbl.look_del_same _ _

theorem fteFreezeExpire_frees {s : State} {k : Fin 16}
    (hf : (s.dev.fteCfg k.val).freezeMax < (s.dev.newestCore k.val).frozen) :
    Completes (.fteFreezeExpire k) s (fun t => t.mem = s.mem ∧ (t.dev.newestCore k.val).ctxs = [] ∧
      (t.dev.newestCore k.val).owed = (s.dev.newestCore k.val).owed ++
        streamLost k.val (s.dev.newestCore k.val).ctxs) := by
  refine ⟨_, (show exec (.fteFreezeExpire k) s = execFteFreezeExpire k s from rfl).trans (onDev_next _ s), rfl, rfl, ?_⟩
  dsimp only [State.withDev]
  rw [if_pos hf, Device.newestCore_updCore]
  exact ⟨rfl, rfl⟩

/-! ## The obligation -/

theorem steOperationsProceed_holds : steOperationsProceed := by
  intro s die hv ht
  exact ⟨fun _ _ _ ho hf he => steBandBuild_builds hv ht ho hf he, fun _ ho => steTileBoundary_ends hv ht ho,
    fun _ _ _ h2 h16 ho hs hx hf => steBandWrite_writes hv ht h2 h16 ho hs hx hf, fun _ _ _ _ => steOpDone_ends hv ht⟩

theorem fteOperationsProceed_holds : fteOperationsProceed := by
  intro s
  exact ⟨fun _ _ _ _ hv ht ho hf he => fteBandBuild_builds hv ht ho hf he,
    fun _ _ _ _ _ _ _ _ _ _ _ hv ht ho hfresh hsrc hl => fteTrackOp_ends hv ht ho hfresh hsrc hl,
    fun _ _ _ hc h3 ha => fteDormantExpire_frees hc h3 ha, fun _ hf => fteFreezeExpire_frees hf⟩

/-- Settles O43: what an engine picks stands in its list, so what replaces it does too. -/
theorem visionOperationsProceed : Obligations.VisionOperationsProceed :=
  ⟨steOperationsProceed_holds, fteOperationsProceed_holds⟩

end Sys2Proof.Machine
end

section
/-! SUPPORT. The fusion commands (O44). -/

namespace Sys2Proof.Machine

@[simp] theorem Device.answer_cal (d : Device) (ch : Nat) (r : Request) (a : Reply) (k : Nat) :
    (d.answer ch r a).cal k = d.cal k := by simp [Device.cal]

@[simp] theorem Device.cal_updCal (d : Device) (k : Nat) (f : Calib → Calib) : (d.updCal k f).cal k = f (d.cal k) :=
  Tbl.getD_upd_same _ _ _ _

@[simp] theorem Device.cal_updSrc (d : Device) (i k : Nat) (f : CheckSource → CheckSource) : (d.updSrc i f).cal k = d.cal k :=
  rfl

section
variable {s : State} {ch : Fin 8} {r : Request}

theorem gridConfig_sets (hr : s.mayConfigure ch setGridConfig r) (hw : (gridCfgOf r).gridW % 64 = 0)
    (hm : (gridCfgOf r).margin ≤ (gridCfgOf r).gridW / 4) (hz : (gridCfgOf r).zMin < (gridCfgOf r).zMax)
    (hc : channelTotal s.dev.grid.slots (gridCfgOf r) ≤ 512) :
    Sets (.gridConfig ch) s ch (fun t => t.dev.grid = { s.dev.grid with cfg := gridCfgOf r, forced := true }) := by
  refine sets_of_configure (show execGridConfig ch s = _ from rfl) hr
    (d := { s.dev with grid := { s.dev.grid with cfg := gridCfgOf r, forced := true } }) ?_ (by simp [State.answered, State.withDev])
  simp only [setGridConfig, devBody, gridConfig]
  rw [if_neg (by simp [hw, hm, hz, hc])]
  rfl

theorem gridSource_sets {g : GridSlot}
    (hg : g = ⟨r.u 1 1, r.u 2 1, r.u 3 1 == 1, r.u 4 2, r.u 6 1, r.u 7 1, r.u 8 2, r.u 10 2⟩)
    (hr : s.mayConfigure ch setGridSource r) (hk : (g.kind == 2) = decide (16 ≤ g.stream))
    (hb : if g.kind = 2 then 1 ≤ g.bins ∧ g.bins ≤ 32 else 8 ≤ g.bins ∧ g.bins ≤ 128)
    (hc : channelTotal (s.dev.grid.slots.put (r.u 0 1) g) s.dev.grid.cfg ≤ 512) (hu : s.dev.streamUp g.stream = true) :
    Sets (.gridSource ch) s ch (fun t => t.dev.grid = { s.dev.grid with slots := s.dev.grid.slots.put (r.u 0 1) g }) := by
  refine sets_of_configure (show execGridSource ch s = _ from rfl) hr
    (d := { s.dev with grid := { s.dev.grid with slots := s.dev.grid.slots.put (r.u 0 1) g } }) ?_
    (by simp [State.answered, State.withDev])
  subst hg
  dsimp only at hk hb hu
  simp only [setGridSource, devBody, gridSource]
  rw [if_neg, if_neg (by simp [hu])]
  · rfl
  · by_cases h2 : r.u 2 1 = 2
    · rw [if_pos h2] at hb
      rw [h2] at hc
      simp only [h2, beq_self_eq_true, Eq.comm (a := true), decide_eq_true_eq] at hk
      simp [h2, hk, hb, hc]
    · rw [if_neg h2] at hb
      simp only [beq_eq_false_iff_ne.mpr h2, Eq.comm (a := false), decide_eq_false_iff_not] at hk
      simp [h2, hk, hb, hc]

theorem calSet_sets (hr : s.mayConfigure ch setCalSet r)
    (hk : if r.u 0 1 < 16 then r.u 1 1 < 2 else r.u 1 1 = 2 ∧ r.u 40 36 = 0) (hu : s.dev.streamUp (r.u 0 1) = true) :
    Sets (.calSet ch) s ch (fun t =>
      (t.dev.cal (r.u 0 1)).base = recSet (r.bytes 0 112) 2 (leBytes 1 (r.u 2 1 % 2)) ∧
      (t.dev.cal (r.u 0 1)).current = (t.dev.cal (r.u 0 1)).base) := by
  refine sets_of_configure (show execCalSet ch s = _ from rfl) hr (d := (s.dev.updCal (r.u 0 1) fun c => { c with
    base := recSet (r.bytes 0 112) 2 (leBytes 1 (r.u 2 1 % 2))
    current := recSet (r.bytes 0 112) 2 (leBytes 1 (r.u 2 1 % 2)) }).scoreFresh (r.u 0 1)) ?_
    (by simp [State.answered, State.withDev, Device.scoreFresh])
  simp only [setCalSet, devBody, calSet]
  rw [if_neg, if_neg (by simp [hu])]
  · rfl
  · by_cases h16 : r.u 0 1 < 16
    · rw [if_pos h16] at hk
      simp [h16, Nat.not_le.mpr h16, hk]
    · rw [if_neg h16] at hk
      simp [h16, hk]

theorem calGet_reports (hr : s.holds ch 0x0903 r) : Reports (.calGet ch) s ch r (fun p =>
    p = (s.dev.cal (r.u 0 1)).base ++ (s.dev.cal (r.u 0 1)).current ++ leBytes 4 (s.dev.cal (r.u 0 1)).refines ++
      leBytes 16 (s.dev.cal (r.u 0 1)).lastDts.toNat) :=
  reports_of_query (show execCalGet ch s = _ from rfl) hr rfl rfl

theorem calRefine_sets (hr : s.mayConfigure ch setCalRefine r) : Sets (.calRefine ch) s ch (fun t =>
    (t.dev.cal (r.u 0 1)).period = r.u 2 2 ∧ (t.dev.cal (r.u 0 1)).stepRot = r.u 4 2 ∧
    (t.dev.cal (r.u 0 1)).stepTrans = r.u 6 2 ∧ (t.dev.cal (r.u 0 1)).maxRot = r.u 8 2 ∧
    (t.dev.cal (r.u 0 1)).maxTrans = r.u 10 2 ∧ (t.dev.cal (r.u 0 1)).base = (s.dev.cal (r.u 0 1)).base) :=
  sets_of_configure (show execCalRefine ch s = _ from rfl) hr rfl
    (by simp only [State.answered, State.withDev, Device.answer_cal, calRefineSet, Device.cal_updCal, and_self])

theorem checkConfig_sets (hr : s.mayConfigure ch setCheckConfig r) (hle : r.u 2 2 ≤ r.u 0 2)
    (hw : r.u 7 1 = 0 ∨ r.u 7 1 = s.dev.loc.wheel.source) :
    Sets (.checkConfig ch) s ch (fun t => t.dev.grid = { s.dev.grid with
      check := ⟨r.u 0 2, r.u 2 2, r.u 4 1, r.u 5 1, r.u 6 1, r.u 7 1, r.u 8 1, r.u 9 1, r.u 10 1, r.u 11 1⟩ }) := by
  refine sets_of_configure (show execCheckConfig ch s = _ from rfl) hr (d := { s.dev with grid := { s.dev.grid with
      check := ⟨r.u 0 2, r.u 2 2, r.u 4 1, r.u 5 1, r.u 6 1, r.u 7 1, r.u 8 1, r.u 9 1, r.u 10 1, r.u 11 1⟩ } }) ?_
    (by simp [State.answered, State.withDev])
  simp only [setCheckConfig, devBody, checkConfig]
  rw [if_neg (by rcases hw with hw | hw <;> simp [hle, hw])]
  rfl

theorem fusionStatus_reports (hr : s.holds ch 0x0906 r) : Reports (.fusionStatus ch) s ch r (fun p =>
    p.length = 36 + 8 * s.dev.grid.check.all.length ∧ fieldAt p 0 1 = s.dev.grid.frame % 256 ∧
    fieldAt p 4 4 = s.dev.grid.tickSeq % 2 ^ 32 ∧ fieldAt p 32 4 = s.dev.grid.check.all.length % 2 ^ 32) := by
  refine reports_of_query (show execFusionStatus ch s = _ from rfl) hr rfl ?_
  simp only [List.append_assoc]
  refine ⟨?_, ?_, ?_, ?_⟩
  · simp [List.map_const', List.sum_replicate_nat]
    omega
  all_goals simp [fieldAt_skip, fieldAt_head]

end

/-- Settles O44. -/
theorem fusionCommandsConfigure : Obligations.FusionCommandsConfigure := by
  intro s ch r
  exact ⟨gridConfig_sets, fun g hg => gridSource_sets hg, calSet_sets, calGet_reports, calRefine_sets, checkConfig_sets,
    fusionStatus_reports⟩

end Sys2Proof.Machine
end

section
/-! SUPPORT. Fusion in a tick (O45). -/

namespace Sys2Proof.Machine

/-! ## Checks -/

@[simp] theorem Device.checksBegin_checkTick (d : Device) (tick : Nat) :
    (d.checksBegin tick).grid.checkTick = some tick := by
  unfold Device.checksBegin
  split
  · assumption
  · rfl

/-- The tick whose checks are decided, and the checks decided in it, are the same. -/
def Grid.SameChecks (g h : Grid) : Prop := h.checkTick = g.checkTick ∧ h.decided = g.decided

theorem Grid.SameChecks.trans {g h k : Grid} (hgh : g.SameChecks h) (hhk : h.SameChecks k) : g.SameChecks k :=
  ⟨hhk.1.trans hgh.1, hhk.2.trans hgh.2⟩

theorem Grid.SameChecks.tick {g h : Grid} {x : Option Nat} (hgh : g.SameChecks h) (hx : g.checkTick = x) :
    h.checkTick = x := hgh.1.trans hx

/-- What a source is told in a check leaves the checks decided as they are. -/
theorem Device.sameChecks_sourceEvents (d : Device) (check k i : Nat) (old : CheckSource) (f : CheckSource → CheckSource) :
    d.grid.SameChecks ((d.updSrc i f).sourceEvents check k old).grid := by
  rw [(show (d.updSrc i f).agrees [.evt] ((d.updSrc i f).sourceEvents check k old) by simp).grid (by decide)]
  exact ⟨rfl, rfl⟩

theorem Device.sameChecks_foldl {α : Type} (f : Device → α → Device) (hf : ∀ (d : Device) a, d.grid.SameChecks (f d a).grid)
    (l : List α) (d : Device) : d.grid.SameChecks (l.foldl f d).grid := by
  induction l generalizing d with
  | nil => exact ⟨rfl, rfl⟩
  | cons a l ih => exact (hf d a).trans (ih _)

theorem Device.sameChecks_contradict (d : Device) (check : Nat) (held : List Nat) :
    d.grid.SameChecks (d.contradict check held).grid := by
  simp only [Device.contradict]
  split
  · simp [Grid.SameChecks]
  · simp [Grid.SameChecks]
  · exact ⟨rfl, rfl⟩

@[simp] theorem Device.diagAdd_grid (d : Device) (die off lo width n : Nat) : (d.diagAdd die off lo width n).grid = d.grid := rfl

theorem checkDecision_decides {s : State} {check : Fin 2} {es : List Estimate} {id : Nat} {j : Job}
    (hrun : s.dev.runningTick = some (id, j)) : Completes (.checkDecision check es) s (fun t =>
      t.mem = s.mem ∧ t.dev.grid.checkTick = some j.order ∧ check.val ∈ t.dev.grid.decided) := by
  refine ⟨_, (show exec (.checkDecision check es) s = execCheckDecision check es s from rfl).trans (onDev_next _ s), rfl, rfl, ?_⟩
  dsimp only [State.withDev]
  rw [hrun]
  dsimp only
  by_cases hdone : (s.dev.checksBegin j.order).grid.decided.elem check.val = true
  · rw [if_pos hdone]
    exact ⟨Device.checksBegin_checkTick _ _, List.mem_of_elem_eq_true hdone⟩
  · rw [if_neg hdone]
    generalize List.filterMap _ (List.filter _ _) = est
    generalize judge _ _ _ _ _ _ = v
    generalize Device.tickContradiction _ _ = first
    refine ⟨?_, List.mem_cons_self⟩
    dsimp only [Device.tickFree]
    refine Grid.SameChecks.tick (g := (s.dev.checksBegin j.order).grid) ?_ (Device.checksBegin_checkTick _ _)
    have hgrid : ∀ (d : Device) (p : Prop) [Decidable p] (die off lo width n : Nat),
        (if p then d else d.diagAdd die off lo width n).grid = d.grid := by
      intros
      split <;> rfl
    rw [hgrid, Device.diagAdd_grid]
    exact Grid.SameChecks.trans (Device.sameChecks_foldl _ (fun d k => Device.sameChecks_sourceEvents d _ _ _ _ _) _ _)
      (Device.sameChecks_contradict _ _ _)

theorem checkSourceClean_clears {s : State} {k : Nat} (hs : (s.dev.checkSrc k).suspect = true)
    (hc : s.dev.grid.check.clear ≤ (s.dev.checkSrc k).run) (hk : s.dev.grid.check.all.elem k = true) :
    Completes (.checkSourceClean k) s (fun t => t.mem = s.mem ∧
      (t.dev.checkSrc k).suspect = false ∧ t.dev.evt.cause.getLsbD 6 = true) := by
  refine ⟨_, (show exec (.checkSourceClean k) s = execCheckSourceClean k s from rfl).trans (onDev_next _ s), rfl, rfl, ?_⟩
  dsimp only [State.withDev]
  rw [if_pos (by rw [hs, hk]; simp [hc])]
  refine ⟨?_, Device.event_cause _ (by decide) _ _ _ _⟩
  rw [Device.checkSrc, Device.event_grid]
  simp only [Device.updSrc, Tbl.getD_upd_same]

theorem haloCopy_sends {s : State} {die : Fin 8} {width hmax c0 c1 : Nat} {below above : Nat × Nat} {x : Nat × Job}
    (hrun : s.dev.runningTick = some x) (ho : s.dev.grid.owners.getLsbD die.val = true) (hw : 0 < width)
    (hwh : width ≤ hmax) (hh : hmax ≤ 32) (hst : width ≤ s.dev.grid.cfg.strip) (hc : c0 < c1)
    (hcs : c1 ≤ s.dev.grid.cstride) (ht : (s.dev.grid.tensors.look die.val).isSome = true) :
    Completes (.haloCopy die width hmax c0 c1 below above false) s (fun t =>
      t.dev.grid.haloRem.look die.val = some ((s.dev.grid.haloRem.getD die.val 0 +
        (b2n (decide (0 < die.val) && s.dev.grid.owners.getLsbD (die.val - 1)) +
          b2n (decide (die.val < 7) && s.dev.grid.owners.getLsbD (die.val + 1))) *
        width * s.dev.grid.cfg.gridW * (c1 - c0) * 2) % 65536)) := by
  obtain ⟨t, hexec⟩ : ∃ t, execHaloCopy die width hmax c0 c1 below above false s = .next t := ⟨_, rfl⟩
  have hnext := hexec
  unfold execHaloCopy at hnext
  rw [onBoth_next] at hnext
  dsimp only at hnext
  rw [hrun] at hnext
  dsimp only at hnext
  rw [if_neg, if_neg nofun] at hnext
  · cases hnext
    exact ⟨_, hexec, State.withAll_pending _ _ _, Tbl.look_put_same _ _ _⟩
  · have hn : (s.dev.grid.tensors.look die.val).isNone = false := Option.isNone_eq_false_iff.mpr ht
    simp [ho, hn, hwh, hh, hst, hcs, hc, Nat.ne_of_gt hw]

/-! ## Refinement -/

theorem calRefineTick_admits {s : State} {k : Fin 24} (hon : recU (s.dev.cal k.val).current 2 1 % 2 = 1)
    (hbusy : s.dev.jobs.table.any (fun e => decide (e.2.work = .calRefine k.val) && e.2.active) = false)
    (hfr : s.dev.calFrozen k.val = false) (hroom : s.dev.jobs.activeCount < 64) :
    Completes (.calRefineTick k) s (fun t =>
      t.mem = s.mem ∧ (s.dev.cal k.val).lastAt + (s.dev.cal k.val).period * oneS ≤ t.dev.time.now ∧
      (t.dev.cal k.val).lastAt = t.dev.time.now ∧
      ∃ id j, t.dev.job id = some j ∧ j.work = .calRefine k.val ∧ j.cls = .map ∧ j.state = .waiting) := by
  obtain ⟨due, hdue⟩ : ∃ n, n = (s.dev.cal k.val).lastAt + (s.dev.cal k.val).period * oneS := ⟨_, rfl⟩
  obtain ⟨adv, hadv⟩ : ∃ f, f = Device.advanceTo := ⟨_, rfl⟩
  obtain ⟨e, he⟩ : ∃ e, e = adv s.dev due := ⟨_, rfl⟩
  have hag : s.dev.agrees [.diag, .time] e := by
    rw [he, hadv]
    exact Device.agrees_clock _ _
  have hreach : due ≤ e.time.now := by
    rw [he, hadv]
    exact Device.le_now_advanceTo _ _
  have hfr' : e.calFrozen k.val = false := by
    rw [← hfr]
    unfold Device.calFrozen Device.cal Device.checkSrc
    rw [hag.grid (by decide), hag.slv (by decide), hag.loc (by decide)]
  obtain ⟨id, f, j, hadm, -, hjob, hj⟩ := Device.admitJob_room (d := e) ((hag.jobs (by decide)) ▸ hroom)
    { Job.blank .map (.calRefine k.val) with restartMax := e.jobs.restartFw, waitMs := e.jobs.waitFw }
  have htime : f.time = e.time := ((Device.agrees_of_admitJob hadm e (by simp)).mpr (Device.agrees_refl [.jobs] _)).time (by decide)
  refine ⟨s.withDev (f.updCal k.val fun c => { c with
    lastAt := f.time.now, speed0 := f.slv.pp.speedSum, count0 := f.slv.pp.speedCount }), ?_, rfl, rfl,
    hdue ▸ Nat.le_trans hreach (Nat.le_of_eq (congrArg (·.now) htime.symm)), congrArg (·.lastAt) (Device.cal_updCal _ _ _), id, j, hjob, hj ▸ rfl,
    hj ▸ rfl, hj ▸ rfl⟩
  change execCalRefineTick k s = _
  unfold execCalRefineTick
  rw [onDev_next, ← hadv]
  dsimp only
  rw [if_neg (by simp [hon, hbusy]), ← hdue, ← he, hfr', if_neg nofun, hadm]

/-- Settles O45. -/
theorem fusionEventsFollow : Obligations.FusionEventsFollow := by
  intro s
  exact ⟨fun _ _ _ _ hrun => checkDecision_decides hrun, fun _ hs hc hk => checkSourceClean_clears hs hc hk,
    fun _ _ _ _ _ _ _ _ hrun ho hw hwh hh hst hc hcs ht => haloCopy_sends hrun ho hw hwh hh hst hc hcs ht,
    fun _ hon hbusy hfr hroom => calRefineTick_admits hon hbusy hfr hroom⟩

end Sys2Proof.Machine
end

section
/-! SUPPORT. The solver's commands (O46). -/

namespace Sys2Proof.Machine

/-- A long command that reads the memories and gets as far as `accept` is accepted. -/
theorem accepts_of_commandRead {c : Instr} {op : Nat} {ch : Fin 8} {s : State} {r : Request}
    {f : Request → Device → Store → Device × Reply} {k : Nat → Device → Device} {P : Nat → State → Prop}
    (hexec : exec c s = commandRead op ch f s) (hr : s.holds ch op r) (hroom : s.dev.mbx.handles.length < 256)
    (hb : f r s.dev s.mem = accept r ch.val s.dev k)
    (hP : ∀ h, h = s.dev.mbx.nextHandle →
      P h (s.answered ch r (k h { s.dev with mbx := s.dev.mbx.taking ch.val op }) (acceptedWith h))) :
    Accepts c s ch P := by
  obtain rfl := State.op_of_holds hr
  refine ⟨_, _, hexec.trans (commandRead_next _ ch f s r hr), ?_, rfl, ?_⟩
  · rw [hb, accept_room hroom]
    exact Device.answer_formed _ _ _ _
  · rw [hb, accept_room hroom]
    exact hP _ rfl

/-- A command that reads the memories and answers OK sets. -/
theorem sets_of_commandRead {c : Instr} {op : Nat} {ch : Fin 8} {s : State} {r : Request}
    {f : Request → Device → Store → Device × Reply} {d : Device} {P : State → Prop}
    (hexec : exec c s = commandRead op ch f s) (hr : s.holds ch op r) (hb : f r s.dev s.mem = (d, okWith []))
    (hP : P (s.answered ch r d (okWith []))) : Sets c s ch P := by
  refine ⟨s.answered ch r d (okWith []), ?_, Device.answer_formed _ _ _ _, rfl, rfl, hP⟩
  rw [hexec, commandRead_next op ch f s r hr, hb]

/-- A handle just taken ends with the status its work gives it, whatever the work did apart from the handles. -/
theorem ended_answer_finish {d e : Device} {ch op : Nat} {r : Request} {a : Reply} (he : e.mbx = d.mbx.taking ch op)
    (st : Nat) (b : List Byte) (ch' : Nat) :
    ((e.finish d.mbx.nextHandle st b).answer ch' r a).ended d.mbx.nextHandle = some st := by
  rw [Device.answer_ended]
  exact Device.finish_ended e _ st b ⟨ch, op, none, [], false, false, false⟩
    ((congrArg (·.handles.look d.mbx.nextHandle) he).trans (Tbl.look_put_same _ _ _)) rfl

@[simp] theorem Device.answer_slvSlot (d : Device) (ch : Nat) (r : Request) (a : Reply) (die slot : Nat) :
    (d.answer ch r a).slvSlot die slot = d.slvSlot die slot := by simp [Device.slvSlot]

@[simp] theorem Device.finish_slvSlot (d : Device) (h st : Nat) (b : List Byte) (die slot : Nat) :
    (d.finish h st b).slvSlot die slot = d.slvSlot die slot := by simp [Device.slvSlot]

@[simp] theorem Device.slvSlot_updSlv (d : Device) (die slot : Nat) (f : SlvSlot → SlvSlot) :
    (d.updSlv die slot f).slvSlot die slot = f (d.slvSlot die slot) := Tbl.getD_upd_same _ _ _ _

theorem Device.slvState_lt (d : Device) (die slot : Nat) : d.slvState die slot < 256 := by
  unfold Device.slvState
  split
  · split
    · decide
    · split <;> decide
  · split <;> decide

section
variable {s : State} {ch : Fin 8} {r : Request}

theorem slvLoad_accepts {b : List Byte} (hr : s.holds ch 0x0A00 r) (hheld : s.dev.slvHeld (r.u 0 1) (r.u 1 1) = false)
    (heng : s.dev.slvEngaged (r.u 0 1) (r.u 1 1) = false) (hup : s.dev.slvUp (r.u 0 1) = true)
    (hd : isHostBuf (r.u 4 4) = true) (hdr : s.dev.bufReady (r.u 4 4) = true) (hw : isHostBuf (r.u 20 4) = true)
    (hwr : s.dev.bufReady (r.u 20 4) = true) (hsz : r.u 8 8 + r.u 16 4 ≤ (s.dev.buf (r.u 4 4)).elim 0 (·.size))
    (hroom : s.dev.mbx.handles.length < 256) (hb : s.dev.bufRead s.mem (r.u 4 4) (r.u 8 8) (r.u 16 4) = .ok b) :
    Accepts (.slvLoad ch) s ch (fun h t => t.mem = s.mem ∧
      match slvCheck b (r.u 16 4) (s.dev.slvRoom (r.u 0 1) (r.u 1 1) b (r.u 20 4)) with
      | some e => t.dev.slv = s.dev.slv ∧ t.dev.ended h = some (if e.1 = 7 then 0x16 else 0x13)
      | none => t.dev.slvSlot (r.u 0 1) (r.u 1 1) =
          (slvLoaded (s.dev.slvSlot (r.u 0 1) (r.u 1 1)) b (slvSignature b) (r.u 20 4)).1 ∧
        t.dev.ended h = some 0) := by
  refine accepts_of_commandRead (show execSlvLoad ch s = _ from rfl) hr hroom
    ((if_neg (by simp [hheld, heng])).trans ((if_neg (by simp [hup])).trans (if_neg (by simp [hd, hdr, hw, hwr, hsz]))))
    fun h hh => ⟨rfl, ?_⟩
  subst hh
  have hb' : Device.bufRead { s.dev with mbx := s.dev.mbx.taking ch.val 0x0A00 } s.mem (r.u 4 4) (r.u 8 8) (r.u 16 4) =
    .ok b := hb
  have hroom' : Device.slvRoom { s.dev with mbx := s.dev.mbx.taking ch.val 0x0A00 } (r.u 0 1) (r.u 1 1) b (r.u 20 4) =
    s.dev.slvRoom (r.u 0 1) (r.u 1 1) b (r.u 20 4) := rfl
  dsimp only [State.answered, State.withDev]
  rw [hb']
  dsimp only
  rw [hroom']
  cases slvCheck b (r.u 16 4) (s.dev.slvRoom (r.u 0 1) (r.u 1 1) b (r.u 20 4)) with
  | some e => exact ⟨by rw [Device.answer_slv, Device.finish_slv], ended_answer_finish rfl _ _ _⟩
  | none =>
    refine ⟨?_, ended_answer_finish rfl _ _ _⟩
    rw [Device.answer_slvSlot, Device.finish_slvSlot, Device.slvSlot_updSlv]
    rfl

theorem slvUpdate_sets {p : List Byte} (hr : s.holds ch 0x0A01 r) (hheld : s.dev.slvHeld (r.u 0 1) (r.u 1 1) = false)
    (hup : s.dev.slvUp (r.u 0 1) = true) (hdesc : (s.dev.slvSlot (r.u 0 1) (r.u 1 1)).desc ≠ [])
    (hp : if bit (r.u 2 1) 0 = true then isHostBuf (r.u 4 4) = true ∧ s.dev.bufReady (r.u 4 4) = true ∧
      s.dev.bufRead s.mem (r.u 4 4) (r.u 8 8) (r.u 16 4) = .ok p else p = r.body.drop 20)
    (hok : packetCheck (s.dev.slvSlot (r.u 0 1) (r.u 1 1)) p = none) : Sets (.slvUpdate ch) s ch (fun t =>
      t.dev.slvSlot (r.u 0 1) (r.u 1 1) = { s.dev.slvSlot (r.u 0 1) (r.u 1 1) with
        pending := (s.dev.slvSlot (r.u 0 1) (r.u 1 1)).pending ++ [p] }) := by
  have hpacket : (if (!bit (r.u 2 1) 0) = true then some (r.body.drop 20)
      else if (isHostBuf (r.u 4 4) && s.dev.bufReady (r.u 4 4)) = true then
        (s.dev.bufRead s.mem (r.u 4 4) (r.u 8 8) (r.u 16 4)).toOption else none) = some p := by
    by_cases hbit : bit (r.u 2 1) 0 = true
    · rw [if_pos hbit] at hp
      obtain ⟨h1, h2, h3⟩ := hp
      rw [if_neg (by simp [hbit]), if_pos (by simp [h1, h2]), h3]
      rfl
    · rw [if_neg hbit] at hp
      rw [if_pos (by simpa using hbit), hp]
  refine sets_of_commandRead (show execSlvUpdate ch s = _ from rfl) hr
    (d := s.dev.updSlv (r.u 0 1) (r.u 1 1) fun k => { k with pending := k.pending ++ [p] }) ?_
    (by simp only [State.answered, State.withDev, Device.answer_slvSlot, Device.slvSlot_updSlv])
  dsimp only
  rw [if_neg (by simp [hheld]), if_neg (by simp [hup]), hpacket]
  dsimp only
  rw [if_neg (by simp [hdesc]), hok]
  rfl

theorem slvSolve_admits (hr : s.holds ch 0x0A02 r) (hroom : s.roomy) (hheld : s.dev.slvHeld (r.u 0 1) (r.u 1 1) = false)
    (hdesc : (s.dev.slvSlot (r.u 0 1) (r.u 1 1)).desc ≠ []) (heng : s.dev.slvEngaged (r.u 0 1) (r.u 1 1) = false)
    (hb : isHostBuf (r.u 20 4) = true) (hbuf : (s.dev.buf (r.u 20 4)).isSome = true)
    (hsz : r.u 24 8 + slvResultSize (s.dev.slvSlot (r.u 0 1) (r.u 1 1)).desc ≤ (s.dev.buf (r.u 20 4)).elim 0 (·.size)) :
    Admits (.slvSolve ch) s ch (fun j => j.cls = .user ∧ j.work = .slv (r.u 0 1) (r.u 1 1)) := by
  refine admits_of_command hr hroom ?_ (show execSlvSolve ch s = _ from rfl) ?_ (j := { Job.blank .user
    (.slv (r.u 0 1) (r.u 1 1)) with
        arg := r.body, restartMax := s.dev.jobs.restartFw, waitMs := s.dev.jobs.waitFw
        grants := [⟨r.u 20 4, 1, 0, 0⟩, ⟨(s.dev.slvSlot (r.u 0 1) (r.u 1 1)).workBuf, 1, 0, 0⟩] })
  · exact fun _ _ _ _ => ⟨rfl, rfl⟩
  · dsimp only
    rw [if_neg (by simp [hheld, hdesc, heng]), if_neg (by
      simp [hb, Option.isNone_eq_false_iff.mpr hbuf, hsz])]

theorem slvStatus_reports (hr : s.holds ch 0x0A03 r) (hup : s.dev.slvUp (r.u 0 1) = true)
    (hheld : s.dev.slvHeld (r.u 0 1) (r.u 1 1) = false) :
    Reports (.slvStatus ch) s ch r (fun p => fieldAt p 0 1 = s.dev.slvState (r.u 0 1) (r.u 1 1) ∧
      fieldAt p 1 1 = 0 ∧ ∃ body, p = body ++ (s.dev.slvSlot (r.u 0 1) (r.u 1 1)).result) := by
  refine reports_of_command (show execSlvStatus ch s = _ from rfl) hr
    ((if_neg (by simp [hup])).trans (by rw [hheld]; rfl)) ⟨?_, ?_, _, rfl⟩
  · simp [fieldAt_head, Nat.mod_eq_of_lt (Device.slvState_lt _ _ _)]
  · simp [fieldAt_skip, fieldAt_head, b2n]

theorem slvStatus_held (hr : s.holds ch 0x0A03 r) (hup : s.dev.slvUp (r.u 0 1) = true)
    (hheld : s.dev.slvHeld (r.u 0 1) (r.u 1 1) = true) :
    ∃ p, exec (.slvStatus ch) s = .next (s.answered ch r s.dev.tickFree (okWith p)) ∧
      fieldAt p 0 1 = s.dev.slvState (r.u 0 1) (r.u 1 1) ∧ fieldAt p 1 1 = 1 := by
  have hnext := (show exec (.slvStatus ch) s = execSlvStatus ch s from rfl).trans (command_next _ ch _ s r hr)
  dsimp only at hnext
  rw [if_neg (by simp [hup]), hheld] at hnext
  refine ⟨_, hnext, ?_, ?_⟩
  · simp [fieldAt_head, Nat.mod_eq_of_lt (Device.slvState_lt _ _ _)]
  · simp [fieldAt_skip, fieldAt_head, b2n]

theorem slvUnload_sets (hr : s.holds ch 0x0A04 r) (hheld : s.dev.slvHeld (r.u 0 1) (r.u 1 1) = false)
    (heng : s.dev.slvEngaged (r.u 0 1) (r.u 1 1) = false) (hup : s.dev.slvUp (r.u 0 1) = true)
    (hdesc : (s.dev.slvSlot (r.u 0 1) (r.u 1 1)).desc ≠ []) : Sets (.slvUnload ch) s ch (fun t =>
      t.dev.slvSlot (r.u 0 1) (r.u 1 1) = SlvSlot.reset) := by
  refine sets_of_command (show execSlvUnload ch s = _ from rfl) hr
    ((if_neg (by simp [hheld, heng])).trans ((if_neg (by simp [hup])).trans (if_neg (by simp [hdesc])))) ?_
  simp only [State.answered, State.withDev, Device.answer_slvSlot]
  rw [Device.slvSlot, Tbl.getD, Tbl.look_del_same]
  rfl

end

/-- Settles O46. -/
theorem solverCommands : Obligations.SolverCommands := by
  intro s ch r
  exact ⟨fun _ hr hheld heng hup hd hdr hw hwr hsz hroom hb => slvLoad_accepts hr hheld heng hup hd hdr hw hwr hsz hroom hb,
    fun _ hr hheld hup hdesc hp hok => slvUpdate_sets hr hheld hup hdesc hp hok, slvSolve_admits, slvStatus_reports,
    slvStatus_held, slvUnload_sets⟩

end Sys2Proof.Machine
end

section
/-! SUPPORT. Solves and the records of the pose propagator (O47). -/

namespace Sys2Proof.Machine

/-! ## What a step of a solve keeps of it -/

/-- Two states of one solve on an engine, with the same cycles. -/
structure SlvOp.Same (o p : SlvOp) : Prop where
  job : p.job = o.job
  busy : p.busy = o.busy
  begun : p.begun = o.begun

theorem SlvOp.Same.refl (o : SlvOp) : o.Same o := ⟨rfl, rfl, rfl⟩

theorem SlvOp.Same.trans {o p q : SlvOp} (h : o.Same p) (k : p.Same q) : o.Same q :=
  ⟨k.job.trans h.job, k.busy.trans h.busy, k.begun.trans h.begun⟩

theorem SlvOp.same_saturated (o : SlvOp) (sat : List (Nat × Int × Bool)) : o.Same (o.saturated sat) := by
  simp only [SlvOp.saturated]
  split <;> exact ⟨rfl, rfl, rfl⟩

theorem SlvOp.same_endIter {o n : SlvOp} (h : o.Same n) : o.Same (o.endIter n) := by
  simp only [SlvOp.endIter]
  split
  · exact o.same_saturated _
  · split
    · exact ⟨h.job, h.busy, h.begun⟩
    · split <;> exact ⟨h.job, h.busy, h.begun⟩

theorem SlvOp.same_reject (o : SlvOp) : o.Same o.reject := by
  simp only [SlvOp.reject]
  split
  · exact SlvOp.same_endIter ⟨rfl, rfl, rfl⟩
  · split <;> exact SlvOp.same_endIter ⟨rfl, rfl, rfl⟩

theorem SlvOp.same_take (o : SlvOp) : o.Same o.take_ := by
  simp only [SlvOp.take_]
  split <;> exact SlvOp.same_endIter ⟨rfl, rfl, rfl⟩

theorem SlvOp.same_stepDone (o : SlvOp) : o.Same o.stepDone := by
  unfold SlvOp.stepDone
  split
  · exact ⟨rfl, rfl, rfl⟩
  · exact o.same_take

theorem SlvOp.same_linearised (o : SlvOp) : o.Same o.linearised := by
  simp only [SlvOp.linearised]
  split
  · exact ⟨rfl, rfl, rfl⟩
  · split
    · split <;> exact ⟨rfl, rfl, rfl⟩
    · exact ⟨rfl, rfl, rfl⟩

/-- An operation that differs from another in what a step works on only. -/
theorem SlvOp.Same.after {o p q : SlvOp} (h : p.Same q) (hjob : p.job = o.job) (hbusy : p.busy = o.busy)
    (hbegun : p.begun = o.begun) : o.Same q := SlvOp.Same.trans ⟨hjob, hbusy, hbegun⟩ h

theorem SlvOp.same_phaseDone (o : SlvOp) : o.Same o.phaseDone := by
  simp only [SlvOp.phaseDone]
  split
  · exact o.same_linearised
  · exact ⟨rfl, rfl, rfl⟩
  · split
    · exact o.same_stepDone
    · split
      · exact o.same_reject
      · exact ⟨rfl, rfl, rfl⟩
  · exact o.same_stepDone
  · split
    · exact (SlvOp.same_take _).after rfl rfl rfl
    · exact (SlvOp.same_reject _).after rfl rfl rfl
  · split
    · exact ⟨rfl, rfl, rfl⟩
    · exact (SlvOp.same_saturated _ _).after rfl rfl rfl

theorem SlvOp.same_advance (o : SlvOp) : o.Same o.advance := by
  simp only [SlvOp.advance]
  split
  · exact (SlvOp.same_phaseDone _).after rfl rfl rfl
  · exact ⟨rfl, rfl, rfl⟩

theorem SlvOp.same_checkDeadline (o : SlvOp) : o.Same o.checkDeadline := by
  unfold SlvOp.checkDeadline
  split
  · exact SlvOp.Same.refl o
  · split <;> exact ⟨rfl, rfl, rfl⟩

theorem Device.same_slvTime (d : Device) (o : SlvOp) : o.Same (d.slvTime o) := by
  unfold Device.slvTime
  split
  · split <;> exact ⟨rfl, rfl, rfl⟩
  · exact ⟨rfl, rfl, rfl⟩

/-! ## The list of solves -/

/-- A job has a solve in the list, and each solve it has meets a condition. -/
def Device.SolveOf (d : Device) (job : Nat) (P : SlvOp → Prop) : Prop :=
  (∃ q ∈ d.slv.ops, q.job = job) ∧ ∀ q ∈ d.slv.ops, q.job = job → P q

theorem Device.SolveOf.found {d : Device} {job : Nat} {P : SlvOp → Prop} (h : d.SolveOf job P) :
    ∃ q ∈ d.slv.ops, q.job = job ∧ P q := by
  obtain ⟨⟨q, hq, hj⟩, hall⟩ := h
  exact ⟨q, hq, hj, hall q hq hj⟩

/-- A solve that is replaced by one of its own job. -/
theorem Device.solveOf_putSlv {d : Device} {o p : SlvOp} {P : SlvOp → Prop} (ho : o ∈ d.slv.ops) (hj : p.job = o.job)
    (hP : P p) : (d.putSlv p).SolveOf o.job P := by
  rw [← hj]
  refine ⟨⟨p, List.mem_map.mpr ⟨o, ho, if_pos hj.symm⟩, rfl⟩, fun q hq hqj => ?_⟩
  obtain ⟨x, -, rfl⟩ := List.mem_map.mp hq
  split
  · exact hP
  next hx => exact absurd (by simpa [hx] using hqj) hx

/-- A solve replaced by one that meets the condition, if it is of the job. -/
theorem Device.SolveOf.putSlv {d : Device} {job : Nat} {P : SlvOp → Prop} (h : d.SolveOf job P) {p : SlvOp}
    (hp : p.job = job → P p) : (d.putSlv p).SolveOf job P := by
  obtain ⟨⟨q, hq, hj⟩, hall⟩ := h
  constructor
  · refine ⟨_, List.mem_map_of_mem hq, ?_⟩
    split
    next hqp => exact hqp.symm.trans hj
    · exact hj
  · intro x hx hxj
    obtain ⟨y, hy, rfl⟩ := List.mem_map.mp hx
    split
    next hyp => exact hp (by simpa [hyp] using hxj)
    next hyp => exact hall y hy (by simpa [hyp] using hxj)

/-- A solve that begins keeps its job and cycles. -/
theorem Device.slvBegin_puts (d : Device) (o : SlvOp) :
    ∃ (e : Device) (p : SlvOp), d.slvBegin o = e.putSlv p ∧ e.slv.ops = d.slv.ops ∧ p.job = o.job ∧ p.busy = o.busy := by
  have ht := d.same_slvTime o
  simp only [Device.slvBegin]
  split
  · exact ⟨_, _, rfl, rfl, ht.job, ht.busy⟩
  · refine ⟨_, _, rfl, rfl, ?_, ?_⟩
    · rw [(SlvOp.same_checkDeadline _).job]
      exact ht.job
    · rw [(SlvOp.same_checkDeadline _).busy]
      exact ht.busy

/-- An engine that takes its next solve changes one that is on its die, is not at its end, and keeps its job and cycles. -/
theorem Device.slvPick_puts (d : Device) (die : Nat) : d.slvPick die = d ∨ ∃ (e : Device) (o p : SlvOp),
    d.slvPick die = e.putSlv p ∧ e.slv.ops = d.slv.ops ∧ o ∈ d.slv.ops ∧ o.header = [] ∧ p.job = o.job ∧
      p.busy = o.busy := by
  have hbegin : ∀ o ∈ d.slv.ops.filter fun o => o.die == die && o.header.isEmpty, ∃ (e : Device) (q p : SlvOp),
      d.slvBegin o = e.putSlv p ∧ e.slv.ops = d.slv.ops ∧ q ∈ d.slv.ops ∧ q.header = [] ∧ p.job = q.job ∧
        p.busy = q.busy := by
    intro o ho
    obtain ⟨hm, hh⟩ := List.mem_filter.mp ho
    obtain ⟨e, p, he, hops, hj, hb⟩ := d.slvBegin_puts o
    exact ⟨e, o, p, he, hops, hm, by simpa using (Bool.and_eq_true_iff.mp hh).2, hj, hb⟩
  simp only [Device.slvPick]
  split
  · exact .inl rfl
  split
  next o h => exact .inr (hbegin o (List.mem_of_find?_eq_some h))
  next o _ h =>
    obtain ⟨hm, hh⟩ := List.mem_filter.mp (List.mem_of_find?_eq_some h)
    have ht := d.same_slvTime o
    refine .inr ⟨d, o, _, rfl, rfl, hm, by simpa using (Bool.and_eq_true_iff.mp hh).2, ?_, ?_⟩
    · rw [(SlvOp.same_checkDeadline _).job]
      exact ht.job
    · rw [(SlvOp.same_checkDeadline _).busy]
      exact ht.busy
  · split
    next o h =>
      obtain ⟨j, -, hj⟩ := Option.bind_eq_some_iff.mp h
      exact .inr (hbegin o (List.mem_of_find?_eq_some hj))
    · exact .inl rfl

/-- Cycles of a job stay as they are when the engine takes its next solve. -/
theorem Device.SolveOf.slvPick_busy {d : Device} {job n : Nat} (h : d.SolveOf job (·.busy = n)) (die : Nat) :
    (d.slvPick die).SolveOf job (·.busy = n) := by
  rcases d.slvPick_puts die with he | ⟨e, o, p, he, hops, ho, -, hj, hb⟩
  · rwa [he]
  · rw [he]
    refine Device.SolveOf.putSlv (by rwa [Device.SolveOf, hops]) fun hp => ?_
    exact hb.trans (h.2 o ho (hj.symm.trans hp))

/-- A solve at its end stays as it is when the engine takes its next one. -/
theorem Device.SolveOf.slvPick_ended {d : Device} {job : Nat} {P : SlvOp → Prop} (h : d.SolveOf job P)
    (hend : ∀ q ∈ d.slv.ops, q.job = job → q.header ≠ []) (die : Nat) : (d.slvPick die).SolveOf job P := by
  rcases d.slvPick_puts die with he | ⟨e, o, p, he, hops, ho, hh, hj, -⟩
  · rwa [he]
  · rw [he]
    exact Device.SolveOf.putSlv (by rwa [Device.SolveOf, hops]) fun hp => absurd hh (hend o ho (hj.symm.trans hp))

theorem Device.mem_of_slvRunning {d : Device} {die : Nat} {o : SlvOp} (h : d.slvRunning die = some o) :
    o ∈ d.slv.ops := List.mem_of_find?_eq_some h

/-! ## Events of a solve -/

/-- A step boundary adds its cycles. -/
theorem Device.slvBoundary_adds {d : Device} {die : Nat} {o : SlvOp} (h : d.slvRunning die = some o) (cycles : Nat) :
    (d.slvBoundary die cycles).SolveOf o.job (·.busy = o.busy + cycles) := by
  have ht := d.same_slvTime o
  unfold Device.slvBoundary
  rw [h]
  dsimp -zeta only
  extract_lets src p q waits
  have hp : p.job = o.job ∧ p.busy = o.busy + cycles := ⟨ht.job, rfl⟩
  have hq : q.job = o.job ∧ q.busy = o.busy + cycles := by
    simp only [q]
    split
    · exact hp
    · have hs := p.same_advance.trans p.advance.same_checkDeadline
      exact ⟨hs.job.trans hp.1, hs.busy.trans hp.2⟩
  have hm := Device.mem_of_slvRunning h
  split
  · exact (Device.solveOf_putSlv (p := { q with suspended := true, wasSuspended := true, suspendAt := d.time.now }) hm
      hq.1 hq.2).slvPick_busy die
  · exact Device.solveOf_putSlv hm hq.1 hq.2

theorem slvStepBoundary_adds {s : State} {die : Fin 8} {o : SlvOp} (hup : s.dev.slvUp die.val = true)
    (ht : s.dev.engineTested die.val 2 = false) (ho : s.dev.slvRunning die.val = some o) (cycles : Nat) :
    Completes (.slvStepBoundary die cycles) s (fun t => t.mem = s.mem ∧
      ∃ q ∈ t.dev.slv.ops, q.job = o.job ∧ q.busy = o.busy + cycles) := by
  refine ⟨_, (show exec (.slvStepBoundary die cycles) s = execSlvStepBoundary die cycles s from rfl).trans (onDev_next _ s), rfl,
    rfl, ?_⟩
  dsimp only [State.withDev]
  rw [if_pos (by simp [hup, ht])]
  exact (Device.slvBoundary_adds ho cycles).found

theorem slvStepBoundary_picks {s : State} {die : Fin 8} (hup : s.dev.slvUp die.val = true)
    (ht : s.dev.engineTested die.val 2 = false) (ho : s.dev.slvRunning die.val = none) (cycles : Nat) :
    exec (.slvStepBoundary die cycles) s = .next (s.withDev (s.dev.slvPick die.val)) := by
  change execSlvStepBoundary die cycles s = _
  simp only [execSlvStepBoundary, onDev_next, Device.slvBoundary, hup, ht, ho, Bool.not_false, Bool.and_self, if_true]

theorem slvDeadline_marks {s : State} {id when_ : Nat} {o : SlvOp}
    (ho : s.dev.slv.ops.find? (fun o => o.job == id && o.header.isEmpty) = some o) (hd : o.deadline = some when_) :
    Completes (.slvDeadline id) s (fun t => t.mem = s.mem ∧ ∃ q ∈ t.dev.slv.ops, q.job = id ∧ q.late = true) := by
  have hj : o.job = id := by
    have := List.find?_some ho
    simp only [Bool.and_eq_true, beq_iff_eq] at this
    exact this.1
  obtain ⟨adv, hadv⟩ : ∃ f, f = Device.advanceToDev := ⟨_, rfl⟩
  have hag : (adv s.dev when_).slv = s.dev.slv := by
    rw [hadv]
    exact (Device.agrees_clockDev _ _).slv (by decide)
  refine ⟨s.withDev ((adv s.dev when_).putSlv { o with late := true }), ?_, rfl, rfl, ?_⟩
  · change execSlvDeadline id s = _
    unfold execSlvDeadline
    rw [onDev_next, ← hadv, ho]
    dsimp only
    rw [hd]
  · have := (Device.solveOf_putSlv (d := adv s.dev when_) (o := o) (p := { o with late := true }) (P := fun q => q.late = true)
      (by rw [hag]; exact List.mem_of_find?_eq_some ho) rfl rfl).found
    obtain ⟨q, hq, hqj, hl⟩ := this
    exact ⟨q, hq, hqj.trans hj, hl⟩

@[simp] theorem Device.slvTime_fw (d : Device) (o : SlvOp) : (d.slvTime o).fw = o.fw := by
  unfold Device.slvTime
  split
  · split <;> rfl
  · rfl

/-- The counters of a solve that ends leave the list of solves. -/
theorem Device.slvCount_ops (d : Device) (die ended cycles : Nat) (retried : Bool) :
    (d.slvCount die ended cycles retried).slv.ops = d.slv.ops := by
  unfold Device.slvCount
  extract_lets busy src e f g
  have hg : g.slv.ops = d.slv.ops := by
    simp only [g]
    split <;> rfl
  split <;> exact hg

theorem Device.fwHeader_ne_nil (d : Device) (o : SlvOp) (x : SlvOut) (e : Nat) (re : Bool) : d.fwHeader o x e re ≠ [] :=
  fun h => by
    have := congrArg List.length h
    simp [Device.fwHeader] at this

theorem Device.slvHeader_ne_nil (d : Device) (o : SlvOp) (e : Nat) (re : Bool) : d.slvHeader o e re ≠ [] :=
  fun h => by
    have := congrArg List.length h
    simp [Device.slvHeader] at this

/-- A solve at its end whose header is written keeps what it ended with while the engine takes its next one. -/
theorem Device.solveOf_ended {d : Device} {o p : SlvOp} {P : SlvOp → Prop} (ho : o ∈ d.slv.ops) (hj : p.job = o.job)
    (hh : p.header ≠ []) (hP : P p) (die : Nat) : ((d.putSlv p).slvPick die).SolveOf o.job P :=
  (Device.solveOf_putSlv ho hj hP).slvPick_ended
    (fun q hq hqj => (Device.solveOf_putSlv (P := (·.header ≠ [])) ho hj hh).2 q hq hqj) die

/-- A solve of firmware ends. -/
theorem slvEnd_fw {die : Nat} {x : SlvOut} {d : Device} {m : Store} {o : SlvOp} {e : Nat} (ho : d.slvRunning die = some o)
    (hfw : o.fw = true) (he : slvOutEnded x (d.slvTime o).late = some e) : (slvEnd die x d m).2 = m ∧
      (slvEnd die x d m).1.SolveOf o.job (fun q => q.ended = some e ∧ q.header ≠ []) := by
  simp only [slvEnd, ho, Device.slvTime_fw, hfw, if_true, he, true_and]
  have hput := fun (a : Device) (p : SlvOp) (ha : o ∈ a.slv.ops) (hj : p.job = o.job) (hh : p.header ≠ [])
      (hp : p.ended = some e) =>
    Device.solveOf_ended (P := fun q => q.ended = some e ∧ q.header ≠ []) ha hj hh ⟨hp, hh⟩ die
  refine hput _ _ ?_ (d.same_slvTime o).job (Device.fwHeader_ne_nil _ _ _ _ _) rfl
  rw [Device.slvCount_ops]
  exact Device.mem_of_slvRunning ho

/-- A solve of a command ends, its result in its buffer. -/
theorem slvEnd_command {die : Nat} {x : SlvOut} {d : Device} {m : Store} {o : SlvOp} {e : Nat} {re : Bool}
    {y : Device × Store} (ho : d.slvRunning die = some o) (hfw : o.fw = false) (he : (d.slvTime o).ended = some e)
    (hre : (d.job o.job).elim false (fun j => decide (0 < j.total)) = re)
    (hy : d.slvWrite m (d.slvTime o) (d.slvHeader (d.slvTime o) e re) = .ok y) : (slvEnd die x d m).2 = y.2 ∧
      (slvEnd die x d m).1.SolveOf o.job (fun q => q.header = d.slvHeader (d.slvTime o) e re) := by
  have hjob := (d.same_slvTime o).job
  have hops : y.1.slv = d.slv :=
    ((Device.agrees_of_slvWrite hy d (by simp)).mpr (Device.agrees_refl [.memsys] _)).slv (by decide)
  have hend : slvEnd die x d m = (((y.1.slvCount die e (d.slvTime o).busy (d.slvTime o).retried).putSlv
      { d.slvTime o with header := d.slvHeader (d.slvTime o) e re }).slvPick die, y.2) := by
    cases hj : d.job o.job
    all_goals
      simp only [hj, Option.elim] at hre
      subst hre
      simp only [slvEnd, ho, Device.slvTime_fw, hfw, Bool.false_eq_true, if_false, he, hjob, hj, hy]
  rw [hend]
  refine ⟨rfl, ?_⟩
  refine Device.solveOf_ended (p := { d.slvTime o with header := d.slvHeader (d.slvTime o) e re })
    (P := fun q => q.header = d.slvHeader (d.slvTime o) e re) ?_ hjob
    (Device.slvHeader_ne_nil _ _ _ _) rfl die
  rw [Device.slvCount_ops, hops]
  exact Device.mem_of_slvRunning ho

theorem solvesProceed_holds : solvesProceed := by
  intro s
  refine ⟨fun die cycles o hup ht ho => slvStepBoundary_adds hup ht ho cycles,
    fun die cycles hup ht ho => slvStepBoundary_picks hup ht ho cycles, fun id o when_ ho hd => slvDeadline_marks ho hd,
    fun die x o e ho hfw he => ?_, fun die x o e y ho hfw he hy => ?_⟩
  · obtain ⟨hm, hs⟩ := slvEnd_fw (m := s.mem) ho hfw he
    refine ⟨_, (show exec (.slvSolveEnd die x) s = execSlvSolveEnd die x s from rfl).trans (onBoth_next _ s),
      State.withAll_pending _ _ _, hm, ?_⟩
    obtain ⟨q, hq, hj, hP⟩ := hs.found
    exact ⟨q, hq, hj, hP⟩
  · obtain ⟨hm, hs⟩ := slvEnd_command (x := x) (m := s.mem) ho hfw he (by cases s.dev.job o.job <;> rfl) hy
    refine ⟨_, (show exec (.slvSolveEnd die x) s = execSlvSolveEnd die x s from rfl).trans (onBoth_next _ s),
      State.withAll_pending _ _ _, hm, ?_⟩
    obtain ⟨q, hq, hj, hP⟩ := hs.found
    exact ⟨q, hq, hj, hP⟩

/-! ## The pose propagator -/

/-- A record moves the sequence number on and takes the propagator's moment. -/
theorem Device.ppRecord_pp (d : Device) (at_ : Nat) : (d.ppRecord at_).slv.pp.seq = (d.slv.pp.seq + 1) % 2 ^ 32 ∧
    (d.ppRecord at_).slv.pp.lastMs = some at_ ∧ (d.ppRecord at_).slv.pp.stepped = false ∧
    (d.ppRecord at_).slv.pp.anchored = false := by
  have hkeep : ∀ (e : Device) (p : Prop) [Decidable p] (dts : BitVec 128) (body : List Byte),
      (if p then e.publishPose dts body else e).slv = e.slv := by
    intro e p _ dts body
    split
    · exact (show e.agrees [.evt, .mbx, .loc, .out] (e.publishPose dts body) by simp).slv (by decide)
    · rfl
  unfold Device.ppRecord
  extract_lets p motion st rec_ slow src e
  rw [hkeep]
  exact ⟨rfl, rfl, rfl, rfl⟩

theorem ppRecord_next {s : State} (hr : s.dev.locRuns = true) : Completes .ppRecord s (fun t => t.mem = s.mem ∧
    t.dev.slv.pp.seq = (s.dev.slv.pp.seq + 1) % 2 ^ 32 ∧
    t.dev.slv.pp.lastMs = some (match s.dev.slv.pp.lastMs with
      | some m => m + oneMs
      | none => (s.dev.time.ns16 + oneMs - 1) / oneMs * oneMs) ∧
    t.dev.slv.pp.stepped = false ∧ t.dev.slv.pp.anchored = false) := by
  obtain ⟨adv, hadv⟩ : ∃ f, f = Device.advanceToDev := ⟨_, rfl⟩
  obtain ⟨due, hdue⟩ : ∃ n, n = (match s.dev.slv.pp.lastMs with
      | some m => m + oneMs
      | none => (s.dev.time.ns16 + oneMs - 1) / oneMs * oneMs) := ⟨_, rfl⟩
  rw [← hdue]
  have hag : (adv s.dev due).slv = s.dev.slv := by
    rw [hadv]
    exact (Device.agrees_clockDev _ _).slv (by decide)
  obtain ⟨hseq, hms, hst, han⟩ := (adv s.dev due).ppRecord_pp due
  refine ⟨s.withDev ((adv s.dev due).ppRecord due), ?_, rfl, rfl, hag ▸ hseq, hms, hst, han⟩
  change execPpRecord s = _
  unfold execPpRecord
  rw [onDev_next, ← hadv]
  dsimp only
  rw [hr, if_neg nofun]
  subst hdue
  rfl

theorem propagatorRecords_holds : propagatorRecords := by
  intro s ch r
  refine ⟨fun hr => sets_of_configure (show execPpConfig ch s = _ from rfl) hr rfl ?_,
    fun hr => reports_of_query (show execPpStatus ch s = _ from rfl) hr rfl rfl, ppRecord_next⟩
  simp only [State.answered, State.withDev, Device.answer_slv, ppConfig]

/-- Settles O47. -/
theorem solvesAndRecordsProceed : Obligations.SolvesAndRecordsProceed :=
  ⟨solvesProceed_holds, propagatorRecords_holds⟩

end Sys2Proof.Machine
end

section
/-! SUPPORT. Localisation (O48). -/

namespace Sys2Proof.Machine

theorem LocState.code_lt (x : LocState) : x.code < 256 := by cases x <;> decide

/-! ## Changes of the localisation state -/

@[simp] theorem Device.locTo_state (d : Device) (x : LocState) : (d.locTo x).loc.state = x := by
  simp only [Device.locTo]
  split
  · assumption
  · rw [Device.event_loc]

@[simp] theorem Device.locTo_window (d : Device) (x : LocState) : (d.locTo x).loc.window = d.loc.window := by
  simp only [Device.locTo]
  split
  · rfl
  · rw [Device.event_loc]

@[simp] theorem Device.locTo_aligned (d : Device) (x : LocState) : (d.locTo x).loc.aligned = d.loc.aligned := by
  simp only [Device.locTo]
  split
  · rfl
  · rw [Device.event_loc]

theorem Device.locTo_prev {d : Device} {x : LocState} (h : d.loc.state ≠ x) : (d.locTo x).loc.prev = d.loc.state := by
  simp only [Device.locTo]
  rw [if_neg h, Device.event_loc]

/-- A change of state is told under LOCALISATION. -/
theorem Device.locTo_cause {d : Device} {x : LocState} (h : d.loc.state ≠ x) :
    (d.locTo x).evt.cause.getLsbD 5 = true := by
  simp only [Device.locTo]
  rw [if_neg h]
  exact Device.event_cause _ (by decide) _ _ _ _

/-- Closing the open session keeps the window and the state of localisation. -/
theorem Device.closeOpen_loc (d : Device) : ∃ a b c, d.closeOpen.mapCommit.loc =
    { d.loc with session := a, lastKf := b, landmarks := c } := by
  rw [(show d.closeOpen.agrees [.evt, .diag, .map] d.closeOpen.mapCommit by simp).loc (by decide)]
  unfold Device.closeOpen
  split
  · exact ⟨_, _, _, rfl⟩
  next id _ =>
    exact ⟨none, none, [], congrArg (fun l : Localisation => { l with session := none, lastKf := none, landmarks := [] })
      ((show d.agrees [.diag, .map] (d.mapUpdate id (closeRecord (recU d.loc.committed 16 16))) by simp).loc (by decide))⟩

/-- The same when a session may be open. -/
theorem Device.closeIfOpen_loc (d : Device) (p : Prop) [Decidable p] : ∃ a b c,
    (if p then d.closeOpen.mapCommit else d).loc = { d.loc with session := a, lastKf := b, landmarks := c } := by
  split
  · exact d.closeOpen_loc
  · exact ⟨_, _, _, rfl⟩

@[simp] theorem Device.locCold_state (d : Device) : d.locCold.loc.state = .cold := Device.locTo_state _ _

@[simp] theorem Device.locCold_window (d : Device) : d.locCold.loc.window = [] := by
  obtain ⟨a, b, c, he⟩ := d.locClear.closeIfOpen_loc (d.locClear.map.opened.isSome = true)
  rw [Device.locCold, Device.locTo_window, he]
  rfl

@[simp] theorem Device.locCold_anchor (d : Device) : d.locCold.slv.pp.anchor = none := by
  rw [(show d.locClear.agrees [.evt, .diag, .loc, .map] d.locCold by simp [Device.locCold]).slv (by decide)]
  rfl

theorem Device.locCold_cause {d : Device} (h : d.loc.state ≠ .cold) : d.locCold.evt.cause.getLsbD 5 = true := by
  obtain ⟨a, b, c, he⟩ := d.locClear.closeIfOpen_loc (d.locClear.map.opened.isSome = true)
  refine Device.locTo_cause ?_
  rw [he]
  exact h

theorem Device.locCold_time (d : Device) : d.locCold.time = d.time :=
  (show d.agrees [.evt, .diag, .slv, .loc, .map] d.locCold by simp).time (by decide)

theorem Device.locLost_loses {d : Device} (h : d.loc.state.estimating = true) : d.locLost.loc.state = .lost ∧
    d.locLost.loc.window = [] ∧ d.locLost.loc.aligned = false ∧ d.locLost.evt.cause.getLsbD 5 = true := by
  refine ⟨Device.locTo_state _ _, Device.locTo_window _ _, Device.locTo_aligned _ _, Device.locTo_cause fun hl => ?_⟩
  rw [show d.loc.state = .lost from hl] at h
  exact absurd h (by decide)

/-! ## Commands -/

section
variable {s : State} {ch : Fin 8} {r : Request}

theorem locConfig_sets (hr : s.mayConfigure ch setLocConfig r) (hd : s.dev.deadlinesOk (locCfgOf r) = true) :
    Sets (.locConfig ch) s ch (fun t => t.dev.loc = { s.dev.loc with cfg := locCfgOf r }) := by
  refine sets_of_configure (show execLocConfig ch s = _ from rfl) hr
    (d := { s.dev with loc := { s.dev.loc with cfg := locCfgOf r } }) ?_ (by simp [State.answered, State.withDev])
  simp only [setLocConfig, devBody, locConfig]
  rw [if_pos hd]
  rfl

theorem wheelConfig_sets (hr : s.mayConfigure ch setWheelConfig r)
    (ha : r.u 2 1 = 1 → r.u 3 1 % 2 = 0 ∧ 32 ≤ r.u 3 1 ∧ r.u 3 1 < 64 ∧ (s.dev.sfeS (r.u 3 1)).res = true)
    (hc : s.dev.grid.check.wheel = 0 ∨ s.dev.grid.check.wheel = r.u 0 1) :
    Sets (.wheelConfig ch) s ch (fun t => t.dev.loc = { s.dev.loc with
      wheel := ⟨r.u 0 1, r.u 1 1, r.u 2 1, r.u 3 1, r.u 4 2, r.u 6 2, r.u 8 2, r.u 10 2, r.u 12 1, r.u 13 1, r.u 16 4,
        r.u 20 4, r.i 24 4, r.u 28 2, r.u 30 2⟩ }) := by
  refine sets_of_configure (show execWheelConfig ch s = _ from rfl) hr (d := { s.dev with loc := { s.dev.loc with
      wheel := ⟨r.u 0 1, r.u 1 1, r.u 2 1, r.u 3 1, r.u 4 2, r.u 6 2, r.u 8 2, r.u 10 2, r.u 12 1, r.u 13 1, r.u 16 4,
        r.u 20 4, r.i 24 4, r.u 28 2, r.u 30 2⟩ } }) ?_ (by simp [State.answered, State.withDev])
  simp only [setWheelConfig, devBody, wheelConfig]
  rw [if_neg]
  · rfl
  · have hcheck : (decide (s.dev.grid.check.wheel ≠ 0) && decide (s.dev.grid.check.wheel ≠ r.u 0 1)) = false := by
      rcases hc with h | h <;> simp [h]
    rw [hcheck, Bool.or_false]
    by_cases h1 : r.u 2 1 = 1
    · obtain ⟨h2, h32, h64, hres⟩ := ha h1
      simp [h1, h2, h32, h64, hres]
    · simp [h1]

theorem gnssConfig_sets (hr : s.mayConfigure ch setGnssConfig r) : Sets (.gnssConfig ch) s ch (fun t =>
    t.dev.loc.gnss = ⟨r.u 0 1 == 1, r.u 1 1, ⟨r.i 4 4, r.i 8 4, r.i 12 4⟩, r.u 16 4, r.u 20 2⟩ ∧
    t.dev.loc.aligned = false ∧ t.dev.loc.fixes = []) := by
  refine sets_of_configure (show execGnssConfig ch s = _ from rfl) hr rfl ?_
  dsimp only [State.answered, State.withDev]
  rw [Device.answer_loc]
  exact ⟨rfl, rfl, rfl⟩

theorem loopConfig_sets (hr : s.mayConfigure ch setLoopConfig r) : Sets (.loopConfig ch) s ch (fun t =>
    t.dev.loc = { s.dev.loc with
      loop := ⟨r.u 0 1 == 1, r.u 1 1, r.u 2 1, r.u 3 1, r.u 4 2, r.u 6 2, r.u 8 1, some (r.u 9 1), r.u 10 1, r.u 12 2,
        r.u 14 4⟩ }) :=
  sets_of_configure (show execLoopConfig ch s = _ from rfl) hr rfl
    (by simp only [State.answered, State.withDev, Device.answer_loc, loopConfig])

theorem locStatus_reports (hr : s.holds ch 0x0B01 r) : Reports (.locStatus ch) s ch r (fun p => p.length = 112 ∧
    fieldAt p 0 1 = s.dev.loc.state.code ∧ fieldAt p 1 1 = s.dev.loc.conf % 256 ∧
    fieldAt p 2 1 = s.dev.loc.prev.code) := by
  refine reports_of_query (show execLocStatus ch s = _ from rfl) hr rfl ?_
  have h0 := Nat.mod_eq_of_lt s.dev.loc.state.code_lt
  have h1 := Nat.mod_eq_of_lt s.dev.loc.prev.code_lt
  simp only [List.append_assoc]
  refine ⟨?_, ?_, ?_, ?_⟩
  · simp [Vec3.list]
  all_goals simp [fieldAt_skip, fieldAt_head, h0, h1]

theorem poseGet_reports (hr : s.holds ch 0x0B07 r) : Reports (.poseGet ch) s ch r (fun p =>
    p = s.dev.loc.published ++ s.dev.loc.committed ++ s.dev.loc.covRecord) :=
  reports_of_query (show execPoseGet ch s = _ from rfl) hr rfl rfl

theorem locReset_sets (hr : s.holds ch 0x0B02 r) (hruns : s.dev.locRuns = true) :
    Sets (.locReset ch) s ch (fun t => t.dev.loc.state = .cold ∧ t.dev.loc.window = [] ∧ t.dev.slv.pp.anchor = none) := by
  refine sets_of_command (show execLocReset ch s = _ from rfl) hr (if_neg (by simp [hruns])) ?_
  simp only [State.answered, State.withDev, Device.answer_loc, Device.answer_slv]
  exact ⟨Device.locCold_state _, Device.locCold_window _, Device.locCold_anchor _⟩

theorem gnssFix_drops (hr : s.holds ch 0x0B05 r)
    (hd : s.dev.loc.gnss.enable = false ∨ r.u 48 1 = 0 ∨ s.dev.loc.state.estimating = false) :
    Sets (.gnssFix ch) s ch (fun t => t.dev.loc = { s.dev.loc with
      gnssDropped := min 0xFFFFFFFF (s.dev.loc.gnssDropped + 1) }) := by
  refine sets_of_command (show execGnssFix ch s = _ from rfl) hr (d := s.dev.dropFix) ?_ ?_
  · dsimp only
    rw [if_pos (by rcases hd with h | h | h <;> simp [h])]
    rfl
  · simp only [State.answered, State.withDev, Device.answer_loc, Device.dropFix]

theorem gnssFix_keptOrDropped {f : Fix} {w : WinState} {p : Pose}
    (hf : f = (⟨dtsMoment (BitVec.ofNat 128 (r.u 0 16)), ⟨r.i 16 8, r.i 24 8, r.i 32 8⟩, r.u 40 4, r.u 44 4⟩ : Fix))
    (hr : s.holds ch 0x0B05 r) (he : s.dev.loc.gnss.enable = true) (h0 : r.u 48 1 ≠ 0)
    (ht : s.dev.loc.gnss.minType ≤ r.u 48 1) (hs : f.sigmaH ≤ s.dev.loc.gnss.sigmaMax)
    (hw : s.dev.loc.window.head? = some w) (hearly : w.at_ ≤ f.at_) (hlate : f.at_ ≤ s.dev.time.ns16)
    (hest : s.dev.loc.state.estimating = true) (hp : s.dev.ringPose f.at_ = some p) (ha : s.dev.loc.aligned = false)
    (hspan : spansDist (s.dev.loc.fixes ++ [(f, antennaAt p s.dev.loc.gnss.lever)]) s.dev.loc.gnss.alignDist = false) :
    Sets (.gnssFix ch) s ch (fun t => t.dev.loc = { s.dev.loc with
      fixes := s.dev.loc.fixes ++ [(f, antennaAt p s.dev.loc.gnss.lever)] }) := by
  refine sets_of_command (show execGnssFix ch s = _ from rfl) hr (d := { s.dev with loc := { s.dev.loc with
      fixes := s.dev.loc.fixes ++ [(f, antennaAt p s.dev.loc.gnss.lever)] } }) ?_ ?_
  · subst hf
    dsimp only at hs hearly hlate hp ⊢
    rw [hw]
    dsimp only
    rw [if_neg (by simp [he, h0, ht, hs, hearly, hlate, hest]), hp]
    dsimp only
    rw [if_neg (by simp [ha]), Device.pairFix]
    dsimp only
    rw [if_pos (by simp [hspan])]
    rfl
  · simp only [State.answered, State.withDev, Device.answer_loc]

end

theorem localisationCommands_holds : localisationCommands := by
  intro s ch r
  exact ⟨locConfig_sets, wheelConfig_sets, gnssConfig_sets, loopConfig_sets, locStatus_reports, poseGet_reports, locReset_sets,
    gnssFix_drops, fun f w p hf hr he h0 ht hs hw hearly hlate hest hp ha hspan =>
      gnssFix_keptOrDropped hf hr he h0 ht hs hw hearly hlate hest hp ha hspan⟩

/-! ## Events -/

section
variable {s : State} (hruns : s.dev.locRuns = true)
include hruns

theorem locInitStart_begins (hst : s.dev.loc.state = .cold) (hready : s.dev.locReady = true)
    (hload : s.dev.jobs.table.any (fun e => e.2.active && decide (e.2.work = .mapLoad)) = false) :
    Completes .locInitStart s (fun t => t.mem = s.mem ∧ t.dev.loc.state = .init ∧ t.dev.loc.prev = .cold ∧
      t.dev.evt.cause.getLsbD 5 = true) := by
  have hne : s.dev.loc.state ≠ .init := by rw [hst]; decide
  refine ⟨s.withDev (s.dev.locTo .init), ?_, rfl, rfl, Device.locTo_state _ _, (Device.locTo_prev hne).trans hst,
    Device.locTo_cause hne⟩
  change execLocInitStart s = _
  simp only [execLocInitStart, onDev_next]
  rw [if_neg (by simp [hruns]), if_pos (by simp [hst, hready, hload])]

theorem locInitStart_returns (hst : s.dev.loc.state = .init) (hun : s.dev.locUnready = true) :
    Completes .locInitStart s (fun t =>
      t.mem = s.mem ∧ t.dev.loc.state = .cold ∧ t.dev.loc.window = [] ∧ t.dev.evt.cause.getLsbD 5 = true) := by
  refine ⟨s.withDev s.dev.locCold, ?_, rfl, rfl, Device.locCold_state _, Device.locCold_window _,
    Device.locCold_cause (by rw [hst]; decide)⟩
  change execLocInitStart s = _
  simp only [execLocInitStart, onDev_next]
  rw [if_neg (by simp [hruns]), if_neg (by simp [hst]), if_pos (by simp [hst, hun])]

theorem locLostTimeout_loses (hest : s.dev.loc.state.estimating = true) :
    Completes .locLostTimeout s (fun t => t.mem = s.mem ∧
      t.dev.loc.state = .lost ∧ t.dev.loc.window = [] ∧ t.dev.loc.aligned = false ∧
      t.dev.evt.cause.getLsbD 5 = true) := by
  obtain ⟨adv, hadv⟩ : ∃ f, f = Device.advanceTo := ⟨_, rfl⟩
  obtain ⟨e, hexec, hloc⟩ : ∃ e : Device, execLocLostTimeout s = .next (s.withDev e.locLost) ∧ e.loc = s.dev.loc := by
    unfold execLocLostTimeout
    rw [onDev_next, ← hadv]
    rw [if_neg (by simp [hruns, hest])]
    split
    · exact ⟨_, rfl, rfl⟩
    · refine ⟨_, rfl, ?_⟩
      rw [hadv]
      exact (Device.agrees_clock _ _).loc (by decide)
  exact ⟨_, hexec, rfl, rfl, Device.locLost_loses (by rw [hloc]; exact hest)⟩

theorem locReinitTimeout_returns (hst : s.dev.loc.state = .lost) : Completes .locReinitTimeout s (fun t => t.mem = s.mem ∧
    t.dev.loc.state = .cold ∧ s.dev.loc.enteredAt + s.dev.loc.cfg.reinitTime * oneS ≤ t.dev.time.now ∧
    t.dev.evt.cause.getLsbD 5 = true) := by
  obtain ⟨adv, hadv⟩ : ∃ f, f = Device.advanceTo := ⟨_, rfl⟩
  obtain ⟨due, hdue⟩ : ∃ n, n = s.dev.loc.enteredAt + s.dev.loc.cfg.reinitTime * oneS := ⟨_, rfl⟩
  have hloc : (adv s.dev due).loc = s.dev.loc := by
    rw [hadv]
    exact (Device.agrees_clock _ _).loc (by decide)
  have hreach : due ≤ (adv s.dev due).locCold.time.now := by
    rw [Device.locCold_time, hadv]
    exact Device.le_now_advanceTo _ _
  rw [← hdue]
  refine ⟨s.withDev (adv s.dev due).locCold, ?_, rfl, rfl, Device.locCold_state _, hreach,
    Device.locCold_cause (by rw [hloc, hst]; decide)⟩
  change execLocReinitTimeout s = _
  unfold execLocReinitTimeout
  rw [onDev_next, ← hadv]
  rw [if_pos (by simp [hruns, hst]), ← hdue]

end

/-- Corrections applied are kept in their order. -/
theorem Device.applyCorrection_applying (d : Device) (c : Correction) :
    (d.applyCorrection c).loc.applying = d.loc.applying ++ [c] := by
  simp only [Device.applyCorrection]
  split <;> rfl

theorem applyCorrections_applying (cs : List Correction) (d : Device) :
    (cs.foldl (fun (d : Device) c => d.applyCorrection c) d).loc.applying = d.loc.applying ++ cs := by
  induction cs generalizing d with
  | nil => exact (List.append_nil _).symm
  | cons c cs ih => rw [List.foldl_cons, ih, Device.applyCorrection_applying, List.append_assoc, List.singleton_append]

theorem loopCorrectionApply_applies {s : State} {id : Nat} {j : Job} (hj : s.dev.ticks.getLast? = some (id, j)) :
    Completes .loopCorrectionApply s (fun t => t.mem = s.mem ∧
      t.dev.loc.applying = s.dev.loc.applying ++ s.dev.loc.corrections.filter (s.dev.correctionDue j.admitAt)) := by
  refine ⟨_, (show exec .loopCorrectionApply s = execLoopCorrectionApply s from rfl).trans (onDev_next _ s), rfl, rfl, ?_⟩
  dsimp only [State.withDev]
  rw [hj]
  exact applyCorrections_applying _ _

theorem localisationChangesState_holds : localisationChangesState := by
  intro s
  exact ⟨locInitStart_begins, locInitStart_returns, locLostTimeout_loses, locReinitTimeout_returns,
    fun _ _ hj => loopCorrectionApply_applies hj⟩

/-- Settles O48. -/
theorem localisationAnswersAndMoves : Obligations.LocalisationAnswersAndMoves :=
  ⟨localisationCommands_holds, localisationChangesState_holds⟩

end Sys2Proof.Machine
end

section
/-! SUPPORT. The map (O49). -/

namespace Sys2Proof.Machine

/-- A fold that no element moves. -/
theorem foldl_of_fixed {α β : Type} {f : α → β → α} {a : α} (h : ∀ b, f a b = a) (l : List β) : l.foldl f a = a := by
  induction l with
  | nil => rfl
  | cons b l ih => rw [List.foldl_cons, h, ih]

/-- Entries of a table of distinct keys are told apart by their keys. -/
theorem eq_of_nodup_map {α β : Type} {f : α → β} {l : List α} (h : (l.map f).Nodup) {x y : α} (hx : x ∈ l) (hy : y ∈ l)
    (he : f x = f y) : x = y := by
  induction l with
  | nil => cases hx
  | cons a l ih =>
    obtain ⟨ha, hl⟩ := List.nodup_cons.mp (List.map_cons ▸ h)
    obtain rfl | hxl := List.mem_cons.mp hx
    · obtain rfl | hyl := List.mem_cons.mp hy
      · rfl
      · exact absurd (he ▸ List.mem_map_of_mem hyl) ha
    · obtain rfl | hyl := List.mem_cons.mp hy
      · exact absurd (he ▸ List.mem_map_of_mem hxl) ha
      · exact ih hl hxl hyl

/-! ## What a judgement and a commit leave of the map -/

/-- Judging FULL changes nothing else of the map. -/
theorem Device.mapJudge_map (d : Device) : ∃ f, d.mapJudge.map = { d.map with full := f } := by
  unfold Device.mapJudge
  extract_lets f used e
  have he : e.map = d.map := (show d.agrees [.diag] d.mapDiag by simp [Device.mapDiag]).map (by decide)
  clear_value f used e
  split
  · exact ⟨_, he⟩
  · refine ⟨f, ?_⟩
    rw [Device.record_map]
    exact congrArg (fun m : Cairn => { m with full := f }) he

@[simp] theorem Device.mapJudge_objs (d : Device) : d.mapJudge.map.objs = d.map.objs := by
  obtain ⟨f, hf⟩ := d.mapJudge_map
  rw [hf]

@[simp] theorem Device.mapCommit_objs (d : Device) : d.mapCommit.map.objs = d.map.objs := by
  unfold Device.mapCommit
  split
  · rw [Device.mapJudge_objs]
  · rfl

@[simp] theorem Device.mapCommit_opened (d : Device) : d.mapCommit.map.opened = d.map.opened := by
  unfold Device.mapCommit
  split
  · obtain ⟨f, hf⟩ := Device.mapJudge_map { d with map := { d.map with gen := d.map.gen + 1 } }
    rw [hf]
  · rfl

theorem Cairn.newest_congr {m n : Cairn} (h : n.objs = m.objs) (id : Nat) : n.newest id = m.newest id := by
  rw [Cairn.newest, h]
  rfl

/-- The newest version is the one put in front. -/
theorem putVersion_head (g : Nat) (b : Option (List Byte)) (vs : List MapVer) : ∃ ws, putVersion g b vs = ⟨g, b⟩ :: ws := by
  unfold putVersion
  split
  · split <;> exact ⟨_, rfl⟩
  · exact ⟨_, rfl⟩

theorem Cairn.newest_put (m : Cairn) (id g : Nat) (b : Option (List Byte)) (vs : List MapVer) :
    Cairn.newest { m with objs := m.objs.put id (putVersion g b vs) } id = b := by
  obtain ⟨ws, hw⟩ := putVersion_head g b vs
  simp only [Cairn.newest, Tbl.look_put_same, hw]

theorem Device.newest_mapUpdate {d : Device} {id : Nat} {b : List Byte} (hb : d.map.newest id = some b)
    (hroom : d.map.poolUsed (homeDie id) + b.length ≤ d.map.poolSize (homeDie id)) (f : List Byte → List Byte) :
    (d.mapUpdate id f).map.newest id = some (stamped (d.map.gen + 1) (f b)) := by
  simp only [Device.mapUpdate, hb]
  rw [if_neg (Nat.not_lt.mpr hroom)]
  exact Cairn.newest_put _ _ _ _ _

theorem Device.newest_mapDelete (d : Device) (id : Nat) : (d.mapDelete id).map.newest id = none := by
  simp only [Device.mapDelete]
  split
  next h => exact Option.isNone_iff_eq_none.mp h
  · exact Cairn.newest_put _ _ _ _ _

theorem Device.newest_deleteSession {d : Device} {id : Nat} {b : List Byte} (hb : d.session id = some b) :
    (d.deleteSession id).map.newest id = none := by
  simp only [Device.deleteSession, hb]
  exact Device.newest_mapDelete _ _

@[simp] theorem Device.closeOpen_opened (d : Device) : d.closeOpen.map.opened = none := by
  unfold Device.closeOpen
  split
  · assumption
  · rfl

theorem Device.newest_of_session {d : Device} {id : Nat} {b : List Byte} (h : d.session id = some b) :
    d.map.newest id = some b := by
  obtain ⟨c, hc, hk⟩ := Option.bind_eq_some_iff.mp h
  split at hk
  · rw [hc, hk]
  · exact absurd hk nofun

/-! ## Pools -/

/-- Pools given to the powered dies leave the objects. -/
theorem Device.mapPools_keeps {d e : Device} {mib : Nat} (h : d.mapPools mib = some e) :
    e.map.poolMib = mib ∧ e.map.objs = d.map.objs := by
  have hfold : ∀ (ks : List Nat) (x : Device) (y : Device), (ks.foldl (fun (acc : Option Device) k =>
      acc.bind fun d => (d.allocFw 1 k ((mib + 1) / 2)).map fun (id, d) =>
        { d with map := { d.map with pools := d.map.pools.put k id } }) (some x)) = some y →
      y.map.poolMib = x.map.poolMib ∧ y.map.objs = x.map.objs := by
    intro ks
    induction ks with
    | nil =>
      intro x y hy
      cases hy
      exact ⟨rfl, rfl⟩
    | cons k ks ih =>
      intro x y hy
      rw [List.foldl_cons, Option.bind_some] at hy
      cases ha : x.allocFw 1 k ((mib + 1) / 2) with
      | none =>
        rw [ha, Option.map_none, foldl_of_fixed (fun _ => rfl)] at hy
        exact absurd hy nofun
      | some p =>
        obtain ⟨id, z⟩ := p
        rw [ha, Option.map_some] at hy
        have hz : z.map = x.map :=
          ((Device.agrees_of_allocFw ha x (by simp)).mpr (Device.agrees_refl [.memsys] _)).map (by decide)
        have := ih _ _ hy
        dsimp only at this
        rwa [hz] at this
  exact hfold _ _ _ h

@[simp] theorem Device.freePools_objs (d : Device) : d.freePools.map.objs = d.map.objs := rfl

section
variable {s : State} {ch : Fin 8} {r : Request}

theorem mapStatus_reports (hr : s.holds ch 0x0C00 r) : Reports (.mapStatus ch) s ch r (fun p => p.length = 112 ∧
    fieldAt p 0 4 = s.dev.map.gen % 2 ^ 32 ∧ fieldAt p 8 4 = s.dev.map.nextId % 2 ^ 32 ∧
    fieldAt p 40 4 = s.dev.map.kfDropped % 2 ^ 32 ∧ fieldAt p 44 4 = s.dev.map.tileDropped % 2 ^ 32) := by
  refine reports_of_query (show execMapStatus ch s = _ from rfl) hr rfl ?_
  have hkinds : ((List.range 5).flatMap fun k => leBytes 4 (s.dev.map.ofKind (k + 1)).length).length = 20 := by
    simp [List.map_const']
  have hdies : ((List.range 8).flatMap fun k => leBytes 4 (s.dev.map.entries k) ++
      leBytes 4 (s.dev.map.poolFree k / 65536)).length = 64 := by
    simp [List.map_const']
  simp only [List.append_assoc]
  refine ⟨?_, ?_, ?_, ?_, ?_⟩
  · simp only [List.length_append, length_leBytes, length_zeros, hkinds, hdies]
  all_goals simp [fieldAt_skip, fieldAt_head, hkinds]

theorem mapConfig_sets {d : Device} (hr : s.mayConfigure ch setMapConfig r) (hidle : s.dev.mapIdle = true)
    (hpins : s.dev.map.pins = []) (hobjs : s.dev.map.objs = []) (hd : s.dev.freePools.mapPools (r.u 0 2) = some d) :
    Sets (.mapConfig ch) s ch (fun t =>
      t.dev.map.poolMib = r.u 0 2 ∧ t.dev.map.pools = d.map.pools ∧ t.dev.map.objs = []) := by
  refine sets_of_configure (show execMapConfig ch s = _ from rfl) hr (d := d.mapDiag) ?_ ?_
  · simp only [setMapConfig, devBody, mapConfig]
    rw [if_neg (by simp [hidle, hpins, hobjs]), hd]
    rfl
  · obtain ⟨hm, ho⟩ := Device.mapPools_keeps hd
    simp only [State.answered, State.withDev, Device.answer_map]
    rw [(show d.agrees [.diag] d.mapDiag by simp [Device.mapDiag]).map (by decide)]
    exact ⟨hm, rfl, by rw [ho, Device.freePools_objs, hobjs]⟩

/-- A command whose work on what `admitCmd` leaves keeps the jobs admits its job. -/
theorem admits_of_answered {c : Instr} {e f : Device} {id : Nat} {k j : Job} {P : Job → Prop}
    (hexec : exec c s = .next (s.answered ch r f (acceptedWith s.dev.mbx.nextHandle)))
    (hjobs : f.jobs = e.jobs) (hk : e.job id = some k)
    (hj : k = { j with
      handle := some s.dev.mbx.nextHandle, state := .waiting, order := k.order, admitted := k.admitted
      admitAt := k.admitAt })
    (hP : ∀ h n a t, P { j with handle := h, state := .waiting, order := n, admitted := a, admitAt := t }) :
    Admits c s ch P := by
  refine ⟨_, s.dev.mbx.nextHandle, hexec, ?_, rfl, rfl, id, k, ?_, ?_⟩
  · rw [State.answered, State.withDev, Device.answer_formed]
  · rw [State.answered, State.withDev, Device.answer_job, Device.job, hjobs]
    exact hk
  · rw [hj]
    exact ⟨rfl, rfl, hP _ _ _ _⟩

@[simp] theorem Device.raiseIds_jobs (d : Device) (hi : Nat) : (d.raiseIds hi).jobs = d.jobs := by
  unfold Device.raiseIds
  split <;> rfl

theorem mapLoad_admits (hr : s.holds ch 0x0C02 r) (hroom : s.roomy) (hidle : s.dev.mapIdle = true)
    (hrange : s.dev.hostRange (r.u 0 4) (r.u 8 8) (r.u 16 8) = true) :
    Admits (.mapLoad ch) s ch (fun j => j.cls = .map ∧ j.work = .mapLoad ∧ j.arg = r.body) := by
  obtain ⟨id, e, k, he, hk, hj⟩ := admitCmd_room (r := r) hroom.1 hroom.2 ch.val { Job.blank .map .mapLoad with
    arg := r.body, restartMax := s.dev.jobs.restartFw, waitMs := s.dev.jobs.waitFw, grants := [⟨r.u 0 4, 0, 0, 0⟩] }
  have hnext := (show exec (.mapLoad ch) s = execMapLoad ch s from rfl).trans (commandRead_next _ ch _ s r hr)
  dsimp only at hnext
  rw [if_neg (by simp [hidle]), if_neg (by simp [hrange]), he] at hnext
  split at hnext
  · exact admits_of_answered hnext (Device.raiseIds_jobs _ _) hk hj fun _ _ _ _ => ⟨rfl, rfl, rfl⟩
  · exact admits_of_answered hnext rfl hk hj fun _ _ _ _ => ⟨rfl, rfl, rfl⟩

theorem mapExport_admits (hr : s.holds ch 0x0C03 r) (hroom : s.roomy)
    (hlist : (exportList r.body).all (fun id => (s.dev.session id).isSome) = true)
    (hdest : if r.u 0 1 = 0 then s.dev.hostRange (r.u 4 4) (r.u 8 8) 64 = true
      else (s.dev.tx (r.u 0 1 - 1)).enabled = true ∧ s.dev.txUp (r.u 0 1 - 1) = true)
    (hflush : bit (r.u 1 1) 0 = true → s.dev.jobs.profile.uses.elem (13, 0) = true)
    (hrun : (s.dev.jobs.table.filter fun e => e.2.active && e.2.work.isExport).length < 2) :
    Admits (.mapExport ch) s ch (fun j => j.cls = .map ∧ j.work = .mapExport ∧ j.arg = r.body) := by
  obtain ⟨id, e, k, he, hk, hj⟩ := admitCmd_room (r := r) hroom.1 hroom.2 ch.val { Job.blank .map .mapExport with
    arg := r.body, restartMax := s.dev.jobs.restartFw, waitMs := s.dev.jobs.waitFw
    grants := if r.u 0 1 = 0 then [⟨r.u 4 4, 1, 0, 0⟩] else [] }
  have hsess : ((exportList r.body).any fun id => (s.dev.session id).isNone) = false := by
    rw [List.any_eq_false]
    intro i hi
    have := List.all_eq_true.mp hlist i hi
    simpa using Option.isSome_iff_ne_none.mp this
  have hnext := (show exec (.mapExport ch) s = execMapExport ch s from rfl).trans (command_next _ ch _ s r hr)
  dsimp only at hnext
  rw [if_neg, if_neg (by simp [hsess]), if_neg, if_neg (Nat.not_le.mpr hrun), he] at hnext
  · split at hnext
    · exact admits_of_answered hnext rfl hk hj fun _ _ _ _ => ⟨rfl, rfl, rfl⟩
    · exact admits_of_answered hnext rfl hk hj fun _ _ _ _ => ⟨rfl, rfl, rfl⟩
  · by_cases h0 : r.u 0 1 = 0
    · simp [h0]
      simpa using hflush
    · rw [if_neg h0] at hdest
      simp [hdest.1, hdest.2]
      simpa using hflush
  · by_cases h0 : r.u 0 1 = 0
    · rw [if_pos h0] at hdest
      simp [hdest]
    · simp [h0]

theorem mapGet_reports {b : List Byte} (hr : s.holds ch 0x0C04 r) (hb : s.dev.map.newest (r.u 0 4) = some b)
    (h64 : r.u 4 4 % 64 = 0) (hlt : r.u 4 4 < b.length) : Reports (.mapGet ch) s ch r (fun p =>
      fieldAt p 0 4 = recU b 8 4 ∧ fieldAt p 8 4 = r.u 4 4 ∧
      p.drop 12 = slice (recSet b 12 (zeros 4)) (r.u 4 4) (min (r.u 8 2) 4064)) := by
  have hrec : recU b 8 4 % 256 ^ 4 = recU b 8 4 := Nat.mod_eq_of_lt (by
    refine Nat.lt_of_lt_of_le (leNat_lt _) (Nat.pow_le_pow_right (by decide) ?_)
    rw [List.length_take]
    exact Nat.min_le_left _ _)
  have hoff : r.u 4 4 < 4294967296 := r.u_lt 4 4
  refine reports_of_query (show execMapGet ch s = _ from rfl) hr (p := leBytes 4 (recU b 8 4) ++ leBytes 2 (recU b 6 2) ++
    zeros 2 ++ leBytes 4 (r.u 4 4) ++ slice (recSet b 12 (zeros 4)) (r.u 4 4) (min (r.u 8 2) 4064)) ?_ ?_
  · rw [hb]
    dsimp only
    rw [if_neg (by simp [h64, hlt])]
    rfl
  · simp only [List.append_assoc]
    refine ⟨?_, ?_, ?_⟩
    · rw [fieldAt_head, hrec]
    · simp [fieldAt_skip, fieldAt_head, hoff]
    · simp [List.drop_append, List.drop_eq_nil_of_le]

/-- MAP_SESSION of a session that stands does its work. -/
theorem mapSession_next {id : Nat} {b : List Byte} (hr : s.holds ch 0x0C05 r)
    (hsel : (if r.u 0 4 = 0xFFFFFFFF then s.dev.map.opened else some (r.u 0 4)) = some id)
    (hb : s.dev.session id = some b) :
    (r.u 4 1 = 0 → s.dev.map.poolUsed (homeDie id) + b.length ≤ s.dev.map.poolSize (homeDie id) →
      Sets (.mapSession ch) s ch (fun t => t.dev.map.newest id =
        some (stamped (s.dev.map.gen + 1) (recSet (recSet b 26 (r.bytes 6 2)) 112 (r.bytes 8 16))))) ∧
    (r.u 4 1 = 1 → s.dev.map.opened = some id → Sets (.mapSession ch) s ch (fun t => t.dev.map.opened = none)) ∧
    (r.u 4 1 = 2 → s.dev.map.opened ≠ some id → Sets (.mapSession ch) s ch (fun t => t.dev.map.newest id = none)) := by
  have hsome : ¬ ((s.dev.session id).isNone = true) := by rw [hb]; nofun
  refine ⟨fun h0 hroom => ?_, fun h1 ho => ?_, fun h2 ho => ?_⟩
  · refine sets_of_command (show execMapSession ch s = _ from rfl) hr (d := (s.dev.mapUpdate id fun b =>
      recSet (recSet b 26 (r.bytes 6 2)) 112 (r.bytes 8 16)).mapCommit) ?_ ?_
    · dsimp only
      rw [hsel]
      dsimp only
      rw [if_neg hsome, if_pos h0]
      rfl
    · simp only [State.answered, State.withDev, Device.answer_map]
      rw [Cairn.newest_congr (Device.mapCommit_objs _)]
      exact Device.newest_mapUpdate (Device.newest_of_session hb) hroom _
  · refine sets_of_command (show execMapSession ch s = _ from rfl) hr (d := s.dev.closeOpen.mapCommit) ?_ ?_
    · dsimp only
      rw [hsel]
      dsimp only
      rw [if_neg hsome, if_neg (by omega), if_pos h1, if_pos ho]
      rfl
    · simp only [State.answered, State.withDev, Device.answer_map, Device.mapCommit_opened, Device.closeOpen_opened]
  · refine sets_of_command (show execMapSession ch s = _ from rfl) hr (d := (s.dev.deleteSession id).mapCommit) ?_ ?_
    · dsimp only
      rw [hsel]
      dsimp only
      rw [if_neg hsome, if_neg (by omega), if_neg (by omega), if_neg ho]
      rfl
    · simp only [State.answered, State.withDev, Device.answer_map]
      rw [Cairn.newest_congr (Device.mapCommit_objs _)]
      exact Device.newest_deleteSession hb

theorem mapClear_sets (hr : s.holds ch 0x0C06 r) (hidle : s.dev.mapIdle = true) (hpins : s.dev.map.pins = []) :
    Sets (.mapClear ch) s ch (fun t =>
      t.dev.map.objs = [] ∧ t.dev.map.gen = 0 ∧ t.dev.map.nextId = 1 ∧ t.dev.map.opened = none ∧
      t.dev.loc.session = none) := by
  refine sets_of_command (show execMapClear ch s = _ from rfl) hr (if_neg (by simp [hidle, hpins])) ?_
  obtain ⟨d, hd⟩ : ∃ d, d = { s.dev with
        map := { s.dev.map with objs := [], buckets := [], gen := 0, nextId := 1, opened := none, damaged := false }
        loc := { s.dev.loc with session := none, lastKf := none, landmarks := [] } } := ⟨_, rfl⟩
  rw [← hd]
  have hag : d.agrees [.diag, .prs] d.emptyIndex := by simp
  have hloc : d.emptyIndex.mapJudge.loc = d.loc :=
    (show d.agrees [.evt, .diag, .map, .prs] d.emptyIndex.mapJudge by simp).loc (by decide)
  obtain ⟨f, hf⟩ := d.emptyIndex.mapJudge_map
  simp only [State.answered, State.withDev, Device.answer_map, Device.answer_loc]
  rw [hf, hag.map (by decide), hloc, hd]
  exact ⟨rfl, rfl, rfl, rfl, rfl⟩

end

/-! ## Reclamation -/

theorem keepVersions_newest (pins : List Nat) (v : MapVer) (vs : List MapVer) :
    ∃ ws, keepVersions pins none (v :: vs) = v :: ws := by
  rw [keepVersions]
  exact ⟨_, rfl⟩

/-- An object whose newest version has a record is not dead. -/
theorem not_deadEntry {v : MapVer} {vs : List MapVer} (h : v.body.isSome = true) : deadEntry (v :: vs) = false := by
  cases vs with
  | nil => simpa [deadEntry] using h
  | cons w ws => rfl

theorem mapReclaim_reclaims (s : State) : Completes .mapReclaim s (fun t => t.mem = s.mem ∧ t.dev.map.gen = s.dev.map.gen ∧
    t.dev.map.pins = s.dev.map.pins ∧ (∀ e ∈ t.dev.map.objs, deadEntry e.2 = false) ∧
    ((s.dev.map.objs.map (·.1)).Nodup → ∀ e ∈ s.dev.map.objs, ∀ v vs, e.2 = v :: vs → v.body.isSome = true →
      ∃ vs', (e.1, v :: vs') ∈ t.dev.map.objs)) := by
  refine ⟨s.withDev s.dev.mapReclaim, rfl, rfl, rfl, ?_⟩
  dsimp only [State.withDev]
  unfold Device.mapReclaim
  extract_lets m pins objs dead n d'
  obtain ⟨f, hf⟩ := Device.mapJudge_map { d' with map := { m with
    objs := objs.filter fun e => !dead.elem e.1, buckets := m.buckets.filter fun e => !dead.elem e.1 } }
  rw [hf]
  refine ⟨rfl, rfl, fun e he => ?_, fun hnodup e he v vs hv hb => ?_⟩
  · obtain ⟨hm, hk⟩ := List.mem_filter.mp he
    refine Decidable.by_contra fun hd => ?_
    have : e.1 ∈ dead := List.mem_map.mpr ⟨e, List.mem_filter.mpr ⟨hm, by simpa using hd⟩, rfl⟩
    simp [this] at hk
  · obtain ⟨ws, hw⟩ := keepVersions_newest pins v vs
    refine ⟨ws, List.mem_filter.mpr ⟨List.mem_map.mpr ⟨e, he, by rw [hv, hw]⟩, ?_⟩⟩
    have hnot : e.1 ∉ dead := by
      intro hd
      obtain ⟨g, hg, hge⟩ := List.mem_map.mp hd
      obtain ⟨hgm, hgd⟩ := List.mem_filter.mp hg
      obtain ⟨x, hx, rfl⟩ := List.mem_map.mp hgm
      obtain rfl : x = e := eq_of_nodup_map hnodup hx he hge
      rw [hv, hw, not_deadEntry hb] at hgd
      exact absurd hgd nofun
    simpa using hnot

/-- Settles O49. -/
theorem mapCommandsAct : Obligations.MapCommandsAct := by
  intro s ch r
  exact ⟨mapStatus_reports, fun _ hr hidle hpins hobjs hd => mapConfig_sets hr hidle hpins hobjs hd, mapLoad_admits,
    mapExport_admits, fun _ hr hb h64 hlt => mapGet_reports hr hb h64 hlt, fun _ _ hr hsel hb => mapSession_next hr hsel hb,
    mapClear_sets, mapReclaim_reclaims s⟩

end Sys2Proof.Machine
end

section
/-! SUPPORT. Place search (O50). -/

namespace Sys2Proof.Machine

@[simp] theorem Device.prsDiag_prs (d : Device) : d.prsDiag.prs = d.prs :=
  (show d.agrees [.diag] d.prsDiag by simp).prs (by decide)

@[simp] theorem Device.answer_index (d : Device) (ch : Nat) (r : Request) (a : Reply) (i : Nat) :
    (d.answer ch r a).index i = d.index i := by simp [Device.index]

@[simp] theorem Device.prsDiag_index (d : Device) (i : Nat) : d.prsDiag.index i = d.index i := by simp [Device.index]

@[simp] theorem Device.index_setIndex (d : Device) (i : Nat) (x : PrsIndex) : (d.setIndex i x).index i = some x :=
  Tbl.look_put_same _ _ _

@[simp] theorem PrsIndex.shard_setShard (x : PrsIndex) (leaf die : Nat) (es : List PrsEntry) :
    (x.setShard leaf die es).shard leaf die = es := by
  simp only [PrsIndex.setShard, PrsIndex.shard]
  cases es with
  | nil => simp [Tbl.getD, Tbl.look_del_same]
  | cons e es => simp [Tbl.getD_put_same]

section
variable {s : State} {ch : Fin 8} {r : Request}

theorem prsStatus_reports {x : PrsIndex} (hr : s.holds ch 0x0D00 r) (hx : s.dev.index (r.u 0 1) = some x) :
    Reports (.prsStatus ch) s ch r (fun p =>
      p.length = 104 ∧ fieldAt p 4 2 = x.codeBits % 2 ^ 16 ∧ fieldAt p 12 4 = x.epoch % 2 ^ 32) := by
  refine reports_of_query (show execPrsStatus ch s = _ from rfl) hr (by simp only [hx]; rfl) ?_
  have hdies : ((List.range 8).flatMap fun k => leBytes 4 (x.entries k) ++ leBytes 4 (x.freeBlocks k)).length = 64 := by
    simp [List.map_const']
  simp only [List.append_assoc]
  refine ⟨?_, ?_, ?_⟩
  · simp only [List.length_append, length_leBytes, length_zeros, hdies]
  all_goals simp [fieldAt_skip, fieldAt_head]

theorem prsIndex_creates {d : Device} (hr : s.mayConfigure ch setPrsIndex r) (h1 : r.u 1 1 = 0) (hlo : 64 ≤ r.u 2 2)
    (hhi : r.u 2 2 ≤ 1024) (hmod : r.u 2 2 % 64 = 0) (hplo : 64 ≤ r.u 4 4) (hphi : r.u 4 4 ≤ 24576)
    (hfree : if r.u 0 1 = 0 then s.dev.mapIdle = true ∧ s.dev.map.pins = [] else s.dev.index (r.u 0 1) = none)
    (hd : s.dev.newIndex (r.u 0 1) (r.u 2 2) (r.u 4 4) = some d) : Sets (.prsIndex ch) s ch (fun t =>
      ∃ x, t.dev.index (r.u 0 1) = some x ∧ x.codeBits = r.u 2 2 ∧ x.poolMib = r.u 4 4 ∧ x.nodes = [] ∧
        x.shards = [] ∧ x.epoch = 0) := by
  refine sets_of_configure (show execPrsIndex ch s = _ from rfl) hr (d := d) ?_ ?_
  · simp only [setPrsIndex, devBody, prsIndex]
    rw [if_pos h1, if_neg (by simp [hmod]; omega), if_neg, hd]
    · rfl
    · by_cases h0 : r.u 0 1 = 0
      · rw [if_pos h0] at hfree
        simp [h0, hfree.1, hfree.2]
      · rw [if_neg h0] at hfree
        simp [h0, hfree]
  · obtain ⟨⟨t, e⟩, -, rfl⟩ := Option.map_eq_some_iff.mp hd
    simp only [State.answered, State.withDev, Device.answer_index, Device.prsDiag_index, Device.index_setIndex]
    exact ⟨_, rfl, rfl, rfl, rfl, rfl, rfl⟩

theorem prsIndex_deletes {x : PrsIndex} (hr : s.mayConfigure ch setPrsIndex r) (h1 : r.u 1 1 ≠ 0) (h0 : r.u 0 1 ≠ 0)
    (hx : s.dev.index (r.u 0 1) = some x) (hp : s.dev.pinsOn (r.u 0 1) = []) (hu : s.dev.updatesOf (r.u 0 1) = 0) :
    Sets (.prsIndex ch) s ch (fun t => t.dev.index (r.u 0 1) = none) := by
  refine sets_of_configure (show execPrsIndex ch s = _ from rfl) hr (d := { (s.dev.freeBufs x.pools).freeBufs x.copies with
    prs := { ((s.dev.freeBufs x.pools).freeBufs x.copies).prs with
      indexes := ((s.dev.freeBufs x.pools).freeBufs x.copies).prs.indexes.del (r.u 0 1) } }) ?_ ?_
  · simp only [setPrsIndex, devBody, prsIndex]
    rw [if_neg h1, hx]
    dsimp only
    rw [if_neg h0, if_neg (by simp [hp, hu])]
    rfl
  · simp only [State.answered, State.withDev, Device.answer_index]
    exact Tbl.look_del_same _ _

theorem prsConfig_sets (hr : s.mayConfigure ch setPrsConfig r) : Sets (.prsConfig ch) s ch (fun t =>
    t.dev.prs = { s.dev.prs with batchUs := r.u 0 2, compactPct := r.u 2 1 }) :=
  sets_of_configure (show execPrsConfig ch s = _ from rfl) hr rfl
    (by simp only [State.answered, State.withDev, Device.answer_prs, prsConfig])

theorem prsTreeLoad_admits {x : PrsIndex} (hr : s.holds ch 0x0D02 r) (hroom : s.roomy)
    (hx : s.dev.index (r.u 0 1) = some x) (hs : x.shards = []) (hu : s.dev.updatesOf (r.u 0 1) = 0)
    (hmap : r.u 0 1 = 0 → s.dev.map.ofKind 2 = []) (hrange : s.dev.hostRange (r.u 4 4) (r.u 8 8) (r.u 16 8) = true) :
    Admits (.prsTreeLoad ch) s ch (fun j => j.cls = .map ∧ j.work = .prsTree (r.u 0 1)) := by
  refine admits_of_command hr hroom ?_ (show execPrsTreeLoad ch s = _ from rfl) ?_ (j := { Job.blank .map
    (.prsTree (r.u 0 1)) with
      arg := r.body, restartMax := s.dev.jobs.restartFw, waitMs := s.dev.jobs.waitFw, grants := [⟨r.u 4 4, 0, 0, 0⟩] })
  · exact fun _ _ _ _ => ⟨rfl, rfl⟩
  · dsimp only
    rw [hx]
    dsimp only
    rw [if_neg (by simp [hs, hu]; exact hmap), if_neg (by simp [hrange])]

theorem prsUpdate_admits {x : PrsIndex} (hr : s.holds ch 0x0D03 r) (hroom : s.roomy)
    (hx : s.dev.index (r.u 0 1) = some x)
    (hrange : s.dev.hostRange (r.u 8 4) (r.u 16 8) (r.u 4 4 * (8 + x.codeBits / 8)) = true) :
    Admits (.prsUpdate ch) s ch (fun j => j.cls = .user ∧ j.work = .prsUpdate (r.u 0 1)) := by
  refine admits_of_command hr hroom ?_ (show execPrsUpdate ch s = _ from rfl) ?_ (j := { Job.blank .user
    (.prsUpdate (r.u 0 1)) with
      arg := r.body, restartMax := s.dev.jobs.restartFw, waitMs := s.dev.jobs.waitFw, grants := [⟨r.u 8 4, 0, 0, 0⟩] })
  · exact fun _ _ _ _ => ⟨rfl, rfl⟩
  · dsimp only
    rw [hx]
    dsimp only
    rw [if_neg (by simp [hrange])]

theorem prsQuery_admits {x : PrsIndex} (hr : s.holds ch 0x0D04 r) (hroom : s.roomy)
    (hx : s.dev.index (r.u 0 1) = some x) (hk : r.u 6 2 ≤ r.u 8 2) (hmax : r.u 8 2 ≤ 4096)
    (hin : s.dev.hostRange (r.u 16 4) (r.u 24 8) (r.u 12 4 * (8 + x.codeBits / 8)) = true)
    (hout : s.dev.hostRange (r.u 20 4) (r.u 32 8) (r.u 12 4 * (24 + 8 * r.u 4 2)) = true)
    (hfilter : r.u 2 1 ≠ 0 → r.u 56 4 ≠ 0 ∧ r.u 44 4 + r.u 56 4 ≤ 0xFFFFFFFF ∧
      s.dev.hostRange (r.u 40 4) (r.u 48 8) ((r.u 56 4 + 7) / 8) = true) :
    Admits (.prsQuery ch) s ch (fun j => j.cls = .user ∧ j.work = .prsQuery (r.u 0 1)) := by
  obtain ⟨id, e, k, he, hk', hj⟩ := admitCmd_room (r := r) hroom.1 hroom.2 ch.val { Job.blank .user
    (.prsQuery (r.u 0 1)) with
      arg := r.body, restartMax := s.dev.jobs.restartFw, waitMs := s.dev.jobs.waitFw
      grants := [⟨r.u 16 4, 0, 0, 0⟩, ⟨r.u 20 4, 1, 0, 0⟩] ++ (if r.u 2 1 = 0 then [] else [⟨r.u 40 4, 0, 0, 0⟩]) }
  have hnext := (show exec (.prsQuery ch) s = execPrsQuery ch s from rfl).trans (command_next _ ch _ s r hr)
  dsimp only at hnext
  rw [hx] at hnext
  dsimp only at hnext
  rw [if_neg, he] at hnext
  · split at hnext
    · exact admits_of_answered hnext rfl hk' hj fun _ _ _ _ => ⟨rfl, rfl⟩
    · exact admits_of_answered hnext rfl hk' hj fun _ _ _ _ => ⟨rfl, rfl⟩
  · by_cases h0 : r.u 2 1 = 0
    · simp [h0, hin, hout, hk, hmax]
    · obtain ⟨hn, hle, hr3⟩ := hfilter h0
      simp [h0, hin, hout, hk, hmax, hn, hle, hr3]

theorem prsCompact_admits (hr : s.holds ch 0x0D05 r) (hroom : s.roomy) (hx : (s.dev.index (r.u 0 1)).isSome = true) :
    Admits (.prsCompact ch) s ch (fun j => j.cls = .map ∧ j.work = .prsCompact (r.u 0 1)) := by
  refine admits_of_command hr hroom ?_ (show execPrsCompact ch s = _ from rfl) ?_ (j := { Job.blank .map
    (.prsCompact (r.u 0 1)) with
      arg := r.body, restartMax := s.dev.jobs.restartFw, waitMs := s.dev.jobs.waitFw })
  · exact fun _ _ _ _ => ⟨rfl, rfl⟩
  · dsimp only
    rw [if_neg (by simp [Option.isNone_eq_false_iff.mpr hx])]

end

/-! ## Windows and rounds -/

theorem batchWindowClose_takes {s : State} {die : Fin 8} {at_ : Nat} (ht : s.dev.engineTested die.val 3 = false)
    (hw : s.dev.prs.windows.look die.val = some at_) : Completes (.batchWindowClose die) s (fun t => t.mem = s.mem ∧
      t.dev.prs.rounds.look die.val =
        some (((s.dev.prs.rounds.getD die.val []).mergeSort s.dev.roundBefore).drop 1024) ∧
      ((s.dev.prs.rounds.getD die.val []).length ≤ 1024 → t.dev.prs.windows.look die.val = none)) := by
  obtain ⟨adv, hadv⟩ : ∃ f, f = Device.advanceTo := ⟨_, rfl⟩
  obtain ⟨rs, hrs⟩ : ∃ rs, rs = (s.dev.prs.rounds.getD die.val []).mergeSort s.dev.roundBefore := ⟨_, rfl⟩
  have hlen : rs.length = (s.dev.prs.rounds.getD die.val []).length := by rw [hrs, List.length_mergeSort]
  rw [← hrs, ← hlen]
  obtain ⟨t, hexec⟩ : ∃ t, execBatchWindowClose die s = .next t := ⟨_, rfl⟩
  have hnext := hexec
  unfold execBatchWindowClose at hnext
  rw [onDev_next, ← hadv] at hnext
  dsimp only at hnext
  rw [ht, if_neg nofun, hw] at hnext
  dsimp only at hnext
  rw [← hrs] at hnext
  cases hnext
  refine ⟨_, hexec, rfl, rfl, Tbl.look_put_same _ _ _, fun hle => ?_⟩
  have hrest : rs.drop 1024 = [] := List.drop_eq_nil_of_le hle
  dsimp only [State.withDev]
  rw [hrest]
  exact Tbl.look_del_same _ _

theorem roundMerge_widens {s : State} {job n : Nat} {run : PrsRun} {x : PrsIndex}
    (hf : s.dev.prs.runs.find? (fun q => q.job == job && q.n == n) = some run) (hd : run.done = false)
    (hr : run.round.isSome = true) (hw : run.waitOn &&& s.dev.pwr.dieOn = 0) (hx : s.dev.index run.index = some x)
    (hwide : ({ run with found := run.found + run.gotFound } : PrsRun).widens = true) :
    Completes (.roundMerge job n) s (fun t => t.mem = s.mem ∧ ∃ q ∈ t.dev.prs.runs, q.job = job ∧ q.n = n ∧
      q.rounds = run.rounds + 1 ∧ q.found = run.found + run.gotFound ∧ q.waitOn = s.dev.pwr.dieOn) := by
  obtain ⟨hj, hn⟩ : run.job = job ∧ run.n = n := by simpa using List.find?_some hf
  obtain ⟨t, hexec⟩ : ∃ t, execRoundMerge job n s = .next t := ⟨_, rfl⟩
  have hnext := hexec
  unfold execRoundMerge at hnext
  rw [onBoth_next] at hnext
  dsimp only at hnext
  rw [hf] at hnext
  dsimp only at hnext
  obtain ⟨q, hmerged⟩ : ∃ q : PrsRun, q = { run with
    cands := mergeKeys run.k run.cands run.got, found := run.found + run.gotFound
    scanned := run.scanned + run.gotScanned, round := none } := ⟨_, rfl⟩
  have hwider : q.widens = true := by
    rw [hmerged]
    exact hwide
  rw [if_neg (by simp [hd, hw, Option.isNone_eq_false_iff.mpr hr]), hx, ← hmerged] at hnext
  dsimp only at hnext
  rw [if_pos hwider] at hnext
  cases hnext
  rw [hmerged] at hexec
  exact ⟨_, hexec, State.withAll_pending _ _ _, rfl, _, List.mem_append_right _ List.mem_cons_self, hj, hn, rfl, rfl, rfl⟩

/-- A query that is no work of its own job ends with its run done and no result written. -/
theorem prsDone_ends {q : PrsRun} {d : Device} {m : Store} (hq : ∀ i, (d.job q.job).map (·.work) ≠ some (.prsQuery i)) :
    (prsDone q d m).2 = m ∧
      (prsDone q d m).1.prs.runs = (d.setRun { q with done := true, round := none }).prs.runs := by
  obtain ⟨e, he, hjob, hruns⟩ : ∃ e : Device, (if q.qfull then d.diagAdd q.coord 0x0DC 0 16 1 else d) = e ∧
      e.job q.job = d.job q.job ∧ e.prs.runs = d.prs.runs := by
    refine ⟨_, rfl, ?_⟩
    split <;> exact ⟨rfl, rfl⟩
  have hend : (e.setRun { q with done := true, round := none }).prs.runs =
      (d.setRun { q with done := true, round := none }).prs.runs := by
    simp only [Device.setRun, hruns]
  have hset : (e.setRun { q with done := true, round := none }).job q.job = d.job q.job := hjob
  unfold prsDone
  rw [he]
  dsimp only
  rw [hset]
  split
  · exact ⟨rfl, hend⟩
  · next j hj =>
    split
    · next i hw => exact absurd (by rw [hj, Option.map_some, hw]) (hq i)
    · exact ⟨rfl, hend⟩

theorem roundMerge_ends {s : State} {job n : Nat} {run : PrsRun} {x : PrsIndex}
    (hf : s.dev.prs.runs.find? (fun q => q.job == job && q.n == n) = some run) (hd : run.done = false)
    (hr : run.round.isSome = true) (hw : run.waitOn &&& s.dev.pwr.dieOn = 0) (hx : s.dev.index run.index = some x)
    (hwide : ({ run with found := run.found + run.gotFound } : PrsRun).widens = false)
    (hq : ∀ i, (s.dev.job job).map (·.work) ≠ some (.prsQuery i)) :
    Completes (.roundMerge job n) s (fun t => t.mem = s.mem ∧ ∃ q ∈ t.dev.prs.runs, q.job = job ∧ q.n = n ∧
      q.done = true ∧ q.found = run.found + run.gotFound ∧ q.cands = mergeKeys run.k run.cands run.got) := by
  obtain ⟨hj, hn⟩ : run.job = job ∧ run.n = n := by simpa using List.find?_some hf
  obtain ⟨t, hexec⟩ : ∃ t, execRoundMerge job n s = .next t := ⟨_, rfl⟩
  have hnext := hexec
  unfold execRoundMerge at hnext
  rw [onBoth_next] at hnext
  dsimp only at hnext
  rw [hf] at hnext
  dsimp only at hnext
  obtain ⟨q, hmerged⟩ : ∃ q : PrsRun, q = { run with
    cands := mergeKeys run.k run.cands run.got, found := run.found + run.gotFound
    scanned := run.scanned + run.gotScanned, round := none } := ⟨_, rfl⟩
  have hnot : ¬ q.widens = true := by
    rw [hmerged]
    exact fun h => Bool.false_ne_true (hwide.symm.trans h)
  rw [if_neg (by simp [hd, hw, Option.isNone_eq_false_iff.mpr hr]), hx, ← hmerged] at hnext
  dsimp only at hnext
  rw [if_neg hnot] at hnext
  have hqj : q.job = run.job := by rw [hmerged]
  obtain ⟨hmem, hruns⟩ := prsDone_ends (q := q) (d := s.dev) (m := s.mem) (by rw [hqj, hj]; exact hq)
  cases hnext
  refine ⟨_, hexec, State.withAll_pending _ _ _, hmem, { q with done := true, round := none }, ?_, ?_⟩
  · refine (congrArg (List.Mem _) hruns).mpr (List.mem_map.mpr ⟨run, List.mem_of_find?_eq_some hf, ?_⟩)
    simp [hmerged]
  · simp [hmerged, hj, hn]

theorem shardCompaction_compacts {s : State} {die : Fin 8} {index leaf : Nat} {x : PrsIndex}
    (hx : s.dev.index index = some x) (hw : s.dev.prs.windows.look die.val = none) (hdom : s.dev.domainOn die.val 10 = true)
    (hask : ∃ c ∈ s.dev.prs.compacts, c.2 = (die.val, index, leaf))
    (hdead : ∃ e ∈ x.shard leaf die.val, e.reclaimable (s.dev.minPin index) = true)
    (hroom : x.blocks ((x.shard leaf die.val).filter fun e => !e.reclaimable (s.dev.minPin index)).length ≤
      x.freeBlocks die.val) : Completes (.shardCompaction die index leaf) s (fun t => t.mem = s.mem ∧
      (t.dev.index index).map (·.shard leaf die.val) =
        some ((x.shard leaf die.val).filter fun e => !e.reclaimable (s.dev.minPin index))) := by
  have hasks : (s.dev.prs.compacts.filter fun c => c.2 == (die.val, index, leaf)).isEmpty = false := by
    obtain ⟨c, hc, he⟩ := hask
    rw [List.isEmpty_eq_false_iff_exists_mem]
    exact ⟨c, List.mem_filter.mpr ⟨hc, by simpa using he⟩⟩
  have hn : ((x.shard leaf die.val).filter fun e => e.reclaimable (s.dev.minPin index)).length ≠ 0 := by
    obtain ⟨e, he, hre⟩ := hdead
    exact Nat.ne_of_gt (List.length_pos_of_mem (List.mem_filter.mpr ⟨he, hre⟩))
  refine ⟨_, (show exec (.shardCompaction die index leaf) s = execShardCompaction die index leaf s from rfl).trans
    (onDev_next _ s), rfl, rfl, ?_⟩
  dsimp only [State.withDev]
  rw [hx]
  dsimp only
  rw [if_neg (by simp [hw, hdom]), if_neg (by simp [hasks]), if_neg (by simp [hn]; omega), Device.prsDiag_index]
  refine (congrArg (Option.map _) (Device.index_setIndex s.dev index _)).trans ?_
  rw [Option.map_some, PrsIndex.shard_setShard]

/-- Settles O50. -/
theorem placeSearchAnswers : Obligations.PlaceSearchAnswers := by
  intro s ch r
  exact ⟨fun _ hr hx => prsStatus_reports hr hx,
    fun _ hr h1 hlo hhi hmod hplo hphi hfree hd => prsIndex_creates hr h1 hlo hhi hmod hplo hphi hfree hd,
    fun _ hr h1 h0 hx hp hu => prsIndex_deletes hr h1 h0 hx hp hu, prsConfig_sets,
    fun _ hr hroom hx hs hu hmap hrange => prsTreeLoad_admits hr hroom hx hs hu hmap hrange,
    fun _ hr hroom hx hrange => prsUpdate_admits hr hroom hx hrange,
    fun _ hr hroom hx hk hmax hin hout hfilter => prsQuery_admits hr hroom hx hk hmax hin hout hfilter,
    prsCompact_admits, fun _ _ ht hw => batchWindowClose_takes ht hw,
    fun _ _ _ _ hf hd hr hw hx => ⟨fun hwide => roundMerge_widens hf hd hr hw hx hwide,
      fun hwide hq => roundMerge_ends hf hd hr hw hx hwide hq⟩,
    fun _ _ _ _ hx hw hdom hask hdead hroom => shardCompaction_compacts hx hw hdom hask hdead hroom⟩

end Sys2Proof.Machine
end

section
/-! SUPPORT. The transmit ports (O51). -/

namespace Sys2Proof.Machine

/-! ## Ports and routes through the shared operations -/

@[simp] theorem Device.finishOpt_out (d : Device) (h : Option Nat) (st : Nat) (b : List Byte) :
    (d.finishOpt h st b).out = d.out :=
  (show d.agrees [.evt, .mbx] (d.finishOpt h st b) by simp).out (by decide)

@[simp] theorem Device.tx_finishOpt (d : Device) (h : Option Nat) (st : Nat) (b : List Byte) (p : Nat) :
    (d.finishOpt h st b).tx p = d.tx p := by simp [Device.tx]

@[simp] theorem Device.tx_setTx (d : Device) (p : Nat) (x : TxPort) : (d.setTx p x).tx p = x := Tbl.getD_put_same _ _ _ _

@[simp] theorem Device.route_setRoute (d : Device) (dt p : Nat) (r : Route) : (d.setRoute dt p r).route_ dt p = r :=
  Tbl.getD_put_same _ _ _ _

@[simp] theorem Device.route_setTx (d : Device) (dt p q : Nat) (x : TxPort) : (d.setTx q x).route_ dt p = d.route_ dt p := rfl

@[simp] theorem Device.tx_advanceTo (d : Device) (moment p : Nat) : (d.advanceTo moment).tx p = d.tx p :=
  congrArg (fun o : Outputs => o.ports.getD p TxPort.reset) ((d.agrees_clock moment).out (by decide))

@[simp] theorem Device.route_advanceToDev (d : Device) (moment dt p : Nat) :
    (d.advanceToDev moment).route_ dt p = d.route_ dt p :=
  congrArg (fun o : Outputs => o.routes.getD (routeKey dt p) Route.reset) ((d.agrees_clockDev moment).out (by decide))

@[simp] theorem Device.tx_answer (d : Device) (ch : Nat) (r : Request) (a : Reply) (p : Nat) :
    (d.answer ch r a).tx p = d.tx p := by simp [Device.tx]

@[simp] theorem Device.route_answer (d : Device) (ch : Nat) (r : Request) (a : Reply) (dt p : Nat) :
    (d.answer ch r a).route_ dt p = d.route_ dt p := by simp [Device.route_]

@[simp] theorem Device.route_dropMsg (d : Device) (p : Nat) (m : OutMsg) (dt q : Nat) :
    (d.dropMsg p m).route_ dt q = d.route_ dt q := by simp [Device.dropMsg, Device.route_, Device.setTx]

/-- A dropped message moves the counters of its port alone. -/
theorem Device.tx_dropMsg (d : Device) (p : Nat) (m : OutMsg) : (d.dropMsg p m).tx p = { d.tx p with
    dropped := bump (d.tx p).dropped m.dt, marks := insertNat m.dt (d.tx p).marks } := by
  simp only [Device.dropMsg, Device.tx_finishOpt, Device.tx_setTx]

@[simp] theorem Device.route_enqueueMsg (d : Device) (p : Nat) (m : OutMsg) (dt q : Nat) :
    (d.enqueueMsg p m).route_ dt q = d.route_ dt q := by
  unfold Device.enqueueMsg
  split
  · exact Device.route_dropMsg _ _ _ _ _
  · extract_lets x same victim e y
    have he : e.route_ dt q = d.route_ dt q := by
      change Device.route_ (match victim with | none => d | some v => _) dt q = _
      cases victim with
      | none => rfl
      | some v => exact Device.route_dropMsg _ _ _ _ _
    exact he

/-- A message whose type has no limit in the queue joins it behind the others. -/
theorem Device.tx_enqueueMsg {d : Device} {p : Nat} {m : OutMsg} (hdt : m.dt = 0x36) (he : (d.tx p).enabled = true)
    (hup : d.txUp p = true) : ((d.enqueueMsg p m).tx p).queue = (d.tx p).queue ++ [m] := by
  unfold Device.enqueueMsg
  rw [if_neg (by simp [he, hup])]
  simp [hdt]

theorem Device.route_formOn {d : Device} {p dt : Nat} (hon : (d.route_ dt p).on = true) (dts : BitVec 128)
    (body : List Byte) (segs : List (Nat × Nat × Nat)) : (d.formOn p dt dts body segs).route_ dt p =
      { d.route_ dt p with seq := ((d.route_ dt p).seq + 1) % 2 ^ 32 } := by
  unfold Device.formOn
  extract_lets x
  rw [if_neg (by simp [x, hon]), Device.route_enqueueMsg, Device.route_setRoute]

/-- A port that drops messages keeps its settings and its queue. -/
theorem Device.tx_foldl_dropMsg (p : Nat) (ms : List OutMsg) (d : Device) :
    ((ms.foldl (fun (d : Device) m => d.dropMsg p m) d).tx p).enabled = (d.tx p).enabled ∧
      ((ms.foldl (fun (d : Device) m => d.dropMsg p m) d).tx p).queue = (d.tx p).queue := by
  induction ms generalizing d with
  | nil => exact ⟨rfl, rfl⟩
  | cons m ms ih =>
    obtain ⟨h₁, h₂⟩ := ih (d.dropMsg p m)
    rw [List.foldl_cons, h₁, h₂, Device.tx_dropMsg]
    exact ⟨rfl, rfl⟩

/-- A port that is disabled by command lets the part on the wire finish and keeps no message. -/
theorem Device.txDown_disables (d : Device) (p : Nat) :
    ((d.txDown p false).tx p).enabled = false ∧ ((d.txDown p false).tx p).queue = [] := by
  obtain ⟨hen, hqueue⟩ := Device.tx_foldl_dropMsg p (d.tx p).queue (d.setTx p { d.tx p with
    queue := [], enabled := (d.tx p).enabled && false })
  have hen' := hen.trans (congrArg TxPort.enabled (Device.tx_setTx _ _ _) |>.trans (Bool.and_false _))
  have hqueue' := hqueue.trans (congrArg TxPort.queue (Device.tx_setTx _ _ _))
  unfold Device.txDown
  dsimp only
  split
  · exact ⟨hen', hqueue'⟩
  · rw [Bool.not_false, if_pos rfl]
    exact ⟨hen', hqueue'⟩

/-! ## Commands -/

section
variable {s : State} {ch : Fin 8} {r : Request}

theorem outPort_disables (hr : s.mayConfigure ch setOutPort r) (hd : s.dev.pwr.dieOn.getLsbD (r.u 0 1) = true)
    (h0 : r.u 1 1 = 0) :
    Sets (.outPort ch) s ch (fun t => (t.dev.tx (r.u 0 1)).enabled = false ∧ (t.dev.tx (r.u 0 1)).queue = []) := by
  refine sets_of_configure (show execOutPort ch s = _ from rfl) hr (d := s.dev.txDown (r.u 0 1) false) ?_ ?_
  · simp only [setOutPort, devBody, outPort]
    rw [if_neg (by simp [hd]), if_pos h0]
    rfl
  · simp only [State.answered, State.withDev, Device.tx_answer]
    exact Device.txDown_disables _ _

theorem outPort_enables (hr : s.mayConfigure ch setOutPort r) (hd : s.dev.pwr.dieOn.getLsbD (r.u 0 1) = true)
    (h0 : r.u 1 1 ≠ 0) (hl : [1, 2, 4].elem (r.u 2 1) = true) (hc : r.u 3 1 ≤ 1) (hrlo : 80 ≤ r.u 4 2)
    (hrhi : r.u 4 2 ≤ 4500) (hnlo : 256 ≤ r.u 6 2) (hnhi : r.u 6 2 ≤ 8192) (hn64 : r.u 6 2 % 64 = 0)
    (hplo : 4096 ≤ r.u 8 4) (hphi : r.u 8 4 ≤ 4194304) (hp64 : r.u 8 4 % 64 = 0)
    (hfit : partFits (partLines (r.u 6 2) (r.u 8 4)) (r.u 6 2) (r.u 2 1) (r.u 4 2) = true)
    (hq : ∀ q ∈ (s.dev.tx (r.u 0 1)).startedParts, partFits q.1 q.2 (r.u 2 1) (r.u 4 2) = true) :
    Sets (.outPort ch) s ch (fun t => t.dev.tx (r.u 0 1) = { s.dev.tx (r.u 0 1) with
      enabled := true, lanes := r.u 2 1, clock := r.u 3 1, rate := r.u 4 2, lineBytes := r.u 6 2
      partBytes := r.u 8 4 }) := by
  have hany : ((s.dev.tx (r.u 0 1)).startedParts.any fun q => !partFits q.1 q.2 (r.u 2 1) (r.u 4 2)) = false :=
    List.any_eq_false.mpr fun q hm => by simp [hq q hm]
  refine sets_of_configure (show execOutPort ch s = _ from rfl) hr (d := s.dev.setTx (r.u 0 1) { s.dev.tx (r.u 0 1) with
      enabled := true, lanes := r.u 2 1, clock := r.u 3 1, rate := r.u 4 2, lineBytes := r.u 6 2
      partBytes := r.u 8 4 }) ?_ ?_
  · simp only [setOutPort, devBody, outPort]
    rw [if_neg (by simp [hd]), if_neg h0, hl, hfit, hany, hn64, hp64, if_neg (by simp; omega)]
    rfl
  · simp only [State.answered, State.withDev, Device.tx_answer, Device.tx_setTx]

theorem outRoute_guard (h32 : r.u 0 1 ≠ 0x32 → r.u 4 1 = 0) (h34 : r.u 0 1 ≠ 0x34 → r.u 6 2 = 0)
    (hp : r.u 6 2 = 0 ∨ 100 ≤ r.u 6 2 ∧ r.u 6 2 ≤ 60000) :
    ¬ ((decide (r.u 0 1 ≠ 0x32) && decide (r.u 4 1 ≠ 0) || decide (r.u 0 1 ≠ 0x34) && decide (r.u 6 2 ≠ 0) ||
      decide (r.u 6 2 ≠ 0) && (decide (r.u 6 2 < 100) || decide (60000 < r.u 6 2))) = true) := by
  simp only [Bool.or_eq_true, Bool.and_eq_true, decide_eq_true_eq]
  omega

theorem outRoute_clears (hr : s.mayConfigure ch setOutRoute r) (h32 : r.u 0 1 ≠ 0x32 → r.u 4 1 = 0)
    (h34 : r.u 0 1 ≠ 0x34 → r.u 6 2 = 0) (hp : r.u 6 2 = 0 ∨ 100 ≤ r.u 6 2 ∧ r.u 6 2 ≤ 60000) (h0 : r.u 2 1 = 0) :
    Sets (.outRoute ch) s ch (fun t => (t.dev.route_ (r.u 0 1) (r.u 1 1)).on = false) := by
  refine sets_of_configure (show execOutRoute ch s = _ from rfl) hr (d := s.dev.setRoute (r.u 0 1) (r.u 1 1)
    { s.dev.route_ (r.u 0 1) (r.u 1 1) with on := false }) ?_ ?_
  · simp only [setOutRoute, devBody, outRoute]
    rw [if_neg (outRoute_guard h32 h34 hp), if_pos h0]
    rfl
  · simp only [State.answered, State.withDev, Device.route_answer, Device.route_setRoute]

theorem outRoute_routes (hr : s.mayConfigure ch setOutRoute r) (h32 : r.u 0 1 ≠ 0x32 → r.u 4 1 = 0)
    (h34 : r.u 0 1 ≠ 0x34 → r.u 6 2 = 0) (hp : r.u 6 2 = 0 ∨ 100 ≤ r.u 6 2 ∧ r.u 6 2 ≤ 60000) (h0 : r.u 2 1 ≠ 0)
    (ht : s.dev.routeTight (r.u 0 1) (r.u 1 1) (r.u 4 1) = false) : Sets (.outRoute ch) s ch (fun t =>
      (t.dev.route_ (r.u 0 1) (r.u 1 1)).on = true ∧ (t.dev.route_ (r.u 0 1) (r.u 1 1)).vc = r.u 3 1 ∧
      (t.dev.route_ (r.u 0 1) (r.u 1 1)).pairs = r.u 4 1 ∧ (t.dev.route_ (r.u 0 1) (r.u 1 1)).period = r.u 6 2) := by
  refine sets_of_configure (show execOutRoute ch s = _ from rfl) hr (d := (outRoute r s.dev).1) ?_ ?_
  · simp only [setOutRoute, devBody, outRoute]
    rw [if_neg (outRoute_guard h32 h34 hp), if_neg h0, if_neg (by simp [ht])]
    rfl
  · simp only [State.answered, State.withDev, Device.route_answer, outRoute]
    rw [if_neg (outRoute_guard h32 h34 hp), if_neg h0, if_neg (by simp [ht])]
    simp only [Device.route_setRoute, and_self]

theorem outStatus_reports (hr : s.holds ch 0x0E02 r) : Reports (.outStatus ch) s ch r (fun p => p.length = 96 ∧
    fieldAt p 4 8 = (s.dev.tx (r.u 0 1)).bytes % 2 ^ 64) := by
  refine reports_of_query (show execOutStatus ch s = _ from rfl) hr rfl ⟨?_, ?_⟩
  · simp [length_zeros, List.map_const']
  · simp only [List.append_assoc]
    simp [fieldAt_skip, fieldAt_head]

theorem outBulk_accepts {b : Buffer} (hr : s.holds ch 0x0E03 r) (hh : isHostBuf (r.u 4 4) = true)
    (hready : s.dev.bufReady (r.u 4 4) = true) (hb : s.dev.buf (r.u 4 4) = some b) (hle : r.u 8 8 + r.u 16 8 ≤ b.size)
    (h0 : r.u 16 8 ≠ 0) (he : (s.dev.tx (r.u 0 1)).enabled = true) (hup : s.dev.txUp (r.u 0 1) = true)
    (hroom : s.dev.mbx.handles.length < 256) : Accepts (.outBulk ch) s ch (fun h t => t.mem = s.mem ∧
      ∃ m ∈ (t.dev.tx (r.u 0 1)).queue, m.dt = 0x36 ∧ m.vc = r.u 1 1 ∧ m.segs = [(r.u 4 4, r.u 8 8, r.u 16 8)] ∧
        m.handle = some h) := by
  refine accepts_of_command (show execOutBulk ch s = _ from rfl) hr hroom (k := fun h d =>
    d.sendOn (r.u 0 1) 0x36 (r.u 1 1) d.stamp [] [(r.u 4 4, r.u 8 8, r.u 16 8)] (some h)) ?_ fun h _ => ⟨rfl, ?_⟩
  · dsimp only
    rw [hb]
    dsimp only
    rw [if_neg (by simp [hh, hready, hle, h0]), if_neg (by simp [he, hup])]
  · simp only [State.answered, State.withDev, Device.tx_answer, Device.sendOn]
    rw [Device.tx_enqueueMsg rfl]
    · exact ⟨_, List.mem_append_right _ List.mem_cons_self, rfl, rfl, rfl, rfl⟩
    · rw [Device.tx_setTx]
      exact he
    · exact hup

theorem eventGet_reports (hr : s.holds ch 0x0E04 r) : Reports (.eventGet ch) s ch r (fun p =>
    fieldAt p 4 2 = ((s.dev.evt.events.filter fun e => r.u 0 4 ≤ e.seq).take (r.u 4 2)).length % 2 ^ 16 ∧
    p.drop 12 = ((s.dev.evt.events.filter fun e => r.u 0 4 ≤ e.seq).take (r.u 4 2)).flatMap (·.bytes)) := by
  refine reports_of_query (show execEventGet ch s = _ from rfl) hr rfl ⟨?_, ?_⟩
  · simp only [List.append_assoc]
    change _ = _ % 256 ^ 2
    rw [fieldAt_skip (by simp), length_leBytes, fieldAt_head]
  · exact List.drop_left' (by simp [length_zeros])

end

/-! ## Parts and messages -/

section
variable {s : State} {port : Fin 2}

theorem txPartSend_sends {y x : OutMsg} {bs : List Byte} (hw : (s.dev.tx port.val).wire = none)
    (he : (s.dev.tx port.val).enabled = true) (hup : s.dev.txUp port.val = true)
    (hp : (s.dev.tx port.val).pick = some y) (hc : y.cancel = false)
    (hx : x = (if y.started = true then y else { y with
      lineBytes := (s.dev.tx port.val).lineBytes, partBytes := (s.dev.tx port.val).partBytes
      dropped := (s.dev.tx port.val).marks.elem y.dt })) (hbs : x.payload s.dev s.mem = .ok bs) :
    Completes (.txPartSend port) s (fun t => t.mem = s.mem ∧ ∃ w, (t.dev.tx port.val).wire = some w ∧ w.dt = y.dt ∧
      w.last = (x.part + 1 == x.parts) ∧ w.startAt = s.dev.time.now ∧
      (t.dev.tx port.val).frame = fit (w.lines * w.lineBytes) (x.header bs ++ bs)) := by
  have hdt : x.dt = y.dt := by
    rw [hx]
    split <;> rfl
  have hsame : s.dev.wireDone port.val = s.dev := by
    unfold Device.wireDone
    rw [hw]
  obtain ⟨t, hexec⟩ : ∃ t, execTxPartSend port s = .next t := ⟨_, rfl⟩
  have hnext := hexec
  unfold execTxPartSend at hnext
  rw [onBoth_next] at hnext
  dsimp only at hnext
  rw [hsame, if_neg (by simp [he, hup]), hp] at hnext
  dsimp only at hnext
  rw [if_neg (by simp [hc]), ← hx, hbs] at hnext
  cases hnext
  refine ⟨_, hexec, State.withAll_pending _ _ _, rfl, ?_⟩
  simp only [State.withAll, Device.putPart, Device.tx_setTx]
  exact ⟨_, rfl, hdt, rfl, rfl, rfl⟩

/-- A part that has left is counted, and no part is on the wire. -/
theorem Device.tx_wireDone {d : Device} {p : Nat} {w : Wire} (hw : (d.tx p).wire = some w) :
    (d.wireDone p).tx p = { d.tx p with
      wire := none, bytes := ((d.tx p).bytes + w.lines * w.lineBytes) % 2 ^ 64
      sent := if w.last then bump (d.tx p).sent w.dt else (d.tx p).sent } := by
  unfold Device.wireDone
  rw [hw]
  dsimp only
  split
  · rw [Device.tx_finishOpt, Device.tx_setTx, Device.tx_advanceTo]
  · rw [Device.tx_setTx, Device.tx_advanceTo]

/-- An empty queue has no next message. -/
theorem TxPort.pick_none {x : TxPort} (hq : x.queue = []) : x.pick = none := by
  simp [TxPort.pick, hq]

theorem txPartSend_counts {w : Wire} (hw : (s.dev.tx port.val).wire = some w) (hq : (s.dev.tx port.val).queue = []) :
    Completes (.txPartSend port) s (fun t => t.mem = s.mem ∧ (t.dev.tx port.val).wire = none ∧
      (t.dev.tx port.val).bytes = ((s.dev.tx port.val).bytes + w.lines * w.lineBytes) % 2 ^ 64) := by
  have htx := Device.tx_wireDone hw
  obtain ⟨e, he⟩ : ∃ e, e = s.dev.wireDone port.val := ⟨_, rfl⟩
  obtain ⟨t, hexec⟩ : ∃ t, execTxPartSend port s = .next t := ⟨_, rfl⟩
  have hnext := hexec
  unfold execTxPartSend at hnext
  rw [onBoth_next] at hnext
  dsimp only at hnext
  rw [← he] at hnext htx
  have hpick : (e.tx port.val).pick = none := TxPort.pick_none (by rw [htx]; exact hq)
  rw [hpick] at hnext
  dsimp only at hnext
  rw [ite_self] at hnext
  cases hnext
  refine ⟨_, hexec, State.withAll_pending _ _ _, rfl, ?_⟩
  simp only [State.withAll, htx, and_self]

theorem eventMsgForm_reads (hon : (s.dev.route_ 0x34 port.val).on = true)
    (hex : ∃ e ∈ s.dev.evt.events, (s.dev.route_ 0x34 port.val).cursor ≤ e.seq) :
    Completes (.eventMsgForm port) s (fun t => t.mem = s.mem ∧ (t.dev.route_ 0x34 port.val).cursor = t.dev.evt.evSeq) := by
  have hpend : (s.dev.evt.events.filter fun e => (s.dev.route_ 0x34 port.val).cursor ≤ e.seq).isEmpty = false := by
    obtain ⟨e, hm, hle⟩ := hex
    rw [List.isEmpty_eq_false_iff_exists_mem]
    exact ⟨e, List.mem_filter.mpr ⟨hm, by simpa using hle⟩⟩
  obtain ⟨adv, hadv⟩ : ∃ f, f = Device.advanceToDev := ⟨_, rfl⟩
  refine ⟨_, (show exec (.eventMsgForm port) s = execEventMsgForm port s from rfl).trans (onDev_next _ s), rfl, rfl, ?_⟩
  rw [← hadv]
  dsimp only [State.withDev]
  rw [if_neg (by simp [hon, hpend]), Device.route_setRoute]
  rfl

theorem diagMsgForm_forms (hon : (s.dev.route_ 0x34 port.val).on = true)
    (hp : (s.dev.route_ 0x34 port.val).period ≠ 0)
    (hdue : (s.dev.route_ 0x34 port.val).diagAt ≤ s.dev.time.ns16 + (s.dev.route_ 0x34 port.val).period * oneMs) :
    Completes (.diagMsgForm port) s (fun t => t.mem = s.mem ∧
      (t.dev.route_ 0x34 port.val).diagAt =
        (s.dev.route_ 0x34 port.val).diagAt + (s.dev.route_ 0x34 port.val).period * oneMs ∧
      (t.dev.route_ 0x34 port.val).seq = ((s.dev.route_ 0x34 port.val).seq + 1) % 2 ^ 32) := by
  refine ⟨_, (show exec (.diagMsgForm port) s = execDiagMsgForm port s from rfl).trans (onDev_next _ s), rfl, rfl, ?_⟩
  generalize oneMs = ms at hdue ⊢
  dsimp only [State.withDev]
  rw [if_neg (by simp [hon, hp]), if_neg (by omega), Device.route_setRoute,
    Device.route_formOn (by rw [Device.route_advanceToDev]; exact hon), Device.route_advanceToDev]
  exact ⟨rfl, rfl⟩

end

/-- Settles O51. -/
theorem outputsSend : Obligations.OutputsSend := by
  intro s ch r port
  exact ⟨fun hr hd => ⟨outPort_disables hr hd,
      fun h0 hl hc hrlo hrhi hnlo hnhi hn64 hplo hphi hp64 hfit hq =>
        outPort_enables hr hd h0 hl hc hrlo hrhi hnlo hnhi hn64 hplo hphi hp64 hfit hq⟩,
    fun hr h32 h34 hp => ⟨outRoute_clears hr h32 h34 hp, outRoute_routes hr h32 h34 hp⟩, outStatus_reports,
    fun _ hr hh hready hb hle h0 he hup hroom => outBulk_accepts hr hh hready hb hle h0 he hup hroom,
    eventGet_reports, fun _ _ _ hw he hup hp hc hx hbs => txPartSend_sends hw he hup hp hc hx hbs,
    fun _ hw hq => txPartSend_counts hw hq, eventMsgForm_reads, diagMsgForm_forms⟩

end Sys2Proof.Machine
end

section
/-! SUPPORT. CAN FD guidance (O52). -/

namespace Sys2Proof.Machine

/-! ## Guidance through the shared operations -/

@[simp] theorem Device.setGuide_guide (d : Device) (g : Guide) : (d.setGuide g).out.guide = g := rfl

@[simp] theorem Device.guideTo_guide (d : Device) (st why : Nat) :
    (d.guideTo st why).out.guide = { d.out.guide with state := st, reason := why } := by
  unfold Device.guideTo
  extract_lets g e
  split
  · rfl
  · rw [Device.record_out]
    rfl

@[simp] theorem Device.canSends_guideTo (d : Device) (st why k : Nat) : (d.guideTo st why).canSends k = d.canSends k := by
  unfold Device.guideTo
  extract_lets g e
  split
  · rfl
  · simp only [Device.canSends, Device.record_ing, Device.record_pwr]
    rfl

@[simp] theorem Device.guide_advanceToDev (d : Device) (moment : Nat) : (d.advanceToDev moment).out = d.out :=
  (d.agrees_clockDev moment).out (by decide)

@[simp] theorem Device.canSends_advanceToDev (d : Device) (moment k : Nat) :
    (d.advanceToDev moment).canSends k = d.canSends k := by
  have hing := (d.agrees_clockDev moment).ing (by decide)
  have hpwr := (d.agrees_clockDev moment).pwr (by decide)
  simp only [Device.canSends, hing, hpwr]

/-- A guidance frame has 24 bytes (R709). -/
theorem Device.length_guideFrame (d : Device) (rec_ : List Byte) (age conf state reason : Nat) (e : Option GuideErr) :
    (d.guideFrame rec_ age conf state reason e).length = 24 := by
  simp [Device.guideFrame]

/-- A frame handed over is the last one; it waits when the controller sends, and nothing else of guidance that an instant
sets moves. -/
theorem Device.handFrame_guide (d : Device) (frame : List Byte) : (d.handFrame frame).out.guide.last = frame ∧
    (d.handFrame frame).out.guide.select = d.out.guide.select ∧
    (d.canSends d.out.guide.ctrl = true → (d.handFrame frame).out.guide.waiting = some frame) := by
  unfold Device.handFrame
  extract_lets g g'
  cases hsend : d.canSends d.out.guide.ctrl with
  | true =>
    rw [if_neg (by simp)]
    exact ⟨rfl, rfl, fun _ => rfl⟩
  | false =>
    rw [if_pos (by simp)]
    exact ⟨rfl, rfl, nofun⟩

/-- An instant (R707 to R710) hands over a frame of the state it found, with nothing selected any more. -/
theorem Device.guideAt_hands (d : Device) (at_ : Nat) (rec_ : List Byte) : ∃ (e : Device) (frame : List Byte),
    e.out.guide.select = none ∧ e.out.guide.ctrl = d.out.guide.ctrl ∧ e.canSends d.out.guide.ctrl =
      d.canSends d.out.guide.ctrl ∧ frame.length = 24 ∧ d.guideAt at_ rec_ = (e.handFrame frame).setGuide
        { (e.handFrame frame).out.guide with nextAt := at_ + 1000 / d.out.guide.rate * oneMs } := by
  unfold Device.guideAt
  extract_lets g g' flags age conf path e
  have hsel : g'.select = none ∧ g'.ctrl = d.out.guide.ctrl ∧ g'.rate = d.out.guide.rate := by
    change Guide.select (match d.out.guide.select with | some k => _ | none => _) = none ∧
      Guide.ctrl (match d.out.guide.select with | some k => _ | none => _) = _ ∧
      Guide.rate (match d.out.guide.select with | some k => _ | none => _) = _
    cases hs : d.out.guide.select with
    | some k => exact ⟨rfl, rfl, rfl⟩
    | none => exact ⟨hs, rfl, rfl⟩
  clear_value g' age conf path
  obtain ⟨hselect, hctrl, hrate⟩ := hsel
  rw [← hrate]
  obtain ⟨⟨st, why⟩, hrow⟩ : ∃ row, e.guideRow flags conf path at_ = row := ⟨_, rfl⟩
  rw [hrow]
  dsimp only
  have hguide : (e.guideTo st why).out.guide = { g' with state := st, reason := why } := Device.guideTo_guide e st why
  have hsend (k : Nat) : (e.guideTo st why).canSends k = d.canSends k := Device.canSends_guideTo e st why k
  cases path with
  | none =>
    exact ⟨e.guideTo st why, _, (congrArg Guide.select hguide).trans hselect, (congrArg Guide.ctrl hguide).trans hctrl,
      hsend _, Device.length_guideFrame _ _ _ _ _ _ _, rfl⟩
  | some p =>
    dsimp only
    refine ⟨_, _, ?_, ?_, ?_, Device.length_guideFrame _ _ _ _ _ _ _, rfl⟩
    · exact (congrArg Guide.select hguide).trans hselect
    · exact (congrArg Guide.ctrl hguide).trans hctrl
    · exact hsend _

/-- What an instant leaves: the next instant due, the selection taken, a frame of 24 bytes handed to a controller that
sends. -/
theorem Device.guideAt_leaves (d : Device) (at_ : Nat) (rec_ : List Byte) :
    (d.guideAt at_ rec_).out.guide.nextAt = at_ + 1000 / d.out.guide.rate * oneMs ∧
    (d.guideAt at_ rec_).out.guide.select = none ∧ (d.guideAt at_ rec_).out.guide.last.length = 24 ∧
    (d.canSends d.out.guide.ctrl = true →
      (d.guideAt at_ rec_).out.guide.waiting = some (d.guideAt at_ rec_).out.guide.last) := by
  obtain ⟨e, frame, hsel, hctrl, hsend, hlen, hat⟩ := d.guideAt_hands at_ rec_
  obtain ⟨hlast, hselect, hwaits⟩ := e.handFrame_guide frame
  rw [hctrl, hsend] at hwaits
  rw [hat, Device.setGuide_guide]
  dsimp only
  exact ⟨rfl, hselect.trans hsel, (congrArg List.length hlast).trans hlen,
    fun hs => (hwaits hs).trans (congrArg some hlast.symm)⟩

theorem Device.bufRead_mbx (d : Device) (x : Mbx) : Device.bufRead { d with mbx := x } = d.bufRead := rfl

theorem fwRead_mbx (d : Device) (x : Mbx) : fwRead { d with mbx := x } = fwRead d := rfl

/-! ## Commands -/

section
variable {s : State} {ch : Fin 8} {r : Request}

theorem guideConfig_disables (hr : s.mayConfigure ch setGuideConfig r) (h0 : r.u 1 1 % 2 = 0) :
    Sets (.guideConfig ch) s ch (fun t => t.dev.out.guide.enable = false ∧ t.dev.out.guide.state = 0 ∧
      t.dev.out.guide.waiting = none) := by
  refine sets_of_configure (show execGuideConfig ch s = _ from rfl) hr
    (d := (s.dev.setGuide { s.dev.out.guide with enable := false, waiting := none }).guideTo 0 0) ?_ ?_
  · simp only [setGuideConfig, devBody, guideConfig]
    rw [if_pos h0]
    rfl
  · simp only [State.answered, State.withDev, Device.answer_out, Device.guideTo_guide, Device.setGuide_guide, and_self]

theorem guideConfig_enables (hr : s.mayConfigure ch setGuideConfig r) (h1 : r.u 1 1 % 2 = 1)
    (hrate : [10, 20, 25, 40, 50, 100, 125, 200].elem (r.u 2 1) = true) (hk : r.u 0 1 ≤ 1) (hlo : 100 ≤ r.u 12 2)
    (hhi : r.u 12 2 ≤ 10000) (hwlo : 8 ≤ r.u 16 2) (hwhi : r.u 16 2 ≤ 1024)
    (hid : r.u 4 4 < (if bit (r.u 1 1) 1 = true then 2 ^ 29 else 2 ^ 11)) (hd : s.dev.pwr.dieOn.getLsbD 0 = true)
    (hfd : (s.dev.ing.can.getD (r.u 0 1) CanCtrl.reset).enable = true →
      (s.dev.ing.can.getD (r.u 0 1) CanCtrl.reset).fd = true) :
    Sets (.guideConfig ch) s ch (fun t => t.dev.out.guide = { s.dev.out.guide with
      enable := true, ext := bit (r.u 1 1) 1, allowDegraded := bit (r.u 1 1) 2, ctrl := r.u 0 1, rate := r.u 2 1
      minConf := r.u 3 1, canId := r.u 4 4, cpX := r.i 8 2, cpY := r.i 10 2, lookahead := r.u 12 2
      maxXte := r.u 14 2, window := r.u 16 2, maxExtrap := r.u 18 1
      nextAt := s.dev.nextMultiple (1000 / r.u 2 1) }) := by
  have hid' : ¬ (if bit (r.u 1 1) 1 = true then 2 ^ 29 else 2 ^ 11) ≤ r.u 4 4 := Nat.not_le.mpr hid
  have hcan : ((s.dev.ing.can.getD (r.u 0 1) CanCtrl.reset).enable &&
      !(s.dev.ing.can.getD (r.u 0 1) CanCtrl.reset).fd) = false := by
    cases he : (s.dev.ing.can.getD (r.u 0 1) CanCtrl.reset).enable with
    | true => simp [hfd he]
    | false => rfl
  refine sets_of_configure (show execGuideConfig ch s = _ from rfl) hr (d := (guideConfig r s.dev).1) ?_ ?_
  · simp only [setGuideConfig, devBody, guideConfig]
    rw [if_neg (by omega), hrate, decide_eq_false hid', if_neg (by simp; omega), if_neg (by simp [hd]), hcan, if_neg nofun]
    rfl
  · simp only [State.answered, State.withDev, Device.answer_out, guideConfig]
    rw [if_neg (by omega), hrate, decide_eq_false hid', if_neg (by simp; omega), if_neg (by simp [hd]), hcan, if_neg nofun]
    rfl

theorem guideSelect_selects (hr : s.mayConfigure ch setGuideSelect r)
    (hk : r.u 0 1 ≠ 0xFF → (s.dev.out.guide.stores.look (r.u 0 1)).isSome = true) :
    Sets (.guideSelect ch) s ch (fun t => t.dev.out.guide = { s.dev.out.guide with
      select := some (if r.u 0 1 = 0xFF then none else some (r.u 0 1)) }) := by
  refine sets_of_configure (show execGuideSelect ch s = _ from rfl) hr (d := s.dev.setGuide { s.dev.out.guide with
      select := some (if r.u 0 1 = 0xFF then none else some (r.u 0 1)) }) ?_ ?_
  · simp only [setGuideSelect, devBody, guideSelect]
    rw [if_neg]
    · rfl
    · simp only [Bool.and_eq_true, decide_eq_true_eq, not_and]
      intro h
      simpa [Option.isSome_iff_ne_none] using hk h
  · simp only [State.answered, State.withDev, Device.answer_out, Device.setGuide_guide]

theorem guideStatus_reports (hr : s.holds ch 0x0E13 r) : Reports (.guideStatus ch) s ch r (fun p =>
    p.drop 24 = s.dev.out.guide.last ∧ fieldAt p 0 1 = s.dev.out.guide.state % 256 ∧
    fieldAt p 12 4 = s.dev.out.guide.sent % 2 ^ 32) := by
  refine reports_of_query (show execGuideStatus ch s = _ from rfl) hr rfl ⟨?_, ?_, ?_⟩
  · exact List.drop_left' (by simp [length_zeros])
  all_goals
    simp only [List.append_assoc, List.flatMap_cons]
    simp [fieldAt_skip, fieldAt_head]

theorem guidePath_stores {b : List Byte} (hr : s.holds ch 0x0E11 r) (hact : s.dev.out.guide.active ≠ some (r.u 0 1))
    (hsel : s.dev.out.guide.select ≠ some (some (r.u 0 1))) (hh : isHostBuf (r.u 4 4) = true)
    (hready : s.dev.bufReady (r.u 4 4) = true) (hsize : r.u 8 8 + 64 ≤ (s.dev.buf (r.u 4 4)).elim 0 (·.size))
    (hroom : s.dev.mbx.handles.length < 256)
    (hb : s.dev.bufRead s.mem (r.u 4 4) (r.u 8 8) (min (64 + 24 * pathPts (fwRead s.dev s.mem (r.u 4 4) (r.u 8 8) 64))
      ((s.dev.buf (r.u 4 4)).elim 0 (·.size) - r.u 8 8)) = .ok b) :
    Accepts (.guidePath ch) s ch (fun h t => t.mem = s.mem ∧
      match pathCheck b ((s.dev.buf (r.u 4 4)).elim 0 (·.size) - r.u 8 8) with
      | some _ => t.dev.ended h = some 0x13 ∧ t.dev.out = s.dev.out
      | none => t.dev.ended h = some 0 ∧ t.dev.out.guide.stores.look (r.u 0 1) = some b) := by
  refine accepts_of_commandRead (show execGuidePath ch s = _ from rfl) hr hroom
    ((if_neg (by simp [hact, hsel])).trans (if_neg (by simp [hh, hready]; omega))) fun h hh => ⟨rfl, ?_⟩
  subst hh
  have hb' : Device.bufRead { s.dev with mbx := s.dev.mbx.taking ch.val 0x0E11 } s.mem (r.u 4 4) (r.u 8 8)
    (min (64 + 24 * pathPts (fwRead { s.dev with mbx := s.dev.mbx.taking ch.val 0x0E11 } s.mem (r.u 4 4) (r.u 8 8) 64))
      ((s.dev.buf (r.u 4 4)).elim 0 (·.size) - r.u 8 8)) = .ok b := by
    rw [fwRead_mbx, Device.bufRead_mbx]
    exact hb
  dsimp only [State.answered, State.withDev]
  rw [hb']
  dsimp only
  cases pathCheck b ((s.dev.buf (r.u 4 4)).elim 0 (·.size) - r.u 8 8) with
  | some e => exact ⟨ended_answer_finish rfl _ _ _, by rw [Device.answer_out, Device.finish_out]⟩
  | none =>
    refine ⟨ended_answer_finish rfl _ _ _, ?_⟩
    rw [Device.answer_out, Device.finish_out]
    exact Tbl.look_put_same _ _ _

end

/-! ## Instants and frames -/

section
variable {s : State}

/-- The instant that is due happens with the record of its millisecond. -/
theorem guideInstant_next {rec_ : List Byte} (he : s.dev.out.guide.enable = true) (h0 : s.dev.out.guide.rate ≠ 0)
    (hdue : s.dev.out.guide.nextAt ≤ s.dev.time.ns16 + 1000 / s.dev.out.guide.rate * oneMs)
    (hrec : s.dev.guideRecord s.dev.out.guide.nextAt = some rec_) : exec .guideInstant s = .next (s.withDev
      ((s.dev.advanceToDev s.dev.out.guide.nextAt).guideAt s.dev.out.guide.nextAt rec_)) := by
  obtain ⟨adv, hadv⟩ : ∃ f, f = Device.advanceToDev := ⟨_, rfl⟩
  obtain ⟨ms, hms⟩ : ∃ n, n = oneMs := ⟨_, rfl⟩
  have hmax : max 1 s.dev.out.guide.rate = s.dev.out.guide.rate := Nat.max_eq_right (Nat.pos_of_ne_zero h0)
  change execGuideInstant s = _
  unfold execGuideInstant
  rw [onDev_next, ← hadv, ← hms]
  rw [← hms] at hdue
  dsimp only
  rw [hmax, if_neg (by simp [he]), if_neg (Nat.not_lt.mpr hdue), hrec]

theorem guideInstant_hands {rec_ : List Byte} (he : s.dev.out.guide.enable = true) (h0 : s.dev.out.guide.rate ≠ 0)
    (hdue : s.dev.out.guide.nextAt ≤ s.dev.time.ns16 + 1000 / s.dev.out.guide.rate * oneMs)
    (hrec : s.dev.guideRecord s.dev.out.guide.nextAt = some rec_) :
    Completes .guideInstant s (fun t => t.mem = s.mem ∧
      t.dev.out.guide.nextAt = s.dev.out.guide.nextAt + 1000 / s.dev.out.guide.rate * oneMs ∧
      t.dev.out.guide.select = none ∧ t.dev.out.guide.last.length = 24 ∧
      (s.dev.canSends s.dev.out.guide.ctrl = true → t.dev.out.guide.waiting = some t.dev.out.guide.last)) := by
  have hnext := guideInstant_next he h0 hdue hrec
  have hout := Device.guide_advanceToDev s.dev s.dev.out.guide.nextAt
  have hsend := Device.canSends_advanceToDev s.dev s.dev.out.guide.nextAt s.dev.out.guide.ctrl
  generalize s.dev.advanceToDev s.dev.out.guide.nextAt = x at hnext hout hsend
  have hleaves := x.guideAt_leaves s.dev.out.guide.nextAt rec_
  rw [hout, hsend] at hleaves
  exact ⟨_, hnext, rfl, rfl, hleaves⟩

theorem guidanceFrameTx_counts {f : List Byte} (hw : s.dev.out.guide.waiting = some f) :
    Completes .guidanceFrameTx s (fun t => t.mem = s.mem ∧ t.dev.out.guide.waiting = none ∧
      if s.dev.canSends s.dev.out.guide.ctrl = true then
        t.dev.out.guide.sent = min 0xFFFFFFFF (s.dev.out.guide.sent + 1) ∧
        t.dev.out.guide.counter = (s.dev.out.guide.counter + 1) % 16
      else t.dev.out.guide.notSent = min 0xFFFFFFFF (s.dev.out.guide.notSent + 1)) := by
  refine ⟨_, (show exec .guidanceFrameTx s = execGuidanceFrameTx s from rfl).trans (onDev_next _ s), rfl, rfl, ?_⟩
  dsimp only [State.withDev]
  rw [hw]
  dsimp only
  split
  · exact ⟨rfl, rfl, rfl⟩
  · exact ⟨rfl, rfl⟩

end

/-- Settles O52. -/
theorem guidanceFollowsItsPath : Obligations.GuidanceFollowsItsPath := by
  intro s ch r
  exact ⟨fun hr => ⟨guideConfig_disables hr, fun h1 hrate hk hlo hhi hwlo hwhi hid hd hfd =>
      guideConfig_enables hr h1 hrate hk hlo hhi hwlo hwhi hid hd hfd⟩,
    fun _ hr hact hsel hh hready hsize hroom hb => guidePath_stores hr hact hsel hh hready hsize hroom hb,
    guideSelect_selects, guideStatus_reports, fun _ he h0 hdue hrec => guideInstant_hands he h0 hdue hrec,
    fun _ hw => guidanceFrameTx_counts hw⟩

end Sys2Proof.Machine
end

section
/-! SUPPORT. Self-test and field repair (O53). -/

namespace Sys2Proof.Machine

/-! ## Runs through the shared operations -/

/-- A slice that becomes due leaves its run in the table, whatever job it was given. -/
theorem Device.stDue_keeps (d : Device) (h : Nat) (r : StRun) : ∃ job, (d.stDue h r).st.runs.look h = some { r with job := job } := by
  unfold Device.stDue
  split
  · exact ⟨r.job, Tbl.look_put_same _ _ _⟩
  · extract_lets budget j
    split
    · exact ⟨_, Tbl.look_put_same _ _ _⟩
    · exact ⟨_, Tbl.look_put_same _ _ _⟩

/-- A run that ends is in the table no more. -/
theorem Device.stFinish_leaves (d : Device) (h : Nat) (r : StRun) : (d.stFinish h r).st.runs.look h = none := by
  unfold Device.stFinish
  dsimp only
  rw [Device.finish_st]
  exact Tbl.look_del_same _ _

theorem StRun.current_lt {r : StRun} {y : StSlice} (h : r.current = some y) : r.results.length < r.slices.length := by
  obtain ⟨hlt, -⟩ := List.getElem?_eq_some_iff.mp h
  exact hlt

/-- The end of the present slice passes its run on (R775, R785). -/
theorem Device.stEnd_passed {d : Device} {h : Nat} {r : StRun} {y : StSlice} {outcome n : Nat} {t : State}
    (hy : r.current = some y) (ht : t.dev = d.stEnd h r outcome n) : StRun.passed h r outcome t := by
  have hlt := StRun.current_lt hy
  unfold Device.stEnd at ht
  dsimp only at ht
  unfold StRun.passed
  rw [List.length_append, List.length_singleton] at ht
  by_cases hend : r.results.length + 1 = r.slices.length
  · rw [if_pos hend] at ht
    rw [if_neg (fun hc => absurd hc.1 (by omega)), ht]
    exact Device.stFinish_leaves _ _ _
  · rw [if_neg hend] at ht
    cases hc : r.cancel with
    | true =>
      rw [if_pos hc] at ht
      rw [if_neg (fun hc => Bool.noConfusion hc.2), ht]
      exact Device.stFinish_leaves _ _ _
    | false =>
      rw [if_neg (by rw [hc]; exact Bool.false_ne_true)] at ht
      rw [if_pos ⟨by omega, rfl⟩, ht]
      obtain ⟨job, hlook⟩ := Device.stDue_keeps _ h _
      exact ⟨_, n, hlook, rfl, rfl⟩

/-- The slice under test is the present one of a run of the table, with a job. -/
theorem Device.stTesting_some {d : Device} {h : Nat} {x : StRun} {y : StSlice} {job : Nat}
    (ht : d.stTesting h = some (x, y, job)) : d.st.runs.look h = some x ∧ x.current = some y := by
  unfold Device.stTesting at ht
  split at ht
  · cases ht
  · next r hr =>
    split at ht
    · next x' job' hx hj =>
      obtain ⟨-, he⟩ := Option.ite_none_right_eq_some.mp ht
      cases he
      exact ⟨hr, hx⟩
    · cases ht

/-! ## Commands -/

section
variable {s : State} {ch : Fin 8} {r : Request}

/-- The save buffers of a run come out of the memory system alone. -/
theorem stSaves_agrees {kind : Nat} {xs : List StSlice} {ks : List Nat} {d e : Device} {t save : Tbl Nat}
    (h : stSaves kind xs ks d t = some (save, e)) : d.agrees [.memsys] e := by
  induction ks generalizing d t with
  | nil =>
    cases h
    exact Device.agrees_refl _ _
  | cons k ks ih =>
    rw [stSaves] at h
    split at h
    · exact ih h
    · split at h
      · next id x hx =>
        exact ((Device.agrees_of_allocFw hx d (by simp)).mpr (Device.agrees_refl [.memsys] _)).trans (ih h)
      · cases h

/-- A run that ends completes the handle it was given. -/
theorem Device.stFinish_ended {d e : Device} {op : Nat} {q : StRun} {a : Reply} {c : Nat} (he : e.mbx = d.mbx.taking c op)
    (hc : q.cancel = false) (c' : Nat) (r' : Request) :
    ((e.stFinish d.mbx.nextHandle q).answer c' r' a).ended d.mbx.nextHandle = some 0 := by
  have hfree : (q.save.foldl (fun (d : Device) e => d.freeBuf e.2) e).mbx = e.mbx :=
    (show e.agrees [.memsys] (e.freeBufs q.save) by simp).mbx (by decide)
  unfold Device.stFinish
  dsimp only
  rw [hc, if_neg Bool.false_ne_true]
  generalize q.save.foldl (fun (d : Device) e => d.freeBuf e.2) e = f at hfree ⊢
  exact ended_answer_finish (d := d) (e := { f with st := { f.st with runs := f.st.runs.del d.mbx.nextHandle } })
    (hfree.trans he) stOk q.result c'

theorem stRun_accepts {xs : List StSlice} {save : Tbl Nat} {d : Device} (hr : s.holds ch 0x0F00 r)
    (hxs : xs = stSlices (r.u 0 1) (r.u 3 1) (BitVec.ofNat 8 (r.u 4 1)) (r.u 10 2) (r.u 12 2) (r.u 16 8))
    (hok : stRunOk r s.dev xs = true) (hready : s.dev.boot.ready = true)
    (hres : xs.any (s.dev.stReserved (r.u 0 1)) = false) (htwo : s.dev.st.runs.length < 2)
    (hsave : stSaves (r.u 0 1) xs (List.range 8) s.dev [] = some (save, d)) (hroom : s.dev.mbx.handles.length < 256) :
    Accepts (.stRun ch) s ch (fun h t => t.mem = s.mem ∧
      if xs = [] then t.dev.ended h = some 0
      else ∃ q, t.dev.st.runs.look h = some q ∧ q.slices = xs ∧ q.results = [] ∧ q.save = save ∧ q.testing = false) := by
  have hm : d.mbx = s.dev.mbx := (stSaves_agrees hsave).mbx (by decide)
  obtain ⟨e, he⟩ : ∃ e, stRunCmd ch.val r s.dev = (e, acceptedWith s.dev.mbx.nextHandle) ∧
      (if xs = [] then e = Device.stFinish { d with mbx := s.dev.mbx.taking ch.val r.op } s.dev.mbx.nextHandle
        (stNew r { d with mbx := s.dev.mbx.taking ch.val r.op } s.dev.mbx.nextHandle xs save)
      else e = Device.stDue { d with mbx := s.dev.mbx.taking ch.val r.op } s.dev.mbx.nextHandle
        (stNew r { d with mbx := s.dev.mbx.taking ch.val r.op } s.dev.mbx.nextHandle xs save)) := by
    unfold stRunCmd
    dsimp only
    rw [← hxs, if_neg (by simp [hok]), if_neg (by simp [hready, hres]), if_neg (Nat.not_le.mpr htwo), hsave]
    dsimp only
    rw [hm, Mbx.newHandle_some _ _ _ hroom]
    cases xs with
    | nil => exact ⟨_, rfl, rfl⟩
    | cons x xs => exact ⟨_, rfl, rfl⟩
  obtain ⟨hcmd, hend⟩ := he
  have hnext := (show exec (.stRun ch) s = execStRun ch s from rfl).trans (command_next _ ch _ s r hr)
  rw [hcmd] at hnext
  refine ⟨_, _, hnext, Device.answer_formed _ _ _ _, rfl, rfl, ?_⟩
  split at hend
  · rw [if_pos (by assumption), hend]
    exact Device.stFinish_ended rfl rfl _ _
  · rw [if_neg (by assumption), hend]
    obtain ⟨job, hlook⟩ := Device.stDue_keeps { d with mbx := s.dev.mbx.taking ch.val r.op } s.dev.mbx.nextHandle
      (stNew r { d with mbx := s.dev.mbx.taking ch.val r.op } s.dev.mbx.nextHandle xs save)
    simp only [State.answered, State.withDev, Device.answer_st]
    exact ⟨_, hlook, rfl, rfl, rfl, rfl⟩

theorem stProgress_reports {x : StRun} (hr : s.holds ch 0x0F01 r) (hx : s.dev.st.runs.look (r.u 0 4) = some x) :
    Reports (.stProgress ch) s ch r (fun p => p.length = 16 ∧ fieldAt p 0 2 = x.slices.length % 2 ^ 16 ∧
      fieldAt p 2 2 = x.results.length % 2 ^ 16 ∧ fieldAt p 9 1 = if x.testing = true then 2 else 0) := by
  refine reports_of_query (show execStProgress ch s = _ from rfl) hr (by simp only [hx]; rfl) ?_
  simp only [List.append_assoc]
  refine ⟨by simp [length_zeros], ?_, ?_, ?_⟩
  · simp [fieldAt_head]
  · simp [fieldAt_skip, fieldAt_head]
  · cases x.testing <;> simp [fieldAt_skip, fieldAt_head]

theorem stFuseStatus_reports (hr : s.holds ch 0x0F03 r) : Reports (.stFuseStatus ch) s ch r (fun p => p.length = 32 ∧
    fieldAt p 2 1 = (32 - (s.dev.fuse.fieldRecords 0).length) % 256) := by
  refine reports_of_query (show execStFuseStatus ch s = _ from rfl) hr rfl ⟨?_, ?_⟩
  · simp [length_zeros, List.map_const']
  · rw [show List.range 8 = 0 :: [1, 2, 3, 4, 5, 6, 7] from rfl, List.flatMap_cons]
    simp only [List.append_assoc]
    simp [fieldAt_skip, fieldAt_head]

/-! ## Field repair -/

/-- Fusing goes on with its first entry that is not skipped, or ends. -/
theorem Device.fuseNext_eq (d : Device) (f : Fusing) (hc : f.cancel = false) :
    if (f.left.any Option.isSome) = true then ∃ g, (d.fuseNext f).st.fusing = some g ∧ g.handle = f.handle ∧ g.die = f.die
    else ∃ out, d.fuseNext f = Device.finish { d with st := { d.st with fusing := none } } f.handle stOk out := by
  have hskip (xs : List (Option Word)) (out : List Byte) :
      (fuseSkip xs out).1.isEmpty = !(xs.any Option.isSome) := by
    induction xs generalizing out with
    | nil => rfl
    | cons x xs ih =>
      cases x with
      | none =>
        rw [fuseSkip, ih]
        rfl
      | some w => rfl
  unfold Device.fuseNext
  dsimp only
  rw [hskip, hc, if_neg Bool.false_ne_true]
  cases f.left.any Option.isSome with
  | true =>
    rw [if_pos rfl, if_neg (by simp)]
    exact ⟨_, rfl, rfl, rfl⟩
  | false =>
    rw [if_neg Bool.false_ne_true, Bool.not_false, if_pos rfl]
    exact ⟨_, rfl⟩

/-- Fusing changes no fuse but by a record blown. -/
theorem Device.fuseNext_fuse (d : Device) (f : Fusing) : (d.fuseNext f).fuse = d.fuse := by
  unfold Device.fuseNext
  extract_lets x
  split
  · exact Device.finish_fuse _ _ _ _
  · split
    · exact Device.finish_fuse _ _ _ _
    · rfl

theorem stFuse_accepts (hr : s.holds ch 0x0F02 r) (hhot : s.dev.hot = false) (hf : s.dev.st.fusing = none)
    (hroom : s.dev.mbx.handles.length < 256) (hn : (s.dev.fuse.fieldRecords (r.u 0 1)).length + r.u 1 1 ≤ 32) :
    Accepts (.stFuse ch) s ch (fun h t => t.mem = s.mem ∧ t.dev.fuse = s.dev.fuse ∧
      if ((List.range (r.u 1 1)).any fun i => (s.dev.fusable (r.u 0 1) (r.u (8 + i) 1)).isSome) = true then
        ∃ f, t.dev.st.fusing = some f ∧ f.handle = h ∧ f.die = r.u 0 1
      else t.dev.st.fusing = none ∧ t.dev.ended h = some 0) := by
  refine accepts_of_command (show execStFuse ch s = _ from rfl) hr hroom
    ((if_neg (by simp [hhot, hf])).trans (if_neg (Nat.not_lt.mpr hn))) fun h hh => ⟨rfl, ?_, ?_⟩
  · simp only [State.answered, State.withDev, Device.answer_fuse, Device.fuseNext_fuse]
  · subst hh
    have hnext := Device.fuseNext_eq { s.dev with mbx := s.dev.mbx.taking ch.val 0x0F02 } ⟨s.dev.mbx.nextHandle, r.u 0 1,
      (List.range (r.u 1 1)).map fun i => s.dev.fusable (r.u 0 1) (r.u (8 + i) 1), [], false⟩ rfl
    simp only [List.any_map, Function.comp_def] at hnext
    split
    · next hany =>
      rw [if_pos hany] at hnext
      simp only [State.answered, State.withDev, Device.answer_st]
      exact hnext
    · next hany =>
      rw [if_neg hany] at hnext
      obtain ⟨out, hout⟩ := hnext
      refine ⟨?_, ?_⟩
      · simp only [State.answered, State.withDev, Device.answer_st]
        exact (congrArg (·.st.fusing) hout).trans (by rw [Device.finish_st])
      · exact (congrArg (fun d : Device => (d.answer ch.val r _).ended _) hout).trans
          (ended_answer_finish (d := s.dev) rfl _ _ _)

theorem fuseRecordBlow_blows {ok : Bool} {f : Fusing} {w : Word} {rest : List (Option Word)}
    (hf : s.dev.st.fusing = some f) (hl : f.left = some w :: rest) :
    Completes (.fuseRecordBlow ok) s (fun t => t.mem = s.mem ∧
      t.dev.fuse.fieldRecords f.die = s.dev.fuse.fieldRecords f.die ++ [⟨w, .good, ok⟩] ∧
      (∀ k, k ≠ f.die → t.dev.fuse.fieldRecords k = s.dev.fuse.fieldRecords k)) := by
  obtain ⟨fuse, hfuse⟩ : ∃ x, x = { s.dev.fuse with
    repairs := s.dev.fuse.repairs.put f.die (s.dev.fuse.fieldRecords f.die ++ [(⟨w, .good, ok⟩ : FuseRecord)]) } := ⟨_, rfl⟩
  have hsame : fuse.fieldRecords f.die = s.dev.fuse.fieldRecords f.die ++ [⟨w, .good, ok⟩] := by
    rw [hfuse]
    exact Tbl.getD_put_same _ _ _ _
  have hother (k : Nat) (hk : k ≠ f.die) : fuse.fieldRecords k = s.dev.fuse.fieldRecords k := by
    rw [hfuse]
    exact Tbl.getD_put_other _ _ _ _ _ hk
  refine ⟨_, (show exec (.fuseRecordBlow ok) s = execFuseRecordBlow ok s from rfl).trans (onDev_next _ s), rfl, rfl, ?_⟩
  dsimp only [State.withDev]
  rw [hf]
  dsimp only
  rw [hl]
  dsimp only
  rw [Device.fuseNext_fuse, ← hfuse]
  split
  · exact ⟨hsame, hother⟩
  · exact ⟨hsame, hother⟩

end

/-! ## Slices -/

section
variable {s : State} {h : Nat} {x : StRun} {y : StSlice}

theorem stSliceStart_off (hx : s.dev.st.runs.look h = some x) (ht : x.testing = false) (hy : x.current = some y)
    (hup : s.dev.stUp x.kind y = false) :
    Completes (.stSliceStart h) s (fun t => t.mem = s.mem ∧ StRun.passed h x 8 t) := by
  have hstart : stStart h s.dev s.mem = (s.dev.stEnd h x 8 0, s.mem) := by
    unfold stStart
    rw [hx]
    dsimp only
    rw [if_neg (by simp [ht]), hy]
    dsimp only
    rw [if_pos (by simp [hup])]
  refine ⟨_, (show exec (.stSliceStart h) s = execStSliceStart h s from rfl).trans (onBoth_next _ s),
    State.withAll_pending _ _ _, ?_⟩
  rw [hstart]
  exact ⟨rfl, Device.stEnd_passed hy rfl⟩

/-- A save buffer allotted leaves the run as it was apart from its buffers. -/
theorem Device.stSave_run {d : Device} {r q : StRun} {b : Option Nat} {e : Device}
    (hz : d.stSave r y = some (b, q, e)) : ∃ save, q = { r with save := save } := by
  unfold Device.stSave at hz
  dsimp only at hz
  split at hz
  · cases hz
    exact ⟨_, rfl⟩
  · split at hz
    · cases hz
      exact ⟨_, rfl⟩
    · obtain ⟨p, -, he⟩ := Option.map_eq_some_iff.mp hz
      cases he
      exact ⟨_, rfl⟩

theorem stBegin_begins {job : Nat} {d : Device} {m : Store} {z : Option Nat × StRun × Device} (hz : d.stSave x y = some z) :
    ∃ q, (stBegin h job x y d m).1.st.runs.look h = some q ∧ q.testing = true ∧ q.attempts = x.attempts + 1 ∧
      q.results = x.results := by
  obtain ⟨b, q, e⟩ := z
  obtain ⟨save, rfl⟩ := Device.stSave_run hz
  unfold stBegin
  rw [hz]
  exact ⟨_, Tbl.look_put_same _ _ _, rfl, rfl, rfl⟩

theorem stSliceStart_begins {job : Nat} {j : Job} {z : Option Nat × StRun × Device}
    (hx : s.dev.st.runs.look h = some x) (ht : x.testing = false) (hy : x.current = some y)
    (hup : s.dev.stUp x.kind y = true) (hjob : x.job = some job) (hj : s.dev.job job = some j) (hw : j.state = .waiting)
    (hclk : s.dev.stClockOk x.kind x.clkMin y = true) (hv : x.voids = 0 ∨ x.heldFrom + oneMs ≤ s.dev.time.now)
    (hsoft : s.dev.boot.soft.length + 16 ≤ 256) (hfree : s.dev.stFree x.kind job y = true)
    (hmom : s.dev.stMoment x.kind (stBudget x.kind x.mode y.target (s.dev.stClock x.kind y)) y = true)
    (hz : s.dev.stSave x y = some z) : Completes (.stSliceStart h) s (fun t =>
      ∃ q, t.dev.st.runs.look h = some q ∧ q.testing = true ∧ q.attempts = x.attempts + 1 ∧ q.results = x.results) := by
  obtain ⟨ms, hms⟩ : ∃ n, n = oneMs := ⟨_, rfl⟩
  obtain ⟨budget, hbudget⟩ : ∃ f, f = stBudget := ⟨_, rfl⟩
  rw [← hms] at hv
  rw [← hbudget] at hmom
  have hvoid : ¬ (decide (0 < x.voids) && decide (s.dev.time.now < x.heldFrom + ms)) = true := by
    simp only [Bool.and_eq_true, decide_eq_true_eq]
    omega
  have hstart : stStart h s.dev s.mem = stBegin h job x y s.dev s.mem := by
    unfold stStart
    rw [hx, ← hms, ← hbudget]
    dsimp only
    rw [if_neg (by simp [ht]), hy]
    dsimp only
    rw [if_neg (by simp [hup]), hjob]
    dsimp only
    rw [hj]
    dsimp only
    rw [if_neg (by simp [hw]), if_neg (by simp [hclk]), if_neg hvoid, hfree, hmom,
      if_neg (by simp only [Bool.not_true, Bool.or_false, decide_eq_true_eq]; omega)]
  refine ⟨_, (show exec (.stSliceStart h) s = execStSliceStart h s from rfl).trans (onBoth_next _ s),
    State.withAll_pending _ _ _, ?_⟩
  rw [hstart]
  exact stBegin_begins hz

theorem stSliceBusy_ends (hx : s.dev.st.runs.look h = some x) (ht : x.testing = false) (hy : x.current = some y)
    (ha : x.attempts = 0) : Completes (.stSliceBusy h) s (fun t => t.mem = s.mem ∧
      x.dueAt + x.waitMs * oneMs ≤ t.dev.time.now ∧ StRun.passed h x 5 t) := by
  obtain ⟨ms, hms⟩ : ∃ n, n = oneMs := ⟨_, rfl⟩
  obtain ⟨e, he⟩ : ∃ e, e = s.dev.advanceTo (x.dueAt + x.waitMs * ms) := ⟨_, rfl⟩
  have hnow : x.dueAt + x.waitMs * ms ≤ e.time.now := he ▸ Device.le_now_advanceTo _ _
  have htime : (e.stEnd h x 5 0).time = e.time := by
    have hf : e.agrees [.evt, .mbx, .diag, .jobs, .units, .clusters, .memsys, .vis, .grid, .slv, .loc, .map, .prs, .st]
      (e.stEnd h x 5 0) := by simp
    exact hf.time (by decide)
  have hstep : execStSliceBusy h s = .next (s.withDev (e.stEnd h x 5 0)) := by
    unfold execStSliceBusy
    rw [onDev_next, he, ← hms, hx]
    dsimp only
    rw [if_neg (by simp [ht, hy, ha])]
  rw [← hms]
  refine ⟨_, hstep, rfl, rfl, ?_, Device.stEnd_passed hy rfl⟩
  exact Nat.le_trans hnow (Nat.le_of_eq (congrArg (·.now) htime.symm))

/-- A void slice waits again, or its run passes with WINDOW (R781). -/
theorem stVoid_voids {job : Nat} (d : Device) (m : Store) (hy : x.current = some y) (t : State)
    (ht : t.dev = (stVoid h job x y d m).1) :
    if x.voids < 2 then
      ∃ q, t.dev.st.runs.look h = some q ∧ q.testing = false ∧ q.voids = x.voids + 1 ∧ q.results = x.results
    else StRun.passed h x 4 t := by
  unfold stVoid at ht
  obtain ⟨⟨e, n⟩, he⟩ : ∃ dm, stRestore x y job d m = dm := ⟨_, rfl⟩
  rw [he] at ht
  dsimp only at ht
  by_cases h3 : x.voids < 2
  · rw [if_pos h3, ht, if_neg (show ¬ 3 ≤ x.voids + 1 by omega)]
    exact ⟨_, Tbl.look_put_same _ _ _, rfl, rfl, rfl⟩
  · rw [if_neg h3]
    rw [if_pos (show 3 ≤ x.voids + 1 by omega)] at ht
    exact Device.stEnd_passed (r := { x with testing := false, voids := x.voids + 1, heldFrom := e.time.now }) hy ht

theorem stWindowVoid_voids {job : Nat} (ht : s.dev.stTesting h = some (x, y, job)) (hk : x.kind = 0) :
    Completes (.stWindowVoid h) s (fun t => if x.voids < 2 then
        ∃ q, t.dev.st.runs.look h = some q ∧ q.testing = false ∧ q.voids = x.voids + 1 ∧ q.results = x.results
      else StRun.passed h x 4 t) := by
  obtain ⟨hx, hy⟩ := Device.stTesting_some ht
  refine ⟨_, (show exec (.stWindowVoid h) s = execStWindowVoid h s from rfl).trans (onBoth_next _ s),
    State.withAll_pending _ _ _, ?_⟩
  rw [ht]
  dsimp only
  rw [if_pos hk]
  exact stVoid_voids s.dev s.mem hy _ rfl

theorem stTimeout_ends {job : Nat} (d : Device) (m : Store) (ht : d.stTesting h = some (x, y, job)) :
    ∃ (e : Device) (n : Store), stTimeout h d m = (e.stEnd h x 6 0, n) := by
  unfold stTimeout
  rw [ht]
  exact ⟨_, _, rfl⟩

theorem stSliceTimeout_ends {job : Nat} (ht : s.dev.stTesting h = some (x, y, job)) :
    Completes (.stSliceTimeout h) s (fun t => StRun.passed h x 6 t) := by
  obtain ⟨hx, hy⟩ := Device.stTesting_some ht
  obtain ⟨e, n, hend⟩ := stTimeout_ends s.dev s.mem ht
  have hnext := (show exec (.stSliceTimeout h) s = execStSliceTimeout h s from rfl).trans (onBoth_next _ s)
  rw [hend] at hnext
  exact ⟨_, hnext, State.withAll_pending _ _ _, Device.stEnd_passed hy rfl⟩

/-- A memory slice that finds nothing of its target passes clean. -/
theorem Device.stMemory_clean {d : Device} {r : StRun} {out : SliceOut} (hf : out.finds.filter y.canFind = []) :
    d.stMemory r y out = (d, 0, []) := by
  unfold Device.stMemory
  dsimp only
  rw [hf]
  rfl

/-- A logic slice with the signature it expects passes clean. -/
theorem Device.stLogic_clean {d : Device} {r : StRun} {out : SliceOut}
    (hs : out.sigExp % 2 ^ 64 = out.sigObs % 2 ^ 64) : d.stLogic r y out = (d, 0, []) := by
  unfold Device.stLogic
  exact if_pos hs

/-- A slice whose clock held ends with the outcome of its finds (R787). -/
theorem stSliceEnd_ends {job : Nat} {out : SliceOut} (d : Device) (m : Store) (ht : d.stTesting h = some (x, y, job))
    (hc : x.kind = 0 → d.stClock 0 y = x.clock ∧ d.stClockOk 0 x.clkMin y = true) :
    ∃ (e : Device) (n : Store) (p : Device × Nat × List (List Byte)),
      p = (if x.kind = 0 then d.stMemory x y out else d.stLogic x y out) ∧
      stSliceEnd h out d m = (e.stEnd h (x.keep p.2.2) p.2.1 p.2.2.length, n) := by
  have hheld : ¬ (decide (x.kind = 0) && (d.stClock 0 y != x.clock || !d.stClockOk 0 x.clkMin y)) = true := by
    by_cases hk : x.kind = 0
    · obtain ⟨h1, h2⟩ := hc hk
      simp [h1, h2]
    · simp [hk]
  unfold stSliceEnd
  rw [ht]
  dsimp only
  rw [if_neg hheld]
  exact ⟨_, _, _, rfl, rfl⟩

theorem stSliceEnd_passes {job : Nat} {out : SliceOut} (ht : s.dev.stTesting h = some (x, y, job))
    (hc : x.kind = 0 → s.dev.stClock 0 y = x.clock ∧ s.dev.stClockOk 0 x.clkMin y = true) :
    Completes (.stSliceEnd h out) s (fun t => (∃ outcome, StRun.passed h x outcome t) ∧
      ((if x.kind = 0 then out.finds.filter y.canFind = [] else out.sigExp % 2 ^ 64 = out.sigObs % 2 ^ 64) →
        StRun.passed h x 0 t)) := by
  obtain ⟨hx, hy⟩ := Device.stTesting_some ht
  obtain ⟨e, n, p, hp, hend⟩ := stSliceEnd_ends (out := out) s.dev s.mem ht hc
  have hnext := (show exec (.stSliceEnd h out) s = execStSliceEnd h out s from rfl).trans (onBoth_next _ s)
  rw [hend] at hnext
  have hpass : StRun.passed h x p.2.1 (s.withAll (e.stEnd h (x.keep p.2.2) p.2.1 p.2.2.length) n) :=
    Device.stEnd_passed (r := x.keep p.2.2) hy rfl
  refine ⟨_, hnext, State.withAll_pending _ _ _, ⟨_, hpass⟩, fun hclean => ?_⟩
  have hzero : p.2.1 = 0 := by
    rw [hp]
    split at hclean
    · next hk => rw [if_pos hk, Device.stMemory_clean hclean]
    · next hk => rw [if_neg hk, Device.stLogic_clean hclean]
  exact (congrArg (fun o => StRun.passed h x o _) hzero).mp hpass

end

/-- Settles O53. -/
theorem selfTestRuns : Obligations.SelfTestRuns := by
  intro s ch r
  exact ⟨fun _ _ _ hr hxs hok hready hres htwo hsave hroom => stRun_accepts hr hxs hok hready hres htwo hsave hroom,
    fun _ hr hx => stProgress_reports hr hx,
    fun _ _ _ _ _ _ hx ht hy hup hjob hj hw hclk hv hsoft hfree hmom hz =>
      stSliceStart_begins hx ht hy hup hjob hj hw hclk hv hsoft hfree hmom hz,
    fun _ _ _ hx ht hy hup => stSliceStart_off hx ht hy hup, fun _ _ _ hx ht hy ha => stSliceBusy_ends hx ht hy ha,
    fun _ _ _ _ _ ht hc => stSliceEnd_passes ht hc, fun _ _ _ _ ht => stSliceTimeout_ends ht,
    fun _ _ _ _ ht hk => stWindowVoid_voids ht hk,
    fun hr hhot hf hroom hn => stFuse_accepts hr hhot hf hroom hn, stFuseStatus_reports,
    fun _ _ _ _ hf hl => fuseRecordBlow_blows hf hl⟩

end Sys2Proof.Machine
end
